-- ==== Sys2Proof/Word.lean ====
section
/-! DEFINITION. The word types of the gate (R8, R9) and the identifiers that the manual numbers. -/

namespace Sys2Proof

/-- One byte. -/
abbrev Byte := BitVec 8
/-- A 16-bit half word. -/
abbrev Half := BitVec 16
/-- A 32-bit word: direct registers, FP32 patterns, token indices. -/
abbrev Word := BitVec 32
/-- A 64-bit word: plumb, handles, identifiers, cell registers. -/
abbrev DWord := BitVec 64
/-- A node identifier, 12 bits (R58, R512). -/
abbrev NodeId := BitVec 12
/-- A context slot, 0 to 32,767 (R58). -/
abbrev SlotId := Fin 32768
/-- A logical link, 0 to 63 (R348). -/
abbrev LinkId := Fin 64
/-- A host bulk port, 0 to 15 (R389). -/
abbrev BulkId := Fin 16
/-- A gate queue, 0 to 511 (R405). -/
abbrev QueueId := Fin 512
/-- A logical cell identifier, 12 bits (R212). -/
abbrev CellId := BitVec 12
/-- A general or vector register number of a cell, 0 to 31 (R241). -/
abbrev CellReg := BitVec 5
/-- A tile number of a cell, 0 to 3 (R241). -/
abbrev TileId := BitVec 2
/-- A lane's value register number of the bridle, 0 to 15 (R328). -/
abbrev LaneReg := BitVec 4

end Sys2Proof
end

