-- ==== Sys2Proof/Syntax/Tables.lean ====
section
/-! DEFINITION. The contents of a policy bundle's sections (R435) as data: every table whose layout the manual gives, one
field for each field of its layout, reserved bytes left out. Big tables are lists of (index, entry) pairs: an index that
no pair names reads as the layout's zero entry. -/

namespace Sys2Proof

/-- One latency manifest entry (R48). -/
structure ManifestEntry where
  stage : Nat
  failOpen : Bool
  crossesWelt : Bool
  crossGate : Bool
  contribution : Bool
  roles : Byte
  delay : Nat
  readyBy : Nat
  edgeLatency : Nat
  edgeAlign : Nat
  sourceNode : NodeId
  contributionId : Nat
deriving DecidableEq, Repr

/-- The latency manifest (R48). -/
structure LatencyManifest where
  magic : Word
  format : Nat
  policyId : DWord
  distanceId : DWord
  capabilityId : DWord
  clockNorth : Nat
  clockSouth : Nat
  castWindow : Nat
  bridleRun : Nat
  entries : List ManifestEntry
deriving DecidableEq, Repr

/-- The resource manifest (R437). -/
structure ResourceManifest where
  magic : Word
  format : Nat
  roles : Byte
  placedBytes : Nat
  weightBytes : Nat
  classBytes : Nat
  biasBytes : Nat
  cellCount : Nat
deriving DecidableEq, Repr

/-- A route table entry: hops and up to four candidate bytes, cand0 first (R358). -/
structure RouteEntry where
  hops : Nat
  cands : List Byte
deriving DecidableEq, Repr

/-- A slot table entry (R362). -/
structure SlotEntry where
  slot : BitVec 24
  inEdge : Byte
  outEdge : Byte
  units : Nat
  source : NodeId
  checkSource : Bool
  opens : Nat
  closes : Nat
deriving DecidableEq, Repr

/-- The slot table (R362). -/
structure SlotTable where
  frameTicks : Nat
  frameBase : Nat
  entries : List SlotEntry
deriving DecidableEq, Repr

/-- A branch of a group entry: the link and the members reached through it (R373). -/
structure GroupBranch where
  out : LinkId
  members : BitVec 256
deriving DecidableEq, Repr

/-- A group table entry (R373). -/
structure GroupEntry where
  atNode : Bool
  report : Bool
  member : Nat
  budget : Nat
  completionDelay : Nat
  completionQueue : QueueId
  branches : List GroupBranch
deriving DecidableEq, Repr

/-- A queue table entry (R405); direction true: the host writes and the firmware reads. -/
structure QueueCfg where
  spillOffset : Nat
  spillItems : Nat
  level : Nat
  hostWrites : Bool
  priority : Nat
deriving DecidableEq, Repr

/-- The role table and the settings that the manual says the policy names without giving their place: the stream event
and link event queues (R69, R385), the class weights and marks (R361, R372), the ingress route (R114), the class of
best-effort packets (R69, R155) and the port of an ingress contribution (R119). -/
structure RoleTable where
  roles : Byte
  streamEventQueue : QueueId
  linkEventQueue : QueueId
  bestEffortClass : Nat
  weights : List Nat
  markBytes : List Nat
  ingressRoutes : List (Nat × NodeId × Byte)
  ingressRouteDefault : NodeId × Byte
  contributionPort : Byte
deriving DecidableEq, Repr

/-- A special-token entry (R100). -/
structure SpecialToken where
  tokenId : Nat
  spelling : List Byte
  isDefined : Bool
deriving DecidableEq, Repr

/-- A vocabulary hash slot (R107), occupied. -/
structure VocabSlot where
  poolOffset : Nat
  length : Nat
  wholeOk : Bool
  fingerprint : Nat
  tokenId : Nat
deriving DecidableEq, Repr

/-- A merge table slot (R108), occupied. -/
structure MergeSlot where
  rank : Nat
  result : Nat
  right : Nat
  left : Nat
deriving DecidableEq, Repr

/-- The skiver tables (R100 to R109). -/
structure SkiverTables where
  magic : Word
  chunkBytes : Nat
  unitMask : Byte
  templateFromHost : Bool
  segmentLimit : Nat
  controlMode : DWord
  pretokAutomaton : Nat
  vocabCount : Nat
  mergeCount : Nat
  specialCount : Nat
  senders : List NodeId
  specials : List (Nat × SpecialToken)
  byteMap : List (Nat × Nat)
  vocab : List (Nat × VocabSlot)
  pool : List Byte
  merges : List (Nat × MergeSlot)
deriving DecidableEq, Repr

/-- A detokenizer entry (R125). -/
structure DetokEntry where
  poolOffset : Nat
  length : Nat
  ends : Bool
  kind : Nat
deriving DecidableEq, Repr

/-- A stop-string entry (R149). -/
structure StopString where
  inclusive : Bool
  text : List Byte
deriving DecidableEq, Repr

/-- The egress tables (R124, R125, R149). -/
structure EgressTables where
  magic : Word
  idLimit : Nat
  defaultOverflow : Nat
  hideRedactLength : Bool
  detok : List (Nat × DetokEntry)
  pool : List Byte
  stopSets : List (List StopString)
deriving DecidableEq, Repr

/-- A report record of an automaton (R166). -/
structure AwlReport where
  groups : Word
  length : Nat
  pattern : Nat
deriving DecidableEq, Repr

/-- A directory entry with its class map and report table (R165, R166). -/
structure Automaton where
  kind : Nat
  sub : Nat
  classes : Nat
  firstLane : Nat
  replicas : Nat
  base : Nat
  start : Nat
  entries : Nat
  ingress : Bool
  egress : Bool
  channels : Nat
  segmentReset : Bool
  contentId : DWord
  classMap : List Nat
  reports : List AwlReport
deriving DecidableEq, Repr

/-- The awl tables (R159 to R168): transition words by (lane, offset). -/
structure AwlTables where
  magic : Word
  northServes : Bool
  southServes : Bool
  automata : List Automaton
  words : List ((Nat × Nat) × Word)
  sets : List (List Nat)
  tenantMap : List (Nat × (Nat × Nat))
deriving DecidableEq, Repr

/-- A feature plan entry (R187). -/
structure FeatureEntry where
  srcKind : Nat
  srcIndex : Nat
  op : Nat
  categorical : Bool
  inputIsFeature : Bool
  a : Word
  b : Word
  accWord : Nat
  field : Nat
deriving DecidableEq, Repr

/-- A tree node (R197). -/
structure TreeNode where
  right : Nat
  left : Nat
  defaultRight : Bool
  kind : Nat
  feature : Nat
  operand : Word
deriving DecidableEq, Repr

/-- An ensemble entry (R200); `trees` is the number of trees. -/
structure Ensemble where
  firstTree : Nat
  trees : Nat
  link : Nat
  base : Word
  errorValue : Word
  worst : Word
  neutral : Word
deriving DecidableEq, Repr

/-- A tree entry (R200). -/
structure TreeEntry where
  pipeline : Nat
  depth : Nat
  root : Nat
deriving DecidableEq, Repr

/-- The armature tables (R185 to R200). -/
structure ArmatureTables where
  magic : Word
  egressOffset : Nat
  ingressOffset : Nat
  northServes : Bool
  southServes : Bool
  layoutId : DWord
  hostWords : BitVec 256
  initial : List (Nat × Word)
  features : List FeatureEntry
  edges : List (List Word)
  nodes : List (Nat × TreeNode)
  bitmaps : List (BitVec 256)
  ensembles : List Ensemble
  trees : List TreeEntry
  sets : List (List Nat)
  tenantMap : List (Nat × (Nat × Nat))
deriving DecidableEq, Repr

/-- A tap declaration (R270); `none` matches any node. -/
structure TapDecl where
  edge : Nat
  south : Bool
  sourceNode : Option NodeId
  destNode : Option NodeId
  destPort : Byte
  inFormat : Nat
  elements : Nat
  rows : Nat
  rowBytes : Nat
  probeFirst : Nat
  probeN : Nat
  window : Nat
  layoutId : DWord
deriving DecidableEq, Repr

/-- A probe (R277). -/
structure ProbeDecl where
  mlp : Bool
  fmt : Nat
  actFmt : Nat
  link : Nat
  outputs : Nat
  scores : Nat
  steering : Bool
  accShift : Int
  contributionId : Nat
  weights : Nat
  bias : Nat
  handler : Nat
  cellList : List CellId
  worst : Word
  neutral : Word
  areaBase : Nat
deriving DecidableEq, Repr

/-- The callipers tables (R269, R270, R277). -/
structure CallipersTables where
  magic : Word
  taps : List TapDecl
  probes : List ProbeDecl
  weightImage : List Byte
deriving DecidableEq, Repr

/-- A grammar state (R304). -/
structure GrammarState where
  isFinal : Bool
  maskRow : Nat
  actionBase : Nat
deriving DecidableEq, Repr

/-- A mask row (R305). -/
structure MaskRow where
  allow : BitVec 4096
  need1 : BitVec 4096
  need2 : BitVec 4096
deriving DecidableEq, Repr

/-- A grammar action (R306). -/
structure GrammarAction where
  returns : Bool
  pushes : Nat
  pops : Nat
  push1 : Nat
  push0 : Nat
  target : Nat
deriving DecidableEq, Repr

/-- The sampler tables (R298 to R318); a bias vector is (token ID, FP32) pairs. -/
structure SamplerTables where
  magic : Word
  vocab : Nat
  maxDrafts : Nat
  northServes : Bool
  southServes : Bool
  tokenPort : Byte
  tokenGroup : Nat
  classCount : Nat
  grammarStreams : Nat
  logitWindow : Nat
  grammars : List (Nat × DWord)
  states : List (Nat × GrammarState)
  rows : List MaskRow
  actions : List (Nat × GrammarAction)
  classMap : List (Nat × Nat)
  biases : List (List (Nat × Word))
deriving DecidableEq, Repr

/-- A verdict program (R326). -/
structure VerdictProgram where
  first : Nat
  length : Nat
  egress : Bool
  ingress : Bool
deriving DecidableEq, Repr

/-- The bridle tables (R326); `defaults` gives worst and neutral by contribution_id. -/
structure BridleTables where
  magic : Word
  programs : List VerdictProgram
  code : List DWord
  haltGroup : Nat
  noticePort : Byte
  auditMode : Nat
  auditQueue : QueueId
  haltQueue : Option QueueId
  northServes : Bool
  southServes : Bool
  tenantMap : List (Nat × (Nat × Nat))
  defaults : List (Nat × (Word × Word))
deriving DecidableEq, Repr

/-- A judge stage (R260). -/
structure JudgeStage where
  frames : Nat
  frameBytes : Nat
  areaBase : Nat
  cells : List CellId
deriving DecidableEq, Repr

/-- The judge descriptor (R260). -/
structure JudgeTables where
  magic : Word
  judgeOffset : Nat
  scores : Nat
  entryHandler : Nat
  ingressRing : Nat
  worst : List Word
  neutral : List Word
  stages : List JudgeStage
deriving DecidableEq, Repr

/-- A window of a cell image (R258): a span of shared memory and whether it may be written. -/
structure CellWindow where
  table : Nat
  length : Nat
  writable : Bool
deriving DecidableEq, Repr

/-- A cell image (R258). -/
structure CellImage where
  cell : CellId
  judgeEntry : Bool
  loadBase : Nat
  rangeBytes : Nat
  barrierMask : DWord
  handlers : List Nat
  windows : List CellWindow
  relocs : List (Nat × Nat)
  body : List Byte
deriving DecidableEq, Repr

/-- The contents of all sections of one bundle (R435). -/
structure PolicyTables where
  resources : ResourceManifest
  latency : LatencyManifest
  routes : List (Nat × RouteEntry)
  slots : SlotTable
  groups : List (Nat × GroupEntry)
  queueTable : List QueueCfg
  delivery : List Byte
  role : RoleTable
  skiver : Option SkiverTables
  egress : Option EgressTables
  awl : Option AwlTables
  armature : Option ArmatureTables
  callipers : Option CallipersTables
  sampler : Option SamplerTables
  bridle : Option BridleTables
  judge : Option JudgeTables
  images : List CellImage
deriving DecidableEq, Repr

/-- Where a table stands in the content of its section: the manual numbers no tables and gives no offsets (log 47). -/
structure TableSpan where
  kind : Nat
  table : Nat
  offset : Nat
  bytes : Nat
deriving DecidableEq, Repr

/-- Where entries of an awl slice stand in section 0x12: their lane, the first one's row offset and their number (R164). -/
structure SliceSpan where
  lane : Nat
  first : Nat
  entries : Nat
  offset : Nat
deriving DecidableEq, Repr

/-- What a bundle's bytes leave open: where the tables of its engine sections stand, and the role table, which the manual gives no
layout. -/
structure SectionMap where
  role : RoleTable
  spans : List TableSpan := []
  slices : List SliceSpan := []
deriving DecidableEq, Repr

end Sys2Proof
end

