-- ==== Sys2Proof/Syntax.lean ====
section
/-! DEFINITION. The commands of the gate: one constructor of `Instr` per row of spec/opcode_table.json, with the data
that arrives from outside as its operands. An event of the gate's own that the state determines carries only the number of
the unit it happens to (assumption log 4). -/

namespace Sys2Proof

/-- A management port (R418). -/
inductive MPort where
  | a
  | b
deriving DecidableEq, Repr

/-- A half of the gate (R15). -/
inductive HalfId where
  | north
  | south
deriving DecidableEq, Repr

/-- Where a register access enters: control port 0 (management port A), control port 1, or management port B (R399, R420). -/
inductive Bus where
  | ctl0
  | ctl1
  | mgtb
deriving DecidableEq, Repr

/-- A supply whose loss R504 names. -/
inductive Rail where
  | north
  | south
  | x
  | sram
  | aon
deriving DecidableEq, Repr

/-- What the boot self-test finds failing (R456). -/
inductive TestFinding where
  | cell (c : CellId)
  | spareCell (bench : Byte)
  | engine (h : HalfId) (e : Fin 7)
  | skiverUnit (u : Fin 8)
  | weltGroup (southward : Bool) (g : Fin 64)
deriving DecidableEq, Repr

/-- What the gate samples at the release of reset: the straps (R513, R380), the fuses (R430) and the findings of the
self-test (R456). -/
structure Straps where
  nodeStrap : Bool
  nodeId : NodeId
  plumbMaster : Bool
  keyHash : List Byte
  minSecurity : Word
  findings : List TestFinding
deriving DecidableEq, Repr

/-- The fields of a link header (R353). -/
structure Header where
  handle : BitVec 48
  seq : BitVec 24
  length : Byte
  multicast : Bool
  echo : Bool
  mark : Bool
  fence : Bool
  cls : BitVec 3
  source : NodeId
  port : Byte
  dest : NodeId
  gap : Bool
deriving DecidableEq, Repr

/-- A packet inside the gate: header and payload bytes (R352). -/
structure Packet where
  hdr : Header
  payload : List Byte
deriving DecidableEq, Repr

/-- A packet as a link receives it: with its trailer (R352). -/
structure WirePacket where
  pkt : Packet
  trailer : Word
deriving DecidableEq, Repr

/-- A packet as a bulk port receives it: its virtual channel, its beats and whether sop and eop came in order (R390, R393). -/
structure HostPacket where
  pkt : Packet
  vc : Fin 4
  beats : Nat
  framed : Bool
deriving DecidableEq, Repr

/-- A memory of R468: its kind (R496: 0 shared, 1 local, 2 control, 3 buffer), its bank or logical cell, its macro, the row
and the byte address of the word. -/
structure MemLoc where
  kind : Fin 4
  unit : Nat
  macro16 : Nat
  row : Nat
  addr : Nat
deriving DecidableEq, Repr

/-- The commands (spec/opcode_table.json). -/
inductive Instr where
  /-- PLUMB_TICK (R31) -/
  | plumbTick
  /-- COLD_RESET_ASSERT (R453) -/
  | coldResetAssert
  /-- COLD_RESET_RELEASE (R455) -/
  | coldResetRelease (t : Straps)
  /-- ROM_READY (R455) -/
  | romReady
  /-- RESET_COLD_START (R454) -/
  | resetColdStart
  /-- POWER_GOOD_LOSS (R504) -/
  | powerGoodLoss (r : Rail)
  /-- THERMAL_SENSOR_READ (R508) -/
  | thermalSensorRead (t : List Int)
  /-- THERMAL_STEP_DOWN (R486) -/
  | thermalStepDown (h : HalfId)
  /-- THERMAL_STEP_UP (R486) -/
  | thermalStepUp (h : HalfId)
  /-- HALF_ARRAY_LOST (R488) -/
  | halfArrayLost (h : HalfId)
  /-- CURRENT_ESTIMATE (R505) -/
  | currentEstimate (north south x : Nat)
  /-- POWER_CAP_COMPARE (R506) -/
  | powerCapCompare
  /-- PLUMB_LO_READ (R35) -/
  | plumbLoRead (p : MPort)
  /-- PLUMB_STATUS_READ (R35) -/
  | plumbStatusRead (p : MPort)
  /-- PLUMB_STEPPED_CLEAR (R35) -/
  | plumbSteppedClear (p : MPort)
  /-- BOOT_FW_FAILED_CLEAR (R429) -/
  | bootFwFailedClear (p : MPort)
  /-- NODE_ID_WRITE (R513) -/
  | nodeIdWrite (p : MPort) (v : Word)
  /-- NOTICE_ACKNOWLEDGE (R514) -/
  | noticeAcknowledge (p : MPort) (bits : Word)
  /-- SEM_REQUEST (R426) -/
  | semRequest (k : Fin 32) (a b fw : Bool)
  /-- SEM_RELEASE (R426) -/
  | semRelease (k : Fin 32) (p : MPort)
  /-- SEM_FORCE (R426) -/
  | semForce (k : Fin 32) (p : MPort)
  /-- QUEUE_ITEM_READ (R408) -/
  | queueItemRead (q : QueueId)
  /-- QUEUE_ITEM_WRITE (R411) -/
  | queueItemWrite (q : QueueId) (item : List Byte)
  /-- QUEUE_OVERRUN_CLEAR (R415) -/
  | queueOverrunClear (q : QueueId)
  /-- QUEUE_LATCHED_ACK (R413) -/
  | queueLatchedAck (q : QueueId)
  /-- QUEUE_DROP_PACKET (R410) -/
  | queueDropPacket (q : QueueId)
  /-- REGISTER_WRITE (R11) -/
  | registerWrite (b : Bus) (addr : Word) (data : List Byte)
  /-- BOOT_INFO (R430) -/
  | bootInfo (p : MPort) (n : Fin 32)
  /-- FW_WRITE (R430) -/
  | fwWrite (p : MPort) (n : Fin 32)
  /-- FW_START (R432) -/
  | fwStart (p : MPort) (n : Fin 32)
  /-- FW_START_COMPLETE (R432) -/
  | fwStartComplete
  /-- KEY_LOAD (R434) -/
  | keyLoad (p : MPort) (n : Fin 32)
  /-- KEY_LOCK (R434) -/
  | keyLock (p : MPort) (n : Fin 32)
  /-- BUNDLE_BEGIN (R438) -/
  | bundleBegin (p : MPort) (n : Fin 32)
  /-- BUNDLE_WRITE (R438) -/
  | bundleWrite (p : MPort) (n : Fin 32)
  /-- BUNDLE_STAGE (R439) -/
  | bundleStage (p : MPort) (n : Fin 32)
  /-- BUNDLE_STAGE_COMPLETE (R439) -/
  | bundleStageComplete (m : SectionMap)
  /-- BUNDLE_DISCARD (R518) -/
  | bundleDiscard (p : MPort) (n : Fin 32)
  /-- CAST_ARM (R443) -/
  | castArm (p : MPort) (n : Fin 32)
  /-- CAST_DISARM (R443) -/
  | castDisarm (p : MPort) (n : Fin 32)
  /-- CAST_CONFIG (R446) -/
  | castConfig (p : MPort) (n : Fin 32)
  /-- STREAM_OPEN (R63) -/
  | streamOpen (p : MPort) (n : Fin 32)
  /-- STREAM_SET (R518) -/
  | streamSet (p : MPort) (n : Fin 32)
  /-- STREAM_CLOSE (R518) -/
  | streamClose (p : MPort) (n : Fin 32)
  /-- STREAM_QUERY (R518) -/
  | streamQuery (p : MPort) (n : Fin 32)
  /-- STREAM_FEATURES (R191) -/
  | streamFeatures (p : MPort) (n : Fin 32)
  /-- STREAM_ABORT (R462) -/
  | streamAbort (p : MPort) (n : Fin 32)
  /-- SNAPSHOT (R518) -/
  | snapshot (p : MPort) (n : Fin 32)
  /-- CAPABILITY_READ (R518) -/
  | capabilityRead (p : MPort) (n : Fin 32)
  /-- DISTANCE_READ (R518) -/
  | distanceRead (p : MPort) (n : Fin 32)
  /-- TELEMETRY_READ (R505) -/
  | telemetryRead (p : MPort) (n : Fin 32)
  /-- NOTICE_READ (R517) -/
  | noticeRead (p : MPort) (n : Fin 32)
  /-- NODE_FENCE (R376) -/
  | nodeFence (p : MPort) (n : Fin 32)
  /-- LINK_CONFIG (R518) -/
  | linkConfig (p : MPort) (n : Fin 32)
  /-- PLUMB_MASTER (R52) -/
  | plumbMaster (p : MPort) (n : Fin 32)
  /-- SYNC_CONFIG (R402) -/
  | syncConfig (p : MPort) (n : Fin 32)
  /-- GROUP_ALLOC (R518) -/
  | groupAlloc (p : MPort) (n : Fin 32)
  /-- GROUP_FREE (R518) -/
  | groupFree (p : MPort) (n : Fin 32)
  /-- HALF_CLOCK (R484) -/
  | halfClock (p : MPort) (n : Fin 32)
  /-- POWER_CAP (R506) -/
  | powerCap (p : MPort) (n : Fin 32)
  /-- THERMAL_CONFIG (R508) -/
  | thermalConfig (p : MPort) (n : Fin 32)
  /-- TENANT_BUDGET (R495) -/
  | tenantBudget (p : MPort) (n : Fin 32)
  /-- QUEUE_READ (R518) -/
  | queueRead (p : MPort) (n : Fin 32)
  /-- QUEUE_WRITE (R518) -/
  | queueWrite (p : MPort) (n : Fin 32)
  /-- QUEUE_STATUS (R517) -/
  | queueStatus (p : MPort) (n : Fin 32)
  /-- QUEUE_CONTROL (R517) -/
  | queueControl (p : MPort) (n : Fin 32)
  /-- RESET_COLD (R454) -/
  | resetCold (p : MPort) (n : Fin 32)
  /-- RESET_PLANE (R458) -/
  | resetPlane (p : MPort) (n : Fin 32)
  /-- RESET_FUNCTION (R460) -/
  | resetFunction (p : MPort) (n : Fin 32)
  /-- PLANE_RESTORE (R459) -/
  | planeRestore (p : MPort) (n : Fin 32)
  /-- ENGINE_ABORT (R465) -/
  | engineAbort (p : MPort) (n : Fin 32)
  /-- STREAM_SET_BOUNDARY (R80) -/
  | streamSetBoundary
  /-- STREAM_CLOSE_BOUNDARY (R73) -/
  | streamCloseBoundary
  /-- HOST_FEATURE_BOUNDARY (R191) -/
  | hostFeatureBoundary
  /-- STREAM_ABORT_BOUNDARY (R462) -/
  | streamAbortBoundary
  /-- ENGINE_ABORT_BOUNDARY (R465) -/
  | engineAbortBoundary
  /-- ENGINE_RESTART_COMPLETE (R465) -/
  | engineRestartComplete
  /-- NODE_FENCE_COMMIT (R376) -/
  | nodeFenceCommit
  /-- GROUP_ALLOC_BOUNDARY (R518) -/
  | groupAllocBoundary
  /-- GROUP_FREE_BOUNDARY (R518) -/
  | groupFreeBoundary
  /-- TENANT_BUDGET_BOUNDARY (R518) -/
  | tenantBudgetBoundary
  /-- PLANE_RESTORE_BOUNDARY (R459) -/
  | planeRestoreBoundary
  /-- PLANE_RESET_BOUNDARY (R458) -/
  | planeResetBoundary
  /-- PLANE_RETRAIN (R458) -/
  | planeRetrain
  /-- FUNCTION_RESET_BOUNDARY (R460) -/
  | functionResetBoundary
  /-- FUNCTION_RESET_COMPLETE (R460) -/
  | functionResetComplete
  /-- SNAPSHOT_TICK (R86) -/
  | snapshotTick
  /-- CAST_INSTANT (R444) -/
  | castInstant
  /-- CAST_WINDOW_END (R449) -/
  | castWindowEnd
  /-- POLICY_RETIRE (R447) -/
  | policyRetire
  /-- CAST_MESSAGE (R446) -/
  | castMessage
  /-- LINK_PACKET_RECEIVE (R363) -/
  | linkPacketReceive (k : LinkId) (w : WirePacket) (at16 : Nat)
  /-- HOST_PACKET_RECEIVE (R393) -/
  | hostPacketReceive (b : BulkId) (w : HostPacket)
  /-- HOST_CREDIT_RETURN (R391) -/
  | hostCreditReturn (b : BulkId) (vc : Fin 4)
  /-- LINK_OUTPUT_SELECT (R361) -/
  | linkOutputSelect (k : LinkId) (at16 : Nat)
  /-- HOST_OUTPUT_SELECT (R394) -/
  | hostOutputSelect (b : BulkId)
  /-- SYNC_PORT_EVENT (R402) -/
  | syncPortEvent (e : Half)
  /-- LANE_RX_UP_RISE (R381) -/
  | laneRxUpRise (g : Fin 8) (l : Fin 9)
  /-- LANE_RX_UP_FALL (R382) -/
  | laneRxUpFall (g : Fin 8) (l : Fin 9)
  /-- LANE_FAULT (R382) -/
  | laneFault (g : Fin 8) (l : Fin 9)
  /-- LINK_SILENCE_TIMEOUT (R381) -/
  | linkSilenceTimeout (k : LinkId)
  /-- LANE_MESSAGE (R382) -/
  | laneMessage
  /-- LANE_SPARE_ACCEPT_TIMEOUT (R382) -/
  | laneSpareAcceptTimeout (k : LinkId)
  /-- HELLO (R381) -/
  | hello
  /-- HELLO_SEND_TIMER (R381) -/
  | helloSendTimer (k : LinkId)
  /-- ROUTE (R360) -/
  | route
  /-- ROUTE_SEND_TIMER (R360) -/
  | routeSendTimer (k : LinkId)
  /-- SYNC (R380) -/
  | sync
  /-- SYNC_SEND_TIMER (R380) -/
  | syncSendTimer (k : LinkId)
  /-- DELAY_MEASURE_TIMER (R380) -/
  | delayMeasureTimer (k : LinkId)
  /-- DELAY_REQ (R379) -/
  | delayReq
  /-- DELAY_RESP (R380) -/
  | delayResp
  /-- HOLDOVER_TIMEOUT (R52) -/
  | holdoverTimeout
  /-- HOLDOVER_EXPIRY (R52) -/
  | holdoverExpiry
  /-- ACK (R368) -/
  | ack
  /-- ACK_SEND (R367) -/
  | ackSend (peer : NodeId)
  /-- RETRANSMIT_TIMEOUT (R369) -/
  | retransmitTimeout (peer : NodeId)
  /-- SEND_WINDOW_IDLE_FREE (R370) -/
  | sendWindowIdleFree (peer : NodeId)
  /-- RECEIVE_RECORD_IDLE_FREE (R370) -/
  | receiveRecordIdleFree (peer : NodeId)
  /-- MISS (R375) -/
  | miss
  /-- RETENTION_BUDGET_EXPIRY (R375) -/
  | retentionBudgetExpiry (k : LinkId)
  /-- MCAST_COMPLETION_RECORD (R377) -/
  | mcastCompletionRecord
  /-- STREAM_CONTROL_PACKET (R63) -/
  | streamControlPacket
  /-- OPEN_COMMIT (R64) -/
  | openCommit
  /-- SLOT_FREE (R73) -/
  | slotFree
  /-- HOST_FEATURE_PACKET (R191) -/
  | hostFeaturePacket
  /-- CONTRIBUTION_ARRIVE (R83) -/
  | contributionArrive
  /-- INGRESS_UNCLAIMED_TIMEOUT (R84) -/
  | ingressUnclaimedTimeout
  /-- TEXT_PACKET (R93) -/
  | textPacket
  /-- TEXT_PACKET_ACCEPT (R95) -/
  | textPacketAccept
  /-- CHUNK_ENCODE_DONE (R112) -/
  | chunkEncodeDone (u : Fin 8)
  /-- CHUNK_RELEASE (R114) -/
  | chunkRelease
  /-- SEGMENT_VERDICT_RELEASE (R118) -/
  | segmentVerdictRelease
  /-- LOGIT_PACKET (R295) -/
  | logitPacket
  /-- LOGIT_WINDOW_EXPIRY (R296) -/
  | logitWindowExpiry (k : SlotId)
  /-- SAMPLE_RELEASE (R319) -/
  | sampleRelease (k : SlotId)
  /-- AWL_ITEM_ADMIT (R171) -/
  | awlItemAdmit (h : HalfId) (l : Fin 256)
  /-- AWL_ITEM_DONE (R175) -/
  | awlItemDone (h : HalfId) (l : Fin 256)
  /-- AWL_REREAD (R179) -/
  | awlReread (h : HalfId) (l : Fin 256) (good : Bool)
  /-- ARMATURE_SAMPLE_ADMIT (R184) -/
  | armatureSampleAdmit
  /-- ARMATURE_RESULT (R204) -/
  | armatureResult (k : SlotId)
  /-- ARMATURE_REREAD (R205) -/
  | armatureReread (k : SlotId) (e : Fin 16) (good : Bool)
  /-- JUDGE_DISPATCH (R263) -/
  | judgeDispatch
  /-- JUDGE_RESULT (R264) -/
  | judgeResult (h : HalfId)
  /-- TAP_SLICE_TIMEOUT (R274) -/
  | tapSliceTimeout
  /-- PROBE_ITEM_DONE (R281) -/
  | probeItemDone (h : HalfId)
  /-- MLP_RESULT (R280) -/
  | mlpResult (h : HalfId)
  /-- PROBE_RELEASE (R283) -/
  | probeRelease
  /-- PROBE_RECORD_PACKET (R285) -/
  | probeRecordPacket
  /-- VERDICT_CUTOFF (R46) -/
  | verdictCutoff
  /-- BRIDLE_LANE_START (R327) -/
  | bridleLaneStart (h : HalfId) (l : Fin 16)
  /-- VERDICT_RELEASE (R137) -/
  | verdictRelease (k : SlotId)
  /-- HALT_MESSAGE (R338) -/
  | haltMessage
  /-- HANDLER_START (R242) -/
  | handlerStart (c : CellId)
  /-- CELL_MESSAGE_ARRIVE (R230) -/
  | cellMessageArrive (c : CellId)
  /-- BULK_TRANSFER_COMPLETE (R229) -/
  | bulkTransferComplete (c : CellId)
  /-- BARRIER_COMPLETE (R231) -/
  | barrierComplete (ch : Fin 64)
  /-- FLAG_CHANGE (R231) -/
  | flagChange
  /-- CELL_ADD (R245) -/
  | cellAdd (c : CellId) (d a b : CellReg)
  /-- CELL_SUB (R245) -/
  | cellSub (c : CellId) (d a b : CellReg)
  /-- CELL_AND (R245) -/
  | cellAnd (c : CellId) (d a b : CellReg)
  /-- CELL_OR (R245) -/
  | cellOr (c : CellId) (d a b : CellReg)
  /-- CELL_XOR (R245) -/
  | cellXor (c : CellId) (d a b : CellReg)
  /-- CELL_SLL (R245) -/
  | cellSll (c : CellId) (d a b : CellReg)
  /-- CELL_SRL (R245) -/
  | cellSrl (c : CellId) (d a b : CellReg)
  /-- CELL_SRA (R245) -/
  | cellSra (c : CellId) (d a b : CellReg)
  /-- CELL_MUL (R245) -/
  | cellMul (c : CellId) (d a b : CellReg)
  /-- CELL_SLT (R245) -/
  | cellSlt (c : CellId) (d a b : CellReg)
  /-- CELL_SLTU (R245) -/
  | cellSltu (c : CellId) (d a b : CellReg)
  /-- CELL_MIN (R245) -/
  | cellMin (c : CellId) (d a b : CellReg)
  /-- CELL_MAX (R245) -/
  | cellMax (c : CellId) (d a b : CellReg)
  /-- CELL_ADDI (R245) -/
  | cellAddi (c : CellId) (d a : CellReg) (imm : BitVec 14)
  /-- CELL_ANDI (R245) -/
  | cellAndi (c : CellId) (d a : CellReg) (imm : BitVec 14)
  /-- CELL_ORI (R245) -/
  | cellOri (c : CellId) (d a : CellReg) (imm : BitVec 14)
  /-- CELL_XORI (R245) -/
  | cellXori (c : CellId) (d a : CellReg) (imm : BitVec 14)
  /-- CELL_SLLI (R245) -/
  | cellSlli (c : CellId) (d a : CellReg) (imm : BitVec 14)
  /-- CELL_SRLI (R245) -/
  | cellSrli (c : CellId) (d a : CellReg) (imm : BitVec 14)
  /-- CELL_SRAI (R245) -/
  | cellSrai (c : CellId) (d a : CellReg) (imm : BitVec 14)
  /-- CELL_SLTI (R245) -/
  | cellSlti (c : CellId) (d a : CellReg) (imm : BitVec 14)
  /-- CELL_EXTR (R245) -/
  | cellExtr (c : CellId) (d a : CellReg) (lsb width1 : BitVec 6)
  /-- CELL_LUI (R245) -/
  | cellLui (c : CellId) (d : CellReg) (imm : BitVec 19)
  /-- CELL_LD_B (R245) -/
  | cellLdB (c : CellId) (d a : CellReg) (imm : BitVec 14)
  /-- CELL_LD_H (R245) -/
  | cellLdH (c : CellId) (d a : CellReg) (imm : BitVec 14)
  /-- CELL_LD_W (R245) -/
  | cellLdW (c : CellId) (d a : CellReg) (imm : BitVec 14)
  /-- CELL_LD_D (R245) -/
  | cellLdD (c : CellId) (d a : CellReg) (imm : BitVec 14)
  /-- CELL_ST_B (R245) -/
  | cellStB (c : CellId) (d a : CellReg) (imm : BitVec 14)
  /-- CELL_ST_H (R245) -/
  | cellStH (c : CellId) (d a : CellReg) (imm : BitVec 14)
  /-- CELL_ST_W (R245) -/
  | cellStW (c : CellId) (d a : CellReg) (imm : BitVec 14)
  /-- CELL_ST_D (R245) -/
  | cellStD (c : CellId) (d a : CellReg) (imm : BitVec 14)
  /-- CELL_BEQ (R245) -/
  | cellBeq (c : CellId) (a b : CellReg) (off : BitVec 14)
  /-- CELL_BNE (R245) -/
  | cellBne (c : CellId) (a b : CellReg) (off : BitVec 14)
  /-- CELL_BLT (R245) -/
  | cellBlt (c : CellId) (a b : CellReg) (off : BitVec 14)
  /-- CELL_BGE (R245) -/
  | cellBge (c : CellId) (a b : CellReg) (off : BitVec 14)
  /-- CELL_BLTU (R245) -/
  | cellBltu (c : CellId) (a b : CellReg) (off : BitVec 14)
  /-- CELL_BGEU (R245) -/
  | cellBgeu (c : CellId) (a b : CellReg) (off : BitVec 14)
  /-- CELL_J (R245) -/
  | cellJ (c : CellId) (off : BitVec 19)
  /-- CELL_JAL (R245) -/
  | cellJal (c : CellId) (d : CellReg) (off : BitVec 19)
  /-- CELL_JR (R245) -/
  | cellJr (c : CellId) (a : CellReg)
  /-- CELL_VADD (R246) -/
  | cellVadd (c : CellId) (int : Bool) (d a b : CellReg)
  /-- CELL_VSUB (R246) -/
  | cellVsub (c : CellId) (int : Bool) (d a b : CellReg)
  /-- CELL_VMUL (R246) -/
  | cellVmul (c : CellId) (int : Bool) (d a b : CellReg)
  /-- CELL_VFMA (R246) -/
  | cellVfma (c : CellId) (int : Bool) (d a b e : CellReg)
  /-- CELL_VMAX (R246) -/
  | cellVmax (c : CellId) (int : Bool) (d a b : CellReg)
  /-- CELL_VMIN (R246) -/
  | cellVmin (c : CellId) (int : Bool) (d a b : CellReg)
  /-- CELL_VBCAST (R245) -/
  | cellVbcast (c : CellId) (d a : CellReg)
  /-- CELL_VRED (R246) -/
  | cellVred (c : CellId) (int : Bool) (d a : CellReg)
  /-- CELL_VLD (R245) -/
  | cellVld (c : CellId) (d a : CellReg) (imm : BitVec 14)
  /-- CELL_VST (R245) -/
  | cellVst (c : CellId) (d a : CellReg) (imm : BitVec 14)
  /-- CELL_MCLR (R220) -/
  | cellMclr (c : CellId) (t : TileId) (mode : BitVec 2) (shift : Byte)
  /-- CELL_MSTEP (R221) -/
  | cellMstep (c : CellId) (t : TileId) (va vb : CellReg) (asel : BitVec 4) (bsel : BitVec 2) (vec : Bool) (fmt : BitVec 3)
  /-- CELL_MRD (R224) -/
  | cellMrd (c : CellId) (t : TileId) (vd : CellReg) (target : BitVec 3) (sat clr : Bool) (row : BitVec 2) (rowmode : Bool) (q : BitVec 2) (shift : BitVec 7)
  /-- CELL_MSTAT (R247) -/
  | cellMstat (c : CellId) (t : TileId) (d : CellReg)
  /-- CELL_SEND (R251) -/
  | cellSend (c : CellId) (a : CellReg)
  /-- CELL_SENDW (R251) -/
  | cellSendw (c : CellId) (a : CellReg)
  /-- CELL_RECV (R252) -/
  | cellRecv (c : CellId) (d : CellReg)
  /-- CELL_RQLEN (R252) -/
  | cellRqlen (c : CellId) (d : CellReg)
  /-- CELL_BPUT (R253) -/
  | cellBput (c : CellId) (a b : CellReg) (tag : BitVec 6) (len : Byte)
  /-- CELL_BGET (R254) -/
  | cellBget (c : CellId) (a b : CellReg) (tag : BitVec 6) (len : Byte)
  /-- CELL_BPOST (R254) -/
  | cellBpost (c : CellId) (a b : CellReg) (tag : BitVec 6) (len : Byte)
  /-- CELL_BAR (R255) -/
  | cellBar (c : CellId) (ch : BitVec 6)
  /-- CELL_FSET (R255) -/
  | cellFset (c : CellId) (f : Byte)
  /-- CELL_FCLR (R255) -/
  | cellFclr (c : CellId) (f : Byte)
  /-- CELL_FRD (R255) -/
  | cellFrd (c : CellId) (d : CellReg) (f : Byte)
  /-- CELL_FWAIT (R255) -/
  | cellFwait (c : CellId) (f : Byte) (v : Bool)
  /-- CELL_NOP (R245) -/
  | cellNop (c : CellId)
  /-- CELL_END (R242) -/
  | cellEnd (c : CellId)
  /-- CELL_CSRR (R256) -/
  | cellCsrr (c : CellId) (d : CellReg) (k : BitVec 14)
  /-- CELL_PLUMB (R256) -/
  | cellPlumb (c : CellId) (d : CellReg)
  /-- BRIDLE_END (R329) -/
  | bridleEnd (h : HalfId) (l : Fin 16)
  /-- BRIDLE_LD (R331) -/
  | bridleLd (h : HalfId) (l : Fin 16) (d : LaneReg) (sel : BitVec 24)
  /-- BRIDLE_LI (R329) -/
  | bridleLi (h : HalfId) (l : Fin 16) (d : LaneReg) (imm : Word)
  /-- BRIDLE_FADD (R329) -/
  | bridleFadd (h : HalfId) (l : Fin 16) (d a b : LaneReg)
  /-- BRIDLE_FMUL (R329) -/
  | bridleFmul (h : HalfId) (l : Fin 16) (d a b : LaneReg)
  /-- BRIDLE_FMAX (R329) -/
  | bridleFmax (h : HalfId) (l : Fin 16) (d a b : LaneReg)
  /-- BRIDLE_FMIN (R329) -/
  | bridleFmin (h : HalfId) (l : Fin 16) (d a b : LaneReg)
  /-- BRIDLE_AND (R329) -/
  | bridleAnd (h : HalfId) (l : Fin 16) (d a b : LaneReg)
  /-- BRIDLE_OR (R329) -/
  | bridleOr (h : HalfId) (l : Fin 16) (d a b : LaneReg)
  /-- BRIDLE_ADD (R329) -/
  | bridleAdd (h : HalfId) (l : Fin 16) (d a b : LaneReg)
  /-- BRIDLE_BFLT (R329) -/
  | bridleBflt (h : HalfId) (l : Fin 16) (a b : LaneReg) (k : Nat)
  /-- BRIDLE_BFGE (R329) -/
  | bridleBfge (h : HalfId) (l : Fin 16) (a b : LaneReg) (k : Nat)
  /-- BRIDLE_BNAN (R329) -/
  | bridleBnan (h : HalfId) (l : Fin 16) (a : LaneReg) (k : Nat)
  /-- BRIDLE_BEQ (R329) -/
  | bridleBeq (h : HalfId) (l : Fin 16) (a b : LaneReg) (k : Nat)
  /-- BRIDLE_BNE (R329) -/
  | bridleBne (h : HalfId) (l : Fin 16) (a b : LaneReg) (k : Nat)
  /-- BRIDLE_BLTU (R329) -/
  | bridleBltu (h : HalfId) (l : Fin 16) (a b : LaneReg) (k : Nat)
  /-- BRIDLE_BGEU (R329) -/
  | bridleBgeu (h : HalfId) (l : Fin 16) (a b : LaneReg) (k : Nat)
  /-- BRIDLE_BBIT (R329) -/
  | bridleBbit (h : HalfId) (l : Fin 16) (a : LaneReg) (bit : BitVec 5) (k : Nat)
  /-- BRIDLE_HOLD (R334) -/
  | bridleHold (h : HalfId) (l : Fin 16) (span : BitVec 10) (disp : BitVec 2)
  /-- BRIDLE_REDACT (R334) -/
  | bridleRedact (h : HalfId) (l : Fin 16) (a b : LaneReg)
  /-- BRIDLE_REWIND (R334) -/
  | bridleRewind (h : HalfId) (l : Fin 16) (n : Nat)
  /-- BRIDLE_HALT (R334) -/
  | bridleHalt (h : HalfId) (l : Fin 16)
  /-- BRIDLE_BIAS (R334) -/
  | bridleBias (h : HalfId) (l : Fin 16) (a : LaneReg) (vector : Half)
  /-- BRIDLE_TAG (R334) -/
  | bridleTag (h : HalfId) (l : Fin 16) (tag : Half)
  /-- CELL_HARD_FAULT (R476) -/
  | cellHardFault (c : CellId)
  /-- CELL_RELOAD_COMPLETE (R476) -/
  | cellReloadComplete (c : CellId)
  /-- BENCH_ROUTER_FAIL (R478) -/
  | benchRouterFail (b : Byte)
  /-- ENGINE_HARD_FAULT (R479) -/
  | engineHardFault (h : HalfId) (e : Fin 7) (u : Option (Fin 8))
  /-- WELT_GROUP_RETIRE (R482) -/
  | weltGroupRetire (southward : Bool) (g : Fin 64)
  /-- WELT_SPARE_TAKEOVER (R482) -/
  | weltSpareTakeover (southward : Bool)
  /-- PATROL_SCRUB (R472) -/
  | patrolScrub (m : MemLoc) (w : BitVec 80)
  /-- MEM_REPAIR (R473) -/
  | memRepair
  /-- CELL_IMAGE_REWRITE (R470) -/
  | cellImageRewrite (c : CellId) (addr : Nat)
  /-- PACKET_DELINEATION (R355) -/
  | packetDelineation (k : LinkId) (hdr : BitVec 128)
  /-- DETOKENIZER_CONTRIBUTION_READY (R172) -/
  | detokenizerContributionReady (k : SlotId)
  /-- SAMPLER_STEP_DONE (R321) -/
  | samplerStepDone (k : SlotId)
  /-- INGRESS_CONTRIBUTION_CUTOFF (R84) -/
  | ingressContributionCutoff
  /-- MBOX_SUBMIT (R422) -/
  | mboxSubmit (p : MPort) (bits : Word)
  /-- REPAIR_SEMAPHORE_RELEASE (R428) -/
  | repairSemaphoreRelease
  /-- PLANE_RESET_COMPLETE (R458) -/
  | planeResetComplete
deriving DecidableEq, Repr

end Sys2Proof
end

