-- ==== Sys2Proof/Config.lean ====
section
/-! DEFINITION. The free values: what the manual leaves open. None has a body, so nothing can be proved of its value
(assumption log 7). -/

namespace Sys2Proof

/-- The identifier the firmware gives the n-th contents of the distance table: R236 says only that it is new. -/
opaque Config.freshId : Nat → DWord
/-- The rate trim chosen for a measured offset: R32 bounds it, R51 says the trim corrects the offset, and no rule gives the law. -/
opaque Config.rateTrim : Int → Byte
/-- Where the firmware places table `t` of a policy in the policy region (R105, R124, R164, R185, R269, R298, R326). -/
opaque Config.tableBase : DWord → Nat → BitVec 30
/-- Sign and payload of the NaN that a vector or armature FP32 operation returns: IEEE 754 leaves them open and R246 and
R194 do not fix them. -/
opaque Config.nanBits : Word → Word → Word → Word
/-- What a register shift of a cell gives for a count of 64 or more (operation, value, count): R245 states no result there. -/
opaque Config.wideShift : Nat → DWord → DWord → DWord
/-- What a cell's `vmax` or `vmin` gives in a lane with a NaN operand: IEEE 754-2008 and 754-2019 differ and R246 names neither. -/
opaque Config.nanPick : Nat → Word → Word → Word
/-- A byte of the policy region as the firmware's n-th placement leaves it: the manual does not number the tables that cell
windows open, so their contents are open (R258). -/
opaque Config.tableByte : Nat → Nat → Byte
/-- A latency of the distance table that no rule gives: a write's round trip, or a path over the welt between halves at
different clock points (0 `bulk_ticks` or 1 `msg_ticks`, bench, destination, north and south clock point). -/
opaque Config.pathTicks : Nat → Nat → Nat → Nat → Nat → Half
/-- A byte that a tile's read-out without `rowmode` leaves past its 16 elements (instruction word, tile mode, `acc_shift`,
elements, the register before, position): R247 does not give it, and R227 lets it depend on these alone. -/
opaque Config.readOutFill : Word → Nat → Int → List (BitVec 128) → BitVec 512 → Nat → Byte
/-- Whether a stage's item reads a word of the policy region (placement, stage code, stream handle, index, byte offset): the manual
does not give the addresses of the tables' entries there (R19, R470). -/
opaque Config.meetsWord : Nat → Nat → BitVec 48 → Nat → Nat → Bool
/-- The n-th word drawn for a value that the manual leaves unstated. -/
opaque Config.freeWord : Nat → Word

end Sys2Proof
end

