-- ==== Sys2Proof/Machine/Fp.lean ====
section
/-! DEFINITION. The number formats and the exact arithmetic of the gate: FP32, BF16, the OFP8 and MX formats (R216), one
rounding to nearest even per operation (R223, R246), and the correctly rounded exponential, logistic and hyperbolic
tangent (R201, R314). -/

namespace Sys2Proof.Machine

/-- A decoded floating-point value: NaN, an infinity, or (-1)^neg · mant · 2^exp. -/
inductive FpVal where
  | nan
  | inf (neg : Bool)
  | fin (neg : Bool) (mant : Nat) (exp : Int)
deriving DecidableEq, Repr

/-- The bits needed to write m. -/
def bitLen (m : Nat) : Nat := if m = 0 then 0 else Nat.log2 m + 1

/-- m shifted right by k, rounded to nearest, ties to even. -/
def rneShift (m k : Nat) : Nat :=
  if k = 0 then m else
    let q := m >>> k
    let r := m - (q <<< k)
    let half := 1 <<< (k - 1)
    if half < r || (r == half && q % 2 == 1) then q + 1 else q

/-- The magnitude code of m · 2^e in a format with `f` fraction bits and exponent bias `bias`, rounded to nearest even,
without an upper limit: codes above the format's largest finite mean overflow. -/
def roundCode (f bias : Nat) (m : Nat) (e : Int) : Nat :=
  if m = 0 then 0 else
    let emin : Int := 1 - (bias : Int) - (f : Int)
    let q : Int := max (e + (bitLen m : Int) - ((f : Int) + 1)) emin
    let k := if q ≤ e then m <<< (e - q).toNat else rneShift m (q - e).toNat
    ((q - emin).toNat <<< f) + k

/-- The value of a code with `f` fraction bits and exponent bias `bias`, specials aside. -/
def codeVal (f bias : Nat) (neg : Bool) (code : Nat) : FpVal :=
  let ex := code >>> f
  let fr := code - (ex <<< f)
  if ex = 0 then .fin neg fr (1 - (bias : Int) - (f : Int))
  else .fin neg (fr + (1 <<< f)) ((ex : Int) - (bias : Int) - (f : Int))

/-- FP32 (IEEE 754 binary32). -/
def f32Val (x : Word) : FpVal :=
  let neg := x.getLsbD 31
  let code := x.toNat % 2 ^ 31
  if 0x7F800000 < code then .nan else if code = 0x7F800000 then .inf neg else codeVal 23 127 neg code

/-- BF16 (R216). -/
def bf16Val (x : Half) : FpVal := f32Val (x.setWidth 32 <<< 16)

/-- OFP8 E4M3: NaN 0x7F and 0xFF, no infinity (R216). -/
def e4m3Val (x : Byte) : FpVal :=
  let code := x.toNat % 128
  if code = 0x7F then .nan else codeVal 3 7 (x.getLsbD 7) code

/-- OFP8 E5M2 (R216). -/
def e5m2Val (x : Byte) : FpVal :=
  let code := x.toNat % 128
  if 0x7C < code then .nan else if code = 0x7C then .inf (x.getLsbD 7) else codeVal 2 15 (x.getLsbD 7) code

/-- MX E2M1 (R216). -/
def e2m1Val (x : BitVec 4) : FpVal := codeVal 1 1 (x.getLsbD 3) (x.toNat % 8)

/-- The canonical NaN of the matrix unit and the bridle (R223, R329). -/
def canonNaN : Word := 0x7FC00000#32

/-- A magnitude code with its sign, as an FP32 pattern; overflow gives infinity. -/
def f32Pack (neg : Bool) (code : Nat) : Word :=
  let c := if 0x7F800000 ≤ code then 0x7F800000 else code
  BitVec.ofNat 32 (if neg then c + 2 ^ 31 else c)

/-- m · 2^e with sign, rounded to FP32. -/
def f32Round (neg : Bool) (m : Nat) (e : Int) : Word := f32Pack neg (roundCode 23 127 m e)

/-- The FP32 pattern of a value, a NaN as the canonical one. -/
def f32Of (v : FpVal) : Word :=
  match v with
  | .nan => canonNaN
  | .inf neg => f32Pack neg 0x7F800000
  | .fin neg m e => f32Round neg m e

/-- An integer to FP32, round to nearest even (R189). -/
def f32OfInt (i : Int) : Word := f32Round (i < 0) i.natAbs 0

/-- The exact sum of two finite values: an integer at the lower of the two exponents. -/
def dyAdd (n1 : Bool) (m1 : Nat) (e1 : Int) (n2 : Bool) (m2 : Nat) (e2 : Int) : Int × Int :=
  let e := min e1 e2
  let a : Int := ((m1 <<< (e1 - e).toNat : Nat) : Int)
  let b : Int := ((m2 <<< (e2 - e).toNat : Nat) : Int)
  ((if n1 then -a else a) + (if n2 then -b else b), e)

/-- The sum of two values as IEEE 754 gives it before rounding; an exact zero of opposite signs is +0 (R223). -/
def fpSum (x y : FpVal) : FpVal :=
  match x, y with
  | .nan, _ => .nan
  | _, .nan => .nan
  | .inf a, .inf b => if a = b then .inf a else .nan
  | .inf a, .fin _ _ _ => .inf a
  | .fin _ _ _, .inf b => .inf b
  | .fin a m e, .fin b n f =>
    let s := dyAdd a m e b n f
    .fin (if s.1 = 0 then a && b else decide (s.1 < 0)) s.1.natAbs s.2

/-- The exact product of two values; infinity times zero is NaN. -/
def fpProd (x y : FpVal) : FpVal :=
  match x, y with
  | .nan, _ => .nan
  | _, .nan => .nan
  | .inf a, .inf b => .inf (a != b)
  | .inf a, .fin b n _ => if n = 0 then .nan else .inf (a != b)
  | .fin a m _, .inf b => if m = 0 then .nan else .inf (a != b)
  | .fin a m e, .fin b n f => .fin (a != b) (m * n) (e + f)

/-- FP32 addition, round to nearest even, canonical NaN (R223, R329). -/
def f32Add (x y : Word) : Word := f32Of (fpSum (f32Val x) (f32Val y))
/-- FP32 multiplication, round to nearest even, canonical NaN (R329). -/
def f32Mul (x y : Word) : Word := f32Of (fpProd (f32Val x) (f32Val y))
/-- FP32 fused multiply-add: one rounding (R245 vfma). -/
def f32Fma (x y z : Word) : Word := f32Of (fpSum (fpProd (f32Val x) (f32Val y)) (f32Val z))
/-- FP32 negation of the sign bit. -/
def f32Neg (x : Word) : Word := x ^^^ 0x80000000#32
/-- FP32 subtraction. -/
def f32Sub (x y : Word) : Word := f32Add x (f32Neg y)

/-- FP32 division, round to nearest even. -/
def f32Div (x y : Word) : Word :=
  match f32Val x, f32Val y with
  | .nan, _ => canonNaN
  | _, .nan => canonNaN
  | .inf _, .inf _ => canonNaN
  | .inf a, .fin b _ _ => f32Of (.inf (a != b))
  | .fin a _ _, .inf b => f32Round (a != b) 0 0
  | .fin a m e, .fin b n f =>
    if n = 0 then (if m = 0 then canonNaN else f32Of (.inf (a != b)))
    else
      let num := m <<< 64
      let q := num / n
      let sticky := if num % n = 0 then 0 else 1
      f32Round (a != b) (2 * q + sticky) (e - f - 65)

/-- Whether an FP32 pattern is a NaN. -/
def f32IsNaN (x : Word) : Bool := 0x7F800000 < x.toNat % 2 ^ 31
/-- Whether an FP32 pattern is finite. -/
def f32Finite (x : Word) : Bool := x.toNat % 2 ^ 31 < 0x7F800000

/-- The order-preserving key of R196. -/
def f32Key (x : Word) : Word :=
  let u := if x = 0x80000000#32 then 0#32 else x
  if u.getLsbD 31 then ~~~u else u ||| 0x80000000#32

/-- x < y for FP32 values, false when either is NaN. -/
def f32Lt (x y : Word) : Bool := !f32IsNaN x && !f32IsNaN y && (f32Key x).ult (f32Key y)
/-- x ≤ y for FP32 values, false when either is NaN. -/
def f32Le (x y : Word) : Bool := !f32IsNaN x && !f32IsNaN y && !(f32Key y).ult (f32Key x)

/-- The key of R196 but with -0 below +0, as IEEE 754-2019 maximum and minimum order them (R329). -/
def f32TotalKey (x : Word) : Word := if x.getLsbD 31 then ~~~x else x ||| 0x80000000#32

/-- IEEE 754-2019 maximum, canonical NaN (R329). -/
def f32Max (x y : Word) : Word :=
  if f32IsNaN x || f32IsNaN y then canonNaN
  else if (f32TotalKey x).ult (f32TotalKey y) then y else x
/-- IEEE 754-2019 minimum, canonical NaN (R329). -/
def f32Min (x y : Word) : Word :=
  if f32IsNaN x || f32IsNaN y then canonNaN
  else if (f32TotalKey y).ult (f32TotalKey x) then y else x

/-- A NaN result whose sign and payload IEEE 754 leaves open: a quiet NaN with free remaining bits (log 8). -/
def freeNaN (x y z : Word) : Word := 0x7FC00000#32 ||| (Config.nanBits x y z &&& 0x803FFFFF#32)
/-- A result with its NaN, if it is one, replaced by the free NaN of its operands. -/
def withFreeNaN (x y z r : Word) : Word := if f32IsNaN r then freeNaN x y z else r

/-! ### The exponential and the link functions -/

/-- Fraction bits of the fixed-point evaluation. -/
def expBits : Nat := 1100

/-- Σ y^k / k! for k up to n, in fixed point with `expBits` fraction bits, y below one half. -/
def expTaylor (y : Nat) : Nat → Nat → Nat → Nat → Nat
  | 0, _, _, acc => acc
  | n + 1, k, term, acc =>
    let t := ((term * y) >>> expBits) / k
    expTaylor y n (k + 1) t (acc + t)

/-- x squared n times, in fixed point. -/
def sqrTimes : Nat → Nat → Nat
  | 0, x => x
  | n + 1, x => sqrTimes n ((x * x) >>> expBits)

/-- e^(m · 2^e) in fixed point, for a value below 256: Taylor at 1/512 of the argument, squared back 9 times. -/
def expFix (m : Nat) (e : Int) : Nat :=
  let y := if 0 ≤ (expBits : Int) + e - 9 then m <<< ((expBits : Int) + e - 9).toNat else 0
  let one := 1 <<< expBits
  sqrTimes 9 (expTaylor y 120 1 one one)

/-- Whether m · 2^e is at least 2^k. -/
def atLeastPow (m : Nat) (e : Int) (k : Nat) : Bool := (k : Int) + 1 ≤ (bitLen m : Int) + e

/-- A quotient of two naturals, rounded to FP32 as a value that is not representable exactly. -/
def f32Ratio (neg : Bool) (num den : Nat) : Word :=
  f32Round neg (2 * ((num <<< 700) / den) + 1) (-701)

/-- The correctly rounded FP32 value of e^x (R314; R201 link 2). -/
def f32Exp (x : Word) : Word :=
  match f32Val x with
  | .nan => canonNaN
  | .inf neg => if neg then 0#32 else 0x7F800000#32
  | .fin neg m e =>
    if m = 0 then 0x3F800000#32
    else if atLeastPow m e 7 then (if neg then 0#32 else 0x7F800000#32)
    else
      let v := expFix m e
      if neg then f32Ratio false (1 <<< expBits) v else f32Ratio false v (1 <<< expBits)

/-- The correctly rounded FP32 value of 1 / (1 + e^-s) (R201). -/
def f32Logistic (s : Word) : Word :=
  match f32Val s with
  | .nan => canonNaN
  | .inf neg => if neg then 0#32 else 0x3F800000#32
  | .fin neg m e =>
    if m = 0 then 0x3F000000#32
    else if atLeastPow m e 7 then (if neg then 0#32 else 0x3F800000#32)
    else
      let v := expFix m e
      let one := 1 <<< expBits
      if neg then f32Ratio false one (one + v) else f32Ratio false v (v + one)

/-- The correctly rounded FP32 value of tanh s (R201). -/
def f32Tanh (s : Word) : Word :=
  match f32Val s with
  | .nan => canonNaN
  | .inf neg => if neg then 0xBF800000#32 else 0x3F800000#32
  | .fin neg m e =>
    if m = 0 then s
    else if atLeastPow m e 5 then (if neg then 0xBF800000#32 else 0x3F800000#32)
    else
      let v := expFix m (e + 1)
      let one := 1 <<< expBits
      f32Ratio neg (v - one) (v + one)

/-- The link functions of R200 and R277: 0 identity, 1 logistic, 2 exponential, 3 hyperbolic tangent. -/
def linkApply (link : Nat) (s : Word) : Word :=
  match link with
  | 1 => f32Logistic s
  | 2 => f32Exp s
  | 3 => f32Tanh s
  | _ => s

/-! ### Narrow targets: read-out (R224) and tap conversion (R276) -/

/-- Round a finite value to a narrow format; `none` when the rounded value is beyond the largest finite code. -/
def narrowRound (f bias maxCode : Nat) (m : Nat) (e : Int) : Option Nat :=
  let c := roundCode f bias m e
  if maxCode < c then none else some c

/-- An element position's code with its sign bit at bit `sb`. -/
def signedCode (sb : Nat) (neg : Bool) (code : Nat) : Nat := if neg then code + 2 ^ sb else code

/-- Whether m · 2^e is greater than k · 2^x. -/
def above (m : Nat) (e : Int) (k : Nat) (x : Int) : Bool :=
  if x ≤ e then decide (k < m * 2 ^ (e - x).toNat) else decide (k * 2 ^ (x - e).toNat < m)

/-- Tap conversion of a finite value: one beyond the largest finite value k · 2^x of the target is saturated to it, one that would round
back to it too (R276). -/
def narrowSat (f bias maxCode k : Nat) (x : Int) (m : Nat) (e : Int) : Nat × Bool :=
  if above m e k x then (maxCode, true) else ((narrowRound f bias maxCode m e).getD maxCode, false)

/-- Tap conversion to E4M3 and whether it saturated (R276): overflow and infinity become ±448. -/
def toE4M3Sat (v : FpVal) : Byte × Bool :=
  match v with
  | .nan => (0x7F#8, false)
  | .inf neg => (BitVec.ofNat 8 (signedCode 7 neg 0x7E), true)
  | .fin neg m e =>
    let r := narrowSat 3 7 0x7E 7 6 m e
    (BitVec.ofNat 8 (signedCode 7 neg r.1), r.2)

/-- Tap conversion to E5M2 (R276): overflow becomes ±57,344, an infinity stays one. -/
def toE5M2Sat (v : FpVal) : Byte × Bool :=
  match v with
  | .nan => (0x7F#8, false)
  | .inf neg => (BitVec.ofNat 8 (signedCode 7 neg 0x7C), false)
  | .fin neg m e =>
    let r := narrowSat 2 15 0x7B 7 13 m e
    (BitVec.ofNat 8 (signedCode 7 neg r.1), r.2)

/-- Tap conversion to BF16 (R276): overflow becomes the largest finite value, an infinity stays one. -/
def toBF16Sat (v : FpVal) : Half × Bool :=
  match v with
  | .nan => (0x7FC0#16, false)
  | .inf neg => (BitVec.ofNat 16 (signedCode 15 neg 0x7F80), false)
  | .fin neg m e =>
    let r := narrowSat 7 127 0x7F7F 255 120 m e
    (BitVec.ofNat 16 (signedCode 15 neg r.1), r.2)

end Sys2Proof.Machine
end

