-- ==== Sys2Proof/Machine/Hash.lean ====
section
/-! DEFINITION. Checks and hashes: the header check and packet trailer (R354, R109), the memory code (R468), SHA-256 for
the audit chain and identifiers (R344, R491), SHA-384 and ECDSA P-384 for firmware and bundles (R432, R436). -/

namespace Sys2Proof.Machine

/-- Bytes of a value, least significant first (R9). -/
def leBytes (n v : Nat) : List Byte := (List.range n).map (fun i => BitVec.ofNat 8 (v >>> (8 * i)))
/-- The value of little-endian bytes (R9). -/
def ofLe (bs : List Byte) : Nat := bs.foldr (fun b acc => b.toNat + 256 * acc) 0
/-- The value of big-endian bytes. -/
def ofBe (bs : List Byte) : Nat := bs.foldl (fun acc b => 256 * acc + b.toNat) 0
/-- Bytes of a value, most significant first. -/
def beBytes (n v : Nat) : List Byte := (leBytes n v).reverse

/-! ### CRCs -/

/-- One bit of the reflected CRC-32C register (R109). -/
def crc32cBit (c : Nat) : Nat := if c % 2 = 1 then (c / 2) ^^^ 0x82F63B78 else c / 2
/-- One byte into the CRC-32C register. -/
def crc32cByte (c : Nat) (b : Byte) : Nat :=
  crc32cBit (crc32cBit (crc32cBit (crc32cBit (crc32cBit (crc32cBit (crc32cBit (crc32cBit (c ^^^ b.toNat))))))))
/-- CRC-32C: polynomial 0x1EDC_6F41, reflected, initial value and final XOR 0xFFFF_FFFF (R109). -/
def crc32c (bs : List Byte) : Word := BitVec.ofNat 32 ((bs.foldl crc32cByte 0xFFFFFFFF) ^^^ 0xFFFFFFFF)

/-- One bit of the CRC-8 register with polynomial 0x07 (R354). -/
def crc8Bit (c : Nat) : Nat := if c / 128 % 2 = 1 then ((2 * c) % 256) ^^^ 0x07 else (2 * c) % 256
/-- One byte into the CRC-8 register. -/
def crc8Byte (c : Nat) (b : Byte) : Nat :=
  crc8Bit (crc8Bit (crc8Bit (crc8Bit (crc8Bit (crc8Bit (crc8Bit (crc8Bit (c ^^^ b.toNat))))))))
/-- The header check over header bytes 1 to 15, XORed with 0x55 (R354). -/
def headerCheck (bytes1to15 : List Byte) : Byte := BitVec.ofNat 8 ((bytes1to15.foldl crc8Byte 0) ^^^ 0x55)

/-! ### The 80-bit memory word (R468) -/

/-- g(x) = m1(x) · m3(x) with m1 = x^7 + x^3 + 1 and m3 = x^7 + x^3 + x^2 + x + 1. -/
def bchGen : Nat :=
  (List.range 8).foldl (fun acc i => if Nat.testBit 0b10001111 i then acc ^^^ (0b10001001 <<< i) else acc) 0
/-- The remainder of a polynomial of at most `n + 14` bits divided by g(x). -/
def bchRem : Nat → Nat → Nat
  | 0, v => v
  | n + 1, v => bchRem n (if Nat.testBit v (n + 14) then v ^^^ (bchGen <<< n) else v)
/-- The check bits of poison and data. -/
def bchCheck (poison : Bool) (data : DWord) : Nat :=
  bchRem 65 (((if poison then 2 ^ 64 else 0) + data.toNat) <<< 14)
/-- Whether a value has an odd number of set bits among its low n. -/
def oddParity (n v : Nat) : Bool := (List.range n).foldl (fun acc i => acc != Nat.testBit v i) false
/-- The stored 80-bit word of poison and data: check in 78:65, even parity over 78:0 in 79. -/
def memEncode (poison : Bool) (data : DWord) : BitVec 80 :=
  let low := data.toNat + (if poison then 2 ^ 64 else 0) + (bchCheck poison data <<< 65)
  BitVec.ofNat 80 (low + (if oddParity 79 low then 2 ^ 79 else 0))

/-- What a read of a stored word finds (R469). -/
inductive MemRead where
  | clean (poison : Bool) (data : DWord)
  | corrected (poison : Bool) (data : DWord) (bits : List Nat)
  | uncorrectable (data : DWord)
deriving DecidableEq, Repr

/-- Whether a word is a code word: zero syndrome and even parity. -/
def memValid (w : BitVec 80) : Bool :=
  let data : DWord := w.setWidth 64
  memEncode (w.getLsbD 64) data == w
/-- A word with one bit inverted. -/
def flipBit (w : BitVec 80) (i : Nat) : BitVec 80 := w ^^^ (1#80 <<< i)
/-- Decode of a stored word: no error, 1 or 2 bits corrected, otherwise uncorrectable (R469). -/
def memDecode (w : BitVec 80) : MemRead :=
  if memValid w then .clean (w.getLsbD 64) (w.setWidth 64)
  else
    match (List.range 80).find? (fun i => memValid (flipBit w i)) with
    | some i => let c := flipBit w i; .corrected (c.getLsbD 64) (c.setWidth 64) [i]
    | none =>
      let pairs := (List.range 80).flatMap (fun i => (List.range i).map (fun j => (i, j)))
      match pairs.find? (fun p => memValid (flipBit (flipBit w p.1) p.2)) with
      | some p => let c := flipBit (flipBit w p.1) p.2; .corrected (c.getLsbD 64) (c.setWidth 64) [p.1, p.2]
      | none => .uncorrectable (w.setWidth 64)

/-! ### SHA-2 (FIPS 180-4) -/

/-- A list cut into pieces of n, by fuel. -/
def chunksOf {α : Type} (n : Nat) : Nat → List α → List (List α)
  | 0, _ => []
  | k + 1, l => if l.isEmpty then [] else l.take n :: chunksOf n k (l.drop n)

/-- The k-th root of a value, rounded down, bit by bit: the greatest r + x with x below 2^n whose k-th power the value holds. -/
def rootBits (k v : Nat) : Nat → Nat → Nat
  | 0, r => r
  | n + 1, r => rootBits k v n (if (r + 2 ^ n) ^ k ≤ v then r + 2 ^ n else r)

/-- The primes below 411, in order, by trial with those found before. -/
def shaPrimes : List Nat :=
  ((List.range 411).drop 2).foldl (fun ps c => if ps.all (fun p => c % p ≠ 0) then ps ++ [c] else ps) []

/-- The first 64 bits of the fractional part of a prime's k-th root: the source of every SHA-2 constant. -/
def rootFraction (k p : Nat) : Nat := rootBits k (p * 2 ^ (64 * k)) 69 0 % 2 ^ 64

/-- The round constants: cube roots of the first 80 primes. SHA-256 takes the upper halves of the first 64. -/
def shaK : List Nat := shaPrimes.map (rootFraction 3)

/-- The square roots of the first 16 primes, from which the initial chaining values come. -/
def shaRoots : List Nat := (shaPrimes.take 16).map (rootFraction 2)

/-- The rotation amounts and width of one of the two functions. -/
structure ShaKind where
  width : Nat
  rounds : Nat
  bigS0 : Nat × Nat × Nat
  bigS1 : Nat × Nat × Nat
  smallS0 : Nat × Nat × Nat
  smallS1 : Nat × Nat × Nat
deriving DecidableEq, Repr

/-- SHA-256's amounts. -/
def sha256Kind : ShaKind := ⟨32, 64, (2, 13, 22), (6, 11, 25), (7, 18, 3), (17, 19, 10)⟩
/-- SHA-512's amounts. -/
def sha512Kind : ShaKind := ⟨64, 80, (28, 34, 39), (14, 18, 41), (1, 8, 7), (19, 61, 6)⟩

/-- Rotation right of a w-bit value. -/
def rotr (w x n : Nat) : Nat := (x >>> n) ||| ((x <<< (w - n)) % 2 ^ w)

/-- The message schedule, newest word first. -/
def shaSchedule (k : ShaKind) : Nat → List Nat → List Nat
  | 0, ws => ws
  | n + 1, ws =>
    let w15 := ws.getD 14 0
    let w2 := ws.getD 1 0
    let s0 := rotr k.width w15 k.smallS0.1 ^^^ rotr k.width w15 k.smallS0.2.1 ^^^ (w15 >>> k.smallS0.2.2)
    let s1 := rotr k.width w2 k.smallS1.1 ^^^ rotr k.width w2 k.smallS1.2.1 ^^^ (w2 >>> k.smallS1.2.2)
    shaSchedule k n (((ws.getD 15 0 + s0 + ws.getD 6 0 + s1) % 2 ^ k.width) :: ws)

/-- One round over the eight working words. -/
def shaRound (k : ShaKind) (v : List Nat) (kw : Nat × Nat) : List Nat :=
  match v with
  | [a, b, c, d, e, f, g, h] =>
    let s1 := rotr k.width e k.bigS1.1 ^^^ rotr k.width e k.bigS1.2.1 ^^^ rotr k.width e k.bigS1.2.2
    let ch := (e &&& f) ^^^ ((2 ^ k.width - 1 - e) &&& g)
    let t1 := h + s1 + ch + kw.1 + kw.2
    let s0 := rotr k.width a k.bigS0.1 ^^^ rotr k.width a k.bigS0.2.1 ^^^ rotr k.width a k.bigS0.2.2
    let maj := (a &&& b) ^^^ (a &&& c) ^^^ (b &&& c)
    [(t1 + s0 + maj) % 2 ^ k.width, a, b, c, (d + t1) % 2 ^ k.width, e, f, g]
  | _ => v

/-- One block into the chaining value. -/
def shaBlock (k : ShaKind) (h : List Nat) (block : List Byte) : List Nat :=
  let wb := k.width / 8
  let ws := (chunksOf wb 16 block).map ofBe
  let sched := (shaSchedule k (k.rounds - 16) ws.reverse).reverse
  let ks := (shaK.take k.rounds).map (fun c => if k.width = 32 then c >>> 32 else c)
  let v := (ks.zip sched).foldl (shaRound k) h
  (h.zip v).map (fun p => (p.1 + p.2) % 2 ^ k.width)

/-- Padding to whole blocks. -/
def shaPad (k : ShaKind) (m : List Byte) : List Byte :=
  let bb := 2 * k.width
  let lenBytes := k.width / 4
  let used := (m.length + 1 + lenBytes) % bb
  let zeros := if used = 0 then 0 else bb - used
  m ++ [0x80#8] ++ List.replicate zeros 0#8 ++ beBytes lenBytes (8 * m.length)

/-- The digest words of a message from an initial chaining value. -/
def shaRun (k : ShaKind) (iv : List Nat) (m : List Byte) : List Nat :=
  let p := shaPad k m
  (chunksOf (2 * k.width) (p.length / (2 * k.width)) p).foldl (shaBlock k) iv

/-- SHA-256 (FIPS 180-4), 32 bytes: it begins with the upper halves of the first 8 square roots. -/
def sha256 (m : List Byte) : List Byte :=
  (shaRun sha256Kind ((shaRoots.take 8).map (fun c => c >>> 32)) m).flatMap (beBytes 4)
/-- SHA-384 (FIPS 180-4), 48 bytes: it begins with the other 8 square roots. -/
def sha384 (m : List Byte) : List Byte := ((shaRun sha512Kind (shaRoots.drop 8) m).flatMap (beBytes 8)).take 48

/-! ### ECDSA P-384 (FIPS 186-5) -/

/-- The field prime of P-384. -/
def p384P : Nat := 2 ^ 384 - 2 ^ 128 - 2 ^ 96 + 2 ^ 32 - 1
/-- The group order of P-384. -/
def p384N : Nat := 0xFFFFFFFFFFFFFFFFFFFFFFFFFFFFFFFFFFFFFFFFFFFFFFFFC7634D81F4372DDF581A0DB248B0A77AECEC196ACCC52973
/-- The curve coefficient b of P-384. -/
def p384B : Nat := 0xB3312FA7E23EE7E4988E056BE3F82D19181D9C6EFE8141120314088F5013875AC656398D8A2ED19D2A85C8EDD3EC2AEF
/-- The base point of P-384. -/
def p384G : Nat × Nat :=
  (0xAA87CA22BE8B05378EB1C71EF320AD746E1D3B628BA79B9859F741E082542A385502F25DBF55296C3A545E3872760AB7,
   0x3617DE4A96262C6F5D9E98BF9292DC29F8F41DBD289A147CE9DA3113B5F0B8C00A60B1CE1D7E819D7A431D7C90EA0E5F)

/-- a^e modulo m over the low n bits of e, highest first. -/
def powMod (m a e : Nat) : Nat → Nat → Nat
  | 0, acc => acc
  | n + 1, acc =>
    let sq := acc * acc % m
    powMod m a e n (if Nat.testBit e n then sq * a % m else sq)
/-- The inverse modulo a prime of 384 bits. -/
def invMod (m a : Nat) : Nat := powMod m (a % m) (m - 2) 384 1

/-- A point in Jacobian coordinates; z = 0 is the point at infinity. -/
structure JPoint where
  x : Nat
  y : Nat
  z : Nat
deriving DecidableEq, Repr

/-- Subtraction modulo p. -/
def subP (a b : Nat) : Nat := (a + (p384P - b % p384P)) % p384P
/-- Doubling with a = -3. -/
def jDouble (p : JPoint) : JPoint :=
  if p.z = 0 || p.y = 0 then ⟨1, 1, 0⟩ else
    let y2 := p.y * p.y % p384P
    let s := 4 * p.x * y2 % p384P
    let z2 := p.z * p.z % p384P
    let m := 3 * (subP p.x z2 * ((p.x + z2) % p384P) % p384P) % p384P
    let x3 := subP (m * m % p384P) (2 * s)
    ⟨x3, subP (m * subP s x3 % p384P) (8 * (y2 * y2 % p384P)), 2 * p.y * p.z % p384P⟩
/-- Addition. -/
def jAdd (p q : JPoint) : JPoint :=
  if p.z = 0 then q else if q.z = 0 then p else
    let z1 := p.z * p.z % p384P
    let z2 := q.z * q.z % p384P
    let u1 := p.x * z2 % p384P
    let u2 := q.x * z1 % p384P
    let s1 := p.y * (q.z * z2 % p384P) % p384P
    let s2 := q.y * (p.z * z1 % p384P) % p384P
    if u1 = u2 then (if s1 = s2 then jDouble p else ⟨1, 1, 0⟩) else
      let h := subP u2 u1
      let r := subP s2 s1
      let h2 := h * h % p384P
      let h3 := h * h2 % p384P
      let v := u1 * h2 % p384P
      let x3 := subP (subP (r * r % p384P) h3) (2 * v)
      ⟨x3, subP (r * subP v x3 % p384P) (s1 * h3 % p384P), h * (p.z * q.z % p384P) % p384P⟩
/-- a·G + b·Q over the low n bits, highest first. -/
def jMul2 (a b : Nat) (g q gq : JPoint) : Nat → JPoint → JPoint
  | 0, acc => acc
  | n + 1, acc =>
    let d := jDouble acc
    let next :=
      if Nat.testBit a n then (if Nat.testBit b n then jAdd d gq else jAdd d g)
      else if Nat.testBit b n then jAdd d q else d
    jMul2 a b g q gq n next

/-- ECDSA P-384 verification of a SHA-384 digest: key x ‖ y and signature r ‖ s as octet strings (R431, R432). -/
def ecdsaVerify (key sig digest : List Byte) : Bool :=
  let qx := ofBe (key.take 48)
  let qy := ofBe ((key.drop 48).take 48)
  let r := ofBe (sig.take 48)
  let s := ofBe ((sig.drop 48).take 48)
  let onCurve := decide (qx < p384P) && decide (qy < p384P) &&
    (qy * qy % p384P == (subP (qx * qx % p384P * qx) (3 * qx) + p384B) % p384P)
  if key.length = 96 ∧ sig.length = 96 ∧ onCurve = true ∧ 0 < r ∧ r < p384N ∧ 0 < s ∧ s < p384N then
    let w := invMod p384N s
    let u1 := ofBe digest * w % p384N
    let u2 := r * w % p384N
    let g : JPoint := ⟨p384G.1, p384G.2, 1⟩
    let q : JPoint := ⟨qx, qy, 1⟩
    let pt := jMul2 u1 u2 g q (jAdd g q) 384 ⟨1, 1, 0⟩
    if pt.z = 0 then false else
      let zi := invMod p384P pt.z
      (pt.x * (zi * zi % p384P) % p384P) % p384N == r
  else false

end Sys2Proof.Machine
end

