-- ==== Sys2Proof/Machine/State.lean ====
section
/-! DEFINITION. The state of the gate as plain data, its reset values (INVENTORY.md lists each with its rule), and the
reasons a step can stop. -/

namespace Sys2Proof.Machine

/-- Faults of the machine. The manual gives the gate none (every error is a status, a counter, a notice, a drop, a late
default or a program fault of a cell, all effects on the state), so no constructor stands here. -/
inductive Fault where
deriving DecidableEq, Repr

/-- Refusals. -/
inductive Refusal where
  /-- Raised by an arm of `exec` whose command has no meaning yet; safe: nothing runs. -/
  | notModelled (mnemonic : String)
deriving DecidableEq, Repr

/-- An addressed memory: (address, byte) pairs, addresses strictly rising, no byte equal to 0, which is what an unlisted
address reads as (R452, R455: memories are written as zero). -/
abbrev Memory := List Host.Cell

/-! ### Counters, notices, queues -/

/-- The name of a statistics counter: group, index and position of R519. -/
structure CtrKey where
  group : Nat
  index : Nat
  pos : Nat
deriving DecidableEq, Repr

/-- A 48-bit statistics counter with its SAT flag (R493). -/
structure Counter where
  count : Nat
  sat : Bool
deriving DecidableEq, Repr

/-- A latched notice (R404, R521). -/
structure Notice where
  code : Nat
  count : Nat
  stamp : Nat
  detail : List Byte
deriving DecidableEq, Repr

/-- A queue item (R406): header fields and the 56 body bytes; `pkt` is the sequence of its packet's first item, and `bad` the
address of its word in the spill area when that is poisoned (R470). -/
structure Item where
  sequence : Nat
  packetItems : Nat
  truncated : Bool
  last : Bool
  first : Bool
  priority : Nat
  tag : Half
  body : List Byte
  pkt : Nat
  bad : Option Nat := none
deriving DecidableEq, Repr

/-- A gate queue (R405 to R415). -/
structure Queue where
  cfg : QueueCfg
  nextCfg : Option QueueCfg := none
  items : List Item := []
  sequence : Nat := 0
  overrun : Bool := false
  latched : Bool := false
  crossings : Nat := 0
  peak : Nat := 0
  current : Option Nat := none
  dropping : Option Nat := none
  writing : Option Nat := none
  ignoring : Bool := false
deriving DecidableEq, Repr

/-! ### Always-on island -/

/-- Synchronization states in their register encoding (R35). -/
inductive SyncState where
  | freeRun
  | locked
  | holdover
  | unlocked
deriving DecidableEq, Repr

/-- Plumb, straps and pins of the always-on island. -/
structure Aon where
  plumb : DWord := 0#64
  sync : SyncState := .freeRun
  rateTrim : Byte := 0#8
  maxOffset : Byte := 0#8
  syncLink : Byte := 0xFF#8
  stepped : Bool := false
  loaded : Bool := false
  hiA : Word := 0#32
  hiB : Word := 0#32
  master : Bool := false
  masterStrap : Bool := false
  depth : Nat := 0
  lastSync : Nat := 0
  holdoverAt : Nat := 0
  beyond : Nat := 0
  within : Nat := 0
  lastOffset : Int := 0
  lower : Option (LinkId × Nat) := none
  syncSeq : Nat := 0
  masterNode : NodeId := 0#12
  node : NodeId := 0#12
  nodeValid : Bool := false
  rstColdN : Bool := false
  rstOutN : Bool := false
  thermTripN : Bool := true
  vidNorth : Byte := 0x64#8
  vidSouth : Byte := 0x64#8
  resetColdAt : Option Nat := none
  keyHash : List Byte := []
  minSecurity : Word := 0#32
deriving DecidableEq, Repr

/-! ### Control complex -/

/-- A mailbox slot: 512 bytes, and what the firmware holds about it (R421 to R427). -/
structure MSlot where
  mem : Memory := []
  owned : Bool := false
  accept : Nat := 0
  owner0 : Nat := 0
  started : Bool := false
  long : Bool := false
deriving DecidableEq, Repr

/-- A hardware semaphore (R425, R426); owner 0 free, 1 port A, 2 port B, 3 firmware. -/
structure Semaphore where
  owner : Nat := 0
  epoch : Half := 0#16
  tieB : Bool := false
deriving DecidableEq, Repr

/-- A command that waits for a tick: its code (R515), the mailbox slot it came from, its acceptance stamp and its order
among equal stamps (R68, R423), the tick it is due and its body. -/
structure Waiting where
  code : Nat
  from? : Option (MPort × Fin 32)
  accept : Nat
  order : Nat
  due : Nat
  body : List Byte
deriving DecidableEq, Repr

/-- Boot, firmware and keys (R429 to R434). -/
structure Boot where
  romReady : Bool := false
  fwLoading : Bool := false
  fwRunning : Bool := false
  fwFailed : Bool := false
  lastError : Byte := 0#8
  line : Word := 0#32
  image : List (Nat × List Byte) := []
  starting : Option (MPort × Fin 32) := none
  keys : List (Nat × List Byte) := []
  keysLocked : Bool := false
deriving DecidableEq, Repr

/-- Registers and mailboxes of the control complex. -/
structure Control where
  mbox : List ((MPort × Fin 32) × MSlot) := []
  sems : List (Fin 32 × Semaphore) := []
  enableA : Word := 0#32
  enableB : Word := 0#32
  notices : List Notice := []
  noticeFlag : Half := 0#16
  castBarrier : Half := 0#16
  syncOut : List Half := []
  castEnable : Bool := false
  castController : NodeId := 0#12
  waiting : List Waiting := []
  rsp : List (Bus × (Nat × List Byte)) := []
  counters : List (CtrKey × Counter) := []
  budgets : List (Nat × Nat) := []
  repairSem : Option Nat := none
deriving DecidableEq, Repr

/-! ### Packets and links -/

/-- Where a packet entered: a link, a host bulk port, or a gate function (R362). -/
inductive Edge where
  | link (k : LinkId)
  | host (b : BulkId)
  | func
deriving DecidableEq, Repr

/-- A packet that has entered the gate, kept with its edge and stamp; `at16` is the receive time's fraction, and `lat` the
serialization latency of a released result's output edge (R42, R48). -/
structure Arrival where
  pkt : Packet
  edge : Edge
  stamp : Nat
  at16 : Nat
  lat : Nat := 0
deriving DecidableEq, Repr

/-- A packet that waits at an output; `start` is the tick from which it may leave (R42, R363, R396). -/
structure OutPacket where
  pkt : Packet
  start : Nat
deriving DecidableEq, Repr

/-- A multicast copy in a retention slot (R375). -/
structure Retained where
  pkt : Packet
  entered : Nat
  group : Nat
  members : BitVec 256
deriving DecidableEq, Repr

/-- Output state shared by links and bulk ports (R361, R372, R394). -/
structure Output where
  queue : List OutPacket := []
  deficit : List (Nat × Nat) := []
  turn : Nat := 1
  sending : Option Packet := none
deriving DecidableEq, Repr

/-- Link states (R381). -/
inductive LinkState where
  | down
  | hunt
  | hello
  | up
  | sparing
deriving DecidableEq, Repr

/-- A spare-lane procedure under way (R382). -/
structure Sparing where
  began : Nat
  lane : Fin 9
  accepted : Bool
  moved : Bool
deriving DecidableEq, Repr

/-- A logical link (R348 to R387). -/
structure Link where
  state : LinkState := .down
  peer : NodeId := 0#12
  good : Nat := 0
  bad : Nat := 0
  inSync : Bool := false
  lastHeader : Nat := 0
  delay16 : Option Int := none
  skew16 : Int := 0
  syncSeq : Option Nat := none
  syncDepth : Option Nat := none
  laneSeq : Nat := 0
  delaySeq : Nat := 0
  delayT1 : Option Nat := none
  learned : List (Nat × Nat) := []
  out : Output := {}
  retention : List Retained := []
  trailerFails : List Nat := []
  sparing : Option Sparing := none
  faulted : List (BitVec 24) := []
  helloAt : Nat := 0
  routeAt : Nat := 0
  routeDirty : Bool := false
  syncAt : Nat := 0
  delayAt : Nat := 0
deriving DecidableEq, Repr

/-- A lane group: the logical lane moved to the spare, whether the spare failed, and its PHY signals (R348, R350, R382). -/
structure LaneGroup where
  spared : Option (Fin 8) := none
  spareFailed : Bool := false
  rxUp : List (Fin 9) := []
  train : List (Fin 9) := []
deriving DecidableEq, Repr

/-- A packet outstanding in a sending window (R368, R369). -/
structure Unacked where
  pkt : Packet
  sentAt : Nat
  timeout : Nat
  resends : Nat
deriving DecidableEq, Repr

/-- A sending window (R368 to R370). -/
structure SendWindow where
  w : Nat := 65536
  next : Nat := 0
  outstanding : List Unacked := []
  credit : Nat := 0
  recover : Nat := 0
  reduction : Bool := false
  rtt : Option Nat := none
  lastActive : Nat := 0
  gapNext : Bool := true
deriving DecidableEq, Repr

/-- A receive record (R366, R370, R371): `got` lists units received beyond `expected`. -/
structure RecvRecord where
  expected : Nat := 0
  got : List Nat := []
  held : List Arrival := []
  lastActive : Nat := 0
deriving DecidableEq, Repr

/-- An acknowledgement entry waiting to be sent (R367). -/
structure AckEntry where
  seq : Nat
  length : Nat
  echo : Bool
  received : Nat
deriving DecidableEq, Repr

/-- A completion record waiting for its tick (R377). -/
structure Completion where
  group : Nat
  seq : Nat
  stamp : Nat
  due : Nat
  queue : QueueId
  all : BitVec 256
  missed : BitVec 256
  fenced : BitVec 256
deriving DecidableEq, Repr

/-- The link plane and the fabric state; `formerRoutes` is the last cast's instant with the policy routes before it, under which
every packet stamped before that instant completes (R29, R444). -/
structure Plane where
  links : List (LinkId × Link) := []
  lanes : List (Fin 8 × LaneGroup) := []
  policyRoutes : Option (List (Nat × RouteEntry)) := none
  formerRoutes : Option (Nat × Option (List (Nat × RouteEntry))) := none
  slots : Option SlotTable := none
  groups : List (Nat × GroupEntry) := []
  delivery : Option (List Byte) := none
  tablesLost : Bool := false
  groupSeq : List (Nat × Nat) := []
  groupLast : List (Nat × (NodeId × Nat)) := []
  fences : List NodeId := []
  gapBranch : List (Nat × LinkId) := []
  completions : List Completion := []
  windows : List (NodeId × SendWindow) := []
  records : List (NodeId × RecvRecord) := []
  acks : List (NodeId × List AckEntry) := []
  edgeWait : List Arrival := []
  inbox : List Arrival := []
  retrainAt : Option Nat := none
  resetBoundary : Option Nat := none
deriving DecidableEq, Repr

/-- A host bulk port (R389 to R396): the gate's send credits and the receive credits the host holds, by virtual channel. -/
structure Bulk where
  credits : List (Nat × Nat) := []
  rxCredits : List (Nat × Nat) := []
  out : Output := {}
deriving DecidableEq, Repr

/-- A baseline run: one source node's packets to one port of one segment (R27). -/
structure BaselineRun where
  source : NodeId
  port : Byte
  segment : Nat
  count : Nat
  carry : List Byte
  dropping : Bool
deriving DecidableEq, Repr

/-! ### Policies -/

/-- A section as it is placed: its type, digest and policy-region bytes (R435, R436, R440). -/
structure SectionRecord where
  kind : Nat
  digest : List Byte
  placed : Nat
deriving DecidableEq, Repr

/-- A policy in the gate: its tables, cast epoch and instant, its sections in directory order and placed bytes (R435 to
R448), and the engines of each half that had failed at its cast, by engine code (R464, R479). -/
structure Policy where
  tables : PolicyTables
  epoch : Nat
  instant : Nat
  effective : Nat
  sections : List SectionRecord
  placed : Nat
  windowed : Bool
  cellSlot : Bool
  failedNorth : Byte := 0#8
  failedSouth : Byte := 0#8
deriving DecidableEq, Repr

/-- A bundle being written (R438). -/
structure Writing where
  policyId : DWord
  totalBytes : Nat
  port : MPort
  chunks : List (Nat × List Byte)
deriving DecidableEq, Repr

/-- An armed cast (R443); `by?` is false for a cast armed by message (R446). -/
structure Armed where
  instant : Nat
  epoch : Nat
  policyId : DWord
deriving DecidableEq, Repr

/-- Policies, staging and casting; `defaultUntil` is the instant of the cast that last ended the default state (R29), `resetting` is the boundary of a function reset under way (R460), and `placements` counts
the placements of sections in the policy region. -/
structure Casting where
  active : Option Policy := none
  retained : Option Policy := none
  staged : Option Policy := none
  stagedBody : List Byte := []
  stagedShared : Nat := 0
  writing : Option Writing := none
  staging : Option (MPort × Fin 32) := none
  armed : Option Armed := none
  epoch : Nat := 0
  windowEnd : Option Nat := none
  windowCast : Option Armed := none
  defaultState : Bool := true
  defaultUntil : Nat := 0
  resetting : Option Nat := none
  placements : Nat := 0
deriving DecidableEq, Repr

/-! ### Streams -/

/-- Stream states with their codes (R72). -/
inductive StreamState where
  | free
  | opening
  | live
  | holding
  | draining
  | halted
  | closed
deriving DecidableEq, Repr

/-- An open request's fields (R63). -/
structure OpenRequest where
  tag : DWord
  tenant : Nat
  egress : Bool
  pin : Bool
  awaitIngress : Bool
  replyNode : NodeId
  replyPort : Byte
  stopSet : Nat
  ingressHandle : DWord
  maxTokens : Nat
  grammarId : Nat
  temperature : Word
  topK : Nat
  topP : Word
  minP : Word
  seed : DWord
  drafts : Nat
deriving DecidableEq, Repr

/-- A completed stop-string match (R136, R151). -/
structure StopFound where
  index : Nat
  offset : Nat
  entry : Nat
  inclusive : Bool
  beginPos : Nat
  endPos : Nat
deriving DecidableEq, Repr

/-- The text state of an egress stream (R128 to R136): `ring` holds the newest bytes written, oldest first. -/
structure TextState where
  carry : List Byte := []
  carryHold : Nat := 0
  write : Nat := 0
  ring : List Byte := []
  stopLen : Nat := 0
  stopState : BitVec 24 := 0#24
  found : Option StopFound := none
deriving DecidableEq, Repr

/-- A hold-back ring entry (R134). -/
structure HoldEntry where
  index : Nat
  token : Nat
  bytes : Nat
  start : Nat
  redacted : Bool
  late : Bool
deriving DecidableEq, Repr

/-- The sampling block (R300). -/
structure Sampling where
  grammarId : Nat
  temperature : Word
  topK : Nat
  topP : Word
  minP : Word
  seed : DWord
  drafts : Nat
  rng : Nat := 0
  biasVector : Half := 0xFFFF#16
  biasScale : Word := 0#32
  logIndex : Option Nat := none
deriving DecidableEq, Repr

/-- Grammar state and stack, bottom first (R304 to R310). -/
structure Grammar where
  state : Nat := 0
  stack : List Nat := []
deriving DecidableEq, Repr

/-- A grammar log entry's fields (R311). -/
structure GrammarLog where
  stateBefore : Nat
  depthBefore : Nat
  pops : Nat
  popped0 : Nat
  popped1 : Nat
deriving DecidableEq, Repr

/-- An awl instance's state and last match end (R70, R161). -/
structure AwlInst where
  state : BitVec 24 := 0#24
  lastEnd : Nat := 0
  pending : Bool := false
deriving DecidableEq, Repr

/-- A result entry of the awl (R175). -/
structure AwlResult where
  hits : Nat := 0
  firstReport : Nat := 0xFFFF
  groups : Word := 0#32
  firstEnd : Nat := 0
  firstLen : Nat := 0
  pending : Bool := false
  restarted : Bool := false
  late : Bool := false
deriving DecidableEq, Repr

/-- A result entry of the armature (R204). -/
structure ArmResult where
  value : Word := 0#32
  nanPaths : Nat := 0
  error : Bool := false
  lateInput : Bool := false
  late : Bool := false
  restarted : Bool := false
  ensemble : Nat := 0xFFFF
deriving DecidableEq, Repr

/-- A judge contribution (R264). -/
structure JudgeRecord where
  count : Nat
  fresh : Bool
  late : Bool
  poison : Bool
  scores : List Word
deriving DecidableEq, Repr

/-- A probe contribution's body (R283). -/
structure ProbeRecord where
  id : Nat
  source : NodeId
  draftPos : Nat
  late : Bool
  flags : Byte
  scores : List Word
deriving DecidableEq, Repr

/-- An ingress contribution's body (R119). -/
structure IngressRecord where
  late : Bool
  verdict : Nat
  flags : Byte
  segments : Nat
  tokens : Nat
  replacements : Nat
  escaped : Nat
  tags : List Half
deriving DecidableEq, Repr

/-- The actions of a verdict (R334). -/
structure Actions where
  holds : List (Nat × Nat) := []
  redacts : List (Nat × Nat) := []
  rewind : Option Nat := none
  halt : Bool := false
  bias : Option (Half × Word) := none
  tags : List Half := []
  dropped : Nat := 0
deriving DecidableEq, Repr

/-- What the bridle takes at the cutoff (R331, R332); `lates` counts the contributions that took a late default (R71). -/
structure VerdictInputs where
  token : List Nat := []
  counters : List Nat := []
  acc : List (Nat × Word) := []
  awl : List AwlResult := []
  arm : List ArmResult := []
  judge : JudgeRecord := ⟨0, false, false, false, []⟩
  probes : List ProbeRecord := []
  ingress : Option IngressRecord := none
  detok : List Nat := []
  lateMask : Nat := 0
  lates : Nat := 0
  tenant : Nat := 0
  degraded : Bool := false
deriving DecidableEq, Repr

/-- How far a verdict has come. -/
inductive VerdictStage where
  | waiting
  | queued
  | running
  | ready (a : Actions)
deriving DecidableEq, Repr

/-- A token appended and not yet committed (R77, R128), with its contributions and verdict; `armBy` is the epoch of its sample's
policy and `armReread` the set positions whose nodes were read again (R205, R206). -/
structure Token where
  index : Nat
  id : Nat
  stamp : Nat
  stepPos : Nat
  epoch : Nat
  release : Nat
  cutoff : Nat
  bytes : List Byte
  start : Nat
  replaced : Nat
  isUndefined : Bool
  ends : Bool
  atMax : Bool
  textAfter : TextState
  grammarAfter : Grammar
  masked : Nat
  proposed : Nat
  accepted : Nat
  detok : Option Bool := none
  awl : List AwlResult := []
  awlLeft : Nat := 0
  awlReady : Bool := false
  awlAfter : List AwlInst := []
  arm : Option (List ArmResult) := none
  armDone : Option Bool := none
  armBy : Nat := 0
  armReread : List Nat := []
  armAcc : List (Nat × Word) := []
  featureNan : Bool := false
  judgeSent : Bool := false
  judge : Option JudgeRecord := none
  inputs : Option VerdictInputs := none
  verdict : VerdictStage := .waiting
  discarded : Bool := false
deriving DecidableEq, Repr

/-- A halt that a sampling step sets for its boundary (R320). -/
structure StepHalt where
  due : Nat
  reason : Nat
deriving DecidableEq, Repr

/-- One logit packet's entries (R294). -/
structure LogitPiece where
  position : Nat
  first : Nat
  values : List Word
deriving DecidableEq, Repr

/-- A logit set: open until complete (R295, R296). -/
structure LogitSet where
  step : Nat
  prevIndex : Nat
  drafts : Nat
  bf16 : Bool
  draftIds : List Nat
  firstStamp : Nat
  pieces : List LogitPiece
deriving DecidableEq, Repr

/-- What the sampler found for a step: the tokens to append, drafts accepted, and how it ends (R313 to R317). -/
structure StepResult where
  tokens : List (Nat × Bool)
  accepted : Nat
  grammarEnd : Bool
  positions : Nat
  nans : Nat
  empties : Nat
  caps : Nat
deriving DecidableEq, Repr

/-- A sampling step with its logit stamp (R302, R319): the state it uses is taken at the stamp, and so are `highest`, the highest
surviving appended index, and `ended`, the stop reason of an end token or last index appended by then. -/
structure Step where
  set : LogitSet
  stamp : Nat
  release : Nat
  epoch : Nat
  sampling : Sampling
  grammar : Grammar
  hasGrammar : Bool
  grammarDropped : Bool
  highest : Nat
  ended : Nat
  result : StepResult
  done : Bool := false
  late : Bool := false
  released : Bool := false
deriving DecidableEq, Repr

/-- A byte of repaired text with the received position it stands for (R170). -/
abbrev PosByte := Byte × Nat

/-- What the skiver carries from chunk to chunk (R97, R104). -/
structure SkiverCarry where
  utf8 : List PosByte := []
  text : List PosByte := []
  state : Option (BitVec 24) := none
deriving DecidableEq, Repr

/-- A chunk's encoding (R96 to R112). -/
structure ChunkCode where
  ids : List Nat
  bytes : List PosByte
  replaced : Nat
  escaped : Nat
  controls : Nat
  isUndefined : Nat
  splits : Nat
  fast : Nat
  rounds : Nat
  forged : Bool
deriving DecidableEq, Repr

/-- The counts of a segment that its verdict and features use (R99). -/
structure SegmentCounts where
  replaced : Nat := 0
  escaped : Nat := 0
  controls : Nat := 0
  splits : Nat := 0
  truncated : Bool := false
  demoted : Bool := false
deriving DecidableEq, Repr

/-- A stamped chunk in flight (R110 to R116). -/
structure Chunk where
  ordinal : Nat
  stamp : Nat
  release : Nat
  epoch : Nat
  unit : Fin 8
  segment : Nat
  channel : Nat
  endsSegment : Bool
  promptEnd : Bool
  endPos : Nat
  raw : List PosByte := []
  code : ChunkCode
  carryAfter : SkiverCarry
  counts : SegmentCounts := {}
  ready : Bool := false
  late : Bool := false
  released : Bool := false
  firstIndex : Nat := 0
  awl : List AwlResult := []
  awlLeft : Nat := 0
  awlReady : Bool := false
  awlAfter : List AwlInst := []
  arm : Option (List ArmResult) := none
  armDone : Option Bool := none
  armBy : Nat := 0
  armReread : List Nat := []
  armAcc : List (Nat × Word) := []
  judgeSent : Bool := false
  judge : Option JudgeRecord := none
  void : Bool := false
deriving DecidableEq, Repr

/-- A segment verdict in flight (R118 to R120). -/
structure SegVerdict where
  segment : Nat
  stamp : Nat
  release : Nat
  cutoff : Nat
  epoch : Nat
  node : NodeId
  promptEnd : Bool
  lastChunk : Nat
  inputs : Option VerdictInputs := none
  verdict : VerdictStage := .waiting
deriving DecidableEq, Repr

/-- What a read of an ingress stream shows: its text state and ring as the last boundary left them (R70, R86, R104). -/
structure IngressSeen where
  segment : Nat := 0
  segmentOpen : Bool := false
  channel : Nat := 0
  segmentBytes : Nat := 0
  truncated : Bool := false
  textWrite : Nat := 0
  ring : List Byte := []
  freeFrom : Nat := 0
  nextIndex : Nat := 0
  carry : SkiverCarry := {}
deriving DecidableEq, Repr

/-- The ingress side of a stream (R93 to R121). -/
structure Ingress where
  seen : IngressSeen := {}
  segment : Nat := 0
  segmentOpen : Bool := false
  channel : Nat := 0
  segmentBytes : Nat := 0
  textWrite : Nat := 0
  ring : List Byte := []
  unread : List PosByte := []
  carry : SkiverCarry := {}
  committedCarry : SkiverCarry := {}
  scanFrom : Nat := 0
  freeFrom : Nat := 0
  nextIndex : Nat := 0
  nextChunk : Nat := 0
  counts : SegmentCounts := {}
  segTruncated : Bool := false
  segDemoted : Bool := false
  bound : Option (DWord × Nat) := none
  everTruncated : Bool := false
  everDemoted : Bool := false
  replacedTotal : Nat := 0
  escapedTotal : Nat := 0
  tags : List Half := []
  segmentsDone : Nat := 0
  chunks : List Chunk := []
  verdicts : List SegVerdict := []
  promptStamped : Bool := false
  contributed : Bool := false
  lastChunk : Option Nat := none
deriving DecidableEq, Repr

/-- A stream: its context (R70) and what is in flight for it. `sampling` is the block that the next step uses, `seen` the one that
the last boundary committed (R86, R300); `owed` are the additions to counter words made since that boundary; `log` is the
stream's grammar log, by slot (R311). -/
structure Stream where
  handle : BitVec 48
  state : StreamState
  req : OpenRequest
  openStamp : Nat
  pinned : Bool
  epoch : Nat
  stopReason : Nat := 0
  empty : Bool := true
  committed : Nat := 0
  boundary : Nat := 0
  replyNode : NodeId
  replyPort : Byte
  maxTokens : Nat
  ingressReceived : Bool := false
  ingressLate : Bool := false
  ingressApplied : Bool := false
  ingressArrival : Option Nat := none
  ingress : Option IngressRecord := none
  lateMask : Nat := 0
  writeIndex : Nat := 0
  releaseIndex : Nat := 0
  rewindMark : Nat := 0
  holdActive : Bool := false
  holdDisp : Nat := 0
  holdEnd : Nat := 0
  holdFirst : Nat := 0
  textRelease : Nat := 0
  text : TextState := {}
  work : TextState := {}
  ring : List HoldEntry := []
  redacted : List (Nat × Nat) := []
  sampling : Sampling
  seen : Sampling
  grammar : Grammar := {}
  workGrammar : Grammar := {}
  log : List (Nat × DWord) := []
  counters : List (Nat × Counter) := []
  owed : List (Nat × Nat) := []
  acc : List (Nat × Word) := []
  workAcc : List (Nat × Word) := []
  awl : List AwlInst := []
  workAwl : List AwlInst := []
  awlSet : Nat := 0xFF
  armSet : Nat := 0xFF
  program : Nat := 0xFF
  appended : Option Nat := none
  nextIndex : Nat := 0
  survivors : List Nat := []
  endAppended : Option Nat := none
  tokens : List Token := []
  steps : List Step := []
  openSet : Option LogitSet := none
  stepHalts : List StepHalt := []
  rngNext : Nat := 0
  rngReleased : Nat := 0
  stopTick : Nat := 0
  rewinds : List Nat := []
  laneEpoch : Nat := 0
  sampleEpoch : Nat := 0
  armEpoch : Nat := 0
  judgeEpoch : Nat := 0
  judgeFirst : Bool := true
  judgeRestart : Bool := false
  judgeLast : Nat := 0
  awlBound : List (Option (DWord × Nat)) := []
  grammarContent : Option DWord := none
  layoutId : DWord := 0#64
  audit : List Byte := []
  endSent : Bool := false
  closedAt : Nat := 0
  poisoned : Option Nat := none
  inp : Ingress := {}
deriving DecidableEq, Repr

/-- An open waiting for its commit (R64): refused with a status, or granted a slot. -/
structure PendingOpen where
  req : OpenRequest
  stamp : Nat
  order : Nat
  mailbox : Option (MPort × Fin 32)
  status : Nat
  slot : Option SlotId
  live : Nat
  retryAfter : Nat
deriving DecidableEq, Repr

/-- A contribution in the buffer (R82, R83). -/
structure Contribution where
  handle : BitVec 48
  index : Nat
  arrival : Nat
  probe : ProbeRecord
deriving DecidableEq, Repr

/-- An ingress contribution kept for streams that may claim it (R84). -/
structure IngressWait where
  handle : BitVec 48
  arrival : Nat
  claimed : Bool
  body : IngressRecord
deriving DecidableEq, Repr

/-- An answer that a freed slot's stream still owes at a release tick (R74, R463): a token packet or a void token list,
with the serialization latency of its edge and the drafts it carried. -/
structure Orphan where
  slot : SlotId
  release : Nat
  sample : Bool
  dest : Nat
  port : Byte
  handle : BitVec 48
  lat : Nat
  drafts : Nat := 0
  payload : List Byte
deriving DecidableEq, Repr

/-- All streams and what waits for them. -/
structure Streams where
  table : List (SlotId × Stream) := []
  genBase : Nat := 0
  gens : List (SlotId × Nat) := []
  fresh : Nat := 0
  freed : List SlotId := []
  opens : List PendingOpen := []
  buffer : List Contribution := []
  ingressWaits : List IngressWait := []
  textWait : List Arrival := []
  baseline : List BaselineRun := []
  logs : List Nat := []
  orphans : List Orphan := []
deriving DecidableEq, Repr

/-! ### Engines -/

/-- An awl item: the bytes one token or chunk gives one instance (R171), the bytes held ahead of it on its lane (R182), and the tick
at which it leaves its position. -/
structure AwlItem where
  slot : SlotId
  ingress : Bool
  ordinal : Nat
  position : Nat
  stamp : Nat
  bytes : List PosByte
  ahead : Nat := 0
  due : Nat := 0
deriving DecidableEq, Repr

/-- An awl lane: queue and the four pipeline positions (R171). -/
structure AwlLane where
  queue : List AwlItem := []
  inPlace : List AwlItem := []
deriving DecidableEq, Repr

/-- A verdict waiting in a lane's queue (R327). -/
structure VerdictJob where
  slot : SlotId
  ingress : Bool
  index : Nat
  cutoff : Nat
deriving DecidableEq, Repr

/-- A verdict running on a lane (R328). -/
structure LaneRun where
  job : VerdictJob
  epoch : Nat
  inputs : VerdictInputs
  regs : Vector Word 16
  pc : Nat
  length : Nat
  first : Nat
  acts : Actions
deriving DecidableEq, Repr

/-- A bridle sequencer lane (R327). -/
structure Lane where
  queue : List VerdictJob := []
  run : Option LaneRun := none
deriving DecidableEq, Repr

/-- A row accepted by a tap (R272). -/
structure TapRow where
  handle : DWord
  tokenIndex : Nat
  draftPos : Nat
  valid : Bool
  data : List Byte
deriving DecidableEq, Repr

/-- A slice of a tap (R273): open until complete. -/
structure Slice where
  tap : Nat
  pass : Nat
  opened : Nat
  due : Nat
  layoutId : DWord
  south : Bool
  rowBytes : Nat
  rows : List TapRow
deriving DecidableEq, Repr

/-- A probe item (R281): one probe on one valid row. -/
structure ProbeItem where
  tap : Nat
  pass : Nat
  stamp : Nat
  row : TapRow
  ordinal : Nat
  probe : Nat
  unit : Nat
  south : Bool
  release : Nat
  epoch : Nat
  saturated : Bool
  scores : Option (List Word) := none
  mlpWait : Bool := false
  poison : Bool := false
  done : Bool := false
  late : Bool := false
  released : Bool := false
deriving DecidableEq, Repr

/-- The callipers (R268 to R293). -/
structure Callipers where
  slices : List Slice := []
  finished : List (Nat × Nat) := []
  items : List ProbeItem := []
  rotNorth : Nat := 0
  rotSouth : Nat := 0
deriving DecidableEq, Repr

/-- One policy slot of the stores that a half's callipers and sampler hold: the weight image, the class map and the bias vectors
(R278, R303, R318). -/
structure StoreSlot where
  weights : List Byte := []
  classes : List (Nat × Nat) := []
  biases : List (List (Nat × Word)) := []
deriving DecidableEq, Repr

/-- The fixed-function engines' queues and their stores, by half and slot. -/
structure Engines where
  awl : List ((HalfId × Fin 256) × AwlLane) := []
  lanes : List ((HalfId × Fin 16) × Lane) := []
  callipers : Callipers := {}
  stores : List ((HalfId × Bool) × StoreSlot) := []
  skiverQueues : List (Fin 8 × List (SlotId × Nat)) := []
  restarting : List (Nat × HalfId × Nat × Nat) := []
deriving DecidableEq, Repr

/-! ### Cells -/

/-- A message on the message mesh: header word, payload words (R250), how many words `recv` has taken, and whether it stands in
its destination's router before a full queue (R230). -/
structure Msg where
  header : DWord
  words : List DWord
  taken : Nat := 0
  waits : Bool := false
deriving DecidableEq, Repr

/-- An accumulator tile (R220 to R223): elements as 128-bit integers, or FP32 patterns in ordered mode. -/
structure Tile where
  mode : Nat := 0
  shift : Int := 0
  nan : Bool := false
  posInf : Bool := false
  negInf : Bool := false
  overflow : Bool := false
  rangeLow : Bool := false
  poison : Bool := false
  steps : Nat := 0
  elems : Vector (BitVec 128) 16 := Vector.replicate 16 0#128
deriving DecidableEq, Repr

/-- One policy slot of a cell as loaded (R258, R259). -/
structure CellSlot where
  loaded : Bool := false
  loadBase : Nat := 0
  rangeBytes : Nat := 0
  barrierMask : DWord := 0#64
  handlers : List Nat := []
  windows : List (Nat × Nat × Bool) := []
deriving DecidableEq, Repr

/-- A handler that the core runs (R242). -/
structure Running where
  pc : Nat
  slot1 : Bool
  handlerAddr : Nat
  atBarrier : Option (BitVec 6) := none
deriving DecidableEq, Repr

/-- A cell (R241 to R259). -/
structure Cell where
  g : Vector DWord 32 := Vector.replicate 32 0#64
  v : Vector (BitVec 512) 32 := Vector.replicate 32 0#512
  tiles : Vector Tile 4 := Vector.replicate 4 {}
  vpoison : List (BitVec 5) := []
  mem : Memory := []
  poison : List Nat := []
  recvQ : List Msg := []
  sendHdr : Option DWord := none
  sendWords : List DWord := []
  run : Option Running := none
  faultCause : Nat := 0
  workItems : Nat := 0
  slot0 : CellSlot := {}
  slot1 : CellSlot := {}
  reloading : Bool := false
deriving DecidableEq, Repr

/-- A transfer under way on the bulk mesh (R229, R253, R254): kind 0 bput, 1 bget, 2 bpost, 3 from the callipers' port, whose
number then stands in `from?` (R280). `granted` and `waited` are its bench arbiter's: whether it has been granted, and how many
others went before it (R235). -/
structure Transfer where
  from? : CellId
  kind : Nat
  dest : CellId
  localAddr : Nat
  remote : Nat
  bytes : Nat
  data : List Byte
  poison : Bool
  tag : BitVec 6
  refused : Bool
  issued : Nat
  granted : Bool := false
  waited : Nat := 0
deriving DecidableEq, Repr

/-- A bench's arbiter of shared-memory requests (R235): the position of the last cell granted, and the tick from which it can
grant again. -/
structure Arbiter where
  last : Nat := 15
  free : Nat := 0
deriving DecidableEq, Repr

/-- The cell grid and its networks; `written` lists the spans of shared memory that cells or the dispatcher have written
(offset, bytes), `arbiters` the benches' arbiters (R235), and `reports` the cells whose bench holds a report of UNCORRECTABLE
(R16, R226). -/
structure Grid where
  cells : List (CellId × Cell) := []
  mesh : List (Option CellId × Msg) := []
  transfers : List Transfer := []
  flags : List Byte := []
  flagOps : List (Byte × Bool × Nat) := []
  shared : Memory := []
  written : List (Nat × Nat) := []
  arbiters : List (Byte × Arbiter) := []
  reports : List CellId := []
deriving DecidableEq, Repr

/-! ### Reliability and power -/

/-- The capability map's fields and the repair state (R473 to R492). -/
structure Reliability where
  arrayNorth : Nat := 0
  arraySouth : Nat := 0
  enginesNorth : Byte := 0#8
  enginesSouth : Byte := 0#8
  skiverUnits : Byte := 0#8
  weltMem : Nat := 12
  weltSparesN : Nat := 4
  weltSparesS : Nat := 4
  weltRetired : List (Bool × Fin 64) := []
  weltCopy : List (Bool × Fin 64 × Nat × Nat) := []
  degraded : Bool := false
  repairs : Nat := 0
  benches : List (Byte × Byte) := []
  distanceId : Nat := 0
  poisoned : List (Nat × Nat × Nat) := []
  corrected : List (MemLoc × Nat) := []
  passErrors : List (MemLoc × Nat) := []
  rowsUsed : List ((Nat × Nat × Nat) × Nat) := []
  colsUsed : List ((Nat × Nat × Nat) × Nat) := []
  repairsDue : List (MemLoc × Option Nat) := []
  patrolFirst : Option MemLoc := none
  patrolPass : Nat := 0
  findings : List TestFinding := []
deriving DecidableEq, Repr

/-- Thermal and power control of one half (R486, R501, R506, R508). -/
structure HalfPower where
  opSet : Nat := 800
  throttle : Nat := 800
  pending : Option Nat := none
  setPoint : Nat := 800
  run : Nat := 800
  reading : Int := 0
  emergency : Bool := false
  powerHot : Bool := false
  powerDown : Bool := false
  lastStep : Option Nat := none
  coolSince : Option Nat := none
  lowSince : Option Nat := none
  estimate : Nat := 0
  history : List (Nat × Nat) := []
deriving DecidableEq, Repr

/-- Thermal and power state of the gate. -/
structure Power where
  north : HalfPower := {}
  south : HalfPower := {}
  sensors : List Int := List.replicate 21 0
  emergencyC : Nat := 105
  releaseC : Nat := 95
  currents : List Nat := [0, 0, 0]
  cap : Nat := 2400
  throttlePending : Bool := false
  belowCount : Nat := 0
  compareAt : Nat := 0
deriving DecidableEq, Repr

/-! ### The whole state -/

/-- The state of the gate. `pending` is the queue of waiting commands; `freeUse` counts the free values drawn (log 7). -/
structure State where
  pending : List Instr := []
  freeUse : Nat := 0
  aon : Aon := {}
  boot : Boot := {}
  ctl : Control := {}
  queues : List (QueueId × Queue) := []
  plane : Plane := {}
  bulk : List (BulkId × Bulk) := []
  cast : Casting := {}
  streams : Streams := {}
  eng : Engines := {}
  grid : Grid := {}
  rel : Reliability := {}
  power : Power := {}
deriving DecidableEq, Repr

/-- The state of a gate held in cold reset: every field at its reset value (R33, R452; log 3). -/
def State.reset : State := {}

end Sys2Proof.Machine
end

