-- ==== Sys2Proof/Machine/Ops.lean ====
section
/-! DEFINITION. Shared operations over the state: maps, addressed memories, counters (R493), notices (R404, R514, R521)
and gate queues (R405 to R415). -/

namespace Sys2Proof.Machine

/-! ### Maps held as lists of (key, value) -/

/-- The value of a key. -/
def aget {α β : Type} [DecidableEq α] (k : α) : List (α × β) → Option β
  | [] => none
  | (k', v) :: m => if k' = k then some v else aget k m

/-- Give a key a value: in place, or at the end for a new key. -/
def aset {α β : Type} [DecidableEq α] (k : α) (v : β) : List (α × β) → List (α × β)
  | [] => [(k, v)]
  | (k', w) :: m => if k' = k then (k, v) :: m else (k', w) :: aset k v m

/-- Remove a key. -/
def aerase {α β : Type} [DecidableEq α] (k : α) (m : List (α × β)) : List (α × β) := m.filter (fun p => !decide (p.1 = k))

/-- The largest of a list of numbers, 0 for none. -/
def maxOf (l : List Nat) : Nat := l.foldl max 0

/-! ### Addressed memories: canonical lists of (address, byte) -/

/-- Read a byte; an unlisted address reads 0 (R452, R455). -/
def Memory.get (m : Memory) (a : Nat) : Byte :=
  match m with
  | [] => 0#8
  | (b, v) :: r => if b = a then v else Memory.get r a

/-- Write a byte, keeping addresses rising and leaving out every byte equal to 0. -/
def Memory.set (m : Memory) (a : Nat) (v : Byte) : Memory :=
  match m with
  | [] => if v = 0#8 then [] else [(a, v)]
  | (b, w) :: r =>
    if a < b then (if v = 0#8 then (b, w) :: r else (a, v) :: (b, w) :: r)
    else if a = b then (if v = 0#8 then r else (a, v) :: r)
    else (b, w) :: Memory.set r a v

/-- The canonical form: addresses strictly rising and no byte 0. -/
def Memory.wf : Memory → Bool
  | [] => true
  | [(_, v)] => v != 0#8
  | (a, v) :: (b, w) :: r => v != 0#8 && decide (a < b) && Memory.wf ((b, w) :: r)

/-- Read `n` bytes from address `a` up. -/
def Memory.bytes (m : Memory) (a n : Nat) : List Byte := (List.range n).map (fun i => Memory.get m (a + i))

/-- Write bytes from address `a` up. -/
def Memory.setBytes (m : Memory) (a : Nat) : List Byte → Memory
  | [] => m
  | b :: bs => Memory.setBytes (Memory.set m a b) (a + 1) bs

/-- Exactly `n` bytes: cut off, or filled with zeros (R10). -/
def padTo (n : Nat) (bs : List Byte) : List Byte := (bs ++ List.replicate n 0#8).take n

/-! ### Plumb -/

/-- The plumb reading as a number (R31). -/
def State.now (s : State) : Nat := s.aon.plumb.toNat

/-- Whether a tick is reached (R39: at or past). -/
def State.reached (s : State) (t : Nat) : Bool := decide (t ≤ s.now)

/-- The other half. -/
def otherHalf : HalfId → HalfId
  | .north => .south
  | .south => .north

/-- The half's number: north 0, south 1 (R237). -/
def halfCode : HalfId → Nat
  | .north => 0
  | .south => 1

/-- The port's owner code: A 1, B 2 (R425). -/
def portOwner : MPort → Nat
  | .a => 1
  | .b => 2

/-- A management port as a notice latches it: A 0, B 1 (log 12). -/
def portCode : MPort → Nat
  | .a => 0
  | .b => 1

/-! ### Queues: what one read and one write do -/

/-- The configuration of queue q after a cold reset (R405). -/
def resetQueueCfg (q : QueueId) : QueueCfg :=
  { spillOffset := 0x20000 * q.val, spillItems := 2048, level := 2048, hostWrites := false,
    priority := if q.val = 0 then 7 else 4 }

/-- A queue as a cold reset leaves it (R405). -/
def resetQueue (q : QueueId) : Queue := { cfg := resetQueueCfg q }

/-- Queue q. -/
def State.queue (s : State) (q : QueueId) : Queue := (aget q s.queues).getD (resetQueue q)

/-- Replace queue q. -/
def State.setQueue (s : State) (q : QueueId) (v : Queue) : State := { s with queues := aset q v s.queues }

/-- Capacity: 8 head, 8 tail and the spill items (R405). -/
def Queue.capacity (q : Queue) : Nat := 16 + q.cfg.spillItems

/-- The count of items held (R415). -/
def Queue.count (q : Queue) : Nat := q.items.length

/-- The deferred configuration applies when the queue is empty (R405). -/
def Queue.settle (q : Queue) : Queue :=
  match q.nextCfg, q.items with
  | some c, [] => { q with cfg := { c with level := q.cfg.level }, nextCfg := none }
  | _, _ => q

/-- The 8-byte header of an item (R406). -/
def Item.header (i : Item) : Nat :=
  (i.sequence % 2 ^ 32) * 2 ^ 32 + (i.packetItems % 256) * 2 ^ 24 + (if i.truncated then 2 ^ 21 else 0)
    + (if i.last then 2 ^ 20 else 0) + (if i.first then 2 ^ 19 else 0) + (i.priority % 8) * 2 ^ 16 + i.tag.toNat

/-- The 64 bytes of an item: header, then body (R406). -/
def Item.bytes (i : Item) : List Byte :=
  if i.bad.isSome then leBytes 8 ({ i with tag := 0xFFFF#16 } : Item).header ++ List.replicate 56 0#8
  else leBytes 8 i.header ++ padTo 56 i.body

/-- The idle item (R412). -/
def Queue.idle (q : Queue) : Item :=
  { sequence := q.sequence, packetItems := 0, truncated := false, last := false, first := false, priority := 0,
    tag := 0#16, pkt := 0,
    body := padTo 56 [BitVec.ofNat 8 ((if q.current.isSome then 1 else 0) + (if q.overrun then 2 else 0))] }

/-- The first item of the highest priority present (R408). -/
def oldestHighest (items : List Item) : Option Item :=
  items.foldl (fun best i =>
    match best with
    | none => some i
    | some b => if b.priority < i.priority then some i else some b) none

/-- The item that the next read takes: the current packet's next item, or else the oldest of the highest priority (R408). -/
def Queue.nextItem (q : Queue) : Option Item :=
  match q.current with
  | some p => q.items.find? (fun i => i.pkt = p)
  | none => oldestHighest q.items

/-- One read: the item returned and the queue after it (R408, R412). -/
def Queue.read (q : Queue) : Item × Queue :=
  match q.nextItem with
  | none => (q.idle, q)
  | some i =>
    let cur := if i.last then none else if i.first then some i.pkt else q.current
    (i, ({ q with items := q.items.filter (fun j => j.sequence ≠ i.sequence), current := cur }).settle)

/-- Write the number of a packet's items into its first item, if that still waits (R409). -/
def fillPacketItems (p n : Nat) (items : List Item) : List Item :=
  items.map (fun i => if i.pkt = p ∧ i.first then { i with packetItems := n } else i)

/-- Put an accepted item in, with the level comparison (R411, R413). -/
def Queue.accept (q : Queue) (i : Item) : Queue :=
  let items := q.items ++ [i]
  let crosses := decide (q.items.length = q.cfg.level)
  { q with
    items := items
    peak := max q.peak items.length
    crossings := if crosses then min 255 (q.crossings + 1) else q.crossings
    latched := q.latched || crosses }

/-- Discard the current packet: its unread items, and its later ones as they are written (R410). -/
def Queue.drop (q : Queue) : Nat × Queue :=
  match q.current with
  | none => (0, q)
  | some p =>
    let gone := q.items.filter (fun i => i.pkt = p)
    let done := gone.any (fun i => i.last)
    (gone.length,
      ({ q with items := q.items.filter (fun i => i.pkt ≠ p), current := none,
                dropping := if done then none else some p }).settle)

/-- Acknowledge `latched` (R413). -/
def Queue.ackLatched (q : Queue) : Queue := { q with latched := false, crossings := 0, peak := q.items.length }

/-- QSTATUS (R415). -/
def Queue.qstatus (q : Queue) : Word :=
  BitVec.ofNat 32 ((if q.count = q.capacity then 2 ^ 31 else 0) + (if q.overrun then 2 ^ 30 else 0)
    + (if q.cfg.level < q.count then 2 ^ 29 else 0) + (if q.latched then 2 ^ 28 else 0)
    + (if q.current.isSome then 2 ^ 27 else 0) + q.count % 2 ^ 24)

/-- QLEVEL (R415). -/
def Queue.qlevel (q : Queue) : Word := BitVec.ofNat 32 (q.cfg.level % 2 ^ 24)

/-- QPEAK (R415). -/
def Queue.qpeak (q : Queue) : Word := BitVec.ofNat 32 (q.crossings % 256 * 2 ^ 24 + q.peak % 2 ^ 24)

/-! ### Counters, notices and the writes they cause

A count can saturate and raise NTC_COUNTER_SAT, a notice that latches writes an item, and a write can overrun, which
counts. `Effect` names the three, and `runEffects` works a list of them off, each followed by what it causes. Only an
unlatched notice causes a write, and there are 23, so the fuel of `State.effects` is never used up. -/

/-- An effect that can cause further ones. -/
inductive Effect where
  /-- Add to a counter (R493); the handle is a per-stream counter's stream, or 0. -/
  | count (k : CtrKey) (n : Nat)
  /-- Raise a notice with its detail (R404, R521). -/
  | notice (code : Nat) (detail : List Byte)
  /-- Offer one packet of the gate's own to a queue (R411). -/
  | packet (q : QueueId) (tag : Half) (prio : Option Nat) (bodies : List (List Byte))
deriving DecidableEq, Repr

/-- The largest count (R493). -/
def maxCount : Nat := 2 ^ 48 - 1

/-- Add to a counter, saturating (R493). -/
def Counter.add (c : Counter) (n : Nat) : Counter :=
  if maxCount < c.count + n then { count := maxCount, sat := true } else { c with count := c.count + n }

/-- A counter's value; one never counted is 0 (R467). -/
def State.counter (s : State) (k : CtrKey) : Counter := (aget k s.ctl.counters).getD ⟨0, false⟩

/-- A counter's name in a notice's detail: group, then position (R519). -/
def CtrKey.name (k : CtrKey) : List Byte := leBytes 2 k.group ++ leBytes 2 k.pos

/-- The notice latched under a code. -/
def State.notice? (s : State) (code : Nat) : Option Notice := s.ctl.notices.find? (fun n => n.code = code)

/-- Whether a notice is latched (R403). -/
def State.latched (s : State) (code : Nat) : Bool := (s.notice? code).isSome

/-- NTC_SUMMARY (R513): bit c − 1 for each latched notice. -/
def State.ntcSummary (s : State) : Word :=
  s.ctl.notices.foldl (fun w n => w ||| BitVec.ofNat 32 (2 ^ (n.code - 1))) 0#32

/-- host_irq (R403): a latched notice that port A's mask enables. -/
def State.hostIrq (s : State) : Bool := s.ntcSummary &&& s.ctl.enableA != 0#32

/-- mgtb_irq (R403). -/
def State.mgtbIrq (s : State) : Bool := s.ntcSummary &&& s.ctl.enableB != 0#32

/-- Send the notice flag's event when port A's interrupt condition has changed since `before` (R402). -/
def State.signalIrq (s : State) (before : Bool) : State :=
  if s.ctl.noticeFlag.getLsbD 15 && (before != s.hostIrq) then
    let ev : Half := (if s.hostIrq then 0x8000#16 else 0xC000#16) ||| (s.ctl.noticeFlag &&& 0x3FFF#16)
    { s with ctl := { s.ctl with syncOut := s.ctl.syncOut ++ [ev] } }
  else s

/-- Count a later event of a latched notice (R404). -/
def countNotice (code : Nat) (ns : List Notice) : List Notice :=
  ns.map (fun n => if n.code = code then { n with count := n.count + 1 } else n)

/-- The body of a NOTICE item (R404). -/
def noticeBody (code count stamp : Nat) (detail : List Byte) : List Byte :=
  leBytes 2 code ++ leBytes 2 0 ++ leBytes 4 count ++ leBytes 8 stamp ++ padTo 40 detail

/-- The items of a gate packet, first sequence `seq` (R406). -/
def packetItems (seq prio : Nat) (tag : Half) (bodies : List (List Byte)) : List Item :=
  (bodies.zipIdx).map (fun (b, i) =>
    { sequence := (seq + i) % 2 ^ 32, packetItems := if i = 0 then bodies.length else 0, truncated := false,
      last := decide (i + 1 = bodies.length), first := decide (i = 0), priority := prio, tag := tag,
      body := padTo 56 b, pkt := seq })

/-- The counter of group 0x05 of a queue: 0 dropped items, 1 write refused, 2 overruns (R519). -/
def queueCtr (q : QueueId) (pos : Nat) : CtrKey := ⟨0x05, q.val, pos⟩

/-- The detail of NTC_HOST: the counter's name, the port or queue, and the tick (R416, R521). -/
def hostDetail (k : CtrKey) (unit now : Nat) : List Byte := k.name ++ leBytes 2 unit ++ leBytes 8 now

/-- Offer a packet of the gate's own (R411): refused by a host-written queue, ignored whole when it does not fit. -/
def offerPacket (q : QueueId) (tag : Half) (prio : Option Nat) (bodies : List (List Byte)) (s : State) :
    State × List Effect :=
  let v := s.queue q
  let n := bodies.length
  if n = 0 then (s, [])
  else if v.cfg.hostWrites then (s, [.count (queueCtr q 1) n])
  else if v.capacity < v.items.length + n then
    (s.setQueue q { v with sequence := (v.sequence + n) % 2 ^ 32, overrun := true },
      [.count (queueCtr q 2) n, .notice 14 (hostDetail (queueCtr q 2) q.val s.now)])
  else
    let items := packetItems v.sequence (prio.getD v.cfg.priority) tag bodies
    let v' := items.foldl Queue.accept { v with sequence := (v.sequence + n) % 2 ^ 32 }
    let s' := s.setQueue q v'
    if v'.latched && !v.latched then
      (s', [.notice 13 (leBytes 2 q.val ++ leBytes 4 (v.cfg.level + 1) ++ leBytes 4 (v.cfg.level + 1) ++ leBytes 1 1)])
    else (s', [])

/-- One effect and what it causes. -/
def oneEffect (e : Effect) (s : State) : State × List Effect :=
  match e with
  | .count k n =>
    let c := s.counter k
    let c' := c.add n
    let s' := { s with ctl := { s.ctl with counters := aset k c' s.ctl.counters } }
    if c'.sat && !c.sat then (s', [.notice 22 (k.name ++ leBytes 8 0 ++ leBytes 8 s.now)]) else (s', [])
  | .notice code detail =>
    if s.latched code then
      ({ s with ctl := { s.ctl with notices := countNotice code s.ctl.notices } }, [])
    else
      let n : Notice := { code := code, count := 1, stamp := s.now, detail := padTo 40 detail }
      let s' := { s with ctl := { s.ctl with notices := s.ctl.notices ++ [n] } }
      (s'.signalIrq s.hostIrq, [.packet 0 0x0006#16 none [noticeBody code 1 s.now detail]])
  | .packet q tag prio bodies => offerPacket q tag prio bodies s

/-- Work off effects, each followed by what it causes. -/
def runEffects : Nat → List Effect → State → State
  | 0, _, s => s
  | _, [], s => s
  | f + 1, e :: es, s => runEffects f ((oneEffect e s).2 ++ es) (oneEffect e s).1

/-- Effects in their order. -/
def State.effects (s : State) (es : List Effect) : State := runEffects (64 * (es.length + 1)) es s

/-- Add one to a counter. -/
def State.count1 (s : State) (group index pos : Nat) : State := s.effects [.count ⟨group, index, pos⟩ 1]

/-- Add an amount to a counter. -/
def State.countN (s : State) (group index pos n : Nat) : State := s.effects [.count ⟨group, index, pos⟩ n]

/-- Raise a notice. -/
def State.raise (s : State) (code : Nat) (detail : List Byte) : State := s.effects [.notice code detail]

/-- Write one item of the gate's own to a queue, with the queue's priority (R405, R406). -/
def State.writeItem (s : State) (q : QueueId) (tag : Half) (body : List Byte) : State :=
  s.effects [.packet q tag none [body]]

/-- A poisoned read: `mem_poison_read` and NTC_MEMORY (R470, R496). -/
def poisonRead (kind unit addr now : Nat) : List Effect :=
  [.count ⟨0x13, 0, 2⟩ 1, .notice 19 (leBytes 1 kind ++ leBytes 2 unit ++ leBytes 8 addr ++ leBytes 8 now)]

/-- The bank of a shared-memory offset (R19). -/
def bankOf (addr : Nat) : Nat := addr / (10 * 2 ^ 20)

/-- The poisoned word of a policy table that a stage's item meets: the item then takes its late default (R54, R470; log 57). -/
def State.tablePoison (s : State) (code : Nat) (h : BitVec 48) (n : Nat) : Option Nat :=
  (s.rel.poisoned.find? (fun (e : Nat × Nat × Nat) => decide (e.1 = 0) && decide (0x14000000 ≤ e.2.2)
    && Config.meetsWord s.cast.placements code h n e.2.2)).map (fun (e : Nat × Nat × Nat) => e.2.2)

/-- What the read of a poisoned word of a policy table counts and raises (R470). -/
def State.tableEffects (s : State) (a : Option Nat) : List Effect :=
  match a with
  | some x => poisonRead 0 (bankOf x) x s.now
  | none => []

/-- Take one item from a queue: a poisoned spill item counts `queue_poisoned` (R408, R470). -/
def State.takeItem (s : State) (q : QueueId) : Item × State :=
  let r := (s.queue q).read
  let s1 := s.setQueue q r.2
  (r.1, match r.1.bad with
    | some a => s1.effects (.count ⟨0x13, 0, 3⟩ 1 :: poisonRead 0 (bankOf a) a s.now)
    | none => s1)

/-- Whether a gate packet of n items would be accepted (R411). -/
def State.packetFits (s : State) (q : QueueId) (n : Nat) : Bool :=
  !(s.queue q).cfg.hostWrites && decide ((s.queue q).items.length + n ≤ (s.queue q).capacity)

/-- Acknowledge notices by the bits of NTC_SUMMARY: detail and count are cleared for both ports (R514). -/
def State.acknowledge (s : State) (bits : Word) : State :=
  let keep := s.ctl.notices.filter (fun n => !bits.getLsbD (n.code - 1))
  let s' := { s with ctl := { s.ctl with notices := keep } }
  s'.signalIrq s.hostIrq

/-! ### A host's or the firmware's write to a queue -/

/-- The item a host writes: sequence and packet_items are the gate's (R415). -/
def hostItem (bytes : List Byte) (seq pkt : Nat) : Item :=
  let h := ofLe (bytes.take 8)
  let first := h.testBit 19
  let last := h.testBit 20
  { sequence := seq, packetItems := if first && last then 1 else 0, truncated := h.testBit 21, last := last,
    first := first, priority := h / 2 ^ 16 % 8, tag := BitVec.ofNat 16 h, body := padTo 56 (bytes.drop 8), pkt := pkt }

/-- Mark the truncation of packet p (R411): the last accepted item, or the end of the current packet if it is read. -/
def Queue.truncate (q : Queue) (p accepted : Nat) : Queue :=
  match (q.items.filter (fun i => i.pkt = p)).getLast? with
  | some l =>
    let marked := q.items.map (fun i => if i.sequence = l.sequence then { i with last := true, truncated := true } else i)
    { q with items := fillPacketItems p accepted marked }
  | none => { q with current := if q.current = some p then none else q.current }

/-- What became of a host item. -/
inductive Offer where
  | accepted
  | ignored
  | dropped
deriving DecidableEq, Repr

/-- Offer one host item to a host-written queue (R410, R411). `written` is how many items of the packet are accepted. -/
def Queue.offerHost (q : Queue) (bytes : List Byte) : Offer × Queue :=
  let h := ofLe (bytes.take 8)
  let first := h.testBit 19
  let last := h.testBit 20
  let seq := q.sequence
  let q1 := { q with sequence := (q.sequence + 1) % 2 ^ 32 }
  if q.dropping.isSome && !first then
    (.dropped, { q1 with dropping := if last then none else q.dropping, writing := if last then none else q.writing })
  else if q.ignoring && !first then (.ignored, { q1 with overrun := true, ignoring := !last })
  else if q.items.length = q.capacity then
    let q2 := { q1 with overrun := true, ignoring := !last, writing := none, dropping := none }
    match q.writing, first with
    | some p, false => (.ignored, q2.truncate p ((seq + 2 ^ 32 - p) % 2 ^ 32))
    | _, _ => (.ignored, q2)
  else
    let p := if first then seq else q.writing.getD seq
    let q2 := q1.accept (hostItem bytes seq p)
    let q3 := { q2 with writing := if last then none else some p, ignoring := false,
                        dropping := if first then none else q2.dropping }
    if last && !first then
      (.accepted, { q3 with items := fillPacketItems p ((seq + 2 ^ 32 - p) % 2 ^ 32 + 1) q3.items })
    else (.accepted, q3)

/-- A host or firmware write of one item to a host-written queue, with what it counts and raises (R411, R413, R416). -/
def State.hostOffer (s : State) (q : QueueId) (bytes : List Byte) : State :=
  let v := s.queue q
  let r := v.offerHost bytes
  let s' := s.setQueue q r.2
  let s1 := match r.1 with
    | .accepted => s'
    | .ignored => s'.effects [.count (queueCtr q 2) 1, .notice 14 (hostDetail (queueCtr q 2) q.val s.now)]
    | .dropped => s'.countN 0x05 q.val 0 1
  if r.2.latched && !v.latched then
    s1.raise 13 (leBytes 2 q.val ++ leBytes 4 r.2.items.length ++ leBytes 4 r.2.peak ++ leBytes 1 r.2.crossings)
  else s1

/-- Discard the current packet of a queue and count its items (R410). -/
def State.dropPacket (s : State) (q : QueueId) : State :=
  let r := (s.queue q).drop
  let s' := s.setQueue q r.2
  if r.1 = 0 then s' else s'.countN 0x05 q.val 0 r.1

/-! ### Free values -/

/-- Draw a fresh number for a free value of Config (assumption log 7). -/
def State.draw (s : State) : Nat × State := (s.freeUse, { s with freeUse := s.freeUse + 1 })

end Sys2Proof.Machine
end

