-- ==== Sys2Proof/Machine/Operands.lean ====
section
/-! DEFINITION. Fields of bodies and payloads: little-endian values at byte offsets (R9), signed values, and the command
and response areas of a mailbox slot (R421). -/

namespace Sys2Proof.Machine

/-- The little-endian value of `size` bytes at an offset; bytes past the end read 0. -/
def field (b : List Byte) (off size : Nat) : Nat := ofLe ((b.drop off).take size)

/-- One bit of a field. -/
def fieldBit (b : List Byte) (off size bit : Nat) : Bool := (field b off size).testBit bit

/-- Two's complement value of w bits. -/
def signedOf (w v : Nat) : Int := if 2 ^ (w - 1) ≤ v % 2 ^ w then (v % 2 ^ w : Nat) - (2 ^ w : Nat) else (v % 2 ^ w : Nat)

/-- The w-bit two's complement pattern of an integer. -/
def toTwos (w : Nat) (i : Int) : Nat := (i % (2 ^ w : Nat)).toNat

/-- An integer held within the range of w-bit two's complement. -/
def clampSigned (w : Nat) (i : Int) : Int := max (-(2 ^ (w - 1) : Nat)) (min i ((2 ^ (w - 1) : Nat) - 1))

/-- Bytes of a signed value. -/
def leInt (n : Nat) (i : Int) : List Byte := leBytes n (toTwos (8 * n) i)

/-- Replace the bytes of a list from an offset on. -/
def overlay (l : List Byte) (off : Nat) (bs : List Byte) : List Byte :=
  l.take off ++ bs ++ l.drop (off + bs.length)

/-- A node identifier from a 2-byte field, bits 11:0. -/
def nodeField (b : List Byte) (off : Nat) : NodeId := BitVec.ofNat 12 (field b off 2)

/-- A byte field as a byte. -/
def byteField (b : List Byte) (off : Nat) : Byte := BitVec.ofNat 8 (field b off 1)

/-! ### Status codes (R520) -/

abbrev Status.ok : Nat := 0
abbrev Status.alreadyDone : Nat := 1
abbrev Status.busy : Nat := 2
abbrev Status.tableFull : Nat := 3
abbrev Status.groupFull : Nat := 4
abbrev Status.notOwner : Nat := 5
abbrev Status.badSignature : Nat := 6
abbrev Status.doesNotFit : Nat := 7
abbrev Status.latencyUnproven : Nat := 8
abbrev Status.crossref : Nat := 9
abbrev Status.fenced : Nat := 10
abbrev Status.timeout : Nat := 11
abbrev Status.rewindClamped : Nat := 12
abbrev Status.holdOverrun : Nat := 13
abbrev Status.grammarDepth : Nat := 14
abbrev Status.indexExhausted : Nat := 15
abbrev Status.featureNan : Nat := 16
abbrev Status.lateDefault : Nat := 17
abbrev Status.degraded : Nat := 18
abbrev Status.scheduleViolation : Nat := 19
abbrev Status.uncorrectable : Nat := 20

/-! ### A mailbox slot's areas (R421) -/

/-- `command` of the command area. -/
def MSlot.code (m : MSlot) : Nat := ofLe (m.mem.bytes 0 2)
/-- `flags` bit 0 `notify`. -/
def MSlot.notify (m : MSlot) : Bool := (m.mem.get 2).getLsbD 0
/-- `sequence`. -/
def MSlot.seqBytes (m : MSlot) : List Byte := m.mem.bytes 4 4
/-- `body_len`. -/
def MSlot.bodyLen (m : MSlot) : Nat := ofLe (m.mem.bytes 8 2)
/-- The 240 bytes of `body`. -/
def MSlot.body (m : MSlot) : List Byte := m.mem.bytes 16 240

/-- The 256 bytes of a response area (R421). -/
def responseArea (m : MSlot) (status : Nat) (body : List Byte) : List Byte :=
  leBytes 2 m.code ++ leBytes 1 status ++ leBytes 1 0 ++ m.seqBytes ++ leBytes 2 (min 232 body.length)
    ++ List.replicate 6 0#8 ++ leBytes 8 m.accept ++ padTo 232 body

end Sys2Proof.Machine
end

