-- ==== Sys2Proof/Machine/Flags.lean ====
section
/-! DEFINITION. Status words and flags that registers show (R35, R403, R422, R425, R429, R512) and the order of sequence
fields (R494). -/

namespace Sys2Proof.Machine

/-- Whether sequence value a is later than b in a field of w bits (R494). -/
def laterSeq (w a b : Nat) : Bool :=
  let d := (a + 2 ^ w - b % 2 ^ w) % 2 ^ w
  decide (1 ≤ d) && decide (d ≤ 2 ^ (w - 1) - 1)

/-- VERSION: major 0x0002, minor 0x0001 (R512). -/
def versionWord : Word := 0x00020001#32

/-- `sync_state` (R35). -/
def syncCode : SyncState → Nat
  | .freeRun => 0
  | .locked => 1
  | .holdover => 2
  | .unlocked => 3

/-- PLUMB_STATUS (R35). -/
def Aon.status (a : Aon) : Word :=
  BitVec.ofNat 32 (a.maxOffset.toNat * 2 ^ 24 + a.rateTrim.toNat * 2 ^ 16 + a.syncLink.toNat * 2 ^ 8
    + (if a.stepped then 4 else 0) + syncCode a.sync)

/-- NODE_ID (R512). -/
def Aon.nodeWord (a : Aon) : Word := BitVec.ofNat 32 ((if a.nodeValid then 2 ^ 31 else 0) + a.node.toNat)

/-- BOOT_STATUS (R429). -/
def Boot.status (b : Boot) : Word :=
  BitVec.ofNat 32 (b.lastError.toNat * 2 ^ 8 + (if b.fwFailed then 8 else 0) + (if b.fwRunning then 4 else 0)
    + (if b.fwLoading then 2 else 0) + (if b.romReady then 1 else 0))

/-- Semaphore n. -/
def State.sem (s : State) (n : Fin 32) : Semaphore := (aget n s.ctl.sems).getD {}

/-- The semaphore holder's owner code (R425). -/
def State.semOwner (s : State) (n : Fin 32) : Nat := (s.sem n).owner

/-- Replace a semaphore. -/
def State.setSem (s : State) (n : Fin 32) (v : Semaphore) : State :=
  { s with ctl := { s.ctl with sems := aset n v s.ctl.sems } }

/-- Grant a free semaphore: epoch counts the grant (R425). -/
def Semaphore.grant (v : Semaphore) (owner : Nat) : Semaphore := { v with owner := owner, epoch := v.epoch + 1#16 }

/-- SEM_n (R425). -/
def Semaphore.word (v : Semaphore) : Word := BitVec.ofNat 32 (v.epoch.toNat * 2 ^ 16 + v.owner)

/-- Mailbox slot n of a port. -/
def State.slot (s : State) (p : MPort) (n : Fin 32) : MSlot := (aget (p, n) s.ctl.mbox).getD {}

/-- Replace a mailbox slot. -/
def State.setSlot (s : State) (p : MPort) (n : Fin 32) (m : MSlot) : State :=
  { s with ctl := { s.ctl with mbox := aset (p, n) m s.ctl.mbox } }

/-- MBOX_OWN of a port (R422). -/
def State.mboxOwn (s : State) (p : MPort) : Word :=
  (List.finRange 32).foldl (fun w n => if (s.slot p n).owned then w ||| BitVec.ofNat 32 (2 ^ n.val) else w) 0#32

/-- A read of a direct register that has no side effect (R11, R512); an unlisted offset reads 0 (R10). -/
def State.directRead (s : State) (p : MPort) (off : Nat) : Word :=
  if off = 0x0 then versionWord
  else if off = 0x4 then s.aon.nodeWord
  else if off = 0x8 then s.boot.status
  else if off = 0x10 then s.ntcSummary
  else if off = 0x14 then (match p with | .a => s.ctl.enableA | .b => s.ctl.enableB)
  else if off = 0x20 then s.aon.plumb.setWidth 32
  else if off = 0x24 then (match p with | .a => s.aon.hiA | .b => s.aon.hiB)
  else if off = 0x28 then s.aon.status
  else if off = 0x40 then s.mboxOwn p
  else if h : 0x100 ≤ off ∧ off < 0x180 ∧ off % 4 = 0 then (s.sem ⟨(off - 0x100) / 4, by omega⟩).word
  else 0#32

end Sys2Proof.Machine
end

