-- ==== Sys2Proof/Machine/Mailbox.lean ====
section
/-! DEFINITION. What every mailbox command shares: acceptance, the order in which the firmware starts commands (R423),
the checks before a command runs (R427, R430, R516), the response (R421, R424), and commands that wait for a tick. -/

namespace Sys2Proof.Machine

/-- A command as the firmware starts it. -/
structure Cmd where
  port : MPort
  slot : Fin 32
  code : Nat
  accept : Nat
  len : Nat
  body : List Byte
deriving DecidableEq, Repr

/-- The command codes of R515. -/
def commandCodes : List Nat :=
  [0x0001, 0x0002, 0x0003, 0x0101, 0x0102, 0x0110, 0x0111, 0x0112, 0x0113, 0x0120, 0x0121, 0x0122, 0x0201, 0x0202,
   0x0203, 0x0204, 0x0205, 0x0206, 0x0301, 0x0302, 0x0303, 0x0304, 0x0305, 0x0401, 0x0402, 0x0403, 0x0404, 0x0405,
   0x0406, 0x0501, 0x0502, 0x0503, 0x0504, 0x0601, 0x0602, 0x0603, 0x0604, 0x0701, 0x0702, 0x0703, 0x0704, 0x0705]

/-- The configuration commands (R427, R515 "Sem 0"). -/
def configCodes : List Nat :=
  [0x0002, 0x0003, 0x0101, 0x0102, 0x0110, 0x0111, 0x0112, 0x0113, 0x0120, 0x0121, 0x0122, 0x0401, 0x0402, 0x0403,
   0x0404, 0x0701, 0x0702, 0x0703]

/-- The commands the boot ROM serves (R430, R515). -/
def romCodes : List Nat := [0x0001, 0x0002, 0x0003]

/-- Whether a code is a configuration command's. -/
def isConfig (code : Nat) : Bool := configCodes.contains code

/-- The order of accepted commands: stamp, port A first, ascending slot (R423). -/
def cmdKey (p : MPort) (n : Fin 32) (m : MSlot) : Nat := m.accept * 64 + portCode p * 32 + n.val

/-- Whether the boot ROM or the firmware serves the mailboxes (R429). -/
def State.served (s : State) : Bool := s.boot.romReady || s.boot.fwRunning

/-- Whether an earlier configuration command of key below k is not complete (R423). -/
def State.configAhead (s : State) (k : Nat) : Bool :=
  s.ctl.mbox.any (fun e => e.2.owned && isConfig e.2.code && decide (cmdKey e.1.1 e.1.2 e.2 < k))

/-- Whether an earlier command that can start has not started (R423). -/
def State.startAhead (s : State) (k : Nat) : Bool :=
  s.ctl.mbox.any (fun e =>
    let k' := cmdKey e.1.1 e.1.2 e.2
    e.2.owned && !e.2.started && decide (k' < k) && !(isConfig e.2.code && s.configAhead k'))

/-- The command of a code that the firmware can start now in a slot (R422, R423). -/
def State.cmd? (s : State) (p : MPort) (n : Fin 32) (code : Nat) : Option Cmd :=
  let m := s.slot p n
  let k := cmdKey p n m
  if s.served && m.owned && !m.started && decide (m.code = code) && !s.startAhead k
      && !(isConfig code && s.configAhead k) then
    some { port := p, slot := n, code := code, accept := m.accept, len := m.bodyLen, body := m.body }
  else none

/-- Answer a slot: write the response area, clear the owned bit, notify (R421, R422, R424). -/
def State.respond (s : State) (p : MPort) (n : Fin 32) (status : Nat) (body : List Byte) : State :=
  let m := s.slot p n
  let m' : MSlot := { m with mem := Memory.setBytes m.mem 0x100 (responseArea m status body), owned := false,
                             started := false, long := false }
  let s' := s.setSlot p n m'
  if m.notify then s'.raise 15 (leBytes 1 (portCode p) ++ leBytes 1 n.val ++ leBytes 2 m.code) else s'

/-- Answer a command. -/
def State.answer (s : State) (c : Cmd) (status : Nat) (body : List Byte) : State := s.respond c.port c.slot status body

/-- Answer the slot a waiting command came from, if it came from one. -/
def State.answerFrom (s : State) (src : Option (MPort × Fin 32)) (status : Nat) (body : List Byte) : State :=
  match src with
  | some (p, n) => s.respond p n status body
  | none => s

/-- Mark a command started. -/
def State.markStarted (s : State) (c : Cmd) : State :=
  s.setSlot c.port c.slot { s.slot c.port c.slot with started := true }

/-- Start a command: the boot ROM answers only its own with more than BUSY (R430), a configuration command needs
semaphore 0 at acceptance (R427), a short body answers CROSSREF (R516); then the command itself runs. -/
def State.startCmd (s : State) (p : MPort) (n : Fin 32) (code minLen : Nat) (run : Cmd → State → State) : State :=
  match s.cmd? p n code with
  | none => s
  | some c =>
    let s1 := s.markStarted c
    if !s.boot.fwRunning && !romCodes.contains code then s1.answer c Status.busy []
    else if isConfig code && decide ((s.slot p n).owner0 ≠ portOwner p) then s1.answer c Status.notOwner []
    else if c.len < minLen then s1.answer c Status.crossref []
    else run c s1

/-- How many commands wait for a tick later than 32,000 ticks after acceptance (R516). -/
def State.longWaits (s : State) : Nat := (s.ctl.mbox.filter (fun e => e.2.owned && e.2.long)).length

/-- Let a command wait for a later answer: at the limit of 48 it answers BUSY at once and does nothing (R516). -/
def State.admitLong (s : State) (c : Cmd) (k : State → State) : State :=
  if 48 ≤ s.longWaits then s.answer c Status.busy []
  else k (s.setSlot c.port c.slot { s.slot c.port c.slot with long := true })

/-- The place of a mailbox slot among commands of equal stamps (R68, R423). -/
def slotOrder (p : MPort) (n : Fin 32) : Nat := portCode p * 32 + n.val

/-- Insert a waiting command in the order of stamps and edges (R68, R80, R423). -/
def insertWaiting (w : Waiting) : List Waiting → List Waiting
  | [] => [w]
  | x :: xs =>
    if w.accept < x.accept ∨ (w.accept = x.accept ∧ w.order < x.order) then w :: x :: xs else x :: insertWaiting w xs

/-- Let a command wait until a tick with its body (R80, R86). -/
def State.wait (s : State) (c : Cmd) (due : Nat) : State :=
  let w : Waiting := { code := c.code, from? := some (c.port, c.slot), accept := c.accept,
                       order := slotOrder c.port c.slot, due := due, body := c.body.take c.len }
  { s with ctl := { s.ctl with waiting := insertWaiting w s.ctl.waiting } }

/-- A command's boundary: its acceptance stamp plus 1,024 ticks (R515). -/
def boundaryOf (accept : Nat) : Nat := accept + 1024

/-- Let a command wait for its boundary. -/
def State.waitBoundary (s : State) (c : Cmd) : State := s.wait c (boundaryOf c.accept)

/-- Whether a waiting entry waits for its boundary or snapshot tick; codes from 0x10000 up mark commands past their
boundary that wait for a completion. -/
def Waiting.atBoundary (w : Waiting) : Bool := decide (w.code < 0x10000)

/-- The waiting command of a code whose tick is reached, when no command ordered before it waits (R80, R423). -/
def State.dueWaiting (s : State) (code : Nat) : Option Waiting :=
  match s.ctl.waiting.find? Waiting.atBoundary with
  | some w => if w.code = code ∧ w.due ≤ s.now then some w else none
  | none => none

/-- Take the first command that waits for its boundary off. -/
def State.popWaiting (s : State) : State :=
  { s with ctl := { s.ctl with waiting := s.ctl.waiting.eraseP Waiting.atBoundary } }

/-- Let a command past its boundary wait for its completion. -/
def State.waitCompletion (s : State) (w : Waiting) : State :=
  { s with ctl := { s.ctl with waiting := s.ctl.waiting ++ [{ w with code := w.code + 0x10000 }] } }

/-- The oldest command of a code that waits for its completion. -/
def State.completing (s : State) (code : Nat) : Option Waiting :=
  s.ctl.waiting.find? (fun w => w.code = code + 0x10000)

/-- Take a command off that waits for its completion. -/
def State.dropCompleting (s : State) (w : Waiting) : State :=
  { s with ctl := { s.ctl with waiting := s.ctl.waiting.erase w } }

end Sys2Proof.Machine
end

