-- ==== Sys2Proof/Machine/Capability.lean ====
section
/-! DEFINITION. The capability map (R490, R491), which cells are usable (R477, R488), the DEGRADED report (R496) and the
voltage codes (R501). -/

namespace Sys2Proof.Machine

/-! ### Cells and benches (R211, R212) -/

/-- The logical bench of a cell: bits 11:4 (R237). -/
def benchOf (c : CellId) : Byte := (c >>> 4).setWidth 8
/-- The half of a bench: quarters NW and NE are north (R211, R212). -/
def benchHalf (b : Byte) : HalfId := if b.getLsbD 7 then .south else .north
/-- The half of a cell. -/
def cellHalf (c : CellId) : HalfId := benchHalf (benchOf c)

/-- The map's byte of a bench (R490). -/
def Reliability.bench (r : Reliability) (b : Byte) : Byte := (aget b r.benches).getD 0#8
/-- `short`. -/
def benchShort (v : Byte) : Bool := v.getLsbD 0
/-- `spare_used`. -/
def benchSpareUsed (v : Byte) : Bool := v.getLsbD 1
/-- `spare_failed`. -/
def benchSpareFailed (v : Byte) : Bool := v.getLsbD 2

/-- `array_north` or `array_south`: 0 whole, 1 lost, 2 power-gated. -/
def Reliability.array (r : Reliability) : HalfId → Nat
  | .north => r.arrayNorth
  | .south => r.arraySouth

/-- Whether the half's array is lost (R488). -/
def Reliability.lost (r : Reliability) (h : HalfId) : Bool := decide (r.array h = 1)

/-- Whether the capability map shows a cell usable (R477, R488). -/
def Reliability.usable (r : Reliability) (c : CellId) : Bool :=
  !benchShort (r.bench (benchOf c)) && !r.lost (cellHalf c)

/-- `usable_cells`: 16 for each bench that is not short in a half that is not lost. -/
def Reliability.usableCells (r : Reliability) : Nat :=
  16 * ((List.range 256).filter (fun b =>
    let v : Byte := BitVec.ofNat 8 b
    !benchShort (r.bench v) && !r.lost (benchHalf v))).length

/-- The half's power state. -/
def Power.half (p : Power) : HalfId → HalfPower
  | .north => p.north
  | .south => p.south

/-- Replace a half's power state. -/
def State.setHalf (s : State) (h : HalfId) (v : HalfPower) : State :=
  match h with
  | .north => { s with power := { s.power with north := v } }
  | .south => { s with power := { s.power with south := v } }

/-- `set_north_mhz`: the pending set point when one is pending (R490). -/
def HalfPower.point (h : HalfPower) : Nat := h.pending.getD h.setPoint

/-- Free spares of the two directions (R490). -/
def Reliability.spares (r : Reliability) : Nat := r.weltSparesN + 16 * r.weltSparesS

/-- A lane group's byte of the map (R490). -/
def laneByte (g : LaneGroup) : Byte :=
  BitVec.ofNat 8 ((match g.spared with | some l => l.val + 128 | none => 0) + (if g.spareFailed then 64 else 0))

/-- Header bytes 0 to 63 of the capability map with the identifier's bytes given (R490). -/
def capabilityHeader (s : State) (ident : List Byte) : List Byte :=
  leBytes 4 0x434D4756 ++ leBytes 2 3 ++ leBytes 2 s.rel.usableCells ++ ident ++ leBytes 8 s.rel.repairs
    ++ leBytes 1 s.rel.arrayNorth ++ leBytes 1 s.rel.arraySouth ++ [s.rel.enginesNorth, s.rel.enginesSouth,
      s.rel.skiverUnits] ++ leBytes 1 s.rel.weltMem ++ leBytes 1 s.rel.spares
    ++ leBytes 1 (if s.rel.degraded then 1 else 0) ++ leBytes 2 s.power.north.point ++ leBytes 2 s.power.south.point
    ++ leBytes 2 s.power.north.run ++ leBytes 2 s.power.south.run ++ List.replicate 24 0#8

/-- The 256 bench bytes (R490). -/
def benchBytes (r : Reliability) : List Byte := (List.range 256).map (fun b => r.bench (BitVec.ofNat 8 b))

/-- The bytes that `capability_id` covers: the header with bytes 8 to 23 and 30 to 63 zero, and the bench bytes ANDed
with 0x09 (R491). -/
def capabilityCovered (s : State) : List Byte :=
  let h := capabilityHeader s (List.replicate 8 0#8)
  (h.take 8 ++ List.replicate 16 0#8 ++ (h.drop 24).take 6 ++ List.replicate 34 0#8)
    ++ (benchBytes s.rel).map (fun b => b &&& 0x09#8)

/-- `capability_id` (R491). -/
def State.capabilityId (s : State) : List Byte := (sha256 (capabilityCovered s)).take 8

/-- The lane group g. -/
def State.laneGroup (s : State) (g : Fin 8) : LaneGroup := (aget g s.plane.lanes).getD {}

/-- The 384 bytes of the capability map (R490). -/
def State.capabilityMap (s : State) : List Byte :=
  capabilityHeader s s.capabilityId ++ benchBytes s.rel
    ++ (List.finRange 8).map (fun g => laneByte (s.laneGroup g)) ++ List.replicate 56 0#8

/-! ### DEGRADED and repairs -/

/-- Raise NTC_DEGRADED with a cause and half (R496). -/
def State.noteDegraded (s : State) (cause : Nat) (h : Nat) : State :=
  s.raise 21 (leBytes 1 cause ++ leBytes 1 h ++ s.capabilityId ++ leBytes 8 s.now)

/-- Enter DEGRADED, raising the notice when it is entered (R496). -/
def State.degrade (s : State) (cause : Nat) (h : Nat) : State :=
  if s.rel.degraded then s else ({ s with rel := { s.rel with degraded := true } }).noteDegraded cause h

/-- The firmware takes semaphore 0 while it applies a repair that changes the map, when the semaphore is free (R428, R492;
log 49). -/
def State.takeRepairSem (s : State) : State :=
  if s.boot.fwRunning && decide (s.semOwner 0 = 0) then
    let s1 := s.setSem 0 ((s.sem 0).grant 3)
    { s1 with ctl := { s1.ctl with repairSem := some s.now } }
  else s

/-- Raise NTC_SPARE_USED with its kind and 8-byte location, and count the repair in the map (R490, R496). -/
def State.noteSpare (s : State) (kind : Nat) (loc : List Byte) : State :=
  (({ s with rel := { s.rel with repairs := s.rel.repairs + 1 } }).takeRepairSem).raise 20
    (leBytes 1 kind ++ padTo 8 loc ++ leBytes 8 s.now)

/-! ### Where benches and ports stand (R211, R212, R228, R234) -/

/-- Column and row of a logical bench (R211, R212). -/
def benchAt (b : Nat) : Nat × Nat :=
  let q := b / 64
  (b % 8 + (if q % 2 = 1 then 8 else 0), b / 8 % 8 + (if q < 2 then 8 else 0))

/-- Column of an engine port (R234). -/
def engineColumn (e : Nat) : Nat := if e < 3 then 2 + 2 * e else 3 + 2 * e

/-- Column and row where a destination of the distance table attaches (R234, R237). -/
def destinationAt (d : Nat) : Nat × Nat :=
  if d < 64 then (d % 32 / 2, if d < 32 then 8 else 7)
  else if d < 80 then (engineColumn (d % 8), if d < 72 then 8 else 7)
  else benchAt (d - 80)

/-- The numbers after `a` up to `b`, in the direction of `b`. -/
def stepsTo (a b : Nat) : List Nat :=
  if a ≤ b then (List.range (b - a)).map (fun i => a + 1 + i) else (List.range (a - b)).map (fun i => a - 1 - i)

/-- The benches that a path passes after its first, in order: along the row to the destination's column, then along the column
(R228). -/
def meshPath (src dst : Nat × Nat) : List (Nat × Nat) :=
  (stepsTo src.1 dst.1).map (fun c => (c, src.2)) ++ (stepsTo src.2 dst.2).map (fun r => (dst.1, r))

/-- The logical bench at a column and row. -/
def benchHere (p : Nat × Nat) : Byte :=
  BitVec.ofNat 8 ((if 8 ≤ p.2 then 0 else 128) + (if 8 ≤ p.1 then 64 else 0) + p.2 % 8 * 8 + p.1 % 8)

/-- `bypassed`: the bench's router has failed and its pass-through is closed (R478, R490). -/
def benchBypassed (v : Byte) : Bool := v.getLsbD 3

/-- The hops of latency of a path: one for each bench it goes on to, and one more for each of these that is bypassed (R228, R478). -/
def Reliability.pathHops (r : Reliability) (src dst : Nat × Nat) : Nat :=
  let p := meshPath src dst
  p.length + (p.filter (fun b => benchBypassed (r.bench (benchHere b)))).length

/-! ### The identifiers of the distance table (R236) -/

/-- A word that a list lacks: the one given, or the least number that is not in the list. -/
def freshWord (seen : List DWord) (v : DWord) : DWord :=
  if seen.contains v then
    (((List.range (seen.length + 1)).map (BitVec.ofNat 64)).find? (fun w => !seen.contains w)).getD v
  else v

/-- The identifiers of the table's contents up to the n-th, newest first: each differs from all before it (R236; log 7). -/
def distanceIds : Nat → List DWord
  | 0 => [Config.freshId 0]
  | n + 1 => freshWord (distanceIds n) (Config.freshId (n + 1)) :: distanceIds n

/-- Regenerate the distance table: its contents get a new identifier (R236; a free value, log 7). -/
def State.newDistance (s : State) : State :=
  { s with rel := { s.rel with distanceId := s.draw.1 + 1 }, freeUse := s.draw.2.freeUse }

/-- The current `distance_id` (R236). -/
def State.distanceId (s : State) : List Byte := leBytes 8 ((distanceIds s.rel.distanceId).headD 0#64).toNat

/-! ### Voltage codes (R501) -/

/-- The code of a set point. -/
def vidCode (mhz : Nat) : Byte :=
  if 800 ≤ mhz then 0x64#8 else if mhz = 700 then 0x5C#8 else if mhz = 600 then 0x54#8 else 0x50#8

/-- The requested voltage of a half in microvolts: 0.500 V + 2.5 mV × code. -/
def vidMicrovolts (code : Byte) : Nat := 500000 + 2500 * code.toNat

/-- Drive the code of the higher of the set point and the pending one: a lower code waits for the cast (R501). -/
def State.driveVid (s : State) (h : HalfId) : State :=
  let v := s.power.half h
  let code := vidCode (max v.setPoint v.point)
  match h with
  | .north => { s with aon := { s.aon with vidNorth := code } }
  | .south => { s with aon := { s.aon with vidSouth := code } }

/-- Form the pending set point, the lower of operator set point and throttle limit (R506). -/
def State.formPending (s : State) (h : HalfId) : State :=
  let v := s.power.half h
  let p := min v.opSet v.throttle
  (s.setHalf h { v with pending := if p = v.setPoint then none else some p }).driveVid h

end Sys2Proof.Machine
end

