-- ==== Sys2Proof/Machine/Registers.lean ====
section
/-! DEFINITION. The direct registers, the semaphores and the queue registers (12_ to 26 of the table): R11, R12, R35,
R398, R399, R408 to R415, R420, R422, R425, R426, R429, R512 to R514. -/

namespace Sys2Proof.Machine

/-- The bus that a management port's registers are reached on (R399, R420). -/
def portBus : MPort → Bus
  | .a => .ctl0
  | .b => .mgtb

/-- Answer an access: a result code (R398) and the data read. -/
def State.reply (s : State) (b : Bus) (result : Nat) (data : List Byte) : State :=
  { s with ctl := { s.ctl with rsp := aset b (result, data) s.ctl.rsp } }

/-! ### Plumb registers (R35) -/

/-- A read of PLUMB_LO: the low half, with the high half latched for the reading port. -/
def readPlumbLo (p : MPort) (s : State) : State :=
  let hi : Word := (s.aon.plumb >>> 32).setWidth 32
  let a := match p with
    | .a => { s.aon with hiA := hi }
    | .b => { s.aon with hiB := hi }
  ({ s with aon := a }).reply (portBus p) 0 (leBytes 4 (s.aon.plumb.setWidth 32 : Word).toNat)

/-- A read of PLUMB_STATUS clears `max_offset` for both ports. -/
def readPlumbStatus (p : MPort) (s : State) : State :=
  ({ s with aon := { s.aon with maxOffset := 0#8 } }).reply (portBus p) 0 (leBytes 4 s.aon.status.toNat)

/-- Writing 1 to `stepped` clears it (R11, R35). -/
def clearStepped (s : State) : State := { s with aon := { s.aon with stepped := false } }

/-- Writing 1 to `fw_failed` clears it (R429). -/
def clearFwFailed (s : State) : State := { s with boot := { s.boot with fwFailed := false } }

/-- A write to NODE_ID takes effect only when `valid` is 0 and the writing port holds semaphore 0 (R513). -/
def writeNodeId (p : MPort) (v : Word) (s : State) : State :=
  if s.aon.nodeValid = false ∧ s.semOwner 0 = portOwner p then
    { s with aon := { s.aon with node := v.setWidth 12, nodeValid := true } }
  else s

/-! ### Semaphores (R426) -/

/-- Requests in one cycle: a held semaphore ignores them; the firmware wins; of two ports, the one that did not win the
previous tie, port A first. -/
def Semaphore.request (v : Semaphore) (a b fw : Bool) : Semaphore :=
  if v.owner ≠ 0 then v
  else if fw then v.grant 3
  else if a && b then { v.grant (if v.tieB then 2 else 1) with tieB := !v.tieB }
  else if a then v.grant 1
  else if b then v.grant 2
  else v

/-- Release by the holder; from any other port it is ignored. -/
def Semaphore.release (v : Semaphore) (owner : Nat) : Semaphore := if v.owner = owner then { v with owner := 0 } else v

/-- Force: the semaphore is released, `sem_forced` counts and NTC_SEMAPHORE latches number, former owner and port. -/
def forceSem (n : Fin 32) (p : MPort) (s : State) : State :=
  let v := s.sem n
  (s.setSem n { v with owner := 0 }).effects
    [.count ⟨0x11, 0, 5⟩ 1, .notice 16 (leBytes 1 n.val ++ leBytes 1 v.owner ++ leBytes 1 (portCode p))]

/-! ### Queue registers (R408, R410, R413, R415) -/

/-- A 64-byte read of a queue's item port consumes one item or returns the idle item. -/
def readItem (q : QueueId) (s : State) : State :=
  let r := s.takeItem q
  r.2.reply .ctl1 0 r.1.bytes

/-- A 64-byte write to a queue's item port offers one item; a gate-written queue refuses it with result 2 (R411). -/
def writeItemPort (q : QueueId) (item : List Byte) (s : State) : State :=
  if (s.queue q).cfg.hostWrites then (s.hostOffer q item).reply .ctl1 0 []
  else (s.countN 0x05 q.val 1 1).reply .ctl1 2 []

/-- Clear the sticky `overrun` bit. -/
def clearOverrun (q : QueueId) (s : State) : State := s.setQueue q { s.queue q with overrun := false }

/-- Acknowledge `latched`. -/
def ackQueue (q : QueueId) (s : State) : State := s.setQueue q (s.queue q).ackLatched

/-- Store a watermark level (R415). -/
def setLevel (q : QueueId) (level : Nat) (s : State) : State :=
  let v := s.queue q
  s.setQueue q { v with cfg := { v.cfg with level := level % 2 ^ 24 } }

/-! ### Handing slots over (R422, R423) -/

/-- Hand one slot over: a slot the firmware owns is left and counted (R422). -/
def submitSlot (p : MPort) (s : State) (n : Fin 32) : State :=
  let m := s.slot p n
  if m.owned then s.countN 0x11 0 (2 + portCode p) 1
  else
    (s.setSlot p n { m with owned := true, started := false, long := false, accept := s.now,
                            owner0 := s.semOwner 0 }).countN 0x11 0 (portCode p) 1

/-- Answer CROSSREF in every owned slot whose code is not in the table (R516). -/
def answerUnknown (s : State) : State :=
  if s.served then
    ([.a, .b].flatMap (fun (p : MPort) => (List.finRange 32).map (fun n => (p, n)))).foldl (fun t e =>
      if (s.slot e.1 e.2).owned && !commandCodes.contains (s.slot e.1 e.2).code then t.respond e.1 e.2 Status.crossref []
      else t) s
  else s

/-- A write to MBOX_SUBMIT: each bit written 1 hands its slot over, in ascending order (R422). -/
def submit (p : MPort) (bits : Word) (s : State) : State :=
  answerUnknown (((List.finRange 32).filter (fun n => bits.getLsbD n.val)).foldl (submitSlot p) s)

/-! ### Register writes by address -/

/-- A 4-byte write to a direct register (R11, R512). An offset the table does not list, and every read-only register,
ignores it. -/
def writeDirect (p : MPort) (off : Nat) (v : Word) (s : State) : State :=
  if off = 0x4 then writeNodeId p v s
  else if off = 0x8 then (if v.getLsbD 3 then clearFwFailed s else s)
  else if off = 0x10 then s.acknowledge v
  else if off = 0x14 then
    let e : Word := v &&& 0x7FFFFF#32
    let s' := match p with
      | .a => { s with ctl := { s.ctl with enableA := e } }
      | .b => { s with ctl := { s.ctl with enableB := e } }
    s'.signalIrq s.hostIrq
  else if off = 0x28 then (if v.getLsbD 2 then clearStepped s else s)
  else if off = 0x44 then submit p v s
  else if h : 0x100 ≤ off ∧ off < 0x180 ∧ off % 4 = 0 then
    let n : Fin 32 := ⟨(off - 0x100) / 4, by omega⟩
    let s1 := if v.getLsbD 4 then forceSem n p s else s
    let s2 := if v.getLsbD 3 then s1.setSem n ((s1.sem n).release (portOwner p)) else s1
    if v.getLsbD 2 then s2.setSem n ((s2.sem n).request (decide (p = .a)) (decide (p = .b)) false) else s2
  else s

/-- A write of a whole number of 4-byte words to the direct registers, lowest address first. -/
def writeDirects (p : MPort) : Nat → List Byte → State → State
  | off, b0 :: b1 :: b2 :: b3 :: rest, s =>
    writeDirects p (off + 4) rest (writeDirect p off (BitVec.ofNat 32 (ofLe [b0, b1, b2, b3])) s)
  | _, _, s => s

/-- A write to a mailbox slot's bytes: refused while the firmware owns the slot (R422). -/
def writeSlot (p : MPort) (off : Nat) (data : List Byte) (s : State) : Nat × State :=
  let n : Fin 32 := ⟨off / 0x200 % 32, by omega⟩
  let m := s.slot p n
  if m.owned then (2, s) else (0, s.setSlot p n { m with mem := Memory.setBytes m.mem (off % 0x200) data })

/-- A 4-byte write to a queue's registers (R415). -/
def writeQueueReg (off : Nat) (v : Word) (s : State) : State :=
  let q : QueueId := ⟨off / 16 % 512, by omega⟩
  match off % 16 with
  | 0 =>
    let s1 := if v.getLsbD 30 then clearOverrun q s else s
    if v.getLsbD 28 then ackQueue q s1 else s1
  | 4 => setLevel q v.toNat s
  | 12 => if v.getLsbD 0 then s.dropPacket q else s
  | _ => s

/-- A write of whole words to queue registers, lowest address first. -/
def writeQueueRegs : Nat → List Byte → State → State
  | off, b0 :: b1 :: b2 :: b3 :: rest, s =>
    writeQueueRegs (off + 4) rest (writeQueueReg off (BitVec.ofNat 32 (ofLe [b0, b1, b2, b3])) s)
  | _, _, s => s

/-- A write by address on a control port or port B: direct registers, mailbox slots, queue items and queue registers; a
misaligned or undecoded address answers result 1, and on port B it is ignored and counted (R398, R399, R420). -/
def writeRegister (b : Bus) (addr : Word) (data : List Byte) (s : State) : State :=
  let a := addr.toNat
  let n := data.length
  let aligned := decide (a % n = 0) && (n = 4 || n = 8 || n = 64)
  match b with
  | .ctl0 =>
    if !aligned then s.reply .ctl0 1 []
    else if a < 0x1000 then (writeDirects .a a data s).reply .ctl0 0 []
    else if 0x10000 ≤ a ∧ a < 0x14000 then
      let r := writeSlot .a (a - 0x10000) data s
      r.2.reply .ctl0 r.1 []
    else s.reply .ctl0 1 []
  | .ctl1 =>
    if !aligned then s.reply .ctl1 1 []
    else if a < 0x8000 then
      (if n = 64 then writeItemPort ⟨a / 64 % 512, by omega⟩ data s else s.reply .ctl1 1 [])
    else if 0x10000 ≤ a ∧ a < 0x12000 then (writeQueueRegs (a - 0x10000) data s).reply .ctl1 0 []
    else s.reply .ctl1 1 []
  | .mgtb =>
    if n = 4 ∧ a % 4 = 0 ∧ a < 0x1000 then writeDirects .b a data s
    else if n = 4 ∧ a % 4 = 0 ∧ 0x10000 ≤ a ∧ a < 0x14000 then (writeSlot .b (a - 0x10000) data s).2
    else s.countN 0x11 0 4 1

/-! ### The commands -/

/-- PLUMB_LO_READ (R35). -/
def execPlumbLoRead (p : MPort) (s : State) : Host.Outcome State Fault Refusal := .next (readPlumbLo p s)

/-- PLUMB_STATUS_READ (R35, R12). -/
def execPlumbStatusRead (p : MPort) (s : State) : Host.Outcome State Fault Refusal := .next (readPlumbStatus p s)

/-- PLUMB_STEPPED_CLEAR (R35). -/
def execPlumbSteppedClear (p : MPort) (s : State) : Host.Outcome State Fault Refusal :=
  .next ((clearStepped s).reply (portBus p) 0 [])

/-- BOOT_FW_FAILED_CLEAR (R429). -/
def execBootFwFailedClear (p : MPort) (s : State) : Host.Outcome State Fault Refusal :=
  .next ((clearFwFailed s).reply (portBus p) 0 [])

/-- NODE_ID_WRITE (R513). -/
def execNodeIdWrite (p : MPort) (v : Word) (s : State) : Host.Outcome State Fault Refusal :=
  .next ((writeNodeId p v s).reply (portBus p) 0 [])

/-- NOTICE_ACKNOWLEDGE (R514). -/
def execNoticeAcknowledge (p : MPort) (bits : Word) (s : State) : Host.Outcome State Fault Refusal :=
  .next ((s.acknowledge bits).reply (portBus p) 0 [])

/-- SEM_REQUEST (R426). -/
def execSemRequest (k : Fin 32) (a b fw : Bool) (s : State) : Host.Outcome State Fault Refusal :=
  .next (s.setSem k ((s.sem k).request a b fw))

/-- SEM_RELEASE (R426). -/
def execSemRelease (k : Fin 32) (p : MPort) (s : State) : Host.Outcome State Fault Refusal :=
  .next (s.setSem k ((s.sem k).release (portOwner p)))

/-- SEM_FORCE (R426). -/
def execSemForce (k : Fin 32) (p : MPort) (s : State) : Host.Outcome State Fault Refusal := .next (forceSem k p s)

/-- QUEUE_ITEM_READ (R408, R412). -/
def execQueueItemRead (q : QueueId) (s : State) : Host.Outcome State Fault Refusal := .next (readItem q s)

/-- QUEUE_ITEM_WRITE (R411). -/
def execQueueItemWrite (q : QueueId) (item : List Byte) (s : State) : Host.Outcome State Fault Refusal :=
  .next (writeItemPort q item s)

/-- QUEUE_OVERRUN_CLEAR (R415). -/
def execQueueOverrunClear (q : QueueId) (s : State) : Host.Outcome State Fault Refusal :=
  .next ((clearOverrun q s).reply .ctl1 0 [])

/-- QUEUE_LATCHED_ACK (R413). -/
def execQueueLatchedAck (q : QueueId) (s : State) : Host.Outcome State Fault Refusal :=
  .next ((ackQueue q s).reply .ctl1 0 [])

/-- QUEUE_DROP_PACKET (R410). -/
def execQueueDropPacket (q : QueueId) (s : State) : Host.Outcome State Fault Refusal :=
  .next ((s.dropPacket q).reply .ctl1 0 [])

/-- REGISTER_WRITE (R11). -/
def execRegisterWrite (b : Bus) (addr : Word) (data : List Byte) (s : State) : Host.Outcome State Fault Refusal :=
  .next (writeRegister b addr data s)

/-- MBOX_SUBMIT (R422, R423, R516). -/
def execMboxSubmit (p : MPort) (bits : Word) (s : State) : Host.Outcome State Fault Refusal :=
  .next ((submit p bits s).reply (portBus p) 0 [])

/-- SYNC_PORT_EVENT: stamp the event and write it to queue 2 (R402). -/
def execSyncPortEvent (e : Half) (s : State) : Host.Outcome State Fault Refusal :=
  .next (s.writeItem 2 0x0007#16 (leBytes 2 e.toNat ++ List.replicate 6 0#8 ++ leBytes 8 s.now))

end Sys2Proof.Machine
end

