-- ==== Sys2Proof/Machine/Firmware.lean ====
section
/-! DEFINITION. Boot, firmware and operator keys (R429 to R434), and the commands that set or read one register, queue or
notice (R415, R446, R506, R508, R517, R518). -/

namespace Sys2Proof.Machine

/-! ### The image buffer and the checks of FW_START (R430 to R432) -/

/-- Size of the image buffer. -/
def imageBytes : Nat := 256 + 3145728

/-- The byte last written at an offset of a buffer held as (offset, bytes) writes, newest last. -/
def writtenAt (ws : List (Nat × List Byte)) (i : Nat) : Option Byte :=
  ws.foldl (fun r w => if w.1 ≤ i ∧ i < w.1 + w.2.length then w.2[i - w.1]? else r) none

/-- The first n bytes of a buffer, when all are written. -/
def writtenBytes (ws : List (Nat × List Byte)) (n : Nat) : Option (List Byte) :=
  (List.range n).mapM (writtenAt ws)

/-- Why an FW_START fails, or none (R432). The bytes are the header and the body. -/
def fwCheck (b : Boot) (keyHash : List Byte) (minSecurity : Word) : Option Nat :=
  match writtenBytes b.image 256 with
  | none => some Status.crossref
  | some h =>
    if field h 0 4 ≠ 0x57464756 ∨ field h 4 2 ≠ 1 ∨ field h 16 4 = 0 ∨ 3145728 < field h 16 4 then some Status.crossref
    else
      match writtenBytes b.image (256 + field h 16 4) with
      | none => some Status.crossref
      | some img =>
        let key := (img.drop 64).take 96
        let sig := (img.drop 160).take 96
        if sha384 key ≠ keyHash then some Status.badSignature
        else if !ecdsaVerify key sig (sha384 (img.take 160 ++ img.drop 256)) then some Status.badSignature
        else if field img 12 4 < minSecurity.toNat then some Status.badSignature
        else if versionWord.toNat < field img 20 4 ∨ field img 24 4 < versionWord.toNat then some Status.crossref
        else none

/-- BOOT_INFO's response (R517). -/
def bootInfoBody (s : State) : List Byte :=
  leBytes 4 versionWord.toNat ++ leBytes 4 s.boot.status.toNat ++ leBytes 4 s.aon.minSecurity.toNat
    ++ leBytes 4 (if s.boot.fwRunning then s.boot.line.toNat else 0) ++ padTo 48 s.aon.keyHash

/-- FW_WRITE's effect (R430, R433). -/
def runFwWrite (c : Cmd) (s : State) : State :=
  let off := field c.body 0 4
  let len := field c.body 4 2
  if s.boot.fwRunning then s.answer c Status.alreadyDone []
  else if len = 0 ∨ 224 < len ∨ c.len < 8 + len ∨ imageBytes < off + len then s.answer c Status.crossref []
  else
    ({ s with boot := { s.boot with fwLoading := true,
                                    image := s.boot.image ++ [(off, (c.body.drop 8).take len)] } }).answer c Status.ok []

/-- FW_START's effect (R432): the first failing check erases the buffer and answers; otherwise the firmware starts. -/
def runFwStart (c : Cmd) (s : State) : State :=
  if s.boot.fwRunning then s.answer c Status.alreadyDone []
  else
    s.admitLong c (fun s =>
      match fwCheck s.boot s.aon.keyHash s.aon.minSecurity with
      | some st =>
        ({ s with boot := { s.boot with image := [], fwLoading := false, fwFailed := true,
                                        lastError := BitVec.ofNat 8 st } }).answer c st []
      | none => { s with boot := { s.boot with starting := some (c.port, c.slot) } })

/-- The started firmware answers with its line and sets `fw_running` (R432). -/
def fwStartComplete (s : State) : State :=
  match s.boot.starting with
  | none => s
  | some (p, n) =>
    let line : Word := BitVec.ofNat 32 (field ((writtenBytes s.boot.image 256).getD []) 8 4)
    ({ s with boot := { s.boot with starting := none, fwRunning := true, fwLoading := false, line := line,
                                    image := [] } }).respond p n Status.ok (leBytes 4 line.toNat)

/-! ### Keys (R434) -/

/-- KEY_LOAD's effect. -/
def runKeyLoad (c : Cmd) (s : State) : State :=
  let pos := field c.body 0 1
  if s.boot.keysLocked then s.answer c Status.notOwner []
  else if 7 < pos then s.answer c Status.crossref []
  else ({ s with boot := { s.boot with keys := aset pos ((c.body.drop 16).take 96) s.boot.keys } }).answer c Status.ok []

/-- KEY_LOCK's effect: the keys stay locked until the next cold reset. -/
def runKeyLock (c : Cmd) (s : State) : State :=
  if s.boot.keysLocked then s.answer c Status.alreadyDone []
  else ({ s with boot := { s.boot with keysLocked := true } }).answer c Status.ok []

/-! ### Commands over one queue (R415, R517, R518) -/

/-- A queue number's field: CROSSREF beyond 511. -/
def queueNumber (v : Nat) : Option QueueId := if h : v < 512 then some ⟨v, h⟩ else none

/-- QUEUE_READ's effect: one firmware read. -/
def runQueueRead (c : Cmd) (s : State) : State :=
  match queueNumber (field c.body 0 2) with
  | none => s.answer c Status.crossref []
  | some q =>
    let r := s.takeItem q
    r.2.answer c Status.ok r.1.bytes

/-- QUEUE_WRITE's effect: one firmware write to a host-written queue. -/
def runQueueWrite (c : Cmd) (s : State) : State :=
  match queueNumber (field c.body 0 2) with
  | none => s.answer c Status.crossref []
  | some q =>
    if !(s.queue q).cfg.hostWrites then s.answer c Status.crossref []
    else (s.hostOffer q ((c.body.drop 16).take 64)).answer c Status.ok []

/-- QUEUE_STATUS's effect. -/
def runQueueStatus (c : Cmd) (s : State) : State :=
  match queueNumber (field c.body 0 2) with
  | none => s.answer c Status.crossref []
  | some q =>
    let v := s.queue q
    s.answer c Status.ok (leBytes 4 v.qstatus.toNat ++ leBytes 4 v.qlevel.toNat ++ leBytes 4 v.qpeak.toNat)

/-- QUEUE_CONTROL's effect. -/
def runQueueControl (c : Cmd) (s : State) : State :=
  match queueNumber (field c.body 0 2), field c.body 2 1 with
  | some q, 1 =>
    if 2 ^ 24 ≤ field c.body 4 4 then s.answer c Status.crossref []
    else (setLevel q (field c.body 4 4) s).answer c Status.ok []
  | some q, 2 => (ackQueue q s).answer c Status.ok []
  | some q, 3 => (clearOverrun q s).answer c Status.ok []
  | some q, 4 => (s.dropPacket q).answer c Status.ok []
  | _, _ => s.answer c Status.crossref []

/-! ### Commands that set or read one thing (R517, R518) -/

/-- NOTICE_READ's response. -/
def noticeReadBody (s : State) (code : Nat) : List Byte :=
  match s.notice? code with
  | some n => leBytes 2 1 ++ leBytes 2 code ++ leBytes 4 n.count ++ leBytes 8 n.stamp ++ padTo 40 n.detail
  | none => leBytes 2 0 ++ leBytes 2 code ++ List.replicate 52 0#8

/-- NOTICE_READ's effect: codes 1 to 23 (R521). -/
def runNoticeRead (c : Cmd) (s : State) : State :=
  let code := field c.body 0 2
  if code = 0 ∨ 23 < code then s.answer c Status.crossref [] else s.answer c Status.ok (noticeReadBody s code)

/-- A page of at most 216 bytes from an offset (R518). -/
def pageOf (bytes : List Byte) (off : Nat) : List Byte := (bytes.drop off).take 216

/-- CAPABILITY_READ's effect: offset 0 to 376, a multiple of 8. -/
def runCapabilityRead (c : Cmd) (s : State) : State :=
  let off := field c.body 0 2
  if 376 < off ∨ off % 8 ≠ 0 then s.answer c Status.crossref []
  else
    let page := pageOf s.capabilityMap off
    s.answer c Status.ok (s.capabilityId ++ leBytes 2 page.length ++ List.replicate 6 0#8 ++ page)

/-- CAST_CONFIG's effect (R446). -/
def runCastConfig (c : Cmd) (s : State) : State :=
  let e := field c.body 0 1
  if 1 < e then s.answer c Status.crossref []
  else ({ s with ctl := { s.ctl with castEnable := decide (e = 1), castController := nodeField c.body 2 } }).answer c
    Status.ok []

/-- SYNC_CONFIG's effect (R402, R518). -/
def runSyncConfig (c : Cmd) (s : State) : State :=
  ({ s with ctl := { s.ctl with noticeFlag := BitVec.ofNat 16 (field c.body 0 2),
                                castBarrier := BitVec.ofNat 16 (field c.body 2 2) } }).answer c Status.ok []

/-- A link as it is now. -/
def State.link (s : State) (k : LinkId) : Link := (aget k s.plane.links).getD {}

/-- Replace a link. -/
def State.setLink (s : State) (k : LinkId) (l : Link) : State :=
  { s with plane := { s.plane with links := aset k l s.plane.links } }

/-- LINK_CONFIG's effect: the PHY's direction skew in sixteenths of a tick (R518). -/
def runLinkConfig (c : Cmd) (s : State) : State :=
  let k := field c.body 0 1
  if h : k < 64 then
    (s.setLink ⟨k, h⟩ { s.link ⟨k, h⟩ with skew16 := signedOf 16 (field c.body 2 2) }).answer c Status.ok []
  else s.answer c Status.crossref []

/-- POWER_CAP's effect: 80 W to 240 W (R505, R506). -/
def runPowerCap (c : Cmd) (s : State) : State :=
  let w := field c.body 0 2
  if w < 80 ∨ 240 < w then s.answer c Status.crossref []
  else ({ s with power := { s.power with cap := 10 * w } }).answer c Status.ok []

/-- THERMAL_CONFIG's effect: emergency 85 to 110, release at least 5 below (R508, R518). -/
def runThermalConfig (c : Cmd) (s : State) : State :=
  let e := field c.body 0 1
  let r := field c.body 1 1
  if e < 85 ∨ 110 < e ∨ e < r + 5 then s.answer c Status.crossref []
  else ({ s with power := { s.power with emergencyC := e, releaseC := r } }).answer c Status.ok []

/-! ### The commands -/

/-- BOOT_INFO (R430). -/
def execBootInfo (p : MPort) (n : Fin 32) (s : State) : Host.Outcome State Fault Refusal :=
  .next (s.startCmd p n 0x0001 0 (fun c s => s.answer c Status.ok (bootInfoBody s)))

/-- FW_WRITE (R430). -/
def execFwWrite (p : MPort) (n : Fin 32) (s : State) : Host.Outcome State Fault Refusal :=
  .next (s.startCmd p n 0x0002 8 runFwWrite)

/-- FW_START (R432). -/
def execFwStart (p : MPort) (n : Fin 32) (s : State) : Host.Outcome State Fault Refusal :=
  .next (s.startCmd p n 0x0003 0 runFwStart)

/-- FW_START_COMPLETE (R432). -/
def execFwStartComplete (s : State) : Host.Outcome State Fault Refusal := .next (fwStartComplete s)

/-- KEY_LOAD (R434). -/
def execKeyLoad (p : MPort) (n : Fin 32) (s : State) : Host.Outcome State Fault Refusal :=
  .next (s.startCmd p n 0x0101 112 runKeyLoad)

/-- KEY_LOCK (R434). -/
def execKeyLock (p : MPort) (n : Fin 32) (s : State) : Host.Outcome State Fault Refusal :=
  .next (s.startCmd p n 0x0102 0 runKeyLock)

/-- CAST_CONFIG (R446). -/
def execCastConfig (p : MPort) (n : Fin 32) (s : State) : Host.Outcome State Fault Refusal :=
  .next (s.startCmd p n 0x0122 4 runCastConfig)

/-- CAPABILITY_READ (R518). -/
def execCapabilityRead (p : MPort) (n : Fin 32) (s : State) : Host.Outcome State Fault Refusal :=
  .next (s.startCmd p n 0x0302 2 runCapabilityRead)

/-- NOTICE_READ (R517). -/
def execNoticeRead (p : MPort) (n : Fin 32) (s : State) : Host.Outcome State Fault Refusal :=
  .next (s.startCmd p n 0x0305 2 runNoticeRead)

/-- LINK_CONFIG (R518). -/
def execLinkConfig (p : MPort) (n : Fin 32) (s : State) : Host.Outcome State Fault Refusal :=
  .next (s.startCmd p n 0x0402 4 runLinkConfig)

/-- SYNC_CONFIG (R402). -/
def execSyncConfig (p : MPort) (n : Fin 32) (s : State) : Host.Outcome State Fault Refusal :=
  .next (s.startCmd p n 0x0404 4 runSyncConfig)

/-- POWER_CAP (R506). -/
def execPowerCap (p : MPort) (n : Fin 32) (s : State) : Host.Outcome State Fault Refusal :=
  .next (s.startCmd p n 0x0502 2 runPowerCap)

/-- THERMAL_CONFIG (R508). -/
def execThermalConfig (p : MPort) (n : Fin 32) (s : State) : Host.Outcome State Fault Refusal :=
  .next (s.startCmd p n 0x0503 2 runThermalConfig)

/-- QUEUE_READ (R518). -/
def execQueueRead (p : MPort) (n : Fin 32) (s : State) : Host.Outcome State Fault Refusal :=
  .next (s.startCmd p n 0x0601 2 runQueueRead)

/-- QUEUE_WRITE (R518). -/
def execQueueWrite (p : MPort) (n : Fin 32) (s : State) : Host.Outcome State Fault Refusal :=
  .next (s.startCmd p n 0x0602 80 runQueueWrite)

/-- QUEUE_STATUS (R517). -/
def execQueueStatus (p : MPort) (n : Fin 32) (s : State) : Host.Outcome State Fault Refusal :=
  .next (s.startCmd p n 0x0603 2 runQueueStatus)

/-- QUEUE_CONTROL (R517). -/
def execQueueControl (p : MPort) (n : Fin 32) (s : State) : Host.Outcome State Fault Refusal :=
  .next (s.startCmd p n 0x0604 8 runQueueControl)

end Sys2Proof.Machine
end

