-- ==== Sys2Proof/Machine/Fabric.lean ====
section
/-! DEFINITION. The link plane: headers and trailers (R352 to R354), routes (R358 to R360), outputs (R361, R372), the slot
table (R362, R363), windows (R365 to R371), multicast (R373 to R377), and how the gate's functions send. -/

namespace Sys2Proof.Machine

/-! ### Headers and trailers -/

end Sys2Proof.Machine

namespace Sys2Proof
open Machine

/-- The 128 bits of a header with `hcs` 0 (R353). -/
def Header.bits (h : Header) : Nat :=
  h.handle.toNat * 2 ^ 80 + h.seq.toNat * 2 ^ 56 + h.length.toNat * 2 ^ 48 + (if h.multicast then 2 ^ 47 else 0)
    + (if h.echo then 2 ^ 46 else 0) + (if h.mark then 2 ^ 45 else 0) + (if h.fence then 2 ^ 44 else 0)
    + h.cls.toNat * 2 ^ 41 + h.source.toNat * 2 ^ 29 + h.port.toNat * 2 ^ 21 + h.dest.toNat * 2 ^ 9
    + (if h.gap then 2 ^ 8 else 0)

/-- The 16 bytes of a header with its `hcs` (R353, R354). -/
def Header.bytes (h : Header) : List Byte :=
  let b := leBytes 16 h.bits
  headerCheck (b.drop 1) :: b.drop 1

end Sys2Proof

namespace Sys2Proof.Machine

/-- Whether 16 header bytes pass `hcs` (R354). -/
def headerPasses (hdr : BitVec 128) : Bool :=
  let b := leBytes 16 hdr.toNat
  b.head? == some (headerCheck (b.drop 1))

end Sys2Proof.Machine

namespace Sys2Proof
open Machine

/-- The trailer: CRC-32C with byte 0 and bits `mark` and `gap` taken as zero (R354). -/
def Packet.trailer (p : Packet) : Word :=
  crc32c (leBytes 16 { p.hdr with mark := false, gap := false }.bits ++ p.payload)

/-- Payload bytes of a packet. -/
def Packet.size (p : Packet) : Nat := 64 * p.hdr.length.toNat

/-- Bytes of a packet on the wire: header, payload and trailer (R352). -/
def Packet.wire (p : Packet) : Nat := 20 + p.size

/-- Beats of a packet at a bulk port (R390). -/
def Packet.beats (p : Packet) : Nat := (16 + p.size + 127) / 128

end Sys2Proof

namespace Sys2Proof.Machine

/-- A packet of the gate's own: payload padded to whole 64-byte units. -/
def mkPacket (src : NodeId) (cls : BitVec 3) (dest : NodeId) (port : Byte) (mc fence : Bool) (handle : BitVec 48)
    (payload : List Byte) : Packet :=
  let units := (payload.length + 63) / 64
  { hdr := { handle := handle, seq := 0#24, length := BitVec.ofNat 8 units, multicast := mc, echo := false, mark := false,
             fence := fence, cls := cls, source := src, port := port, dest := dest, gap := false },
    payload := padTo (64 * units) payload }

/-! ### The policy's link settings -/

/-- The active policy's role table. -/
def State.roleTable (s : State) : Option RoleTable := s.cast.active.map (fun p => p.tables.role)

/-- The weight of a class, 1 in the default state (R361). -/
def State.weight (s : State) (c : Nat) : Nat :=
  match s.roleTable with
  | some r => max 1 ((r.weights[c - 1]?).getD 1)
  | none => 1

/-- `mark_bytes` of a class, 131,072 in the default state (R372). -/
def State.markBytes (s : State) (c : Nat) : Nat :=
  match s.roleTable with
  | some r => (r.markBytes[c - 1]?).getD 131072
  | none => 131072

/-- The link event queue: the policy's, or queue 1 in the default state (R385). -/
def State.linkQueue (s : State) : QueueId :=
  match s.roleTable with
  | some r => r.linkEventQueue
  | none => 1

/-! ### Counters and records (R385 to R387) -/

/-- `packets` and `bytes` of a unit's direction and class: direction 0 is gate to peer (R519). -/
def countTraffic (group unit dir : Nat) (p : Packet) : List Effect :=
  let pos := dir * 16 + p.hdr.cls.toNat * 2
  [.count ⟨group, unit, pos⟩ 1, .count ⟨group, unit, pos + 1⟩ p.size]

/-- The detail of NTC_LINK: a counter's name or a record's kind, the link and the tick (R387, R521). -/
def linkDetail (name : List Byte) (link : Byte) (now : Nat) : List Byte := name ++ [link] ++ leBytes 8 now

/-- A link counter that also raises NTC_LINK (R387). -/
def State.countLink (s : State) (k : CtrKey) (link : Byte) : State :=
  s.effects [.count k 1, .notice 12 (linkDetail k.name link s.now)]

/-- Write a link event record and raise NTC_LINK (R385, R387). -/
def State.linkRecord (s : State) (kind : Nat) (link : Byte) (peer : NodeId) (slot : Nat) (lane : Nat) : State :=
  let body := leBytes 1 kind ++ [link] ++ leBytes 2 peer.toNat ++ leBytes 4 slot ++ leBytes 8 s.now ++ leBytes 1 lane
  s.effects [.packet s.linkQueue 0x0004#16 none [body],
             .notice 12 (linkDetail (leBytes 4 (0xFFFF0000 + kind)) link s.now)]

/-- Count a SCHEDULE_VIOLATION: for its slot entry, when the identifier names one, and in total (R363, R386). -/
def State.violation (s : State) (slot : BitVec 24) (edge : Byte) : State :=
  let per := match s.plane.slots with
    | some t => (match t.entries.findIdx? (fun e => e.slot = slot) with
      | some i => [Effect.count ⟨0x03, 0, i⟩ 1]
      | none => [])
    | none => []
  s.effects (per ++ [.count ⟨0x02, 0, 13⟩ 1, .notice 12 (linkDetail (CtrKey.name ⟨0x02, 0, 13⟩) edge s.now)])

/-! ### Routes -/

/-- A link that is UP. -/
def State.linkUp (s : State) (k : LinkId) : Bool := decide ((s.link k).state = .up)

/-- The hops of the default table: the least received value plus 1, above 31 unreachable (R360). -/
def State.learnedHops (s : State) (n : NodeId) : Nat :=
  if s.aon.nodeValid ∧ n = s.aon.node then 0
  else
    let best := s.plane.links.foldl (fun b e =>
      if e.2.state = .up then (match aget n.toNat e.2.learned with | some h => min b (h + 1) | none => b) else b) 0xFF
    if 31 < best then 0xFF else best

/-- The default table's entry of a node (R360). -/
def State.learnedRoute (s : State) (n : NodeId) : RouteEntry :=
  let h := s.learnedHops n
  if h = 0xFF ∨ h = 0 then { hops := h, cands := [] }
  else
    let ls := (List.finRange 64).filter (fun k => decide ((s.link k).state = .up) &&
      decide (aget n.toNat (s.link k).learned = some (h - 1)))
    { hops := h, cands := (ls.take 4).map (fun k => BitVec.ofNat 8 (0x80 + k.val)) }

/-- The route table entry in force (R358, R360). -/
def State.route (s : State) (n : NodeId) : RouteEntry :=
  match s.plane.policyRoutes with
  | some t => (aget n.toNat t).getD { hops := 0xFF, cands := [] }
  | none => s.learnedRoute n

/-- The gate with the routes that a packet stamped at a tick takes (R29, R444). -/
def State.routesAt (s : State) (stamp : Nat) : State :=
  match s.plane.formerRoutes with
  | some (instant, t) => if stamp < instant then { s with plane := { s.plane with policyRoutes := t } } else s
  | none => s

/-- The links of the valid candidates that are UP, in order (R358, R359). -/
def State.candidates (s : State) (n : NodeId) : List LinkId :=
  (s.route n).cands.filterMap (fun c =>
    let k : LinkId := ⟨c.toNat % 64, by omega⟩
    if c.getLsbD 7 && s.linkUp k then some k else none)

/-! ### Outputs -/

/-- Bytes queued of the classes that a test picks. -/
def Output.held (o : Output) (f : Nat → Bool) : Nat :=
  (o.queue.filter (fun q => f q.pkt.hdr.cls.toNat)).foldl (fun n q => n + q.pkt.wire) 0

/-- Whether a packet of class 1 to 7 fits: 1 MiB for classes 1 to 6, 64 KiB for class 7 (R372). -/
def Output.fits (o : Output) (p : Packet) : Bool :=
  if p.hdr.cls = 7#3 then decide (o.held (fun c => c = 7) + p.wire ≤ 65536)
  else decide (o.held (fun c => decide (1 ≤ c) && decide (c ≤ 6)) + p.wire ≤ 1048576)

/-- Queue a packet at an output: a class 1 to 6 packet is marked while its class holds more than `mark_bytes` (R372). -/
def State.pushOutput (s : State) (o : Output) (p : Packet) (start : Nat) : Output × Bool :=
  let c := p.hdr.cls.toNat
  let marks := decide (1 ≤ c) && decide (c ≤ 6) && decide (s.markBytes c < o.held (fun d => d = c)) && !p.hdr.mark
  let p' := if marks then { p with hdr := { p.hdr with mark := true } } else p
  ({ o with queue := o.queue ++ [{ pkt := p', start := start }] }, marks)

/-- Queue a packet on a link. -/
def State.enqueueLink (s : State) (k : LinkId) (p : Packet) (start : Nat) : State :=
  let l := s.link k
  let r := s.pushOutput l.out p start
  let s' := s.setLink k { l with out := r.1 }
  if r.2 then s'.count1 0x02 0 5 else s'

/-- Queue a unicast packet of class 1 to 7 on a link; one that does not fit is dropped and counted (R372). -/
def State.offerLink (s : State) (k : LinkId) (p : Packet) (start : Nat) : State :=
  if (s.link k).out.fits p then s.enqueueLink k p start else s.count1 0x01 k.val 34

/-- A host bulk port as it is now. -/
def State.bulkPort (s : State) (b : BulkId) : Bulk := (aget b s.bulk).getD {}

/-- Replace a bulk port. -/
def State.setBulk (s : State) (b : BulkId) (v : Bulk) : State := { s with bulk := aset b v s.bulk }

/-- Queue a packet of class 1 to 7 toward the host, as a link output does (R394). -/
def State.offerBulk (s : State) (b : BulkId) (p : Packet) (start : Nat) : State :=
  let v := s.bulkPort b
  if v.out.fits p then
    let r := s.pushOutput v.out p start
    let s' := s.setBulk b { v with out := r.1 }
    if r.2 then s'.count1 0x02 0 5 else s'
  else s

/-- Forward a unicast packet of class 1 to 7 by its destination, under the routes of its stamp (R359, R444). -/
def State.forward (s : State) (p : Packet) (stamp start : Nat) : State :=
  match (s.routesAt stamp).candidates p.hdr.dest with
  | [] => s.count1 0x02 0 0
  | k :: ks =>
    if p.hdr.cls = 7#3 then s.offerLink k p start
    else
      let load := fun (j : LinkId) => (s.link j).out.held (fun c => c = p.hdr.cls.toNat)
      s.offerLink (ks.foldl (fun b j => if load j < load b then j else b) k) p start

/-- The tick at which an uncontended packet of classes 1 to 7 may leave on a link: one from the host takes 120 ticks (R396). -/
def Arrival.toLink (a : Arrival) : Nat :=
  a.stamp + a.lat + (match a.edge with | .host _ => 120 | _ => 0)

/-- The tick at which an uncontended packet of classes 1 to 7 may leave on a host bulk port: one from a link takes 120 ticks
(R396). -/
def Arrival.toBulk (a : Arrival) : Nat :=
  a.stamp + a.lat + (match a.edge with | .link _ => 120 | _ => 0)

/-! ### Local delivery (R356, R395) -/

end Sys2Proof.Machine

namespace Sys2Proof
open Machine

/-- A policy that serves a port: the port's consumer needs one of these sections (R356). -/
def PolicyTables.serves (t : PolicyTables) (port : Byte) : Bool :=
  if port = 0xD0#8 then t.skiver.isSome || t.sampler.isSome
  else if port = 0xD1#8 then t.armature.isSome
  else if port = 0xD2#8 then t.bridle.isSome && t.sampler.isSome
  else if port = 0xD3#8 then t.sampler.isSome
  else if port = 0xD4#8 then t.bridle.isSome
  else false

end Sys2Proof

namespace Sys2Proof.Machine

/-- Whether the gate itself consumes packets to its own node at a port: link control, text, and the ports that a policy
in the gate gives a consumer (R27, R356). -/
def State.consumes (s : State) (port : Byte) : Bool :=
  (decide (0xC0 ≤ port.toNat) && decide (port.toNat ≤ 0xC8)) || decide (0xE0 ≤ port.toNat)
    || (s.cast.active.any (fun p => p.tables.serves port)) || (s.cast.retained.any (fun p => p.tables.serves port))

/-- The delivery table after a cold reset (R395). -/
def resetDelivery (port : Byte) : Nat := if port.toNat < 0xC0 then port.toNat % 16 else 0

/-- The bulk port that the delivery table names for a destination port. -/
def State.deliveryPort (s : State) (port : Byte) : BulkId :=
  let v := match s.plane.delivery with
    | some t => ((t[port.toNat]?).getD 0#8).toNat
    | none => resetDelivery port
  ⟨v % 16, by omega⟩

/-- Whether a packet is addressed to a text port (R27, R89). -/
def isText (p : Packet) : Bool := decide (0xE0 ≤ p.hdr.port.toNat)

/-- Put a packet before the gate function of its port. -/
def State.toFunction (s : State) (a : Arrival) : State := { s with plane := { s.plane with inbox := s.plane.inbox ++ [a] } }

/-- The link-local ports of class 7 (R378). -/
def linkLocal (port : Byte) : Bool := [0xC0#8, 0xC1#8, 0xC2#8, 0xC6#8, 0xC7#8, 0xC8#8].contains port

/-- Whether a packet at a link control port is no message of R378: of another class, or link-local and from no link. -/
def Arrival.noMessage (a : Arrival) : Bool :=
  decide (0xC0 ≤ a.pkt.hdr.port.toNat) && decide (a.pkt.hdr.port.toNat ≤ 0xC8)
    && (decide (a.pkt.hdr.cls ≠ 7#3) || linkLocal a.pkt.hdr.port)

/-- Deliver a packet of classes 1 to 7 addressed to the gate's own node (R356, R395). -/
def State.deliver (s : State) (a : Arrival) : State :=
  let s' := if a.pkt.hdr.gap then s.count1 0x02 0 11 else s
  if s'.consumes a.pkt.hdr.port && !a.noMessage then s'.toFunction a
  else s'.offerBulk (s'.deliveryPort a.pkt.hdr.port) a.pkt a.toBulk

/-- Take the oldest arrival whose packet satisfies a test. -/
def takeArrival (f : Arrival → Bool) : List Arrival → Option (Arrival × List Arrival)
  | [] => none
  | a :: as =>
    if f a then some (a, as)
    else match takeArrival f as with
      | some (b, r) => some (b, a :: r)
      | none => none

/-- Take the oldest packet that waits for the gate function of a port. -/
def State.takeInbox (s : State) (f : Arrival → Bool) : Option (Arrival × State) :=
  match takeArrival f s.plane.inbox with
  | some (a, r) => some (a, { s with plane := { s.plane with inbox := r } })
  | none => none

/-! ### Class-7 messages of the gate's own -/

/-- Send a routed class-7 packet (R359, R378); one to the own node is delivered. -/
def State.sendRouted (s : State) (dest : NodeId) (port : Byte) (handle : BitVec 48) (payload : List Byte) : State :=
  let p := mkPacket s.aon.node 7#3 dest port false false handle payload
  if dest = s.aon.node then s.deliver { pkt := p, edge := .func, stamp := s.now, at16 := 0 } else s.forward p s.now s.now

/-- Send a link-local class-7 message on one link (R378). -/
def State.sendLocal (s : State) (k : LinkId) (port : Byte) (payload : List Byte) : State :=
  s.offerLink k (mkPacket s.aon.node 7#3 (s.link k).peer port false false 0#48 payload) s.now

/-! ### Windows: the sending side (R368 to R370) -/

/-- Bytes outstanding in a window. -/
def SendWindow.bytes (w : SendWindow) : Nat := w.outstanding.foldl (fun n u => n + u.pkt.size) 0

/-- Bytes in the retransmit store (R369). -/
def State.retransmitBytes (s : State) : Nat := s.plane.windows.foldl (fun n e => n + e.2.bytes) 0

/-- The first timeout, or twice the least round trip plus 8,192 (R369). -/
def SendWindow.firstTimeout (w : SendWindow) : Nat :=
  match w.rtt with
  | none => 65536
  | some r => 2 * r + 8192

/-- Whether a packet can enter its window now: room in the window and the store, or a free window (R368, R369, R370). -/
def State.windowRoom (s : State) (p : Packet) : Bool :=
  decide (s.retransmitBytes + p.size ≤ 32 * 1048576) &&
    (match aget p.hdr.dest s.plane.windows with
     | some w => decide (w.bytes + p.size ≤ w.w)
     | none => decide (s.plane.windows.length < 8192))

/-- Send a packet in its window: `seq` and `gap` are written, it is kept for a resend and forwarded (R357, R366, R370). -/
def State.windowSend (s : State) (a : Arrival) : State :=
  let p := a.pkt
  let w := (aget p.hdr.dest s.plane.windows).getD {}
  let p' : Packet := { p with hdr := { p.hdr with seq := BitVec.ofNat 24 w.next, gap := w.gapNext } }
  let w' : SendWindow :=
    { w with next := (w.next + p.hdr.length.toNat) % 2 ^ 24, gapNext := false, lastActive := s.now,
             outstanding := w.outstanding ++ [{ pkt := p', sentAt := max s.now a.toLink, timeout := w.firstTimeout, resends := 0 }] }
  ({ s with plane := { s.plane with windows := aset p.hdr.dest w' s.plane.windows } }).forward p' a.stamp a.toLink

/-- Return the receive credits of a host packet that has left its edge (R391). -/
def State.returnCredit (s : State) (e : Edge) (p : Packet) : State :=
  match e with
  | .host b =>
    let v := s.bulkPort b
    let vc := if p.hdr.cls = 0#3 then 0 else if p.hdr.cls = 7#3 then 1 else if p.hdr.cls.toNat ≤ 3 then 2 else 3
    s.setBulk b { v with rxCredits := aset vc ((aget vc v.rxCredits).getD 0 + p.beats) v.rxCredits }
  | _ => s

/-- Packets that wait at their edge enter their windows in order; one that finds no room holds back the later ones to
its destination (R368, R369, R370). -/
def pumpEdge : List Arrival → List NodeId → State → State
  | [], _, s => s
  | a :: as, blocked, s =>
    if blocked.contains a.pkt.hdr.dest || !s.windowRoom a.pkt then
      pumpEdge as (a.pkt.hdr.dest :: blocked) { s with plane := { s.plane with edgeWait := s.plane.edgeWait ++ [a] } }
    else pumpEdge as blocked ((s.windowSend a).returnCredit a.edge a.pkt)

/-- Try every packet that waits at an edge. -/
def State.pump (s : State) : State := pumpEdge s.plane.edgeWait [] { s with plane := { s.plane with edgeWait := [] } }

/-- A class 1 to 6 unicast packet enters the fabric here: to the own node it is delivered, else it waits for its window. -/
def State.enterWindow (s : State) (a : Arrival) : State :=
  if a.pkt.hdr.dest = s.aon.node then (if isText a.pkt then s.deliver a else (s.deliver a).returnCredit a.edge a.pkt)
  else ({ s with plane := { s.plane with edgeWait := s.plane.edgeWait ++ [a] } }).pump

/-- Halve the window once in an episode (R368). -/
def SendWindow.reduce (w : SendWindow) (passed : Bool) : SendWindow :=
  if passed || !w.reduction then
    { w with w := max 8192 (w.w / 128 * 64), recover := w.next, credit := 0, reduction := true }
  else w

/-- One acknowledgement entry (R368). -/
def SendWindow.entry (w : SendWindow) (now : Nat) (seq len : Nat) (echo passed : Bool) : SendWindow :=
  match w.outstanding.find? (fun u => u.pkt.hdr.seq.toNat = seq && u.pkt.hdr.length.toNat = len) with
  | none => w
  | some u =>
    let rtt := if u.resends = 0 then some (match w.rtt with | some r => min r (now - u.sentAt) | none => now - u.sentAt)
               else w.rtt
    let w1 := { w with outstanding := w.outstanding.filter (fun x => x.pkt.hdr.seq ≠ u.pkt.hdr.seq), rtt := rtt,
                       lastActive := now }
    if echo then w1.reduce passed
    else
      let credit := w1.credit + u.pkt.size
      if w1.w ≤ credit then { w1 with credit := credit - w1.w, w := min 262144 (w1.w + 4096) }
      else { w1 with credit := credit }

/-- Whether unit a is before unit b in the window's order (R494). -/
def unitBefore (a b : Nat) : Bool := laterSeq 24 b a

/-- A received ACK (R367, R368). -/
def receiveAck (a : Arrival) (s : State) : State :=
  match aget a.pkt.hdr.source s.plane.windows with
  | none => s
  | some w =>
    let cum := field a.pkt.payload 0 4
    let expected := cum % 2 ^ 24
    let n := min 15 (cum / 2 ^ 28)
    let passed := !unitBefore expected w.recover
    let w1 := if passed then { w with reduction := false } else w
    let w2 := (List.range n).foldl (fun x e =>
      let v := field a.pkt.payload (4 + 4 * e) 4
      x.entry s.now (v % 2 ^ 24) (v / 2 ^ 24 % 128 + 1) (v.testBit 31) passed) w1
    let w3 := { w2 with outstanding := w2.outstanding.filter (fun u =>
      !(unitBefore u.pkt.hdr.seq.toNat expected &&
        !unitBefore expected ((u.pkt.hdr.seq.toNat + u.pkt.hdr.length.toNat) % 2 ^ 24))), lastActive := s.now }
    ({ s with plane := { s.plane with windows := aset a.pkt.hdr.source w3 s.plane.windows } }).pump

/-- The oldest outstanding packet whose timeout has run out. -/
def SendWindow.overdue (w : SendWindow) (now : Nat) : Option Unacked :=
  w.outstanding.find? (fun u => decide (u.sentAt + u.timeout ≤ now))

/-- A resend, or the window's failure after 8 resends (R369). -/
def retransmit (peer : NodeId) (s : State) : State :=
  match aget peer s.plane.windows with
  | none => s
  | some w =>
    match w.overdue s.now with
    | none => s
    | some u =>
      if 8 ≤ u.resends then
        let w' := { w with outstanding := [], gapNext := true, lastActive := s.now }
        let s1 := { s with plane := { s.plane with windows := aset peer w' s.plane.windows } }
        let s2 := s1.countLink ⟨0x02, 0, 4⟩ 0xFF#8
        (s2.linkRecord 5 0xFF#8 peer 0 0).pump
      else
        let u' := { u with sentAt := s.now, timeout := min 1048576 (2 * u.timeout), resends := u.resends + 1 }
        let oldest := (w.outstanding.head?.map (fun x => x.pkt.hdr.seq.toNat)).getD w.next
        let w1 := { w with outstanding := w.outstanding.map (fun (x : Unacked) => if x.pkt.hdr.seq = u.pkt.hdr.seq then u' else x),
                           lastActive := s.now }
        let w2 := w1.reduce (!unitBefore oldest w.recover)
        let s1 := { s with plane := { s.plane with windows := aset peer w2 s.plane.windows } }
        (s1.count1 0x02 0 3).forward u.pkt s.now s.now

/-! ### Windows: the receiving side (R365 to R367, R370, R371) -/

/-- Deliver arrivals in order. -/
def deliverAll (as : List Arrival) (s : State) : State := as.foldl (fun t a => t.deliver a) s

/-- Insert an arrival by its `seq` counted from `base`. -/
def insertBySeq (base : Nat) (a : Arrival) : List Arrival → List Arrival
  | [] => [a]
  | b :: bs =>
    if (a.pkt.hdr.seq.toNat + 2 ^ 24 - base) % 2 ^ 24 < (b.pkt.hdr.seq.toNat + 2 ^ 24 - base) % 2 ^ 24 then a :: b :: bs
    else b :: insertBySeq base a bs

/-- Advance `expected` over the units received beyond it; fuel is the bitmap's 4,096 units. -/
def RecvRecord.advance : Nat → RecvRecord → RecvRecord
  | 0, r => r
  | f + 1, r =>
    if r.got.contains r.expected then
      RecvRecord.advance f { r with got := r.got.filter (fun u => u ≠ r.expected), expected := (r.expected + 1) % 2 ^ 24 }
    else r

/-- Bytes in the hold store (R366). -/
def State.holdBytes (s : State) : Nat :=
  s.plane.records.foldl (fun n e => n + e.2.held.foldl (fun m a => m + a.pkt.size) 0) 0

/-- Replace a receive record. -/
def State.setRecord (s : State) (n : NodeId) (r : RecvRecord) : State :=
  { s with plane := { s.plane with records := aset n r s.plane.records } }

/-- Owe an acknowledgement for a packet (R367). -/
def State.oweAck (s : State) (p : Packet) : State :=
  let e : AckEntry := { seq := p.hdr.seq.toNat, length := p.hdr.length.toNat, echo := p.hdr.mark, received := s.now }
  let old := (aget p.hdr.source s.plane.acks).getD []
  { s with plane := { s.plane with acks := aset p.hdr.source (old ++ [e]) s.plane.acks } }

/-- A windowed packet at its destination, handled under R366. -/
def receiveInRange (a : Arrival) (r : RecvRecord) (s : State) : State :=
  let n := a.pkt.hdr.source
  let seq := a.pkt.hdr.seq.toNat
  let len := a.pkt.hdr.length.toNat
  let off := (seq + 2 ^ 24 - r.expected) % 2 ^ 24
  let units := (List.range len).map (fun i => (seq + i) % 2 ^ 24)
  if 2 ^ 23 ≤ off ∨ units.all (fun u => r.got.contains u) then (s.setRecord n { r with lastActive := s.now }).oweAck a.pkt
  else if 4096 < off + len then ((s.setRecord n { r with lastActive := s.now }).count1 0x02 0 1).oweAck a.pkt
  else if a.pkt.hdr.fence ∧ off ≠ 0 then
    if 4 * 1048576 < s.holdBytes + a.pkt.size then s.setRecord n { r with lastActive := s.now }
    else
      (s.setRecord n { r with got := r.got ++ units.filter (fun u => !r.got.contains u), lastActive := s.now,
                              held := insertBySeq r.expected a r.held }).oweAck a.pkt
  else
    let r1 := RecvRecord.advance 4096
      { r with got := r.got ++ units.filter (fun u => !r.got.contains u), lastActive := s.now }
    let free := fun (h : Arrival) => unitBefore h.pkt.hdr.seq.toNat r1.expected
    let s1 := ((s.setRecord n { r1 with held := r1.held.filter (fun h => !free h) }).oweAck a.pkt).deliver a
    deliverAll (r1.held.filter free) s1

/-- A class 1 to 6 unicast packet reaches its destination gate (R366, R370, R371). -/
def receiveWindowed (a : Arrival) (s : State) : State :=
  let n := a.pkt.hdr.source
  match aget n s.plane.records with
  | none =>
    if 8192 ≤ s.plane.records.length then s.count1 0x02 0 2
    else
      let r : RecvRecord := { expected := if a.pkt.hdr.gap then a.pkt.hdr.seq.toNat else 0, lastActive := s.now }
      receiveInRange a r s
  | some r =>
    if a.pkt.hdr.gap then
      let held := r.held.map (fun h => { h with pkt := { h.pkt with hdr := { h.pkt.hdr with gap := true } } })
      let r' : RecvRecord := { expected := a.pkt.hdr.seq.toNat, lastActive := s.now }
      receiveInRange a r' (deliverAll held (s.setRecord n r'))
    else receiveInRange a r s

/-- Send one ACK of up to 15 entries to a peer (R367). -/
def sendAck (peer : NodeId) (s : State) : State :=
  match aget peer s.plane.acks with
  | none => s
  | some [] => s
  | some es =>
    let now := es.take 15
    let rest := es.drop 15
    let expected := ((aget peer s.plane.records).getD {}).expected
    let echo := now.any (fun e => e.echo)
    let payload := leBytes 4 (expected + now.length * 2 ^ 28) ++
      (now.map (fun e => leBytes 4 (e.seq + (e.length - 1) * 2 ^ 24 + (if e.echo then 2 ^ 31 else 0)))).flatten
    let p := mkPacket s.aon.node 7#3 peer 0xC3#8 false false 0#48 (padTo 64 payload)
    let p' : Packet := { p with hdr := { p.hdr with echo := echo } }
    let acks := if rest.isEmpty then aerase peer s.plane.acks else aset peer rest s.plane.acks
    let s1 := ({ s with plane := { s.plane with acks := acks } }).forward p' s.now s.now
    let k := (now.filter (fun e => e.echo)).length
    if k = 0 then s1 else s1.countN 0x02 0 6 k

/-! ### Multicast (R373 to R377) -/

/-- A group's entry, when it is `defined`. -/
def State.group? (s : State) (g : Nat) : Option GroupEntry := aget g s.plane.groups

/-- Note members missed (reason 0) or fenced (reason 1): in this gate's own completion record when the packet entered
here, or counted when that is written already, or else in a MISS message to its source (R375, R376, R377). -/
def State.reportMiss (s : State) (g : Nat) (p : Packet) (reason : Nat) (members : BitVec 256) : State :=
  if p.hdr.source = s.aon.node then
    if (s.group? g).any (fun e => e.report) && !s.plane.completions.any (fun c => decide (c.group = g) && decide (c.seq = p.hdr.seq.toNat)) then
      s.count1 0x02 0 9
    else { s with plane := { s.plane with completions := s.plane.completions.map (fun c =>
      if c.group = g ∧ c.seq = p.hdr.seq.toNat then
        (if reason = 0 then { c with missed := c.missed ||| members } else { c with fenced := c.fenced ||| members })
      else c) } }
  else
    s.sendRouted p.hdr.source 0xC4#8 0#48
      (leBytes 2 g ++ leBytes 1 reason ++ [0#8] ++ leBytes 4 p.hdr.seq.toNat ++ leBytes 2 s.aon.node.toNat
        ++ List.replicate 6 0#8 ++ leBytes 32 members.toNat ++ List.replicate 16 0#8)

/-- Remember that a branch's next delivered copy carries `gap` (R375, R376). -/
def State.branchGap (s : State) (g : Nat) (k : LinkId) : State :=
  if s.plane.gapBranch.contains (g, k) then s
  else { s with plane := { s.plane with gapBranch := s.plane.gapBranch ++ [(g, k)] } }

/-- A branch misses a copy (R375). -/
def State.branchMiss (s : State) (g : Nat) (k : LinkId) (p : Packet) (members : BitVec 256) : State :=
  (((s.count1 0x02 0 7).branchGap g k).reportMiss g p 0 members)

/-- Whether a link leads to a node, as the node's HELLO names it: the link is UP, or its lane is being spared (R376, R381). -/
def State.leadsTo (s : State) (k : LinkId) (n : NodeId) : Bool :=
  (s.linkUp k || decide ((s.link k).state = .sparing)) && decide ((s.link k).peer = n)

/-- Whether a branch is fenced: its link leads to a fenced node (R376). -/
def State.fencedLink (s : State) (k : LinkId) : Bool := s.plane.fences.any (s.leadsTo k)

/-- Make one branch's copy (R374 to R376); a class-0 one is dropped while the link's lane is being spared (R382). -/
def State.copyTo (s : State) (g : Nat) (p : Packet) (b : GroupBranch) (start : Nat) : State :=
  let l := s.link b.out
  if s.fencedLink b.out then
    ((s.count1 0x02 0 8).branchGap g b.out).reportMiss g p 1 b.members
  else if p.hdr.cls = 0#3 then
    if l.state = .up then s.enqueueLink b.out p start
    else if l.state = .sparing then s.count1 0x01 b.out.val 36
    else s.violation p.hdr.seq (BitVec.ofNat 8 b.out.val)
  else
    let gap := p.hdr.gap || s.plane.gapBranch.contains (g, b.out)
    let p' : Packet := { p with hdr := { p.hdr with gap := gap } }
    let cleared := { s with plane := { s.plane with gapBranch := s.plane.gapBranch.filter (fun x => x ≠ (g, b.out)) } }
    if l.state ≠ .up ∧ l.state ≠ .sparing then s.branchMiss g b.out p b.members
    else if l.out.fits p' then cleared.enqueueLink b.out p' start
    else if l.retention.length < 64 then
      s.setLink b.out { l with retention := l.retention ++ [{ pkt := p, entered := s.now, group := g, members := b.members }] }
    else s.branchMiss g b.out p b.members

/-- Deliver the own node's copy, with `gap` after a lost one (R374). -/
def State.localCopy (s : State) (g : Nat) (a : Arrival) : State :=
  let lost := match aget g s.plane.groupLast with
    | some (src, seq) => decide (src = a.pkt.hdr.source ∧ a.pkt.hdr.seq.toNat ≠ (seq + 1) % 2 ^ 24)
    | none => false
  let p : Packet := { a.pkt with hdr := { a.pkt.hdr with gap := a.pkt.hdr.gap || lost } }
  ({ s with plane := { s.plane with groupLast := aset g (p.hdr.source, p.hdr.seq.toNat) s.plane.groupLast } }).deliver
    { a with pkt := p }

/-- Replicate a multicast packet to every branch of its group and to the own node (R374). -/
def State.replicate (s : State) (a : Arrival) (start : Nat) : State :=
  let g := a.pkt.hdr.dest.toNat
  match s.group? g with
  | none => s.count1 0x02 0 10
  | some e =>
    let s1 := e.branches.foldl (fun t b => t.copyTo g a.pkt b start) s
    if e.atNode then (if a.pkt.hdr.cls = 0#3 then s1.toFunction a else s1.localCopy g a) else s1

end Sys2Proof.Machine

namespace Sys2Proof
open Machine

/-- The members that a group's entry reaches (R377). -/
def GroupEntry.all (e : GroupEntry) : BitVec 256 :=
  e.branches.foldl (fun m b => m ||| b.members) (if e.atNode then BitVec.ofNat 256 (2 ^ (e.member % 256)) else 0#256)

end Sys2Proof

namespace Sys2Proof.Machine

/-- Owe a completion record for a multicast packet that enters the fabric here, when its group's entry has `report` (R377). -/
def State.oweCompletion (s : State) (a : Arrival) : State :=
  let g := a.pkt.hdr.dest.toNat
  match s.group? g with
  | some e =>
    let c : Completion :=
      { group := g, seq := a.pkt.hdr.seq.toNat, stamp := a.stamp, due := a.stamp + e.completionDelay, queue := e.completionQueue,
        all := e.all, missed := 0#256, fenced := 0#256 }
    if e.report then { s with plane := { s.plane with completions := s.plane.completions ++ [c] } } else s
  | none => s

/-- A multicast packet of class 1 to 7 enters the fabric here: it takes the group's packet count as `seq` (R374, R377). -/
def State.enterGroup (s : State) (a : Arrival) : State :=
  let g := a.pkt.hdr.dest.toNat
  match s.group? g with
  | none => s.count1 0x02 0 10
  | some _ =>
    let n := (aget g s.plane.groupSeq).getD 0
    let a' : Arrival := { a with pkt := { a.pkt with hdr := { a.pkt.hdr with seq := BitVec.ofNat 24 n } } }
    let s1 := { s with plane := { s.plane with groupSeq := aset g ((n + 1) % 2 ^ 24) s.plane.groupSeq } }
    (s1.oweCompletion a').replicate a' a.toLink

/-- Send a multicast packet of the gate's own. -/
def State.sendGroup (s : State) (g : Nat) (cls : BitVec 3) (port : Byte) (handle : BitVec 48) (payload : List Byte) :
    State :=
  s.enterGroup { pkt := mkPacket s.aon.node cls (BitVec.ofNat 12 g) port true false handle payload, edge := .func,
                 stamp := s.now, at16 := 0 }

/-- Send a best-effort unicast packet of the gate's own through its window (R365, R368). -/
def State.sendBest (s : State) (cls : Nat) (dest : NodeId) (port : Byte) (fence : Bool) (handle : BitVec 48)
    (payload : List Byte) (lat : Nat) : State :=
  s.enterWindow { pkt := mkPacket s.aon.node (BitVec.ofNat 3 cls) dest port false fence handle payload, edge := .func,
                  stamp := s.now, at16 := 0, lat := lat }

/-! ### Class 0 (R362, R363, R383, R394) -/

/-- The edge byte of a slot entry (R362). -/
def edgeByte : Edge → Byte
  | .link k => BitVec.ofNat 8 k.val
  | .host b => BitVec.ofNat 8 (0x40 + b.val)
  | .func => 0x80#8

end Sys2Proof.Machine

namespace Sys2Proof
open Machine

/-- The offset of a tick from the start of its frame (R363). -/
def SlotTable.frameOffset (t : SlotTable) (stamp : Nat) : Int :=
  let d : Int := (stamp : Int) - t.frameBase
  if t.frameTicks = 0 then d else d % t.frameTicks

/-- Whether a packet stamped s at an edge matches an entry (R363), its identifier aside. -/
def SlotTable.admits (t : SlotTable) (e : SlotEntry) (edge : Edge) (p : Packet) (stamp : Nat) : Bool :=
  let o := t.frameOffset stamp
  (decide (e.inEdge = 0xFF#8) || decide (e.inEdge = edgeByte edge)) &&
    (!e.checkSource || decide (e.source = p.hdr.source)) && decide (p.hdr.length.toNat ≤ e.units) &&
    decide ((e.opens : Int) ≤ o) && decide (o ≤ e.closes)

end Sys2Proof

namespace Sys2Proof.Machine

/-- The transit latency of a class-0 packet from an edge to an output (R363). -/
def transit (edge : Edge) (outEdge : Byte) : Nat :=
  match edge with
  | .func => 0
  | .host _ => if outEdge.toNat < 64 then 96 else if outEdge.toNat < 0x50 then 96 else 32
  | .link _ => if outEdge.toNat < 64 then 80 else if outEdge.toNat < 0x50 then 96 else if outEdge = 0xC0#8 then 80 else 32

/-- A class-0 packet leaves by its entry's output; one that enters the fabric here may owe a completion record (R363, R374, R377,
R382, R383). -/
def State.class0Out (s : State) (e : SlotEntry) (a : Arrival) : State :=
  let start := a.stamp + a.lat + transit a.edge e.outEdge
  let o := e.outEdge.toNat
  if h : o < 64 then
    let k : LinkId := ⟨o, h⟩
    let l := s.link k
    match l.state with
    | .up => s.enqueueLink k a.pkt start
    | .sparing => s.count1 0x01 o 36
    | _ =>
      let s1 := s.count1 0x01 o 37
      if (s1.link k).faulted.contains e.slot then s1
      else
        let l1 := s1.link k
        (s1.setLink k { l1 with faulted := l1.faulted ++ [e.slot] }).linkRecord 3 (BitVec.ofNat 8 o) l1.peer
          e.slot.toNat 0
  else if 0x40 ≤ o ∧ o < 0x50 then
    let b : BulkId := ⟨(o - 0x40) % 16, by omega⟩
    let v := s.bulkPort b
    s.setBulk b { v with out := { v.out with queue := v.out.queue ++ [{ pkt := a.pkt, start := start }] } }
  else if o = 0x80 then s.toFunction a
  else if o = 0xC0 then (match a.edge with
    | .link _ => s.replicate a start
    | _ => (s.oweCompletion a).replicate a start)
  else s

/-- The entry that a class-0 packet a link or the host brings matches (R25, R363). -/
def State.class0Entry (s : State) (a : Arrival) : Option SlotEntry :=
  s.plane.slots.bind (fun (t : SlotTable) => (t.entries.find? (fun e => e.slot = a.pkt.hdr.seq)).filter (fun e => t.admits e a.edge a.pkt a.stamp))

end Sys2Proof.Machine

namespace Sys2Proof
open Machine

/-- Whether an entry's output leads toward the destination of the gate's own packet: a unicast packet to its own node goes
to a gate function when `func` says that one consumes its port and to the host otherwise, one to another node to a link, and
a multicast anywhere but to a gate function (log 14). -/
def SlotEntry.leads (e : SlotEntry) (func : Bool) (p : Packet) : Bool :=
  let o := e.outEdge.toNat
  if p.hdr.multicast then decide (o ≠ 0x80)
  else if p.hdr.dest = p.hdr.source then (if func then decide (o = 0x80) else decide (0x40 ≤ o) && decide (o < 0x50))
  else decide (o < 64)

/-- The entry of the lowest slot identifier that leads to the destination of a release of a gate function and admits it at a
tick (R363; log 14). -/
def SlotTable.forRelease (t : SlotTable) (func : Bool) (p : Packet) (stamp : Nat) : Option SlotEntry :=
  (t.entries.filter (fun e => t.admits e .func p stamp && e.leads func p)).foldl (fun b e =>
    match b with
    | none => some e
    | some x => if e.slot.toNat < x.slot.toNat then some e else some x) none

end Sys2Proof

namespace Sys2Proof.Machine

/-- Release a class-0 packet of a gate function, whose output edge adds a latency (R42, R50, R363): with no entry that admits it, it is dropped and counted. -/
def State.sendClass0 (s : State) (dest : NodeId) (port : Byte) (mc : Bool) (handle : BitVec 48) (payload : List Byte)
    (lat : Nat) : State :=
  let p := mkPacket s.aon.node 0#3 dest port mc false handle payload
  match s.plane.slots with
  | none => s.violation 0#24 0x80#8
  | some t =>
    match t.forRelease (s.consumes port) p s.now with
    | none => s.violation 0#24 0x80#8
    | some e =>
      s.class0Out e { pkt := { p with hdr := { p.hdr with seq := e.slot } }, edge := .func, stamp := s.now, at16 := 0, lat := lat }

end Sys2Proof.Machine
end

