-- ==== Sys2Proof/Machine/Text.lean ====
section
/-! DEFINITION. Text and automata: UTF-8 validation and repair (R96, R97, R129, R130), automaton steps and scans (R161 to
R163, R174, R175) and stop strings (R149 to R151). -/

namespace Sys2Proof.Machine

/-! ### UTF-8 -/

/-- The bytes of U+FFFD. -/
def fffd : List Byte := [0xEF#8, 0xBF#8, 0xBD#8]

/-- U+FFFD standing for received position p (R170). -/
def fffdAt (p : Nat) : List PosByte := fffd.map (fun b => (b, p))

/-- The bytes of a character from its lead byte; 0 for a byte that begins none. -/
def utf8Len (b : Byte) : Nat :=
  let v := b.toNat
  if v < 0x80 then 1 else if v < 0xC2 then 0 else if v < 0xE0 then 2 else if v < 0xF0 then 3 else if v < 0xF5 then 4 else 0

/-- The values that the second byte of a character may take after its lead byte. -/
def utf8Second (b : Byte) : Nat × Nat :=
  if b = 0xE0#8 then (0xA0, 0xBF) else if b = 0xED#8 then (0x80, 0x9F) else if b = 0xF0#8 then (0x90, 0xBF)
  else if b = 0xF4#8 then (0x80, 0x8F) else (0x80, 0xBF)

/-- Whether a byte continues a proper prefix of a well-formed character. -/
def utf8Continues (held : List PosByte) (b : Byte) : Bool :=
  match held with
  | [] => false
  | [lead] => decide ((utf8Second lead.1).1 ≤ b.toNat) && decide (b.toNat ≤ (utf8Second lead.1).2)
  | _ => decide (0x80 ≤ b.toNat) && decide (b.toNat ≤ 0xBF)

/-- A validation under way: the characters written (each with its bytes), the replacements, and the proper prefix held. -/
structure Repair where
  chars : List (List PosByte) := []
  replaced : Nat := 0
  carry : List PosByte := []
deriving DecidableEq, Repr

/-- A byte that begins a character, or is ill-formed on its own. -/
def Repair.begin (r : Repair) (b : PosByte) : Repair :=
  match utf8Len b.1 with
  | 0 => { r with chars := r.chars ++ [fffdAt b.2], replaced := r.replaced + 1 }
  | 1 => { r with chars := r.chars ++ [[b]] }
  | _ => { r with carry := [b] }

/-- One byte: it completes or extends the held prefix, or proves it invalid and is examined afresh (R129, R130). -/
def Repair.byte (r : Repair) (b : PosByte) : Repair :=
  match r.carry with
  | [] => r.begin b
  | lead :: _ =>
    if utf8Continues r.carry b.1 then
      let c := r.carry ++ [b]
      if c.length = utf8Len lead.1 then { r with chars := r.chars ++ [c], carry := [] } else { r with carry := c }
    else
      Repair.begin { r with chars := r.chars ++ [fffdAt lead.2], replaced := r.replaced + 1, carry := [] } b

/-- Validate bytes after a carry. -/
def repairBytes (carry : List PosByte) (bs : List PosByte) : Repair := bs.foldl Repair.byte { carry := carry }

/-- End of text: a carry left becomes one U+FFFD (R97, R132). -/
def Repair.finish (r : Repair) : Repair :=
  match r.carry with
  | [] => r
  | lead :: _ => { chars := r.chars ++ [fffdAt lead.2], replaced := r.replaced + 1, carry := [] }

/-- The code point of a complete character. -/
def codePoint (c : List PosByte) : Nat :=
  match c with
  | [] => 0
  | [a] => a.1.toNat
  | a :: rest =>
    let lead := a.1.toNat % (if rest.length = 1 then 32 else if rest.length = 2 then 16 else 8)
    rest.foldl (fun v b => v * 64 + b.1.toNat % 64) lead

/-- Whether a byte continues a character. -/
def isContinuation (b : Byte) : Bool := decide (0x80 ≤ b.toNat) && decide (b.toNat ≤ 0xBF)

/-! ### Automata (R159 to R163) -/

/-- The entry at an offset of a lane's slice. -/
def awlEntry (t : AwlTables) (lane off : Nat) : Word := (aget (lane, off) t.words).getD 0#32

/-- A state value: lane and row offset (R161). -/
def stateValue (lane off : Nat) : BitVec 24 := BitVec.ofNat 24 (lane % 256 * 65536 + off % 65536)

/-- The lane of a state value. -/
def stateLane (v : BitVec 24) : Nat := v.toNat / 65536
/-- The row offset of a state value. -/
def stateOffset (v : BitVec 24) : Nat := v.toNat % 65536

/-- Fields of a table entry (R162). -/
def entryPending (e : Word) : Bool := e.getLsbD 30
/-- `report`. -/
def entryReport (e : Word) : Nat := e.toNat / 2 ^ 18 % 4096
/-- `boundary`. -/
def entryBoundary (e : Word) : Bool := e.getLsbD 17
/-- `accept`. -/
def entryAccept (e : Word) : Bool := e.getLsbD 16
/-- `target`. -/
def entryTarget (e : Word) : Nat := e.toNat % 65536

end Sys2Proof.Machine

namespace Sys2Proof
open Machine

/-- The class of a byte. -/
def Automaton.classOf (a : Automaton) (b : Byte) : Nat := (a.classMap[b.toNat]?).getD 0

/-- One step: the next state value and the entry read (R163). -/
def Automaton.step (a : Automaton) (t : AwlTables) (v : BitVec 24) (b : Byte) : BitVec 24 × Word :=
  let e := awlEntry t (stateLane v) (stateOffset v + a.classOf b)
  (stateValue (stateLane v) (entryTarget e), e)

/-- The lane that an instance of a stream in slot `s` is bound to (R169). -/
def Automaton.lane (a : Automaton) (both : Bool) (s : Nat) : Nat :=
  a.firstLane + (if both then s / 2 else s) % max 1 a.replicas

/-- The start state value of an instance. -/
def Automaton.startValue (a : Automaton) (both : Bool) (s : Nat) : BitVec 24 := stateValue (a.lane both s) a.start

/-- Both halves serve streams. -/
def AwlTables.both (t : AwlTables) : Bool := t.northServes && t.southServes

/-- The half an instance of a stream in slot `s` runs on (R169). -/
def AwlTables.half (t : AwlTables) (s : Nat) : HalfId :=
  if t.both then (if s % 2 = 0 then .north else .south) else if t.southServes then .south else .north

/-- The tenant map's entry: ingress set, egress set (R168). -/
def AwlTables.setOf (t : AwlTables) (tenant : Nat) (egress : Bool) : Nat :=
  match aget tenant t.tenantMap with
  | some (i, e) => if egress then e else i
  | none => 0

/-- The automaton at a position of a set for a direction: none when unused or of the other direction (R168, R170). -/
def AwlTables.automatonAt (t : AwlTables) (set pos : Nat) (egress : Bool) : Option Automaton :=
  match t.sets[set]? with
  | none => none
  | some l =>
    match l[pos]? with
    | none => none
    | some n =>
      if n = 0xFFFF then none
      else match t.automata[n]? with
        | some a => if (if egress then a.egress else a.ingress) then some a else none
        | none => none

/-- The stop automaton of a stop set: the directory's entries of kind 1 in order (R149; log 18). -/
def AwlTables.stopAutomaton (t : AwlTables) (set : Nat) : Option Automaton :=
  (t.automata.filter (fun a => a.kind = 1))[set]?

end Sys2Proof

namespace Sys2Proof.Machine

/-- A scan under way (R163, R174, R175). -/
structure Scan where
  value : BitVec 24
  lastEnd : Nat
  pending : Bool
  hits : Nat := 0
  groups : Word := 0#32
  first : Option (Nat × Nat × Nat) := none
  steps : Nat := 0
deriving DecidableEq, Repr

/-- Scan one byte of an item. -/
def Scan.byte (a : Automaton) (t : AwlTables) (c : Scan) (b : PosByte) : Scan :=
  let r := a.step t c.value b.1
  let c1 := { c with value := r.1, pending := entryPending r.2, steps := c.steps + 1 }
  if entryAccept r.2 then
    let n := entryReport r.2
    let rep := (a.reports[n]?).getD ⟨0#32, 0, 0⟩
    let e := b.2 + 1
    { c1 with hits := c.hits + 1, groups := c.groups ||| rep.groups, lastEnd := e,
              first := some (c.first.getD (n, e % 2 ^ 32, rep.length)) }
  else c1

/-- Scan an item's bytes from an instance's state. -/
def scanBytes (a : Automaton) (t : AwlTables) (i : AwlInst) (bs : List PosByte) : Scan :=
  bs.foldl (Scan.byte a t) { value := i.state, lastEnd := i.lastEnd, pending := i.pending }

/-- The result entry of a scan. -/
def Scan.result (c : Scan) (restarted : Bool) : AwlResult :=
  let f := c.first.getD (0xFFFF, 0, 0)
  { hits := min c.hits 0xFFFF, firstReport := f.1, groups := c.groups, firstEnd := f.2.1, firstLen := f.2.2,
    pending := c.pending, restarted := restarted, late := false }

/-! ### Stop strings (R149 to R151) -/

/-- Whether `p` is a suffix of `l`. -/
def isSuffix (p l : List Byte) : Bool := decide (p.length ≤ l.length) && decide (l.drop (l.length - p.length) = p)

/-- The held stop prefix: the longest suffix of the bytes that is a proper prefix of an entry (R150). -/
def stopPrefix (set : List StopString) (tail : List Byte) : Nat :=
  set.foldl (fun best e =>
    (List.range e.text.length).foldl (fun b n => if b < n ∧ isSuffix (e.text.take n) tail then n else b) best) 0

/-- The newest n elements of a list. -/
def newest {α : Type} (n : Nat) (l : List α) : List α := l.drop (l.length - n)

/-- What the stop automaton reads for a stream: its automaton, its tables and its set's strings. -/
structure StopCtx where
  set : List StopString
  aut : Option Automaton
  tables : Option AwlTables
deriving DecidableEq, Repr

/-- The start state of the stop automaton of a stream in slot s. -/
def StopCtx.start (c : StopCtx) (s : Nat) : BitVec 24 :=
  match c.aut, c.tables with
  | some a, some t => a.startValue t.both s
  | _, _ => 0#24

/-- One step of the stop automaton: next state, and the entry that completes with its report's pattern (R151, R166). -/
def StopCtx.step (c : StopCtx) (v : BitVec 24) (b : Byte) : BitVec 24 × Option Nat :=
  match c.aut, c.tables with
  | some a, some t =>
    let r := a.step t v b
    (r.1, if entryAccept r.2 then some (((a.reports[entryReport r.2]?).map (fun x => x.pattern)).getD 0) else none)
  | _, _ => (v, none)

/-! ### The text state of an egress stream (R128 to R136) -/

/-- The bytes of the text ring from position lo up to hi. -/
def TextState.bytes (t : TextState) (lo hi : Nat) : List Byte :=
  (t.ring.drop (t.ring.length - (t.write - lo))).take (hi - lo)

/-- Write one repaired byte of token n (offset k within it): text ring, stop automaton, held prefix and, when it is the first, the
match. The newest 4,608 bytes are kept: a whole text ring, and beyond it the bytes of the one token whose overflow a disposition
clears (R141). -/
def TextState.putByte (c : StopCtx) (n : Nat) (r : TextState × Nat) (b : Byte) : TextState × Nat :=
  let t := r.1
  let ring := newest 4608 (t.ring ++ [b])
  let w := t.write + 1
  let st := c.step t.stopState b
  let hit := st.2.map (fun e =>
    let s := (c.set[e]?).getD ⟨false, []⟩
    ({ index := n, offset := r.2 + 1, entry := e, inclusive := s.inclusive, beginPos := w - s.text.length, endPos := w } : StopFound))
  ({ t with ring := ring, write := w, stopState := st.1, stopLen := stopPrefix c.set (newest 255 ring), found := t.found.or hit },
    r.2 + 1)

/-- The text state after token n's raw bytes, with the bytes attributed to it and the repairs made (R129 to R131, R150,
R151). -/
def TextState.append (c : StopCtx) (n : Nat) (t : TextState) (raw : List Byte) : TextState × List Byte × Nat :=
  let r := repairBytes (t.carry.map (fun b => (b, 0))) (raw.map (fun b => (b, 0)))
  let out := (r.chars.flatten).map (fun p => p.1)
  let carry := r.carry.map (fun p => p.1)
  let hold := if carry.isEmpty then 0 else if out.isEmpty && !t.carry.isEmpty then min 3 (t.carryHold + 1) else 1
  let t1 := (out.foldl (TextState.putByte c n) (t, 0)).1
  ({ t1 with carry := carry, carryHold := hold }, out, r.replaced)

/-- The text state before position `pos`: carry, stop state and held prefix rebuilt from the ring, matches suppressed
(R146). -/
def TextState.rebuild (c : StopCtx) (slot : Nat) (t : TextState) (pos : Nat) : TextState :=
  let ring := t.ring.take (t.ring.length - (t.write - pos))
  let cut := (repairBytes [] ((newest 3 ring).map (fun b => (b, 0)))).carry.length
  let ring' := ring.take (ring.length - cut)
  let tail := newest 255 ring'
  { carry := newest cut ring, carryHold := if cut = 0 then 0 else 1, write := pos - cut, ring := ring',
    stopLen := stopPrefix c.set tail, stopState := tail.foldl (fun v b => (c.step v b).1) (c.start slot), found := none }

end Sys2Proof.Machine
end

