-- ==== Sys2Proof/Machine/Context.lean ====
section
/-! DEFINITION. What every operation on a stream shares: handles (R58 to R61), the policy a stream runs under (R45, R81,
R447), the work on one stream with what it sends out, counter words (R71), audit records (R342 to R345), stream events
(R69), release records (R155), the halt of a stream (R337) and its close (R73). -/

namespace Sys2Proof.Machine

/-! ### Policies -/

/-- The stage entry of a policy's latency manifest (R48). -/
def Policy.entry (p : Policy) (stage : Nat) : Option ManifestEntry := p.tables.latency.entries.find? (fun e => e.stage = stage)

/-- The 0x14 entry of a contribution identifier (R285, R332). -/
def Policy.probeEntry (p : Policy) (cid : Nat) : Option ManifestEntry :=
  p.tables.latency.entries.find? (fun e => decide (e.stage = 0x14) && decide (e.contributionId = cid))

/-- A stage's delay (R43). -/
def Policy.delay (p : Policy) (stage : Nat) : Nat := ((p.entry stage).map (fun e => e.delay)).getD 0

/-- The serialization latency of the output edge of a stage's results (R42, R48). -/
def Policy.edgeLatency (p : Policy) (stage : Nat) : Nat := ((p.entry stage).map (fun e => e.edgeLatency)).getD 0

/-- A stage's `fail_open` bit (R55). -/
def Policy.failOpen (p : Policy) (stage : Nat) : Bool := ((p.entry stage).map (fun e => e.failOpen)).getD false

/-- A contribution's manifest entry for streams of a direction: the first that names the direction's role, or else the first of all
(R48, R55). -/
def Policy.entryFor (p : Policy) (stage : Nat) (egress : Bool) : Option ManifestEntry :=
  (p.tables.latency.entries.find? (fun e => decide (e.stage = stage) && e.roles.getLsbD (if egress then 1 else 0))).or (p.entry stage)

/-- The `fail_open` bit of a contribution for streams of a direction (R55). -/
def Policy.failOpenFor (p : Policy) (stage : Nat) (egress : Bool) : Bool := ((p.entryFor stage egress).map (fun e => e.failOpen)).getD false

/-- Cb (R46). -/
def Policy.cb (p : Policy) : Nat := p.tables.latency.bridleRun

/-- A role bit of a policy: 0 FRONT, 1 TAIL, 2 TAP, 3 RELAY (R437). -/
def Policy.role (p : Policy) (bit : Nat) : Bool := p.tables.resources.roles.getLsbD bit

/-- The role bit of a direction (R66). -/
def roleOf (egress : Bool) : Nat := if egress then 1 else 0

/-- The policies in the gate. -/
def State.policies (s : State) : List Policy := s.cast.active.toList ++ s.cast.retained.toList

/-- The policy of a cast epoch. -/
def State.policyByEpoch (s : State) (e : Nat) : Option Policy := s.policies.find? (fun p => p.epoch = e)

/-- The stamp an input counts from: the window's end for an input stamped inside the cast window (R449). -/
def State.effStamp (s : State) (t : Nat) : Nat :=
  match s.cast.active with
  | some a => if a.windowed && decide (a.instant ≤ t) && decide (t < a.effective) then a.effective else t
  | none => t

/-- The policy under which an input of a stream, stamped t, runs (R45, R81, R447): a pinned stream's own; that of the cast before
for a stream whose role the active one lacks, since it ran under that one at the instant (a cast finds no older policy, R438);
else the active one from its instant on, and the one before it for earlier stamps. -/
def State.policyFor (s : State) (st : Stream) (t : Nat) : Option Policy :=
  match s.cast.active with
  | none => none
  | some a =>
    if st.pinned then s.policyByEpoch st.epoch
    else if !a.role (roleOf st.req.egress) then s.cast.retained
    else if t < a.instant then some (s.cast.retained.getD a)
    else some a

/-- The policy a stream is under now: that of its epoch, or the one its next input would take. -/
def State.policyOf (s : State) (st : Stream) : Option Policy := (s.policyByEpoch st.epoch).or (s.policyFor st s.now)

/-- The class of the gate's best-effort packets: the policy's (assumption log 5), 1 without one. -/
def State.bestClass (s : State) : Nat :=
  match s.roleTable with
  | some r => r.bestEffortClass
  | none => 1

/-! ### Handles -/

/-- A slot's generation (R59). -/
def State.generation (s : State) (k : SlotId) : Nat := (s.streams.genBase + (aget k s.streams.gens).getD 0) % 2 ^ 21

/-- The handle that names slot k now (R58). -/
def State.handleOf (s : State) (k : SlotId) : BitVec 48 :=
  BitVec.ofNat 48 (s.aon.node.toNat * 2 ^ 36 + k.val * 2 ^ 21 + s.generation k)

/-- A handle's 8 bytes. -/
def handleBytes (h : BitVec 48) : List Byte := leBytes 8 h.toNat

/-- A handle's slot. -/
def handleSlot (h : Nat) : SlotId := ⟨h / 2 ^ 21 % 32768, by omega⟩

/-- What a handle names at this gate (R58 to R60). -/
inductive Named where
  | otherNode
  | stale
  | freeSlot
  | stream (k : SlotId) (st : Stream)
deriving DecidableEq, Repr

/-- Look a handle up. -/
def State.named (s : State) (h : Nat) : Named :=
  let k := handleSlot h
  if h / 2 ^ 36 ≠ s.aon.node.toNat then .otherNode
  else if h % 2 ^ 21 ≠ s.generation k then .stale
  else match aget k s.streams.table with
    | none => .freeSlot
    | some st => .stream k st

/-- The stream a command's handle names; none when it is stale, which answers ALREADY_DONE (R60; log 19 for a handle of
another node or a FREE slot). -/
def State.streamOf (s : State) (h : Nat) : Option (SlotId × Stream) :=
  match s.named h with
  | .stream k st => some (k, st)
  | _ => none

/-- Replace a stream. -/
def State.setStream (s : State) (k : SlotId) (st : Stream) : State :=
  { s with streams := { s.streams with table := aset k st s.streams.table } }

/-- Slots that are not FREE (R69). -/
def State.liveCount (s : State) : Nat := s.streams.table.length

/-! ### Work on one stream -/

/-- What leaves a boundary. -/
inductive Out where
  /-- Counters, notices and queue items. -/
  | effects (es : List Effect)
  /-- A release record to the stream's reply node and port (R155). -/
  | record (payload : List Byte)
  /-- A stream event's 56 body bytes, sent and queued (R69). -/
  | event (body : List Byte)
  /-- A halt message (R337). -/
  | halt (group : Option Nat) (queue : Option QueueId) (payload : List Byte)
  /-- A rewind notice (R336). -/
  | notice (group : Nat) (port : Byte) (payload : List Byte)
  /-- An audit record for export, with its record's index for a lost one (R345). -/
  | audit (queue : QueueId) (bodies : List (List Byte)) (index : Nat)
  /-- A committed token and its attributed bytes, for the tenant's counters and budget (R62, R495). -/
  | commit (bytes : Nat)
  /-- Contributions kept for the stream are discarded (R83). -/
  | purge
  /-- A halted stream's awl items are discarded (R177). -/
  | dropItems
deriving DecidableEq, Repr

/-- What the work on a stream reads besides the stream. -/
structure Env where
  now : Nat
  slot : SlotId
  node : NodeId
  policy : Option Policy
  stop : StopCtx
  degraded : Bool
  buffered : Nat
deriving DecidableEq, Repr

/-- The work on one stream: what leaves is kept in order and sent at the end. -/
structure Work where
  env : Env
  st : Stream
  outs : List Out := []
deriving DecidableEq, Repr

/-- The stop context of a policy's stop set. -/
def stopCtx (p : Option Policy) (set : Nat) : StopCtx :=
  { set := ((p.bind (fun q => q.tables.egress)).bind (fun e => e.stopSets[set]?)).getD []
    aut := (p.bind (fun q => q.tables.awl)).bind (fun t => t.stopAutomaton set)
    tables := p.bind (fun q => q.tables.awl) }

/-- The environment of a stream's work under a policy. -/
def State.env (s : State) (k : SlotId) (st : Stream) (p : Option Policy) : Env :=
  { now := s.now, slot := k, node := s.aon.node, policy := p, stop := stopCtx p st.req.stopSet,
    degraded := s.rel.degraded,
    buffered := (s.streams.buffer.filter (fun c => c.handle = st.handle)).length }

/-- Add something that leaves. -/
def Work.put (w : Work) (o : Out) : Work := { w with outs := w.outs ++ [o] }

/-- Add effects. -/
def Work.effect (w : Work) (es : List Effect) : Work := w.put (.effects es)

/-- Add an amount to a gate-wide counter. -/
def Work.glob (w : Work) (group index pos n : Nat) : Work := if n = 0 then w else w.effect [.count ⟨group, index, pos⟩ n]

/-- Add to a counter word of the stream, which saturates as R493 says (R71). -/
def Work.word (w : Work) (i n : Nat) : Work :=
  if n = 0 then w
  else
    let c := (aget i w.st.counters).getD ⟨0, false⟩
    let c' := c.add n
    let w' := { w with st := { w.st with counters := aset i c' w.st.counters } }
    if c'.sat && !c.sat then
      w'.effect [.notice 22 (CtrKey.name ⟨0x15, 0, i⟩ ++ handleBytes w.st.handle ++ leBytes 8 w.env.now)]
    else w'

/-- What was counted for the stream since its last boundary is counted at the next (R78, R86). -/
def Stream.owe (st : Stream) (i n : Nat) : Stream := if n = 0 then st else { st with owed := st.owed ++ [(i, n)] }

/-- `rng_counter` at a boundary now: the positions of the steps released at or before it, those of its own tick included (R300). -/
def Stream.rngAt (st : Stream) (now : Nat) : Nat :=
  (st.steps.filter (fun x => !x.released && decide (x.release ≤ now))).foldl (fun n x => n + x.result.positions) st.rngReleased

/-- What every boundary commits besides its own effect: its tick, the sampling block with `rng_counter`, the counts since the
boundary before, and what an ingress stream has received (R78, R86, R300). -/
def Work.atBoundary (w : Work) : Work :=
  let st := w.st
  let inp := st.inp
  let seen : IngressSeen :=
    { segment := inp.segment, segmentOpen := inp.segmentOpen, channel := inp.channel, segmentBytes := inp.segmentBytes,
      truncated := inp.segTruncated, textWrite := inp.textWrite, ring := inp.ring, freeFrom := inp.freeFrom,
      nextIndex := inp.nextIndex, carry := inp.committedCarry }
  let st1 : Stream := { st with
    boundary := w.env.now, owed := [], seen := { st.sampling with rng := st.rngAt w.env.now }, inp := { inp with seen := seen },
    grammar := if st.sampling.grammarId = 0xFFFF then {} else st.grammar }
  st.owed.foldl (fun v e => v.word e.1 e.2) { w with st := st1 }

/-- A counter word's value. -/
def Stream.word (st : Stream) (i : Nat) : Nat := ((aget i st.counters).getD ⟨0, false⟩).count

/-- An egress counter that raises NTC_EGRESS (R142, R158). -/
def Work.egressNote (w : Work) (pos index : Nat) : Work :=
  let k : CtrKey := ⟨0x07, 0, pos⟩
  w.effect [.count k 1, .notice 5 (k.name ++ handleBytes w.st.handle ++ leBytes 4 index)]

/-- A bridle counter that raises NTC_BRIDLE (R347). -/
def bridleEvent (pos : Nat) (h : BitVec 48) (index now : Nat) : List Effect :=
  let k : CtrKey := ⟨0x0F, 0, pos⟩
  [.count k 1, .notice 11 (k.name ++ handleBytes h ++ leBytes 4 index ++ leBytes 8 now)]

/-- A late default: the stage's late counter and NTC_LATE (R57). -/
def lateEvent (stage : Nat) (h : BitVec 48) (index : Nat) : List Effect :=
  [.count ⟨0x10, stage, 0⟩ 1, .notice 2 (leBytes 1 stage ++ handleBytes h ++ leBytes 4 index)]

/-- A late result discarded (R41, R57). -/
def lateDiscard (stage : Nat) : List Effect := [.count ⟨0x10, stage, 1⟩ 1]

/-! ### Audit records (R342 to R345) -/

/-- The combined HOLD of a verdict (R334): the largest span and the strictest disposition among the holds of span 1 or more;
those of span 0 count only when there is no other. -/
def Actions.hold (a : Actions) : Option (Nat × Nat) :=
  let long := a.holds.filter (fun h => 1 ≤ h.1)
  let l := if long.isEmpty then a.holds else long
  match l with
  | [] => none
  | h :: t => some (maxOf (l.map (fun x => x.1)), t.foldl (fun m x => min m x.2) h.2)

/-- The `actions` bits of a record. -/
def Actions.bits (a : Actions) : Nat :=
  (if a.holds.isEmpty then 0 else 1) + (if a.redacts.isEmpty then 0 else 2) + (if a.rewind.isNone then 0 else 4)
    + (if a.halt then 8 else 0) + (if a.bias.isNone then 0 else 16) + (if a.tags.isEmpty then 0 else 32)

/-- The fields of an audit record that its kind gives. -/
structure AuditRec where
  kind : Nat
  index : Nat := 0
  outcome : Nat := 0
  lateMask : Nat := 0
  subject : Nat := 0
  epoch : Nat
  acts : Actions := {}
deriving DecidableEq, Repr

/-- The 80 bytes of a record. -/
def AuditRec.bytes (r : AuditRec) (h : BitVec 48) (now : Nat) : List Byte :=
  let hold := r.acts.hold.getD (0, 0)
  let bias := r.acts.bias.getD (0xFFFF#16, 0#32)
  let redacts := (r.acts.redacts.take 2).flatMap (fun (x : Nat × Nat) => leBytes 4 x.1 ++ leBytes 2 x.2 ++ leBytes 2 0)
  handleBytes h ++ leBytes 4 r.index ++ leBytes 1 r.kind ++ leBytes 1 r.outcome ++ leBytes 2 r.lateMask ++ leBytes 8 now
    ++ leBytes 4 r.epoch ++ leBytes 4 r.subject ++ leBytes 2 r.acts.bits ++ leBytes 2 (hold.1 + hold.2 * 1024)
    ++ leBytes 2 (r.acts.rewind.getD 0) ++ leBytes 2 bias.1.toNat ++ leBytes 4 bias.2.toNat
    ++ leBytes 1 (min 2 r.acts.redacts.length) ++ leBytes 1 (min 8 r.acts.tags.length) ++ leBytes 2 0
    ++ padTo 16 redacts ++ padTo 16 ((r.acts.tags.take 8).flatMap (fun t => leBytes 2 t.toNat))

/-- Whether `audit_mode` 1 exports a record (R345). -/
def AuditRec.notable (r : AuditRec) : Bool :=
  decide (r.kind = 0) || decide (r.kind = 5) ||
    ((decide (r.kind = 1) || decide (r.kind = 3)) &&
      (decide (r.acts.bits ≠ 0) || decide (r.outcome ≠ 0) || decide (r.lateMask ≠ 0)
        || (decide (r.kind = 3) && decide (r.subject = 1))))

/-- Chain a record, and export it when the mode says so (R344, R345). Verdict records show DEGRADED in bit 7 (R340). -/
def Work.audit (w : Work) (r : AuditRec) : Work :=
  let deg := if w.env.degraded && (decide (r.kind = 1) || decide (r.kind = 3)) then 0x80 else 0
  let r := { r with lateMask := r.lateMask + deg }
  let bytes := r.bytes w.st.handle w.env.now
  let prev := if w.st.audit.isEmpty then List.replicate 32 0#8 else w.st.audit
  let digest := sha256 (prev ++ bytes)
  let w1 := ({ w with st := { w.st with audit := digest } }).glob 0x0F 0 12 1
  match w.env.policy.bind (fun p => p.tables.bridle) with
  | none => w1
  | some b =>
    if b.auditMode = 2 ∨ (b.auditMode = 1 ∧ r.notable) then
      w1.put (.audit b.auditQueue [bytes.take 56, bytes.drop 56 ++ digest] r.index)
    else w1

/-! ### Stream events (R69) -/

/-- The fields of a stream event. -/
structure Event where
  kind : Nat
  status : Nat := 0
  tenant : Nat
  node : NodeId
  stopReason : Nat := 0
  tag : DWord
  handle : Nat := 0
  stamp : Nat
  live : Nat := 0
  retry : Nat := 0
  lastIndex : Nat := 0
  released : Nat := 0
  tail : List Byte := []
deriving DecidableEq, Repr

/-- Event bytes 8 to 63. -/
def Event.body (e : Event) : List Byte :=
  leBytes 1 e.kind ++ leBytes 1 e.status ++ leBytes 2 e.tenant ++ leBytes 2 e.node.toNat ++ leBytes 1 e.stopReason
    ++ leBytes 1 0 ++ leBytes 8 e.tag.toNat ++ leBytes 8 e.handle ++ leBytes 8 e.stamp ++ leBytes 4 e.live
    ++ leBytes 4 e.retry ++ leBytes 4 e.lastIndex ++ leBytes 4 e.released ++ padTo 8 e.tail

/-- Send a stream event: the best-effort packet, and the stream event queue that the active policy names (R69). -/
def State.sendEvent (s : State) (node : NodeId) (port : Byte) (h : BitVec 48) (body : List Byte) : State :=
  let s1 := s.sendBest s.bestClass node port false h (List.replicate 8 0#8 ++ body) 0
  match s1.roleTable with
  | some r => s1.writeItem r.streamEventQueue 0x0001#16 body
  | none => s1

/-- The index that names the last committed token; 0xFFFF_FFFF when none has committed (R337). -/
def Stream.lastIndex (st : Stream) : Nat := if st.empty then 0xFFFFFFFF else st.committed

/-- The CLOSE event's body (R69); `last_index` of a stream without a committed token is 0xFFFF_FFFF, the value that R337 gives the
halt message, which R69 does not state (log 4). It can be formed again while the stream is CLOSED (R466). -/
def Stream.closeBody (st : Stream) (node : NodeId) : List Byte :=
  Event.body { kind := 3, tenant := st.req.tenant, node := node, stopReason := st.stopReason, tag := st.req.tag,
               handle := st.handle.toNat, stamp := st.closedAt, lastIndex := st.lastIndex,
               released := st.word 1, tail := st.audit.take 8 }

/-! ### Release records (R155) -/

/-- A release record: bytes 20 to 23 are given by their kind. -/
def Work.record (w : Work) (kind position reason first : Nat) (b20 : List Byte) (text : List Byte) : Work :=
  w.put (.record (handleBytes w.st.handle ++ leBytes 4 position ++ leBytes 2 text.length ++ leBytes 1 kind
    ++ leBytes 1 reason ++ leBytes 4 first ++ padTo 4 b20 ++ leBytes 8 w.env.now ++ text))

/-- The END record, sent once (R156). -/
def Work.sendEnd (w : Work) (first : Nat) : Work :=
  if w.st.endSent || !w.st.req.egress then w
  else
    let off := match w.st.text.found with
      | some f => if w.st.stopReason = 2 then f.offset else 0
      | none => 0
    let w1 := w.record 2 w.st.textRelease w.st.stopReason first (leBytes 2 off) []
    { w1 with st := { w1.st with endSent := true } }

/-- `first_index` of the END record: `stop_index`, or the last committed index. -/
def Stream.endIndex (st : Stream) : Nat :=
  match st.text.found with
  | some f => if st.stopReason = 2 then f.index else st.lastIndex
  | none => st.lastIndex

/-! ### Halt and close (R73, R337) -/

/-- Whether a hold-back ring entry still has unreleased bytes, before the stop position e if there is one, or lies at or above
`release_index` (R134). -/
def Stream.entryLive (st : Stream) (limit : Nat) (e : HoldEntry) : Bool :=
  decide (max st.textRelease e.start < min limit (e.start + e.bytes)) || decide (st.releaseIndex ≤ e.index)

/-- The ring without the entries in the slots of discarded tokens (R134, R146). An older token's entry that is still live there
stays: the discarded token never wrote one, and the manual gives no slot to both (log 58). -/
def Stream.clearSlots (st : Stream) (gone : List Nat) : Stream :=
  { st with ring := st.ring.filter (fun e => st.entryLive st.text.write e || !gone.any (fun i => decide (i % 512 = e.index % 512))) }

/-- Whether nothing of the stream is in flight. -/
def Stream.idle (st : Stream) : Bool := st.tokens.isEmpty && st.inp.chunks.all (fun c => c.released) && st.inp.verdicts.isEmpty

/-- A stream past LIVE and HOLDING that is halted or closed. -/
def Stream.ended (st : Stream) : Bool :=
  match st.state with
  | .halted => true
  | .closed => true
  | .free => true
  | _ => false

/-- A stream that still appends. -/
def Stream.running (st : Stream) : Bool :=
  match st.state with
  | .live => true
  | .holding => true
  | _ => false

/-- One past the highest token index appended or committed. -/
def Stream.pastHighest (st : Stream) : Nat :=
  max st.writeIndex (match st.appended with | some n => n + 1 | none => 0)

/-- A stream enters HALTED: what is in flight is discarded, the working grammar is the committed one (R79), the halt message goes
out and the END record (R72, R73, R156, R337). The stop reason is set once (R75); `write_index` stays 0 while no token has
committed (R133). -/
def Work.halt (w0 : Work) (reason : Nat) : Work :=
  if w0.st.ended then w0
  else
    let w := w0.atBoundary
    let st := w.st.clearSlots (w.st.tokens.map (fun t => t.index))
    let st' : Stream := { st with
      state := .halted, stopReason := if st.stopReason = 0 then reason else st.stopReason,
      workGrammar := st.grammar,
      writeIndex := if st.req.egress && !st.empty then st.pastHighest else st.writeIndex,
      tokens := st.tokens.map (fun t => { t with discarded := true }),
      inp := { st.inp with verdicts := [],
                           chunks := st.inp.chunks.map (fun c => if c.released then c else { c with void := true }) } }
    let payload := handleBytes st.handle ++ leBytes 4 st'.lastIndex ++ leBytes 1 st'.stopReason ++ List.replicate 3 0#8
      ++ leBytes 8 w.env.now ++ leBytes 2 w.env.node.toNat ++ List.replicate 38 0#8
    let b : Option BridleTables := w.env.policy.bind (fun p => p.tables.bridle)
    let w1 := ({ w with st := st' }).put (.halt (b.map (fun (x : BridleTables) => x.haltGroup)) (b.bind (fun (x : BridleTables) => x.haltQueue)) payload)
    (w1.put .dropItems).sendEnd w1.st.endIndex

/-- A stream enters CLOSED: the CLOSE record, the CLOSE event, and contributions still kept for it discarded (R69, R73,
R83, R343). -/
def Work.close (w : Work) : Work :=
  let v := w.atBoundary
  let w0 := { v with st := { v.st with state := .closed, closedAt := v.env.now, workGrammar := v.st.grammar } }
  let w1 := (w0.word 8 w.env.buffered).put .purge
  let w2 := w1.audit { kind := 5, subject := w1.st.stopReason, epoch := w1.st.epoch }
  w2.put (.event (w2.st.closeBody w2.env.node))

/-- A HALTED stream closes when nothing is in flight (R73). -/
def Work.closeHalted (w : Work) : Work :=
  match w.st.state with
  | .halted => if w.st.idle then w.close else w
  | _ => w

/-! ### Sending what leaves -/

/-- A committed token's tenant counters and budget (R62, R495). -/
def State.commitToken (s : State) (tenant bytes : Nat) : State :=
  let s1 := s.effects ([.count ⟨0x16, tenant, 0⟩ 1] ++ (if bytes = 0 then [] else [.count ⟨0x16, tenant, 1⟩ bytes]))
  match aget tenant s1.ctl.budgets with
  | none => s1
  | some 0 => s1.count1 0x14 0 2
  | some (n + 1) => { s1 with ctl := { s1.ctl with budgets := aset tenant n s1.ctl.budgets } }

/-- An awl lane without a slot's items (R177). -/
def AwlLane.without (v : AwlLane) (k : SlotId) : AwlLane :=
  { queue := v.queue.filter (fun i => decide (i.slot ≠ k)), inPlace := v.inPlace.filter (fun i => decide (i.slot ≠ k)) }

/-- Discard every awl item of a slot (R177). -/
def State.dropItems (s : State) (k : SlotId) : State :=
  { s with eng := { s.eng with awl := s.eng.awl.map (fun e => (e.1, e.2.without k)) } }

/-- One thing that leaves a boundary of stream st in slot k; released text and a notice are results of the verdict stage, whose edge adds
its latency (R42). -/
def State.sendOut (s : State) (k : SlotId) (p : Option Policy) (st : Stream) (o : Out) : State :=
  let lat := (p.map (fun q => q.edgeLatency 4)).getD 0
  match o with
  | .effects es => s.effects es
  | .record b => s.sendBest s.bestClass st.replyNode st.replyPort true st.handle b lat
  | .event b => s.sendEvent st.replyNode st.replyPort st.handle b
  | .halt g q b =>
    let s1 := match g with
      | some n => (s.sendGroup n 7#3 0xD4#8 st.handle b).count1 0x0F 0 10
      | none => s
    (match q with
    | some n => s1.writeItem n 0x0005#16 (b.take 56)
    | none => s1)
  | .notice g port b => (s.sendClass0 (BitVec.ofNat 12 g) port true st.handle b lat).count1 0x0F 0 11
  | .audit q bodies index =>
    if s.packetFits q bodies.length then s.effects [.packet q 0x0002#16 none bodies, .count ⟨0x0F, 0, 13⟩ 1]
    else s.effects (.packet q 0x0002#16 none bodies :: bridleEvent 14 st.handle index s.now)
  | .commit n => s.commitToken st.req.tenant n
  | .purge => { s with streams := { s.streams with buffer := s.streams.buffer.filter (fun c => c.handle ≠ st.handle) } }
  | .dropItems => s.dropItems k

/-- The stream after its work, and everything it sends, in order. -/
def Work.run (w : Work) (s : State) : State :=
  w.outs.foldl (fun t o => t.sendOut w.env.slot w.env.policy w.st o) (s.setStream w.env.slot w.st)

end Sys2Proof.Machine
end

