-- ==== Sys2Proof/Machine/Boundary.lean ====
section
/-! DEFINITION. What an egress stream's boundary does to its text: release and its limits (R133 to R138), HOLD spans
(R139 to R142), REDACT (R143, R144), REWIND (R145 to R148, R312), stop strings (R149 to R154), and the order of the steps at
a token's boundary (R137). -/

namespace Sys2Proof.Machine

/-! ### Where the text stands -/

/-- An ingress verdict is still awaited (R85). -/
def Stream.awaiting (st : Stream) : Bool := st.req.egress && st.req.awaitIngress && !st.ingressApplied

/-- The stream is DRAINING. -/
def Stream.draining (st : Stream) : Bool := decide (st.state = .draining)

/-- Whether index n is at or past a `hold_end`, compared modulo 2²⁴ (R140). -/
def atOrPast (n e : Nat) : Bool := decide ((n % 2 ^ 24 + 2 ^ 24 - e % 2 ^ 24) % 2 ^ 24 < 2 ^ 23)

/-- Where the text that may ever be released ends: the stop position once a match has taken effect (R152). -/
def Stream.endPos (st : Stream) : Nat :=
  match st.text.found with
  | some f => if st.stopReason = 2 then min st.text.write (if f.inclusive then f.endPos else f.beginPos) else st.text.write
  | none => st.text.write

/-- Where a match ends the text that a REDACT can cover, the match of this boundary's token included (R152). -/
def Stream.redactEnd (st : Stream) : Nat :=
  match st.text.found with
  | some f => if st.stopReason = 2 || st.running then min st.text.write (if f.inclusive then f.endPos else f.beginPos) else st.text.write
  | none => st.text.write

/-- The first byte still kept back (R138). A DRAINING stream keeps no stop prefix back: it can no longer complete (R153), or the
match has set where the text ends (R152). -/
def Stream.releaseLimit (st : Stream) : Nat :=
  let byToken := match st.ring.find? (fun e => decide (st.releaseIndex ≤ e.index) && decide (0 < e.bytes)) with
    | some e => e.start
    | none => st.text.write
  let byStop := if st.draining then st.text.write else st.text.write - st.text.stopLen
  min (min byToken byStop) st.endPos

/-- Whether a stream byte position is redacted. -/
def Stream.isRedacted (st : Stream) (p : Nat) : Bool := st.redacted.any (fun r => decide (r.1 ≤ p) && decide (p < r.2))

/-- The token that holds a stream byte position. -/
def Stream.tokenAt (st : Stream) (p : Nat) : Nat :=
  match st.ring.find? (fun e => decide (e.start ≤ p) && decide (p < e.start + e.bytes)) with
  | some e => e.index
  | none => st.lastIndex

/-! ### Release (R144, R155) -/

/-- Maximal runs of positions from lo on with equal flags: (flag, start, length), oldest first. -/
def runsOf (f : Nat → Bool) (lo n : Nat) : List (Bool × Nat × Nat) :=
  ((List.range n).foldl (fun (l : List (Bool × Nat × Nat)) i =>
    let p := lo + i
    match l with
    | (b, a, k) :: r => if b = f p then (b, a, k + 1) :: r else (f p, p, 1) :: l
    | [] => [(f p, p, 1)]) []).reverse

/-- TEXT records of at most 224 bytes over [lo, lo + n), and their counts (R155, R156). -/
def Work.sendText (w : Work) (lo n : Nat) : Work :=
  let w1 := (List.range ((n + 223) / 224)).foldl (fun (v : Work) i =>
    let a := lo + 224 * i
    v.record 0 a 0 (v.st.tokenAt a) [] (v.st.text.bytes a (min (lo + n) (a + 224)))) w
  (w1.word 1 n).glob 0x07 0 0 n

/-- One REDACTED record (R144). -/
def Work.sendRedacted (w : Work) (lo n : Nat) : Work :=
  let hide := ((w.env.policy.bind (fun p => p.tables.egress)).map (fun e => e.hideRedactLength)).getD false
  w.record 1 lo 0 (w.st.tokenAt lo) (leBytes 4 (if hide then 0 else n)) []

/-- Release the bytes before hi (R138, R144): text, and one REDACTED record for each run of redacted bytes. -/
def Work.releaseTo (w : Work) (hi : Nat) : Work :=
  let lo := w.st.textRelease
  if hi ≤ lo then w
  else
    let w1 := (runsOf w.st.isRedacted lo (hi - lo)).foldl (fun (v : Work) r =>
      if r.1 then v.sendRedacted r.2.1 r.2.2 else v.sendText r.2.1 r.2.2) w
    let st := w1.st
    { w1 with st := { st with textRelease := hi, rewindMark := max st.rewindMark (st.tokenAt (hi - 1) + 1),
                              redacted := st.redacted.filter (fun r => hi < r.2) } }

/-- Step 9 of R137: `release_index` advances over every cleared token, and what is no longer kept back is released. -/
def Work.release (w : Work) : Work :=
  let st := w.st
  let ri := if st.holdActive || st.awaiting then st.releaseIndex else max st.releaseIndex st.writeIndex
  let w1 := { w with st := { st with releaseIndex := ri } }
  w1.releaseTo w1.st.releaseLimit

/-! ### REDACT (R143, R144) -/

/-- Mark [lo, hi) redacted and count the bytes newly redacted. -/
def Work.redactRange (w : Work) (lo hi : Nat) : Work :=
  let fresh := ((List.range (hi - lo)).filter (fun i => !w.st.isRedacted (lo + i))).length
  if fresh = 0 then w
  else
    let ring := w.st.ring.map (fun e =>
      if e.start < hi ∧ lo < e.start + e.bytes then { e with redacted := true } else e)
    let w1 := { w with st := { w.st with redacted := w.st.redacted ++ [(lo, hi)], ring := ring } }
    (w1.word 2 fresh).glob 0x07 0 1 fresh

/-- The byte at a position of the text ring. -/
def TextState.byteAt (t : TextState) (p : Nat) : Byte := ((t.bytes p (p + 1)).head?).getD 0#8

/-- The start of a span moved back to its character's first byte, never before text_release. -/
def Stream.widenStart (st : Stream) : Nat → Nat → Nat
  | 0, p => p
  | f + 1, p => if st.textRelease < p && isContinuation (st.text.byteAt p) then st.widenStart f (p - 1) else p

/-- The end of a span moved forward past its character's last byte. -/
def Stream.widenEnd (st : Stream) : Nat → Nat → Nat
  | 0, p => p
  | f + 1, p => if p < st.text.write && isContinuation (st.text.byteAt p) then st.widenEnd f (p + 1) else p

/-- A 32-bit stream position in the unbounded numbering, nearest to text_release. -/
def Stream.absPos (st : Stream) (a : Nat) : Int := (st.textRelease : Int) + signedOf 32 (a + 2 ^ 32 - st.textRelease % 2 ^ 32)

/-- One REDACT span: clipped to the unreleased text, widened to whole characters, redacted (R143); bytes past a stop position are
discarded and not counted (R152). -/
def Work.redactSpan (w : Work) (span : Nat × Nat) : Work :=
  let st := w.st
  let len := min 4096 span.2
  let a := st.absPos span.1
  let lo := (max a st.textRelease).toNat
  let hi := min (a + len) st.text.write |>.toNat
  let w1 := w.glob 0x07 0 9 (len - (hi - lo))
  let hi := min hi st.redactEnd
  if hi ≤ lo then w1 else w1.redactRange (st.widenStart 4 lo) (min (st.widenEnd 4 hi) st.redactEnd)

/-! ### HOLD and overflow (R139 to R142) -/

/-- A token's HOLD (R139): opens a span, extends it, or with span 0 resolves it. -/
def Work.hold (w : Work) (n : Nat) (h : Option (Nat × Nat)) : Work :=
  match h with
  | none => w
  | some (span, disp) =>
    let w1 := w.word 4 1
    let st := w1.st
    if span = 0 then { w1 with st := { st with holdActive := false } }
    else
      let e := (n + span) % 2 ^ 24
      if st.holdActive then
        { w1 with st := { st with holdEnd := if laterSeq 24 e st.holdEnd then e else st.holdEnd,
                                  holdDisp := min st.holdDisp disp } }
      else { w1 with st := { st with holdActive := true, holdEnd := e, holdDisp := disp, holdFirst := st.releaseIndex } }

/-- An open span resolves at the boundary of a token at or past its end (R140). -/
def Work.resolve (w : Work) (n : Nat) : Work :=
  if w.st.holdActive && atOrPast n w.st.holdEnd then { w with st := { w.st with holdActive := false } } else w

/-- Whether writing a token's entry and text would overflow (R141). -/
def Stream.overflows (st : Stream) (n : Nat) (after : TextState) : Bool :=
  decide (st.rewindMark + 511 ≤ n) || decide (st.textRelease + 4096 < after.write)

/-- Apply the disposition of R141 at the boundary of token n; a number is the reason of a halt. -/
def Work.dispose (w : Work) (n : Nat) : Work × Option Nat :=
  let w1 := w.egressNote 6 n
  let st := w1.st
  let disp := if st.holdActive then st.holdDisp
    else ((w.env.policy.bind (fun p => p.tables.egress)).map (fun e => e.defaultOverflow)).getD 0
  let held := st.ring.filter (fun e => decide (st.releaseIndex ≤ e.index))
  let clean := !st.awaiting && !(st.holdActive && held.any (fun e => e.redacted || e.late))
  if disp = 1 then
    let w2 := w1.redactRange st.textRelease st.endPos
    let ring := w2.st.ring.map (fun e => if st.releaseIndex ≤ e.index then { e with redacted := true } else e)
    let w3 := { w2 with st := { w2.st with ring := ring, holdActive := false,
                                           releaseIndex := max w2.st.releaseIndex w2.st.writeIndex } }
    (w3.releaseTo st.endPos, none)
  else if disp = 2 ∧ clean then
    ({ w1 with st := { st with holdActive := false, releaseIndex := max st.releaseIndex st.writeIndex } }, none)
  else (w1, some 10)

/-! ### REWIND (R145 to R148, R312) -/

/-- Write a popped entry back at its stack position, unless it is written already. -/
def writeBack (depth : Nat) (acc : List Nat × List Nat) (pos v : Nat) : List Nat × List Nat :=
  if pos < depth && !acc.2.contains pos then (acc.1.set pos v, pos :: acc.2) else acc

/-- A log entry as its 8 bytes (R311). -/
def GrammarLog.word (e : GrammarLog) : DWord :=
  BitVec.ofNat 64 (e.stateBefore % 2 ^ 16 + e.depthBefore % 2 ^ 9 * 2 ^ 16 + e.pops % 4 * 2 ^ 25 + e.popped0 % 2 ^ 16 * 2 ^ 27
    + e.popped1 % 2 ^ 16 * 2 ^ 43)

/-- The fields of a log entry (R311). -/
def readLog (w : DWord) : GrammarLog :=
  let n := w.toNat
  { stateBefore := n % 2 ^ 16, depthBefore := n / 2 ^ 16 % 2 ^ 9, pops := n / 2 ^ 25 % 4, popped0 := n / 2 ^ 27 % 2 ^ 16,
    popped1 := n / 2 ^ 43 % 2 ^ 16 }

/-- The entry of token n in a log: slot n mod 512 (R311). -/
def logEntry (log : List (Nat × DWord)) (n : Nat) : Option GrammarLog := (aget (n % 512) log).map readLog

/-- The grammar before token t, from the log entries of the discarded tokens in ascending order (R312). -/
def restoreGrammar (log : List (Nat × DWord)) (work : Grammar) (t : Nat) (gone : List Nat) : Option Grammar :=
  match logEntry log t with
  | none => none
  | some b =>
    let stack := work.stack ++ List.replicate 256 0
    let r := (gone.filterMap (logEntry log)).foldl (fun (acc : List Nat × List Nat) e =>
      let acc1 := if 1 ≤ e.pops then writeBack b.depthBefore acc (e.depthBefore - 1) e.popped0 else acc
      if 2 ≤ e.pops then writeBack b.depthBefore acc1 (e.depthBefore - 2) e.popped1 else acc1) (stack, [])
    some { state := b.stateBefore, stack := r.1.take b.depthBefore }

/-- The surviving tokens through the highest appended: those committed, token n, and those in flight. -/
def Stream.surviving (st : Stream) (n : Nat) : List Nat :=
  st.survivors ++ [n] ++ ((st.tokens.filter (fun t => !t.discarded)).map (fun t => t.index))

/-- The target of REWIND(c) at token n, and whether it is clamped (R145). -/
def Stream.rewindTarget (st : Stream) (n c : Nat) : Nat × Bool :=
  let upto := (st.survivors ++ [n]).filter (fun i => st.rewindMark ≤ i)
  if upto.length < c then ((upto.head?).getD n, true) else ((upto[upto.length - c]?).getD n, false)

/-- Apply REWIND(c) at token n's boundary; answers whether it was clamped. -/
def Work.rewind (w : Work) (n c : Nat) : Work × Bool :=
  let st := w.st
  let (t, clamped) := st.rewindTarget n c
  let all := st.surviving n
  let positions := (all.filter (fun i => t ≤ i)).length
  let prev := ((all.filter (fun i => i < t)).getLast?).getD 0xFFFFFFFF
  let pos := match st.ring.find? (fun e => e.index = t) with
    | some e => e.start
    | none => st.text.write
  let text1 := st.text.rebuild w.env.stop w.env.slot.val pos
  let text := if st.stopReason = 2 then { text1 with found := st.text.found } else text1
  let g := restoreGrammar st.log st.workGrammar t (all.filter (fun i => t ≤ i))
  let st' : Stream := { st.clearSlots (all.filter (fun i => t ≤ i)) with
    writeIndex := max st.pastHighest (n + 1), text := text, work := text
    releaseIndex := min st.releaseIndex t
    holdActive := st.holdActive && decide (st.holdFirst < t)
    ring := st.ring.filter (fun e => decide (e.index < t))
    redacted := (st.redacted.filter (fun r => r.1 < text.write)).map (fun r => (r.1, min r.2 text.write))
    survivors := st.survivors.filter (fun i => i < t)
    tokens := st.tokens.map (fun x => { x with discarded := true })
    grammar := g.getD st.grammar, workGrammar := g.getD st.grammar
    rewinds := newest 64 st.rewinds ++ [w.env.now]
    awl := if st.workAwl.isEmpty then st.awl else st.workAwl }
  let w1 := ((({ w with st := st' }).word 5 1).word 6 positions).glob 0x07 0 7 1
  let w2 := (w1.glob 0x07 0 10 positions).glob 0x0E 0 16 (if g.isSome then 1 else 0)
  let w3 := if clamped then w2.egressNote 8 n else w2
  let group := ((w.env.policy.bind (fun p => p.tables.sampler)).map (fun (x : SamplerTables) => x.tokenGroup)).getD 0
  let port := ((w.env.policy.bind (fun p => p.tables.bridle)).map (fun (x : BridleTables) => x.noticePort)).getD 0#8
  let payload := handleBytes st.handle ++ leBytes 4 t ++ leBytes 4 positions ++ leBytes 4 prev
    ++ leBytes 1 (if clamped then 3 else 0) ++ List.replicate 3 0#8 ++ leBytes 8 w.env.now ++ List.replicate 32 0#8
  (w3.put (.notice group port payload), clamped)

/-! ### Draining and its end (R73, R132, R142, R156) -/

/-- A running stream enters DRAINING with a stop reason. -/
def Work.drain (w : Work) (reason : Nat) : Work :=
  if w.st.running then { w with st := { w.st with state := .draining, stopReason := reason } } else w

/-- A carry left at DRAINING becomes one U+FFFD of the last token that commits (R132); the stop automaton goes on over its bytes
(R150), but a string can no longer match (R153). -/
def Work.flushCarry (w : Work) : Work :=
  let st := w.st
  if st.text.carry.isEmpty || decide (st.stopReason = 2) then w
  else
    let put := (fffd.foldl (TextState.putByte w.env.stop st.committed) (st.text, 0)).1
    let text := { put with carry := [], carryHold := 0, found := st.text.found }
    let ring := match st.ring.reverse with
      | e :: r => (({ e with bytes := e.bytes + 3 } : HoldEntry) :: r).reverse
      | [] => []
    let w1 := { w with st := { st with text := text, work := text, ring := ring } }
    ((w1.word 3 1).glob 0x07 0 2 1).effect [.count ⟨0x16, st.req.tenant, 1⟩ 3]

/-- What a boundary of a stream leaves to be done. -/
structure After where
  work : Work
  outcome : Nat := 0
  halt : Option Nat := none
  close : Bool := false
deriving DecidableEq, Repr

/-- The ingress verdict is applied at the first token committed on or after its arrival (R85): HALT answers true. -/
def Work.applyIngress (w : Work) : Work × Bool :=
  let st := w.st
  match st.ingress with
  | some r =>
    if st.ingressApplied then (w, false)
    else
      ({ w with st := { st with ingressApplied := true, ingressReceived := st.ingressArrival.isSome,
                                ingressLate := st.ingressArrival.isNone } }, decide (r.verdict = 1))
  | none => (w, false)

/-- The last boundary of a DRAINING stream with a HOLD span open or an ingress verdict that has not arrived: the disposition of
R141, applied before the carry is written, since a stream that it halts never writes it (R132, R142). -/
def Work.drainEnd (w : Work) (n : Nat) : Work × Option Nat :=
  if w.st.holdActive || w.st.awaiting then
    match (w.dispose n).2 with
    | some r => ((w.dispose n).1, some r)
    | none => w.flushCarry.dispose n
  else (w.flushCarry, none)

/-- The end of a boundary: a DRAINING stream without tokens in flight clears what is left, the END record goes out when the
last byte is released or discarded, and a running stream is LIVE or HOLDING. An ingress verdict that has arrived and met no
committed token since is applied at the last boundary, for R142 gives the disposition only to one that has not arrived
(log 54). -/
def Work.finish (w0 : Work) (n : Nat) : After :=
  let last := w0.st.tokens.isEmpty
  let ing := if w0.st.draining && last then w0.applyIngress else (w0, false)
  let w := ing.1
  if ing.2 then { work := w, halt := some 6 }
  else if w.st.draining then
    if last then
      let open' := w.st.holdActive || w.st.awaiting
      let d := w.drainEnd n
      match d.2 with
      | some r => { work := d.1, outcome := 4, halt := some r }
      | none =>
        let st := d.1.st
        let w2 := ({ d.1 with st := { st with releaseIndex := max st.releaseIndex st.writeIndex } })
        let w3 := w2.releaseTo w2.st.endPos
        { work := w3.sendEnd w3.st.endIndex, outcome := if open' then 4 else 0, close := true }
    else if w.st.stopReason = 2 ∧ w.st.endPos ≤ w.st.textRelease then { work := w.sendEnd w.st.endIndex }
    else { work := w }
  else if w.st.running then
    { work := { w with st := { w.st with state := if w.st.holdActive || w.st.awaiting then .holding else .live } } }
  else { work := w }

/-- The halt and the close that a boundary leaves, after its audit record. -/
def After.settle (a : After) : Work :=
  match a.halt with
  | some r => (a.work.halt r).closeHalted
  | none => if a.close then a.work.close else a.work.closeHalted

/-! ### The boundary of a token (R77, R137) -/

/-- What the boundary of a token is given: the actions released for it, and whether the verdict is its late default. -/
structure Verdict where
  acts : Actions := {}
  late : Bool := false
  skip : Bool := false
deriving DecidableEq, Repr

/-- The late mask of a token's verdict. -/
def Token.lateMask (t : Token) : Nat := match t.inputs with | some i => i.lateMask | none => 0

/-- The late mask of a token's audit record: its contributions, the verdict, and FEATURE_NAN (R192, R343). -/
def Token.auditMask (t : Token) (late : Bool) : Nat := t.lateMask + (if late then 64 else 0) + (if t.featureNan then 256 else 0)

/-- The parts of the state that a token's boundary commits whether or not the token is discarded (R148, R316); the automata took
their working states when the rewind discarded it (R177). -/
def Work.commitCommon (w : Work) (t : Token) (lates : Nat) : Work :=
  let w0 := w.atBoundary
  let st := w0.st
  let st' : Stream := { st with
    epoch := t.epoch
    awl := if t.awlAfter.isEmpty || t.discarded then st.awl else t.awlAfter }
  ((((({ w0 with st := st' }).word 7 lates).word 9 t.proposed).word 10 t.accepted).word 11 t.masked)

/-- Token t commits with its attributed bytes (R62, R77, R78). -/
def Work.commitToken (w : Work) (t : Token) (bytes : Nat) : Work :=
  let st := w.st
  let st' : Stream := { st with empty := false, committed := t.index, lateMask := t.lateMask % 64,
                                grammar := if st.sampling.grammarId = 0xFFFF then {} else t.grammarAfter,
                                writeIndex := max st.writeIndex (t.index + 1) }
  (({ w with st := st' }).word 0 1).put (.commit bytes)

/-- Step 5 of R137: the entry, the text and the counts of its repairs. -/
def Work.writeEntry (w : Work) (t : Token) (late : Bool) : Work :=
  let st := w.st
  let e : HoldEntry := { index := t.index, token := t.id, bytes := t.bytes.length, start := st.text.write, redacted := false,
                         late := late }
  let st' : Stream := { st with text := t.textAfter, ring := st.ring.filter (fun x => x.index % 512 ≠ t.index % 512) ++ [e],
                                survivors := newest 1100 (st.survivors ++ [t.index]) }
  let w1 := (({ w with st := st' }).word 3 t.replaced).glob 0x07 0 2 t.replaced
  let w2 := w1.glob 0x07 0 3 (if !t.textAfter.carry.isEmpty && decide (t.textAfter.carryHold = 1) then 1 else 0)
  if t.isUndefined && !t.ends then w2.egressNote 4 t.index else w2

/-- Step 8 of R137: a stop-string match, END_TOKEN or MAX_TOKENS takes effect; a discarded token keeps only the last
(R154, R320). Answers whether a string matched. -/
def Work.stopStep (w : Work) (t : Token) (gone : Bool) : Work × Bool :=
  let hit := !gone && (match w.st.text.found with | some f => decide (f.index = t.index) | none => false)
  if !w.st.running then (w, false)
  else if hit then
    let w1 := w.drain 2
    (({ w1 with st := { w1.st with stopTick := w.env.now } }).glob 0x07 0 5 1, true)
  else if !gone && t.ends then (w.drain 1, false)
  else if t.atMax then (w.drain 3, false)
  else (w, false)

/-- The block with a bias; vector 0xFFFF clears both (R318). -/
def Sampling.setBias (p : Sampling) (v : Half) (scale : Word) : Sampling :=
  { p with biasVector := v, biasScale := if v = 0xFFFF#16 then 0#32 else scale }

/-- A BIAS action (R318, R322): that of a token of an earlier policy than the one the sampler has gone on to is dropped and
counted. -/
def Work.bias (w : Work) (t : Token) (b : Option (Half × Word)) : Work :=
  match b with
  | none => w
  | some (v, scale) =>
    if laterSeq 32 w.st.sampleEpoch t.epoch then w.effect (bridleEvent 8 w.st.handle t.index w.env.now)
    else { w with st := { w.st with sampling := w.st.sampling.setBias v scale, seen := w.st.seen.setBias v scale } }

/-- Steps 4 to 9 for a token that neither halts nor rewinds; one after a stop position writes nothing (R152). -/
def Work.textSteps (w : Work) (t : Token) (v : Verdict) (afterStop : Bool) : After :=
  let late := v.late || decide (t.lateMask % 64 ≠ 0)
  let full := !afterStop && w.st.overflows t.index t.textAfter
  let d := if full then w.dispose t.index else (w, none)
  let bit := (if full then 4 else 0) + (if afterStop then 1 else 0)
  match d.2 with
  | some r => { work := d.1.commitToken t 0, outcome := bit, halt := some r }
  | none =>
    let w1 := if afterStop then
        (({ d.1 with st := d.1.st.clearSlots [t.index] } : Work).commitToken t 0).glob 0x07 0 10 1
      else (d.1.writeEntry t late).commitToken t t.bytes.length
    let w2 := v.acts.redacts.foldl Work.redactSpan w1
    let w3 := (w2.hold t.index v.acts.hold).resolve t.index
    let w4 := w3.bias t v.acts.bias
    let s8 := w4.stopStep t afterStop
    let f := (s8.1.release).finish t.index
    { f with outcome := bit ||| f.outcome ||| (if s8.2 then 8 else 0) }

/-- The text steps of a token's boundary in the order of R137; the token is out of the list in flight. -/
def Work.tokenSteps (w : Work) (t : Token) (v : Verdict) (afterStop : Bool) : After :=
  let ing := w.applyIngress
  if t.discarded then
    let f := ((w.stopStep t true).1).finish t.index
    { f with outcome := 1 ||| f.outcome }
  else if ing.2 then { work := ing.1.commitToken t 0, halt := some 6 }
  else if v.acts.halt then { work := ing.1.commitToken t 0, halt := some (if v.late then 9 else 5) }
  else
    match v.acts.rewind with
    | some c =>
      let r := (ing.1.commitToken t 0).rewind t.index c
      let w1 := r.1.bias t v.acts.bias
      if r.2 then { work := w1, outcome := 3, halt := some 11 }
      else
        let s8 := w1.stopStep t true
        let f := (s8.1.release).finish t.index
        { f with outcome := 1 ||| f.outcome }
    | none => ing.1.textSteps t v afterStop

/-- A token carried past a stop that took effect before it (R152). -/
def Stream.afterStop (st : Stream) (t : Token) : Bool :=
  match st.text.found with
  | some f => decide (st.stopReason = 2) && decide (f.index < t.index)
  | none => false

/-- The accumulators that a token's sample wrote commit with it (R195); a halt discards a sample that has not delivered (R207). -/
def Stream.commitAcc (st : Stream) (t : Token) (halting : Bool) : Stream :=
  if halting && t.armDone.isNone then st else { st with acc := t.armAcc.foldl (fun a e => aset e.1 e.2 a) st.acc }

/-- The boundary of token t (R77, R78, R137, R343): its steps, its TOKEN record, then the halt or close it leads to. On a
HALTED stream the token is discarded and only recorded (R72). -/
def Work.tokenBoundary (w : Work) (t : Token) (v : Verdict) : Work :=
  let w0 := { w with st := { w.st with tokens := w.st.tokens.filter (fun x => x.index ≠ t.index) } }
  let late := t.auditMask v.late
  if w.st.ended then
    (w0.audit { kind := 1, index := t.index, outcome := 1, lateMask := late, subject := t.id, epoch := t.epoch }).closeHalted
  else
    let lates := if v.skip then 0 else (t.inputs.map (fun i => i.lates)).getD 0 + (if v.late then 1 else 0)
    let a := (w0.commitCommon t lates).tokenSteps t v (w.st.afterStop t)
    let outcome := a.outcome ||| (if a.halt.isSome then 16 else 0)
    let v1 := { a.work with st := a.work.st.commitAcc t a.halt.isSome }
    let w1 := v1.audit { kind := 1, index := t.index, outcome := outcome, lateMask := late, subject := t.id,
                             epoch := t.epoch, acts := v.acts }
    ({ a with work := w1 } : After).settle

/-! ### Command boundaries (R80, R142) -/

/-- A running stream enters DRAINING at a command boundary; with no token in flight that boundary stands for its last
verdict (R142, R153). -/
def Work.drainAt (w : Work) (reason : Nat) : After :=
  let w1 := w.drain reason
  if w1.st.req.egress then (w1.release).finish w1.st.lastIndex else { work := w1 }

/-! ### A poisoned context (R470) -/

/-- A stream whose context holds a poisoned word is halted at its next boundary with UNCORRECTABLE; the state and the stream
that the boundary then meets. -/
def State.atContext (s : State) (k : SlotId) (st : Stream) : State × Stream :=
  match st.poisoned with
  | none => (s, st)
  | some a =>
    if st.ended then (s, st)
    else
      let st1 : Stream := { st with poisoned := none }
      let w : Work := { env := s.env k st1 (s.policyOf st1), st := st1 }
      let w1 := ((w.effect (poisonRead 0 (bankOf a) a s.now)).halt 14).closeHalted
      (w1.run s, w1.st)

end Sys2Proof.Machine
end

