-- ==== Sys2Proof/Machine/Opens.lean ====
section
/-! DEFINITION. Opening a stream (R63 to R69), the engines a stream binds to (R464), and a slot's return to FREE (R59, R73). -/

namespace Sys2Proof.Machine

/-! ### Bindings (R111, R169, R205, R299, R327, R464) -/

/-- The half that serves slot k under a table's `halves` bits. -/
def servingHalf (north south : Bool) (k : SlotId) : HalfId :=
  if north && south then (if k.val % 2 = 0 then .north else .south) else if south then .south else .north

/-- The half whose engine set carries the work of half h's engine: its own, or the other's where the policy was cast over a failed
engine (R18, R180, R205, R299, R327, R479). Lanes and pipelines keep their numbers there. -/
def Policy.carrier (p : Policy) (engine : Nat) (h : HalfId) : HalfId :=
  let failed : HalfId → Bool
    | .north => p.failedNorth.getLsbD engine
    | .south => p.failedSouth.getLsbD engine
  if failed h && !failed (otherHalf h) then otherHalf h else h

/-- The half of a slot's sampler (R299). -/
def Policy.samplerHalf (p : Policy) (k : SlotId) : HalfId :=
  match p.tables.sampler with
  | some t => p.carrier 5 (servingHalf t.northServes t.southServes k)
  | none => .north

/-- A half's stores for a policy slot (R278). -/
def State.storeSlot (s : State) (h : HalfId) (one : Bool) : StoreSlot := (aget (h, one) s.eng.stores).getD {}

/-- The sampler tables that slot k's sampler reads: the class map and the bias vectors are those of its half's stores (R303, R318). -/
def State.samplerTables (s : State) (p : Policy) (k : SlotId) : Option SamplerTables :=
  p.tables.sampler.map (fun t =>
    let c := s.storeSlot (p.samplerHalf k) p.cellSlot
    { t with classMap := c.classes, biases := c.biases })

/-- The half of a slot's awl instances (R169, R180). -/
def Policy.awlHalf (p : Policy) (k : SlotId) : HalfId :=
  match p.tables.awl with
  | some t => p.carrier 2 (t.half k.val)
  | none => .north

/-- The half of a slot's bridle lane (R327). -/
def Policy.bridleHalf (p : Policy) (k : SlotId) : HalfId :=
  match p.tables.bridle with
  | some t => p.carrier 6 (servingHalf t.northServes t.southServes k)
  | none => .north

/-- The lane of a slot on its bridle half (R327). -/
def Policy.bridleLane (p : Policy) (k : SlotId) : Fin 16 :=
  match p.tables.bridle with
  | some t => ⟨(if t.northServes && t.southServes then k.val / 2 else k.val) % 16, by omega⟩
  | none => ⟨k.val % 16, by omega⟩

/-- The half of a slot's armature samples (R205). -/
def Policy.armatureHalf (p : Policy) (k : SlotId) : HalfId :=
  match p.tables.armature with
  | some t => p.carrier 3 (servingHalf t.northServes t.southServes k)
  | none => .north

end Sys2Proof.Machine

namespace Sys2Proof
open Machine

/-- The skiver unit of a slot: the (s mod U)-th set bit of `unit_mask` (R111). -/
def SkiverTables.unitOf (t : SkiverTables) (k : SlotId) : Fin 8 :=
  let bits := (List.finRange 8).filter (fun u => t.unitMask.getLsbD u.val)
  (bits[k.val % max 1 bits.length]?).getD 0

end Sys2Proof

namespace Sys2Proof.Machine

/-- The half of a skiver unit: 0 to 3 north, 4 to 7 south (R105). -/
def unitHalf (u : Fin 8) : HalfId := if u.val < 4 then .north else .south

/-- Whether a stream in slot k would bind to an engine of a half, with a skiver unit or 0xFF for all (R464). -/
def Policy.binds (p : Policy) (k : SlotId) (egress : Bool) (engine : Nat) (h : HalfId) (unit : Nat) : Bool :=
  if engine = 0 then
    !egress && (match p.tables.skiver with
      | some t => decide (unitHalf (t.unitOf k) = h) && (decide (unit = 0xFF) || decide ((t.unitOf k).val = unit))
      | none => false)
  else if engine = 1 ∨ engine = 5 then egress && p.tables.sampler.isSome && decide (p.samplerHalf k = h)
  else if engine = 2 then p.tables.awl.isSome && decide (p.awlHalf k = h)
  else if engine = 3 then p.tables.armature.isSome && decide (p.armatureHalf k = h)
  else if engine = 6 then p.tables.bridle.isSome && decide (p.bridleHalf k = h)
  else false

/-- Whether an engine that a stream would bind to is restarting or has failed (R465, R479). -/
def State.engineBusy (s : State) (p : Policy) (k : SlotId) (egress : Bool) : Bool :=
  s.eng.restarting.any (fun (e, h, u, _) => p.binds k egress e h u)

/-! ### The request -/

/-- An open request's fields (R63). -/
def parseOpen (b : List Byte) : OpenRequest :=
  let egress := fieldBit b 10 2 0
  { tag := BitVec.ofNat 64 (field b 0 8), tenant := field b 8 2, egress := egress, pin := fieldBit b 10 2 1,
    awaitIngress := egress && fieldBit b 10 2 2, replyNode := nodeField b 12, replyPort := byteField b 14,
    stopSet := field b 15 1, ingressHandle := BitVec.ofNat 64 (field b 16 8), maxTokens := field b 24 4,
    grammarId := field b 28 2, temperature := BitVec.ofNat 32 (field b 32 4), topK := field b 36 4,
    topP := BitVec.ofNat 32 (field b 40 4), minP := BitVec.ofNat 32 (field b 44 4),
    seed := BitVec.ofNat 64 (field b 48 8), drafts := field b 56 1 }

/-- The slot that the next open is granted: the one that has been FREE the longest (R61; log 6: never-used slots first,
ascending). -/
def Streams.nextFree (t : Streams) : Option SlotId :=
  if h : t.fresh < 32768 then some ⟨t.fresh, h⟩ else t.freed.head?

/-- Take the slot of the next open. -/
def Streams.takeFree (t : Streams) : Streams :=
  if t.fresh < 32768 then { t with fresh := t.fresh + 1 } else { t with freed := t.freed.drop 1 }

/-- Whether a policy lacks what an egress open names (R66, R299). -/
def Policy.crossrefOpen (p : Policy) (r : OpenRequest) : Bool :=
  match p.tables.egress, p.tables.sampler with
  | some e, some m => decide (e.stopSets.length ≤ r.stopSet)
      || (decide (r.grammarId ≠ 0xFFFF) && decide (m.grammars.length ≤ r.grammarId)) || decide (m.maxDrafts < r.drafts)
  | _, _ => true

/-- The policy that was active at a tick no older than the cast before the last (R444). -/
def State.activeAt (s : State) (t : Nat) : Option Policy :=
  match s.cast.active with
  | some a => if t < a.instant then s.cast.retained else some a
  | none => none

/-- Whether an armed windowed cast turns an open away (R449). -/
def State.windowRefuses (s : State) (r : OpenRequest) : Bool :=
  match s.cast.armed, s.cast.staged with
  | some _, some m => m.windowed && (r.pin || !m.role (roleOf r.egress))
  | _, _ => false

/-- Grammar logs in use are all taken (R311). -/
def State.logsFull (s : State) (p : Policy) : Bool :=
  decide (((p.tables.sampler).map (fun t => t.grammarStreams)).getD 0 ≤ s.streams.logs.length)

/-- Whether a request takes a grammar log (R311). -/
def OpenRequest.wantsLog (r : OpenRequest) : Bool := r.egress && decide (r.grammarId ≠ 0xFFFF)

/-- The status of a request at its open stamp t, in the order of log 20 (R66, R67, R311, R444, R449, R465, R495). -/
def State.openStatus (s : State) (r : OpenRequest) (t : Nat) : Nat :=
  match s.activeAt t with
  | none => Status.doesNotFit
  | some p =>
    if !p.role (roleOf r.egress) || s.windowRefuses r then Status.doesNotFit
    else if r.egress && p.crossrefOpen r then Status.crossref
    else if aget r.tenant s.ctl.budgets = some 0 then Status.doesNotFit
    else match s.streams.nextFree with
      | none => Status.tableFull
      | some k =>
        if s.engineBusy p k r.egress then Status.busy
        else if r.wantsLog && s.logsFull p then Status.tableFull
        else Status.ok

/-- `retry_after`: ticks until the earliest CLOSED slot is FREE (R69, R311). -/
def State.retryAfter (s : State) : Nat :=
  let ts := (s.streams.table.filter (fun e => decide (e.2.state = .closed))).map (fun e => e.2.closedAt + 4096 - s.now)
  match ts with
  | [] => 0xFFFFFFFF
  | t :: r => r.foldl min t

/-- The lowest grammar log not in use: R311 does not say which one an open takes (log 25). -/
def State.freeLog (s : State) : Nat := ((List.range (s.streams.logs.length + 1)).find? (fun i => !s.streams.logs.contains i)).getD 0

/-- The start state of a grammar (R310). -/
def Policy.grammarStart (p : Policy) (id : Nat) : Nat :=
  match p.tables.sampler with
  | some t => ((t.grammars[id]?).map (fun g => g.1)).getD 0
  | none => 0

/-- The instances of a stream's set at their start states (R168 to R170). -/
def Policy.awlStart (p : Policy) (set : Nat) (k : SlotId) (egress : Bool) : List AwlInst :=
  match p.tables.awl with
  | none => []
  | some t => (List.range 8).map (fun i =>
      match t.automatonAt set i egress with
      | some a => { state := a.startValue t.both k.val }
      | none => {})

/-- What the instances of a set are bound to: content and start offset of each position's automaton (R178). -/
def Policy.awlBound (p : Policy) (set : Nat) (egress : Bool) : List (Option (DWord × Nat)) :=
  match p.tables.awl with
  | none => []
  | some t => (List.range 8).map (fun i => (t.automatonAt set i egress).map (fun a => (a.contentId, a.start)))

/-- The content identifier of a policy's grammar (R303). -/
def Policy.grammarContent (p : Policy) (id : Nat) : Option DWord :=
  (p.tables.sampler.bind (fun t => t.grammars[id]?)).map (fun g => g.2)

/-- A policy's armature layout (R206). -/
def Policy.layoutId (p : Policy) : DWord := (p.tables.armature.map (fun t => t.layoutId)).getD 0#64

/-- A tenant's entry of a tenant map for a direction (R168). -/
def tenantEntry (m : List (Nat × (Nat × Nat))) (tenant : Nat) (egress : Bool) : Nat :=
  match aget tenant m with
  | some (i, e) => if egress then e else i
  | none => 0

/-- The context of a stream granted slot k under policy p (R70, R168, R186, R310, R326). -/
def State.newStream (s : State) (p : Policy) (k : SlotId) (r : OpenRequest) (stamp : Nat) : Stream :=
  let awlSet := match p.tables.awl with | some t => t.setOf r.tenant r.egress | none => 0xFF
  let armSet := match p.tables.armature with | some t => tenantEntry t.tenantMap r.tenant r.egress | none => 0xFF
  let prog := match p.tables.bridle with | some t => tenantEntry t.tenantMap r.tenant r.egress | none => 0xFF
  let g : Grammar := if r.wantsLog then { state := p.grammarStart r.grammarId } else {}
  let acc := match p.tables.armature with | some t => t.initial | none => []
  let insts := p.awlStart awlSet k r.egress
  let text : TextState := { stopState := (stopCtx (some p) r.stopSet).start k.val }
  let block : Sampling :=
    { grammarId := r.grammarId, temperature := r.temperature, topK := r.topK, topP := r.topP, minP := r.minP, seed := r.seed,
      drafts := r.drafts, logIndex := if r.wantsLog then some s.freeLog else none }
  { handle := s.handleOf k, state := .opening, req := r, openStamp := stamp, pinned := r.pin, epoch := p.epoch,
    replyNode := r.replyNode, replyPort := r.replyPort, maxTokens := r.maxTokens, text := text, work := text,
    sampling := block, seen := block, grammar := g, workGrammar := g, acc := acc, workAcc := acc,
    awl := insts, workAwl := insts,
    awlBound := p.awlBound awlSet r.egress, grammarContent := p.grammarContent r.grammarId, layoutId := p.layoutId,
    awlSet := awlSet, armSet := armSet, program := prog, laneEpoch := p.epoch, sampleEpoch := p.epoch,
    armEpoch := p.epoch, judgeEpoch := p.epoch }

/-- An ingress contribution that waits for a stream's ingress handle, when it arrived before the stream's cutoff (R84). -/
def State.claimIngress (s : State) (p : Policy) (st : Stream) : Stream × State :=
  if st.req.ingressHandle = 0#64 then (st, s)
  else match s.streams.ingressWaits.find? (fun w => w.handle.toNat = st.req.ingressHandle.toNat) with
    | none => (st, s)
    | some w =>
      let cutoff := st.openStamp + ((p.entryFor 0x15 true).map (fun e => e.readyBy)).getD 0
      if w.arrival < cutoff then
        ({ st with ingress := some w.body, ingressArrival := some w.arrival },
         { s with streams := { s.streams with ingressWaits := s.streams.ingressWaits.map (fun x =>
            if x.handle = w.handle then { x with claimed := true } else x) } })
      else (st, s)

/-- Insert a pending open in the order of stamps and edges (R68). -/
def insertOpen (o : PendingOpen) : List PendingOpen → List PendingOpen
  | [] => [o]
  | x :: xs => if o.stamp < x.stamp ∨ (o.stamp = x.stamp ∧ o.order < x.order) then o :: x :: xs else x :: insertOpen o xs

/-- Put a pending open in its place. -/
def State.addOpen (s : State) (o : PendingOpen) : State :=
  { s with streams := { s.streams with opens := insertOpen o s.streams.opens } }

/-- An open request at its open stamp: refused with a status, or granted a slot, which is then OPENING (R64 to R68). A refused
open's `live_count` and `retry_after` are those of this moment, its stamp's handling, as an accepted one's `live_count` is: R69 does
not say at which tick they are measured (log 20). -/
def State.requestOpen (s : State) (b : List Byte) (stamp order : Nat) (mb : Option (MPort × Fin 32)) : State :=
  let r := parseOpen b
  let status := s.openStatus r stamp
  match s.activeAt stamp, s.streams.nextFree, decide (status = Status.ok) with
  | some p, some k, true =>
    let st0 := s.newStream p k r (s.effStamp stamp)
    let (st, s1) := s.claimIngress p st0
    let logs := match st.sampling.logIndex with | some i => s1.streams.logs ++ [i] | none => s1.streams.logs
    let s2 := ({ s1 with streams := { s1.streams.takeFree with logs := logs } }).setStream k st
    s2.addOpen { req := r, stamp := stamp, order := order, mailbox := mb, status := Status.ok, slot := some k,
                 live := s2.liveCount, retryAfter := 0 }
  | _, _, _ =>
    let full := decide (status = Status.tableFull)
    let s1 := if full then s.effects [.count ⟨0x14, 0, 1⟩ 1, .notice 3 (leBytes 2 r.tenant ++ leBytes 8 stamp)] else s
    let retry := if full && s.streams.nextFree.isSome then 0xFFFFFFFF else s.retryAfter
    s1.addOpen { req := r, stamp := stamp, order := order, mailbox := mb, status := status, slot := none,
                 live := s.liveCount, retryAfter := retry }

/-! ### Requests in the order of R68 -/

/-- An edge's place among equal stamps: bulk ports after the mailboxes, links after them (R68). -/
def edgeOrder : Edge → Nat
  | .host b => 64 + b.val
  | .link k => 128 + k.val
  | .func => 192

/-- Whether a packet is an open request: classes 1 to 6 at port 0xD0, with the 64 bytes of R63. -/
def isOpenPacket (a : Arrival) : Bool :=
  decide (a.pkt.hdr.port = 0xD0#8) && decide (1 ≤ a.pkt.hdr.cls.toNat) && decide (a.pkt.hdr.cls.toNat ≤ 6)
    && decide (64 ≤ a.pkt.payload.length)

/-- Whether a packet at port 0xD0 waits with a stamp before t (R68). -/
def State.openPacketBefore (s : State) (t : Nat) : Bool := s.plane.inbox.any (fun a => isOpenPacket a && decide (a.stamp < t))

/-- Whether a mailbox open accepted by t has not been taken (R68). -/
def State.openCmdBefore (s : State) (t : Nat) : Bool :=
  s.boot.fwRunning && s.ctl.mbox.any (fun e => e.2.owned && !e.2.started && decide (e.2.code = 0x0201) && decide (e.2.accept ≤ t))

/-- The open packet that comes first: by stamp, then edge, then arrival (R68). -/
def firstOpen (as : List Arrival) : Option Arrival :=
  (as.filter isOpenPacket).foldl (fun b a =>
    match b with
    | none => some a
    | some x => if a.stamp < x.stamp ∨ (a.stamp = x.stamp ∧ edgeOrder a.edge < edgeOrder x.edge) then some a else some x) none

/-- STREAM_OPEN: an open waits for open packets stamped before it (R68). -/
def startOpen (p : MPort) (n : Fin 32) (s : State) : State :=
  match s.cmd? p n 0x0201 with
  | some c =>
    if s.openPacketBefore c.accept then s
    else s.startCmd p n 0x0201 64 (fun c t => t.requestOpen c.body c.accept (slotOrder c.port c.slot) (some (c.port, c.slot)))
  | none => s

/-- STREAM_CONTROL_PACKET: an open request at port 0xD0; any other packet there carries none (R63). The manual gives a stream-control
query (R86) no layout and nothing that tells it from an open, so no packet is read as one (log 43). -/
def takeOpenPacket (s : State) : State :=
  match firstOpen s.plane.inbox with
  | some a =>
    if s.openCmdBefore a.stamp then s
    else
      let s1 := { s with plane := { s.plane with inbox := s.plane.inbox.erase a } }
      s1.requestOpen a.pkt.payload a.stamp (edgeOrder a.edge) none
  | none =>
    match s.takeInbox (fun a => decide (a.pkt.hdr.port = 0xD0#8)) with
    | some (_, s1) => s1
    | none => s

/-! ### The open commit (R64) -/

/-- The result of an accepted open: the stream leaves OPENING with its OPEN record, and the event goes out. -/
def State.commitOpen (s : State) (o : PendingOpen) (k : SlotId) (st : Stream) : State :=
  let body := Event.body
    { kind := 1, tenant := o.req.tenant, node := s.aon.node, tag := o.req.tag, handle := st.handle.toNat,
      stamp := o.stamp, live := o.live }
  let w : Work := { env := s.env k st (s.policyOf st), st := st }
  let w1 := match st.state with
    | .opening =>
      let w0 := w.atBoundary
      ({ w0 with st := { w0.st with state := if st.req.awaitIngress then .holding else .live } }).audit { kind := 0, subject := st.req.tenant, epoch := st.epoch }
    | _ => w
  ((w1.put (.event body)).run s).answerFrom o.mailbox Status.ok body

/-- OPEN_COMMIT: the first pending open whose tick is reached is answered (R64, R69). -/
def openCommit (s : State) : State :=
  match s.streams.opens with
  | [] => s
  | o :: rest =>
    if s.now < s.effStamp o.stamp + 512 then s
    else
      let s1 := { s with streams := { s.streams with opens := rest } }
      match o.slot.bind (fun k => (aget k s1.streams.table).map (fun st => (k, st))) with
      | some (k, st) => s1.commitOpen o k st
      | none =>
        let body := Event.body
          { kind := 2, status := o.status, tenant := o.req.tenant, node := s.aon.node, tag := o.req.tag, stamp := o.stamp,
            live := o.live, retry := o.retryAfter }
        (s1.sendEvent o.req.replyNode o.req.replyPort 0#48 body).answerFrom o.mailbox o.status body

/-! ### FREE again (R59, R73) -/

/-- The CLOSED stream whose slot is due first. -/
def State.dueFree (s : State) : Option (SlotId × Stream) :=
  (s.streams.table.filter (fun e => decide (e.2.state = .closed) && decide (e.2.closedAt + 4096 ≤ s.now))).foldl (fun b e =>
    match b with
    | none => some e
    | some x => if e.2.closedAt < x.2.closedAt then some e else some x) none

/-- The token packet that answers a step of a stream that no longer samples (R74, R319). -/
def noTokenPayload (st : Stream) (step : Step) (flags reason first : Nat) : List Byte :=
  handleBytes st.handle ++ leBytes 4 first ++ leBytes 1 0 ++ leBytes 1 0 ++ leBytes 1 reason ++ leBytes 1 (flags + 1)
    ++ leBytes 2 step.set.step ++ leBytes 2 0 ++ leBytes 4 step.set.prevIndex ++ List.replicate 104 0#8

/-- A token list (R114). -/
def tokenList (h : BitVec 48) (first flags : Nat) (ids : List Nat) : List Byte :=
  handleBytes h ++ leBytes 4 first ++ leBytes 2 ids.length ++ leBytes 2 flags ++ ids.flatMap (fun i => leBytes 4 (i % 2 ^ 20))

/-- The flags of a chunk's list besides `void` (R114). -/
def Chunk.flags (c : Chunk) : Nat :=
  (if c.endsSegment then 2 else 0) + (if c.promptEnd then 4 else 0) + (if c.channel = 0 then 8 else 0)

/-- Where an ingress stream's token lists go (R114). -/
def Policy.ingressRoute (p : Policy) (tenant : Nat) : NodeId × Byte :=
  match p.tables.role.ingressRoutes.find? (fun r => r.1 = tenant) with
  | some r => r.2
  | none => p.tables.role.ingressRouteDefault

/-- What a freed slot's stream still owes at release ticks: sampling answers and void token lists (R74, R463). -/
def State.orphansOf (s : State) (k : SlotId) (st : Stream) : List Orphan :=
  let steps := (st.steps.filter (fun x => !x.released)).map (fun x =>
    let p := s.policyByEpoch x.epoch
    let t := p.bind (fun q => q.tables.sampler)
    ({ slot := k, release := x.release, sample := true, dest := (t.map (fun m => m.tokenGroup)).getD 0,
       port := (t.map (fun m => m.tokenPort)).getD 0#8, handle := st.handle, lat := (p.map (fun q => q.edgeLatency 3)).getD 0,
       drafts := x.set.drafts,
       payload := noTokenPayload st x (if x.grammarDropped then 8 else 0) st.stopReason st.nextIndex } : Orphan))
  let chunks := (st.inp.chunks.filter (fun c => !c.released)).map (fun c =>
    let p := s.policyByEpoch c.epoch
    let r := (p.map (fun q => q.ingressRoute st.req.tenant)).getD (0#12, 0#8)
    ({ slot := k, release := c.release, sample := false, dest := r.1.toNat, port := r.2, handle := st.handle,
       lat := (p.map (fun q => q.edgeLatency 1)).getD 0,
       payload := tokenList st.handle st.inp.nextIndex (c.flags + 1) [] } : Orphan))
  steps ++ chunks

/-- SLOT_FREE: 4,096 ticks after its close a slot is FREE, its generation one higher and its log free (R59, R73, R311). A
function reset under way frees every slot itself (R460). -/
def slotFree (s : State) : State :=
  match s.dueFree, s.cast.resetting with
  | none, _ => s
  | _, some _ => s
  | some (k, st), none =>
    let logs := match st.sampling.logIndex with | some i => s.streams.logs.erase i | none => s.streams.logs
    let queues := s.eng.skiverQueues.map (fun (u, q) => (u, q.filter (fun x => x.1 ≠ k)))
    let awl := s.eng.awl.map (fun e => (e.1, e.2.without k))
    { s with eng := { s.eng with skiverQueues := queues, awl := awl }, streams := { s.streams with
      table := aerase k s.streams.table
      gens := aset k (((aget k s.streams.gens).getD 0 + 1) % 2 ^ 21) s.streams.gens
      freed := s.streams.freed ++ [k]
      logs := logs
      orphans := s.streams.orphans ++ s.orphansOf k st } }

/-! ### Meanings -/

/-- STREAM_OPEN (R63, R64, R68). -/
def execStreamOpen (p : MPort) (n : Fin 32) (s : State) : Host.Outcome State Fault Refusal := .next (startOpen p n s)

/-- STREAM_CONTROL_PACKET (R63, R68). -/
def execStreamControlPacket (s : State) : Host.Outcome State Fault Refusal := .next (takeOpenPacket s)

/-- OPEN_COMMIT (R64 to R69, R343). -/
def execOpenCommit (s : State) : Host.Outcome State Fault Refusal := .next (openCommit s)

/-- SLOT_FREE (R59, R73). -/
def execSlotFree (s : State) : Host.Outcome State Fault Refusal := .next (slotFree s)

end Sys2Proof.Machine
end

