-- ==== Sys2Proof/Machine/StreamCommands.lean ====
section
/-! DEFINITION. The commands addressed to one stream and their boundaries (R80, R462, R463, R466, R518), host features
(R191) and tenant budgets (R495, R518). -/

namespace Sys2Proof.Machine

/-! ### Boundaries (R80, R87) -/

/-- Whether a commit of the stream at or before tick t has not come about yet: it comes first (R80, R87). -/
def Stream.owes (st : Stream) (t : Nat) : Bool :=
  st.tokens.any (fun x => decide (x.release ≤ t)) || st.stepHalts.any (fun x => decide (x.due ≤ t))
    || st.inp.chunks.any (fun c => !c.released && decide (c.release ≤ t))
    || st.inp.verdicts.any (fun v => decide (v.release ≤ t))
    || (decide (st.state = .opening) && decide (st.openStamp + 512 ≤ t))

/-- Work on a stream under the policy it is under now. -/
def State.work (s : State) (k : SlotId) (st : Stream) : Work := { env := s.env k st (s.policyOf st), st := st }

/-- A logit packet of a stream that waits with a stamp before tick t: its step uses the parameters before a boundary at t (R80). -/
def State.logitBefore (s : State) (h : BitVec 48) (t : Nat) : Bool :=
  s.plane.inbox.any (fun a => decide (a.pkt.hdr.port = 0xD3#8) && decide (field a.pkt.payload 0 8 = h.toNat)
    && decide (s.effStamp a.stamp < t))

/-- The COMMAND record of a command boundary (R343). -/
def Work.commandRecord (w : Work) (code : Nat) : Work := w.audit { kind := 4, subject := code, epoch := w.st.epoch }

/-- Answer a waiting command and take it off. -/
def State.finishWaiting (s : State) (w : Waiting) (status : Nat) (body : List Byte) : State :=
  s.popWaiting.answerFrom w.from? status body

/-- A due command of a code about a stream: run it on the stream its handle names once every earlier commit is done and every step
stamped before it is taken and every earlier release has appended its tokens; a handle that is stale by then answers ALREADY_DONE (R60, R80). -/
def State.atBoundary (s : State) (code : Nat) (run : Waiting → SlotId → Stream → State → State) : State :=
  match s.dueWaiting code with
  | none => s
  | some w =>
    match s.streamOf (field w.body 0 8) with
    | none => s.finishWaiting w Status.alreadyDone []
    | some (k, st) =>
      if st.owes w.due || s.logitBefore st.handle w.due || st.steps.any (fun x => !x.released && decide (x.release < w.due)) then s
      else
        let c := s.atContext k st
        run w k c.2 c.1

/-- Start a command about a stream: a stale handle answers ALREADY_DONE at once (R60), otherwise it waits for its boundary. -/
def State.startStream (s : State) (p : MPort) (n : Fin 32) (code len : Nat) (ok : Cmd → Bool) : State :=
  s.startCmd p n code len (fun c t =>
    if !ok c then t.answer c Status.crossref []
    else match t.streamOf (field c.body 0 8) with
      | none => t.answer c Status.alreadyDone []
      | some _ => t.waitBoundary c)

/-! ### STREAM_SET and STREAM_CLOSE (R518) -/

/-- The masked fields of STREAM_SET. -/
def Stream.setFields (st : Stream) (b : List Byte) : Stream :=
  let m := field b 8 2
  let sp := st.sampling
  { st with
    sampling := { sp with
      temperature := if m.testBit 0 then BitVec.ofNat 32 (field b 16 4) else sp.temperature
      topK := if m.testBit 1 then field b 20 4 else sp.topK
      topP := if m.testBit 2 then BitVec.ofNat 32 (field b 24 4) else sp.topP
      minP := if m.testBit 3 then BitVec.ofNat 32 (field b 28 4) else sp.minP
      seed := if m.testBit 4 then BitVec.ofNat 64 (field b 32 8) else sp.seed }
    replyNode := if m.testBit 5 then nodeField b 40 else st.replyNode
    replyPort := if m.testBit 5 then byteField b 42 else st.replyPort
    maxTokens := if m.testBit 6 then field b 44 4 else st.maxTokens }

/-- Whether a stream has left LIVE and HOLDING for good. -/
def Stream.gone (st : Stream) : Bool := st.draining || st.ended

/-- A boundary's work with its COMMAND record, and the halt or close it leads to. -/
def After.settleCommand (a : After) (code : Nat) : Work :=
  ({ a with work := a.work.commandRecord code } : After).settle

/-- STREAM_SET at its boundary. -/
def runStreamSet (w : Waiting) (k : SlotId) (st : Stream) (s : State) : State :=
  if st.gone then s.finishWaiting w Status.alreadyDone []
  else
    let st1 := st.setFields w.body
    let w1 := (s.work k st1).atBoundary
    let stop := st.req.egress && (field w.body 8 2).testBit 6 && decide (st1.maxTokens ≠ 0) && decide (st1.maxTokens ≤ st.nextIndex)
    let a : After := if stop then w1.drainAt 3 else { work := w1 }
    ((a.settleCommand 0x0202).run s).finishWaiting w Status.ok (leBytes 8 w.due)

/-- An ingress stream put into DRAINING by STREAM_CLOSE: bytes that no stamped chunk holds are discarded, and it closes at
once when nothing is in flight (R121). -/
def Work.drainIngress (w : Work) : After :=
  let w1 := w.drain 4
  let st := w1.st
  { work := { w1 with st := { st with inp := { st.inp with unread := [], segmentOpen := false } } }, close := st.idle }

/-- STREAM_CLOSE at its boundary. -/
def runStreamClose (w : Waiting) (k : SlotId) (st : Stream) (s : State) : State :=
  if st.gone then s.finishWaiting w Status.alreadyDone []
  else
    let w1 := (s.work k st).atBoundary
    let a := if st.req.egress then w1.drainAt 4 else w1.drainIngress
    ((a.settleCommand 0x0203).run s).finishWaiting w Status.ok (leBytes 8 w.due)

/-! ### STREAM_ABORT (R462, R463, R466) -/

/-- Abort a stream at a boundary: it is halted, what is in flight is discarded with its records, and it closes. -/
def Work.abort (w : Work) (reason code : Nat) : Work :=
  let w1 := w.halt reason
  let toks := w1.st.tokens
  let w2 := { w1.atBoundary with st := { w1.atBoundary.st with tokens := [] } }
  let w3 := toks.foldl (fun (v : Work) t =>
    v.audit { kind := 1, index := t.index, outcome := 1, lateMask := t.auditMask false, subject := t.id, epoch := t.epoch }) w2
  let inp := w3.st.inp
  let w4 := { w3 with st := { w3.st with inp := { inp with verdicts := [], unread := [],
                                                           chunks := inp.chunks.map (fun (c : Chunk) => { c with void := true }) } } }
  (w4.commandRecord code).close

/-- STREAM_ABORT at its boundary (R466). -/
def runStreamAbort (w : Waiting) (k : SlotId) (st : Stream) (s : State) : State :=
  match st.state with
  | .closed => (s.count1 0x12 0 4).finishWaiting w Status.alreadyDone (st.closeBody s.aon.node)
  | .halted =>
    let w1 := (s.work k st).abort 12 0x0206
    ((w1.run s).count1 0x12 0 4).finishWaiting w Status.alreadyDone (w1.st.closeBody s.aon.node)
  | _ =>
    let w1 := (s.work k st).abort 12 0x0206
    ((w1.run s).count1 0x12 0 3).finishWaiting w Status.ok (w1.st.closeBody s.aon.node)

/-! ### Host features (R191) -/

/-- The entries of a host feature record: (word, value). -/
def featureEntries (b : List Byte) : List (Nat × Word) :=
  (List.range (field b 8 2)).map (fun j => (field b (16 + 8 * j) 2, BitVec.ofNat 32 (field b (20 + 8 * j) 4)))

/-- An armature counter that raises NTC_ARMATURE (R210). -/
def armatureEvent (pos : Nat) (h : BitVec 48) (index : Nat) : List Effect :=
  let k : CtrKey := ⟨0x0A, 0, pos⟩
  [.count k 1, .notice 7 (k.name ++ handleBytes h ++ leBytes 4 index)]

/-- STREAM_FEATURES: at most 28 entries that the body holds (R191, R516). -/
def featuresFit (c : Cmd) : Bool :=
  let n := field c.body 8 2
  decide (1 ≤ n) && decide (n ≤ 28) && decide (16 + 8 * n ≤ c.len)

/-- HOST_FEATURE_PACKET: a record at port 0xD1 waits for its boundary; one whose entries do not fit is rejected (R191). -/
def takeFeaturePacket (s : State) : State :=
  match s.takeInbox (fun a => decide (a.pkt.hdr.port = 0xD1#8)) with
  | none => s
  | some (a, s1) =>
    let b := a.pkt.payload
    let n := field b 8 2
    let c := a.pkt.hdr.cls.toNat
    if c < 1 ∨ 6 < c then s1
    else match s1.streamOf (field b 0 8) with
      | none => s1.count1 0x14 0 0
      | some (_, st) =>
        if n < 1 ∨ 60 < n ∨ b.length < 16 + 8 * n then s1.effects (armatureEvent 7 st.handle st.lastIndex)
        else
          let w : Waiting := { code := 0x0205, from? := none, accept := a.stamp, order := edgeOrder a.edge,
                               due := boundaryOf a.stamp, body := b }
          { s1 with ctl := { s1.ctl with waiting := insertWaiting w s1.ctl.waiting } }

/-! ### TENANT_BUDGET (R495, R518) -/

/-- A stream whose token commits come before a tenant's budget changes at tick t (R518). -/
def State.tenantOwes (s : State) (tenant t : Nat) : Bool :=
  s.streams.table.any (fun e => decide (e.2.req.tenant = tenant) && e.2.tokens.any (fun x => decide (x.release ≤ t)))

/-- TENANT_BUDGET at its boundary: set, add or disarm. -/
def tenantBudgetBoundary (s : State) : State :=
  match s.dueWaiting 0x0504 with
  | none => s
  | some w =>
    let tenant := field w.body 0 2
    let op := field w.body 2 1
    let n := field w.body 8 8 % 2 ^ 48
    if s.tenantOwes tenant w.due then s
    else
      let cur := aget tenant s.ctl.budgets
      let next := if op = 1 then some n else if op = 2 then cur.map (fun v => min maxCount (v + n)) else none
      let budgets := match next with | some v => aset tenant v s.ctl.budgets | none => aerase tenant s.ctl.budgets
      ({ s with ctl := { s.ctl with budgets := budgets } }).finishWaiting w Status.ok
        (leBytes 8 (next.getD maxCount) ++ leBytes 8 w.due)

/-! ### Meanings -/

/-- STREAM_SET (R80, R518). -/
def execStreamSet (p : MPort) (n : Fin 32) (s : State) : Host.Outcome State Fault Refusal :=
  .next (s.startStream p n 0x0202 48 (fun _ => true))

/-- STREAM_CLOSE (R80, R518). -/
def execStreamClose (p : MPort) (n : Fin 32) (s : State) : Host.Outcome State Fault Refusal :=
  .next (s.startStream p n 0x0203 8 (fun _ => true))

/-- STREAM_FEATURES (R191). -/
def execStreamFeatures (p : MPort) (n : Fin 32) (s : State) : Host.Outcome State Fault Refusal :=
  .next (s.startStream p n 0x0205 16 featuresFit)

/-- STREAM_ABORT (R462). -/
def execStreamAbort (p : MPort) (n : Fin 32) (s : State) : Host.Outcome State Fault Refusal :=
  .next (s.startCmd p n 0x0206 8 (fun c t =>
    match t.streamOf (field c.body 0 8) with
    | none => (t.count1 0x12 0 4).answer c Status.alreadyDone []
    | some _ => t.waitBoundary c))

/-- TENANT_BUDGET (R495): op 1 to 3. -/
def execTenantBudget (p : MPort) (n : Fin 32) (s : State) : Host.Outcome State Fault Refusal :=
  .next (s.startCmd p n 0x0504 16 (fun c t =>
    if 1 ≤ field c.body 2 1 ∧ field c.body 2 1 ≤ 3 then t.waitBoundary c else t.answer c Status.crossref []))

/-- STREAM_SET_BOUNDARY (R80, R518). -/
def execStreamSetBoundary (s : State) : Host.Outcome State Fault Refusal := .next (s.atBoundary 0x0202 runStreamSet)

/-- STREAM_CLOSE_BOUNDARY (R73, R80, R121, R142, R153). -/
def execStreamCloseBoundary (s : State) : Host.Outcome State Fault Refusal := .next (s.atBoundary 0x0203 runStreamClose)

/-- STREAM_ABORT_BOUNDARY (R462, R466). -/
def execStreamAbortBoundary (s : State) : Host.Outcome State Fault Refusal := .next (s.atBoundary 0x0206 runStreamAbort)

/-- HOST_FEATURE_PACKET (R191). -/
def execHostFeaturePacket (s : State) : Host.Outcome State Fault Refusal := .next (takeFeaturePacket s)

/-- TENANT_BUDGET_BOUNDARY (R495, R518). -/
def execTenantBudgetBoundary (s : State) : Host.Outcome State Fault Refusal := .next (tenantBudgetBoundary s)

end Sys2Proof.Machine
end

