-- ==== Sys2Proof/Machine/Contributions.lean ====
section
/-! DEFINITION. Contributions from other gates: the contribution buffer (R82, R83, R285) and the ingress contribution
(R84, R119). -/

namespace Sys2Proof.Machine

/-- Entries of the contribution buffer in use; its capacity is 65,536 (R83). -/
def State.bufferUse (s : State) : Nat := s.streams.buffer.length + s.streams.ingressWaits.length

/-- Add to a counter word of slot k's stream between its boundaries: the next one commits it (R71, R78). -/
def State.streamWord (s : State) (k : SlotId) (i n : Nat) : State :=
  match aget k s.streams.table with
  | none => s
  | some st => s.setStream k (st.owe i n)

/-! ### Probe records (R283, R285) -/

/-- A probe record of 128 bytes. -/
def parseProbe (b : List Byte) (source : NodeId) : ProbeRecord :=
  { id := field b 12 2, source := source, draftPos := field b 19 1, late := fieldBit b 14 2 0, flags := byteField b 22,
    scores := (List.range (min 16 (field b 18 1))).map (fun i => BitVec.ofNat 32 (field b (24 + 4 * i) 4)) }

/-- The policy under which a stream's token of an index is or will be judged. -/
def State.tokenPolicy (s : State) (st : Stream) (index : Nat) : Option Policy :=
  match st.tokens.find? (fun t => decide (t.index = index)) with
  | some t => s.policyByEpoch t.epoch
  | none => s.policyFor st s.now

/-- What a probe contribution meets at its stream: kept, discarded, or discarded as late (R47, R83, R285). -/
inductive Fate where
  | keep
  | discard
  | late
deriving DecidableEq, Repr

/-- The fate of a probe contribution (R46, R47, R83, R285). While `empty` is set R83 does not say what "ahead of `committed_index`" is
measured from: here from 0xFFFF_FFFF, so that index 0 is 1 ahead (log 26). -/
def State.probeFate (s : State) (st : Stream) (index arrival : Nat) (r : ProbeRecord) : Fate :=
  let known := match (s.tokenPolicy st index).bind (fun p => p.probeEntry r.id) with
    | some e => decide (e.sourceNode = r.source)
    | none => false
  let ahead := (index + 2 ^ 32 - st.lastIndex) % 2 ^ 32
  let dup := s.streams.buffer.any (fun c => decide (c.handle = st.handle) && decide (c.index = index) && decide (c.probe.id = r.id))
  if st.ended || !known || decide (512 < ahead) || dup then .discard
  else match st.tokens.find? (fun t => decide (t.index = index)) with
    | some t => if t.inputs.isSome || decide (t.cutoff ≤ arrival) then .late
                else if 65536 ≤ s.bufferUse then .discard else .keep
    | none => if decide (ahead = 0) || decide (index < st.pastHighest) then .late
              else if 65536 ≤ s.bufferUse then .discard else .keep

/-- A probe record reaches the contribution buffer (R83, R284, R285). -/
def State.takeProbe (s : State) (arrival : Nat) (source : NodeId) (b : List Byte) : State :=
  let r := parseProbe b source
  let index := field b 8 4
  match s.streamOf (field b 0 8) with
  | none => s.count1 0x14 0 0
  | some (k, st) =>
    match s.probeFate st index arrival r with
    | .keep => { s with streams := { s.streams with
        buffer := s.streams.buffer ++ [{ handle := st.handle, index := index, arrival := arrival, probe := r }] } }
    | .discard => s.streamWord k 8 1
    | .late => (s.effects (lateDiscard 0x14)).streamWord k 8 1

/-- A command boundary of a handle's stream that is due by tick t and has not come about (R80). -/
def State.commandOwed (s : State) (h t : Nat) : Bool :=
  s.ctl.waiting.any (fun w => decide (w.due ≤ t) && decide (field w.body 0 8 = h)
    && (decide (w.code = 0x0202) || decide (w.code = 0x0203) || decide (w.code = 0x0205) || decide (w.code = 0x0206)))

/-- The whole 128-byte records of a payload. -/
def recordsOf (b : List Byte) : List (List Byte) := (List.range (b.length / 128)).map (fun i => (b.drop (128 * i)).take 128)

/-- PROBE_RECORD_PACKET: the records of a packet at port 0xD2 in their order; one whose handle is all zero is no record. -/
def takeProbePacket (a : Arrival) (s : State) : State :=
  ((recordsOf a.pkt.payload).filter (fun r => decide (field r 0 8 ≠ 0))).foldl
    (fun t r => t.takeProbe a.stamp a.pkt.hdr.source r) s

/-! ### Ingress contributions (R84, R119) -/

/-- The body of an ingress contribution. -/
def parseIngress (b : List Byte) : IngressRecord :=
  { late := fieldBit b 14 2 0, verdict := field b 16 1, flags := byteField b 17, segments := field b 18 2,
    tokens := field b 20 4, replacements := field b 24 4, escaped := field b 28 4,
    tags := (List.range 8).map (fun i => BitVec.ofNat 16 (field b (32 + 2 * i) 2)) }

/-- The cutoff of a stream's ingress contribution, when its policy declares one (R84). -/
def State.ingressCutoff (s : State) (st : Stream) : Option Nat :=
  ((s.policyOf st).bind (fun p => p.entryFor 0x15 true)).map (fun e => st.openStamp + e.readyBy)

/-- Whether an egress stream claims an ingress handle, until it is CLOSED (R84). -/
def Stream.claims (st : Stream) (h : Nat) : Bool :=
  st.req.egress && decide (st.req.ingressHandle.toNat = h) && decide (st.state ≠ .closed) && decide (st.state ≠ .free)

/-- An ingress contribution at one stream that claims it: it arrives before the cutoff, or it is a late result. -/
def State.giveIngress (s : State) (k : SlotId) (arrival : Nat) (r : IngressRecord) : State :=
  match aget k s.streams.table with
  | none => s
  | some st =>
    let inTime := match s.ingressCutoff st with | some c => decide (arrival < c) | none => true
    if st.ingress.isNone && inTime then s.setStream k { st with ingress := some r, ingressArrival := some arrival }
    else (s.effects (lateDiscard 0x15)).streamWord k 8 1

/-- An ingress contribution arrives: every egress stream that claims it takes it, and it is kept for later opens; a second
one of a handle is discarded, as is one that finds the buffer full (R83, R84). -/
def State.takeIngress (s : State) (arrival : Nat) (b : List Byte) : State :=
  let h := field b 0 8
  let claimers := (s.streams.table.filter (fun e => e.2.claims h)).map (fun e => e.1)
  let again := s.streams.ingressWaits.any (fun w => decide (w.handle.toNat = h))
  if again || decide (65536 ≤ s.bufferUse) then claimers.foldl (fun t k => t.streamWord k 8 1) s
  else
    let w : IngressWait := { handle := BitVec.ofNat 48 h, arrival := arrival, claimed := !claimers.isEmpty, body := parseIngress b }
    claimers.foldl (fun t k => t.giveIngress k arrival w.body)
      { s with streams := { s.streams with ingressWaits := s.streams.ingressWaits ++ [w] } }

/-- Whether an arrival is an ingress contribution: its identifier is that of a 0x15 entry of a policy here (log 26). -/
def State.isIngress (s : State) (b : List Byte) : Bool :=
  s.policies.any (fun p => match p.entryFor 0x15 true with | some e => decide (e.contributionId = field b 12 2) | none => false)

/-- Whether contributions arrive at a port: 0xD2, or the port of the active policy's role table (log 5, log 26). -/
def State.contributionPort (s : State) (port : Byte) : Bool :=
  decide (port = 0xD2#8) || (match s.roleTable with | some r => decide (r.contributionPort = port) | none => false)

/-- CONTRIBUTION_ARRIVE: the oldest packet at a contribution port: an ingress contribution, or probe records. -/
def contributionArrive (s : State) : State :=
  match s.takeInbox (fun a => s.contributionPort a.pkt.hdr.port) with
  | none => s
  | some (a, s1) =>
    if s1.isIngress a.pkt.payload then s1.takeIngress a.stamp a.pkt.payload else takeProbePacket a s1

/-- An ingress contribution's late default (R55, R84). -/
def ingressDefault (failOpen : Bool) : IngressRecord :=
  { late := true, verdict := if failOpen then 0 else 1, flags := 0#8, segments := 0, tokens := 0, replacements := 0,
    escaped := 0, tags := [] }

/-- Whether a contribution for a handle stamped before tick t has arrived and not been taken yet: it counts (R46). -/
def State.contributionBefore (s : State) (h t : Nat) : Bool :=
  (s.plane.inbox ++ s.plane.edgeWait).any (fun a => s.contributionPort a.pkt.hdr.port && decide (a.stamp < t)
    && (decide (field a.pkt.payload 0 8 = h) || (recordsOf a.pkt.payload).any (fun r => decide (field r 0 8 = h))))

/-- Whether a stream's ingress verdict misses its cutoff now (R84): one stamped before the cutoff is taken first (R46). -/
def State.ingressOverdue (s : State) (st : Stream) : Bool :=
  st.req.egress && decide (st.req.ingressHandle ≠ 0#64) && st.ingress.isNone && !st.ended &&
    (match s.ingressCutoff st with
     | some c => decide (c ≤ s.now) && !s.contributionBefore st.req.ingressHandle.toNat c
     | none => false)

/-- INGRESS_CONTRIBUTION_CUTOFF: the first stream whose ingress verdict has not arrived takes the late default, one of its word 7
(R55, R57, R71). -/
def ingressContributionCutoff (s : State) : State :=
  match s.streams.table.find? (fun e => s.ingressOverdue e.2) with
  | none => s
  | some (k, st) =>
    let failOpen := ((s.policyOf st).map (fun p => p.failOpenFor 0x15 true)).getD false
    (s.setStream k ({ st with ingress := some (ingressDefault failOpen) }.owe 7 1)).effects (lateEvent 0x15 st.handle 0)

/-- INGRESS_UNCLAIMED_TIMEOUT: contributions kept for 16,777,216 ticks leave; one that no stream claimed is counted. -/
def ingressUnclaimed (s : State) : State :=
  let due := s.streams.ingressWaits.filter (fun w => decide (w.arrival + 16777216 ≤ s.now))
  let lost := (due.filter (fun w => !w.claimed)).length
  let s1 := { s with streams := { s.streams with
    ingressWaits := s.streams.ingressWaits.filter (fun w => !decide (w.arrival + 16777216 ≤ s.now)) } }
  if lost = 0 then s1 else s1.countN 0x14 0 3 lost

/-! ### Meanings -/

/-- CONTRIBUTION_ARRIVE (R38, R82 to R84). -/
def execContributionArrive (s : State) : Host.Outcome State Fault Refusal := .next (contributionArrive s)

/-- PROBE_RECORD_PACKET (R285). -/
def execProbeRecordPacket (s : State) : Host.Outcome State Fault Refusal :=
  .next (match s.takeInbox (fun a => decide (a.pkt.hdr.port = 0xD2#8) && !s.isIngress a.pkt.payload) with
    | none => s
    | some (a, s1) => takeProbePacket a s1)

/-- INGRESS_CONTRIBUTION_CUTOFF (R55, R84). -/
def execIngressContributionCutoff (s : State) : Host.Outcome State Fault Refusal := .next (ingressContributionCutoff s)

/-- INGRESS_UNCLAIMED_TIMEOUT (R84). -/
def execIngressUnclaimedTimeout (s : State) : Host.Outcome State Fault Refusal := .next (ingressUnclaimed s)

end Sys2Proof.Machine
end

