-- ==== Sys2Proof/Machine/Awl.lean ====
section
/-! DEFINITION. The awl: scanning a token's or chunk's bytes (R170, R174 to R176), instances across a cast (R178), items and
lanes (R171 to R173, R182) and re-reads (R179). A scan is done at the append on working copies; the lanes say when its
result is ready. -/

namespace Sys2Proof.Machine

/-! ### Scanning (R170, R174 to R176) -/

/-- A chunk's place for the awl: its channel, and whether it is the first of its segment. -/
structure ChunkPlace where
  channel : Nat
  firstOfSegment : Bool
deriving DecidableEq, Repr

end Sys2Proof.Machine

namespace Sys2Proof
open Machine

/-- Whether an automaton scans a chunk's channel (R165, R170). -/
def Automaton.scans (a : Automaton) (c : Option ChunkPlace) : Bool :=
  match c with
  | none => true
  | some x => if a.channels = 1 then decide (x.channel ≠ 0) else if a.channels = 2 then decide (x.channel = 0) else true

end Sys2Proof

namespace Sys2Proof.Machine

/-- What a scan gives: the stream with its working instances, the results and the instances after it, and what restarted. -/
structure AwlScan where
  stream : Stream
  results : List AwlResult
  insts : List AwlInst
  restarts : Nat
deriving DecidableEq, Repr

/-- An instance at its first item under a new policy: kept and translated, or restarted (R178). -/
def moveInst (t : AwlTables) (slot : SlotId) (old : Option (DWord × Nat)) (new : Option Automaton) (i : AwlInst) :
    AwlInst × Bool :=
  match new with
  | none => ({}, false)
  | some a =>
    match old with
    | some (c, start) =>
      if c = a.contentId then
        ({ i with state := stateValue (a.lane t.both slot.val) (a.start + stateOffset i.state - start) }, false)
      else ({ state := a.startValue t.both slot.val }, true)
    | none => ({ state := a.startValue t.both slot.val }, true)

/-- The instances of a stream as a policy's item finds them, with which of them restarted (R178). -/
def Stream.awlCut (st : Stream) (p : Policy) (slot : SlotId) : Stream × List Bool :=
  if p.epoch = st.laneEpoch then (st, [])
  else
    match p.tables.awl with
    | none => ({ st with laneEpoch := p.epoch, workAwl := [], awlBound := [] }, [])
    | some t =>
      let moved := (List.range 8).map (fun n =>
        moveInst t slot ((st.awlBound[n]?).getD none) (t.automatonAt st.awlSet n st.req.egress) ((st.workAwl[n]?).getD {}))
      ({ st with laneEpoch := p.epoch, workAwl := moved.map (fun m => m.1),
                 awlBound := p.awlBound st.awlSet st.req.egress }, moved.map (fun m => m.2))

/-- One position's scan of an item. -/
def scanPosition (t : AwlTables) (slot : SlotId) (a : Option Automaton) (place : Option ChunkPlace) (i : AwlInst)
    (restarted : Bool) (bytes : List PosByte) : AwlResult × AwlInst :=
  match a with
  | none => ({}, {})
  | some a =>
    if !a.scans place then ({}, i)
    else
      let back := match place with | some x => x.firstOfSegment && a.segmentReset | none => false
      let c := scanBytes a t (if back then { i with state := a.startValue t.both slot.val } else i) bytes
      (c.result restarted, { state := c.value, lastEnd := c.lastEnd, pending := c.pending })

/-- Scan an item of a stream under a policy. -/
def Stream.scanAwl (st : Stream) (p : Policy) (slot : SlotId) (place : Option ChunkPlace) (bytes : List PosByte) : AwlScan :=
  let cut := st.awlCut p slot
  match p.tables.awl with
  | none => { stream := cut.1, results := List.replicate 8 {}, insts := cut.1.workAwl, restarts := 0 }
  | some t =>
    let r := (List.range 8).map (fun n =>
      scanPosition t slot (t.automatonAt cut.1.awlSet n st.req.egress) place ((cut.1.workAwl[n]?).getD {})
        ((cut.2[n]?).getD false) bytes)
    let insts := r.map (fun x => x.2)
    { stream := { cut.1 with workAwl := insts }, results := r.map (fun x => x.1), insts := insts,
      restarts := (cut.2.filter (fun b => b)).length }

/-- A changed stop automaton is rebuilt by the rescan of R146 before the first token under the new policy (R178). -/
def Stream.stopCut (st : Stream) (e : Env) (p : Policy) : Stream :=
  if p.epoch = st.laneEpoch ∨ !st.req.egress then st
  else
    let tail := newest 255 st.work.ring
    { st with work := { st.work with
      stopLen := stopPrefix e.stop.set tail
      stopState := tail.foldl (fun v b => (e.stop.step v b).1) (e.stop.start e.slot.val) } }

/-! ### Lanes (R171, R172) -/

/-- A lane. -/
def State.awlLane (s : State) (h : HalfId) (l : Fin 256) : AwlLane := (aget (h, l) s.eng.awl).getD {}

/-- Replace a lane. -/
def State.setAwlLane (s : State) (h : HalfId) (l : Fin 256) (v : AwlLane) : State :=
  { s with eng := { s.eng with awl := aset (h, l) v s.eng.awl } }

/-- Bytes of items. -/
def itemBytes (l : List AwlItem) : Nat := l.foldl (fun n i => n + i.bytes.length) 0

/-- Insert an item by its stamp and slot, behind equal ones (R172); the items it comes before are held behind its bytes (R182). -/
def insertItem (i : AwlItem) : List AwlItem → List AwlItem
  | [] => [i]
  | x :: xs =>
    if i.stamp < x.stamp ∨ (i.stamp = x.stamp ∧ i.slot < x.slot) then
      i :: (x :: xs).map (fun (y : AwlItem) => { y with ahead := y.ahead + i.bytes.length })
    else x :: insertItem { i with ahead := i.ahead + x.bytes.length } xs

/-- Put an item in the queue of its instance's lane: what is in position there is held ahead of it. -/
def State.pushItem (s : State) (h : HalfId) (lane : Nat) (i : AwlItem) : State :=
  let l : Fin 256 := ⟨lane % 256, by omega⟩
  let v := s.awlLane h l
  s.setAwlLane h l { v with queue := insertItem { i with ahead := itemBytes v.inPlace } v.queue }

/-- The items of a token or chunk: (lane, item) for each instance that scans it, and position 8 for the stop automaton of an
egress stream (R169, R170, R172). -/
def Policy.awlItems (p : Policy) (slot : SlotId) (st : Stream) (place : Option ChunkPlace) (i : AwlItem) : List (Nat × AwlItem) :=
  match p.tables.awl with
  | none => []
  | some t =>
    let pats := (List.range 8).filterMap (fun n =>
      match t.automatonAt st.awlSet n st.req.egress with
      | some a => if a.scans place then some (a.lane t.both slot.val, { i with position := n }) else none
      | none => none)
    let stop := if st.req.egress then
        match t.stopAutomaton st.req.stopSet with
        | some a => [(a.lane t.both slot.val, { i with position := 8 })]
        | none => []
      else []
    pats ++ stop

/-- Queue a token's or chunk's items on the lanes of the half that carries its stream's instances (R169, R180). -/
def State.pushItems (s : State) (p : Policy) (slot : SlotId) (items : List (Nat × AwlItem)) : State :=
  items.foldl (fun t x => t.pushItem (p.awlHalf slot) x.1 x.2) s

/-- Raise a peak, a counter that holds the greatest value seen (R182, R235). -/
def State.raisePeak (s : State) (k : CtrKey) (n : Nat) : State :=
  { s with ctl := { s.ctl with counters := aset k { s.counter k with count := max (s.counter k).count n } s.ctl.counters } }

/-- AWL_ITEM_ADMIT: the first queued item enters a free position, once its instance's previous item has left; it advances by a byte
every 4 cycles, each one tick long (R5, R171, R172, R182). -/
def awlAdmit (h : HalfId) (l : Fin 256) (s : State) : State :=
  let v := s.awlLane h l
  match v.queue with
  | [] => s
  | i :: rest =>
    if 4 ≤ v.inPlace.length ∨ v.inPlace.any (fun x => decide (x.slot = i.slot) && decide (x.position = i.position)) then s
    else
      let i' : AwlItem := { i with due := s.now + 4 * i.bytes.length }
      (s.setAwlLane h l { queue := rest, inPlace := v.inPlace ++ [i'] }).raisePeak ⟨9, halfCode h, l.val⟩ i.ahead

/-! ### Results (R173, R175) -/

/-- A token's awl contribution after one more item: ready with the last one, when that is before the cutoff (R40, R46). -/
def Token.awlDone (t : Token) (now : Nat) : Token × Bool :=
  if t.awlLeft ≠ 1 then ({ t with awlLeft := t.awlLeft - 1 }, false)
  else
    let ok := decide (now < t.cutoff) && t.inputs.isNone && !t.awl.any (fun r => r.late)
    ({ t with awlLeft := 0, awlReady := ok }, !ok)

/-- A chunk's awl contribution after one more item; it is late when its segment's verdict has gone on without it. -/
def Chunk.awlDone (c : Chunk) (v : Option SegVerdict) (now : Nat) : Chunk × Bool :=
  if c.awlLeft ≠ 1 then ({ c with awlLeft := c.awlLeft - 1 }, false)
  else
    let past := match v with | some x => x.inputs.isSome || decide (x.cutoff ≤ now) | none => false
    let ok := !past && !c.awl.any (fun r => r.late)
    ({ c with awlLeft := 0, awlReady := ok }, !ok)

/-- The result of an item reaches its token or chunk; the flag says that the contribution it completes is late. -/
def Stream.itemDone (st : Stream) (i : AwlItem) (now : Nat) : Stream × Bool :=
  if i.ingress then
    match st.inp.chunks.find? (fun c => decide (c.ordinal = i.ordinal)) with
    | none => (st, true)
    | some c =>
      let r := c.awlDone (st.inp.verdicts.find? (fun v => decide (v.lastChunk = c.ordinal))) now
      ({ st with inp := { st.inp with chunks := st.inp.chunks.map (fun x => if x.ordinal = i.ordinal then r.1 else x) } }, r.2)
  else
    match st.tokens.find? (fun t => decide (t.index = i.ordinal)) with
    | none => (st, true)
    | some t =>
      let r := t.awlDone now
      ({ st with tokens := st.tokens.map (fun x => if x.index = i.ordinal then r.1 else x) }, r.2)

/-- The matches an item reports. -/
def Stream.itemHits (st : Stream) (i : AwlItem) : Nat :=
  if i.ingress then
    ((st.inp.chunks.find? (fun c => decide (c.ordinal = i.ordinal))).bind (fun c => c.awl[i.position]?)).elim 0 (fun r => r.hits)
  else if i.position = 8 then
    (match st.work.found with | some f => if f.index = i.ordinal then 1 else 0 | none => 0)
  else
    ((st.tokens.find? (fun t => decide (t.index = i.ordinal))).bind (fun t => t.awl[i.position]?)).elim 0 (fun r => r.hits)

/-- The item in position that leaves first (R171). -/
def AwlLane.first (v : AwlLane) : Option AwlItem :=
  v.inPlace.foldl (fun b i => match b with | none => some i | some x => if i.due < x.due then some i else some x) none

/-- AWL_ITEM_DONE: the item in position that comes to its end first finishes its last byte; the four positions advance on their
own (R171, R175, R182). -/
def awlDone (h : HalfId) (l : Fin 256) (s : State) : State :=
  let v := s.awlLane h l
  match v.first with
  | none => s
  | some i =>
    let s1 := s.setAwlLane h l { v with inPlace := v.inPlace.erase i }
    match aget i.slot s1.streams.table with
    | none => s1
    | some st =>
      let r := st.itemDone i s1.now
      let hits := st.itemHits i
      (s1.setStream i.slot r.1).effects (
        (if i.bytes.isEmpty then [] else [Effect.count ⟨0x08, 0, 0⟩ i.bytes.length]) ++ [Effect.count ⟨0x08, 0, 1⟩ 1]
          ++ (if hits = 0 then [] else [Effect.count ⟨0x08, 0, 2⟩ hits]) ++ (if r.2 then lateDiscard 0x11 else []))

/-! ### The detokenizer's contribution (R172) -/

/-- DETOKENIZER_CONTRIBUTION_READY: contribution 0x10 of the stream's first token that lacks it is ready, or late after the
cutoff or where its tables are poisoned (R470); the token's items enter their lanes' queues. -/
def detokReady (k : SlotId) (s : State) : State :=
  match aget k s.streams.table with
  | none => s
  | some st =>
    match st.tokens.find? (fun t => t.detok.isNone && !(st.ended)) with
    | none => s
    | some t =>
      let bad := s.tablePoison 0x10 st.handle t.index
      let before := decide (s.now < t.cutoff) && t.inputs.isNone
      let inTime := before && bad.isNone
      let p? := s.policyByEpoch t.epoch
      let item : AwlItem := { slot := k, ingress := false, ordinal := t.index, position := 0, stamp := t.stamp,
                              bytes := t.bytes.zipIdx.map (fun (b, i) => (b, t.start + i)) }
      let items := (p?.map (fun p => p.awlItems k st none item)).getD []
      let n := items.length
      let t' : Token := { t with detok := some inTime, awlLeft := n, awlReady := decide (n = 0) && inTime }
      let s1 := s.setStream k { st with tokens := st.tokens.map (fun x => if x.index = t.index then t' else x) }
      let s2 := s1.effects (s.tableEffects bad ++ if before then [] else lateDiscard 0x10)
      match p? with
      | some p => s2.pushItems p k items
      | none => s2

/-! ### Re-reads (R179) -/

/-- The place of a chunk of a stream for the awl: its channel, and whether it is the first of its segment that is screened. -/
def Ingress.place (inp : Ingress) (c : Chunk) : ChunkPlace :=
  { channel := c.channel,
    firstOfSegment := !inp.chunks.any (fun x => decide (x.ordinal < c.ordinal) && decide (x.segment = c.segment) && !x.void) }

/-- What carries an instance from item to item while later items are scanned again: its state and the automaton it stands in. -/
abbrev Rescan := Option (AwlInst × Option (DWord × Nat))

/-- Scan one later item again from a rescan's instance, translated where the item runs under another policy (R178). -/
def rescanItem (slot : SlotId) (tables : Option (AwlTables × Automaton)) (place : Option ChunkPlace) (position : Nat)
    (bytes : List PosByte) (old : List AwlResult × List AwlInst) (r : Rescan) : (List AwlResult × List AwlInst) × Rescan :=
  match r, tables with
  | some (inst, bound), some (t, a) =>
    let m := if bound = some (a.contentId, a.start) then (inst, false) else moveInst t slot bound (some a) inst
    let x := scanPosition t slot (some a) place m.1 (((old.1[position]?).getD {}).restarted) bytes
    ((old.1.set position x.1, old.2.set position x.2), some (x.2, some (a.contentId, a.start)))
  | _, _ => (old, r)

/-- The positions of a token's bytes. -/
def Token.posBytes (t : Token) : List PosByte := t.bytes.zipIdx.map (fun (b, i) => (b, t.start + i))

/-- Position `pos` of an item of a stream fails both reads: its result is late and its instance is at its start state for
the next item, so the items scanned after it are scanned again from there. -/
def Stream.failItem (st : Stream) (i : AwlItem) (tables : Nat → Option (AwlTables × Automaton)) : Stream :=
  let mark := fun (rs : List AwlResult) => rs.set i.position { ((rs[i.position]?).getD {}) with late := true }
  let begin' := fun (epoch : Nat) (insts : List AwlInst) =>
    let o := tables epoch
    (({ ((insts[i.position]?).getD {}) with state := (o.map (fun x => x.2.startValue x.1.both i.slot.val)).getD 0#24 } : AwlInst),
      o.map (fun x => (x.2.contentId, x.2.start)))
  let work := fun (r : Rescan) => match r with | some x => st.workAwl.set i.position x.1 | none => st.workAwl
  if i.ingress then
    let r := st.inp.chunks.foldl (fun (acc : List Chunk × Rescan) c =>
      if c.ordinal = i.ordinal then
        let b := begin' c.epoch c.awlAfter
        (acc.1 ++ [{ c with awl := mark c.awl, awlAfter := c.awlAfter.set i.position b.1 }], some b)
      else if c.awlAfter.isEmpty then (acc.1 ++ [c], acc.2)
      else
        let x := rescanItem i.slot (tables c.epoch) (some (st.inp.place c)) i.position c.code.bytes (c.awl, c.awlAfter) acc.2
        (acc.1 ++ [{ c with awl := x.1.1, awlAfter := x.1.2 }], x.2)) ([], none)
    { st with inp := { st.inp with chunks := r.1 }, workAwl := work r.2 }
  else
    let r := st.tokens.foldl (fun (acc : List Token × Rescan) c =>
      if c.index = i.ordinal then
        let b := begin' c.epoch c.awlAfter
        (acc.1 ++ [{ c with awl := mark c.awl, awlAfter := c.awlAfter.set i.position b.1 }], some b)
      else
        let x := rescanItem i.slot (tables c.epoch) none i.position c.posBytes (c.awl, c.awlAfter) acc.2
        (acc.1 ++ [{ c with awl := x.1.1, awlAfter := x.1.2 }], x.2)) ([], none)
    { st with tokens := r.1, workAwl := work r.2 }

/-- The stop automaton of an item fails both reads: the contribution is late, and the automaton is at its start state for the next
token, so the text of the tokens after it is scanned for stop strings again from there. -/
def Stream.failStop (st : Stream) (c : StopCtx) (i : AwlItem) : Stream :=
  let r := st.tokens.foldl (fun (acc : List Token × Option TextState) t =>
    if t.index = i.ordinal then
      (acc.1 ++ [{ t with awl := t.awl.map (fun x => { x with late := true }) }],
        some { t.textAfter with stopState := c.start i.slot.val })
    else match acc.2 with
      | some x =>
        let y := (t.bytes.foldl (TextState.putByte c t.index) (x, 0)).1
        let z : TextState := { y with carry := t.textAfter.carry, carryHold := t.textAfter.carryHold }
        (acc.1 ++ [{ t with textAfter := z }], some z)
      | none => (acc.1 ++ [t], none)) ([], none)
  { st with tokens := r.1, work := r.2.getD st.work }

/-- Whether the other half's copy of an awl table can be reached (R483). -/
def State.otherCopy (s : State) : Bool := decide (0 < s.rel.weltMem)

/-- An item whose entry was read again stays 96 cycles longer in its position. -/
def AwlLane.delay (v : AwlLane) (i : AwlItem) : AwlLane :=
  { v with inPlace := v.inPlace.map (fun x => if x = i then { x with due := x.due + 96 } else x) }

/-- AWL_REREAD: the item that leaves its position next reads an entry from the other half's copy, counted and noticed when that copy
can be reached; `good` is false when the other word is uncorrectable or poisoned too (R179, R182, R183). The command does not say
at which byte: the row offset that the notice latches is a free value (log 7). -/
def awlReread (h : HalfId) (l : Fin 256) (good : Bool) (s : State) : State :=
  match (s.awlLane h l).first with
  | none => s
  | some i =>
    match aget i.slot s.streams.table with
    | none => s
    | some st =>
      let k : CtrKey := ⟨0x08, 0, 4⟩
      let row := (Config.freeWord s.freeUse).toNat % 65536
      let s1 := if s.otherCopy then
          (({ s with freeUse := s.freeUse + 1 }).setAwlLane h l ((s.awlLane h l).delay i)).effects [.count k 1,
            .notice 6 (leBytes 1 (halfCode h) ++ leBytes 1 l.val ++ handleBytes st.handle ++ leBytes 2 row)]
        else s
      let tables := fun (e : Nat) => ((s.policyByEpoch e).bind (fun p => p.tables.awl)).bind (fun t =>
        (t.automatonAt st.awlSet i.position st.req.egress).map (fun a => (t, a)))
      if good && s.otherCopy then s1
      else if i.position = 8 then s1.setStream i.slot (st.failStop (stopCtx (s.policyOf st) st.req.stopSet) i)
      else s1.setStream i.slot (st.failItem i tables)

/-! ### Meanings -/

/-- AWL_ITEM_ADMIT (R171, R172, R182). -/
def execAwlItemAdmit (h : HalfId) (l : Fin 256) (s : State) : Host.Outcome State Fault Refusal := .next (awlAdmit h l s)

/-- AWL_ITEM_DONE (R173, R175, R182). -/
def execAwlItemDone (h : HalfId) (l : Fin 256) (s : State) : Host.Outcome State Fault Refusal := .next (awlDone h l s)

/-- AWL_REREAD (R179, R183). -/
def execAwlReread (h : HalfId) (l : Fin 256) (good : Bool) (s : State) : Host.Outcome State Fault Refusal :=
  .next (awlReread h l good s)

/-- DETOKENIZER_CONTRIBUTION_READY (R172). -/
def execDetokenizerContributionReady (k : SlotId) (s : State) : Host.Outcome State Fault Refusal := .next (detokReady k s)

end Sys2Proof.Machine
end

