-- ==== Sys2Proof/Machine/Armature.lean ====
section
/-! DEFINITION. The armature: samples (R184, R186), features (R187 to R195), trees and ensembles (R197 to R201), results
(R204, R205) and casts (R206). -/

namespace Sys2Proof.Machine

/-! ### What a sample reads (R188) -/

/-- The inputs of one sample. -/
structure SampleInput where
  ids : List Nat
  bytes : Nat
  committed : Nat
  counters : List (Nat × Counter)
  acc : List (Nat × Word)
  awl : List (Option (AwlResult × Nat))
  segment : Option SegmentCounts
  probes : List ProbeRecord
  probeDefault : Nat → Word
  ingress : Option IngressRecord
  ingressMissed : Bool

/-- A source's value: an integer, an FP32 pattern, or missing. -/
inductive SourceValue where
  | int (n : Nat)
  | fp (x : Word)
  | missing
deriving DecidableEq, Repr

/-- A NaN that stands for a missing numeric value (R189). -/
def missingNum : Word := canonNaN
/-- The missing categorical value (R189). -/
def missingCat : Word := 0xFFFFFFFF#32

/-- A bit as an integer source. -/
def SourceValue.bit (b : Bool) : SourceValue := .int (if b then 1 else 0)

/-- An awl feature (R176, R188 kind 3, R190). -/
def awlFeature (awl : List (Option (AwlResult × Nat))) (index : Nat) : SourceValue :=
  let g := index % 64
  match (awl[index / 64]?).getD none with
  | none => .missing
  | some (r, since) =>
    if g = 0 then .int r.hits
    else if g = 1 then .bit r.pending
    else if g = 2 then .int since
    else if 32 ≤ g then .bit (r.groups.getLsbD (g - 32))
    else .missing

/-- A skiver segment feature (R99, R188 kind 4). -/
def segmentFeature (c : SegmentCounts) (index : Nat) : SourceValue :=
  if index = 0 then .int c.replaced
  else if index = 1 then .int c.escaped
  else if index = 2 then .int c.controls
  else if index = 3 then .int c.splits
  else if index = 4 then .bit c.truncated
  else if index = 5 then .bit c.demoted
  else .missing

/-- An ingress contribution's feature (R188 kind 7). -/
def ingressFeature (r : IngressRecord) (index : Nat) : SourceValue :=
  if index = 0 then .int r.verdict
  else if index = 1 then .int r.tokens
  else if index = 2 then .int r.replacements
  else if index = 3 then .int r.escaped
  else if index = 4 then .bit (r.flags.getLsbD 0)
  else if index = 5 then .bit (r.flags.getLsbD 1)
  else .missing

/-- The probe record of a contribution identifier. -/
def SampleInput.probe (x : SampleInput) (cid : Nat) : Option ProbeRecord := x.probes.find? (fun r => decide (r.id = cid))

/-- A source's value before any operation (R188). -/
def SampleInput.source (x : SampleInput) (e : FeatureEntry) : SourceValue :=
  let i := e.srcIndex
  match e.srcKind with
  | 0 => if i = 0 then (match x.ids.head? with | some n => .int n | none => .missing)
         else if i = 1 then .int x.bytes
         else if i = 2 then .int x.committed
         else .missing
  | 1 => .int ((aget i x.counters).getD ⟨0, false⟩).count
  | 2 => .fp ((aget i x.acc).getD 0#32)
  | 3 => awlFeature x.awl i
  | 4 => match x.segment with | some c => segmentFeature c i | none => .missing
  | 5 => .fp ((aget i x.acc).getD 0#32)
  | 6 => match x.probe i with | some r => .fp ((r.scores[e.field]?).getD 0#32) | none => .fp (x.probeDefault i)
  | 7 => match x.ingress with | some r => ingressFeature r i | none => .missing
  | _ => .missing

/-! ### Operations (R189, R192 to R195) -/

/-- A value as a numeric one (R189). -/
def SourceValue.num : SourceValue → Word
  | .int n => f32Round false n 0
  | .fp x => x
  | .missing => missingNum

/-- A value as a category code (R189). -/
def SourceValue.cat : SourceValue → Word
  | .int n => if n ≤ 255 then BitVec.ofNat 32 n else missingCat
  | .fp x => if x.toNat ≤ 255 then x else missingCat
  | .missing => missingCat

end Sys2Proof.Machine

namespace Sys2Proof
open Machine

/-- Whether an entry's operation reads its operand as a category code: CROSS, and PASS or ACCUMULATE with a categorical
output. -/
def FeatureEntry.readsCat (e : FeatureEntry) : Bool := decide (e.op = 3) || ((decide (e.op = 0) || decide (e.op = 4)) && e.categorical)

/-- Whether an entry's output is categorical. -/
def FeatureEntry.catOut (e : FeatureEntry) : Bool := decide (e.op = 3) || e.categorical

end Sys2Proof

namespace Sys2Proof.Machine

/-- The features so far: each with whether it is categorical. -/
abbrev Features := List (Word × Bool)

/-- Feature n as an operand of the class wanted. -/
def featureAs (fs : Features) (n : Nat) (cat : Bool) : Word :=
  match fs[n]? with
  | none => if cat then missingCat else missingNum
  | some (w, isCat) =>
    if isCat then (if cat then w else if w = missingCat then missingNum else f32Round false w.toNat 0)
    else (if cat then (if w.toNat ≤ 255 then w else missingCat) else w)

/-- Whether a word is missing in its class. -/
def isMissing (w : Word) (cat : Bool) : Bool := if cat then decide (w = missingCat) else f32IsNaN w

/-- A host word read by an entry is a data error: a NaN, or a code with bits 31:8 set (R192). -/
def SampleInput.hostError (x : SampleInput) (e : FeatureEntry) : Bool :=
  decide (e.srcKind = 5) && !e.inputIsFeature &&
    (let w := (aget e.srcIndex x.acc).getD 0#32
     if e.readsCat then decide (255 < w.toNat) else f32IsNaN w)

/-- An edge table's count of edges at or below a value (R194, R196). -/
def binOf (edges : List Word) (m : Nat) (x : Word) : Nat := ((edges.take m).filter (fun k => !(f32Key x).ult k)).length

/-- One entry's value (R194). -/
def featureValue (edges : List (List Word)) (x : SampleInput) (fs : Features) (e : FeatureEntry) : Word :=
  let cat := e.readsCat
  let v := if e.inputIsFeature then featureAs fs (e.srcIndex % 1024) cat
    else if cat then (x.source e).cat else (x.source e).num
  let miss := if e.catOut then missingCat else missingNum
  match e.op with
  | 1 => if f32IsNaN v then miss else f32Add (f32Mul e.a v) e.b
  | 2 => if f32IsNaN v then miss
         else
           let n := binOf ((edges[e.a.toNat]?).getD []) e.b.toNat v
           if e.categorical then BitVec.ofNat 32 n else f32Round false n 0
  | 3 =>
    let y := featureAs fs e.a.toNat true
    if v = missingCat ∨ y = missingCat then missingCat else v * e.b + y
  | _ => v

/-- A sample's features, the accumulator words it writes, and whether a host word is a data error (R187, R192, R195). -/
structure Front where
  feats : Features := []
  writes : List (Nat × Word) := []
  error : Bool := false
deriving DecidableEq, Repr

/-- Evaluate the feature plan. -/
def evalPlan (edges : List (List Word)) (x : SampleInput) (plan : List FeatureEntry) : Front :=
  plan.foldl (fun (f : Front) e =>
    let v := featureValue edges x f.feats e
    let old := (aget e.accWord x.acc).getD 0#32
    let writes := if e.op = 4 ∧ !isMissing v e.catOut ∧ e.accWord < 240 then
        f.writes ++ [(e.accWord, withFreeNaN e.a old v (f32Add (f32Mul e.a old) v))]
      else f.writes
    { feats := f.feats ++ [(v, e.catOut)], writes := writes, error := f.error || x.hostError e }) {}

/-! ### Trees and ensembles (R197 to R201) -/

/-- What a traversal gives: its leaf, the nodes it read and whether it met a missing value and followed `default_right`; of an
ensemble or sample, their sums (R198). -/
structure Walk where
  leaf : Word := 0#32
  reads : Nat := 0
  defaults : Nat := 0
deriving DecidableEq, Repr

/-- Walk a tree from a node; the fuel is the greatest depth (R198, R199). -/
def walkTree (nodes : List (Nat × TreeNode)) (bitmaps : List (BitVec 256)) (fs : Features) : Nat → Nat → Walk → Walk
  | 0, _, w => w
  | f + 1, n, w =>
    let d := (aget n nodes).getD ⟨0, 0, false, 2, 0, 0#32⟩
    let w1 := { w with reads := w.reads + 1 }
    if d.kind = 2 ∨ d.kind = 3 then { w1 with leaf := d.operand }
    else
      let cat := decide (d.kind = 1)
      let v := featureAs fs d.feature cat
      if isMissing v cat then
        walkTree nodes bitmaps fs f (if d.defaultRight then d.right else d.left) { w1 with defaults := 1 }
      else
        let right := if cat then ((bitmaps[d.operand.toNat]?).getD 0#256).getLsbD v.toNat else !(f32Key v).ult d.operand
        walkTree nodes bitmaps fs f (if right then d.right else d.left) w1

/-- An ensemble's output: its sum in tree order, then its link (R201), with the reads and default paths of its trees. -/
def runEnsemble (t : ArmatureTables) (fs : Features) (e : Ensemble) : Walk :=
  let r := ((t.trees.drop e.firstTree).take e.trees).foldl (fun (w : Walk) tr =>
    let x := walkTree t.nodes t.bitmaps fs 33 tr.root {}
    { leaf := f32Add w.leaf x.leaf, reads := w.reads + x.reads, defaults := w.defaults + x.defaults })
    ({ leaf := e.base } : Walk)
  { r with leaf := linkApply e.link r.leaf }

/-- The ensembles of a set by position (R186). -/
def setEnsembles (t : ArmatureTables) (set : Nat) : List (Option (Nat × Ensemble)) :=
  (List.range 16).map (fun j =>
    match (t.sets[set]?).bind (fun l => l[j]?) with
    | none => none
    | some n => if n = 0xFFFF then none else (t.ensembles[n]?).map (fun e => (n, e)))

/-- The entries of a result record (R192, R204). -/
def sampleResults (t : ArmatureTables) (set : Nat) (f : Front) (late restarted : Bool) : List ArmResult × Walk :=
  (setEnsembles t set).foldl (fun (acc : List ArmResult × Walk) o =>
    match o with
    | none => (acc.1 ++ [{}], acc.2)
    | some (n, e) =>
      if f.error then
        (acc.1 ++ [{ value := e.errorValue, nanPaths := 0, error := true, lateInput := late, restarted := restarted,
                     ensemble := n }], acc.2)
      else
        let w := runEnsemble t f.feats e
        (acc.1 ++ [{ value := w.leaf, nanPaths := min 255 w.defaults, lateInput := late, restarted := restarted, ensemble := n }],
         { acc.2 with reads := acc.2.reads + w.reads, defaults := acc.2.defaults + w.defaults }))
    ([], {})

/-! ### Samples (R184, R193, R206) -/

/-- Whether a stream has samples under a policy (R186). -/
def Policy.hasSamples (p : Policy) (st : Stream) : Bool := p.tables.armature.isSome && decide (st.armSet ≠ 0xFF)

/-- The late default of a probe contribution's score (R332). -/
def Policy.probeLate (p : Policy) (cid : Nat) : Word :=
  let d := ((p.tables.bridle.bind (fun b => aget cid b.defaults)).getD (0#32, 0#32))
  if ((p.probeEntry cid).map (fun e => e.failOpen)).getD false then d.2 else d.1

/-- The awl inputs of a sample: each scanned position's result and the bytes since its last match ended at position `pos`, saturating
(R176). -/
def awlInputs (p : Policy) (st : Stream) (place : Option ChunkPlace) (rs : List AwlResult) (insts : List AwlInst) (pos : Nat) :
    List (Option (AwlResult × Nat)) :=
  (List.range 8).map (fun n =>
    match p.tables.awl.bind (fun t => t.automatonAt st.awlSet n st.req.egress) with
    | some a =>
      if a.scans place then
        some ((rs[n]?).getD {}, min 0xFFFFFFFF (pos - ((insts[n]?).getD {}).lastEnd))
      else none
    | none => none)

/-- The probe contributions of a token that arrived before a tick (R193). -/
def State.probesBefore (s : State) (h : BitVec 48) (index tick : Nat) : List ProbeRecord :=
  (s.streams.buffer.filter (fun c => decide (c.handle = h) && decide (c.index = index) && decide (c.arrival < tick))).map
    (fun c => c.probe)

/-- A stream at its first sample under a policy: the accumulators keep their values when the layout is the same, and take
the initial table otherwise (R206). Answers the words rewritten. -/
def Stream.armCut (st : Stream) (p : Policy) : Stream × List (Nat × Word) :=
  if p.epoch = st.armEpoch then (st, [])
  else if p.layoutId = st.layoutId then ({ st with armEpoch := p.epoch }, [])
  else
    let init := match p.tables.armature with | some t => t.initial | none => []
    let all := (List.range 240).map (fun w => (w, (aget w init).getD 0#32))
    ({ st with armEpoch := p.epoch, layoutId := p.layoutId, workAcc := all }, all)

/-- Whether a plan reads a contribution that had not arrived by the admission tick: probes, or the ingress contribution (R193). -/
def lateInputs (t : ArmatureTables) (x : SampleInput) : Bool :=
  t.features.any (fun e => !e.inputIsFeature &&
    ((decide (e.srcKind = 6) && (x.probe e.srcIndex).isNone) || (decide (e.srcKind = 7) && x.ingressMissed)))

/-- What admitting one sample gives. -/
structure Sample where
  stream : Stream
  results : List ArmResult
  writes : List (Nat × Word)
  error : Bool
  late : Bool
  walk : Walk
deriving DecidableEq, Repr

/-- Evaluate a sample of a stream under a policy. -/
def Stream.sample (st : Stream) (p : Policy) (t : ArmatureTables) (input : List (Nat × Word) → SampleInput) : Sample :=
  let cut := st.armCut p
  let x := input cut.1.workAcc
  let f := evalPlan t.edges x t.features
  let late := lateInputs t x
  let r := sampleResults t st.armSet f late (!cut.2.isEmpty)
  let work := f.writes.foldl (fun a e => aset e.1 e.2 a) cut.1.workAcc
  { stream := { cut.1 with workAcc := work }, results := r.1, writes := cut.2 ++ f.writes, error := f.error, late := late,
    walk := r.2 }

/-- The ingress contribution as a sample admitted at a tick reads it, and whether it had not arrived: its late default stands for one
that had not, and it is missing until it is applied (R188 kind 7, R193). -/
def Stream.ingressInput (st : Stream) (p : Policy) (tick : Nat) : Option IngressRecord × Bool :=
  if st.req.ingressHandle = 0#64 then (none, false)
  else match st.ingressArrival with
    | some a => if a < tick then (if st.ingressApplied then st.ingress else none, false) else (some (ingressDefault (p.failOpenFor 0x15 true)), true)
    | none => (some (ingressDefault (p.failOpenFor 0x15 true)), true)

/-- The inputs of a token's sample at its admission tick. -/
def State.tokenInput (s : State) (st : Stream) (p : Policy) (t : Token) (tick : Nat) (acc : List (Nat × Word)) : SampleInput :=
  { ids := [t.id], bytes := t.bytes.length, committed := (st.lastIndex + 1) % 2 ^ 32, counters := st.counters, acc := acc,
    awl := awlInputs p st none t.awl t.awlAfter (t.start + t.bytes.length), segment := none,
    probes := s.probesBefore st.handle t.index tick, probeDefault := p.probeLate,
    ingress := (st.ingressInput p tick).1, ingressMissed := (st.ingressInput p tick).2 }

/-- The inputs of a chunk's sample. R188 gives no token ID for a chunk: a free value stands for it (log 7). -/
def State.chunkInput (s : State) (st : Stream) (p : Policy) (c : Chunk) (acc : List (Nat × Word)) : SampleInput :=
  { ids := [(Config.freeWord s.freeUse).toNat % 2 ^ 20], bytes := c.code.bytes.length, committed := (st.lastIndex + 1) % 2 ^ 32,
    counters := st.counters, acc := acc,
    awl := awlInputs p st (some { channel := c.channel, firstOfSegment := false }) c.awl c.awlAfter c.endPos,
    segment := some c.counts, probes := [], probeDefault := p.probeLate, ingress := none,
    ingressMissed := false }

/-- Where a sample that waits for admission is: its admission tick, its slot, and its token or chunk. -/
structure Admission where
  tick : Nat
  slot : SlotId
  ingress : Bool
  ordinal : Nat
deriving DecidableEq, Repr

/-- The samples of a stream that wait for admission, by R184. -/
def State.admissions (s : State) (k : SlotId) (st : Stream) : List Admission :=
  if st.ended then []
  else if st.req.egress then
    (st.tokens.filter (fun t => t.arm.isNone)).filterMap (fun t =>
      match s.policyByEpoch t.epoch with
      | some p => if p.hasSamples st then
          some { tick := s.effStamp t.stamp + (p.tables.armature.map (fun a => a.egressOffset)).getD 0, slot := k, ingress := false,
                 ordinal := t.index }
        else none
      | none => none)
  else
    (st.inp.chunks.filter (fun c => c.arm.isNone && c.released && !c.void)).filterMap (fun c =>
      match s.policyByEpoch c.epoch with
      | some p => if p.hasSamples st then
          some { tick := c.release + (p.tables.armature.map (fun a => a.ingressOffset)).getD 0, slot := k, ingress := true,
                 ordinal := c.ordinal }
        else none
      | none => none)

/-- Whether admission a comes before b: by tick, then slot (R202). -/
def Admission.before (a b : Admission) : Bool :=
  decide (a.tick < b.tick ∨ (a.tick = b.tick ∧ (a.slot < b.slot ∨ (a.slot = b.slot ∧ a.ordinal < b.ordinal))))

/-- The sample admitted next. -/
def State.nextAdmission (s : State) : Option Admission :=
  ((s.streams.table.flatMap (fun e => s.admissions e.1 e.2)).filter (fun a => decide (a.tick ≤ s.now))).foldl
    (fun (b : Option Admission) a => match b with | none => some a | some x => if a.before x then some a else some x) none

/-- A sample whose admission finds a policy without armature tables has no ensembles: it is delivered at once, empty (R186). -/
def State.skipSample (s : State) (a : Admission) : State :=
  match aget a.slot s.streams.table with
  | none => s
  | some st =>
    let chunk := fun (x : Chunk) => if a.ingress && decide (x.ordinal = a.ordinal) then { x with arm := some [], armDone := some true } else x
    let token := fun (x : Token) => if !a.ingress && decide (x.index = a.ordinal) then { x with arm := some [], armDone := some true } else x
    s.setStream a.slot { st with tokens := st.tokens.map token, inp := { st.inp with chunks := st.inp.chunks.map chunk } }

/-- The counts of an admitted sample (R209, R210). -/
def Sample.effects (m : Sample) (h : BitVec 48) (index : Nat) : List Effect :=
  (if m.walk.reads = 0 then [] else [Effect.count ⟨0x0A, 0, 1⟩ m.walk.reads])
    ++ (if m.walk.defaults = 0 then [] else [Effect.count ⟨0x0A, 0, 2⟩ m.walk.defaults])
    ++ (if m.error then armatureEvent 3 h index else []) ++ (if m.late then [Effect.count ⟨0x0A, 0, 4⟩ 1] else [])

/-- ARMATURE_SAMPLE_ADMIT: the first sample whose admission tick is reached reads its inputs (R184, R193), under the policy of that
tick (R206; log 31), after the host feature records of that tick (R191). -/
def armAdmit (s : State) : State :=
  match s.nextAdmission with
  | none => s
  | some a =>
    match aget a.slot s.streams.table with
    | none => s
    | some st =>
      match (s.policyFor st a.tick).bind (fun p => p.tables.armature.map (fun t => (p, t))), s.commandOwed st.handle.toNat a.tick with
      | none, _ => s.skipSample a
      | _, true => s
      | some (p, t), false =>
        if a.ingress then
          match st.inp.chunks.find? (fun c => decide (c.ordinal = a.ordinal)) with
          | none => s
          | some c =>
              let m := st.sample p t (s.chunkInput st p c)
              let set := fun (x : Chunk) =>
                if x.ordinal = a.ordinal then { x with arm := some m.results, armAcc := m.writes, armBy := p.epoch } else x
              let st1 := { m.stream with inp := { m.stream.inp with chunks := m.stream.inp.chunks.map set } }
              (({ s with freeUse := s.freeUse + 1 }).setStream a.slot st1).effects (m.effects st.handle st.lastIndex)
        else
          match st.tokens.find? (fun t => decide (t.index = a.ordinal)) with
          | none => s
          | some x =>
              let m := st.sample p t (s.tokenInput st p x a.tick)
              let set := fun (y : Token) =>
                if y.index = a.ordinal then { y with arm := some m.results, armAcc := m.writes, armBy := p.epoch, featureNan := m.error } else y
              (s.setStream a.slot { m.stream with tokens := m.stream.tokens.map set }).effects (m.effects st.handle x.index)

/-! ### Results (R204, R205) -/

/-- What a re-read does to a sample: the entry that took its late default, or the set position that the re-read delays. -/
structure Reread where
  position : Nat
  late : Nat → Option ArmResult
  good : Nat → Bool

/-- The record of a sample of a policy after a re-read. -/
def Reread.results (o : Option Reread) (epoch : Nat) (r : List ArmResult) : List ArmResult :=
  match o with
  | none => r
  | some x => if x.good epoch then r else match x.late epoch with | some v => r.set x.position v | none => r

/-- The positions whose nodes were read again. -/
def Reread.positions (o : Option Reread) (epoch : Nat) (l : List Nat) : List Nat :=
  match o with
  | some x => if x.good epoch then l ++ [x.position] else l
  | none => l

/-- Change the first sample of a stream that has not delivered: deliver it, or note a re-read. Answers whether it was one and in
time, its policy's epoch, and its token index (of a chunk, its first). -/
def Stream.onSample (st : Stream) (now : Nat) (o : Option Reread) (done : Bool) : Stream × Option (Bool × Nat × Nat) :=
  if st.req.egress then
    match st.tokens.find? (fun t => t.arm.isSome && t.armDone.isNone) with
    | none => (st, none)
    | some t =>
      let ok := decide (now < t.cutoff) && t.inputs.isNone
      let t' : Token := { t with arm := t.arm.map (Reread.results o t.armBy), armReread := Reread.positions o t.armBy t.armReread,
                                 armDone := if done then some ok else none }
      ({ st with tokens := st.tokens.map (fun x => if x.index = t.index then t' else x) }, some (ok, t.armBy, t.index))
  else
    match st.inp.chunks.find? (fun c => c.arm.isSome && c.armDone.isNone) with
    | none => (st, none)
    | some c =>
      let ok := match st.inp.verdicts.find? (fun v => decide (v.lastChunk = c.ordinal)) with
        | some v => v.inputs.isNone && decide (now < v.cutoff)
        | none => true
      let c' : Chunk := { c with arm := c.arm.map (Reread.results o c.armBy), armReread := Reread.positions o c.armBy c.armReread,
                                 armDone := if done then some ok else none }
      ({ st with inp := { st.inp with chunks := st.inp.chunks.map (fun x => if x.ordinal = c.ordinal then c' else x) } },
        some (ok, c.armBy, c.firstIndex))

/-- ARMATURE_RESULT: the stream's oldest sample delivers its record. -/
def armResult (k : SlotId) (s : State) : State :=
  match aget k s.streams.table with
  | none => s
  | some st =>
    if st.ended then s
    else match st.onSample s.now none true with
      | (_, none) => s
      | (st1, some (ok, _, _)) => (s.setStream k st1).effects ([.count ⟨0x0A, 0, 0⟩ 1] ++ (if ok then [] else lateDiscard 0x12))

/-- An ensemble's late default (R55, R205). -/
def armLate (e : Ensemble) (n : Nat) (failOpen : Bool) : ArmResult :=
  { value := if failOpen then e.neutral else e.worst, late := true, ensemble := n }

/-- Whether both halves hold a copy of the node tables (R205). -/
def Policy.armCopies (p : Policy) : Bool :=
  match p.tables.armature with | some t => t.northServes && t.southServes | none => false

/-- Whether the other half's copy of a sample's node tables can be read (R205, R483). -/
def State.armCopy (s : State) (epoch : Nat) : Bool := ((s.policyByEpoch epoch).map (fun p => p.armCopies)).getD false && s.otherCopy

/-- The late default of set position e of a stream's samples under a policy (R205). -/
def State.armDefault (s : State) (st : Stream) (e epoch : Nat) : Option ArmResult :=
  (s.policyByEpoch epoch).bind (fun p => (p.tables.armature.bind (fun t => ((setEnsembles t st.armSet)[e]?).getD none)).map
    (fun x => armLate x.2 x.1 (p.failOpenFor 0x12 st.req.egress)))

/-- ARMATURE_REREAD: a node read of set position e of the stream's oldest undelivered sample is uncorrectable: read from the other
half's copy, or the ensemble's late default (R205, R210). -/
def armReread (k : SlotId) (e : Fin 16) (good : Bool) (s : State) : State :=
  match aget k s.streams.table with
  | none => s
  | some st =>
    let o : Reread := { position := e.val, late := s.armDefault st e.val, good := fun epoch => good && s.armCopy epoch }
    match st.onSample s.now (some o) false with
    | (_, none) => s
    | (st1, some (_, epoch, index)) =>
      (s.setStream k st1).effects (if s.armCopy epoch then armatureEvent 5 st.handle index else [])

/-! ### Host features at their boundary (R191) -/

/-- Set the host words of samples whose writes have not committed yet, so that a restart's initial values do not undo them (R206). -/
def setWrites (es : List (Nat × Word)) (writes : List (Nat × Word)) : List (Nat × Word) :=
  writes.map (fun x => match (es.filter (fun e => decide (e.1 = x.1))).getLast? with | some e => e | none => x)

/-- A host feature record at its boundary: applied whole, or rejected whole when an entry names a word that is no host word
(R191); the status for its mailbox command. -/
def runFeatures (w : Waiting) (k : SlotId) (st : Stream) (s : State) : State :=
  if st.ended then s.finishWaiting w Status.alreadyDone []
  else
    let es := featureEntries w.body
    let host : BitVec 256 := (((s.policyOf st).bind (fun p => p.tables.armature)).map (fun t => t.hostWords)).getD 0#256
    if es.all (fun e => decide (e.1 < 240) && host.getLsbD e.1) then
      let set (acc : List (Nat × Word)) := es.foldl (fun a e => aset e.1 e.2 a) acc
      let st1 : Stream := { st with
        acc := set st.acc, workAcc := set st.workAcc,
        tokens := st.tokens.map (fun (t : Token) => { t with armAcc := setWrites es t.armAcc }),
        inp := { st.inp with chunks := st.inp.chunks.map (fun (c : Chunk) => { c with armAcc := setWrites es c.armAcc }) } }
      let w1 := (s.work k st1).atBoundary
      (((w1.glob 0x0A 0 6 1).commandRecord 0x0205).run s).finishWaiting w Status.ok (leBytes 8 w.due)
    else
      let w1 := ((s.work k st).atBoundary.effect (armatureEvent 7 st.handle st.lastIndex)).commandRecord 0x0205
      (w1.run s).finishWaiting w Status.crossref []

/-- HOST_FEATURE_BOUNDARY: samples of the stream admitted before the boundary read their inputs first (R191). -/
def hostFeatureBoundary (s : State) : State :=
  match (s.dueWaiting 0x0205).bind (fun w => (s.streamOf (field w.body 0 8)).map (fun x => (w, x))) with
  | some (w, k, st) => if (s.admissions k st).any (fun a => decide (a.tick < w.due)) then s else s.atBoundary 0x0205 runFeatures
  | none => s.atBoundary 0x0205 runFeatures

/-! ### Meanings -/

/-- ARMATURE_SAMPLE_ADMIT (R184, R187 to R195, R202, R206). -/
def execArmatureSampleAdmit (s : State) : Host.Outcome State Fault Refusal := .next (armAdmit s)

/-- ARMATURE_RESULT (R201, R204). -/
def execArmatureResult (k : SlotId) (s : State) : Host.Outcome State Fault Refusal := .next (armResult k s)

/-- ARMATURE_REREAD (R205, R210). -/
def execArmatureReread (k : SlotId) (e : Fin 16) (good : Bool) (s : State) : Host.Outcome State Fault Refusal :=
  .next (armReread k e good s)

/-- HOST_FEATURE_BOUNDARY (R191). -/
def execHostFeatureBoundary (s : State) : Host.Outcome State Fault Refusal := .next (hostFeatureBoundary s)

end Sys2Proof.Machine
end

