-- ==== Sys2Proof/Machine/Verdicts.lean ====
section
/-! DEFINITION. The bridle: inputs at the cutoff with their late values (R46, R331 to R333), lanes (R327), the late verdict
(R339) and the release of a verdict (R137, R334 to R338). -/

namespace Sys2Proof.Machine

/-! ### Late values (R332) -/

/-- The detokenizer's late values by index. -/
def detokLate (failOpen : Bool) : List Nat := if failOpen then [0, 0, 0, 0, 0] else [0xFFFFFFFF, 0, 0, 0, 1]

/-- An awl entry's late value. -/
def awlLate (failOpen : Bool) : AwlResult :=
  if failOpen then { late := true } else { hits := 0xFFFF, firstReport := 0, groups := 0xFFFFFFFF#32, late := true }

/-- The judge's late value (R264). -/
def judgeLate (j : JudgeTables) (failOpen : Bool) : JudgeRecord :=
  { count := j.scores, fresh := false, late := true, poison := false, scores := if failOpen then j.neutral else j.worst }

/-- A probe's late value: every score word, and flags 0x8. -/
def probeLateRecord (p : Policy) (e : ManifestEntry) : ProbeRecord :=
  { id := e.contributionId, source := e.sourceNode, draftPos := 0, late := true, flags := 0#8,
    scores := List.replicate 16 (p.probeLate e.contributionId) }

/-- The armature's late record: each used position's late default (R205). -/
def armLateRecord (p : Policy) (st : Stream) : List ArmResult :=
  match p.tables.armature with
  | none => []
  | some t => (setEnsembles t st.armSet).map (fun o =>
      match o with
      | some (n, e) => armLate e n (p.failOpenFor 0x12 st.req.egress)
      | none => {})

/-! ### The inputs of a verdict (R332) -/

/-- Whether a policy declares a contribution. -/
def Policy.declares (p : Policy) (stage : Nat) : Bool := (p.entry stage).isSome

/-- The awl contribution at a cutoff: the results, or their late values, and whether it is late. -/
def awlAt (p : Policy) (egress ready : Bool) (rs : List AwlResult) : List AwlResult × Bool :=
  if p.declares 0x11 && (!ready || rs.any (fun r => r.late)) then (List.replicate 8 (awlLate (p.failOpenFor 0x11 egress)), true)
  else (rs, false)

/-- A record in which the given set positions take their late defaults. -/
def Policy.lateAt (p : Policy) (st : Stream) (positions : List Nat) (r : List ArmResult) : List ArmResult :=
  r.zipIdx.map (fun (x : ArmResult × Nat) => if positions.contains x.2 then ((armLateRecord p st)[x.2]?).getD x.1 else x.1)

/-- The armature contribution at a cutoff. A record that a re-read still delays carries the other ensembles' results, and those whose
nodes were read again take their late defaults (R205). -/
def armAt (p : Policy) (st : Stream) (done : Option Bool) (reread : List Nat) (rs : Option (List ArmResult)) : List ArmResult × Bool :=
  if !p.hasSamples st || !p.declares 0x12 then ([], false)
  else match done, rs with
    | some true, some r => (r, r.any (fun x => x.late))
    | _, some r => if reread.isEmpty then (armLateRecord p st, true) else (p.lateAt st reread r, true)
    | _, none => (armLateRecord p st, true)

/-- The judge contribution at a cutoff. -/
def judgeAt (p : Policy) (egress : Bool) (r : Option JudgeRecord) : JudgeRecord × Bool :=
  match p.tables.judge, r with
  | some j, none => if p.declares 0x13 then (judgeLate j (p.failOpenFor 0x13 egress), true) else (⟨0, false, false, false, []⟩, false)
  | _, some x => (x, false)
  | none, none => (⟨0, false, false, false, []⟩, false)

/-- The probe contributions at a cutoff: for each declared entry the record that counts, or its late value; with the number
that are late. -/
def probesAt (p : Policy) (got : List ProbeRecord) : List ProbeRecord × Nat :=
  (p.tables.latency.entries.filter (fun e => decide (e.stage = 0x14))).foldl (fun (acc : List ProbeRecord × Nat) e =>
    match got.find? (fun r => decide (r.id = e.contributionId)) with
    | some r => (acc.1 ++ [r], acc.2)
    | none => (acc.1 ++ [probeLateRecord p e], acc.2 + 1)) ([], 0)

/-- Whether a stream has an awl instance under a policy, its stop automaton among them (R168 to R170). -/
def Policy.hasInstances (p : Policy) (st : Stream) : Bool :=
  match p.tables.awl with
  | some t => (List.range 8).any (fun n => (t.automatonAt st.awlSet n st.req.egress).isSome)
      || (st.req.egress && (t.stopAutomaton st.req.stopSet).isSome)
  | none => false

/-- The counter words as a program loads them (R331). -/
def counterWords (st : Stream) : List Nat := (List.range 32).map (fun i => min 0xFFFFFFFF (st.word i))

/-- The accumulator words a program loads: those of R188, or none under a policy without armature tables (R186). -/
def Policy.accWords (p : Policy) (st : Stream) : List (Nat × Word) := if p.tables.armature.isSome then st.workAcc else []

/-- The ingress verdict as a token's program sees it: from its cutoff on (R332). -/
def State.ingressAt (s : State) (st : Stream) (cutoff : Nat) : Option IngressRecord :=
  match s.ingressCutoff st with
  | some c => if c ≤ cutoff then st.ingress else none
  | none => none

/-- The inputs of a token's verdict at its cutoff, with the stages that are late, one by one. -/
def State.tokenInputs (s : State) (st : Stream) (p : Policy) (t : Token) : VerdictInputs × List Nat :=
  let detokIsLate := p.declares 0x10 && decide (t.detok ≠ some true)
  let detok := if detokIsLate then detokLate (p.failOpenFor 0x10 true)
    else [t.replaced, t.textAfter.carry.length, t.textAfter.stopLen, if t.textAfter.found.isSome then 1 else 0,
          if t.isUndefined then 1 else 0]
  let awl := awlAt p true (t.awlReady || !p.hasInstances st) t.awl
  let arm := armAt p st t.armDone t.armReread t.arm
  let judge := judgeAt p true t.judge
  let probes := probesAt p (s.probesBefore st.handle t.index t.cutoff)
  let ing := s.ingressAt st t.cutoff
  let ingLate := match ing with | some r => r.late && st.ingressArrival.isNone | none => false
  let stages := (if detokIsLate then [0x10] else []) ++ (if awl.2 then [0x11] else []) ++ (if arm.2 then [0x12] else [])
    ++ (if judge.2 then [0x13] else []) ++ List.replicate probes.2 0x14
  let mask := (if detokIsLate then 1 else 0) + (if awl.2 then 2 else 0) + (if arm.2 then 4 else 0)
    + (if judge.2 then 8 else 0) + (if probes.2 = 0 then 0 else 16) + (if ingLate then 32 else 0)
  ({ token := [t.id, t.bytes.length, t.start % 2 ^ 32, t.index, t.stepPos, if st.holdActive then 1 else 0,
               (st.writeIndex + 2 ^ 32 - st.releaseIndex % 2 ^ 32) % 2 ^ 32],
     counters := counterWords st, acc := p.accWords st, awl := awl.1, arm := arm.1, judge := judge.1, probes := probes.1,
     ingress := ing, detok := detok, lateMask := mask, lates := stages.length, tenant := st.req.tenant, degraded := s.rel.degraded }, stages)

/-- The inputs of a segment verdict at its cutoff (R333). The manual gives group 0 only its index 3 there and group 8
nothing: free values stand for the others (log 7). -/
def State.segmentInputs (s : State) (st : Stream) (p : Policy) (v : SegVerdict) : VerdictInputs × List Nat :=
  let free := fun (i : Nat) => (Config.freeWord (s.freeUse + i)).toNat
  let c := st.inp.chunks.find? (fun c => decide (c.ordinal = v.lastChunk))
  let awl := match c with
    | some c => awlAt p false (c.awlReady || !p.hasInstances st) c.awl
    | none => awlAt p false (!p.hasInstances st) []
  let arm := match c with | some c => armAt p st c.armDone c.armReread c.arm | none => armAt p st none [] none
  let judge := judgeAt p false (c.bind (fun c => c.judge))
  let stages := (if awl.2 then [0x11] else []) ++ (if arm.2 then [0x12] else []) ++ (if judge.2 then [0x13] else [])
  let mask := (if awl.2 then 2 else 0) + (if arm.2 then 4 else 0) + (if judge.2 then 8 else 0)
  ({ token := [free 0, free 1, free 2, v.segment, free 4, free 5, free 6], counters := counterWords st, acc := p.accWords st,
     awl := awl.1, arm := arm.1, judge := judge.1, probes := [], ingress := none,
     detok := [free 7, free 8, free 9, free 10, free 11], lateMask := mask, lates := stages.length, tenant := st.req.tenant,
     degraded := s.rel.degraded }, stages)

/-! ### The cutoff (R46, R327) -/

/-- The verdict program of a stream under a policy, for its direction (R326). -/
def Policy.programOf (p : Policy) (st : Stream) : Option VerdictProgram :=
  if st.program = 0xFF then none else p.tables.bridle.bind (fun b => b.programs[st.program]?)

/-- The stage whose late results a job's are (R41, R57). -/
def VerdictJob.stage (j : VerdictJob) : Nat := if j.ingress then 2 else 4

/-- Whether a job's token or segment is still in flight. -/
def Stream.inFlight (st : Stream) (j : VerdictJob) : Bool :=
  if j.ingress then st.inp.verdicts.any (fun v => decide (v.segment = j.index)) else st.tokens.any (fun t => decide (t.index = j.index))

/-- A verdict that waits for its cutoff. -/
def State.waitingVerdicts (s : State) (k : SlotId) (st : Stream) : List VerdictJob :=
  if st.ended then []
  else
    (st.tokens.filter (fun t => t.inputs.isNone && decide (t.cutoff ≤ s.now))).map (fun t =>
      { slot := k, ingress := false, index := t.index, cutoff := t.cutoff })
    ++ (st.inp.verdicts.filter (fun v => v.inputs.isNone && decide (v.cutoff ≤ s.now))).map (fun v =>
      { slot := k, ingress := true, index := v.segment, cutoff := v.cutoff })

/-- The order of verdicts: cutoff, index, slot (R327). -/
def VerdictJob.before (a b : VerdictJob) : Bool :=
  decide (a.cutoff < b.cutoff ∨ (a.cutoff = b.cutoff ∧ (a.index < b.index ∨ (a.index = b.index ∧ a.slot < b.slot))))

/-- The first job in that order. -/
def firstJob (l : List VerdictJob) : Option VerdictJob :=
  l.foldl (fun b a => match b with | none => some a | some x => if a.before x then some a else some x) none

/-- A lane of the bridle. -/
def State.lane (s : State) (h : HalfId) (l : Fin 16) : Lane := (aget (h, l) s.eng.lanes).getD {}

/-- Replace a lane. -/
def State.setLane (s : State) (h : HalfId) (l : Fin 16) (v : Lane) : State :=
  { s with eng := { s.eng with lanes := aset (h, l) v s.eng.lanes } }

/-- A verdict enters its lane's queue. -/
def State.queueJob (s : State) (p : Policy) (j : VerdictJob) : State :=
  let h := p.bridleHalf j.slot
  let l := p.bridleLane j.slot
  let v := s.lane h l
  s.setLane h l { v with queue := v.queue ++ [j] }

/-- A verdict's stage once its inputs are fixed: queued, or PASS at once without a program (R326). -/
def stageAfter (program : Option VerdictProgram) : VerdictStage := if program.isSome then .queued else .ready {}

/-- The late defaults of a verdict's contributions, counted and noticed (R57). -/
def lateStages (h : BitVec 48) (index : Nat) (stages : List Nat) : List Effect := stages.flatMap (fun g => lateEvent g h index)

/-- The cutoff of one verdict. -/
def State.cutoff (s : State) (j : VerdictJob) (st : Stream) : State :=
  if j.ingress then
    match st.inp.verdicts.find? (fun v => decide (v.segment = j.index)) with
    | none => s
    | some v =>
      match s.policyByEpoch v.epoch with
      | none => s
      | some p =>
        let r := s.segmentInputs st p v
        let set := fun (x : SegVerdict) =>
          if x.segment = j.index then { x with inputs := some r.1, verdict := stageAfter (p.programOf st) } else x
        let s1 := { s with freeUse := s.freeUse + 12 }
        let s2 := (s1.setStream j.slot { st with inp := { st.inp with verdicts := st.inp.verdicts.map set } }).effects
          (lateStages st.handle v.segment r.2)
        if (p.programOf st).isSome then s2.queueJob p j else s2
  else
    match st.tokens.find? (fun t => decide (t.index = j.index)) with
    | none => s
    | some t =>
      match s.policyByEpoch t.epoch with
      | none => s
      | some p =>
        let r := s.tokenInputs st p t
        let runs := (p.programOf st).isSome && !t.discarded
        let set := fun (x : Token) =>
          if x.index = j.index then { x with inputs := some r.1, verdict := if runs then .queued else .ready {} } else x
        let s1 := { s with streams := { s.streams with
          buffer := s.streams.buffer.filter (fun c => !(decide (c.handle = st.handle) && decide (c.index = t.index))) } }
        let s2 := (s1.setStream j.slot { st with tokens := st.tokens.map set }).effects (lateStages st.handle t.index r.2)
        if runs then s2.queueJob p j else s2

/-- VERDICT_CUTOFF: the first verdict whose cutoff is reached takes its inputs, after every contribution of its stream that was
stamped before the cutoff (R46). -/
def verdictCutoff (s : State) : State :=
  match firstJob (s.streams.table.flatMap (fun e => s.waitingVerdicts e.1 e.2)) with
  | none => s
  | some j =>
    match aget j.slot s.streams.table with
    | some st => if s.contributionBefore st.handle.toNat j.cutoff then s else s.cutoff j st
    | none => s

/-! ### Jobs (R327) -/

/-- What a job names, while it is still in flight: its inputs and epoch, and the stream. -/
def State.jobOf (s : State) (j : VerdictJob) : Option (Stream × VerdictInputs × Nat) :=
  match aget j.slot s.streams.table with
  | none => none
  | some st =>
    if st.ended then none
    else if j.ingress then
      match st.inp.verdicts.find? (fun v => decide (v.segment = j.index)) with
      | some v => v.inputs.map (fun i => (st, i, v.epoch))
      | none => none
    else
      match st.tokens.find? (fun t => decide (t.index = j.index)) with
      | some t => if t.discarded then none else t.inputs.map (fun i => (st, i, t.epoch))
      | none => none

/-- Give a job's verdict its stage. -/
def Stream.setVerdict (st : Stream) (j : VerdictJob) (v : VerdictStage) : Stream :=
  if j.ingress then
    { st with inp := { st.inp with verdicts := st.inp.verdicts.map (fun x => if x.segment = j.index then { x with verdict := v } else x) } }
  else { st with tokens := st.tokens.map (fun x => if x.index = j.index then { x with verdict := v } else x) }

/-! ### The release of a token's verdict (R137, R334, R339) -/

/-- The counters of a released verdict's actions (R346). -/
def actionEffects (a : Actions) : List Effect :=
  (if a.holds.isEmpty then [] else [Effect.count ⟨0x0F, 0, 2⟩ 1]) ++ (if a.redacts.isEmpty then [] else [Effect.count ⟨0x0F, 0, 3⟩ 1])
    ++ (if a.rewind.isNone then [] else [Effect.count ⟨0x0F, 0, 4⟩ 1]) ++ (if a.halt then [Effect.count ⟨0x0F, 0, 5⟩ 1] else [])
    ++ (if a.bias.isNone then [] else [Effect.count ⟨0x0F, 0, 6⟩ 1]) ++ (if a.tags.isEmpty then [] else [Effect.count ⟨0x0F, 0, 7⟩ 1])

/-- The verdict of a token at its release: its actions when they are ready, or else the late default (R339). -/
def releaseVerdict (p : Option Policy) (st : Stream) (t : Token) (now : Nat) : Verdict × List Effect :=
  let skip := st.afterStop t && decide (st.stopTick = now)
  if t.discarded || skip || st.ended then ({ skip := true }, [])
  else match t.verdict with
    | .ready a => ({ acts := a }, actionEffects a)
    | _ =>
      let passes := (p.map (fun q => q.failOpen 4)).getD false
      ({ acts := { halt := !passes }, late := true },
       lateEvent 4 st.handle t.index ++ bridleEvent 9 st.handle t.index now)

/-- The boundary of one token of slot k's stream. -/
def State.releaseToken (s : State) (k : SlotId) (st : Stream) (t : Token) : State :=
  let p := s.policyByEpoch t.epoch
  let v := releaseVerdict p st t s.now
  let w : Work := { env := s.env k st p, st := st }
  ((w.effect v.2).tokenBoundary t v.1).run s

/-! ### Lanes (R327) -/

/-- The state as it will stand when the given tokens of slot k's stream have committed, each at its release tick (R335). -/
def State.foresee (s : State) (k : SlotId) (ts : List Token) : State :=
  ts.foldl (fun u x =>
    match aget k u.streams.table with
    | none => u
    | some st =>
      match st.tokens.find? (fun y => decide (y.index = x.index)) with
      | some y => ({ u with aon := { u.aon with plumb := BitVec.ofNat 64 x.release } }).releaseToken k st y
      | none => u) s

/-- Whether a token of slot k's stream is discarded, or carried past a stop. -/
def State.tokenOver (s : State) (k : SlotId) (n : Nat) : Bool :=
  match aget k s.streams.table with
  | none => true
  | some st =>
    match st.tokens.find? (fun y => decide (y.index = n)) with
    | some y => st.ended || y.discarded || st.afterStop y
    | none => true

/-- Whether an earlier token of a job's own release tick will discard its token or stop before it (R152, R335). -/
def State.foreseenOver (s : State) (j : VerdictJob) (st : Stream) : Bool :=
  match st.tokens.find? (fun y => decide (y.index = j.index)) with
  | none => false
  | some t =>
    let before := st.tokens.filter (fun y => decide (y.index < t.index) && decide (y.release < t.release))
    let same := st.tokens.filter (fun y => decide (y.index < t.index) && decide (y.release = t.release))
    if j.ingress || same.isEmpty then false
    else
      let u := s.foresee j.slot before
      !u.tokenOver j.slot t.index && (u.foresee j.slot same).tokenOver j.slot t.index

/-- BRIDLE_LANE_START: an idle lane takes its first queued verdict; one whose token is no longer in flight is dropped as a
late result, and one of a token that is discarded, or that an earlier token of its tick will discard or stop before, runs no
program (R41, R327, R335). One whose program is poisoned gets no verdict, and takes its late default (R470). -/
def laneStart (h : HalfId) (l : Fin 16) (s : State) : State :=
  let v := s.lane h l
  match v.run, firstJob v.queue with
  | none, some j =>
    let s1 := s.setLane h l { v with queue := v.queue.erase j }
    match s1.jobOf j with
    | none =>
      (match aget j.slot s1.streams.table with
      | some st => if st.inFlight j then s1.setStream j.slot (st.setVerdict j (.ready {})) else s1.effects (lateDiscard j.stage)
      | none => s1.effects (lateDiscard j.stage))
    | some (st, inputs, epoch) =>
      match (if s.foreseenOver j st then none else (s1.policyByEpoch epoch).bind (fun p => p.programOf st)) with
      | none => s1.setStream j.slot (st.setVerdict j (.ready {}))
      | some prog =>
        let bad := s1.tablePoison j.stage st.handle j.index
        if bad.isSome then s1.effects (s1.tableEffects bad) else
        let r : LaneRun := { job := j, epoch := epoch, inputs := inputs, regs := Vector.replicate 16 0#32, pc := 0,
                             length := prog.length, first := prog.first, acts := {} }
        ((s1.setLane h l { queue := v.queue.erase j, run := some r }).setStream j.slot (st.setVerdict j .running)).count1 0x0F 0 0
  | _, _ => s

/-! ### The next boundary of a stream -/

/-- The token of a stream that its verdict release comes to next: the lowest release tick, then the lowest index. -/
def Stream.dueToken (st : Stream) (now : Nat) : Option Token :=
  (st.tokens.filter (fun t => decide (t.release ≤ now))).foldl (fun (b : Option Token) t =>
    match b with
    | none => some t
    | some x => if t.release < x.release ∨ (t.release = x.release ∧ t.index < x.index) then some t else some x) none

/-- The halt that a sampling step set, when its boundary is reached and every token commit of that tick is done (R320). -/
def Stream.dueHalt (st : Stream) (now : Nat) : Option StepHalt := st.stepHalts.find? (fun x => decide (x.due ≤ now))

/-- A step halt at its boundary: any stream that is not HALTED yet, a DRAINING one too, with the stop reason it has (R73, R75,
R320). -/
def State.runHalt (s : State) (k : SlotId) (st : Stream) (x : StepHalt) : State :=
  let st1 := { st with stepHalts := st.stepHalts.erase x }
  if st.ended then s.setStream k st1 else (((s.work k st1).halt x.reason).closeHalted).run s

/-- VERDICT_RELEASE: the next boundary of slot k's stream: a token's, or a step halt's. -/
def verdictRelease (k : SlotId) (s : State) : State :=
  match aget k s.streams.table with
  | none => s
  | some st0 =>
    if (st0.dueToken s.now).isNone && (st0.dueHalt s.now).isNone then s
    else
      let c := s.atContext k st0
      let st := c.2
      match st.dueToken s.now, st.dueHalt s.now with
      | some t, some x => if x.due < t.release then c.1.runHalt k st x else c.1.releaseToken k st t
      | some t, none => c.1.releaseToken k st t
      | none, some x => c.1.runHalt k st x
      | none, none => c.1

/-! ### Halt messages (R338) -/

/-- A received halt message: into the active policy's halt queue, or to host bulk port 0 as a packet to the own node. -/
def haltMessage (s : State) : State :=
  match s.takeInbox (fun a => decide (a.pkt.hdr.port = 0xD4#8)) with
  | none => s
  | some (a, s1) =>
    match ((s1.cast.active.bind (fun p => p.tables.bridle)).bind (fun (b : BridleTables) => b.haltQueue)) with
    | some q => s1.writeItem q 0x0005#16 (a.pkt.payload.take 56)
    | none => s1.offerBulk 0 { a.pkt with hdr := { a.pkt.hdr with dest := s1.aon.node, multicast := false } } a.toBulk

/-! ### Meanings -/

/-- VERDICT_CUTOFF (R46, R332, R333). -/
def execVerdictCutoff (s : State) : Host.Outcome State Fault Refusal := .next (verdictCutoff s)

/-- BRIDLE_LANE_START (R327, R335). -/
def execBridleLaneStart (h : HalfId) (l : Fin 16) (s : State) : Host.Outcome State Fault Refusal := .next (laneStart h l s)

/-- VERDICT_RELEASE (R77, R137, R320, R334 to R337, R339). -/
def execVerdictRelease (k : SlotId) (s : State) : Host.Outcome State Fault Refusal := .next (verdictRelease k s)

/-- HALT_MESSAGE (R338). -/
def execHaltMessage (s : State) : Host.Outcome State Fault Refusal := .next (haltMessage s)

end Sys2Proof.Machine
end

