-- ==== Sys2Proof/Machine/Bridle.lean ====
section
/-! DEFINITION. The bridle's instructions (R328 to R331, R334). A lane executes the instruction that stands at its program
counter in the policy's instruction table; each command here is that instruction, and it does nothing on a lane that is not
at it (log 4). -/

namespace Sys2Proof.Machine

/-! ### Encoding (R328, R329) -/

/-- An instruction word from its fields. -/
def bridleWord (op : Nat) (d a b : LaneReg) (imm : Word) : DWord :=
  BitVec.ofNat 64 (op * 2 ^ 56 + d.toNat * 2 ^ 52 + a.toNat * 2 ^ 48 + b.toNat * 2 ^ 44 + imm.toNat)

/-- The bits of an instruction word that its operation reads (R329; log 45). -/
def codeMask (op : Nat) : DWord :=
  match op with
  | 0x00 => 0xFF00000000000000#64
  | 0x01 => 0xFFF0000000FFFFFF#64
  | 0x02 => 0xFFF00000FFFFFFFF#64
  | 0x22 => 0xFF0F0000FFFFFFFF#64
  | 0x2C => 0xFF0FF00000010FFF#64
  | 0x41 => 0xFF000000000303FF#64
  | 0x42 => 0xFF0FF00000000000#64
  | 0x43 => 0xFF000000FFFFFFFF#64
  | 0x44 => 0xFF00000000000000#64
  | 0x45 => 0xFF0F00000000FFFF#64
  | 0x46 => 0xFF0000000000FFFF#64
  | n => if n < 0x20 then 0xFFFFF00000000000#64 else 0xFF0FF000FFFFFFFF#64

/-- The instruction at a running lane's program counter, with the bits that its operation does not read cleared. -/
def State.laneCode (s : State) (r : LaneRun) : Option DWord :=
  if r.pc < r.length then
    (((s.policyByEpoch r.epoch).bind (fun p => p.tables.bridle)).bind (fun b => b.code[r.first + r.pc]?)).map
      (fun w => w &&& codeMask (w.toNat / 2 ^ 56))
  else none

/-- Execute one instruction on a lane that stands at it: one step, counted (R327, R346). -/
def State.onLane (s : State) (h : HalfId) (l : Fin 16) (word : DWord) (f : LaneRun → LaneRun) : State :=
  let v := s.lane h l
  match v.run with
  | none => s
  | some r =>
    if s.laneCode r = some word then
      (s.setLane h l { v with run := some (f { r with pc := r.pc + 1 }) }).count1 0x0F 0 1
    else s

/-- Write a value register. -/
def LaneRun.set (r : LaneRun) (d : LaneReg) (w : Word) : LaneRun := { r with regs := r.regs.set d.toNat w (by omega) }

/-- Read a value register. -/
def LaneRun.get (r : LaneRun) (a : LaneReg) : Word := r.regs[a.toNat]'(by omega)

/-- A branch of offset k, taken or not: the program counter is already past the branch (R329). -/
def LaneRun.branch (r : LaneRun) (taken : Bool) (k : Nat) : LaneRun := if taken then { r with pc := r.pc + k } else r

/-! ### Inputs (R331) -/

/-- An integer as a register holds it: 0xFFFF_FFFF when it exceeds 32 bits. -/
def loadInt (n : Nat) : Word := BitVec.ofNat 32 (min n 0xFFFFFFFF)

/-- Group 3: one awl entry's values. -/
def AwlResult.load (r : AwlResult) (sub : Nat) : Word :=
  match sub with
  | 0 => loadInt r.hits
  | 1 => loadInt r.firstReport
  | 2 => r.groups
  | 3 => loadInt r.firstEnd
  | 4 => loadInt r.firstLen
  | 5 => loadInt ((if r.pending then 1 else 0) + (if r.restarted then 2 else 0) + (if r.late then 4 else 0))
  | 6 => BitVec.ofNat 32 r.firstEnd - BitVec.ofNat 32 r.firstLen
  | _ => 0#32

/-- Group 4: one armature entry's values. -/
def ArmResult.load (r : ArmResult) (sub : Nat) : Word :=
  match sub with
  | 0 => r.value
  | 1 => loadInt ((if r.error then 1 else 0) + (if r.lateInput then 2 else 0) + (if r.late then 4 else 0)
      + (if r.restarted then 8 else 0))
  | 2 => loadInt r.nanPaths
  | _ => 0#32

/-- Group 5: the judge's values. -/
def JudgeRecord.load (r : JudgeRecord) (sub : Nat) : Word :=
  if sub < 8 then (r.scores[sub]?).getD 0#32
  else if sub = 8 then loadInt ((if r.fresh then 1 else 0) + (if r.late then 2 else 0) + (if r.poison then 4 else 0))
  else if sub = 9 then loadInt r.count
  else 0#32

/-- Group 6: a probe's score word, or its flags with `late` as bit 3. -/
def loadProbe (rs : List ProbeRecord) (sub index : Nat) : Word :=
  match rs.find? (fun r => decide (r.id = index % 4096)) with
  | none => 0#32
  | some r =>
    if index / 4096 = 1 then loadInt (r.flags.toNat % 8 + (if r.late then 8 else 0)) else (r.scores[sub]?).getD 0#32

/-- Group 7: the ingress verdict's values; all ones before its cutoff (R332). -/
def loadIngress (o : Option IngressRecord) (sub index : Nat) : Word :=
  match o with
  | none => 0xFFFFFFFF#32
  | some r =>
    match index with
    | 0 => loadInt r.verdict
    | 1 => loadInt r.flags.toNat
    | 2 => loadInt r.tokens
    | 3 => loadInt r.replacements
    | 4 => loadInt r.escaped
    | 5 => loadInt ((r.tags[sub]?).getD 0#16).toNat
    | _ => 0#32

/-- The input that a selector names (R331). -/
def VerdictInputs.select (v : VerdictInputs) (sel : Nat) : Word :=
  let group := sel / 2 ^ 20 % 16
  let sub := sel / 2 ^ 16 % 16
  let i := sel % 2 ^ 16
  match group with
  | 0 => loadInt ((v.token[i]?).getD 0)
  | 1 => loadInt ((v.counters[i]?).getD 0)
  | 2 => (aget i v.acc).getD 0#32
  | 3 => ((v.awl[i]?).getD {}).load sub
  | 4 => ((v.arm[i]?).getD {}).load sub
  | 5 => v.judge.load sub
  | 6 => loadProbe v.probes sub i
  | 7 => loadIngress v.ingress sub i
  | 8 => loadInt ((v.detok[i]?).getD 0)
  | 9 => loadInt (if i = 0 then v.lateMask % 64 else if i = 1 then v.tenant else if i = 2 then (if v.degraded then 1 else 0) else 0)
  | _ => 0#32

/-! ### Actions (R334) -/

/-- HOLD: disposition 3 is HALT. -/
def Actions.addHold (a : Actions) (span disp : Nat) : Actions :=
  { a with holds := a.holds ++ [(span, if disp = 3 then 0 else disp)] }

/-- REDACT: length 0 is ignored, above 4,096 counts as 4,096, and a third one is dropped. -/
def Actions.addRedact (a : Actions) (pos len : Nat) : Actions :=
  if len = 0 then a
  else if 2 ≤ a.redacts.length then { a with dropped := a.dropped + 1 }
  else { a with redacts := a.redacts ++ [(pos, min 4096 len)] }

/-- REWIND: the largest count emitted. -/
def Actions.addRewind (a : Actions) (n : Nat) : Actions := { a with rewind := some (max n (a.rewind.getD 0)) }

/-- BIAS: the last emitted; one whose scale is NaN or infinite is ignored. -/
def Actions.addBias (a : Actions) (vector : Half) (scale : Word) : Actions :=
  if f32Finite scale then { a with bias := some (vector, scale) } else { a with dropped := a.dropped + 1 }

/-- TAG: at most 8, in emission order. -/
def Actions.addTag (a : Actions) (tag : Half) : Actions :=
  if 8 ≤ a.tags.length then { a with dropped := a.dropped + 1 } else { a with tags := a.tags ++ [tag] }

/-- Execute an action instruction on a lane that stands at it; an action that is dropped is counted as the program runs (R334, R346). -/
def State.actOn (s : State) (h : HalfId) (l : Fin 16) (word : DWord) (f : LaneRun → Actions) : State :=
  let s1 := s.onLane h l word (fun r => { r with acts := f r })
  match (s.lane h l).run with
  | none => s1
  | some r =>
    if s.laneCode r = some word ∧ r.acts.dropped < (f r).dropped then
      s1.effects (bridleEvent 8 (((aget r.job.slot s.streams.table).map (fun st => st.handle)).getD 0#48) r.job.index s.now)
    else s1

/-! ### The end of a program (R40, R41) -/

/-- A program's end: its verdict is ready when that is before the release tick, and discarded as a late result after it. -/
def State.endVerdict (s : State) (r : LaneRun) : State :=
  match aget r.job.slot s.streams.table with
  | none => s.effects (lateDiscard r.job.stage)
  | some st =>
    let release? := if r.job.ingress then (st.inp.verdicts.find? (fun v => decide (v.segment = r.job.index))).map (fun v => v.release)
      else (st.tokens.find? (fun t => decide (t.index = r.job.index))).map (fun t => t.release)
    match release? with
    | some t => if s.now < t then s.setStream r.job.slot (st.setVerdict r.job (.ready r.acts)) else s.effects (lateDiscard r.job.stage)
    | none => s.effects (lateDiscard r.job.stage)

/-- `end` on a lane that stands at it. -/
def State.laneEnd (s : State) (h : HalfId) (l : Fin 16) : State :=
  let v := s.lane h l
  match v.run with
  | none => s
  | some r =>
    if s.laneCode r = some (bridleWord 0x00 0 0 0 0#32) then
      ((s.setLane h l { v with run := none }).count1 0x0F 0 1).endVerdict r
    else s

/-! ### Meanings -/

/-- BRIDLE_END (R329). -/
def execBridleEnd (h : HalfId) (l : Fin 16) (s : State) : Host.Outcome State Fault Refusal := .next (s.laneEnd h l)

/-- BRIDLE_LD (R331). -/
def execBridleLd (h : HalfId) (l : Fin 16) (d : LaneReg) (sel : BitVec 24) (s : State) : Host.Outcome State Fault Refusal :=
  .next (s.onLane h l (bridleWord 0x01 d 0 0 (sel.setWidth 32)) (fun r => r.set d (r.inputs.select sel.toNat)))

/-- BRIDLE_LI (R329). -/
def execBridleLi (h : HalfId) (l : Fin 16) (d : LaneReg) (imm : Word) (s : State) : Host.Outcome State Fault Refusal :=
  .next (s.onLane h l (bridleWord 0x02 d 0 0 imm) (fun r => r.set d imm))

/-- BRIDLE_FADD (R329). -/
def execBridleFadd (h : HalfId) (l : Fin 16) (d a b : LaneReg) (s : State) : Host.Outcome State Fault Refusal :=
  .next (s.onLane h l (bridleWord 0x10 d a b 0#32) (fun r => r.set d (f32Add (r.get a) (r.get b))))

/-- BRIDLE_FMUL (R329). -/
def execBridleFmul (h : HalfId) (l : Fin 16) (d a b : LaneReg) (s : State) : Host.Outcome State Fault Refusal :=
  .next (s.onLane h l (bridleWord 0x11 d a b 0#32) (fun r => r.set d (f32Mul (r.get a) (r.get b))))

/-- BRIDLE_FMAX (R329). -/
def execBridleFmax (h : HalfId) (l : Fin 16) (d a b : LaneReg) (s : State) : Host.Outcome State Fault Refusal :=
  .next (s.onLane h l (bridleWord 0x12 d a b 0#32) (fun r => r.set d (f32Max (r.get a) (r.get b))))

/-- BRIDLE_FMIN (R329). -/
def execBridleFmin (h : HalfId) (l : Fin 16) (d a b : LaneReg) (s : State) : Host.Outcome State Fault Refusal :=
  .next (s.onLane h l (bridleWord 0x13 d a b 0#32) (fun r => r.set d (f32Min (r.get a) (r.get b))))

/-- BRIDLE_AND (R329). -/
def execBridleAnd (h : HalfId) (l : Fin 16) (d a b : LaneReg) (s : State) : Host.Outcome State Fault Refusal :=
  .next (s.onLane h l (bridleWord 0x18 d a b 0#32) (fun r => r.set d (r.get a &&& r.get b)))

/-- BRIDLE_OR (R329). -/
def execBridleOr (h : HalfId) (l : Fin 16) (d a b : LaneReg) (s : State) : Host.Outcome State Fault Refusal :=
  .next (s.onLane h l (bridleWord 0x19 d a b 0#32) (fun r => r.set d (r.get a ||| r.get b)))

/-- BRIDLE_ADD (R329). -/
def execBridleAdd (h : HalfId) (l : Fin 16) (d a b : LaneReg) (s : State) : Host.Outcome State Fault Refusal :=
  .next (s.onLane h l (bridleWord 0x1A d a b 0#32) (fun r => r.set d (r.get a + r.get b)))

/-- BRIDLE_BFLT (R196, R329). -/
def execBridleBflt (h : HalfId) (l : Fin 16) (a b : LaneReg) (k : Nat) (s : State) : Host.Outcome State Fault Refusal :=
  .next (s.onLane h l (bridleWord 0x20 0 a b (BitVec.ofNat 32 k)) (fun r => r.branch (f32Lt (r.get a) (r.get b)) k))

/-- BRIDLE_BFGE (R196, R329). -/
def execBridleBfge (h : HalfId) (l : Fin 16) (a b : LaneReg) (k : Nat) (s : State) : Host.Outcome State Fault Refusal :=
  .next (s.onLane h l (bridleWord 0x21 0 a b (BitVec.ofNat 32 k)) (fun r => r.branch (f32Le (r.get b) (r.get a)) k))

/-- BRIDLE_BNAN (R329). -/
def execBridleBnan (h : HalfId) (l : Fin 16) (a : LaneReg) (k : Nat) (s : State) : Host.Outcome State Fault Refusal :=
  .next (s.onLane h l (bridleWord 0x22 0 a 0 (BitVec.ofNat 32 k)) (fun r => r.branch (f32IsNaN (r.get a)) k))

/-- BRIDLE_BEQ (R329). -/
def execBridleBeq (h : HalfId) (l : Fin 16) (a b : LaneReg) (k : Nat) (s : State) : Host.Outcome State Fault Refusal :=
  .next (s.onLane h l (bridleWord 0x28 0 a b (BitVec.ofNat 32 k)) (fun r => r.branch (r.get a == r.get b) k))

/-- BRIDLE_BNE (R329). -/
def execBridleBne (h : HalfId) (l : Fin 16) (a b : LaneReg) (k : Nat) (s : State) : Host.Outcome State Fault Refusal :=
  .next (s.onLane h l (bridleWord 0x29 0 a b (BitVec.ofNat 32 k)) (fun r => r.branch (r.get a != r.get b) k))

/-- BRIDLE_BLTU (R329). -/
def execBridleBltu (h : HalfId) (l : Fin 16) (a b : LaneReg) (k : Nat) (s : State) : Host.Outcome State Fault Refusal :=
  .next (s.onLane h l (bridleWord 0x2A 0 a b (BitVec.ofNat 32 k)) (fun r => r.branch ((r.get a).ult (r.get b)) k))

/-- BRIDLE_BGEU (R329). -/
def execBridleBgeu (h : HalfId) (l : Fin 16) (a b : LaneReg) (k : Nat) (s : State) : Host.Outcome State Fault Refusal :=
  .next (s.onLane h l (bridleWord 0x2B 0 a b (BitVec.ofNat 32 k)) (fun r => r.branch (!(r.get a).ult (r.get b)) k))

/-- BRIDLE_BBIT: the bit's low four bits stand in field b, its fifth in `imm` bit 16 (R329). -/
def execBridleBbit (h : HalfId) (l : Fin 16) (a : LaneReg) (bit : BitVec 5) (k : Nat) (s : State) :
    Host.Outcome State Fault Refusal :=
  .next (s.onLane h l
    (bridleWord 0x2C 0 a (bit.setWidth 4) (BitVec.ofNat 32 (k % 4096 + (if bit.getLsbD 4 then 2 ^ 16 else 0))))
    (fun r => r.branch ((r.get a).getLsbD bit.toNat) (k % 4096)))

/-- BRIDLE_HOLD (R329, R334). -/
def execBridleHold (h : HalfId) (l : Fin 16) (span : BitVec 10) (disp : BitVec 2) (s : State) :
    Host.Outcome State Fault Refusal :=
  .next (s.actOn h l (bridleWord 0x41 0 0 0 (BitVec.ofNat 32 (span.toNat + disp.toNat * 2 ^ 16)))
    (fun r => r.acts.addHold span.toNat disp.toNat))

/-- BRIDLE_REDACT (R334). -/
def execBridleRedact (h : HalfId) (l : Fin 16) (a b : LaneReg) (s : State) : Host.Outcome State Fault Refusal :=
  .next (s.actOn h l (bridleWord 0x42 0 a b 0#32) (fun r => r.acts.addRedact (r.get a).toNat (r.get b).toNat))

/-- BRIDLE_REWIND (R334). -/
def execBridleRewind (h : HalfId) (l : Fin 16) (n : Nat) (s : State) : Host.Outcome State Fault Refusal :=
  .next (s.actOn h l (bridleWord 0x43 0 0 0 (BitVec.ofNat 32 n)) (fun r => r.acts.addRewind n))

/-- BRIDLE_HALT (R334). -/
def execBridleHalt (h : HalfId) (l : Fin 16) (s : State) : Host.Outcome State Fault Refusal :=
  .next (s.actOn h l (bridleWord 0x44 0 0 0 0#32) (fun r => { r.acts with halt := true }))

/-- BRIDLE_BIAS (R334). -/
def execBridleBias (h : HalfId) (l : Fin 16) (a : LaneReg) (vector : Half) (s : State) : Host.Outcome State Fault Refusal :=
  .next (s.actOn h l (bridleWord 0x45 0 a 0 (vector.setWidth 32)) (fun r => r.acts.addBias vector (r.get a)))

/-- BRIDLE_TAG (R334). -/
def execBridleTag (h : HalfId) (l : Fin 16) (tag : Half) (s : State) : Host.Outcome State Fault Refusal :=
  .next (s.actOn h l (bridleWord 0x46 0 0 0 (tag.setWidth 32)) (fun r => r.acts.addTag tag))

end Sys2Proof.Machine
end

