-- ==== Sys2Proof/Machine/Sampling.lean ====
section
/-! DEFINITION. The arithmetic of a sampling step: grammar masks and actions (R303 to R308), candidates (R313, R318), the
choice (R301, R314), the random numbers (R315) and draft verification (R316). -/

namespace Sys2Proof.Machine

/-! ### Grammar (R303 to R308) -/

/-- The depth of a grammar's stack. -/
def Grammar.depth (g : Grammar) : Nat := g.stack.length

/-- How many of the lowest n bits of a bitmap are set. -/
def bitsBelow {w : Nat} (b : BitVec w) (n : Nat) : Nat := ((List.range n).filter (fun i => b.getLsbD i)).length

end Sys2Proof.Machine

namespace Sys2Proof
open Machine

/-- The class of a token (R303). -/
def SamplerTables.classOf (t : SamplerTables) (id : Nat) : Nat := (aget id t.classMap).getD 0

/-- A grammar state's entry (R304). -/
def SamplerTables.state (t : SamplerTables) (n : Nat) : GrammarState := (aget n t.states).getD ⟨false, 0, 0⟩

/-- A state's mask row (R305). -/
def SamplerTables.row (t : SamplerTables) (n : Nat) : MaskRow :=
  (t.rows[(t.state n).maskRow]?).getD ⟨0#4096, 0#4096, 0#4096⟩

/-- Whether a class is allowed in a state at a depth (R305). -/
def SamplerTables.allows (t : SamplerTables) (g : Grammar) (c : Nat) : Bool :=
  let r := t.row g.state
  r.allow.getLsbD c && (!r.need1.getLsbD c || decide (1 ≤ g.depth)) && (!r.need2.getLsbD c || decide (2 ≤ g.depth))

/-- The action of an allowed class in a state (R306). -/
def SamplerTables.action (t : SamplerTables) (g : Grammar) (c : Nat) : GrammarAction :=
  (aget ((t.state g.state).actionBase + bitsBelow (t.row g.state).allow c) t.actions).getD ⟨false, 0, 0, 0, 0, 0⟩

/-- The end bit of a token (R125, R308). -/
def EgressTables.endsAt (e : EgressTables) (id : Nat) : Bool :=
  decide (id < e.idLimit) && ((aget id e.detok).map (fun d => d.ends)).getD false

end Sys2Proof

namespace Sys2Proof.Machine

/-- A token's append in the grammar: the grammar after it and its log entry, or none on a depth overflow (R307, R311). -/
def grammarStep (t : SamplerTables) (ends : Bool) (g : Grammar) (id : Nat) : Option (Grammar × GrammarLog) :=
  if ends then
    some (g, { stateBefore := g.state, depthBefore := g.depth, pops := 0, popped0 := 0, popped1 := 0 })
  else
    let a := t.action g (t.classOf id)
    if 256 < g.depth - a.pops + a.pushes then none
    else
      let rest := g.stack.take (g.depth - a.pops)
      let gone := (g.stack.drop (g.depth - a.pops)).reverse
      let next := if a.returns then (gone.getLast?).getD a.target else a.target
      let pushed := [a.push0, a.push1].take a.pushes
      some ({ state := next, stack := rest ++ pushed },
        { stateBefore := g.state, depthBefore := g.depth, pops := a.pops, popped0 := (gone[0]?).getD 0,
          popped1 := (gone[1]?).getD 0 })

/-- Whether the mask of a position allows a token (R305, R308). -/
def tokenAllowed (t : SamplerTables) (g : Option Grammar) (ends : Bool) (id : Nat) : Bool :=
  match g with
  | none => true
  | some v => if ends then (t.state v.state).isFinal && decide (v.depth = 0) else t.allows v (t.classOf id)

/-! ### Random numbers (R315) -/

/-- Bits 63:40 of the generator for a counter value. -/
def randomBits (seed : DWord) (q : Nat) : Nat :=
  let x0 := seed + BitVec.ofNat 64 (q + 1) * 0x9E3779B97F4A7C15#64
  let x1 := (x0 ^^^ (x0 >>> 30)) * 0xBF58476D1CE4E5B9#64
  let x2 := (x1 ^^^ (x1 >>> 27)) * 0x94D049BB133111EB#64
  let x3 := x2 ^^^ (x2 >>> 31)
  (x3 >>> 40).toNat

/-- u of a counter value, exact in FP32. -/
def randomU (seed : DWord) (q : Nat) : Word := f32Round false (randomBits seed q) (-24)

/-! ### Candidates (R313, R318) -/

/-- The largest finite FP32 value. -/
def f32Largest : Word := 0x7F7FFFFF#32

/-- An infinity replaced by the largest finite value of its sign. -/
def clampInf (x : Word) : Word := if x = 0x7F800000#32 then f32Largest else if x = 0xFF800000#32 then 0xFF7FFFFF#32 else x

/-- The biased value of a logit (R318). A sum that is NaN (a scale or product that is no number) has no stated value: a
free finite one stands for it (log 32). -/
def biasedLogit (scale v logit : Word) : Word :=
  let r := f32Add logit (f32Mul scale v)
  if f32IsNaN r then Config.nanBits scale v logit &&& 0xFF7FFFFF#32 else clampInf r

/-- The bias an entry receives. -/
def biasOf (t : SamplerTables) (sp : Sampling) (id : Nat) : Option Word :=
  if sp.biasVector = 0xFFFF#16 then none
  else match t.biases[sp.biasVector.toNat]? with
    | some v => aget id v
    | none => none

/-- A candidate: its value and its token ID. -/
structure Candidate where
  value : Word
  id : Nat
deriving DecidableEq, Repr

/-- Insert a candidate: higher values first, earlier inserted ones before equal values. -/
def insertCandidate (c : Candidate) : List Candidate → List Candidate
  | [] => [c]
  | x :: xs => if (f32Key x.value).ult (f32Key c.value) then c :: x :: xs else x :: insertCandidate c xs

/-- What streaming the logits of one position gives. -/
structure Position where
  cands : List Candidate := []
  lowest : Option Nat := none
  best : Option Candidate := none
  nans : Nat := 0
deriving DecidableEq, Repr

/-- One entry of a position (R313 steps 3 to 7, R316). -/
def Position.entry (t : SamplerTables) (sp : Sampling) (allowed : Nat → Bool) (p : Position) (e : Word × Nat) : Position :=
  let (v, id) := e
  let p1 := if f32IsNaN v then { p with nans := p.nans + 1 }
    else match p.best with
      | some b => if (f32Key b.value).ult (f32Key v) then { p with best := some ⟨v, id⟩ } else p
      | none => { p with best := some ⟨v, id⟩ }
  if !allowed id then p1
  else
    let p2 := { p1 with lowest := some (p1.lowest.getD id) }
    if f32IsNaN v || decide (v = 0xFF800000#32) then p2
    else
      let x := clampInf v
      let y := match biasOf t sp id with | some b => biasedLogit sp.biasScale b x | none => x
      { p2 with cands := (insertCandidate ⟨y, id⟩ p2.cands).take 1024 }

/-- Stream a position's logits. -/
def streamPosition (t : SamplerTables) (sp : Sampling) (allowed : Nat → Bool) (vs : List Word) : Position :=
  vs.zipIdx.foldl (Position.entry t sp allowed) {}

/-! ### The choice (R301, R314) -/

/-- A running sum in FP32. -/
def f32Sum (l : List Word) : Word := l.foldl f32Add 0#32

/-- Greedy: a temperature that is NaN, negative or zero (R301). -/
def isGreedy (temperature : Word) : Bool := !f32Lt 0#32 temperature

/-- The first index whose running sum passes a test, with the sum there. -/
def firstSum (ok : Word → Bool) : List Word → Nat → Word → Option Nat
  | [], _, _ => none
  | p :: ps, i, a => let a' := f32Add a p; if ok a' then some i else firstSum ok ps (i + 1) a'

/-- The chosen candidate of a position, and whether top-p was cut by the candidate limit (R314). -/
def selectToken (sp : Sampling) (u : Word) (c : List Candidate) : Option Candidate × Bool :=
  match c with
  | [] => (none, false)
  | c0 :: _ =>
    let v0 := f32Div c0.value sp.temperature
    if isGreedy sp.temperature || !f32Finite v0 then (some c0, false)
    else
      let k1 := if sp.topK = 0 ∨ 1024 < sp.topK then 1024 else sp.topK
      let cs := c.take k1
      let e := cs.map (fun (x : Candidate) => f32Exp (f32Sub (f32Div x.value sp.temperature) v0))
      let total := f32Sum e
      let p := e.map (fun x => f32Div x total)
      let minOn := f32Lt 0#32 sp.minP && f32Le sp.minP 0x3F800000#32
      let bar := f32Mul sp.minP ((p.head?).getD 0#32)
      let p1 := if minOn then p.takeWhile (fun x => f32Le bar x) else p
      let topOn := f32Lt 0#32 sp.topP && f32Lt sp.topP 0x3F800000#32
      let cut := if topOn then firstSum (fun a => f32Le sp.topP a) p1 0 0#32 else none
      let p2 := match cut with | some i => p1.take (i + 1) | none => p1
      let target := f32Mul u (f32Sum p2)
      let i := (firstSum (fun a => f32Lt target a) p2 0 0#32).getD (p2.length - 1)
      (cs[i]?, topOn && cut.isNone)

/-! ### One step (R313, R316) -/

/-- The logits of a position of a complete set, in the order of token IDs. -/
def LogitSet.values (s : LogitSet) (position : Nat) : List Word :=
  let ps := s.pieces.filter (fun p => p.position = position)
  (ps.foldl (fun (l : List LogitPiece) p => (l.takeWhile (fun x => decide (x.first < p.first))) ++ [p]
    ++ (l.dropWhile (fun x => decide (x.first < p.first)))) []).flatMap (fun p => p.values)

/-- Draft j of a set. -/
def LogitSet.draft (s : LogitSet) (j : Nat) : Nat := (s.draftIds[j]?).getD 0

/-- What a sampled position gives: the token chosen there, whether the mask forbade its highest logit, and whether the token's action
overflows the stack. -/
structure Sampled where
  id : Nat
  masked : Bool
  overflows : Bool
deriving DecidableEq, Repr

/-- Whether a token's action overflows the stack of a grammar (R307). -/
def overflowsAt (t : SamplerTables) (g : Option Grammar) (ends : Bool) (id : Nat) : Bool :=
  match g with
  | none => false
  | some v => (grammarStep t ends v id).isNone

/-- Sample the positions from i on in their order, `left` of them at most; `g` is the grammar that the drafts before position i reach,
none without one. The positions after a draft that is not allowed in its own are not sampled, nor those after one that overflows
the stack, which reaches no state (R313, R315). A position whose mask allows nothing ends the list (R308). -/
def samplePositions (t : SamplerTables) (ends : Nat → Bool) (sp : Sampling) (set : LogitSet) :
    Nat → Nat → Nat → Option Grammar → StepResult → List Sampled → StepResult × List Sampled
  | 0, _, _, _, r, l => (r, l)
  | left + 1, i, q, g, r, l =>
    let p := streamPosition t sp (fun id => tokenAllowed t g (ends id) id) (set.values i)
    let r1 := { r with nans := r.nans + p.nans }
    match p.lowest with
    | none => (r1, l)
    | some low =>
      let cands : List Candidate := if p.cands.isEmpty then [⟨0#32, low⟩] else p.cands
      let pick := selectToken sp (randomU sp.seed q) cands
      let id := (pick.1.map (fun c => c.id)).getD low
      let r2 := { r1 with positions := r1.positions + 1, empties := r1.empties + (if p.cands.isEmpty then 1 else 0),
                          caps := r1.caps + (if pick.2 then 1 else 0) }
      let masked := match p.best with | some b => !tokenAllowed t g (ends b.id) b.id | none => false
      let l1 := l ++ [{ id := id, masked := masked, overflows := overflowsAt t g (ends id) id }]
      let d := set.draft i
      if set.drafts ≤ i || !tokenAllowed t g (ends d) d || overflowsAt t g (ends d) d then (r2, l1)
      else
        samplePositions t ends sp set left (i + 1) (q + 1)
          (g.bind (fun v => (grammarStep t (ends d) v d).map (fun x => x.1))) r2 l1

/-- Draft verification (R316, R320): the token of each position in turn, until one differs from its draft or the list ends; one that
overflows the stack, or a position that was to follow and has no entry, ends the step. -/
def verifyDrafts (set : LogitSet) : Nat → List Sampled → StepResult → StepResult
  | _, [], r => { r with grammarEnd := true }
  | i, y :: ys, r =>
    if y.overflows then { r with grammarEnd := true }
    else
      let r1 := { r with tokens := r.tokens ++ [(y.id, y.masked)] }
      if i < set.drafts ∧ y.id = set.draft i then verifyDrafts set (i + 1) ys { r1 with accepted := r1.accepted + 1 } else r1

/-- The result of a step from the stream's state at its logit stamp. -/
def sampleStep (t : SamplerTables) (e : Option EgressTables) (sp : Sampling) (q : Nat) (g : Option Grammar) (set : LogitSet) :
    StepResult :=
  let ends := fun id => match e with | some x => x.endsAt id | none => false
  let r := samplePositions t ends sp set (set.drafts + 1) 0 q g
    { tokens := [], accepted := 0, grammarEnd := false, positions := 0, nans := 0, empties := 0, caps := 0 } []
  verifyDrafts set 0 r.2 r.1

end Sys2Proof.Machine
end

