-- ==== Sys2Proof/Machine/Sampler.lean ====
section
/-! DEFINITION. Logit packets and sets (R294 to R297), the sampling step's release with the appended tokens (R317 to R322)
and the discard of rejected drafts' records (R286). -/

namespace Sys2Proof.Machine

/-- A sampler counter that raises NTC_SAMPLER (R325). -/
def samplerEvent (pos handle step now : Nat) : List Effect :=
  let k : CtrKey := ⟨0x0E, 0, pos⟩
  [.count k 1, .notice 10 (k.name ++ leBytes 8 handle ++ leBytes 2 step ++ leBytes 8 now)]

/-! ### Logit packets (R294 to R297) -/

/-- A logit packet's fields (R294). -/
structure LogitHeader where
  handle : Nat
  prevIndex : Nat
  step : Nat
  position : Nat
  drafts : Nat
  first : Nat
  count : Nat
  format : Nat
  draftIds : List Nat
deriving DecidableEq, Repr

/-- Read a logit header. -/
def parseLogit (b : List Byte) : LogitHeader :=
  { handle := field b 0 8, prevIndex := field b 8 4, step := field b 12 2, position := field b 14 1, drafts := field b 15 1,
    first := field b 16 4, count := field b 20 2, format := field b 22 1,
    draftIds := (List.range 15).map (fun j => field b (32 + 4 * j) 4 % 2 ^ 20) }

/-- Bytes of an entry of a format. -/
def logitSize (bf16 : Bool) : Nat := if bf16 then 2 else 4

/-- The entries of a packet as FP32 (R313 step 3). -/
def logitEntries (h : LogitHeader) (b : List Byte) : List Word :=
  (List.range h.count).map (fun i =>
    if h.format = 1 then BitVec.ofNat 32 (field b (128 + 2 * i) 2 * 2 ^ 16) else BitVec.ofNat 32 (field b (128 + 4 * i) 4))

/-- Whether a header is well formed on its own: a known format, an entry count of its range that the payload holds, a
position within the step (R294). -/
def LogitHeader.fits (h : LogitHeader) (payload : Nat) : Bool :=
  let size := logitSize (decide (h.format = 1))
  decide (h.format ≤ 1) && decide (1 ≤ h.count) && decide (h.count ≤ 8064 / size) && decide (128 + h.count * size ≤ payload)
    && decide (h.drafts ≤ 15) && decide (h.position ≤ h.drafts)

/-- Entries received of a position. -/
def LogitSet.repeats (s : LogitSet) (h : LogitHeader) : Bool :=
  s.pieces.any (fun p => decide (p.position = h.position) && decide (p.first < h.first + h.count)
    && decide (h.first < p.first + p.values.length))

/-- Whether a packet agrees with its set's first packet (R295). -/
def LogitSet.agrees (s : LogitSet) (h : LogitHeader) : Bool :=
  decide (s.prevIndex = h.prevIndex) && decide (s.drafts = h.drafts) && decide (s.bf16 = decide (h.format = 1))
    && decide (s.draftIds = h.draftIds)

/-- Entries of a set received so far. -/
def LogitSet.received (s : LogitSet) : Nat := s.pieces.foldl (fun n p => n + p.values.length) 0

/-- Bytes a set holds in the logit buffer (R297). -/
def LogitSet.size (s : LogitSet) : Nat := s.received * logitSize s.bf16

/-- Bytes of the logit buffer of a half in use: open sets, and complete ones until their step is done (R297). -/
def State.logitUse (s : State) (p : Policy) (h : HalfId) : Nat :=
  s.streams.table.foldl (fun n e =>
    if p.samplerHalf e.1 = h then
      n + (e.2.openSet.map LogitSet.size).getD 0
        + ((e.2.steps.filter (fun x => !x.done)).foldl (fun m x => m + x.set.size) 0)
    else n) 0

/-! ### A step's logit stamp (R302, R322) -/

/-- At the first step under a new policy the bias is cleared, and a grammar that the policy does not hold with the same
content is dropped (R322); readers see both from the stream's next boundary on (R86). Answers whether it was dropped. -/
def Stream.samplerCut (st : Stream) (p : Policy) : Stream × Bool :=
  if p.epoch = st.sampleEpoch then (st, false)
  else
    let id := st.sampling.grammarId
    let sp : Sampling := { st.sampling with biasVector := 0xFFFF#16, biasScale := 0#32 }
    let same : Bool := match p.grammarContent id, st.grammarContent with
      | some a, some b => decide (a = b)
      | _, _ => false
    if id = 0xFFFF ∨ same then ({ st with sampling := sp, sampleEpoch := p.epoch }, false)
    else
      ({ st with sampling := { sp with grammarId := 0xFFFF, logIndex := none }, sampleEpoch := p.epoch, workGrammar := {},
                 log := [] }, true)

/-- The highest surviving appended index, or 0xFFFF_FFFF. -/
def Stream.highest (st : Stream) : Nat :=
  ((st.survivors ++ (st.tokens.filter (fun t => !t.discarded)).map (fun t => t.index)).getLast?).getD 0xFFFFFFFF

/-- The stop reason that the tokens appended so far give the next step: an end token that survives, or index `max_tokens` − 1; 0 for
none (R320). -/
def Stream.appendedEnd (st : Stream) : Nat :=
  if st.tokens.any (fun t => !t.discarded && t.ends) then 1
  else if st.maxTokens ≠ 0 ∧ st.maxTokens ≤ st.nextIndex then 3
  else 0

/-- A set completed at a stamp: the step is sampled from the stream's state at that stamp, and its surviving tokens are those of
the stamp (R302). -/
def State.logitStamp (s : State) (k : SlotId) (st : Stream) (p : Policy) (t : SamplerTables) (set : LogitSet) (stamp : Nat) :
    State :=
  let cut := st.samplerCut p
  let st1 := cut.1
  let has := decide (st1.sampling.grammarId ≠ 0xFFFF)
  let r := sampleStep t p.tables.egress st1.sampling st1.rngNext (if has then some st1.workGrammar else none) set
  let eff := s.effStamp stamp
  let x : Step := { set := set, stamp := eff, release := eff + p.delay 3, epoch := p.epoch, sampling := st1.sampling,
                    grammar := st1.workGrammar, hasGrammar := has, grammarDropped := cut.2, highest := st1.highest,
                    ended := st1.appendedEnd, result := r }
  let s1 := s.setStream k { st1 with openSet := none, steps := st1.steps ++ [x], rngNext := st1.rngNext + r.positions }
  if cut.2 then
    let logs := match st.sampling.logIndex with | some i => s1.streams.logs.erase i | none => s1.streams.logs
    ({ s1 with streams := { s1.streams with logs := logs } }).count1 0x0E 0 17
  else s1

/-- An accepted packet joins its set; the set that it completes gets its logit stamp, unless the stream's open commits after that
stamp (R65, R295, R296). -/
def State.joinSet (s : State) (k : SlotId) (st : Stream) (p : Policy) (t : SamplerTables) (h : LogitHeader) (a : Arrival) :
    State :=
  let s1 := s.count1 0x0E 0 7
  let old := st.openSet.filter (fun x => decide (x.step = h.step))
  let s2 := if st.openSet.isSome && old.isNone then s1.count1 0x0E 0 9 else s1
  let base : LogitSet := old.getD
    { step := h.step, prevIndex := h.prevIndex, drafts := h.drafts, bf16 := decide (h.format = 1), draftIds := h.draftIds,
      firstStamp := a.stamp, pieces := [] }
  let set : LogitSet := { base with pieces := base.pieces ++
    [{ position := h.position, first := h.first, values := logitEntries h a.pkt.payload }] }
  if set.received < t.vocab * (set.drafts + 1) then s2.setStream k { st with openSet := some set }
  else
    if s.effStamp a.stamp < st.openStamp + 512 then
      (s2.setStream k { st with openSet := none }).violation a.pkt.hdr.seq (edgeByte a.edge)
    else s2.logitStamp k st p t set a.stamp

/-- An open set whose window a packet's stamp lies past is discarded first (R296). -/
def State.expireSet (s : State) (k : SlotId) (st : Stream) (window stamp : Nat) : Stream × State :=
  match st.openSet with
  | some x =>
    if x.firstStamp + window ≤ stamp then
      let st1 : Stream := { st with openSet := none }
      (st1, (s.setStream k st1).effects (samplerEvent 10 st.handle.toNat x.step s.now))
    else (st, s)
  | none => (st, s)

/-- A packet of the stream in slot k (R295 to R297). -/
def State.logitFor (s0 : State) (k : SlotId) (st0 : Stream) (a : Arrival) : State :=
  let h := parseLogit a.pkt.payload
  match (s0.policyFor st0 a.stamp).bind (fun p => (s0.samplerTables p k).map (fun t => (p, t))) with
  | none => s0.effects (samplerEvent 8 h.handle h.step s0.now)
  | some (p, t) =>
      let e := s0.expireSet k st0 t.logitWindow a.stamp
      let st := e.1
      let s := e.2
      let bad := s.effects (samplerEvent 8 h.handle h.step s.now)
      let clash := match st.openSet with
        | some x => decide (x.step = h.step) && (x.repeats h || !x.agrees h)
        | none => false
      if !st.req.egress || !h.fits a.pkt.payload.length || decide (t.vocab < h.first + h.count)
          || decide (st.sampling.drafts < h.drafts) || clash then bad
      else if 16777216 < s.logitUse p (p.samplerHalf k) + h.count * logitSize (decide (h.format = 1)) then
        s.effects (samplerEvent 11 h.handle h.step s.now)
      else s.joinSet k st p t h a

/-- Whether a packet at port 0xD3 can be taken: no commit, append or command boundary of its stream that comes first is owed
(R80, R302). -/
def State.logitReady (s : State) (a : Arrival) : Bool :=
  match s.streamOf (field a.pkt.payload 0 8) with
  | some (_, st) =>
    let t := s.effStamp a.stamp
    !st.owes t && !s.commandOwed st.handle.toNat t && !st.steps.any (fun x => !x.released && decide (x.release < t))
  | none => true

/-- LOGIT_PACKET: the oldest packet at port 0xD3 (R60, R294, R295). -/
def logitPacket (s : State) : State :=
  match s.takeInbox (fun a => decide (a.pkt.hdr.port = 0xD3#8) && s.logitReady a) with
  | none => s
  | some (a, s1) =>
    let h := parseLogit a.pkt.payload
    let bad := s1.effects (samplerEvent 8 h.handle h.step s1.now)
    if a.pkt.hdr.cls ≠ 0#3 ∨ !s1.policies.any (fun p => p.role 1) then bad
    else match s1.named h.handle with
      | .stale => s1.count1 0x14 0 0
      | .stream k st => s1.logitFor k st a
      | _ => bad

/-- LOGIT_WINDOW_EXPIRY: an incomplete set is discarded at its first stamp plus `logit_window` (R296). -/
def logitExpiry (k : SlotId) (s : State) : State :=
  match aget k s.streams.table with
  | none => s
  | some st =>
    match st.openSet, ((s.policyOf st).bind (fun p => p.tables.sampler)) with
    | some x, some t =>
      if x.firstStamp + t.logitWindow ≤ s.now then
        (s.setStream k { st with openSet := none }).effects (samplerEvent 10 st.handle.toNat x.step s.now)
      else s
    | _, _ => s

/-! ### The step's end (R40, R41, R321) -/

/-- Mark the first step that a test picks. -/
def mapFirst {α : Type} (f : α → Bool) (g : α → α) : List α → List α
  | [] => []
  | x :: xs => if f x then g x :: xs else x :: mapFirst f g xs

/-- SAMPLER_STEP_DONE: the first step of a slot that is not done completes; after its release tick it is late (R41), and so is one whose tables are
poisoned (R470). -/
def stepDone (k : SlotId) (s : State) : State :=
  match aget k s.streams.table with
  | none => s
  | some st =>
    match st.steps.find? (fun x => !x.done && !x.late) with
    | none => s
    | some x =>
      let bad := s.tablePoison 3 st.handle x.stamp
      let es : List Effect := s.tableEffects bad ++ (if x.result.nans = 0 then [] else [.count ⟨0x0E, 0, 12⟩ x.result.nans])
        ++ (if x.result.empties = 0 then [] else [.count ⟨0x0E, 0, 13⟩ x.result.empties])
        ++ (if x.result.caps = 0 then [] else [.count ⟨0x0E, 0, 14⟩ x.result.caps])
      if x.released then
        (s.setStream k { st with steps := st.steps.erase x }).effects (es ++ lateDiscard 3)
      else
        let late := decide (x.release ≤ s.now)
        let s1 := s.setStream k { st with
          steps := mapFirst (fun y => decide (y = x)) (fun (y : Step) => { y with done := !late && bad.isNone, late := late || bad.isSome }) st.steps }
        s1.effects (if late then es ++ lateDiscard 3 else es)

/-! ### Appending (R128, R317) -/

/-- The text a token contributes before repair, and whether it stands for an undefined token (R125, R127). -/
def tokenText (e : Option EgressTables) (id : Nat) : List Byte × Bool :=
  match e with
  | none => (fffd, true)
  | some t =>
    match (if id < t.idLimit then aget id t.detok else none) with
    | none => if id < t.idLimit then ([], false) else (fffd, true)
    | some d =>
      if d.ends then ([], decide (d.kind = 3))
      else if d.kind = 3 then (fffd, true)
      else if d.kind = 2 then ([], false)
      else ((t.pool.drop d.poolOffset).take d.length, false)

/-- What appending is given besides the stream: the policy that the tokens run under, the tables of the step's own policy, whose
grammar they walk (R302), and the step. -/
structure Appending where
  policy : Policy
  grammar : Option SamplerTables
  step : Step
  env : Env
deriving DecidableEq, Repr

/-- A token's action in the working grammar: none without a grammar, and `some none` where it overflows the stack (R307, R311). -/
def Stream.grammarAppend (st : Stream) (c : Appending) (id : Nat) : Option (Option (Grammar × GrammarLog)) :=
  if c.step.hasGrammar && decide (st.sampling.grammarId ≠ 0xFFFF) then
    c.grammar.map (fun t => grammarStep t ((c.policy.tables.egress.map (fun e => e.endsAt id)).getD false) st.workGrammar id)
  else none

/-- Append one token at the step's release tick. -/
def Stream.append (st : Stream) (c : Appending) (pos id masked : Nat) : Stream :=
  let p := c.policy
  let n := st.nextIndex
  let raw := tokenText p.tables.egress id
  let ends := match p.tables.egress with | some e => e.endsAt id | none => false
  let st := st.stopCut c.env p
  let (text, bytes, replaced) := st.work.append c.env.stop n raw.1
  let scan := st.scanAwl p c.env.slot none (bytes.zipIdx.map (fun (b, i) => (b, st.work.write + i)))
  let step := (st.grammarAppend c id).join
  let g := (step.map (fun x => x.1)).getD st.workGrammar
  let stamp := c.step.release
  let release := c.env.now + p.delay 4
  let t : Token :=
    { index := n, id := id, stamp := stamp, stepPos := pos, epoch := p.epoch, release := release, cutoff := release - p.cb,
      bytes := bytes, start := st.work.write, replaced := replaced, isUndefined := raw.2, ends := ends,
      atMax := decide (st.maxTokens ≠ 0) && decide (n + 1 = st.maxTokens), textAfter := text, grammarAfter := g,
      awl := scan.results, awlAfter := scan.insts,
      masked := masked, proposed := if pos = 0 then c.step.set.drafts else 0,
      accepted := if pos = 0 then c.step.result.accepted else 0 }
  { scan.stream with
    tokens := st.tokens ++ [t], appended := some n, nextIndex := n + 1, work := text, workGrammar := g,
    log := match step with | some x => aset (n % 512) x.2.word st.log | none => st.log,
    endAppended := if ends then some n else st.endAppended }

/-- Append the step's tokens in order until a stop (R317): the stream and the stop reason, with the tokens' IDs. -/
def Stream.appendAll (c : Appending) : List (Nat × Bool) → Nat → Stream → List Nat → Stream × List Nat × Nat
  | [], _, st, ids => (st, ids, if c.step.result.grammarEnd then 7 else 0)
  | (id, _) :: rest, pos, st, ids =>
    let st1 := st.append c pos id 0
    let ends := match c.policy.tables.egress with | some e => e.endsAt id | none => false
    if st.grammarAppend c id = some none then (st, ids, 7)
    else if ends then (st1, ids ++ [id], 1)
    else if st.maxTokens ≠ 0 ∧ st.nextIndex + 1 = st.maxTokens then (st1, ids ++ [id], 3)
    else if st.nextIndex = 0xFFFFFFFF then (st1, ids ++ [id], 0)
    else Stream.appendAll c rest (pos + 1) st1 (ids ++ [id])

/-- Put the step's masked count on its first appended token (R316). -/
def Stream.setMasked (st : Stream) (first n : Nat) : Stream :=
  { st with tokens := st.tokens.map (fun (t : Token) => if t.index = first then { t with masked := n } else t) }

/-! ### The release (R319, R320) -/

/-- Why a step appends nothing: flags, stop reason, and whether the stream is halted at the step boundary (R320). -/
structure NoToken where
  flags : Nat
  reason : Nat
  halts : Bool
deriving DecidableEq, Repr

/-- The first row of R320 that applies, if one does. The highest surviving index is the logit stamp's (R302); an end token or last
index stops a step that finds it at its stamp or at its release, and the last row but one asks only what was appended (log 28). -/
def Stream.noToken (st : Stream) (x : Step) : Option NoToken :=
  if !x.done then some ⟨0, 9, true⟩
  else if st.gone then some ⟨0, st.stopReason, false⟩
  else if st.rewinds.any (fun b => decide (b ≤ x.release) && decide (x.stamp < b + 512)) then some ⟨4, 0, false⟩
  else if x.set.prevIndex ≠ x.highest then some ⟨2, 0, false⟩
  else if st.appendedEnd ≠ 0 then some ⟨0, st.appendedEnd, false⟩
  else if x.ended ≠ 0 then some ⟨0, x.ended, false⟩
  else if 0xFFFFFFFF < st.nextIndex then some ⟨0, 8, true⟩
  else if x.result.tokens.isEmpty then some ⟨0, 7, true⟩
  else none

/-- A token packet's payload (R319). -/
def tokenPayload (h : BitVec 48) (first accepted reason flags : Nat) (x : Step) (ids : List Nat) : List Byte :=
  handleBytes h ++ leBytes 4 first ++ leBytes 1 ids.length ++ leBytes 1 accepted ++ leBytes 1 reason ++ leBytes 1 flags
    ++ leBytes 2 x.set.step ++ leBytes 2 0 ++ leBytes 4 x.set.prevIndex
    ++ padTo 64 (ids.flatMap (fun i => leBytes 4 (i % 2 ^ 20))) ++ List.replicate 40 0#8

/-- Send a token packet under the step's policy. -/
def State.sendTokens (s : State) (st : Stream) (x : Step) (payload : List Byte) : State :=
  let p := s.policyByEpoch x.epoch
  match p.bind (fun q => q.tables.sampler) with
  | some t =>
    s.sendClass0 (BitVec.ofNat 12 t.tokenGroup) t.tokenPort true st.handle payload ((p.map (fun q => q.edgeLatency 3)).getD 0)
  | none => s

/-- Discard the records of rejected drafts (R286). -/
def State.purgeDrafts (s : State) (k : SlotId) (st : Stream) (n a : Nat) : State :=
  let gone := fun (c : Contribution) => decide (c.handle = st.handle) && decide (a < c.probe.draftPos)
    && decide ((c.index + 2 ^ 32 - c.probe.draftPos) % 2 ^ 32 = n % 2 ^ 32)
  let count := (s.streams.buffer.filter gone).length
  let s1 := { s with streams := { s.streams with buffer := s.streams.buffer.filter (fun c => !gone c) } }
  if count = 0 then s1 else s1.streamWord k 8 count

/-- A grammar halt's count and notice, of a step that halts its stream (R320, R325). -/
def grammarHalt (st : Stream) (x : Step) (halts : Bool) (reason now : Nat) : List Effect :=
  if halts && decide (reason = 7) then samplerEvent 15 st.handle.toNat x.set.step now else []

/-- Release a step that appends nothing. Its halt is due where a token appended by it would commit (R320), and a late default is one
of the stream's word 7 (R71). -/
def State.releaseNone (s : State) (k : SlotId) (st : Stream) (x : Step) (r : NoToken) (vl : Nat) : State :=
  let halts := if r.halts then st.stepHalts ++ [{ due := s.effStamp x.release + vl, reason := r.reason }] else st.stepHalts
  let s1 := s.setStream k ({ st with stepHalts := halts }.owe 7 (if r.reason = 9 ∧ r.halts then 1 else 0))
  let es : List Effect := [.count ⟨0x0E, 0, 2⟩ 1] ++ (if r.flags = 2 then [.count ⟨0x0E, 0, 3⟩ 1] else [])
    ++ (if r.flags = 4 then [.count ⟨0x0E, 0, 4⟩ 1] else [])
    ++ (if r.reason = 9 ∧ r.halts then lateEvent 3 st.handle st.nextIndex else []) ++ grammarHalt st x r.halts r.reason s.now
  let flags := r.flags + 1 + (if x.grammarDropped then 8 else 0)
  (s1.effects es).sendTokens st x (tokenPayload st.handle (st.nextIndex % 2 ^ 32) 0 r.reason flags x [])

/-- Release a step with tokens to append: they are appended, the packet goes out, and rejected drafts' records are discarded. A step
whose first token would pass the stack's depth appends nothing (R307). -/
def State.releaseTokens (s : State) (k : SlotId) (st : Stream) (x : Step) (p : Policy) : State :=
  let first := st.nextIndex
  let c : Appending := { policy := p, grammar := (s.policyByEpoch x.epoch).bind (fun q => s.samplerTables q k), step := x, env := { s.env k st (some p) with now := s.effStamp x.release } }
  let (st1, ids, reason) := Stream.appendAll c x.result.tokens 0 st []
  let masked := ((x.result.tokens.take ids.length).filter (fun e => e.2)).length
  let halts := if reason = 7 then st1.stepHalts ++ [{ due := s.effStamp x.release + p.delay 4, reason := 7 }] else st1.stepHalts
  let st2 := { st1.setMasked first masked with stepHalts := halts }
  if ids.isEmpty then s.releaseNone k st x ⟨0, 7, true⟩ (p.delay 4)
  else
    let a := x.result.accepted
    let restarts := (((st1.tokens.filter (fun t => decide (first ≤ t.index))).flatMap (fun t => t.awl)).filter (fun r => r.restarted)).length
    let es : List Effect := [.count ⟨0x0E, 0, 1⟩ ids.length]
      ++ (if restarts = 0 then [] else [.count ⟨0x08, 0, 3⟩ restarts]) ++ (if a = 0 then [] else [.count ⟨0x0E, 0, 6⟩ a])
      ++ grammarHalt st x true reason s.now
    let flags := if x.grammarDropped then 8 else 0
    (((s.setStream k st2).effects es).sendTokens st2 x (tokenPayload st.handle (first % 2 ^ 32) a reason flags x ids)).purgeDrafts
      k st2 first a

/-- The first step of a slot whose release tick is reached. -/
def Stream.dueStep (st : Stream) (now : Nat) : Option Step := st.steps.find? (fun x => !x.released && decide (x.release ≤ now))

/-- Take a step out: one that is done leaves, one that is not stays until it completes late. -/
def Stream.takeStep (st : Stream) (x : Step) : Stream :=
  { st with
    steps := if x.done || x.late then st.steps.erase x else mapFirst (fun y => decide (y = x)) (fun (y : Step) => { y with released := true }) st.steps
    rngReleased := st.rngReleased + x.result.positions }

/-- The release of the stream of slot k's due step; commits of its release tick come first (R74, R320). -/
def State.releaseStep (s : State) (k : SlotId) (st : Stream) (x : Step) : State :=
  if st.owes x.release then s
  else
    let st1 := st.takeStep x
    let p := s.policyFor st x.release
    let vl := (p.map (fun q => q.delay 4)).getD 0
    let d := x.set.drafts
    let s1 := s.effects ([.count ⟨0x0E, 0, 0⟩ 1] ++ (if d = 0 then [] else [.count ⟨0x0E, 0, 5⟩ d]))
    match st.noToken x, p with
    | none, some q => s1.releaseTokens k st1 x q
    | some r, _ => s1.releaseNone k st1 x r vl
    | none, none => s1.releaseNone k st1 x ⟨0, st.stopReason, false⟩ vl

/-- An answer of a freed slot's stream that is due (R74). -/
def State.dueOrphan (s : State) (f : Orphan → Bool) : Option (Orphan × State) :=
  match s.streams.orphans.find? (fun o => f o && decide (o.release ≤ s.now)) with
  | some o => some (o, { s with streams := { s.streams with orphans := s.streams.orphans.erase o } })
  | none => none

/-- SAMPLE_RELEASE (R319, R320). -/
def sampleRelease (k : SlotId) (s : State) : State :=
  match s.dueOrphan (fun o => o.sample && decide (o.slot = k)) with
  | some (o, s1) =>
    (s1.effects ([.count ⟨0x0E, 0, 0⟩ 1, .count ⟨0x0E, 0, 2⟩ 1]
      ++ (if o.drafts = 0 then [] else [.count ⟨0x0E, 0, 5⟩ o.drafts]))).sendClass0 (BitVec.ofNat 12 o.dest) o.port true o.handle o.payload o.lat
  | none =>
    match (aget k s.streams.table).bind (fun st => (st.dueStep s.now).map (fun x => (st, x))) with
    | some (st, x) => s.releaseStep k st x
    | none => s

/-! ### Meanings -/

/-- LOGIT_PACKET (R60, R65, R294 to R297, R302). -/
def execLogitPacket (s : State) : Host.Outcome State Fault Refusal := .next (logitPacket s)

/-- LOGIT_WINDOW_EXPIRY (R296). -/
def execLogitWindowExpiry (k : SlotId) (s : State) : Host.Outcome State Fault Refusal := .next (logitExpiry k s)

/-- SAMPLER_STEP_DONE (R301 to R316, R321). -/
def execSamplerStepDone (k : SlotId) (s : State) : Host.Outcome State Fault Refusal := .next (stepDone k s)

/-- SAMPLE_RELEASE (R74, R286, R317 to R320). -/
def execSampleRelease (k : SlotId) (s : State) : Host.Outcome State Fault Refusal := .next (sampleRelease k s)

end Sys2Proof.Machine
end

