-- ==== Sys2Proof/Machine/Skiver.lean ====
section
/-! DEFINITION. What the skiver does to text: repair and escapes (R96 to R98), special tokens (R100, R101), pre-tokens
(R103, R104), the table lookups (R107 to R109) and the encoding of a chunk (R112). -/

namespace Sys2Proof.Machine

/-! ### Characters (R96, R98) -/

/-- A character of repaired text: its bytes, the received position it stands for, and what was done to it. -/
structure SkChar where
  bytes : List Byte
  pos : Nat
  replaced : Bool := false
  escaped : Bool := false
  control : Bool := false
  undef : Bool := false
deriving DecidableEq, Repr

/-- Whether a code point spells a special token in its private-use form (R98, R100). -/
def isPrivateUse (c : Nat) : Bool := decide (0xF0000 ≤ c) && decide (c ≤ 0xF0FFF)

/-- The control characters of R98 and R27: C0 but for U+0009, U+000A and U+000D, U+007F and C1. -/
def isControl (c : Nat) : Bool :=
  (decide (c < 0x20) && decide (c ≠ 9) && decide (c ≠ 10) && decide (c ≠ 13)) || (decide (0x7F ≤ c) && decide (c ≤ 0x9F))

/-- Whether a repaired character is a replacement: its three bytes stand for one position. -/
def isReplacement (c : List PosByte) : Bool :=
  match c with
  | [a, b, d] => decide ([a.1, b.1, d.1] = fffd) && decide (a.2 = b.2) && decide (b.2 = d.2)
  | _ => false

/-- The position of a character's first byte. -/
def firstPos (c : List PosByte) : Nat := (c.head?.map (fun b => b.2)).getD 0

/-- One character on a channel with a control mode (R98). -/
def skChar (channel mode : Nat) (c : List PosByte) : SkChar :=
  let p := firstPos c
  let cp := codePoint c
  if isReplacement c then { bytes := fffd, pos := p, replaced := true }
  else if channel ≠ 0 ∧ isPrivateUse cp then { bytes := fffd, pos := p, escaped := true }
  else if isControl cp ∧ mode ≠ 2 then { bytes := if mode = 1 then [] else fffd, pos := p, control := true }
  else { bytes := c.map (fun b => b.1), pos := p }

/-! ### Special tokens (R100, R101) -/

end Sys2Proof.Machine

namespace Sys2Proof
open Machine

/-- Special entry k, when defined. -/
def SkiverTables.special (t : SkiverTables) (k : Nat) : Option Nat :=
  match aget k t.specials with
  | some e => if e.isDefined then some e.tokenId else none
  | none => none

/-- The spellings of the defined entries with their token IDs. -/
def SkiverTables.spellings (t : SkiverTables) : List (List Byte × Nat) :=
  (t.specials.filter (fun e => e.2.isDefined && !e.2.spelling.isEmpty)).map (fun e => (e.2.spelling, e.2.tokenId))

/-- Whether a token ID is a special one (R102). -/
def SkiverTables.isSpecial (t : SkiverTables) (id : Nat) : Bool := t.specials.any (fun e => e.2.isDefined && decide (e.2.tokenId = id))

/-- A channel's control mode (R105). -/
def SkiverTables.mode (t : SkiverTables) (channel : Nat) : Nat := t.controlMode.toNat / 4 ^ channel % 4

end Sys2Proof

namespace Sys2Proof.Machine

/-- Whether p is a prefix of l. -/
def isPrefix (p l : List Byte) : Bool := decide (l.take p.length = p)

/-- How many characters from the front make up n bytes, when a boundary falls there. -/
def charsOf : List SkChar → Nat → Option Nat
  | _, 0 => some 0
  | [], _ + 1 => none
  | c :: cs, n + 1 => if c.bytes.length ≤ n + 1 then (charsOf cs (n + 1 - c.bytes.length)).map (fun k => k + 1) else none

/-- What the special-token lookup finds at a position of the template channel. -/
inductive Special where
  /-- A special token over a number of characters. -/
  | token (id chars : Nat)
  /-- A spelling that may still complete (R101). -/
  | incomplete
  /-- An undefined private-use form. -/
  | undef
  | none
deriving DecidableEq, Repr

/-- The lookup at the front of the text left; `tail` is the incomplete character after it (R101). -/
def findSpecial (t : SkiverTables) (cs : List SkChar) (tail : List Byte) (final : Bool) : Special :=
  match cs with
  | [] => .none
  | c :: _ =>
    let cp := codePoint (c.bytes.map (fun b => (b, 0)))
    if isPrivateUse cp then (match t.special (cp - 0xF0000) with | some id => .token id 1 | none => .undef)
    else
      let rest := cs.flatMap (fun x => x.bytes)
      let open' := t.spellings.any (fun sp => decide (rest.length < sp.1.length) && isPrefix (rest ++ tail |>.take sp.1.length) sp.1)
      if !final && open' then .incomplete
      else
        let hits := t.spellings.filter (fun sp => isPrefix sp.1 rest)
        match hits.foldl (fun (b : Option (List Byte × Nat)) h =>
            match b with | none => some h | some x => if x.1.length < h.1.length then some h else some x) none with
        | some h => (match charsOf cs h.1.length with | some n => .token h.2 n | none => .none)
        | none => .none

/-! ### Pre-tokens (R103) -/

/-- A piece of a chunk: a special token, or a pre-token's characters. -/
structure Piece where
  special : Option Nat
  chars : List SkChar
deriving DecidableEq, Repr

/-- The split of a chunk under way: pieces done, the pre-token open, the automaton's state there and now. -/
structure Split where
  pieces : List Piece := []
  cur : List SkChar := []
  curState : BitVec 24
  state : BitVec 24
  splits : Nat := 0
  stopped : Option Nat := none
deriving DecidableEq, Repr

/-- Close the open pre-token. -/
def Split.close (s : Split) : Split := if s.cur.isEmpty then s else { s with pieces := s.pieces ++ [⟨none, s.cur⟩], cur := [] }

/-- The bytes of characters. -/
def charBytes (cs : List SkChar) : List Byte := cs.flatMap (fun c => c.bytes)

/-- The pre-token is split where it stands, and counted. -/
def Split.cut (s : Split) : Split := { s.close with splits := s.splits + 1 }

/-- One character through the automaton: a boundary before it when a transition enters a boundary state, and a forced split
at the last character boundary at or before byte 64 of a pre-token that reaches 64 bytes (R103). -/
def Split.char (a : Option (Automaton × AwlTables)) (s : Split) (c : SkChar) : Split :=
  let r := c.bytes.foldl (fun (acc : BitVec 24 × Bool) b =>
    match a with
    | some (x, t) => let st := x.step t acc.1 b; (st.1, acc.2 || entryBoundary st.2)
    | none => acc) (s.state, false)
  let s1 := if r.2 then s.close else s
  let s2 := if !s1.cur.isEmpty && decide (64 < (charBytes s1.cur).length + c.bytes.length) then s1.cut else s1
  let s3 := if s2.cur.isEmpty then { s2 with curState := s.state } else s2
  let s4 := { s3 with cur := s3.cur ++ [c], state := r.1 }
  if (charBytes s4.cur).length = 64 then s4.cut else s4

/-- Split the characters of a chunk; the fuel is their number. -/
def splitChars (t : SkiverTables) (a : Option (Automaton × AwlTables)) (start : BitVec 24) (channel : Nat) (tail : List Byte)
    (final : Bool) : Nat → List SkChar → Split → Split
  | 0, _, s => s
  | _, [], s => s
  | f + 1, c :: cs, s =>
    match (if channel = 0 then findSpecial t (c :: cs) tail final else .none) with
    | .incomplete => { s with stopped := some c.pos }
    | .token id n =>
      let s1 := s.close
      splitChars t a start channel tail final f ((c :: cs).drop n)
        { s1 with pieces := s1.pieces ++ [⟨some id, (c :: cs).take n⟩], state := start }
    | .undef => splitChars t a start channel tail final f cs (s.char a { c with bytes := fffd, undef := true })
    | .none => splitChars t a start channel tail final f cs (s.char a c)

/-! ### Lookups (R107 to R109) -/

/-- The slots probed for a hash, first to last. -/
def probeSlots (h : Nat) : List Nat := (List.range 8).map (fun i => (h + i) % 4194304)

/-- Probe slots until one satisfies the test or one is not occupied. -/
def probeFirst {α : Type} (table : List (Nat × α)) (ok : α → Bool) : List Nat → Option α
  | [] => none
  | n :: ns =>
    match aget n table with
    | none => none
    | some v => if ok v then some v else probeFirst table ok ns

/-- The vocabulary lookup of bytes. -/
def vocabLookup (t : SkiverTables) (bs : List Byte) : Option VocabSlot :=
  let h := (crc32c bs).toNat
  probeFirst t.vocab (fun v => decide (v.fingerprint = h / 2 ^ 22) && decide (v.length = bs.length)
    && decide ((t.pool.drop v.poolOffset).take v.length = bs)) (probeSlots h)

/-- The merge of a pair. -/
def mergeLookup (t : SkiverTables) (l r : Nat) : Option MergeSlot :=
  probeFirst t.merges (fun m => decide (m.left = l) && decide (m.right = r)) (probeSlots (crc32c (leBytes 4 l ++ leBytes 4 r)).toNat)

/-! ### Encoding (R112) -/

/-- The merge of lowest rank among adjacent pairs, the first of equal ones. -/
def bestMerge (t : SkiverTables) : List Nat → Option MergeSlot
  | a :: b :: rest =>
    match mergeLookup t a b, bestMerge t (b :: rest) with
    | some m, some n => if n.rank < m.rank then some n else some m
    | some m, none => some m
    | none, o => o
  | _ => none

/-- Replace each pair from left to right that overlaps no replacement already made. -/
def applyMerge (m : MergeSlot) : List Nat → List Nat
  | a :: b :: rest => if a = m.left ∧ b = m.right then m.result :: applyMerge m rest else a :: applyMerge m (b :: rest)
  | l => l

/-- Merge rounds until none applies; the fuel is the number of bytes. Answers the tokens and the rounds. -/
def mergeRounds (t : SkiverTables) : Nat → List Nat → Nat → List Nat × Nat
  | 0, toks, n => (toks, n)
  | f + 1, toks, n =>
    match bestMerge t toks with
    | none => (toks, n + 1)
    | some m => mergeRounds t f (applyMerge m toks) (n + 1)

/-- The tokens of a pre-token, whether by the vocabulary path, and the merge rounds (R112). -/
def encodePiece (t : SkiverTables) (bs : List Byte) : List Nat × Bool × Nat :=
  match vocabLookup t bs with
  | some v => if v.wholeOk then ([v.tokenId], true, 0) else slow
  | none => slow
where
  /-- The path through the byte map. -/
  slow : List Nat × Bool × Nat :=
    let r := mergeRounds t bs.length (bs.map (fun b => (aget b.toNat t.byteMap).getD 0)) 0
    (r.1, false, r.2)

/-- A chunk's encoding and what it carries. -/
structure Encoded where
  code : ChunkCode
  carry : SkiverCarry
deriving DecidableEq, Repr

/-- The repaired bytes with a position each: a character unchanged keeps each byte's own position (R170). -/
def screenBytes (cs : List SkChar) : List PosByte :=
  cs.flatMap (fun c =>
    if c.replaced || c.escaped || c.control || c.undef then c.bytes.map (fun b => (b, c.pos))
    else c.bytes.zipIdx.map (fun (b, i) => (b, (c.pos + i) % 2 ^ 32)))

/-- Encode a chunk: the raw bytes from `scan_from` on (R96 to R104, R112). -/
def encodeChunk (t : SkiverTables) (a : Option (Automaton × AwlTables)) (channel : Nat) (final : Bool)
    (state : Option (BitVec 24)) (raw : List PosByte) : Encoded :=
  let rep0 := repairBytes [] raw
  let rep := if final then rep0.finish else rep0
  let tail := rep.carry
  let cs := rep.chars.map (skChar channel (t.mode channel))
  let start : BitVec 24 := match a with | some (x, _) => stateValue x.firstLane x.start | none => 0#24
  let st := state.getD start
  let sp := splitChars t a start channel (tail.map (fun b => b.1)) final cs.length cs { curState := st, state := st }
  let s := if final then sp.close else sp
  -- where the bytes that stay begin, and the automaton's state there
  let cut : Option Nat := if !s.cur.isEmpty then s.cur.head?.map (fun c => c.pos) else s.stopped.or (tail.head?.map (fun b => b.2))
  let kept := match cut with | some p => raw.dropWhile (fun b => decide (b.2 ≠ p)) | none => []
  let carryState := if final then none else if s.cur.isEmpty then some s.state else some s.curState
  let enc := s.pieces.foldl (fun (acc : List Nat × Nat × Nat × Bool) p =>
    match p.special with
    | some id => (acc.1 ++ [id], acc.2.1, acc.2.2.1, acc.2.2.2)
    | none =>
      let bs := charBytes p.chars
      if bs.isEmpty then acc
      else
        let e := encodePiece t bs
        (acc.1 ++ e.1, acc.2.1 + (if e.2.1 then 1 else 0), acc.2.2.1 + e.2.2, acc.2.2.2 || e.1.any t.isSpecial))
    ([], 0, 0, false)
  let done := s.pieces.flatMap (fun p => p.chars)
  { code := { ids := enc.1, bytes := screenBytes done, replaced := (done.filter (fun c => c.replaced)).length,
              escaped := (done.filter (fun c => c.escaped)).length, controls := (done.filter (fun c => c.control)).length,
              isUndefined := (done.filter (fun c => c.undef)).length, splits := s.splits, fast := enc.2.1, rounds := enc.2.2.1,
              forged := enc.2.2.2 }
    carry := { utf8 := tail, text := kept, state := carryState } }

end Sys2Proof.Machine
end

