-- ==== Sys2Proof/Machine/Ingress.lean ====
section
/-! DEFINITION. Ingress text: the baseline screen (R27), text packets and their acceptance (R89 to R95), chunks (R110 to
R117) and segment verdicts with the ingress contribution (R118 to R121). -/

namespace Sys2Proof.Machine

/-! ### The baseline screen (R27) -/

/-- What the screen does to text: the characters it writes, with the replacements, escapes and controls among them. -/
def screenText (carry bytes : List Byte) (final : Bool) : List SkChar × List Byte :=
  let r0 := repairBytes [] ((carry ++ bytes).zipIdx)
  let r := if final then r0.finish else r0
  (r.chars.map (skChar 1 0), r.carry.map (fun b => b.1))

/-- A number of hits of a baseline rule: 0 utf8, 1 escape, 2 length, 3 control, 4 header (R519). -/
def State.screenHits (s : State) (rule n : Nat) : State := if n = 0 then s else s.countN 0x17 0 rule n

/-- The baseline screen of a text packet: none when it is dropped. A packet dropped by the length limit that ends its run takes
the run's carry with it: neither a U+FFFD nor a hit (log 42). -/
def State.baselineScreen (s : State) (p : Packet) : Option Packet × State :=
  let b := p.payload
  let len := field b 4 2
  if len = 0 ∨ 240 < len ∨ b.length < 16 + len then (none, s.screenHits 4 1)
  else
    let seg := field b 6 2
    let final := fieldBit b 8 2 0
    let mine := fun (r : BaselineRun) => decide (r.source = p.hdr.source) && decide (r.port = p.hdr.port)
    let others := s.streams.baseline.filter (fun r => !mine r)
    let fresh : BaselineRun := { source := p.hdr.source, port := p.hdr.port, segment := seg, count := 0, carry := [], dropping := false }
    let old := s.streams.baseline.find? mine
    let run := match old with | some r => if r.segment = seg then r else fresh | none => fresh
    let lost := match old with | some r => if r.segment ≠ seg ∧ !r.carry.isEmpty then 1 else 0 | none => 0
    let store := fun (r : BaselineRun) =>
      { s with streams := { s.streams with baseline := if final then others else others ++ [r] } }
    if run.dropping || decide (262144 < run.count + len) then
      (none, ((store { run with dropping := true }).screenHits 0 lost).screenHits 2 1)
    else
      let (cs, carry) := screenText run.carry ((b.drop 16).take len) final
      let text := charBytes cs
      let s1 := ((store { run with count := run.count + len, carry := carry }).screenHits 0
        (lost + (cs.filter (fun c => c.replaced)).length)).screenHits 1 (cs.filter (fun c => c.escaped)).length
      let units := (16 + text.length + 63) / 64
      let payload := padTo (64 * units) (b.take 4 ++ leBytes 2 text.length ++ (b.take 16).drop 6 ++ text)
      (some { hdr := { p.hdr with length := BitVec.ofNat 8 units }, payload := payload },
       s1.screenHits 3 (cs.filter (fun c => c.control)).length)

/-! ### Text packets (R89 to R94) -/

/-- A policy with the FRONT role is in the gate (R89). -/
def State.front (s : State) : Bool := s.policies.any (fun p => p.role 0)

/-- A skiver counter that raises NTC_INGRESS (R123). -/
def ingressEvent (pos handle position : Nat) : List Effect :=
  let k : CtrKey := ⟨0x06, 0, pos⟩
  [.count k 1, .notice 4 (k.name ++ leBytes 8 handle ++ leBytes 4 position)]

/-- Whether a template packet is trusted (R90). -/
def trusted (t : SkiverTables) (a : Arrival) : Bool :=
  t.senders.contains a.pkt.hdr.source ||
    (match a.edge with | .host _ => t.templateFromHost | _ => false)

/-- A packet's channel under a policy, and whether it was demoted (R89, R90). -/
def channelOf (t : SkiverTables) (a : Arrival) : Nat × Bool :=
  let c := a.pkt.hdr.port.toNat - 0xE0
  if c = 0 && !trusted t a then (1, true) else (c, false)

/-- Whether an ingress stream takes text (R74, R121; log 34 for a stream past its prompt's end). -/
def Stream.takesText (st : Stream) : Bool :=
  (st.running || decide (st.state = .opening)) && !st.inp.promptStamped

/-- What a text packet meets. -/
inductive TextFate where
  | stale
  | malformed
  | duplicate
  | gap (k : SlotId) (st : Stream)
  | candidate (k : SlotId) (st : Stream) (p : Policy) (t : SkiverTables) (channel : Nat) (demoted : Bool)
deriving DecidableEq, Repr

/-- The tables that say whether a template packet is trusted: those its stream runs under, else the active policy's (R90). -/
def State.textTables (s : State) (a : Arrival) : Option SkiverTables :=
  let own := (s.streamOf a.pkt.hdr.handle.toNat).bind (fun e => (s.policyFor e.2 s.now).bind (fun p => p.tables.skiver))
  own.or ((s.cast.active.filter (fun p => p.role 0)).bind (fun p => p.tables.skiver))

/-- Whether a text packet is a template packet that is demoted (R90). -/
def State.demotes (s : State) (a : Arrival) : Bool := ((s.textTables a).map (fun t => (channelOf t a).2)).getD false

/-- The checks of a text packet in their order: its handle, its length, its position, then its segment and channel (R60, R93,
R94; log 34 for the order). -/
def State.textFate (s : State) (a : Arrival) : TextFate :=
  let b := a.pkt.payload
  let len := field b 4 2
  let pos := field b 0 4
  match s.streamOf a.pkt.hdr.handle.toNat with
  | none => .stale
  | some (k, st) =>
    match s.policyFor st s.now with
    | none => .malformed
    | some p =>
      match p.tables.skiver with
      | none => .malformed
      | some t =>
        let inp := st.inp
        if st.req.egress || !st.takesText || decide (len = 0) || decide (240 < len) || decide (b.length < 16 + len) then
          .malformed
        else if pos ≠ inp.textWrite % 2 ^ 32 then
          if laterSeq 32 (inp.textWrite % 2 ^ 32) ((pos + len - 1) % 2 ^ 32) then .duplicate else .gap k st
        else
          let c := channelOf t a
          if field b 6 2 ≠ inp.segment ∨ (inp.segmentOpen ∧ c.1 ≠ inp.channel) then .malformed
          else .candidate k st p t c.1 c.2

/-- A text packet that is no candidate is dropped and counted (R60, R93, R94). A TEXT_GAP event carries the current tick and the
stream's stop reason (log 34). -/
def State.dropText (s : State) (a : Arrival) (f : TextFate) : State :=
  let pos := field a.pkt.payload 0 4
  let h := a.pkt.hdr.handle.toNat
  match f with
  | .stale => s.count1 0x14 0 0
  | .malformed => s.effects (ingressEvent 5 h pos)
  | .duplicate => s.count1 0x06 0 3
  | .gap _ st =>
    let body := Event.body { kind := 4, tenant := st.req.tenant, node := s.aon.node, stopReason := st.stopReason, tag := st.req.tag,
                             handle := st.handle.toNat, stamp := s.now, lastIndex := st.inp.textWrite % 2 ^ 32 }
    (s.effects (ingressEvent 4 h pos)).sendEvent st.replyNode st.replyPort st.handle body
  | .candidate _ _ _ _ _ _ => s

/-- Whether an earlier packet of the same handle waits at its edge. -/
def State.textWaits (s : State) (h : BitVec 48) : Bool := s.streams.textWait.any (fun a => decide (a.pkt.hdr.handle = h))

/-- Free the receive buffer that a host's text packet held from its arrival on (R95, R391). -/
def State.freeText (s : State) (a : Arrival) : State :=
  if a.pkt.hdr.multicast || decide (a.pkt.hdr.cls = 0#3) then s else s.returnCredit a.edge a.pkt

/-- Whether an input stamped at a tick finishes under the default state (R29). -/
def State.inDefault (s : State) (stamp : Nat) : Bool := s.cast.defaultState || decide (stamp < s.cast.defaultUntil)

/-- TEXT_PACKET: the oldest text packet whose stream has no packet waiting is checked; a candidate waits at its edge (R95).
In the default state it is screened and goes to the host (R24, R27; a multicast copy and a class-0 packet were screened as they entered), and without a FRONT policy it goes there as
it is. -/
def textPacket (s : State) : State :=
  match s.takeInbox (fun a => isText a.pkt && !s.textWaits a.pkt.hdr.handle) with
  | none => s
  | some (a, s1) =>
    let s2 := s1.freeText a
    let host := fun (p : Packet) (u : State) => u.offerBulk (u.deliveryPort p.hdr.port) p a.toBulk
    if s1.inDefault a.stamp && (a.pkt.hdr.multicast || decide (a.pkt.hdr.cls = 0#3)) then host a.pkt s2
    else if s1.inDefault a.stamp then
      match s2.baselineScreen a.pkt with
      | (none, u) => u
      | (some p, u) => host p u
    else if !s1.front then host a.pkt s2
    else
      let count := fun (u : State) =>
        if s1.demotes a then u.effects (ingressEvent 2 a.pkt.hdr.handle.toNat (field a.pkt.payload 0 4)) else u
      match s1.textFate a with
      | .candidate _ _ _ _ _ _ =>
        let u := count s1
        { u with streams := { u.streams with textWait := u.streams.textWait ++ [a] } }
      | f => (count s2).dropText a f

/-! ### Acceptance and chunks (R94, R95, R110, R111, R117) -/

/-- The queue of a skiver unit: chunks by slot and ordinal, the one in work first (R111). -/
def State.unitQueue (s : State) (u : Fin 8) : List (SlotId × Nat) := (aget u s.eng.skiverQueues).getD []

/-- Whether an accepted packet closes a chunk (R110). -/
def closesChunk (inp : Ingress) (t : SkiverTables) (a : Arrival) : Bool :=
  fieldBit a.pkt.payload 8 2 0 || decide (t.chunkBytes ≤ inp.textWrite + field a.pkt.payload 4 2 - inp.scanFrom)

/-- Whether a candidate is accepted now: room in the text ring, and a unit queue entry for a chunk it completes (R95). -/
def State.textRoom (s : State) (k : SlotId) (st : Stream) (t : SkiverTables) (a : Arrival) : Bool :=
  decide (st.inp.textWrite + field a.pkt.payload 4 2 ≤ st.inp.freeFrom + 4096)
    && (!closesChunk st.inp t a || decide ((s.unitQueue (t.unitOf k)).length < 4))

/-- A packet's bytes join the stream's text: those past `segment_limit` keep their positions and are neither tokenized nor
screened (R94). Answers whether the segment is truncated by this packet. -/
def Ingress.take (inp : Ingress) (t : SkiverTables) (channel : Nat) (demoted : Bool) (b : List Byte) : Ingress × Bool :=
  let len := field b 4 2
  let had := if inp.segmentOpen then inp.segmentBytes else 0
  let keep := if t.segmentLimit = 0 then len else min len (t.segmentLimit - had)
  let text := (b.drop 16).take len
  let was := inp.segmentOpen && inp.segTruncated
  let trunc := was || decide (keep < len)
  let dem := (inp.segmentOpen && inp.segDemoted) || demoted
  ({ inp with segmentOpen := true, channel := channel, segmentBytes := had + len, textWrite := inp.textWrite + len,
              ring := newest 4096 (inp.ring ++ text),
              unread := inp.unread ++ (text.take keep).zipIdx.map (fun (x, i) => (x, inp.textWrite + i)),
              segTruncated := trunc, segDemoted := dem, everTruncated := inp.everTruncated || trunc,
              everDemoted := inp.everDemoted || demoted }, trunc && !was)

/-- A policy's pre-tokenizer (R103). -/
def Policy.pretok (p : Policy) (t : SkiverTables) : Option (Automaton × AwlTables) :=
  p.tables.awl.bind (fun a => (a.automata[t.pretokAutomaton]?).map (fun x => (x, a)))

/-- The carried pre-tokenizer state under a policy: kept, translated to the automaton's new start offset, or dropped for
the start state when the automaton has changed (R117; log 34). -/
def Ingress.pretokState (inp : Ingress) (c : SkiverCarry) (aut : Option (Automaton × AwlTables)) : Option (BitVec 24) :=
  match c.state, inp.bound, aut with
  | some v, some (content, start), some (a, _) =>
    if content = a.contentId then some (stateValue a.firstLane (a.start + stateOffset v - start)) else none
  | _, _, _ => none

/-- Where the bytes that a chunk leaves behind begin. -/
def SkiverCarry.from? (c : SkiverCarry) (endPos : Nat) : Nat := match c.text with | b :: _ => b.2 | [] => endPos

/-- A chunk closes: it is encoded with what was carried, and waits for its unit (R104, R110 to R112). -/
def Ingress.close (inp : Ingress) (k : SlotId) (p : Policy) (t : SkiverTables) (stamp : Nat) (ends promptEnd : Bool) : Ingress :=
  let aut := p.pretok t
  let final := ends || inp.segTruncated
  let e := encodeChunk t aut inp.channel final (inp.pretokState inp.carry aut) (inp.carry.text ++ inp.unread)
  let c : Chunk :=
    { ordinal := inp.nextChunk, stamp := stamp, release := stamp + p.delay 1, epoch := p.epoch, unit := t.unitOf k,
      segment := inp.segment, channel := inp.channel, endsSegment := ends, promptEnd := promptEnd, endPos := inp.textWrite,
      raw := inp.unread, code := e.code, carryAfter := e.carry,
      counts := { truncated := inp.segTruncated, demoted := inp.segDemoted } }
  { inp with unread := [], carry := e.carry, scanFrom := e.carry.from? inp.textWrite, nextChunk := inp.nextChunk + 1,
             bound := aut.map (fun (x : Automaton × AwlTables) => (x.1.contentId, x.1.start)), chunks := inp.chunks ++ [c] }

/-- A segment's end gives the segment its verdict, and the next segment may follow (R37, R46, R94, R118). -/
def Ingress.endSegment (inp : Ingress) (p : Policy) (stamp : Nat) (b : List Byte) (promptEnd : Bool) : Ingress :=
  let release := stamp + p.delay 2
  let v : SegVerdict :=
    { segment := inp.segment, stamp := stamp, release := release, cutoff := release - p.cb, epoch := p.epoch,
      node := nodeField b 10, promptEnd := promptEnd, lastChunk := inp.nextChunk - 1 }
  { inp with verdicts := inp.verdicts ++ [v], segment := (inp.segment + 1) % 65536, segmentOpen := false, segmentBytes := 0,
             segTruncated := false, segDemoted := false, promptStamped := inp.promptStamped || promptEnd }

/-- A candidate is accepted at its stamp (R36, R95). -/
def State.acceptText (s : State) (a : Arrival) (k : SlotId) (st : Stream) (p : Policy) (t : SkiverTables) (channel : Nat)
    (demoted : Bool) : State :=
  let b := a.pkt.payload
  let ends := fieldBit b 8 2 0
  let promptEnd := ends && fieldBit b 8 2 1
  let stamp := s.effStamp s.now
  let closes := closesChunk st.inp t a
  let (inp1, cut) := st.inp.take t channel demoted b
  let inp2 := if closes then inp1.close k p t stamp ends promptEnd else inp1
  let inp3 := if ends then inp2.endSegment p stamp b promptEnd else inp2
  let u := t.unitOf k
  let eng := if closes then
      { s.eng with skiverQueues := aset u (s.unitQueue u ++ [(k, st.inp.nextChunk)]) s.eng.skiverQueues }
    else s.eng
  ((({ s with eng := eng }).setStream k { st with inp := inp3 }).freeText a).effects
    ([Effect.count ⟨0x06, 0, 0⟩ 1, Effect.count ⟨0x06, 0, 1⟩ (field b 4 2)] ++ (if cut then [Effect.count ⟨0x06, 0, 10⟩ 1] else []))

/-- The waiting packet that is served next: one that is no candidate any more, or one with room; at one tick in the edge
order of R68. -/
def State.nextText (s : State) : Option Arrival :=
  (s.streams.textWait.filter (fun a =>
    match s.textFate a with
    | .candidate k st _ t _ _ => s.textRoom k st t a
    | _ => true)).foldl (fun (x : Option Arrival) a =>
      match x with
      | none => some a
      | some y => if edgeOrder a.edge < edgeOrder y.edge then some a else some y) none

/-- TEXT_PACKET_ACCEPT. -/
def textAccept (s : State) : State :=
  match s.nextText with
  | none => s
  | some a =>
    let s1 := { s with streams := { s.streams with textWait := s.streams.textWait.erase a } }
    match s1.textFate a with
    | .candidate k st p t c d => s1.acceptText a k st p t c d
    | f => (s1.freeText a).dropText a f

/-- CHUNK_ENCODE_DONE: the chunk in work on a unit is done: ready, or late when its release tick is reached (R40, R41) or
its tables are poisoned (R470). -/
def encodeDone (u : Fin 8) (s : State) : State :=
  match s.unitQueue u with
  | [] => s
  | (k, n) :: rest =>
    let s1 := { s with eng := { s.eng with skiverQueues := aset u rest s.eng.skiverQueues } }
    match aget k s1.streams.table with
    | none => s1.effects (lateDiscard 1)
    | some st =>
      match st.inp.chunks.find? (fun c => decide (c.ordinal = n)) with
      | none => s1.effects (lateDiscard 1)
      | some c =>
        let bad := s1.tablePoison 1 st.handle n
        let before := !c.released && decide (s1.now < c.release)
        let ok := before && bad.isNone
        let set := fun (x : Chunk) => if x.ordinal = n then { x with ready := ok, late := !ok } else x
        let s2 := s1.setStream k { st with inp := { st.inp with chunks := st.inp.chunks.map set } }
        s2.effects (s1.tableEffects bad ++ if before then [] else lateDiscard 1)

/-! ### The release of a chunk (R102, R114 to R116) -/

/-- The token IDs of one list packet: what a payload of 128 units holds (R114, R352). -/
def idsPerPacket : Nat := 2044

/-- The packets of a token list: those before the last carry neither `segment_end` nor `prompt_end` (log 35). -/
def listPackets (h : BitVec 48) (first flags : Nat) (ids : List Nat) : List (List Byte) :=
  let n := max 1 ((ids.length + idsPerPacket - 1) / idsPerPacket)
  (List.range n).map (fun i =>
    let fl := if i + 1 = n then flags else flags / 8 * 8 + flags % 2
    tokenList h ((first + idsPerPacket * i) % 2 ^ 32) fl ((ids.drop (idsPerPacket * i)).take idsPerPacket))

/-- Send a chunk's list to a node and port. -/
def State.sendLists (s : State) (route : NodeId × Byte) (h : BitVec 48) (lists : List (List Byte)) (lat : Nat) : State :=
  lists.foldl (fun t l => t.sendClass0 route.1 route.2 false h l lat) s

/-- The chunks after a void one begin at the following received position, the automaton in its start state (R116): they
are encoded again without its carries. Answers the last carry. -/
def recode (f : Chunk → Bool → SkiverCarry → Encoded) (seg : Nat) : SkiverCarry → List Chunk → List Chunk × SkiverCarry
  | c, [] => ([], c)
  | c, x :: xs =>
    if x.segment ≠ seg then
      let r := recode f x.segment x.carryAfter xs
      (x :: r.1, r.2)
    else
      let e := f x x.endsSegment c
      let r := recode f seg e.carry xs
      ({ x with code := e.code, carryAfter := e.carry } :: r.1, r.2)

/-- Encode a stamped chunk again after another carry. -/
def State.recodeChunk (s : State) (x : Chunk) (final : Bool) (c : SkiverCarry) : Encoded :=
  match s.policyByEpoch x.epoch with
  | none => { code := x.code, carry := c }
  | some p =>
    match p.tables.skiver with
    | none => { code := x.code, carry := c }
    | some t => encodeChunk t (p.pretok t) x.channel (final || x.counts.truncated) c.state (c.text ++ x.raw)

/-- The ingress state after a void chunk: its bytes and carries are gone (R116). -/
def State.voidChunk (s : State) (inp : Ingress) (c : Chunk) : Ingress :=
  let before := inp.chunks.filter (fun x => decide (x.ordinal ≤ c.ordinal))
  let r := recode s.recodeChunk c.segment {} (inp.chunks.filter (fun x => decide (c.ordinal < x.ordinal)))
  let last := ((inp.chunks.getLast?).map (fun x => x.endPos)).getD c.endPos
  { inp with chunks := before ++ r.1, carry := r.2, scanFrom := r.2.from? last, freeFrom := c.endPos, committedCarry := {} }

/-- The counts of the current segment with those of one more chunk (R99). -/
def SegmentCounts.plus (n : SegmentCounts) (c : Chunk) : SegmentCounts :=
  { replaced := n.replaced + c.code.replaced, escaped := n.escaped + c.code.escaped, controls := n.controls + c.code.controls,
    splits := n.splits + c.code.splits, truncated := c.counts.truncated, demoted := c.counts.demoted }

/-- The gate-wide counts of a chunk that is released whole (R122). -/
def Work.chunkCounts (w : Work) (c : ChunkCode) : Work :=
  (((((((w.glob 0x06 0 6 c.replaced).glob 0x06 0 7 c.escaped).glob 0x06 0 8 c.isUndefined).glob 0x06 0 9 c.controls).glob 0x06 0 11
    c.splits).glob 0x06 0 12 c.fast).glob 0x06 0 13 c.rounds).word 3 c.replaced

/-- Chunk c of a running stream commits whole: its tokens, its carry, the awl's scan of its bytes (R77, R115, R170). -/
def Work.commitChunk (w : Work) (p : Policy) (c : Chunk) : Work × List (Nat × AwlItem) :=
  let st := w.st
  let inp := st.inp
  let n := c.code.ids.length
  let place := inp.place c
  let scan := st.scanAwl p w.env.slot (some place) c.code.bytes
  let item : AwlItem := { slot := w.env.slot, ingress := true, ordinal := c.ordinal, position := 0, stamp := c.stamp, bytes := c.code.bytes }
  let items := p.awlItems w.env.slot st (some place) item
  let waits := items.length
  let counts := inp.counts.plus c
  let c' : Chunk := { c with released := true, firstIndex := inp.nextIndex, awl := scan.results, awlAfter := scan.insts,
                             awlLeft := waits, awlReady := decide (waits = 0), counts := counts }
  let inp' : Ingress := { inp with
    chunks := inp.chunks.map (fun x => if x.ordinal = c.ordinal then c' else x), nextIndex := inp.nextIndex + n,
    freeFrom := c.carryAfter.from? c.endPos, committedCarry := c.carryAfter, lastChunk := some c.ordinal,
    counts := if c.endsSegment then {} else counts, replacedTotal := inp.replacedTotal + c.code.replaced,
    escapedTotal := inp.escapedTotal + c.code.escaped }
  let st' : Stream := { scan.stream with
    inp := inp', empty := st.empty && decide (n = 0), committed := if n = 0 then st.committed else inp.nextIndex + n - 1,
    nextIndex := inp.nextIndex + n, awl := scan.insts }
  let w1 := ((({ w with st := st' }).word 0 n).chunkCounts c.code).glob 0x08 0 3 scan.restarts
  let w2 := (List.range n).foldl (fun (v : Work) i => v.put (.commit (if i = 0 then c.code.bytes.length else 0))) w1
  (w2, items)

/-- What ends an ingress stream at a boundary: the commit of its prompt's last chunk makes it DRAINING, and one that
STREAM_CLOSE drained closes when nothing is in flight (R121). -/
def Work.ingressEnd (w : Work) (promptEnd : Bool) : Work :=
  let w1 := if promptEnd then w.drain 0 else w
  if w1.st.draining && decide (w1.st.stopReason = 4) && w1.st.idle then w1.close else w1.closeHalted

/-- The accumulators at an ingress boundary: the updates of the samples admitted so far, or of those delivered when the boundary halts
the stream (R195, R207). -/
def Stream.ingressAcc (st : Stream) (halting : Bool) : List (Nat × Word) :=
  if halting then
    ((st.inp.chunks.filter (fun c => c.armDone.isSome)).flatMap (fun c => c.armAcc)).foldl (fun a e => aset e.1 e.2 a) st.acc
  else st.workAcc

/-- The boundary of chunk c of a stream that has not ended. For `forge_blocked` NTC_INGRESS latches the position where the chunk's
unread bytes begin (R123; log 34). -/
def State.chunkBoundary (s : State) (k : SlotId) (st : Stream) (p : Policy) (c : Chunk) (late forged : Bool) : State :=
  let void := late || forged || c.void
  let halt : Option Nat := if forged then some 14 else if late && !p.failOpen 1 then some 9 else none
  let w0 : Work := { env := s.env k st (some p), st := { st with epoch := p.epoch, acc := st.ingressAcc halt.isSome } }
  let w1 := if late then (w0.effect (lateEvent 1 st.handle st.inp.nextIndex)).word 7 1 else w0
  let w2 := if forged then w1.effect (ingressEvent 16 st.handle.toNat (st.inp.freeFrom % 2 ^ 32)) else w1
  let r : Work × List (Nat × AwlItem) :=
    if void then
      let mark := fun (x : Chunk) => if x.ordinal = c.ordinal then { x with released := true, void := true, firstIndex := st.inp.nextIndex } else x
      let inp := s.voidChunk { w2.st.inp with chunks := w2.st.inp.chunks.map mark } c
      let inp' : Ingress := if c.endsSegment then { inp with counts := {} } else inp
      ({ w2 with st := { w2.st with inp := inp' } }, [])
    else w2.commitChunk p c
  let w3 := r.1.audit { kind := 2, index := st.inp.nextIndex % 2 ^ 32, subject := if void then 0 else c.code.ids.length,
                        outcome := (if void then 1 else 0) + (if halt.isSome then 16 else 0), epoch := p.epoch }
  let w4 := match halt with
    | some x => (w3.atBoundary.halt x).closeHalted
    | none => w3.atBoundary.ingressEnd c.promptEnd
  (w4.run s).pushItems p k r.2

/-- The release of chunk c of slot k's stream (R114). -/
def State.releaseChunk (s : State) (k : SlotId) (st : Stream) (c : Chunk) : State :=
  match s.policyByEpoch c.epoch with
  | none => s
  | some p =>
    let late := !c.ready && !c.void && !st.ended
    let forged := c.ready && !c.void && !st.ended && c.code.forged
    let void := late || forged || c.void || st.ended
    let lists := listPackets st.handle st.inp.nextIndex (c.flags + (if void then 1 else 0)) (if void then [] else c.code.ids)
    let s1 := (s.sendLists (p.ingressRoute st.req.tenant) st.handle lists (p.edgeLatency 1)).effects
      ([Effect.count ⟨0x06, 0, 14⟩ 1] ++ (if void then [Effect.count ⟨0x06, 0, 15⟩ 1] else []))
    if st.ended then
      let mark := fun (x : Chunk) => if x.ordinal = c.ordinal then { x with released := true, void := true } else x
      let st1 : Stream := { st with inp := { st.inp with chunks := st.inp.chunks.map mark } }
      ((s1.work k st1).closeHalted).run s1
    else s1.chunkBoundary k st p c late forged

/-- The chunk of a stream that is released next. -/
def Stream.nextRelease (st : Stream) : Option Chunk := st.inp.chunks.find? (fun c => !c.released)

/-- The chunk whose release tick is reached: the lowest tick, then the lowest slot. -/
def State.dueChunk (s : State) : Option (SlotId × Stream × Chunk) :=
  s.streams.table.foldl (fun (b : Option (SlotId × Stream × Chunk)) e =>
    match e.2.nextRelease with
    | none => b
    | some c =>
      if s.now < c.release then b
      else match b with
        | none => some (e.1, e.2, c)
        | some (k, _, x) => if c.release < x.release ∨ (c.release = x.release ∧ e.1 < k) then some (e.1, e.2, c) else b) none

/-- CHUNK_RELEASE: a void list that a freed slot's stream still owes, or the next chunk. -/
def chunkRelease (s : State) : State :=
  match s.dueOrphan (fun o => !o.sample) with
  | some (o, s1) =>
    (s1.effects [.count ⟨0x06, 0, 14⟩ 1, .count ⟨0x06, 0, 15⟩ 1]).sendClass0 (BitVec.ofNat 12 o.dest) o.port false o.handle o.payload o.lat
  | none =>
    match s.dueChunk with
    | some (k, st, c) =>
      let x := s.atContext k st
      match x.2.nextRelease with
      | some c' => if c'.ordinal = c.ordinal then x.1.releaseChunk k x.2 c' else x.1
      | none => x.1
    | none => s

/-! ### Segment verdicts (R118 to R121) -/

/-- The body of the ingress contribution after a verdict, with its envelope (R82, R119). -/
def contributionBytes (p : Policy) (st : Stream) (halt late : Bool) : List Byte :=
  let id := ((p.entryFor 0x15 true).map (fun e => e.contributionId)).getD 0
  let inp := st.inp
  handleBytes st.handle ++ leBytes 4 0 ++ leBytes 2 id ++ leBytes 2 (if late then 1 else 0)
    ++ leBytes 1 (if halt then 1 else 0) ++ leBytes 1 ((if inp.everTruncated then 1 else 0) + (if inp.everDemoted then 2 else 0))
    ++ leBytes 2 inp.segmentsDone ++ leBytes 4 (st.word 0) ++ leBytes 4 inp.replacedTotal ++ leBytes 4 inp.escapedTotal
    ++ padTo 16 ((inp.tags.take 8).flatMap (fun t => leBytes 2 t.toNat)) ++ List.replicate 16 0#8

/-- The segment verdict due next: the lowest tick, then the lowest slot. -/
def State.dueSegment (s : State) : Option (SlotId × Stream × SegVerdict) :=
  s.streams.table.foldl (fun (b : Option (SlotId × Stream × SegVerdict)) e =>
    match e.2.inp.verdicts with
    | [] => b
    | v :: _ =>
      if s.now < v.release then b
      else match b with
        | none => some (e.1, e.2, v)
        | some (k, _, x) => if v.release < x.release ∨ (v.release = x.release ∧ e.1 < k) then some (e.1, e.2, v) else b) none

/-- The actions of a segment verdict, or its late default, with what is counted (R120, R339). -/
def segmentActions (p : Policy) (st : Stream) (v : SegVerdict) (now : Nat) : Actions × Bool × List Effect :=
  match v.verdict with
  | .ready a => (a, false, actionEffects a)
  | _ => ({ halt := !p.failOpen 2 }, true, lateEvent 2 st.handle v.segment ++ bridleEvent 9 st.handle v.segment now)

/-- The boundary of a segment verdict. -/
def State.releaseSegment (s : State) (k : SlotId) (st : Stream) (v : SegVerdict) (p : Policy) : State :=
  let (acts, late, es) := segmentActions p st v s.now
  let mask := match v.inputs with | some i => i.lateMask | none => 0
  let lates := (v.inputs.map (fun i => i.lates)).getD 0 + (if late then 1 else 0)
  let inp : Ingress := { st.inp with
    verdicts := st.inp.verdicts.filter (fun x => x.segment ≠ v.segment), tags := st.inp.tags ++ acts.tags,
    segmentsDone := st.inp.segmentsDone + 1,
    chunks := st.inp.chunks.filter (fun c => !(c.released && decide (c.ordinal ≤ v.lastChunk))) }
  let st1 : Stream := { st with inp := inp, epoch := p.epoch, acc := st.ingressAcc acts.halt }
  let w : Work := ({ env := s.env k st1 (some p), st := st1 } : Work).atBoundary
  let sends := (acts.halt || v.promptEnd) && !st.inp.contributed
  let w1 := (w.effect es).word 7 lates
  let w2 := w1.audit { kind := 3, index := v.segment, subject := if acts.halt then 1 else 0,
                       outcome := if acts.halt then 16 else 0, lateMask := mask + (if late then 64 else 0), epoch := p.epoch, acts := acts }
  let w3 := { w2 with st := { w2.st with inp := { w2.st.inp with contributed := st.inp.contributed || sends } } }
  let w4 := if acts.halt then (w3.halt 5).closeHalted
    else if v.promptEnd then w3.close
    else w3.ingressEnd false
  let s1 := w4.run s
  if sends then
    s1.sendClass0 v.node p.tables.role.contributionPort false st.handle (contributionBytes p st1 acts.halt late) (p.edgeLatency 2)
  else s1

/-- SEGMENT_VERDICT_RELEASE: chunk commits of the same tick come first (R87). -/
def segmentRelease (s : State) : State :=
  match s.dueSegment with
  | none => s
  | some (k, st, v) =>
    if st.inp.chunks.any (fun c => !c.released && decide (c.release ≤ v.release)) then s
    else match s.policyByEpoch v.epoch with
      | none => s
      | some p =>
        let x := s.atContext k st
        if x.2.ended && !st.ended then x.1 else x.1.releaseSegment k x.2 v p

/-! ### Meanings -/

/-- TEXT_PACKET (R27, R60, R89 to R94). -/
def execTextPacket (s : State) : Host.Outcome State Fault Refusal := .next (textPacket s)

/-- TEXT_PACKET_ACCEPT (R36, R95, R110, R111). -/
def execTextPacketAccept (s : State) : Host.Outcome State Fault Refusal := .next (textAccept s)

/-- CHUNK_ENCODE_DONE (R40, R41, R111, R112). -/
def execChunkEncodeDone (u : Fin 8) (s : State) : Host.Outcome State Fault Refusal := .next (encodeDone u s)

/-- CHUNK_RELEASE (R55, R102, R114 to R116, R121). -/
def execChunkRelease (s : State) : Host.Outcome State Fault Refusal := .next (chunkRelease s)

/-- SEGMENT_VERDICT_RELEASE (R118 to R121, R343). -/
def execSegmentVerdictRelease (s : State) : Host.Outcome State Fault Refusal := .next (segmentRelease s)

end Sys2Proof.Machine
end

