-- ==== Sys2Proof/Machine/Cells.lean ====
section
/-! DEFINITION. The cell core: registers (R241), local memory with its poison (R257, R469), instruction words (R244, R245),
program faults (R257), and running one instruction of a cell. -/

namespace Sys2Proof.Machine

/-! ### Cells -/

/-- A cell. -/
def State.cell (s : State) (c : CellId) : Cell := (aget c s.grid.cells).getD {}

/-- Replace a cell. -/
def State.setCell (s : State) (c : CellId) (v : Cell) : State := { s with grid := { s.grid with cells := aset c v s.grid.cells } }

/-- A general register: g0 reads as zero (R241). -/
def Cell.get (x : Cell) (r : CellReg) : DWord := if r = 0#5 then 0#64 else x.g[r.toNat]'(by have := r.isLt; omega)

/-- Write a general register: g0 ignores writes (R241). -/
def Cell.put (x : Cell) (r : CellReg) (v : DWord) : Cell :=
  if r = 0#5 then x else { x with g := x.g.set r.toNat v (by have := r.isLt; omega) }

/-- A vector register. -/
def Cell.vget (x : Cell) (r : CellReg) : BitVec 512 := x.v[r.toNat]'(by have := r.isLt; omega)

/-- Write a vector register; its poison is gone. -/
def Cell.vput (x : Cell) (r : CellReg) (w : BitVec 512) : Cell :=
  { x with v := x.v.set r.toNat w (by have := r.isLt; omega), vpoison := x.vpoison.filter (fun p => p ≠ r) }

/-- A tile. -/
def Cell.tile (x : Cell) (t : TileId) : Tile := x.tiles[t.toNat]'(by have := t.isLt; omega)

/-- Replace a tile. -/
def Cell.setTile (x : Cell) (t : TileId) (v : Tile) : Cell := { x with tiles := x.tiles.set t.toNat v (by have := t.isLt; omega) }

/-- A policy slot. -/
def Cell.slot (x : Cell) (one : Bool) : CellSlot := if one then x.slot1 else x.slot0

/-! ### Local memory (R241, R257, R469) -/

/-- Bytes of local memory (R213). -/
def localBytes : Nat := 0x18000

/-- Whether `n` bytes at an address lie in local memory. -/
def inLocal (addr n : Nat) : Bool := decide (addr + n ≤ localBytes)

/-- Whether an access of n bytes with an alignment lies in the running slot's range (R257 cause 2). -/
def Cell.reaches (x : Cell) (r : Running) (addr n align : Nat) : Bool :=
  let sl := x.slot r.slot1
  inLocal addr n && decide (sl.loadBase ≤ addr) && decide (addr + n ≤ sl.loadBase + sl.rangeBytes) && decide (addr % align = 0)

/-- The poisoned word that an access of n bytes meets first. -/
def Cell.poisonAt (x : Cell) (addr n : Nat) : Option Nat := x.poison.find? (fun w => decide (w < addr + n) && decide (addr < w + 8))

/-- Write bytes: a word written whole loses its poison, a partial write leaves it (R469). -/
def Cell.write (x : Cell) (addr : Nat) (bs : List Byte) : Cell :=
  { x with mem := x.mem.setBytes addr bs,
           poison := x.poison.filter (fun w => !(decide (addr ≤ w) && decide (w + 8 ≤ addr + bs.length))) }

/-- Poison every word of a span. -/
def Cell.poisonSpan (x : Cell) (addr n : Nat) : Cell :=
  let ws := (List.range (n / 8)).map (fun i => addr + 8 * i)
  { x with poison := x.poison ++ ws.filter (fun w => !x.poison.contains w) }

/-! ### Instruction words (R244, R245, R247) -/

/-- Class and operation with the bits below. -/
def cellWord (cls op low : Nat) : Word := BitVec.ofNat 32 (cls * 2 ^ 28 + op * 2 ^ 24 + low)

/-- Register format. -/
def encReg (cls op : Nat) (d a b c : CellReg) (int : Bool) : Word :=
  cellWord cls op (d.toNat * 2 ^ 19 + a.toNat * 2 ^ 14 + b.toNat * 2 ^ 9 + c.toNat * 2 ^ 4 + (if int then 1 else 0))

/-- Immediate format. -/
def encImm (cls op : Nat) (d a : CellReg) (imm : BitVec 14) : Word :=
  cellWord cls op (d.toNat * 2 ^ 19 + a.toNat * 2 ^ 14 + imm.toNat)

/-- Extract format. -/
def encExtr (d a : CellReg) (lsb width1 : BitVec 6) : Word :=
  cellWord 1 0xE (d.toNat * 2 ^ 19 + a.toNat * 2 ^ 14 + lsb.toNat * 2 ^ 8 + width1.toNat * 2 ^ 2)

/-- Upper and jump formats. -/
def encWide (cls op : Nat) (d : CellReg) (imm : BitVec 19) : Word := cellWord cls op (d.toNat * 2 ^ 19 + imm.toNat)

/-- Bulk format. -/
def encBulk (op : Nat) (a b : CellReg) (tag : BitVec 6) (len : Byte) : Word :=
  cellWord 8 op (a.toNat * 2 ^ 19 + b.toNat * 2 ^ 14 + tag.toNat * 2 ^ 8 + len.toNat)

/-- Every bit. -/
def allBits : Word := 0xFFFFFFFF#32

/-- Bits hi down to lo of a word. -/
def wordField (w : Word) (hi lo : Nat) : Nat := w.toNat / 2 ^ lo % 2 ^ (hi + 1 - lo)

/-- Whether a word is an encoding of R245 and R247: a listed class and operation with every reserved field zero. -/
def cellLegal (w : Word) : Bool :=
  let op := wordField w 27 24
  match wordField w 31 28 with
  | 0x0 => decide (op ≤ 0xC) && decide (wordField w 8 0 = 0)
  | 0x1 => [0, 2, 3, 4, 5, 6, 7, 9, 0xF].contains op || (decide (op = 0xE) && decide (wordField w 1 0 = 0))
  | 0x2 => decide (op ≤ 3) || (decide (8 ≤ op) && decide (op ≤ 0xB))
  | 0x3 => decide (op ≤ 5) || (decide (8 ≤ op) && decide (op ≤ 0xA))
  | 0x4 => decide (op ≤ 7) && decide (wordField w 3 1 = 0) && (decide (op = 3) || decide (wordField w 8 4 = 0))
  | 0x5 => decide (op ≤ 1)
  | 0x6 =>
    (decide (op = 0) && [1, 2].contains (wordField w 21 20) && decide (wordField w 11 0 = 0))
      || (decide (op = 1) && decide (wordField w 1 0 = 0) && decide (wordField w 4 2 ≤ 6))
      || (decide (op = 2) && decide (wordField w 16 14 ≤ 4)) || (decide (op = 3) && decide (wordField w 11 0 = 0))
  | 0x7 => decide (op ≤ 3)
  | 0x8 => decide (op ≤ 2)
  | 0x9 => decide (op ≤ 4)
  | 0xA => decide (op ≤ 2) || decide (op = 4)
  | _ => false

/-! ### Program faults (R239, R240, R257, R267) -/

/-- A cell counter with NTC_CELL: the counter's name, the cell, a tile where one applies, the tick, and what R267 adds. -/
def cellEvent (pos n : Nat) (c : CellId) (now : Nat) (tile more : List Byte) : List Effect :=
  let k : CtrKey := ⟨0x0B, 0, pos⟩
  [.count k n, .notice 8 (k.name ++ leBytes 2 c.toNat ++ tile ++ leBytes 8 now ++ more)]

/-- A cell reports UNCORRECTABLE to its bench, which keeps the report in its own status and hands nothing up (R15, R16, R226;
log 40). -/
def State.report (s : State) (c : CellId) : State :=
  if s.grid.reports.contains c then s else { s with grid := { s.grid with reports := s.grid.reports ++ [c] } }

/-- A program fault ends the handler: the incomplete message is discarded and the cause kept. -/
def State.programFault (s : State) (c : CellId) (x : Cell) (cause : Nat) : State :=
  let addr := (x.run.map (fun r => r.handlerAddr)).getD 0
  (s.setCell c { x with run := none, sendHdr := none, sendWords := [], faultCause := cause }).effects
    (cellEvent 6 1 c s.now [] (leBytes 2 (addr / 4) ++ leBytes 1 cause))

/-! ### One instruction -/

/-- What an instruction does to its core. -/
inductive CellOut where
  /-- The next instruction. -/
  | go (x : Cell)
  /-- A jump to an address. -/
  | jump (x : Cell) (target : Nat)
  /-- A program fault. -/
  | fault (cause : Nat)
  /-- A read met a poisoned word at an address (R257 cause 3). -/
  | poison (x : Cell) (addr : Nat)
  /-- The core stalls (R249). -/
  | stall
deriving DecidableEq, Repr

/-- What the fetch of an instruction finds (R257, R470). -/
inductive Fetch where
  | word (w : Word)
  | fault (cause : Nat)
  | poison (addr : Nat)
deriving DecidableEq, Repr

/-- Fetch the word at an address for a running handler. -/
def Cell.fetch (x : Cell) (r : Running) (pc : Nat) : Fetch :=
  if !x.reaches r pc 4 4 then .fault 2
  else match x.poisonAt pc 4 with
    | some a => .poison a
    | none =>
      let w : Word := BitVec.ofNat 32 (ofLe (x.mem.bytes pc 4))
      if cellLegal w then .word w else .fault 1

/-- The end of an instruction that started at `r.pc`. -/
def State.retire (s : State) (c : CellId) (x0 : Cell) (r : Running) (o : CellOut) : State :=
  match o with
  | .go x => s.setCell c { x with run := some { r with pc := r.pc + 4 } }
  | .jump x t => s.setCell c { x with run := some { r with pc := t } }
  | .fault cause => s.programFault c x0 cause
  | .poison x a => ((s.report c).effects (poisonRead 1 c.toNat a s.now)).programFault c x 3
  | .stall => s

/-- Run one instruction of a cell: it must be the one at the core's pc under the mask. An idle core, a core at a barrier and
a cell that reloads run nothing (R242, R249, R265; log 33). -/
def State.onCell (s : State) (c : CellId) (mask enc : Word) (f : Running → Cell → State → State × CellOut) : State :=
  let x := s.cell c
  match x.run with
  | none => s
  | some r =>
    if r.atBarrier.isSome || x.reloading then s
    else match x.fetch r r.pc with
      | .fault n => s.programFault c x n
      | .poison a => s.retire c x r (.poison x a)
      | .word w =>
        if w &&& mask = enc then
          let o := f r x s
          o.1.retire c x r o.2
        else s

/-- An instruction that acts on its own cell alone. -/
def State.cellOp (s : State) (c : CellId) (mask enc : Word) (f : Running → Cell → CellOut) : State :=
  s.onCell c mask enc (fun r x t => (t, f r x))

end Sys2Proof.Machine
end

