-- ==== Sys2Proof/Machine/CellScalar.lean ====
section
/-! DEFINITION. The scalar instructions of a cell: arithmetic, memory and control (R245), and the system instructions
(R242, R256). -/

namespace Sys2Proof.Machine

/-! ### Arithmetic -/

/-- The sign-extended immediate. -/
def immOf (i : BitVec 14) : DWord := i.signExtend 64

/-- A register shift: counts 0 to 63, and a free value for larger ones, where R245 states no result (log 36). -/
def shiftBy (op : Nat) (a b : DWord) : DWord :=
  if 64 ≤ b.toNat then Config.wideShift op a b
  else if op = 5 then a <<< b.toNat else if op = 6 then a >>> b.toNat else a.sshiftRight b.toNat

/-- A truth value as a register. -/
def boolWord (b : Bool) : DWord := if b then 1#64 else 0#64

/-- A class 0 instruction: d = f a b. -/
def State.regOp (s : State) (c : CellId) (op : Nat) (d a b : CellReg) (f : DWord → DWord → DWord) : State :=
  s.cellOp c allBits (encReg 0 op d a b 0#5 false) (fun _ x => .go (x.put d (f (x.get a) (x.get b))))

/-- A class 1 instruction: d = f a imm. -/
def State.immOp (s : State) (c : CellId) (op : Nat) (d a : CellReg) (imm : BitVec 14) (f : DWord → DWord) : State :=
  s.cellOp c allBits (encImm 1 op d a imm) (fun _ x => .go (x.put d (f (x.get a))))

/-! ### Memory -/

/-- The address a + immediate. -/
def Cell.addr (x : Cell) (a : CellReg) (imm : BitVec 14) : Nat := (x.get a + immOf imm).toNat

/-- A load of n bytes, zero-extended. -/
def State.loadOp (s : State) (c : CellId) (op n : Nat) (d a : CellReg) (imm : BitVec 14) : State :=
  s.cellOp c allBits (encImm 2 op d a imm) (fun r x =>
    let p := x.addr a imm
    if !x.reaches r p n n then .fault 2
    else
      let y := x.put d (BitVec.ofNat 64 (ofLe (x.mem.bytes p n)))
      match x.poisonAt p n with
      | some w => .poison y w
      | none => .go y)

/-- A store of n bytes. -/
def State.storeOp (s : State) (c : CellId) (op n : Nat) (d a : CellReg) (imm : BitVec 14) : State :=
  s.cellOp c allBits (encImm 2 op d a imm) (fun r x =>
    let p := x.addr a imm
    if !x.reaches r p n n then .fault 2 else .go (x.write p (leBytes n (x.get d).toNat)))

/-! ### Control -/

/-- The target of a branch or jump: a signed offset in instructions from the branch itself. -/
def targetOf (pc : Nat) (off : Int) : Nat := ((pc : Int) + 4 * off).toNat

/-- A branch. -/
def State.branchOp (s : State) (c : CellId) (op : Nat) (a b : CellReg) (off : BitVec 14) (f : DWord → DWord → Bool) : State :=
  s.cellOp c allBits (encImm 3 op a b off) (fun r x =>
    if f (x.get a) (x.get b) then .jump x (targetOf r.pc off.toInt) else .go x)

/-- `jr`: a reserved encoding or an address outside the slot's range at its target is a program fault at once (R257). -/
def Cell.jumpReg (x : Cell) (r : Running) (t : Nat) : CellOut :=
  match x.fetch r t with
  | .fault n => .fault n
  | .poison a => .poison x a
  | .word _ => .jump x t

/-! ### System -/

/-- A control register (R256). -/
def State.controlReg (s : State) (c : CellId) (x : Cell) (r : Running) (k : Nat) : Option DWord :=
  if k = 0 then some (c.setWidth 64)
  else if k = 1 then some (boolWord r.slot1)
  else if k = 2 then some (BitVec.ofNat 64 (s.power.half (cellHalf c)).run)
  else if k = 3 then some (BitVec.ofNat 64 x.faultCause)
  else if k = 4 then some (BitVec.ofNat 64 x.workItems)
  else none

/-! ### Meanings (R245) -/

/-- CELL_ADD (R245). -/
def execCellAdd (c : CellId) (d a b : CellReg) (s : State) : Host.Outcome State Fault Refusal := .next (s.regOp c 0x0 d a b (fun x y => x + y))

/-- CELL_SUB (R245). -/
def execCellSub (c : CellId) (d a b : CellReg) (s : State) : Host.Outcome State Fault Refusal := .next (s.regOp c 0x1 d a b (fun x y => x - y))

/-- CELL_AND (R245). -/
def execCellAnd (c : CellId) (d a b : CellReg) (s : State) : Host.Outcome State Fault Refusal := .next (s.regOp c 0x2 d a b (fun x y => x &&& y))

/-- CELL_OR (R245). -/
def execCellOr (c : CellId) (d a b : CellReg) (s : State) : Host.Outcome State Fault Refusal := .next (s.regOp c 0x3 d a b (fun x y => x ||| y))

/-- CELL_XOR (R245). -/
def execCellXor (c : CellId) (d a b : CellReg) (s : State) : Host.Outcome State Fault Refusal := .next (s.regOp c 0x4 d a b (fun x y => x ^^^ y))

/-- CELL_SLL (R245; log 36). -/
def execCellSll (c : CellId) (d a b : CellReg) (s : State) : Host.Outcome State Fault Refusal := .next (s.regOp c 0x5 d a b (shiftBy 5))

/-- CELL_SRL (R245; log 36). -/
def execCellSrl (c : CellId) (d a b : CellReg) (s : State) : Host.Outcome State Fault Refusal := .next (s.regOp c 0x6 d a b (shiftBy 6))

/-- CELL_SRA (R245; log 36). -/
def execCellSra (c : CellId) (d a b : CellReg) (s : State) : Host.Outcome State Fault Refusal := .next (s.regOp c 0x7 d a b (shiftBy 7))

/-- CELL_MUL (R245). -/
def execCellMul (c : CellId) (d a b : CellReg) (s : State) : Host.Outcome State Fault Refusal := .next (s.regOp c 0x8 d a b (fun x y => x * y))

/-- CELL_SLT (R245). -/
def execCellSlt (c : CellId) (d a b : CellReg) (s : State) : Host.Outcome State Fault Refusal :=
  .next (s.regOp c 0x9 d a b (fun x y => boolWord (x.slt y)))

/-- CELL_SLTU (R245). -/
def execCellSltu (c : CellId) (d a b : CellReg) (s : State) : Host.Outcome State Fault Refusal :=
  .next (s.regOp c 0xA d a b (fun x y => boolWord (x.ult y)))

/-- CELL_MIN (R245), of signed values (log 36). -/
def execCellMin (c : CellId) (d a b : CellReg) (s : State) : Host.Outcome State Fault Refusal :=
  .next (s.regOp c 0xB d a b (fun x y => if x.slt y then x else y))

/-- CELL_MAX (R245), of signed values (log 36). -/
def execCellMax (c : CellId) (d a b : CellReg) (s : State) : Host.Outcome State Fault Refusal :=
  .next (s.regOp c 0xC d a b (fun x y => if x.slt y then y else x))

/-- CELL_ADDI (R245). -/
def execCellAddi (c : CellId) (d a : CellReg) (imm : BitVec 14) (s : State) : Host.Outcome State Fault Refusal :=
  .next (s.immOp c 0x0 d a imm (fun x => x + immOf imm))

/-- CELL_ANDI (R245). -/
def execCellAndi (c : CellId) (d a : CellReg) (imm : BitVec 14) (s : State) : Host.Outcome State Fault Refusal :=
  .next (s.immOp c 0x2 d a imm (fun x => x &&& immOf imm))

/-- CELL_ORI (R245). -/
def execCellOri (c : CellId) (d a : CellReg) (imm : BitVec 14) (s : State) : Host.Outcome State Fault Refusal :=
  .next (s.immOp c 0x3 d a imm (fun x => x ||| immOf imm))

/-- CELL_XORI (R245). -/
def execCellXori (c : CellId) (d a : CellReg) (imm : BitVec 14) (s : State) : Host.Outcome State Fault Refusal :=
  .next (s.immOp c 0x4 d a imm (fun x => x ^^^ immOf imm))

/-- CELL_SLLI (R245). -/
def execCellSlli (c : CellId) (d a : CellReg) (imm : BitVec 14) (s : State) : Host.Outcome State Fault Refusal :=
  .next (s.immOp c 0x5 d a imm (fun x => x <<< (imm.toNat % 64)))

/-- CELL_SRLI (R245). -/
def execCellSrli (c : CellId) (d a : CellReg) (imm : BitVec 14) (s : State) : Host.Outcome State Fault Refusal :=
  .next (s.immOp c 0x6 d a imm (fun x => x >>> (imm.toNat % 64)))

/-- CELL_SRAI (R245). -/
def execCellSrai (c : CellId) (d a : CellReg) (imm : BitVec 14) (s : State) : Host.Outcome State Fault Refusal :=
  .next (s.immOp c 0x7 d a imm (fun x => x.sshiftRight (imm.toNat % 64)))

/-- CELL_SLTI (R245). -/
def execCellSlti (c : CellId) (d a : CellReg) (imm : BitVec 14) (s : State) : Host.Outcome State Fault Refusal :=
  .next (s.immOp c 0x9 d a imm (fun x => boolWord (x.slt (immOf imm))))

/-- CELL_EXTR (R245). -/
def execCellExtr (c : CellId) (d a : CellReg) (lsb width1 : BitVec 6) (s : State) : Host.Outcome State Fault Refusal :=
  .next (s.cellOp c allBits (encExtr d a lsb width1) (fun _ x =>
    .go (x.put d (BitVec.ofNat 64 ((x.get a).toNat / 2 ^ lsb.toNat % 2 ^ (width1.toNat + 1))))))

/-- CELL_LUI (R245). -/
def execCellLui (c : CellId) (d : CellReg) (imm : BitVec 19) (s : State) : Host.Outcome State Fault Refusal :=
  .next (s.cellOp c allBits (encWide 1 0xF d imm) (fun _ x => .go (x.put d (imm.signExtend 64 <<< 13))))

/-- CELL_LD_B (R245, R257). -/
def execCellLdB (c : CellId) (d a : CellReg) (imm : BitVec 14) (s : State) : Host.Outcome State Fault Refusal := .next (s.loadOp c 0x0 1 d a imm)

/-- CELL_LD_H (R245, R257). -/
def execCellLdH (c : CellId) (d a : CellReg) (imm : BitVec 14) (s : State) : Host.Outcome State Fault Refusal := .next (s.loadOp c 0x1 2 d a imm)

/-- CELL_LD_W (R245, R257). -/
def execCellLdW (c : CellId) (d a : CellReg) (imm : BitVec 14) (s : State) : Host.Outcome State Fault Refusal := .next (s.loadOp c 0x2 4 d a imm)

/-- CELL_LD_D (R245, R257). -/
def execCellLdD (c : CellId) (d a : CellReg) (imm : BitVec 14) (s : State) : Host.Outcome State Fault Refusal := .next (s.loadOp c 0x3 8 d a imm)

/-- CELL_ST_B (R245, R257). -/
def execCellStB (c : CellId) (d a : CellReg) (imm : BitVec 14) (s : State) : Host.Outcome State Fault Refusal := .next (s.storeOp c 0x8 1 d a imm)

/-- CELL_ST_H (R245, R257). -/
def execCellStH (c : CellId) (d a : CellReg) (imm : BitVec 14) (s : State) : Host.Outcome State Fault Refusal := .next (s.storeOp c 0x9 2 d a imm)

/-- CELL_ST_W (R245, R257). -/
def execCellStW (c : CellId) (d a : CellReg) (imm : BitVec 14) (s : State) : Host.Outcome State Fault Refusal := .next (s.storeOp c 0xA 4 d a imm)

/-- CELL_ST_D (R245, R257). -/
def execCellStD (c : CellId) (d a : CellReg) (imm : BitVec 14) (s : State) : Host.Outcome State Fault Refusal := .next (s.storeOp c 0xB 8 d a imm)

/-- CELL_BEQ (R245). -/
def execCellBeq (c : CellId) (a b : CellReg) (off : BitVec 14) (s : State) : Host.Outcome State Fault Refusal :=
  .next (s.branchOp c 0x0 a b off (fun x y => decide (x = y)))

/-- CELL_BNE (R245). -/
def execCellBne (c : CellId) (a b : CellReg) (off : BitVec 14) (s : State) : Host.Outcome State Fault Refusal :=
  .next (s.branchOp c 0x1 a b off (fun x y => decide (x ≠ y)))

/-- CELL_BLT (R245). -/
def execCellBlt (c : CellId) (a b : CellReg) (off : BitVec 14) (s : State) : Host.Outcome State Fault Refusal :=
  .next (s.branchOp c 0x2 a b off (fun x y => x.slt y))

/-- CELL_BGE (R245). -/
def execCellBge (c : CellId) (a b : CellReg) (off : BitVec 14) (s : State) : Host.Outcome State Fault Refusal :=
  .next (s.branchOp c 0x3 a b off (fun x y => !x.slt y))

/-- CELL_BLTU (R245). -/
def execCellBltu (c : CellId) (a b : CellReg) (off : BitVec 14) (s : State) : Host.Outcome State Fault Refusal :=
  .next (s.branchOp c 0x4 a b off (fun x y => x.ult y))

/-- CELL_BGEU (R245). -/
def execCellBgeu (c : CellId) (a b : CellReg) (off : BitVec 14) (s : State) : Host.Outcome State Fault Refusal :=
  .next (s.branchOp c 0x5 a b off (fun x y => !x.ult y))

/-- CELL_J (R245). -/
def execCellJ (c : CellId) (off : BitVec 19) (s : State) : Host.Outcome State Fault Refusal :=
  .next (s.cellOp c 0xFF07FFFF#32 (encWide 3 0x8 0#5 off) (fun r x => .jump x (targetOf r.pc off.toInt)))

/-- CELL_JAL (R245): d takes the address of the next instruction. -/
def execCellJal (c : CellId) (d : CellReg) (off : BitVec 19) (s : State) : Host.Outcome State Fault Refusal :=
  .next (s.cellOp c allBits (encWide 3 0x9 d off) (fun r x =>
    .jump (x.put d (BitVec.ofNat 64 (r.pc + 4))) (targetOf r.pc off.toInt)))

/-- CELL_JR (R245, R257). -/
def execCellJr (c : CellId) (a : CellReg) (s : State) : Host.Outcome State Fault Refusal :=
  .next (s.cellOp c 0xFFF80000#32 (encWide 3 0xA a 0#19) (fun r x => x.jumpReg r (x.get a).toNat))

/-- CELL_NOP (R245). -/
def execCellNop (c : CellId) (s : State) : Host.Outcome State Fault Refusal :=
  .next (s.cellOp c 0xFF000000#32 (cellWord 0xA 0x0 0) (fun _ x => .go x))

/-- CELL_END (R242): the core becomes idle. -/
def execCellEnd (c : CellId) (s : State) : Host.Outcome State Fault Refusal :=
  .next (s.onCell c 0xFF000000#32 (cellWord 0xA 0x1 0) (fun _ x t => (t.setCell c { x with run := none }, .stall)))

/-- CELL_CSRR (R256, R257). -/
def execCellCsrr (c : CellId) (d : CellReg) (k : BitVec 14) (s : State) : Host.Outcome State Fault Refusal :=
  .next (s.onCell c 0xFFF83FFF#32 (cellWord 0xA 0x2 (d.toNat * 2 ^ 19 + k.toNat)) (fun r x t =>
    match t.controlReg c x r k.toNat with
    | some v => (t, .go (x.put d v))
    | none => (t, .fault 7)))

/-- CELL_PLUMB (R34, R256): a value that plumb holds, at most one tick old; which of the two is a free value (log 7). -/
def execCellPlumb (c : CellId) (d : CellReg) (s : State) : Host.Outcome State Fault Refusal :=
  .next (s.onCell c 0xFFF80000#32 (cellWord 0xA 0x4 (d.toNat * 2 ^ 19)) (fun _ x t =>
    let old : DWord := BitVec.ofNat 64 ((Config.freeWord t.freeUse).toNat % 2)
    ({ t with freeUse := t.freeUse + 1 }, .go (x.put d (t.aon.plumb - old)))))

end Sys2Proof.Machine
end

