-- ==== Sys2Proof/Machine/CellVector.lean ====
section
/-! DEFINITION. The vector instructions of a cell (R245, R246): 16 lanes of 32 bits, lane 0 in the lowest bits. -/

namespace Sys2Proof.Machine

/-- Lane i of a vector register. -/
def laneOf (v : BitVec 512) (i : Nat) : Word := (v >>> (32 * i)).setWidth 32

/-- A vector register from its lanes. -/
def ofLanes (f : Nat → Word) : BitVec 512 :=
  (List.range 16).foldr (fun i acc => acc ||| ((f i).setWidth 512 <<< (32 * i))) 0#512

/-- The bytes of a vector register, lowest first. -/
def vectorBytes (v : BitVec 512) : List Byte := leBytes 64 v.toNat

/-- A vector register from 64 bytes. -/
def vectorOf (bs : List Byte) : BitVec 512 := BitVec.ofNat 512 (ofLe bs)

/-- A lane-wise instruction of two sources. -/
def State.laneOp (s : State) (c : CellId) (op : Nat) (int : Bool) (d a b : CellReg) (f : Word → Word → Word) : State :=
  s.cellOp c allBits (encReg 4 op d a b 0#5 int) (fun _ x =>
    .go (x.vput d (ofLanes (fun i => f (laneOf (x.vget a) i) (laneOf (x.vget b) i)))))

/-- FP32 operations with the free NaN of R246 (log 8). -/
def vAdd (x y : Word) : Word := withFreeNaN x y 0#32 (f32Add x y)
/-- Subtraction. -/
def vSub (x y : Word) : Word := withFreeNaN x y 1#32 (f32Sub x y)
/-- Multiplication. -/
def vMul (x y : Word) : Word := withFreeNaN x y 2#32 (f32Mul x y)
/-- Fused multiply-add. -/
def vFma (x y z : Word) : Word := withFreeNaN x y z (f32Fma x y z)
/-- Maximum; a free value when an operand is a NaN (log 37). -/
def vMax (x y : Word) : Word := if f32IsNaN x || f32IsNaN y then Config.nanPick 0 x y else f32Max x y
/-- Minimum; a free value when an operand is a NaN (log 37). -/
def vMin (x y : Word) : Word := if f32IsNaN x || f32IsNaN y then Config.nanPick 1 x y else f32Min x y

/-- The tree sum of lanes i to i + 7. -/
def treeSum (f : Word → Word → Word) (l : Nat → Word) (i : Nat) : Word :=
  f (f (f (l i) (l (i + 1))) (f (l (i + 2)) (l (i + 3)))) (f (f (l (i + 4)) (l (i + 5))) (f (l (i + 6)) (l (i + 7))))

/-- The sum of the 16 lanes in the fixed order of R246. -/
def vRed (f : Word → Word → Word) (v : BitVec 512) : Word := f (treeSum f (laneOf v) 0) (treeSum f (laneOf v) 8)

/-! ### Meanings -/

/-- CELL_VADD (R246). -/
def execCellVadd (c : CellId) (int : Bool) (d a b : CellReg) (s : State) : Host.Outcome State Fault Refusal :=
  .next (s.laneOp c 0x0 int d a b (fun x y => if int then x + y else vAdd x y))

/-- CELL_VSUB (R246). -/
def execCellVsub (c : CellId) (int : Bool) (d a b : CellReg) (s : State) : Host.Outcome State Fault Refusal :=
  .next (s.laneOp c 0x1 int d a b (fun x y => if int then x - y else vSub x y))

/-- CELL_VMUL (R246). -/
def execCellVmul (c : CellId) (int : Bool) (d a b : CellReg) (s : State) : Host.Outcome State Fault Refusal :=
  .next (s.laneOp c 0x2 int d a b (fun x y => if int then x * y else vMul x y))

/-- CELL_VFMA (R245, R246): d = a × b + c with one rounding. -/
def execCellVfma (c : CellId) (int : Bool) (d a b e : CellReg) (s : State) : Host.Outcome State Fault Refusal :=
  .next (s.cellOp c allBits (encReg 4 0x3 d a b e int) (fun _ x =>
    .go (x.vput d (ofLanes (fun i =>
      let p := laneOf (x.vget a) i
      let q := laneOf (x.vget b) i
      let r := laneOf (x.vget e) i
      if int then p * q + r else vFma p q r)))))

/-- CELL_VMAX (R246). -/
def execCellVmax (c : CellId) (int : Bool) (d a b : CellReg) (s : State) : Host.Outcome State Fault Refusal :=
  .next (s.laneOp c 0x4 int d a b (fun x y => if int then (if x.slt y then y else x) else vMax x y))

/-- CELL_VMIN (R246). -/
def execCellVmin (c : CellId) (int : Bool) (d a b : CellReg) (s : State) : Host.Outcome State Fault Refusal :=
  .next (s.laneOp c 0x5 int d a b (fun x y => if int then (if y.slt x then y else x) else vMin x y))

/-- CELL_VBCAST (R245): bits 31:0 of the scalar in every lane. -/
def execCellVbcast (c : CellId) (d a : CellReg) (s : State) : Host.Outcome State Fault Refusal :=
  .next (s.cellOp c 0xFFFFC000#32 (encReg 4 0x6 d a 0#5 0#5 false) (fun _ x =>
    .go (x.vput d (ofLanes (fun _ => (x.get a).setWidth 32)))))

/-- CELL_VRED (R246): the sum goes to bits 31:0 of d, and bits 63:32 are zero. -/
def execCellVred (c : CellId) (int : Bool) (d a : CellReg) (s : State) : Host.Outcome State Fault Refusal :=
  .next (s.cellOp c 0xFFFFC001#32 (encReg 4 0x7 d a 0#5 0#5 int) (fun _ x =>
    .go (x.put d ((vRed (if int then fun p q => p + q else vAdd) (x.vget a)).setWidth 64))))

/-- CELL_VLD (R245, R257). The word of a poisoned read reaches the register with its poison (log 38). -/
def execCellVld (c : CellId) (d a : CellReg) (imm : BitVec 14) (s : State) : Host.Outcome State Fault Refusal :=
  .next (s.cellOp c allBits (encImm 5 0x0 d a imm) (fun r x =>
    let p := x.addr a imm
    if !x.reaches r p 64 64 then .fault 2
    else
      let y := x.vput d (vectorOf (x.mem.bytes p 64))
      match x.poisonAt p 64 with
      | some w => .poison { y with vpoison := d :: y.vpoison } w
      | none => .go y))

/-- CELL_VST (R245, R257). -/
def execCellVst (c : CellId) (d a : CellReg) (imm : BitVec 14) (s : State) : Host.Outcome State Fault Refusal :=
  .next (s.cellOp c allBits (encImm 5 0x1 d a imm) (fun r x =>
    let p := x.addr a imm
    if !x.reaches r p 64 64 then .fault 2 else .go (x.write p (vectorBytes (x.vget d)))))

end Sys2Proof.Machine
end

