-- ==== Sys2Proof/Machine/Matrix.lean ====
section
/-! DEFINITION. The matrix unit of a cell: operand tiles (R216 to R218), long accumulation (R220 to R222), ordered BF16
accumulation (R223), read-out (R224 to R226) and the matrix instructions (R247). -/

namespace Sys2Proof.Machine

/-! ### Operand tiles (R217, R218, R247) -/

/-- Byte i of a vector register. -/
def vbyte (v : BitVec 512) (i : Nat) : Byte := (v >>> (8 * i)).setWidth 8

/-- Nibble q counted from byte `base` (R218). -/
def vnibble (v : BitVec 512) (base q : Nat) : BitVec 4 := (vbyte v (base + q / 2) >>> (4 * (q % 2))).setWidth 4

/-- Bytes 2i and 2i + 1 from byte `base`. -/
def vhalf (v : BitVec 512) (base i : Nat) : Half := (v >>> (8 * (base + 2 * i))).setWidth 16

/-- An INT8 element. -/
def int8Val (b : Byte) : FpVal := .fin (decide (b.toInt < 0)) b.toInt.natAbs 0

/-- An element of an 8-bit operand: formats 0 E4M3, 1 E5M2, 2 INT8. -/
def byteVal (f : Nat) (b : Byte) : FpVal := if f = 0 then e4m3Val b else if f = 1 then e5m2Val b else int8Val b

/-- The format of the A operand of `fmt` 0 to 4. -/
def aFormat (fmt : Nat) : Nat := if fmt = 4 then 2 else fmt / 2
/-- The format of the B operand of `fmt` 0 to 4. -/
def bFormat (fmt : Nat) : Nat := if fmt = 4 then 2 else fmt % 2

/-- Values of k in a step (R217). -/
def stepDepth (fmt : Nat) : Nat := if fmt = 5 then 8 else 4

/-- The bytes of an A or B tile, which a quarter or half of a register holds. -/
def tileBytes (fmt : Nat) : Nat := if fmt = 6 then 32 else 16

/-- Element (i, k) of a tile whose rows lie one after the other from byte `base`; with `vec`, only row 0 is there. -/
def tileElem (fmt f : Nat) (v : BitVec 512) (base i k : Nat) : FpVal :=
  if fmt = 5 then e2m1Val (vnibble v base (8 * i + k))
  else if fmt = 6 then bf16Val (vhalf v base (4 * i + k))
  else byteVal f (vbyte v (base + 4 * i + k))

/-- A element (i, k) (R218, R247). -/
def aElem (fmt : Nat) (v : BitVec 512) (asel : Nat) (vec : Bool) (i k : Nat) : FpVal :=
  if vec then
    (if i = 0 then tileElem fmt (aFormat fmt) v (if fmt = 6 then 8 * (asel % 8) else 4 * (asel % 16)) 0 k else .fin false 0 0)
  else tileElem fmt (aFormat fmt) v (tileBytes fmt * (asel % (64 / tileBytes fmt))) i k

/-- B element (k, j): column j's values of k lie one after the other. -/
def bElem (fmt : Nat) (v : BitVec 512) (bsel k j : Nat) : FpVal :=
  tileElem fmt (bFormat fmt) v (tileBytes fmt * (bsel % (64 / tileBytes fmt))) j k

/-! ### Long accumulation (R220 to R222) -/

/-- What the products of one element give: the exact sum of the finite ones, as an integer times a power of two, and the
specials met. -/
structure Contribution4 where
  sum : Int := 0
  exp : Int := 0
  nan : Bool := false
  posInf : Bool := false
  negInf : Bool := false
deriving DecidableEq, Repr

/-- Add a product: a special sets its flag in place of entering the sum (R222). -/
def Contribution4.add (c : Contribution4) (p : FpVal) : Contribution4 :=
  match p with
  | .nan => { c with nan := true }
  | .inf neg => if neg then { c with negInf := true } else { c with posInf := true }
  | .fin neg m e =>
    let r := dyAdd (decide (c.sum < 0)) c.sum.natAbs c.exp neg m e
    { c with sum := r.1, exp := r.2 }

/-- The contribution of a step to element (i, j). -/
def contribution (fmt : Nat) (va vb : BitVec 512) (asel bsel : Nat) (vec : Bool) (i j : Nat) : Contribution4 :=
  (List.range (stepDepth fmt)).foldl (fun c k => c.add (fpProd (aElem fmt va asel vec i k) (bElem fmt vb bsel k j))) {}

/-- The E8M0 scales of row i and column j, and whether one is a NaN (R216, R221, R222). -/
def scaleOf (g30 : DWord) (i j : Nat) : Int × Bool :=
  let x := g30.toNat / 2 ^ (8 * i) % 256
  let y := g30.toNat / 2 ^ (32 + 8 * j) % 256
  ((x : Int) + y - 254, decide (x = 255) || decide (y = 255))

/-- An element's integer value. -/
def Tile.elem (t : Tile) (n : Nat) : Int := ((t.elems.toList[n]?).getD 0#128).toInt

/-- The weight of bit 0 of an element (R220). -/
def Tile.weight (t : Tile) : Int := t.shift - 64

/-- Add a contribution to element n of a long tile: magnitudes below bit 0 are truncated, and what leaves the window sets
`overflow` (R221). -/
def Tile.addLong (t : Tile) (n : Nat) (c : Contribution4) : Tile :=
  let sh := c.exp - t.weight
  let mag := c.sum.natAbs
  let q := if 0 ≤ sh then mag <<< sh.toNat else mag >>> (-sh).toNat
  let low := decide (sh < 0) && decide (q <<< (-sh).toNat ≠ mag)
  let v : Int := if c.sum < 0 then -(q : Int) else q
  let total := t.elem n + v
  let out := fun (x : Int) => decide (x < -(2 ^ 127)) || decide (2 ^ 127 ≤ x)
  { t with elems := Vector.ofFn (fun i => if i.val = n then BitVec.ofInt 128 total else t.elems[i.val]),
           rangeLow := t.rangeLow || low, overflow := t.overflow || out v || out total, nan := t.nan || c.nan,
           posInf := t.posInf || c.posInf, negInf := t.negInf || c.negInf }

/-- Every element of a tile in turn. -/
def Tile.each (t : Tile) (f : Tile → Nat → Nat → Tile) : Tile :=
  (List.range 16).foldl (fun x n => f x (n / 4) (n % 4)) t

/-- One step to a long tile. -/
def Tile.stepLong (t : Tile) (fmt : Nat) (va vb : BitVec 512) (asel bsel : Nat) (vec : Bool) (g30 : DWord) : Tile :=
  t.each (fun x i j =>
    let c := contribution fmt va vb asel bsel vec i j
    let sc := scaleOf g30 i j
    let c' := if fmt = 5 then
        (if sc.2 then { c with sum := 0, nan := true } else { c with exp := c.exp + sc.1 })
      else c
    x.addLong (4 * i + j) c')

/-! ### Ordered accumulation (R223) -/

/-- An FP32 element of an ordered tile. -/
def Tile.f32 (t : Tile) (n : Nat) : Word := ((t.elems.toList[n]?).getD 0#128).setWidth 32

/-- One BF16 step: the products for k = 0 to 3 are added one at a time, each addition rounded. -/
def Tile.stepOrdered (t : Tile) (va vb : BitVec 512) (asel bsel : Nat) (vec : Bool) : Tile :=
  t.each (fun x i j =>
    let v := (List.range 4).foldl (fun (acc : Word) k =>
      f32Of (fpSum (f32Val acc) (fpProd (aElem 6 va asel vec i k) (bElem 6 vb bsel k j)))) (x.f32 (4 * i + j))
    { x with elems := Vector.ofFn (fun n => if n.val = 4 * i + j then v.setWidth 128 else x.elems[n.val]) })

/-- The tile state word (R222). -/
def Tile.word (t : Tile) : Word :=
  let b := fun (x : Bool) (n : Nat) => if x then 2 ^ n else 0
  BitVec.ofNat 32 (b t.nan 31 + b t.posInf 30 + b t.negInf 29 + b t.overflow 28 + b t.rangeLow 27 + b t.poison 26
    + t.mode % 4 * 2 ^ 24 + (t.shift % 256).toNat * 2 ^ 16 + min 0xFFFF t.steps)

/-- A cleared tile (R220). -/
def Tile.cleared (mode : Nat) (shift : Int) : Tile := { mode := mode, shift := shift }

/-! ### Read-out (R224 to R226) -/

/-- The exact value of element n. -/
def Tile.value (t : Tile) (n : Nat) : FpVal :=
  if t.mode = 2 then f32Val (t.f32 n)
  else .fin (decide (t.elem n < 0)) (t.elem n).natAbs t.weight

/-- What a read-out reads for element n: a flagged NaN, a flagged infinity, or the value (R224, R225). -/
def Tile.read (t : Tile) (n : Nat) : FpVal :=
  if t.poison || t.nan || (t.posInf && t.negInf) || t.overflow then .nan
  else if t.posInf then .inf false
  else if t.negInf then .inf true
  else t.value n

/-- A value as INT8 after a right shift r. -/
def toInt8 (v : FpVal) (r : Nat) : Byte :=
  match v with
  | .nan => 0x00#8
  | .inf neg => if neg then 0x80#8 else 0x7F#8
  | .fin neg m e =>
    let x := e - r
    let q : Nat := if 0 ≤ x then m <<< x.toNat else rneShift m (-x).toNat
    if neg then BitVec.ofInt 8 (-(min q 128 : Nat)) else BitVec.ofNat 8 (min q 127)

/-- A narrow float's code: NaN, infinity and overflow as the table of R224 gives them. -/
def toNarrow (f bias maxCode infCode satCode : Nat) (sat : Bool) (v : FpVal) (isFlag : Bool) : Nat :=
  match v with
  | .nan => 0
  | .inf neg => signedCode 7 neg (if sat && !isFlag then satCode else infCode)
  | .fin neg m e =>
    match narrowRound f bias maxCode m e with
    | some c => signedCode 7 neg c
    | none => signedCode 7 neg (if sat then satCode else infCode)

/-- Element n in a target format: 0 FP32, 1 BF16, 2 E5M2, 3 E4M3, 4 INT8; its bytes. -/
def Tile.convert (t : Tile) (target : Nat) (sat : Bool) (r n : Nat) : List Byte :=
  let v := t.read n
  let flagged := t.mode ≠ 2 && (t.posInf || t.negInf)
  if target = 0 then leBytes 4 (f32Of v).toNat
  else if target = 1 then
    (match v with
    | .nan => leBytes 2 0x7FC0
    | .inf neg => leBytes 2 (signedCode 15 neg 0x7F80)
    | .fin neg m e => leBytes 2 (signedCode 15 neg ((narrowRound 7 127 0x7F7F m e).getD 0x7F80)))
  else if target = 2 then
    (match v with
    | .nan => [0x7F#8]
    | _ => leBytes 1 (toNarrow 2 15 0x7B 0x7C 0x7B sat v flagged))
  else if target = 3 then
    (match v with
    | .nan => [0x7F#8]
    | _ => leBytes 1 (toNarrow 3 7 0x7E 0x7F 0x7E sat v false))
  else [toInt8 v r]

/-- Bytes of an element in a target format. -/
def targetSize (target : Nat) : Nat := if target = 0 then 4 else if target = 1 then 2 else 1

/-- The vector register after a read-out: the elements at their positions; with `rowmode` every other byte stays, without it
the bytes past the 16 elements are those given, free values of the operands (R227; log 7). -/
def readOut (t : Tile) (old : BitVec 512) (target : Nat) (sat rowmode : Bool) (row q r : Nat) (fill : Nat → Byte) : BitVec 512 :=
  let sz := targetSize target
  if rowmode then
    let bs := (List.range 4).flatMap (fun j => t.convert target sat r (4 * row + j))
    let o := vectorBytes old
    vectorOf (o.take (4 * q * sz) ++ bs ++ o.drop (4 * q * sz + bs.length))
  else
    let bs := (List.range 16).flatMap (fun n => t.convert target sat r n)
    vectorOf (bs ++ (List.range (64 - bs.length)).map (fun i => fill (bs.length + i)))

/-- What a read-out counts (R226, R239, R240): elements with `overflow` set, and a poisoned tile. -/
def readOutEffects (c : CellId) (tile : TileId) (t : Tile) (elems now : Nat) : List Effect :=
  (if t.overflow then cellEvent 0 elems c now (leBytes 1 tile.toNat) [] else [])
    ++ (if t.poison then cellEvent 2 1 c now (leBytes 1 tile.toNat) [] else [])

/-- What a clear counts (R226). -/
def clearEffects (t : Tile) : List Effect := if t.rangeLow then [.count ⟨0x0B, 0, 1⟩ 1] else []

/-! ### Meanings (R247) -/

/-- CELL_MCLR (R220, R222, R226). -/
def execCellMclr (c : CellId) (t : TileId) (mode : BitVec 2) (shift : Byte) (s : State) : Host.Outcome State Fault Refusal :=
  .next (s.onCell c allBits (cellWord 6 0x0 (t.toNat * 2 ^ 22 + mode.toNat * 2 ^ 20 + shift.toNat * 2 ^ 12)) (fun _ x u =>
    (u.effects (clearEffects (x.tile t)), .go (x.setTile t (Tile.cleared mode.toNat (if mode = 1#2 then shift.toInt else 0))))))

/-- CELL_MSTEP (R217 to R223, R257 cause 4). -/
def execCellMstep (c : CellId) (t : TileId) (va vb : CellReg) (asel : BitVec 4) (bsel : BitVec 2) (vec : Bool) (fmt : BitVec 3)
    (s : State) : Host.Outcome State Fault Refusal :=
  let w := cellWord 6 0x1 (t.toNat * 2 ^ 22 + va.toNat * 2 ^ 17 + vb.toNat * 2 ^ 12 + asel.toNat * 2 ^ 8 + bsel.toNat * 2 ^ 6
    + (if vec then 32 else 0) + fmt.toNat * 4)
  .next (s.cellOp c allBits w (fun _ x =>
    let y := x.tile t
    if y.mode ≠ (if fmt = 6#3 then 2 else 1) then .fault 4
    else
      let z := if fmt = 6#3 then y.stepOrdered (x.vget va) (x.vget vb) asel.toNat bsel.toNat vec
        else y.stepLong fmt.toNat (x.vget va) (x.vget vb) asel.toNat bsel.toNat vec (x.get 30#5)
      .go (x.setTile t { z with steps := min 0xFFFF (y.steps + 1),
                                poison := y.poison || x.vpoison.contains va || x.vpoison.contains vb })))

/-- CELL_MRD (R224 to R226). -/
def execCellMrd (c : CellId) (t : TileId) (vd : CellReg) (target : BitVec 3) (sat clr : Bool) (row : BitVec 2) (rowmode : Bool)
    (q : BitVec 2) (shift : BitVec 7) (s : State) : Host.Outcome State Fault Refusal :=
  let w := cellWord 6 0x2 (t.toNat * 2 ^ 22 + vd.toNat * 2 ^ 17 + target.toNat * 2 ^ 14 + (if sat then 2 ^ 13 else 0)
    + (if clr then 2 ^ 12 else 0) + row.toNat * 2 ^ 10 + (if rowmode then 2 ^ 9 else 0) + q.toNat * 2 ^ 7 + shift.toNat)
  .next (s.onCell c allBits w (fun _ x u =>
    let y := x.tile t
    let fill := Config.readOutFill w y.mode y.shift y.elems.toList (x.vget vd)
    let x1 := x.vput vd (readOut y (x.vget vd) target.toNat sat rowmode row.toNat q.toNat shift.toNat fill)
    let x2 := if clr then x1.setTile t (Tile.cleared y.mode y.shift) else x1
    ((if y.poison then u.report c else u).effects (
      readOutEffects c t y (if rowmode then 4 else 16) u.now ++ if clr then clearEffects y else []), .go x2)))

/-- CELL_MSTAT (R222, R247). -/
def execCellMstat (c : CellId) (t : TileId) (d : CellReg) (s : State) : Host.Outcome State Fault Refusal :=
  .next (s.cellOp c 0xFFFE0FFF#32 (cellWord 6 0x3 (t.toNat * 2 ^ 22 + d.toNat * 2 ^ 17)) (fun _ x =>
    .go (x.put d ((x.tile t).word.setWidth 64))))

end Sys2Proof.Machine
end

