-- ==== Sys2Proof/Machine/CellMessages.lean ====
section
/-! DEFINITION. The three networks of the cell grid: messages (R230, R242, R250 to R252), bulk transfers and shared memory
(R229, R235, R253, R254), barriers and flags (R231, R255). -/

namespace Sys2Proof.Machine

/-! ### Message headers (R250) -/

/-- `kind`. -/
def hdrKind (h : DWord) : Nat := h.toNat / 2 ^ 62
/-- `dest`. -/
def hdrDest (h : DWord) : Nat := h.toNat / 2 ^ 50 % 4096
/-- `to_engine`. -/
def hdrToEngine (h : DWord) : Bool := h.getLsbD 49
/-- `source`. -/
def hdrSource (h : DWord) : Nat := h.toNat / 2 ^ 37 % 4096
/-- `length`. -/
def hdrLength (h : DWord) : Nat := h.toNat / 2 ^ 33 % 16
/-- `pslot`. -/
def hdrSlot (h : DWord) : Bool := h.getLsbD 32
/-- `handler` or `status`. -/
def hdrHandler (h : DWord) : Nat := h.toNat / 2 ^ 28 % 16

/-- A header word. -/
def mkHeader (kind dest : Nat) (toEngine : Bool) (source length : Nat) (slot : Bool) (handler tag : Nat) : DWord :=
  BitVec.ofNat 64 (kind * 2 ^ 62 + dest % 4096 * 2 ^ 50 + (if toEngine then 2 ^ 49 else 0) + source % 4096 * 2 ^ 37
    + length % 16 * 2 ^ 33 + (if slot then 2 ^ 32 else 0) + handler % 16 * 2 ^ 28 + tag % 64)

/-- The header with its source written by the router. -/
def withSource (h : DWord) (c : CellId) : DWord :=
  BitVec.ofNat 64 (h.toNat / 2 ^ 49 * 2 ^ 49 + c.toNat * 2 ^ 37 + h.toNat % 2 ^ 37)

/-- Words of a message: header and payload. -/
def Msg.size (m : Msg) : Nat := 1 + m.words.length

/-- A message's words still queued. -/
def Msg.left (m : Msg) : Nat := m.size - m.taken

/-- Words in a receive queue (R230). -/
def Cell.queued (x : Cell) : Nat := x.recvQ.foldl (fun n m => n + m.left) 0

/-- Words of a message that are left in order: the header, then the payload. -/
def Msg.word (m : Msg) : DWord := match m.taken with | 0 => m.header | n + 1 => (m.words[n]?).getD 0#64

/-- Whether a message is work. -/
def Msg.isWork (m : Msg) : Bool := decide (hdrKind m.header = 1)

/-! ### Handlers (R242, R259, R267) -/

/-- The general registers at the start of a handler: g1 the header, g2 upward the payload words. -/
def handlerRegs (m : Msg) : Vector DWord 32 :=
  Vector.ofFn (fun i => if i.val = 1 then m.header else if 2 ≤ i.val then (m.words[i.val - 2]?).getD 0#64 else 0#64)

/-- HANDLER_START: an idle core starts the handler of its oldest work message; an entry of 0xFFFF is a program fault. -/
def handlerStart (c : CellId) (s : State) : State :=
  let x := s.cell c
  match x.run, x.recvQ.find? Msg.isWork, x.reloading || !s.rel.usable c with
  | none, some m, false =>
    let one := hdrSlot m.header
    let entry := ((x.slot one).handlers[hdrHandler m.header]?).getD 0xFFFF
    let y : Cell := { x with g := handlerRegs m, recvQ := x.recvQ.erase m, workItems := min (2 ^ 48 - 1) (x.workItems + 1),
                             run := some { pc := 4 * entry, slot1 := one, handlerAddr := 4 * entry } }
    let s1 := (s.setCell c y).count1 0x0B 0 5
    if entry = 0xFFFF then s1.programFault c y 2 else s1
  | _, _, _ => s

/-! ### Sending and receiving (R230, R251, R252) -/

/-- The destination of a message as the distance table numbers it (R237, R250). -/
def Msg.destination (m : Msg) : Nat :=
  if hdrToEngine m.header then 64 + hdrDest m.header % 16 else 80 + hdrDest m.header / 16

/-- A link of the message mesh as its two ends: the routers, 16 · row + column, then the cells from 256 on and the engine ports from
4,352 on. -/
abbrev MeshLink := Nat × Nat

/-- The links that a list of routers passes. -/
def linksAlong : Nat → List Nat → List MeshLink
  | _, [] => []
  | a, b :: bs => (a, b) :: linksAlong b bs

/-- The links of a message from a cell, or from an engine port: the one into its first router, then those of its path (R228). -/
def meshLinks (src : Option CellId) (m : Msg) : List MeshLink :=
  let router := fun (p : Nat × Nat) => 16 * p.2 + p.1
  let at' := match src with | some c => benchAt (benchOf c).toNat | none => destinationAt (64 + hdrSource m.header % 16)
  let own := match src with | some c => 256 + c.toNat | none => 4352 + hdrSource m.header % 16
  linksAlong own (router at' :: (meshPath at' (destinationAt m.destination)).map router)

/-- The links that messages block which wait before a full queue: of each the one it came by (R230; log 39). -/
def Grid.blocked (g : Grid) : List MeshLink :=
  (g.mesh.filter (fun m => m.2.waits)).filterMap (fun m => (meshLinks m.1 m.2).getLast?)

/-- Whether a message cannot go on: its way takes a blocked link (R230). -/
def Grid.held (g : Grid) (m : Option CellId × Msg) : Bool := !m.2.waits && (meshLinks m.1 m.2).any (fun l => g.blocked.contains l)

/-- Words of a cell's send buffer in use: the message being written, and those that a blocked link keeps from leaving (R230, R251;
log 39). -/
def State.sendUse (s : State) (c : CellId) (x : Cell) : Nat :=
  (s.grid.mesh.filter (fun m => m.1 = some c && s.grid.held m)).foldl (fun n m => n + m.2.size) 0
    + (if x.sendHdr.isSome then 1 + x.sendWords.length else 0)

/-- Put a message on the mesh. -/
def State.putMesh (s : State) (src : Option CellId) (m : Msg) : State := { s with grid := { s.grid with mesh := s.grid.mesh ++ [(src, m)] } }

/-- A stalled arithmetic cycle of a send (R230, R240). -/
def State.sendStall (s : State) (c : CellId) : State := s.effects (cellEvent 3 1 c s.now [] [])

/-- A message with one more word: it leaves when its length is reached. -/
def State.sendOn (s : State) (c : CellId) (x : Cell) (h : DWord) (words : List DWord) : State × CellOut :=
  if hdrLength h ≤ words.length then (s.putMesh (some c) { header := h, words := words }, .go { x with sendHdr := none, sendWords := [] })
  else (s, .go { x with sendHdr := some h, sendWords := words })

/-- Whether a header's destination can be sent to (R250, R251). -/
def State.sendable (s : State) (h : DWord) : Bool :=
  if hdrToEngine h then decide (hdrDest h < 16) && decide (hdrDest h % 8 ≠ 7) else s.rel.usable (BitVec.ofNat 12 (hdrDest h))

/-- `send` of a header value. -/
def sendHeader (c : CellId) (v : DWord) (x : Cell) (s : State) : State × CellOut :=
  if x.sendHdr.isSome || !s.sendable v then (s, .fault 6)
  else if 16 ≤ s.sendUse c x then (s.sendStall c, .stall)
  else s.sendOn c x (withSource v c) []

/-- `sendw` of a word; with no message begun the word has nowhere to go (log 39). -/
def sendPayload (c : CellId) (v : DWord) (x : Cell) (s : State) : State × CellOut :=
  match x.sendHdr with
  | none => (s, .go x)
  | some h => if 16 ≤ s.sendUse c x then (s.sendStall c, .stall) else s.sendOn c x h (x.sendWords ++ [v])

/-- Take the next word of the oldest message that is no work. -/
def takeWord : List Msg → Option (DWord × List Msg)
  | [] => none
  | m :: ms =>
    if m.isWork then (match takeWord ms with | some (w, r) => some (w, m :: r) | none => none)
    else some (m.word, if m.taken + 1 = m.size then ms else { m with taken := m.taken + 1 } :: ms)

/-- Take the oldest message on the mesh that satisfies a test and is not held. -/
def State.takeMesh (s : State) (f : Msg → Bool) : Option (Msg × State) :=
  match s.grid.mesh.find? (fun m => f m.2 && !s.grid.held m) with
  | some m => some (m.2, { s with grid := { s.grid with mesh := s.grid.mesh.erase m } })
  | none => none

/-- A message starts to wait in its destination's router, and blocks the link it came by (R230). -/
def State.stopMesh (s : State) (m : Msg) : State :=
  { s with grid := { s.grid with mesh := s.grid.mesh.map (fun e => if e.2 = m then (e.1, { m with waits := true }) else e) } }

/-- CELL_MESSAGE_ARRIVE: the oldest message to a cell enters its queue, or waits in its router while that is full; work for a cell that
reloads is discarded and counted, and a message to a cell that is not usable is lost (R230, R265, R477). The callipers' work
message follows their transfer to the cell (R280). -/
def messageArrive (c : CellId) (s : State) : State :=
  let behind := fun (m : Msg) => s.grid.transfers.any (fun t =>
    decide (t.kind = 3) && decide (t.dest = c) && decide (t.from?.toNat = hdrSource m.header) && m.isWork)
  match s.takeMesh (fun m => !hdrToEngine m.header && decide (hdrDest m.header = c.toNat) && !behind m) with
  | none => s
  | some (m, s1) =>
    let x := s.cell c
    if !s.rel.usable c then s1
    else if x.reloading && m.isWork then s1.count1 0x0B 0 10
    else if 64 < x.queued + m.size then s.stopMesh m
    else s1.setCell c { x with recvQ := x.recvQ ++ [{ m with waits := false }] }

/-! ### A bench's arbiter (R235) -/

/-- The clock point of a bench's half in MHz. -/
def State.benchMhz (s : State) (b : Byte) : Nat := (s.power.half (benchHalf b)).run

/-- Whether a transfer waits for a bench's grant: a request to shared memory that is not refused. -/
def Transfer.asks (t : Transfer) (b : Byte) : Bool :=
  (decide (t.kind = 1) || decide (t.kind = 2)) && !t.refused && !t.granted && decide (benchOf t.from? = b)

/-- The request of each cell of a bench that the arbiter sees: its first one not granted. -/
def arbiterSees (b : Byte) : List CellId → List Transfer → List Transfer
  | _, [] => []
  | seen, t :: ts =>
    if t.asks b && !seen.contains t.from? then t :: arbiterSees b (t.from? :: seen) ts else arbiterSees b seen ts

/-- Mark a grant to a cell in the transfers: its first request is granted, and the others seen have waited one grant more. -/
def grantIn (b : Byte) (win : CellId) (others : List CellId) : List CellId → List Transfer → List Transfer
  | _, [] => []
  | seen, t :: ts =>
    if t.asks b && !seen.contains t.from? then
      (if t.from? = win then { t with granted := true } else if others.contains t.from? then { t with waited := t.waited + 1 } else t)
        :: grantIn b win others (t.from? :: seen) ts
    else t :: grantIn b win others seen ts

/-- How far a cell stands behind the last one granted: 0 for the next position. -/
def Arbiter.turn (a : Arbiter) (c : CellId) : Nat := (c.toNat % 16 + 15 - a.last) % 16

/-- One grant of a bench in an arithmetic cycle up to one given, by rotating priority after the last cell granted; its wait counts
for `bench_arb_peak` (R235; log 40). -/
def State.grantOne (s : State) (b : Byte) (upTo : Nat) : State :=
  let a := (aget b s.grid.arbiters).getD {}
  let cycle := fun (t : Transfer) => t.issued * s.benchMhz b / 1600
  let seen := arbiterSees b [] s.grid.transfers
  let here := max (a.free * s.benchMhz b / 1600) ((seen.map cycle).foldl min upTo)
  let cands := seen.filter (fun t => decide (cycle t ≤ here))
  match cands.find? (fun t => cands.all (fun (u : Transfer) => decide (a.turn t.from? ≤ a.turn u.from?))) with
  | some t =>
    if upTo < here then s
    else
      ({ s with grid := { s.grid with transfers := grantIn b t.from? (cands.map Transfer.from?) [] s.grid.transfers,
                                      arbiters := aset b { last := t.from?.toNat % 16, free := (1600 * (here + 1) + s.benchMhz b - 1) / s.benchMhz b } s.grid.arbiters } }
        ).raisePeak ⟨0x0C, 0, b.toNat⟩ t.waited
  | none => s

/-- A bench's grants up to a tick. -/
def State.arbitrate (s : State) (b : Byte) (upTo : Nat) : State :=
  (s.grid.transfers.filter (fun t => t.asks b)).foldl (fun t _ => t.grantOne b (upTo * s.benchMhz b / 1600)) s

/-- Every bench's grants up to a tick. -/
def State.arbitrateAll (s : State) (upTo : Nat) : State :=
  ((s.grid.transfers.filter (fun t => t.asks (benchOf t.from?))).map (fun t => benchOf t.from?)).eraseDups.foldl
    (fun t b => t.arbitrate b upTo) s

/-! ### Bulk transfers (R229, R253, R254) -/

/-- Bytes of a transfer: `length` units of 64, 0 meaning 256. -/
def bulkBytes (len : Byte) : Nat := 64 * (if len = 0#8 then 256 else len.toNat)

/-- Whether a span of shared memory lies in one window of a slot with the access wanted (R254). -/
def CellSlot.admits (sl : CellSlot) (off n : Nat) (write : Bool) : Bool :=
  sl.windows.any (fun (w : Nat × Nat × Bool) => decide (w.1 ≤ off) && decide (off + n ≤ w.1 + w.2.1) && (!write || w.2.2))

/-- Start a transfer. -/
def State.startTransfer (s : State) (t : Transfer) : State := { s with grid := { s.grid with transfers := s.grid.transfers ++ [t] } }

/-- `bput`. -/
def bulkPut (c : CellId) (a b : DWord) (tag : BitVec 6) (n : Nat) (r : Running) (x : Cell) (s : State) : State × CellOut :=
  let p := a.toNat
  let q := b.toNat % 2 ^ 17
  if !x.reaches r p n 64 || !inLocal q n || decide (q % 64 ≠ 0) then (s, .fault 2)
  else
    (s.startTransfer { from? := c, kind := 0, dest := BitVec.ofNat 12 (hdrDest b), localAddr := p, remote := q, bytes := n,
                       data := x.mem.bytes p n, poison := (x.poisonAt p n).isSome, tag := tag, refused := false, issued := s.now },
     .go x)

/-- `bget` (write false) and `bpost` (write true): through the bench port and its arbiter (R235); one outside the windows is refused, which counts
and raises NTC_CELL (R254, R267). -/
def bulkShared (c : CellId) (write : Bool) (a b : DWord) (tag : BitVec 6) (n : Nat) (r : Running) (x : Cell) (s : State) :
    State × CellOut :=
  let p := a.toNat
  let off := b.toNat % 2 ^ 30
  if !x.reaches r p n 64 then (s, .fault 2)
  else
    let refused := decide (off % 64 ≠ 0) || !(x.slot r.slot1).admits off n write
    let t : Transfer :=
      { from? := c, kind := if write then 2 else 1, dest := c, localAddr := p, remote := off, bytes := n,
        data := if write then x.mem.bytes p n else [], poison := write && (x.poisonAt p n).isSome, tag := tag,
        refused := refused, issued := s.now }
    let s1 := s.startTransfer t
    (if refused then s1.effects (cellEvent 7 1 c s.now [] (leBytes 2 (r.handlerAddr / 4) ++ leBytes 1 x.faultCause)) else s1, .go x)

/-- A poisoned word of shared memory in a span. -/
def State.sharedPoison (s : State) (off n : Nat) : Option (Nat × Nat) :=
  (s.rel.poisoned.find? (fun (e : Nat × Nat × Nat) => decide (e.1 = 0) && decide (e.2.2 < off + n) && decide (off < e.2.2 + 8))).map
    (fun (e : Nat × Nat × Nat) => (e.2.1, e.2.2))

/-- Read shared memory: what has been written there, else what the firmware placed (R258; log 40). -/
def State.readShared (s : State) (off n : Nat) : List Byte :=
  (List.range n).map (fun i =>
    if s.grid.written.any (fun w => decide (w.1 ≤ off + i) && decide (off + i < w.1 + w.2)) then s.grid.shared.get (off + i)
    else Config.tableByte s.cast.placements (off + i))

/-- Whole words written lose their poison; poisoned data poisons every word it lands on. -/
def State.writeShared (s : State) (off : Nat) (bs : List Byte) : State :=
  let known := s.grid.written.any (fun w => decide (w.1 ≤ off) && decide (off + bs.length ≤ w.1 + w.2))
  { s with grid := { s.grid with shared := s.grid.shared.setBytes off bs,
                                 written := if known then s.grid.written else s.grid.written ++ [(off, bs.length)] },
           rel := { s.rel with poisoned := s.rel.poisoned.filter (fun (e : Nat × Nat × Nat) =>
             !(decide (e.1 = 0) && decide (off ≤ e.2.2) && decide (e.2.2 + 8 ≤ off + bs.length))) } }

/-- A transfer's data lands: what it changes, and its completion's status. -/
def State.land (s : State) (t : Transfer) : State × Nat :=
  if t.refused then (s, 1)
  else if t.kind = 0 ∨ t.kind = 3 then
    let x := (s.cell t.dest).write t.remote t.data
    (s.setCell t.dest (if t.poison then x.poisonSpan t.remote t.bytes else x), if t.poison then 2 else 0)
  else if t.kind = 1 then
    let x := (s.cell t.from?).write t.localAddr (s.readShared t.remote t.bytes)
    match s.sharedPoison t.remote t.bytes with
    | some (bank, addr) => ((s.setCell t.from? (x.poisonSpan t.localAddr t.bytes)).effects (poisonRead 0 bank addr s.now), 2)
    | none => (s.setCell t.from? x, 0)
  else (s.writeShared t.remote t.data, if t.poison then 2 else 0)

/-- The cell that a transfer's completion comes to. -/
def Transfer.notified (t : Transfer) : CellId := if t.kind = 0 ∨ t.kind = 3 then t.dest else t.from?

/-- BULK_TRANSFER_COMPLETE: the oldest transfer that completes at a cell lands, when its bench has granted it, and its completion
word joins the cell's queue when there is room (R229, R235, R253). -/
def bulkComplete (c : CellId) (s0 : State) : State :=
  let s := s0.arbitrate (benchOf c) s0.now
  match s.grid.transfers.find? (fun t => decide (t.notified = c)) with
  | none => s
  | some t =>
    if t.asks (benchOf t.from?) then s else
    let s1 := { s with grid := { s.grid with transfers := s.grid.transfers.erase t } }
    if !s.rel.usable c then (if t.kind = 2 then (s1.land t).1 else s1)
    else if 64 < (s.cell c).queued + 1 then s
    else
      let r := s1.land t
      let x := r.1.cell c
      r.1.setCell c { x with recvQ := x.recvQ ++ [{ header := mkHeader 2 c.toNat false t.from?.toNat 0 false r.2 t.tag.toNat, words := [] }] }

/-! ### Barriers and flags (R231, R255) -/

/-- Whether a cell is a member of a channel under a policy slot. -/
def Cell.member (x : Cell) (one : Bool) (ch : Nat) : Bool := (x.slot one).loaded && (x.slot one).barrierMask.getLsbD ch

/-- Whether a cell has arrived at a channel with a handler of a policy slot. -/
def Cell.arrived (x : Cell) (one : Bool) (ch : BitVec 6) : Bool :=
  match x.run with
  | some r => decide (r.atBarrier = some ch) && decide (r.slot1 = one)
  | none => false

/-- Release a cell from a barrier: the `bar` it stands at is done. -/
def Cell.release (x : Cell) : Cell :=
  { x with run := x.run.map (fun (r : Running) => { r with pc := r.pc + 4, atBarrier := none }) }

/-- Whether every usable member of a channel has arrived (R231, R477). -/
def State.barrierFull (s : State) (one : Bool) (ch : BitVec 6) : Bool :=
  let usable := s.grid.cells.filter (fun (e : CellId × Cell) => s.rel.usable e.1)
  usable.any (fun (e : CellId × Cell) => e.2.arrived one ch) &&
    usable.all (fun (e : CellId × Cell) => !e.2.member one ch.toNat || e.2.arrived one ch)

/-- BARRIER_COMPLETE: a channel whose members have all arrived releases them (R231). -/
def barrierComplete (ch : BitVec 6) (s : State) : State :=
  let go := fun (one : Bool) (t : State) =>
    if t.barrierFull one ch then
      { t with grid := { t.grid with cells := t.grid.cells.map (fun (e : CellId × Cell) =>
        if e.2.arrived one ch then (e.1, e.2.release) else e) } }
    else t
  go true (go false s)

/-- A flag's value. -/
def State.flag (s : State) (f : Byte) : Bool := s.grid.flags.contains f

/-- FLAG_CHANGE: the oldest change reaches the root; a set and a clear of one flag in one cycle leave it set and count
(R231). -/
def flagChange (s : State) : State :=
  match s.grid.flagOps with
  | [] => s
  | (f, v, t) :: rest =>
    let same := fun (o : Byte × Bool × Nat) => decide (o.1 = f) && decide (o.2.2 = t)
    let clash := rest.any (fun o => same o && decide (o.2.1 ≠ v))
    let on := v || clash
    let base := s.grid.flags.filter (fun g => g ≠ f)
    let s1 := { s with grid := { s.grid with flags := if on then base ++ [f] else base,
                                             flagOps := if clash then rest.filter (fun o => !same o) else rest } }
    if clash then s1.count1 0x0B 0 4 else s1

/-- A change of a flag goes to the root. -/
def State.askFlag (s : State) (f : Byte) (v : Bool) : State :=
  { s with grid := { s.grid with flagOps := s.grid.flagOps ++ [(f, v, s.now)] } }

/-! ### Meanings -/

/-- HANDLER_START (R242, R259). -/
def execHandlerStart (c : CellId) (s : State) : Host.Outcome State Fault Refusal := .next (handlerStart c s)

/-- CELL_MESSAGE_ARRIVE (R230, R265). -/
def execCellMessageArrive (c : CellId) (s : State) : Host.Outcome State Fault Refusal := .next (messageArrive c s)

/-- BULK_TRANSFER_COMPLETE (R229, R253, R254). -/
def execBulkTransferComplete (c : CellId) (s : State) : Host.Outcome State Fault Refusal := .next (bulkComplete c s)

/-- BARRIER_COMPLETE (R231, R477). -/
def execBarrierComplete (ch : Fin 64) (s : State) : Host.Outcome State Fault Refusal :=
  .next (barrierComplete (BitVec.ofNat 6 ch.val) s)

/-- FLAG_CHANGE (R231). -/
def execFlagChange (s : State) : Host.Outcome State Fault Refusal := .next (flagChange s)

/-- CELL_SEND (R251). -/
def execCellSend (c : CellId) (a : CellReg) (s : State) : Host.Outcome State Fault Refusal :=
  .next (s.onCell c 0xFF07C000#32 (cellWord 7 0x0 (a.toNat * 2 ^ 14)) (fun _ x t => sendHeader c (x.get a) x t))

/-- CELL_SENDW (R251). -/
def execCellSendw (c : CellId) (a : CellReg) (s : State) : Host.Outcome State Fault Refusal :=
  .next (s.onCell c 0xFF07C000#32 (cellWord 7 0x1 (a.toNat * 2 ^ 14)) (fun _ x t => sendPayload c (x.get a) x t))

/-- CELL_RECV (R249, R252). -/
def execCellRecv (c : CellId) (d : CellReg) (s : State) : Host.Outcome State Fault Refusal :=
  .next (s.cellOp c 0xFFF80000#32 (cellWord 7 0x2 (d.toNat * 2 ^ 19)) (fun _ x =>
    match takeWord x.recvQ with
    | some (w, q) => .go (({ x with recvQ := q } : Cell).put d w)
    | none => .stall))

/-- CELL_RQLEN (R252). -/
def execCellRqlen (c : CellId) (d : CellReg) (s : State) : Host.Outcome State Fault Refusal :=
  .next (s.cellOp c 0xFFF80000#32 (cellWord 7 0x3 (d.toNat * 2 ^ 19)) (fun _ x =>
    .go (x.put d (BitVec.ofNat 64 ((x.recvQ.filter (fun m => !m.isWork)).foldl (fun n m => n + m.left) 0)))))

/-- CELL_BPUT (R253). -/
def execCellBput (c : CellId) (a b : CellReg) (tag : BitVec 6) (len : Byte) (s : State) : Host.Outcome State Fault Refusal :=
  .next (s.onCell c allBits (encBulk 0x0 a b tag len) (fun r x t => bulkPut c (x.get a) (x.get b) tag (bulkBytes len) r x t))

/-- CELL_BGET (R253, R254). -/
def execCellBget (c : CellId) (a b : CellReg) (tag : BitVec 6) (len : Byte) (s : State) : Host.Outcome State Fault Refusal :=
  .next (s.onCell c allBits (encBulk 0x1 a b tag len) (fun r x t => bulkShared c false (x.get a) (x.get b) tag (bulkBytes len) r x t))

/-- CELL_BPOST (R253, R254). -/
def execCellBpost (c : CellId) (a b : CellReg) (tag : BitVec 6) (len : Byte) (s : State) : Host.Outcome State Fault Refusal :=
  .next (s.onCell c allBits (encBulk 0x2 a b tag len) (fun r x t => bulkShared c true (x.get a) (x.get b) tag (bulkBytes len) r x t))

/-- CELL_BAR (R255, R257 cause 5). -/
def execCellBar (c : CellId) (ch : BitVec 6) (s : State) : Host.Outcome State Fault Refusal :=
  .next (s.onCell c 0xFF003F00#32 (cellWord 9 0x0 (ch.toNat * 2 ^ 8)) (fun r x t =>
    if !(x.slot r.slot1).barrierMask.getLsbD ch.toNat then (t, .fault 5)
    else (t.setCell c { x with run := some { r with atBarrier := some ch } }, .stall)))

/-- CELL_FSET (R255). -/
def execCellFset (c : CellId) (f : Byte) (s : State) : Host.Outcome State Fault Refusal :=
  .next (s.onCell c 0xFF003FC0#32 (cellWord 9 0x1 (f.toNat * 2 ^ 6)) (fun _ x t => (t.askFlag f true, .go x)))

/-- CELL_FCLR (R255). -/
def execCellFclr (c : CellId) (f : Byte) (s : State) : Host.Outcome State Fault Refusal :=
  .next (s.onCell c 0xFF003FC0#32 (cellWord 9 0x2 (f.toNat * 2 ^ 6)) (fun _ x t => (t.askFlag f false, .go x)))

/-- CELL_FRD (R255). -/
def execCellFrd (c : CellId) (d : CellReg) (f : Byte) (s : State) : Host.Outcome State Fault Refusal :=
  .next (s.onCell c 0xFFF83FC0#32 (cellWord 9 0x3 (d.toNat * 2 ^ 19 + f.toNat * 2 ^ 6)) (fun _ x t =>
    (t, .go (x.put d (boolWord (t.flag f))))))

/-- CELL_FWAIT (R249, R255). -/
def execCellFwait (c : CellId) (f : Byte) (v : Bool) (s : State) : Host.Outcome State Fault Refusal :=
  .next (s.onCell c 0xFF003FC1#32 (cellWord 9 0x4 (f.toNat * 2 ^ 6 + (if v then 1 else 0))) (fun _ x t =>
    (t, if t.flag f = v then .go x else .stall)))

end Sys2Proof.Machine
end

