-- ==== Sys2Proof/Machine/Judge.lean ====
section
/-! DEFINITION. The judge dispatcher and the bridle's engine port (R260 to R265). -/

namespace Sys2Proof.Machine

/-- The bridle's engine port of a half (R234, R250). -/
def bridlePort (h : HalfId) : Nat := 8 * halfCode h + 6

/-- The frame of an item of a slot's stream in a stage (R261). -/
def frameAddr (g : JudgeStage) (k : SlotId) (n : Nat) : Nat :=
  let p := max 1 g.cells.length
  g.areaBase + k.val / p * g.frames * g.frameBytes + n % max 1 g.frames * g.frameBytes

/-- The cell of a slot's stream in a stage (R261). -/
def stageCell (g : JudgeStage) (k : SlotId) : CellId := (g.cells[k.val % max 1 g.cells.length]?).getD 0#12

/-- An item that waits for its dispatch: its tick, its slot, and its token or chunk. -/
structure Dispatch where
  tick : Nat
  slot : SlotId
  index : Nat
deriving DecidableEq, Repr

/-- The judge of an item's policy, for a direction: ingress items need an ingress ring (R260). -/
def State.judgeOf (s : State) (epoch : Nat) (egress : Bool) : Option (Policy × JudgeTables) :=
  (s.policyByEpoch epoch).bind (fun p => p.tables.judge.bind (fun j =>
    if egress || decide (j.ingressRing ≠ 0) then some (p, j) else none))

/-- The items of a stream that wait for dispatch, those of a halted stream too, whose results are discarded (R263, R264). -/
def State.dispatches (s : State) (k : SlotId) (st : Stream) : List Dispatch :=
  if st.req.egress then
    (st.tokens.filter (fun t => !t.judgeSent)).filterMap (fun t =>
      (s.judgeOf t.epoch true).map (fun (x : Policy × JudgeTables) =>
        ({ tick := s.effStamp t.stamp + x.2.judgeOffset, slot := k, index := t.index } : Dispatch)))
  else
    (st.inp.chunks.filter (fun c => !c.judgeSent && c.released && !c.void)).filterMap (fun c =>
      (s.judgeOf c.epoch false).map (fun (x : Policy × JudgeTables) =>
        ({ tick := c.release + x.2.judgeOffset, slot := k, index := c.ordinal } : Dispatch)))

/-- The order of dispatches: tick, slot, index. -/
def Dispatch.before (a b : Dispatch) : Bool :=
  decide (a.tick < b.tick ∨ (a.tick = b.tick ∧ (a.slot < b.slot ∨ (a.slot = b.slot ∧ a.index < b.index))))

/-- The dispatch due next. -/
def State.nextDispatch (s : State) : Option Dispatch :=
  ((s.streams.table.flatMap (fun e => s.dispatches e.1 e.2)).filter (fun a => decide (a.tick ≤ s.now))).foldl
    (fun (b : Option Dispatch) a => match b with | none => some a | some x => if a.before x then some a else some x) none

/-- Payload word 1 of a work message (R263). -/
def workWord (index count bytes : Nat) (ingress first restart : Bool) : DWord :=
  BitVec.ofNat 64 (index % 2 ^ 32 + count % 2 ^ 20 * 2 ^ 32 + bytes % 2 ^ 8 * 2 ^ 52 + (if ingress then 2 ^ 60 else 0)
    + (if first then 2 ^ 61 else 0) + (if restart then 2 ^ 62 else 0))

/-- Send the work message of an item: count it, and note the item as the stream's last (R263, R267). -/
def State.dispatchItem (s : State) (k : SlotId) (st : Stream) (p : Policy) (j : JudgeTables) (index epoch count bytes : Nat)
    (upper : Nat) : State :=
  match j.stages with
  | [] => s
  | g :: _ =>
    let restart := st.judgeRestart || decide (epoch ≠ st.judgeEpoch)
    let last := if st.judgeFirst then index else st.judgeLast
    let cell := stageCell g k
    let words : List DWord := [st.handle.setWidth 64, workWord index count bytes (!st.req.egress) st.judgeFirst restart,
      BitVec.ofNat 64 (frameAddr g k last % 2 ^ 17 + upper * 2 ^ 32)]
    let h := mkHeader 1 cell.toNat false (bridlePort (p.bridleHalf k)) 3 p.cellSlot j.entryHandler 0
    ((s.setStream k { st with judgeFirst := false, judgeRestart := false, judgeEpoch := epoch, judgeLast := index }).putMesh none
      { header := h, words := words }).count1 0x0B 0 8

/-- The length of the `ingress_ring` window: that of a cell window which opens the table (R258, R260). -/
def Policy.ringLength (p : Policy) (j : JudgeTables) : Nat :=
  match (p.tables.images.flatMap (fun m => m.windows)).find? (fun w => decide (w.table = j.ingressRing)) with
  | some w => w.length
  | none => 0

/-- The staged token list of a chunk: its offset is a free value, which R263 does not give, at which the whole list lies inside the
ingress ring's window (log 7). -/
def State.stageList (s : State) (p : Policy) (j : JudgeTables) (st : Stream) (c : Chunk) : State × Nat :=
  let list := tokenList st.handle c.firstIndex c.flags c.code.ids
  let off := (Config.freeWord s.freeUse).toNat % (p.ringLength j - list.length + 1)
  let base := (Config.tableBase p.tables.latency.policyId j.ingressRing).toNat
  (({ s with freeUse := s.freeUse + 1 }).writeShared (base + off) list, off)

/-- JUDGE_DISPATCH: the first item whose dispatch tick is reached goes to the stage-0 cell. -/
def judgeDispatch (s : State) : State :=
  match s.nextDispatch with
  | none => s
  | some d =>
    match aget d.slot s.streams.table with
    | none => s
    | some st =>
      if st.req.egress then
        match st.tokens.find? (fun t => decide (t.index = d.index)) with
        | none => s
        | some t =>
          match s.judgeOf t.epoch true with
          | none => s
          | some (p, j) =>
            let st1 : Stream := { st with tokens := st.tokens.map (fun (x : Token) => if x.index = t.index then { x with judgeSent := true } else x) }
            let up := match j.stages with | g :: _ => frameAddr g d.slot t.index % 2 ^ 17 | [] => 0
            s.dispatchItem d.slot st1 p j t.index t.epoch t.id t.bytes.length up
      else
        match st.inp.chunks.find? (fun c => decide (c.ordinal = d.index)) with
        | none => s
        | some c =>
          match s.judgeOf c.epoch false with
          | none => s
          | some (p, j) =>
            let mark := fun (x : Chunk) => if x.ordinal = c.ordinal then { x with judgeSent := true } else x
            let st1 : Stream := { st with inp := { st.inp with chunks := st.inp.chunks.map mark } }
            let r := s.stageList p j st c
            r.1.dispatchItem d.slot st1 p j c.ordinal c.epoch c.code.ids.length 0 r.2

/-! ### Results (R264) -/

/-- A judge result's record. -/
def judgeRecord (m : Msg) (scores : Nat) : JudgeRecord :=
  let w := fun (i : Nat) => ((m.words[i]?).getD 0#64).toNat
  { count := scores, fresh := (w 1).testBit 32, late := false, poison := (w 1).testBit 33,
    scores := (List.range scores).map (fun n => BitVec.ofNat 32 (w (2 + n / 2) / 2 ^ (32 * (n % 2)))) }

/-- A result that is discarded: word 8 of its stream, and the late-discard count when it came after its cutoff (R83). -/
def State.dropJudge (s : State) (k : SlotId) (late : Bool) : State :=
  (if late then s.effects (lateDiscard 0x13) else s).streamWord k 8 1

/-- A judge result at its token or chunk. -/
def State.takeJudge (s : State) (k : SlotId) (st : Stream) (index : Nat) (m : Msg) : State :=
  let accept := fun (st1 : Stream) => (s.setStream k st1).count1 0x0B 0 9
  if st.ended then s.dropJudge k false
  else if st.req.egress then
    match st.tokens.find? (fun t => decide (t.index % 2 ^ 32 = index)) with
    | none => s.dropJudge k true
    | some t =>
      match s.judgeOf t.epoch true with
      | none => s.dropJudge k false
      | some (_, j) =>
        let r := judgeRecord m j.scores
        if t.inputs.isSome || decide (t.cutoff ≤ s.now) then s.dropJudge k true
        else if r.poison || t.judge.isSome then s.dropJudge k false
        else accept { st with tokens := st.tokens.map (fun (x : Token) => if x.index = t.index then { x with judge := some r } else x) }
  else
    match st.inp.chunks.find? (fun c => decide (c.ordinal % 2 ^ 32 = index)) with
    | none => s.dropJudge k true
    | some c =>
      match s.judgeOf c.epoch false with
      | none => s.dropJudge k false
      | some (_, j) =>
        let r := judgeRecord m j.scores
        let past := match st.inp.verdicts.find? (fun v => decide (v.segment = c.segment)) with
          | some v => v.inputs.isSome || decide (v.cutoff ≤ s.now)
          | none => false
        if past then s.dropJudge k true
        else if r.poison || c.judge.isSome then s.dropJudge k false
        else
          let set := fun (x : Chunk) => if x.ordinal = c.ordinal then { x with judge := some r } else x
          accept { st with inp := { st.inp with chunks := st.inp.chunks.map set } }

/-- JUDGE_RESULT: the oldest data message at the bridle's engine port of a half. -/
def judgeResult (h : HalfId) (s : State) : State :=
  match s.takeMesh (fun m => hdrToEngine m.header && decide (hdrDest m.header = bridlePort h)) with
  | none => s
  | some (m, s1) =>
    if hdrKind m.header ≠ 0 then s1
    else
      let handle := ((m.words[0]?).getD 0#64).toNat
      let index := ((m.words[1]?).getD 0#64).toNat % 2 ^ 32
      match s1.streamOf handle with
      | none => s1.count1 0x14 0 0
      | some (k, st) => s1.takeJudge k st index m

/-! ### Meanings -/

/-- JUDGE_DISPATCH (R263). -/
def execJudgeDispatch (s : State) : Host.Outcome State Fault Refusal := .next (judgeDispatch s)

/-- JUDGE_RESULT (R83, R264). -/
def execJudgeResult (h : HalfId) (s : State) : Host.Outcome State Fault Refusal := .next (judgeResult h s)

end Sys2Proof.Machine
end

