-- ==== Sys2Proof/Machine/Callipers.lean ====
section
/-! DEFINITION. The callipers: taps and slices (R268 to R275), conversion (R276), probe items (R277 to R281) and the release
of probe records (R283 to R290). -/

namespace Sys2Proof.Machine

/-! ### Policies, ports and counters -/

/-- The policy under which an input of no stream, stamped t, runs (R45, R444). -/
def State.policyAt (s : State) (t : Nat) : Option Policy :=
  s.cast.active.map (fun (a : Policy) => if t < a.instant then s.cast.retained.getD a else a)

/-- The callipers' engine port of a half (R234, R250). -/
def callipersPort (h : HalfId) : Nat := 8 * halfCode h + 4

/-- A half by its `half` bit. -/
def halfOf (south : Bool) : HalfId := if south then .south else .north

/-- Whether the callipers of a half take rows: not while they restart, and not after a failure (R465, R479). -/
def State.callipersRun (s : State) (south : Bool) : Bool :=
  !s.eng.restarting.any (fun (e, h, _, _) => decide (e = 4) && decide (h = halfOf south))

/-- Replace the callipers. -/
def State.setCal (s : State) (c : Callipers) : State := { s with eng := { s.eng with callipers := c } }

/-- A callipers counter that raises NTC_PROBE with the counter's name, tap, pass and tick (R293). -/
def tapEvent (pos tap pass now : Nat) : List Effect :=
  let k : CtrKey := ⟨0x0D, 0, pos⟩
  [.count k 1, .notice 9 (k.name ++ leBytes 2 tap ++ leBytes 2 pass ++ leBytes 8 now)]

/-! ### Conversion (R276) -/

/-- Bytes of an element of `in_format`. -/
def inBytes (f : Nat) : Nat := if f = 4 then 4 else if f = 3 then 2 else 1

/-- An element's value after conversion, and whether it was saturated. -/
def convertElem (inF actF raw : Nat) : FpVal × Bool :=
  if inF < 3 then (byteVal inF (BitVec.ofNat 8 raw), false)
  else
    let v := if inF = 3 then bf16Val (BitVec.ofNat 16 raw) else f32Val (BitVec.ofNat 32 raw)
    if actF = 0 then (fun (r : Byte × Bool) => (e4m3Val r.1, r.2)) (toE4M3Sat v)
    else if actF = 1 then (fun (r : Byte × Bool) => (e5m2Val r.1, r.2)) (toE5M2Sat v)
    else if inF = 3 then (v, false)
    else (fun (r : Half × Bool) => (bf16Val r.1, r.2)) (toBF16Sat v)

/-- A row's converted vector. -/
def convertRow (t : TapDecl) (actF : Nat) (data : List Byte) : List (FpVal × Bool) :=
  (List.range t.elements).map (fun i => convertElem t.inFormat actF (field data (16 + inBytes t.inFormat * i) (inBytes t.inFormat)))

/-! ### The first layer (R279) -/

/-- A weight format's element. -/
def weightVal (f raw : Nat) : FpVal := if f = 3 then bf16Val (BitVec.ofNat 16 raw) else byteVal f (BitVec.ofNat 8 raw)

/-- Bytes of an element of a weight format. -/
def weightBytes (f : Nat) : Nat := if f = 3 then 2 else 1

/-- Weight row j of a probe on n elements. -/
def weightRow (image : List Byte) (d : ProbeDecl) (n j : Nat) : List FpVal :=
  let z := weightBytes d.fmt
  (List.range n).map (fun i => weightVal d.fmt (field image (d.weights + z * (n * j + i)) z))

/-- The long sum over steps of four elements, and its read-out as FP32 (R220 to R222, R224). -/
def dotLong (shift : Int) (ps : List FpVal) : Word :=
  let steps := chunksOf 4 ps.length ps
  let t := steps.foldl (fun (t : Tile) (st : List FpVal) => t.addLong 0 (st.foldl Contribution4.add {})) (Tile.cleared 1 shift)
  f32Of (t.read 0)

/-- The ordered BF16 sum (R223). -/
def dotOrdered (ps : List FpVal) : Word := ps.foldl (fun (acc : Word) p => f32Of (fpSum (f32Val acc) p)) 0#32

/-- The m first-layer outputs of a probe on a converted vector, biases added. -/
def firstLayer (image : List Byte) (d : ProbeDecl) (xs : List FpVal) : List Word :=
  (List.range d.outputs).map (fun j =>
    let ps := List.zipWith fpProd xs (weightRow image d xs.length j)
    f32Add (if d.actFmt = 3 then dotOrdered ps else dotLong d.accShift ps) (BitVec.ofNat 32 (field image (d.bias + 4 * j) 4)))

/-! ### Slices (R271 to R275) -/

end Sys2Proof.Machine

namespace Sys2Proof
open Machine

/-- Whether a tap matches a class-0 packet at its entry edge (R271). -/
def TapDecl.hits (t : TapDecl) (a : Arrival) : Bool :=
  let edge := match a.edge with
    | .link _ => decide (t.edge = 0) || decide (t.edge = 2)
    | .host _ => decide (t.edge = 1) || decide (t.edge = 2)
    | .func => false
  let node := fun (m : Option NodeId) (n : NodeId) => match m with | none => true | some x => decide (x = n)
  edge && node t.sourceNode a.pkt.hdr.source && node t.destNode a.pkt.hdr.dest && decide (t.destPort = a.pkt.hdr.port)

end Sys2Proof

namespace Sys2Proof.Machine

/-- Bytes of a half's slice buffer in use: open slices, and rows of items not computed (R275). -/
def State.sliceBytes (s : State) (south : Bool) : Nat :=
  (s.eng.callipers.slices.filter (fun x => x.south = south)).foldl (fun n x => n + x.rowBytes * x.rows.length) 0
    + ((s.eng.callipers.items.filter (fun i => i.south = south && !i.done && !i.mlpWait)).map (fun i => (i.tap, i.pass, i.ordinal,
        i.row.data.length))).eraseDups.foldl (fun n x => n + x.2.2.2) 0

/-- Remember a slice that has completed or been discarded: its `pass` names it until the tap's newest finished pass lies half the
ordinal's range after it (R273, R494; log 41). -/
def Callipers.finish (c : Callipers) (tap pass : Nat) : Callipers :=
  let passes := pass :: (c.finished.filter (fun x => decide (x.1 = tap))).map (fun x => x.2)
  let newest := passes.foldl (fun n p => if laterSeq 16 p n then p else n) pass
  let kept := passes.filter (fun p => decide (p = newest) || laterSeq 16 newest p)
  { c with slices := c.slices.filter (fun x => !(decide (x.tap = tap) && decide (x.pass = pass))),
           finished := c.finished.filter (fun x => decide (x.1 ≠ tap)) ++ kept.map (fun p => (tap, p)) }

/-- Discard a slice at a tick, under R274 or R289. -/
def State.discardSlice (s : State) (tap pass tick : Nat) : State :=
  (s.setCal (s.eng.callipers.finish tap pass)).effects (tapEvent 4 tap pass tick)

/-- Discard the slices of a tap whose windows have run out by tick t (R274). -/
def State.expireSlices (s : State) (tap t : Nat) : State :=
  (s.eng.callipers.slices.filter (fun x => decide (x.tap = tap) && decide (x.due ≤ t))).foldl
    (fun u x => u.discardSlice tap x.pass x.due) s

/-- A row's fields from its bytes (R272). -/
def parseRow (b : List Byte) : TapRow :=
  { handle := BitVec.ofNat 64 (field b 0 8), tokenIndex := field b 8 4, draftPos := field b 14 1, valid := fieldBit b 15 1 0,
    data := b }

/-- The items of one valid row. -/
def rowItems (p : Policy) (t : TapDecl) (probes : List ProbeDecl) (tap pass stamp release ordinal : Nat) (r : TapRow) :
    List ProbeItem :=
  (List.range t.probeN).filterMap (fun j =>
    (probes[t.probeFirst + j]?).map (fun (d : ProbeDecl) =>
      { tap := tap, pass := pass, stamp := stamp, row := r, ordinal := ordinal, probe := t.probeFirst + j, unit := 0, south := t.south,
        release := release, epoch := p.epoch, saturated := (convertRow t d.actFmt r.data).any (fun x => x.2) }))

/-- Give items to the dot-product units in turn, slices in tap-stamp order and then by tap (R281): items of a later slice that are
already issued, of a stamp handled before, go to the units after theirs. -/
def Callipers.issue (c : Callipers) (south : Bool) (is : List ProbeItem) : Callipers :=
  let rot := if south then c.rotSouth else c.rotNorth
  let first := match is.head? with | some i => (i.stamp, i.tap) | none => (0, 0)
  let before := fun (i : ProbeItem) => decide (i.stamp < first.1 ∨ (i.stamp = first.1 ∧ i.tap ≤ first.2))
  let after := fun (i : ProbeItem) => !before i && decide (i.south = south)
  let start := rot + 32 * c.items.length - (c.items.filter after).length
  let given := (is.zipIdx).map (fun (x : ProbeItem × Nat) => { x.1 with unit := (start + x.2) % 32 })
  let moved := (c.items.filter (fun i => !before i)).map (fun i => if after i then { i with unit := (i.unit + is.length) % 32 } else i)
  { c with items := c.items.filter before ++ given ++ moved,
           rotNorth := if south then c.rotNorth else (rot + is.length) % 32,
           rotSouth := if south then (rot + is.length) % 32 else c.rotSouth }

/-- A slice completes: its rows are converted and its items issued, or it is discarded when its tap changed (R273, R276,
R281, R289). -/
def State.completeSlice (s : State) (p : Policy) (ct : CallipersTables) (t : TapDecl) (tap stamp : Nat) (x : Slice) : State :=
  if x.layoutId ≠ t.layoutId then s.discardSlice tap x.pass s.now
  else
    let rows := (x.rows.filter (fun r => r.valid)).zipIdx
    let items := rows.flatMap (fun (r : TapRow × Nat) =>
      rowItems p t ct.probes tap x.pass stamp (s.effStamp stamp + p.delay 5) r.2 r.1)
    let sat := (rows.filter (fun (r : TapRow × Nat) => items.any (fun i => decide (i.ordinal = r.2) && i.saturated))).length
    (s.setCal ((s.eng.callipers.finish tap x.pass).issue t.south items)).effects
      ([Effect.count ⟨0x0D, 0, 1⟩ rows.length] ++ (if sat = 0 then [] else [Effect.count ⟨0x0D, 0, 6⟩ sat]))

/-- One row of a tapped packet, after the tap's slices whose windows have run out (R273 to R275). -/
def State.tapRow (s0 : State) (p : Policy) (ct : CallipersTables) (t : TapDecl) (tap stamp : Nat) (b : List Byte) : State :=
  let s := s0.expireSlices tap stamp
  let c := s.eng.callipers
  let pass := field b 12 2
  let here := c.slices.find? (fun x => decide (x.tap = tap) && decide (x.pass = pass))
  let fifth := here.isNone && decide (4 ≤ (c.slices.filter (fun x => decide (x.tap = tap))).length)
  if c.finished.contains (tap, pass) || fifth then s.count1 0x0D 0 3
  else
    let x := here.getD { tap := tap, pass := pass, opened := stamp, due := stamp + t.window, layoutId := t.layoutId, south := t.south,
                         rowBytes := t.rowBytes, rows := [] }
    let others := c.slices.filter (fun y => !(decide (y.tap = tap) && decide (y.pass = pass)))
    if 0x400000 < s.sliceBytes t.south + t.rowBytes || !s.callipersRun t.south then
      (s.setCal { c with slices := others ++ [x] }).effects (tapEvent 5 tap pass s.now)
    else
      let y := { x with rows := x.rows ++ [parseRow b] }
      let s1 := s.setCal { c with slices := others ++ [y] }
      if t.rows ≤ y.rows.length then s1.completeSlice p ct t tap stamp y else s1

/-- A class-0 packet that enters the gate is copied to the lowest tap that matches it (R268, R271, R272), when the policy gives the
gate the TAP role (R13). -/
def State.tapPacket (s : State) (a : Arrival) : State :=
  match s.policyAt a.stamp with
  | none => s
  | some p =>
    match p.tables.callipers, p.role 2 with
    | none, _ => s
    | some _, false => s
    | some ct, true =>
      match ct.taps.zipIdx.find? (fun (x : TapDecl × Nat) => x.1.hits a) with
      | none => s
      | some (t, tap) =>
        let s1 := s.count1 0x0D 0 0
        if a.pkt.payload.length % t.rowBytes ≠ 0 then
          let r := s1.draw
          r.2.effects (tapEvent 2 tap (Config.freeWord r.1).toNat s.now)
        else
          (List.range (a.pkt.payload.length / t.rowBytes)).foldl
            (fun u i => u.tapRow p ct t tap a.stamp ((a.pkt.payload.drop (t.rowBytes * i)).take t.rowBytes)) s1

/-- TAP_SLICE_TIMEOUT: the first slice whose window has run out is discarded. -/
def sliceTimeout (s : State) : State :=
  match s.eng.callipers.slices.find? (fun x => decide (x.due ≤ s.now)) with
  | none => s
  | some x => s.discardSlice x.tap x.pass x.due

/-! ### Items (R278 to R281) -/

/-- Change the items. -/
def State.mapItems (s : State) (f : ProbeItem → ProbeItem) : State :=
  s.setCal { s.eng.callipers with items := s.eng.callipers.items.map f }

/-- The declaration of an item's probe with its policy and tables. -/
def State.probeOf (s : State) (i : ProbeItem) : Option (Policy × CallipersTables × TapDecl × ProbeDecl) :=
  (s.policyByEpoch i.epoch).bind (fun p => p.tables.callipers.bind (fun ct =>
    (ct.taps[i.tap]?).bind (fun t => (ct.probes[i.probe]?).map (fun (d : ProbeDecl) => (p, ct, t, d)))))

/-- The poisoned word that an item's weights or biases meet in its half's weight store, whose slot of 8 MiB the policy's slot
names (R278, R288; log 41 for its place). -/
def State.weightPoison (s : State) (south : Bool) (p : Policy) (d : ProbeDecl) (n : Nat) : Option Nat :=
  let base := if p.cellSlot then 0x800000 else 0
  let meets := fun (a lo len : Nat) => decide (a < base + lo + len) && decide (base + lo < a + 8)
  (s.rel.poisoned.find? (fun (e : Nat × Nat × Nat) => decide (e.1 = 3) && decide (e.2.1 = (if south then 1 else 0))
    && (meets e.2.2 d.weights (weightBytes d.fmt * n * d.outputs) || meets e.2.2 d.bias (4 * d.outputs)))).map
    (fun (e : Nat × Nat × Nat) => e.2.2)

/-- The result of an item: the same item holds it when it is in time. A result at its release tick or later is discarded and counts as
late; the item of one already released is gone (R40, R41). -/
def State.itemDone (s : State) (i : ProbeItem) (scores : Option (List Word)) (late poison : Bool) : State :=
  if i.released then
    (s.setCal { s.eng.callipers with items := s.eng.callipers.items.filter (fun x => x ≠ i) }).effects (lateDiscard 5)
  else if i.release ≤ s.now then
    (s.mapItems (fun x => if x = i then { x with done := true, mlpWait := false } else x)).effects (lateDiscard 5)
  else s.mapItems (fun x => if x = i then
    { x with done := true, mlpWait := false, scores := if poison then none else scores, late := late, poison := poison } else x)

/-- Free words that fill a list up to a length. -/
def State.fillFree (s : State) (n : Nat) (ws : List Word) : List Word × State :=
  let k := n - ws.length
  (ws ++ (List.range k).map (fun i => Config.freeWord (s.freeUse + i)), { s with freeUse := s.freeUse + k })

/-- An MLP's first-layer results go to their cell: a transfer of whole 64-byte units, whose fill R280 does not give, then the
work message (R280). -/
def State.sendMlp (s : State) (i : ProbeItem) (p : Policy) (d : ProbeDecl) (ws : List Word) : State :=
  let cell := (d.cellList[i.ordinal % max 1 d.cellList.length]?).getD 0#12
  let addr := d.areaBase + i.ordinal % 4 * 1024
  let port := callipersPort (halfOf i.south)
  let r := s.fillFree ((ws.length + 15) / 16 * 16) ws
  let data := r.1.flatMap (fun w => leBytes 4 w.toNat)
  let tag := r.2.draw
  let t : Transfer :=
    { from? := BitVec.ofNat 12 port, kind := 3, dest := cell, localAddr := 0, remote := addr, bytes := data.length, data := data,
      poison := false, tag := (Config.freeWord tag.1).setWidth 6, refused := false, issued := s.now }
  ((tag.2.startTransfer t).putMesh none
    { header := mkHeader 1 cell.toNat false port 3 p.cellSlot d.handler 0,
      words := [i.row.handle, BitVec.ofNat 64 (i.row.tokenIndex + i.row.draftPos * 2 ^ 32), BitVec.ofNat 64 addr] }).mapItems
    (fun x => if x = i then { x with mlpWait := true } else x)

/-- Engine cycles that an item occupies its unit (R281). -/
def State.itemCycles (s : State) (i : ProbeItem) : Nat :=
  match s.probeOf i with
  | none => 0
  | some (_, _, t, d) => d.outputs * (if d.actFmt = 3 then (t.elements + 31) / 32 else (t.elements + 63) / 64)

/-- A half's items with the ticks at which their units have done with them, each unit working through its own from their tap stamps
on (R281; log 41). -/
def State.unitTimes (s : State) (south : Bool) : List (ProbeItem × Nat) :=
  ((s.eng.callipers.items.filter (fun i => decide (i.south = south))).foldl
    (fun (r : List (ProbeItem × Nat) × List (Nat × Nat)) i =>
      let t := max i.stamp ((aget i.unit r.2).getD 0) + s.itemCycles i
      (r.1 ++ [(i, t)], aset i.unit t r.2)) ([], [])).1

/-- The item of a half whose unit is done first. -/
def State.nextItem (s : State) (south : Bool) : Option ProbeItem :=
  (((s.unitTimes south).filter (fun x => !x.1.done && !x.1.mlpWait)).foldl
    (fun (b : Option (ProbeItem × Nat)) x => match b with | none => some x | some y => if x.2 < y.2 then some x else b) none).map
    (fun x => x.1)

/-- PROBE_ITEM_DONE: the unit of a half that is done first finishes its item. -/
def probeItemDone (h : HalfId) (s : State) : State :=
  match s.nextItem (decide (h = .south)) with
  | none => s
  | some i =>
    match s.probeOf i with
    | none => s.itemDone i none false false
    | some (p, _, t, d) =>
      let s1 := s.count1 0x0D 0 7
      match s1.weightPoison i.south p d t.elements with
      | some a => (s1.effects (poisonRead 3 0 a s.now)).itemDone i none false true
      | none =>
        let image := (s.storeSlot (halfOf i.south) p.cellSlot).weights
        let ws := firstLayer image d ((convertRow t d.actFmt i.row.data).map (fun x => x.1))
        if d.mlp then s1.sendMlp i p d ws else s1.itemDone i (some (ws.map (linkApply d.link))) false false

/-- MLP_RESULT: the oldest data message at the callipers' port of a half: the result of the oldest item that waits for its
sender with its handle and index (R280; log 41). -/
def mlpResult (h : HalfId) (s : State) : State :=
  match s.takeMesh (fun m => hdrToEngine m.header && decide (hdrDest m.header = callipersPort h)) with
  | none => s
  | some (m, s1) =>
    let w := fun (i : Nat) => ((m.words[i]?).getD 0#64).toNat
    let sender := fun (i : ProbeItem) => match s1.probeOf i with
      | some (_, _, _, d) => decide ((d.cellList[i.ordinal % max 1 d.cellList.length]?).map (fun c => c.toNat) = some (hdrSource m.header))
      | none => false
    if hdrKind m.header ≠ 0 then s1
    else match s1.eng.callipers.items.find? (fun i => i.mlpWait && decide (halfOf i.south = h) && decide (i.row.handle.toNat = w 0)
        && decide (i.row.tokenIndex = w 1 % 2 ^ 32) && sender i) with
      | none => s1
      | some i =>
        match s1.probeOf i with
        | none => s1
        | some (_, _, _, d) =>
          let given := (List.range (min d.scores (2 * (m.words.length - 2)))).map (fun n =>
            BitVec.ofNat 32 (w (2 + n / 2) / 2 ^ (32 * (n % 2))))
          let r := s1.fillFree d.scores given
          r.2.itemDone i (some (r.1.map (linkApply d.link))) ((w 1).testBit 32) ((w 1).testBit 33)

/-! ### Release (R283, R284, R288) -/

/-- The 128 bytes of a probe record (R82, R283). -/
def probeRecord (i : ProbeItem) (d : ProbeDecl) (scores : List Word) (late : Bool) : List Byte :=
  let flags := (if d.steering then 1 else 0) + (if i.saturated then 2 else 0) + (if i.poison then 4 else 0)
  leBytes 8 i.row.handle.toNat ++ leBytes 4 i.row.tokenIndex ++ leBytes 2 d.contributionId ++ leBytes 2 (if late then 1 else 0)
    ++ leBytes 2 i.probe ++ leBytes 1 d.scores ++ leBytes 1 i.row.draftPos ++ leBytes 2 i.pass ++ leBytes 1 flags ++ [0#8]
    ++ padTo 64 (scores.flatMap (fun w => leBytes 4 w.toNat)) ++ List.replicate 40 0#8

/-- An item's record at its release tick, and what it counts: a result that is not there is the probe's late default. -/
def State.releaseItem (s : State) (i : ProbeItem) : List (NodeId × List Byte) × List Effect :=
  match s.probeOf i with
  | none => ([], [])
  | some (p, _, _, d) =>
    let home : NodeId := BitVec.ofNat 12 (i.row.handle.toNat / 2 ^ 36)
    let rec1 := [Effect.count ⟨0x0D, 0, 8⟩ 1]
    match i.scores with
    | some ws => ([(home, probeRecord i d ws i.late)], rec1)
    | none =>
      let w := if p.failOpen 5 then d.neutral else d.worst
      ([(home, probeRecord i d (List.replicate d.scores w) true)],
        rec1 ++ [Effect.count ⟨0x0D, 0, 9⟩ 1] ++ (if i.poison then tapEvent 10 i.tap i.pass s.now else [])
          ++ lateEvent 5 (i.row.handle.setWidth 48) i.row.tokenIndex)

/-- Send the records of one home gate, 64 to a packet; those of this gate go to the contribution buffer (R284). -/
def State.sendRecords (s : State) (release : Nat) (home : NodeId) (rs : List (List Byte)) (lat : Nat) : State :=
  if home = s.aon.node then rs.foldl (fun t r => t.takeProbe release s.aon.node r) s
  else (chunksOf 64 rs.length rs).foldl (fun t g => t.sendClass0 home 0xD2#8 false 0#48 g.flatten lat) s

/-- PROBE_RELEASE: the records due at the first release tick reached leave, by home gate. -/
def probeRelease (s : State) : State :=
  let waiting := s.eng.callipers.items.filter (fun i => !i.released && decide (i.release ≤ s.now))
  match waiting with
  | [] => s
  | w :: ws =>
    let tick := ws.foldl (fun n i => min n i.release) w.release
    let due := waiting.filter (fun i => decide (i.release = tick))
    let s1 := (s.mapItems (fun i => if due.contains i then { i with released := true } else i))
    let s2 := s1.setCal { s1.eng.callipers with items := s1.eng.callipers.items.filter (fun i => !(i.released && i.done)) }
    let out := due.map s.releaseItem
    let recs := out.flatMap (fun x => x.1)
    let homes := (recs.map (fun x => x.1)).eraseDups
    let lat := ((due.head?.bind s.probeOf).map (fun x => x.1.edgeLatency 5)).getD 0
    homes.foldl (fun t h => t.sendRecords tick h ((recs.filter (fun x => x.1 = h)).map (fun x => x.2)) lat)
      (s2.effects (out.flatMap (fun x => x.2)))

/-! ### Meanings -/

/-- TAP_SLICE_TIMEOUT (R274, R293). -/
def execTapSliceTimeout (s : State) : Host.Outcome State Fault Refusal := .next (sliceTimeout s)

/-- PROBE_ITEM_DONE (R279 to R281). -/
def execProbeItemDone (h : HalfId) (s : State) : Host.Outcome State Fault Refusal := .next (probeItemDone h s)

/-- MLP_RESULT (R280). -/
def execMlpResult (h : HalfId) (s : State) : Host.Outcome State Fault Refusal := .next (mlpResult h s)

/-- PROBE_RELEASE (R283, R284, R288). -/
def execProbeRelease (s : State) : Host.Outcome State Fault Refusal := .next (probeRelease s)

end Sys2Proof.Machine
end

