-- ==== Sys2Proof/Machine/Outputs.lean ====
section
/-! DEFINITION. What an output sends next (R361, R363, R375, R394), and the transmission times of the timing messages
(R379). -/

namespace Sys2Proof.Machine

/-! ### Reservations (R363): times in thousandths of a tick -/

/-- Whether a reservation [from, to) stands in the way of a packet that starts at `now` and whose last word leaves at
`fin`: the reservation is not over and the packet would leave after its start. -/
def inTheWay (start fin : Int) (now leave : Int) : Bool := decide (now < fin) && decide (start < leave)

end Sys2Proof.Machine

namespace Sys2Proof
open Machine

/-- Whether one slot entry's reservation of an output stands in the way (R361, R363). -/
def SlotTable.blocks (t : SlotTable) (e : SlotEntry) (now words : Nat) : Bool :=
  let tr : Int := if e.inEdge.toNat < 64 ∨ e.inEdge = 0xFF#8 then (if e.outEdge.toNat < 64 then 80 else 96)
                  else if e.inEdge.toNat < 0x50 then 96 else 0
  let leave : Int := 1000 * (now : Int) + 2048 * words
  let one := fun (base : Int) =>
    inTheWay (1000 * (base + e.opens + tr)) (1000 * (base + e.closes + tr) + 2048 * (e.units + 1)) (1000 * now) leave
  if t.frameTicks = 0 then one t.frameBase
  else
    let n : Int := ((now : Int) - t.frameBase) / t.frameTicks
    one (t.frameBase + (n - 1) * t.frameTicks) || one (t.frameBase + n * t.frameTicks)
      || one (t.frameBase + (n + 1) * t.frameTicks)

end Sys2Proof

namespace Sys2Proof.Machine

/-- Whether a class 1 to 7 packet may start on an output now (R361). -/
def State.mayStart (s : State) (outEdge : Byte) (p : Packet) : Bool :=
  match s.plane.slots with
  | none => true
  | some t => (t.entries.filter (fun e => e.outEdge = outEdge)).all (fun e => !t.blocks e s.now ((p.wire + 63) / 64))

/-! ### The choice (R361) -/

/-- The first packet of a class, when it has reached the output and may start (R361, R396). -/
def Output.head (o : Output) (now : Nat) (ok : Packet → Bool) (c : Nat) : Option OutPacket :=
  match o.queue.find? (fun q => q.pkt.hdr.cls.toNat = c) with
  | some q => if decide (q.start ≤ now) && ok q.pkt then some q else none
  | none => none

/-- Remove the first occurrence of a packet. -/
def removeFirst (q : OutPacket) : List OutPacket → List OutPacket
  | [] => []
  | x :: xs => if x = q then xs else x :: removeFirst q xs

/-- Deficit round robin over classes 1 to 6 with a quantum of 8,256 bytes times the weight; each class is credited as
its turn comes. -/
def Output.drr (now : Nat) (ok : Packet → Bool) (weight : Nat → Nat) : Nat → Output → Option (OutPacket × Output)
  | 0, _ => none
  | f + 1, o =>
    let d := (aget o.turn o.deficit).getD 0
    match o.head now ok o.turn with
    | some q =>
      if q.pkt.wire ≤ d then
        some (q, { o with queue := removeFirst q o.queue, deficit := aset o.turn (d - q.pkt.wire) o.deficit })
      else
        let n := o.turn % 6 + 1
        Output.drr now ok weight f { o with turn := n, deficit := aset n ((aget n o.deficit).getD 0 + 8256 * weight n) o.deficit }
    | none =>
      let cleared := if o.queue.any (fun q => q.pkt.hdr.cls.toNat = o.turn) then o.deficit else aset o.turn 0 o.deficit
      let n := o.turn % 6 + 1
      Output.drr now ok weight f { o with turn := n, deficit := aset n ((aget n cleared).getD 0 + 8256 * weight n) cleared }

/-- The next packet of an output: a due class-0 packet, class 7, classes 1 to 6, or none for fill (R361). -/
def Output.choose (o : Output) (now : Nat) (ok : Packet → Bool) (weight : Nat → Nat) : Option (OutPacket × Output) :=
  match o.queue.find? (fun q => q.pkt.hdr.cls = 0#3 && decide (q.start ≤ now)) with
  | some q => some (q, { o with queue := removeFirst q o.queue })
  | none =>
    match o.head now ok 7 with
    | some q => some (q, { o with queue := removeFirst q o.queue })
    | none => o.drr now ok weight 8

/-! ### Timing messages and retention -/

/-- Write the transmission time into SYNC, DELAY_REQ and DELAY_RESP at its place (R379). -/
def stampTiming (p : Packet) (now at16 : Nat) : Packet :=
  let t := leBytes 8 now ++ leBytes 1 at16
  if p.hdr.cls = 7#3 ∧ !p.hdr.multicast then
    if p.hdr.port = 0xC0#8 ∨ p.hdr.port = 0xC1#8 then { p with payload := overlay p.payload 8 t }
    else if p.hdr.port = 0xC2#8 then { p with payload := overlay p.payload 40 t }
    else p
  else p

/-- Move held copies from the retention slots into the queue, in order of entry, while room lasts (R375). -/
def serveRetention (k : LinkId) : List Retained → State → State
  | [], s => s
  | r :: rs, s =>
    let l := s.link k
    let gap := r.pkt.hdr.gap || s.plane.gapBranch.contains (r.group, k)
    let p : Packet := { r.pkt with hdr := { r.pkt.hdr with gap := gap } }
    if l.out.fits p then
      let s1 := s.setLink k { l with retention := rs }
      let s2 := { s1 with plane := { s1.plane with gapBranch := s1.plane.gapBranch.filter (fun x => x ≠ (r.group, k)) } }
      serveRetention k rs (s2.enqueueLink k p s.now)
    else s

/-- Which packets a link may start in its state: all when UP; link-local ones in HELLO state; LANE and HELLO messages
while it is sparing (R381, R382). -/
def Link.maySend (l : Link) (p : Packet) : Bool :=
  match l.state with
  | .up => true
  | .hello => decide (p.hdr.port = 0xC7#8 ∨ p.hdr.port = 0xC6#8)
  | .sparing => decide (p.hdr.port = 0xC6#8 ∨ p.hdr.port = 0xC7#8)
  | _ => false

/-- A link at a word boundary chooses what to send (R361). -/
def selectLink (k : LinkId) (at16 : Nat) (s : State) : State :=
  let l := s.link k
  let edge : Byte := BitVec.ofNat 8 k.val
  match l.out.choose s.now (fun p => l.maySend p && s.mayStart edge p) s.weight with
  | none => s.setLink k { l with out := { l.out with sending := none } }
  | some (q, o) =>
    if !l.maySend q.pkt then
      (if l.state = .sparing then (s.setLink k { l with out := { o with sending := none } }).count1 0x01 k.val 36
       else s.setLink k { l with out := { l.out with sending := none } })
    else
      let p := stampTiming q.pkt s.now at16
      let t1 := if q.pkt.hdr.port = 0xC1#8 ∧ q.pkt.hdr.cls = 7#3 then some (s.now * 16 + at16) else l.delayT1
      let s1 := s.setLink k { l with out := { o with sending := some p }, delayT1 := t1 }
      serveRetention k l.retention (s1.effects (countTraffic 0x01 k.val 0 p))

/-! ### Host outputs (R391, R392, R394) -/

/-- The virtual channel of a class (R392). -/
def vcOf (cls : BitVec 3) : Nat :=
  if cls = 0#3 then 0 else if cls = 7#3 then 1 else if cls.toNat ≤ 3 then 2 else 3

/-- The gate's send credits of a virtual channel. -/
def Bulk.credit (b : Bulk) (vc : Nat) : Nat := (aget vc b.credits).getD 0

/-- A bulk port at a beat boundary: a due class-0 packet without credits is dropped as a SCHEDULE_VIOLATION and never
waits (R394); the others need credits for their beats. -/
def selectBulk (b : BulkId) (s : State) : State :=
  let v := s.bulkPort b
  let edge : Byte := BitVec.ofNat 8 (0x40 + b.val)
  let ok := fun (p : Packet) => decide (p.beats ≤ v.credit (vcOf p.hdr.cls)) && s.mayStart edge p
  match v.out.choose s.now ok s.weight with
  | none => s.setBulk b { v with out := { v.out with sending := none } }
  | some (q, o) =>
    let vc := vcOf q.pkt.hdr.cls
    if v.credit vc < q.pkt.beats then
      (s.setBulk b { v with out := { o with sending := none } }).violation q.pkt.hdr.seq edge
    else
      (s.setBulk b { v with out := { o with sending := some q.pkt },
                            credits := aset vc (v.credit vc - q.pkt.beats) v.credits }).effects
        (countTraffic 0x04 b.val 0 q.pkt)

/-- LINK_OUTPUT_SELECT (R361). -/
def execLinkOutputSelect (k : LinkId) (at16 : Nat) (s : State) : Host.Outcome State Fault Refusal :=
  .next (selectLink k at16 s)

/-- HOST_OUTPUT_SELECT (R394). -/
def execHostOutputSelect (b : BulkId) (s : State) : Host.Outcome State Fault Refusal := .next (selectBulk b s)

/-- HOST_CREDIT_RETURN: a credit pulse raises the gate's send counter of the channel by one (R391). -/
def execHostCreditReturn (b : BulkId) (vc : Fin 4) (s : State) : Host.Outcome State Fault Refusal :=
  let v := s.bulkPort b
  .next (s.setBulk b { v with credits := aset vc.val (v.credit vc.val + 1) v.credits })

end Sys2Proof.Machine
end

