-- ==== Sys2Proof/Machine/Sync.lean ====
section
/-! DEFINITION. Plumb and its synchronization over the links (R31 to R35, R51, R52, R378 to R380). -/

namespace Sys2Proof.Machine

/-- Change the synchronization state and raise NTC_PLUMB with old and new state, last offset and master role (R52). -/
def State.setSync (s : State) (new : SyncState) : State :=
  let old := s.aon.sync
  ({ s with aon := { s.aon with sync := new } }).raise 1
    (leBytes 1 (syncCode old) ++ leBytes 1 (syncCode new) ++ leInt 4 (clampSigned 32 s.aon.lastOffset)
      ++ leBytes 1 (if s.aon.master then 1 else 0))

/-- The gate becomes the master: LOCKED with no load and no step, trim and offset 0, following no link (R52). -/
def State.becomeMaster (s : State) : State :=
  ({ s with aon := { s.aon with master := true, rateTrim := 0#8, maxOffset := 0#8, syncLink := 0xFF#8, depth := 0,
                                masterNode := s.aon.node, lower := none } }).setSync .locked

/-- The master role ends: LOCKED as a follower; the time without a SYNC counts from now (R52). A gate that was master from
FREE_RUN on stays LOCKED and loads nothing: R52's rows for LOCKED apply, not R33's load (log 56). -/
def State.endMaster (s : State) : State :=
  ({ s with aon := { s.aon with master := false, lastSync := s.now, beyond := 0, within := 0 } }).setSync .locked

/-- Enter HOLDOVER (R52). -/
def State.holdover (s : State) : State :=
  ({ s with aon := { s.aon with holdoverAt := s.now, beyond := 0, within := 0 } }).setSync .holdover

/-- PLUMB_MASTER's effect (R52, R518). -/
def runPlumbMaster (c : Cmd) (s : State) : State :=
  let e := field c.body 0 1
  if e = 1 then
    (if s.aon.master then s.answer c Status.alreadyDone [] else s.becomeMaster.answer c Status.ok [])
  else if e = 0 ∧ !s.aon.masterStrap then
    (if s.aon.master then s.endMaster.answer c Status.ok [] else s.answer c Status.alreadyDone [])
  else s.answer c Status.crossref []

/-! ### The offset of a SYNC (R32, R33, R52, R380) -/

/-- The trim the gate chooses, a free value within ±100 units of 2 ppm (R32, R35; log 7). -/
def trimFor (offset : Int) : Byte :=
  let t := signedOf 8 (Config.rateTrim offset).toNat
  BitVec.ofNat 8 (toTwos 8 (max (-100) (min 100 t)))

/-- The single load of plumb: waits of the link plane keep their elapsed time (R33; log 15). -/
def shiftLink (d : Int) (l : Link) : Link :=
  let f := fun (n : Nat) => ((n : Int) + d).toNat
  { l with lastHeader := f l.lastHeader, helloAt := f l.helloAt, routeAt := f l.routeAt, syncAt := f l.syncAt,
           delayAt := f l.delayAt, trailerFails := l.trailerFails.map f,
           delayT1 := l.delayT1.map (fun t => ((t : Int) + 16 * d).toNat),
           sparing := l.sparing.map (fun p => { p with began := f p.began }),
           retention := l.retention.map (fun r => { r with entered := f r.entered }) }

/-- The same for a sending window. -/
def shiftWindow (d : Int) (w : SendWindow) : SendWindow :=
  let f := fun (n : Nat) => ((n : Int) + d).toNat
  { w with lastActive := f w.lastActive, outstanding := w.outstanding.map (fun u => { u with sentAt := f u.sentAt }) }

/-- The same for a receive record. -/
def shiftRecord (d : Int) (r : RecvRecord) : RecvRecord := { r with lastActive := ((r.lastActive : Int) + d).toNat }

/-- Load plumb once with the pod value; the gate enters LOCKED (R33). -/
def State.loadPlumb (s : State) (ticks : Int) : State :=
  let a := { s.aon with plumb := BitVec.ofInt 64 ((s.now : Int) + ticks), stepped := true, loaded := true,
                        beyond := 0, within := 0 }
  let p := { s.plane with
    links := s.plane.links.map (fun e => (e.1, shiftLink ticks e.2))
    windows := s.plane.windows.map (fun e => (e.1, shiftWindow ticks e.2))
    records := s.plane.records.map (fun e => (e.1, shiftRecord ticks e.2)) }
  let s1 := { s with aon := a, plane := p }
  ({ s1 with aon := { s1.aon with lastSync := s1.now } }).setSync .locked

/-- Apply a measured offset, given in sixteenths of a tick, from the followed link (R32, R33, R52). -/
def applyOffset (o16 : Int) (s : State) : State :=
  let ticks := o16 / 16
  let size := o16.natAbs / 16
  let a := { s.aon with lastOffset := ticks, lastSync := s.now,
                        maxOffset := BitVec.ofNat 8 (max s.aon.maxOffset.toNat (min 255 size)) }
  let near := decide (o16.natAbs ≤ 64)
  match s.aon.sync with
  | .freeRun => ({ s with aon := a }).loadPlumb ticks
  | .locked =>
    let n := if near then 0 else s.aon.beyond + 1
    let s1 := { s with aon := { a with rateTrim := trimFor o16, beyond := n, within := 0 } }
    if 2 ≤ n then s1.setSync .unlocked else s1
  | .holdover =>
    let s1 := { s with aon := { a with rateTrim := trimFor o16, beyond := 0, within := 0 } }
    if near then s1.setSync .locked else s1.setSync .unlocked
  | .unlocked =>
    let n := if near then s.aon.within + 1 else 0
    let s1 := { s with aon := { a with rateTrim := trimFor o16, within := n, beyond := 0 } }
    if 2 ≤ n then s1.setSync .locked else s1

/-- Follow a link at a depth. -/
def State.follow (s : State) (k : LinkId) (depth : Nat) (master : NodeId) : State :=
  { s with aon := { s.aon with syncLink := BitVec.ofNat 8 k.val, depth := depth + 1, lower := none, masterNode := master } }

/-- A valid SYNC of a link that the gate does not follow: it is a message for the timeouts of R52 and ends HOLDOVER, and
leaves the trim of a LOCKED or UNLOCKED gate to the followed link (R52, R380; log 56). -/
def State.otherSync (s : State) (o16 : Int) : State :=
  if s.aon.sync = .holdover then applyOffset o16 s else { s with aon := { s.aon with lastSync := s.now } }

/-- A received SYNC: validated, its link's offer noted, followed or counted as a lower offer, and its offset applied when
its link is the followed one (R380). -/
def receiveSync (a : Arrival) (k : LinkId) (s : State) : State :=
  let b := a.pkt.payload
  let l := s.link k
  let seq := field b 4 4
  let depth := field b 2 1
  let newer := match l.syncSeq with
    | some q => laterSeq 32 seq q
    | none => true
  if s.aon.master || !fieldBit b 3 1 0 || !newer then s
  else
    let s1 := s.setLink k { l with syncSeq := some seq, syncDepth := some depth }
    let o16 : Int := (field b 8 8 : Int) * 16 + field b 16 1 + l.delay16.getD 0 - ((a.stamp : Int) * 16 + a.at16)
    let here : Byte := BitVec.ofNat 8 k.val
    let master := nodeField b 0
    if 8 < depth + 1 then (if s.aon.syncLink = 0xFF#8 then s1 else s1.otherSync o16)
    else if s.aon.syncLink = 0xFF#8 then applyOffset o16 (s1.follow k depth master)
    else if s.aon.syncLink = here then applyOffset o16 { s1 with aon := { s1.aon with depth := depth + 1, masterNode := master } }
    else if depth + 1 < s.aon.depth ∨ (depth + 1 = s.aon.depth ∧ k.val < s.aon.syncLink.toNat) then
      let n := match s.aon.lower with
        | some (j, m) => if j = k then m + 1 else 1
        | none => 1
      if 3 ≤ n then applyOffset o16 (s1.follow k depth master)
      else ({ s1 with aon := { s1.aon with lower := some (k, n) } } : State).otherSync o16
    else
      ({ s1 with aon := { s1.aon with lower := match s.aon.lower with
        | some (j, m) => if j = k then none else some (j, m)
        | none => none } } : State).otherSync o16

/-- A link has gone DOWN: select the best link left, or enter HOLDOVER when none is (R383). -/
def reselectSync (k : LinkId) (s : State) : State :=
  if s.aon.syncLink ≠ BitVec.ofNat 8 k.val then s
  else
    let best := (List.finRange 64).foldl (fun (b : Option (LinkId × Nat)) j =>
      match (s.link j).state, (s.link j).syncDepth with
      | .up, some d => if 8 < d + 1 then b else
          (match b with
           | some (_, e) => if d < e then some (j, d) else b
           | none => some (j, d))
      | _, _ => b) none
    match best with
    | some (j, d) => s.follow j d s.aon.masterNode
    | none =>
      let s1 := { s with aon := { s.aon with syncLink := 0xFF#8, lower := none } }
      if s.aon.sync = .locked ∧ !s.aon.master then s1.holdover else s1

/-! ### Messages (R379, R380) -/

/-- Take the oldest message at a link-local port with the link it came on. -/
def State.takeLocal (s : State) (port : Byte) : Option (Arrival × LinkId × State) :=
  match s.takeInbox (fun a => decide (a.pkt.hdr.port = port) && decide (a.pkt.hdr.cls = 7#3)) with
  | some (a, s1) => (match a.edge with
    | .link k => some (a, k, s1)
    | _ => none)
  | none => none

/-- Send a SYNC on an UP link every 8,192 ticks while LOCKED or master (R380). -/
def sendSync (k : LinkId) (s : State) : State :=
  let l := s.link k
  if l.state = .up ∧ s.aon.nodeValid ∧ (s.aon.sync = .locked ∨ s.aon.master) ∧ l.syncAt ≤ s.now then
    let depth := if s.aon.master then 0 else s.aon.depth
    let master := if s.aon.master then s.aon.node else s.aon.masterNode
    let s1 := { s with aon := { s.aon with syncSeq := (s.aon.syncSeq + 1) % 2 ^ 32 } }
    (s1.setLink k { l with syncAt := s.now + 8192 }).sendLocal k 0xC0#8
      (padTo 64 (leBytes 2 master.toNat ++ leBytes 1 depth ++ leBytes 1 1 ++ leBytes 4 s.aon.syncSeq))
  else s

/-- Send a DELAY_REQ on an UP link every 1,048,576 ticks and after each retrain (R380). -/
def measureDelay (k : LinkId) (s : State) : State :=
  let l := s.link k
  if l.state = .up ∧ l.delayAt ≤ s.now then
    (s.setLink k { l with delayAt := s.now + 1048576, delaySeq := (l.delaySeq + 1) % 2 ^ 32, delayT1 := none }).sendLocal
      k 0xC1#8 (padTo 64 (leBytes 4 ((l.delaySeq + 1) % 2 ^ 32)))
  else s

/-- Answer a DELAY_REQ with its sequence and t1, and t2; t3 is written at transmission (R379). -/
def answerDelay (s : State) : State :=
  match s.takeLocal 0xC1#8 with
  | none => s
  | some (a, k, s1) =>
    let b := a.pkt.payload
    s1.sendLocal k 0xC2#8 (padTo 64 (leBytes 4 (field b 0 4) ++ List.replicate 4 0#8 ++ leBytes 8 (field b 8 8)
      ++ leBytes 1 (field b 16 1) ++ List.replicate 7 0#8 ++ leBytes 8 a.stamp ++ leBytes 1 a.at16))

/-- A DELAY_RESP gives d = ((t4 − t1) − (t3 − t2)) / 2, less half the registered skew (R380, R518). -/
def receiveDelay (s : State) : State :=
  match s.takeLocal 0xC2#8 with
  | none => s
  | some (a, k, s1) =>
    let b := a.pkt.payload
    let l := s1.link k
    if field b 0 4 = l.delaySeq ∧ l.delayT1.isSome then
      let t1 : Int := 16 * (field b 8 8 : Int) + field b 16 1
      let t2 : Int := 16 * (field b 24 8 : Int) + field b 32 1
      let t3 : Int := 16 * (field b 40 8 : Int) + field b 48 1
      let t4 : Int := 16 * (a.stamp : Int) + a.at16
      s1.setLink k { l with delay16 := some (((t4 - t1) - (t3 - t2) - l.skew16) / 2), delayT1 := none }
    else s1

/-! ### The commands -/

/-- PLUMB_TICK: the counter increments by exactly one (R31). -/
def execPlumbTick (s : State) : Host.Outcome State Fault Refusal :=
  .next { s with aon := { s.aon with plumb := s.aon.plumb + 1#64 } }

/-- PLUMB_MASTER (R52, R518). -/
def execPlumbMaster (p : MPort) (n : Fin 32) (s : State) : Host.Outcome State Fault Refusal :=
  .next (s.startCmd p n 0x0403 1 runPlumbMaster)

/-- SYNC (R380). -/
def execSync (s : State) : Host.Outcome State Fault Refusal :=
  .next (match s.takeLocal 0xC0#8 with
    | none => s
    | some (a, k, s1) => receiveSync a k s1)

/-- SYNC_SEND_TIMER (R380). -/
def execSyncSendTimer (k : LinkId) (s : State) : Host.Outcome State Fault Refusal := .next (sendSync k s)

/-- DELAY_MEASURE_TIMER (R380). -/
def execDelayMeasureTimer (k : LinkId) (s : State) : Host.Outcome State Fault Refusal := .next (measureDelay k s)

/-- DELAY_REQ (R379). -/
def execDelayReq (s : State) : Host.Outcome State Fault Refusal := .next (answerDelay s)

/-- DELAY_RESP (R380). -/
def execDelayResp (s : State) : Host.Outcome State Fault Refusal := .next (receiveDelay s)

/-- HOLDOVER_TIMEOUT: no valid SYNC for 65,536 ticks moves a LOCKED follower to HOLDOVER (R52). -/
def execHoldoverTimeout (s : State) : Host.Outcome State Fault Refusal :=
  .next (if s.aon.sync = .locked ∧ !s.aon.master ∧ s.aon.lastSync + 65536 ≤ s.now then s.holdover else s)

/-- HOLDOVER_EXPIRY: after 1,600,000 ticks in HOLDOVER the gate enters UNLOCKED (R52). -/
def execHoldoverExpiry (s : State) : Host.Outcome State Fault Refusal :=
  .next (if s.aon.sync = .holdover ∧ s.aon.holdoverAt + 1600000 ≤ s.now then
      ({ s with aon := { s.aon with within := 0, beyond := 0 } }).setSync .unlocked else s)

end Sys2Proof.Machine
end

