-- ==== Sys2Proof/Machine/Links.lean ====
section
/-! DEFINITION. Link states and spare lanes (R355, R381 to R383), HELLO and ROUTE (R360, R381), the timers of windows
(R367 to R370), multicast reports and fences (R375 to R377), group commands (R518) and the plane reset (R458, R459). -/

namespace Sys2Proof.Machine

/-! ### Lanes and links (R348) -/

/-- The lane group of a link. -/
def linkGroup (k : LinkId) : Fin 8 := ⟨k.val / 8, by omega⟩
/-- The logical lane of a link in its group. -/
def linkLane (k : LinkId) : Fin 8 := ⟨k.val % 8, by omega⟩
/-- Link of a group's logical lane. -/
def laneLink (g : Fin 8) (i : Fin 8) : LinkId := ⟨8 * g.val + i.val, by omega⟩

/-- Replace a lane group. -/
def State.setLaneGroup (s : State) (g : Fin 8) (v : LaneGroup) : State :=
  { s with plane := { s.plane with lanes := aset g v s.plane.lanes } }

/-- The physical lane of a link: the spare, 8, when its logical lane is moved (R348, R382). -/
def State.physLane (s : State) (k : LinkId) : Fin 9 :=
  if (s.laneGroup (linkGroup k)).spared = some (linkLane k) then 8 else ⟨k.val % 8, by omega⟩

/-- The link that a physical lane serves. -/
def State.linkOfLane (s : State) (g : Fin 8) (l : Fin 9) : Option LinkId :=
  (List.finRange 8).findSome? (fun i => if s.physLane (laneLink g i) = l then some (laneLink g i) else none)

/-- Whether a group's spare is free (R382). -/
def State.spareFree (s : State) (g : Fin 8) : Bool :=
  (s.laneGroup g).spared.isNone && !(s.laneGroup g).spareFailed &&
    (List.finRange 8).all (fun i => (s.link (laneLink g i)).state ≠ .sparing)

/-! ### A link goes DOWN (R383) -/

/-- The routes have changed: a ROUTE message is due on every link (R360). -/
def State.routesChanged (s : State) : State :=
  { s with plane := { s.plane with links := s.plane.links.map (fun e => (e.1, { e.2 with routeDirty := true })) } }

/-- Every retained copy of a link misses at once (R375, R383). -/
def missRetained (k : LinkId) (rs : List Retained) (s : State) : State :=
  rs.foldl (fun t r => t.branchMiss r.group k r.pkt r.members) s

/-- A link stops: what it holds is lost, and the synchronization link is selected anew unless a plane reset stops the link
(R33, R383). -/
def State.linkStops (s : State) (k : LinkId) (reselect : Bool) : State :=
  let l := s.link k
  if l.state = .down then s
  else
    let wasUp := decide (l.state = .up) || decide (l.state = .sparing)
    let n := l.out.queue.length
    let s1 := s.setLink k { l with state := .down, inSync := false, good := 0, bad := 0, learned := [], sparing := none,
                                   out := {}, retention := [], faulted := [], trailerFails := [], syncDepth := none,
                                   delayT1 := none }
    let s2 := if n = 0 then s1 else s1.countN 0x01 k.val 35 n
    let m := missRetained k l.retention s2
    let s3 := if reselect then reselectSync k m else m
    let s4 := if wasUp then s3.linkRecord 2 (BitVec.ofNat 8 k.val) l.peer 0 0 else s3
    s4.routesChanged

/-- A link goes DOWN, and the gate reselects its synchronization link (R383). -/
def State.linkDown (s : State) (k : LinkId) : State := s.linkStops k true

/-! ### Spare lanes (R382) -/

/-- A LANE message. -/
def lanePayload (k : LinkId) (op lane seq : Nat) (requester : NodeId) : List Byte :=
  padTo 64 (leBytes 1 k.val ++ leBytes 1 op ++ leBytes 1 lane ++ leBytes 1 8 ++ leBytes 4 seq ++ leBytes 2 requester.toNat)

/-- The link that carries LANE messages about a link: the lowest other UP link of its group, or itself. -/
def State.laneCarrier (s : State) (k : LinkId) : LinkId :=
  ((List.finRange 8).findSome? (fun i =>
    let j := laneLink (linkGroup k) i
    if j ≠ k ∧ s.linkUp j then some j else none)).getD k

/-- Start the spare procedure for a link, or bring it DOWN when the group's spare is in use or failed. -/
def State.startSparing (s : State) (k : LinkId) : State :=
  if !s.spareFree (linkGroup k) then s.linkDown k
  else
    let l := s.link k
    let phys := s.physLane k
    let s1 := s.setLink k { l with state := .sparing, sparing := some { began := s.now, lane := phys, accepted := false, moved := false },
                                   laneSeq := (l.laneSeq + 1) % 2 ^ 32 }
    s1.sendLocal (s1.laneCarrier k) 0xC6#8 (lanePayload k 1 phys.val ((l.laneSeq + 1) % 2 ^ 32) s.aon.node)

/-- Move a sparing link to physical lane 8 and raise its training (R382). -/
def State.moveLane (s : State) (k : LinkId) (accepted : Bool) : State :=
  let l := s.link k
  match l.sparing with
  | none => s
  | some sp =>
    let g := s.laneGroup (linkGroup k)
    (s.setLink k { l with sparing := some { sp with accepted := accepted, moved := true }, inSync := false, good := 0, bad := 0 }).setLaneGroup
      (linkGroup k) { g with spared := some (linkLane k), train := g.train ++ [8] }

/-- The spare link has completed delineation and HELLO: UP, `op` 3 sent, the repair noted (R382, R385). -/
def State.spareDone (s : State) (k : LinkId) : State :=
  let l := s.link k
  match l.sparing with
  | none => s
  | some sp =>
    let s1 := s.setLink k { l with state := .up, sparing := none, delayAt := s.now, trailerFails := [] }
    let s2 := s1.sendLocal (s1.laneCarrier k) 0xC6#8 (lanePayload k 3 sp.lane.val l.laneSeq s.aon.node)
    let s3 := s2.linkRecord 4 (BitVec.ofNat 8 k.val) l.peer 0 sp.lane.val
    s3.noteSpare 4 (leBytes 1 (linkGroup k).val ++ leBytes 1 sp.lane.val)

/-- A received LANE message (R382). -/
def receiveLane (a : Arrival) (s : State) : State :=
  let b := a.pkt.payload
  let v := field b 0 1
  if h : v < 64 then
    let k : LinkId := ⟨v, h⟩
    let op := field b 1 1
    let requester := nodeField b 8
    let l := s.link k
    if op = 1 then
      match l.sparing with
      | some sp => if sp.moved then s else s.moveLane k true
      | none =>
        let mine := (List.finRange 8).findSome? (fun i =>
          let j := laneLink (linkGroup k) i
          if (s.link j).state = .sparing then some j else none)
        let s0 := match mine with
          | some j => if requester.toNat < s.aon.node.toNat then s.linkDown j else s.linkDown k
          | none => s
        if mine.isSome ∧ ¬ requester.toNat < s.aon.node.toNat then s0
        else if !s0.spareFree (linkGroup k) then s0.linkDown k
        else
          let lk := s0.link k
          let s1 := s0.setLink k { lk with state := .sparing, sparing := some { began := s0.now, lane := s0.physLane k, accepted := true, moved := false } }
          (s1.moveLane k true).sendLocal (s1.laneCarrier k) 0xC6#8
            (lanePayload k 2 (field b 2 1) (field b 4 4) requester)
    else if op = 2 then
      match l.sparing with
      | some sp => if sp.moved then s else s.moveLane k true
      | none => s
    else s
  else s

/-! ### Delineation (R355) -/

/-- One 16-byte header tested by a receiver. -/
def delineate (k : LinkId) (hdr : BitVec 128) (s : State) : State :=
  let l := s.link k
  let ok := headerPasses hdr
  if l.state = .down then s
  else if l.inSync then
    if ok then s.setLink k { l with bad := 0, lastHeader := s.now }
    else if 2 ≤ l.bad + 1 then (s.setLink k { l with inSync := false, bad := 0, good := 0 }).count1 0x01 k.val 33
    else s.setLink k { l with bad := l.bad + 1 }
  else if ok ∧ (hdr.toNat / 2 ^ 48) % 256 ≤ 128 then
    if 8 ≤ l.good + 1 then
      s.setLink k { l with inSync := true, good := 0, bad := 0, lastHeader := s.now, helloAt := s.now,
                           state := if l.state = .hunt then .hello else l.state }
    else s.setLink k { l with good := l.good + 1, lastHeader := s.now }
  else s.setLink k { l with good := 0 }

/-! ### PHY events (R381, R382) -/

/-- lgG_rx_up rises: a DOWN link of the lane goes to HUNT. -/
def laneRise (g : Fin 8) (l : Fin 9) (s : State) : State :=
  let v := s.laneGroup g
  let s1 := s.setLaneGroup g { v with rxUp := if v.rxUp.contains l then v.rxUp else v.rxUp ++ [l] }
  match s1.linkOfLane g l with
  | none => s1
  | some k =>
    let lk := s1.link k
    if lk.state = .down then s1.setLink k { lk with state := .hunt, inSync := false, good := 0, bad := 0, lastHeader := s.now }
    else s1

/-- lgG_rx_up falls: an UP link is spared while its group's spare is free; otherwise the link goes DOWN. -/
def laneFall (g : Fin 8) (l : Fin 9) (s : State) : State :=
  let v := s.laneGroup g
  let s1 := s.setLaneGroup g { v with rxUp := v.rxUp.filter (fun x => x ≠ l) }
  match s1.linkOfLane g l with
  | none => s1
  | some k =>
    let lk := s1.link k
    if lk.state = .up ∧ s1.spareFree g then s1.startSparing k
    else if lk.state = .sparing then s1
    else s1.linkDown k

/-- lgG_lane_fault rises: the lane is retired; a faulty spare can take no lane (R382). A link of a gate without a valid node
identifier stays in HELLO (R513). -/
def laneFaulty (g : Fin 8) (l : Fin 9) (s : State) : State :=
  if l = 8 then
    let s1 := s.setLaneGroup g { s.laneGroup g with spareFailed := true }
    match s1.linkOfLane g l with
    | some k => s1.linkDown k
    | none => s1
  else
    match s.linkOfLane g l with
    | some k =>
      if (s.link k).state = .sparing ∨ ((s.link k).state = .hello ∧ !s.aon.nodeValid) then s else s.startSparing k
    | none => s

/-- A trailer fails: the 16th failure within 1,048,576 lane words of 2.048 ticks retires the lane (R354, R382). -/
def trailerFail (k : LinkId) (s : State) : State :=
  let s1 := s.countLink ⟨0x01, k.val, 32⟩ (BitVec.ofNat 8 k.val)
  let l := s1.link k
  let recent := (l.trailerFails ++ [s1.now]).filter (fun t => decide (1000 * s1.now < 1000 * t + 2048 * 1048576))
  if 16 ≤ recent.length ∧ (l.state = .up ∨ (l.state = .hello ∧ s.aon.nodeValid)) then (s1.setLink k { l with trailerFails := [] }).startSparing k
  else s1.setLink k { l with trailerFails := recent }

/-- No header has passed for 1,600 ticks: the link goes DOWN; a spare procedure has 320,000 ticks (R381, R382). -/
def silence (k : LinkId) (s : State) : State :=
  let l := s.link k
  match l.state with
  | .up => if l.lastHeader + 1600 ≤ s.now then s.linkDown k else s
  | .hello => if l.lastHeader + 1600 ≤ s.now then s.linkDown k else s
  | .sparing =>
    (match l.sparing with
     | some sp => if sp.began + 320000 ≤ s.now then s.linkDown k else s
     | none => s)
  | _ => s

/-! ### HELLO and ROUTE (R360, R381) -/

/-- The role bits of a HELLO: the policy's, or RELAY (R381; log 16). -/
def State.roleBits (s : State) : Nat :=
  match s.roleTable with
  | some r => r.roles.toNat % 16
  | none => 8

/-- A received HELLO. -/
def receiveHello (a : Arrival) (k : LinkId) (s : State) : State :=
  let b := a.pkt.payload
  let l := s.link k
  let peer := nodeField b 0
  let here := decide (field b 2 1 = k.val)
  match l.state with
  | .hello =>
    if !here then s.countLink ⟨0x02, 0, 12⟩ (BitVec.ofNat 8 k.val)
    else if !s.aon.nodeValid then s
    else
      (s.setLink k { l with state := .up, peer := peer, helloAt := s.now, routeAt := s.now, routeDirty := true,
                            syncAt := s.now, delayAt := s.now, syncSeq := none, faulted := [] }).linkRecord 1
        (BitVec.ofNat 8 k.val) peer 0 0
  | .sparing =>
    (match l.sparing with
     | some sp => if here ∧ sp.moved ∧ l.inSync ∧ s.aon.nodeValid then s.spareDone k else s
     | none => s)
  | .up => if here then s.setLink k { l with peer := peer } else s
  | _ => s

/-- Send a HELLO: every 1,024 ticks in HELLO state, every 65,536 ticks when UP, none without an identity (R381, R513). -/
def sendHello (k : LinkId) (s : State) : State :=
  let l := s.link k
  let period := match l.state with
    | .up => some 65536
    | .hello => some 1024
    | .sparing => some 1024
    | _ => none
  match period with
  | none => s
  | some t =>
    if s.aon.nodeValid ∧ l.helloAt ≤ s.now then
      (s.setLink k { l with helloAt := s.now + t }).sendLocal k 0xC7#8
        (padTo 64 (leBytes 2 s.aon.node.toNat ++ leBytes 1 k.val ++ leBytes 1 s.roleBits ++ leBytes 4 versionWord.toNat))
    else s

/-- The hops to every node that a ROUTE message carries (R360). -/
def State.hopBytes (s : State) : List Byte :=
  (List.range 4096).map (fun n => BitVec.ofNat 8 (if s.aon.nodeValid ∧ n = s.aon.node.toNat then 0 else (s.route (BitVec.ofNat 12 n)).hops))

/-- A received ROUTE: the link's learned hops are replaced; a change is sent on (R360). -/
def receiveRoute (a : Arrival) (k : LinkId) (s : State) : State :=
  let l := s.link k
  let got := (a.pkt.payload.zipIdx).filterMap (fun (b, n) => if b.toNat < 0xFF then some (n, b.toNat) else none)
  if l.state ≠ .up ∨ l.learned = got then s
  else
    (s.setLink k { l with learned := got }).routesChanged

/-- Send a ROUTE on an UP link every 1,048,576 ticks, or when something has changed (R360). -/
def sendRoute (k : LinkId) (s : State) : State :=
  let l := s.link k
  if l.state = .up ∧ s.aon.nodeValid ∧ (l.routeAt ≤ s.now ∨ l.routeDirty) then
    (s.setLink k { l with routeAt := s.now + 1048576, routeDirty := false }).sendLocal k 0xC8#8 s.hopBytes
  else s

/-! ### Multicast reports (R375 to R377) -/

/-- A received MISS. -/
def receiveMiss (a : Arrival) (s : State) : State :=
  let b := a.pkt.payload
  let g := field b 0 2
  let seq := field b 4 3
  let members : BitVec 256 := BitVec.ofNat 256 (field b 16 32)
  if s.plane.completions.any (fun c => decide (c.group = g) && decide (c.seq = seq)) then
    { s with plane := { s.plane with completions := s.plane.completions.map (fun c =>
      if c.group = g ∧ c.seq = seq then
        (if field b 2 1 = 0 then { c with missed := c.missed ||| members } else { c with fenced := c.fenced ||| members })
      else c) } }
  else s.count1 0x02 0 9

/-- Write the first due completion record (R377). -/
def writeCompletion (s : State) : State :=
  match s.plane.completions.find? (fun c => decide (c.due ≤ s.now)) with
  | none => s
  | some c =>
    let status := if c.missed ≠ 0#256 then Status.timeout else if c.fenced ≠ 0#256 then Status.fenced else Status.ok
    let flags := (if c.missed ≠ 0#256 then 1 else 0) + (if c.fenced ≠ 0#256 then 2 else 0)
    let delivered := c.all &&& ~~~(c.missed ||| c.fenced)
    let body := leBytes 2 c.group ++ leBytes 1 status ++ leBytes 1 flags ++ leBytes 4 c.seq ++ leBytes 8 c.stamp
      ++ leBytes 32 delivered.toNat
    ({ s with plane := { s.plane with completions := s.plane.completions.filter (fun d => d ≠ c) } }).writeItem c.queue
      0x0003#16 body

/-- The first copy of a link whose budget has run out is discarded and its branch misses (R375). -/
def expireRetention (k : LinkId) (s : State) : State :=
  let l := s.link k
  match l.retention.find? (fun r => decide (r.entered + ((s.group? r.group).map (fun e => e.budget)).getD 0 ≤ s.now)) with
  | none => s
  | some r => (s.setLink k { l with retention := l.retention.erase r }).branchMiss r.group k r.pkt r.members

/-! ### Node fences (R376) -/

/-- NODE_FENCE's effect: op 1 fences, 2 unfences, at the boundary. -/
def runNodeFence (c : Cmd) (s : State) : State :=
  if 4096 ≤ field c.body 0 2 ∨ (field c.body 2 1 ≠ 1 ∧ field c.body 2 1 ≠ 2) then s.answer c Status.crossref []
  else s.waitBoundary c

/-- Discard the multicast copies that one link holds and report them fenced. -/
def fenceLink (k : LinkId) (s : State) : State :=
  let l := s.link k
  let copies := l.out.queue.filter (fun q => q.pkt.hdr.multicast)
  let s1 := s.setLink k { l with out := { l.out with queue := l.out.queue.filter (fun q => !q.pkt.hdr.multicast) },
                                 retention := [] }
  let s2 := copies.foldl (fun t q =>
    let g := q.pkt.hdr.dest.toNat
    let members := ((t.group? g).bind (fun e => e.branches.find? (fun b => b.out = k))).map (fun b => b.members)
    (t.branchGap g k).reportMiss g q.pkt 1 (members.getD 0#256)) s1
  l.retention.foldl (fun t r => (t.branchGap r.group k).reportMiss r.group r.pkt 1 r.members) s2

/-- A node is unfenced: the first copy that each branch of a link to it delivers from now on carries `gap` (R376). -/
def unfenceLinks (node : NodeId) (s : State) : State :=
  s.plane.groups.foldl (fun t e => (e.2.branches.filter (fun b => s.leadsTo b.out node)).foldl
    (fun u b => u.branchGap e.1 b.out) t) s

/-- A fence or unfence commits (R376, R518). -/
def commitFence (s : State) : State :=
  match s.dueWaiting 0x0401 with
  | none => s
  | some w =>
    let node := nodeField w.body 0
    let fenced := s.plane.fences.contains node
    let s1 := s.popWaiting
    let body := leBytes 8 w.due
    if field w.body 2 1 = 1 then
      if fenced then s1.answerFrom w.from? Status.alreadyDone body
      else
        let s2 := { s1 with plane := { s1.plane with fences := s1.plane.fences ++ [node] } }
        let s3 := ((List.finRange 64).filter (fun k => s2.leadsTo k node)).foldl
          (fun t k => fenceLink k t) s2
        s3.answerFrom w.from? Status.ok body
    else if fenced then
      (unfenceLinks node { s1 with plane := { s1.plane with fences := s1.plane.fences.filter (fun n => n ≠ node) } }).answerFrom
        w.from? Status.ok body
    else s1.answerFrom w.from? Status.alreadyDone body

/-! ### Groups by command (R518) -/

/-- The entry that a GROUP_ALLOC body describes, when every field is in range. -/
def groupOfBody (b : List Byte) (len : Nat) : Option GroupEntry :=
  let n := field b 2 1
  let q := field b 12 2
  if hq : q < 512 then
    if 5 < n ∨ len < 16 + 40 * n ∨ 102400 < field b 4 4 then none
    else
      let outs := (List.range n).map (fun i => field b (16 + 40 * i) 1)
      if outs.any (fun o => decide (64 ≤ o)) then none
      else some
        { atNode := fieldBit b 0 1 0, report := fieldBit b 0 1 1, member := field b 1 1, budget := field b 4 4,
          completionDelay := field b 8 4, completionQueue := ⟨q, hq⟩,
          branches := (List.range n).map (fun i =>
            { out := ⟨field b (16 + 40 * i) 1 % 64, by omega⟩, members := BitVec.ofNat 256 (field b (24 + 40 * i) 32) }) }
  else none

/-- GROUP_ALLOC's effect. -/
def runGroupAlloc (c : Cmd) (s : State) : State :=
  match groupOfBody c.body c.len with
  | none => s.answer c Status.crossref []
  | some _ => s.waitBoundary c

/-- The lowest group entry that lacks `defined`. -/
def State.freeGroup (s : State) : Option Nat := (List.range 4096).find? (fun g => (s.group? g).isNone)

/-- GROUP_ALLOC's boundary. -/
def commitGroupAlloc (s : State) : State :=
  match s.dueWaiting 0x0405 with
  | none => s
  | some w =>
    match groupOfBody w.body w.body.length, s.freeGroup with
    | some e, some g =>
      ({ s.popWaiting with plane := { s.plane with groups := aset g e s.plane.groups } }).answerFrom w.from? Status.ok
        (leBytes 2 g ++ List.replicate 6 0#8 ++ leBytes 8 w.due)
    | _, _ => s.popWaiting.answerFrom w.from? Status.groupFull (List.replicate 8 0#8 ++ leBytes 8 w.due)

/-- GROUP_FREE's effect. -/
def runGroupFree (c : Cmd) (s : State) : State :=
  if 4096 ≤ field c.body 0 2 then s.answer c Status.crossref [] else s.waitBoundary c

/-- GROUP_FREE's boundary: `defined` is cleared. -/
def commitGroupFree (s : State) : State :=
  match s.dueWaiting 0x0406 with
  | none => s
  | some w =>
    ({ s.popWaiting with plane := { s.plane with groups := aerase (field w.body 0 2) s.plane.groups } }).answerFrom
      w.from? Status.ok (leBytes 8 w.due)

/-! ### Plane reset (R452, R458, R459) -/

/-- The `confirm` word of a reset command (R451). -/
def confirmed (c : Cmd) : Bool := decide (field c.body 0 4 = 0x54455352)

/-- RESET_PLANE's effect. -/
def runResetPlane (c : Cmd) (s : State) : State :=
  if confirmed c then s.waitBoundary c else s.answer c Status.crossref []

/-- The boundary of a plane reset: every link stops, every packet held is discarded and frees its receive buffer, the
tables are the default ones; the
synchronization state stays as it is (R33, R452). The command waits on for its completion. -/
def planeReset (s : State) : State :=
  match s.dueWaiting 0x0702 with
  | none => s
  | some w =>
    let s0 := (List.finRange 64).foldl (fun t k => t.linkStops k false) s.popWaiting
    let s1 := s0.plane.edgeWait.foldl (fun t a => t.returnCredit a.edge a.pkt) s0
    let p := { s1.plane with
      policyRoutes := none
      formerRoutes := none
      slots := none
      groups := []
      delivery := none
      tablesLost := true
      windows := []
      records := []
      acks := []
      edgeWait := []
      groupLast := []
      retrainAt := some (w.due + 4800)
      resetBoundary := some w.due
      lanes := s1.plane.lanes.map (fun (e : Fin 8 × LaneGroup) => (e.1, { e.2 with train := [] })) }
    ({ s1 with plane := p, bulk := s1.bulk.map (fun (e : BulkId × Bulk) => (e.1, { e.2 with out := {} })) }).waitCompletion w

/-- lgG_train rises on every logical lane of the kept lane map (R458). -/
def retrain (s : State) : State :=
  match s.plane.retrainAt with
  | some t =>
    if t ≤ s.now then
      let lanesOf := fun (g : Fin 8) => (List.finRange 8).map (fun i => s.physLane (laneLink g i))
      { s with plane := { s.plane with
        retrainAt := none
        lanes := (List.finRange 8).foldl (fun m g => aset g { s.laneGroup g with train := lanesOf g } m) s.plane.lanes } }
    else s
  | none => s

/-- NTC_RESET: class, acceptance stamp, boundary, issuing port and streams closed (R467). -/
def State.noteReset (s : State) (cls accept boundary : Nat) (port : Option (MPort × Fin 32)) (closed : Nat) : State :=
  s.raise 18 (leBytes 1 cls ++ leBytes 8 accept ++ leBytes 8 boundary
    ++ leBytes 1 ((port.map (fun x => portCode x.1)).getD 0) ++ leBytes 4 closed)

/-- The plane reset completes: NTC_RESET is raised, `resets_plane` counts and the command answers (R458, R467). -/
def planeResetDone (s : State) : State :=
  match s.completing 0x0702 with
  | none => s
  | some w =>
    let s1 := ({ s with plane := { s.plane with resetBoundary := none } }).dropCompleting w
    ((s1.count1 0x12 0 0).noteReset 1 w.accept w.due w.from? 0).answerFrom w.from? Status.ok []

/-- Install a policy's route, slot, group and delivery tables; the changed routes are sent on (R360, R444, R459). -/
def State.installTables (s : State) (t : PolicyTables) : State :=
  ({ s with plane := { s.plane with policyRoutes := some t.routes, slots := some t.slots, groups := t.groups,
                                    delivery := some t.delivery, tablesLost := false } }).routesChanged

/-- PLANE_RESTORE's boundary (R459). -/
def planeRestore (s : State) : State :=
  match s.dueWaiting 0x0704 with
  | none => s
  | some w =>
    match s.plane.tablesLost, s.cast.active with
    | true, some p => (s.popWaiting.installTables p.tables).answerFrom w.from? Status.ok []
    | _, _ => s.popWaiting.answerFrom w.from? Status.alreadyDone []

/-! ### The commands -/

/-- NODE_FENCE (R376). -/
def execNodeFence (p : MPort) (n : Fin 32) (s : State) : Host.Outcome State Fault Refusal :=
  .next (s.startCmd p n 0x0401 3 runNodeFence)

/-- NODE_FENCE_COMMIT (R376). -/
def execNodeFenceCommit (s : State) : Host.Outcome State Fault Refusal := .next (commitFence s)

/-- GROUP_ALLOC (R518). -/
def execGroupAlloc (p : MPort) (n : Fin 32) (s : State) : Host.Outcome State Fault Refusal :=
  .next (s.startCmd p n 0x0405 16 runGroupAlloc)

/-- GROUP_ALLOC_BOUNDARY (R518). -/
def execGroupAllocBoundary (s : State) : Host.Outcome State Fault Refusal := .next (commitGroupAlloc s)

/-- GROUP_FREE (R518). -/
def execGroupFree (p : MPort) (n : Fin 32) (s : State) : Host.Outcome State Fault Refusal :=
  .next (s.startCmd p n 0x0406 2 runGroupFree)

/-- GROUP_FREE_BOUNDARY (R518). -/
def execGroupFreeBoundary (s : State) : Host.Outcome State Fault Refusal := .next (commitGroupFree s)

/-- RESET_PLANE (R458). -/
def execResetPlane (p : MPort) (n : Fin 32) (s : State) : Host.Outcome State Fault Refusal :=
  .next (s.startCmd p n 0x0702 4 runResetPlane)

/-- PLANE_RESET_BOUNDARY (R458). -/
def execPlaneResetBoundary (s : State) : Host.Outcome State Fault Refusal := .next (planeReset s)

/-- PLANE_RETRAIN (R458). -/
def execPlaneRetrain (s : State) : Host.Outcome State Fault Refusal := .next (retrain s)

/-- PLANE_RESET_COMPLETE (R458). -/
def execPlaneResetComplete (s : State) : Host.Outcome State Fault Refusal := .next (planeResetDone s)

/-- PLANE_RESTORE (R459). -/
def execPlaneRestore (p : MPort) (n : Fin 32) (s : State) : Host.Outcome State Fault Refusal :=
  .next (s.startCmd p n 0x0704 0 (fun c s => s.waitBoundary c))

/-- PLANE_RESTORE_BOUNDARY (R459). -/
def execPlaneRestoreBoundary (s : State) : Host.Outcome State Fault Refusal := .next (planeRestore s)

/-- LANE_RX_UP_RISE (R381). -/
def execLaneRxUpRise (g : Fin 8) (l : Fin 9) (s : State) : Host.Outcome State Fault Refusal := .next (laneRise g l s)

/-- LANE_RX_UP_FALL (R382). -/
def execLaneRxUpFall (g : Fin 8) (l : Fin 9) (s : State) : Host.Outcome State Fault Refusal := .next (laneFall g l s)

/-- LANE_FAULT (R382). -/
def execLaneFault (g : Fin 8) (l : Fin 9) (s : State) : Host.Outcome State Fault Refusal := .next (laneFaulty g l s)

/-- LINK_SILENCE_TIMEOUT (R381). -/
def execLinkSilenceTimeout (k : LinkId) (s : State) : Host.Outcome State Fault Refusal := .next (silence k s)

/-- LANE_MESSAGE (R382). -/
def execLaneMessage (s : State) : Host.Outcome State Fault Refusal :=
  .next (match s.takeLocal 0xC6#8 with
    | none => s
    | some (a, _, s1) => receiveLane a s1)

/-- LANE_SPARE_ACCEPT_TIMEOUT: no accept within 16,384 ticks, so the gate moves alone (R382). -/
def execLaneSpareAcceptTimeout (k : LinkId) (s : State) : Host.Outcome State Fault Refusal :=
  .next (match (s.link k).sparing with
    | some sp => if !sp.moved ∧ sp.began + 16384 ≤ s.now then s.moveLane k false else s
    | none => s)

/-- HELLO (R381). -/
def execHello (s : State) : Host.Outcome State Fault Refusal :=
  .next (match s.takeLocal 0xC7#8 with
    | none => s
    | some (a, k, s1) => receiveHello a k s1)

/-- HELLO_SEND_TIMER (R381). -/
def execHelloSendTimer (k : LinkId) (s : State) : Host.Outcome State Fault Refusal := .next (sendHello k s)

/-- ROUTE (R360). -/
def execRoute (s : State) : Host.Outcome State Fault Refusal :=
  .next (match s.takeLocal 0xC8#8 with
    | none => s
    | some (a, k, s1) => receiveRoute a k s1)

/-- ROUTE_SEND_TIMER (R360). -/
def execRouteSendTimer (k : LinkId) (s : State) : Host.Outcome State Fault Refusal := .next (sendRoute k s)

/-- ACK (R368). -/
def execAck (s : State) : Host.Outcome State Fault Refusal :=
  .next (match s.takeInbox (fun a => decide (a.pkt.hdr.port = 0xC3#8)) with
    | none => s
    | some (a, s1) => receiveAck a s1)

/-- ACK_SEND (R367). -/
def execAckSend (peer : NodeId) (s : State) : Host.Outcome State Fault Refusal := .next (sendAck peer s)

/-- RETRANSMIT_TIMEOUT (R369). -/
def execRetransmitTimeout (peer : NodeId) (s : State) : Host.Outcome State Fault Refusal := .next (retransmit peer s)

/-- SEND_WINDOW_IDLE_FREE (R370). -/
def execSendWindowIdleFree (peer : NodeId) (s : State) : Host.Outcome State Fault Refusal :=
  .next (match aget peer s.plane.windows with
    | some w =>
      if w.outstanding = [] ∧ w.lastActive + 1048576 ≤ s.now then
        ({ s with plane := { s.plane with windows := aerase peer s.plane.windows } }).pump
      else s
    | none => s)

/-- RECEIVE_RECORD_IDLE_FREE (R370). -/
def execReceiveRecordIdleFree (peer : NodeId) (s : State) : Host.Outcome State Fault Refusal :=
  .next (match aget peer s.plane.records with
    | some r =>
      if r.lastActive + 2097152 ≤ s.now then { s with plane := { s.plane with records := aerase peer s.plane.records } }
      else s
    | none => s)

/-- MISS (R375, R377). -/
def execMiss (s : State) : Host.Outcome State Fault Refusal :=
  .next (match s.takeInbox (fun a => decide (a.pkt.hdr.port = 0xC4#8)) with
    | none => s
    | some (a, s1) => receiveMiss a s1)

/-- RETENTION_BUDGET_EXPIRY (R375). -/
def execRetentionBudgetExpiry (k : LinkId) (s : State) : Host.Outcome State Fault Refusal := .next (expireRetention k s)

/-- MCAST_COMPLETION_RECORD (R377). -/
def execMcastCompletionRecord (s : State) : Host.Outcome State Fault Refusal := .next (writeCompletion s)

/-- PACKET_DELINEATION (R355). -/
def execPacketDelineation (k : LinkId) (hdr : BitVec 128) (s : State) : Host.Outcome State Fault Refusal :=
  .next (delineate k hdr s)

end Sys2Proof.Machine
end

