-- ==== Sys2Proof/Machine/Edge.lean ====
section
/-! DEFINITION. Packets that enter the gate: on a link (R24 to R27, R354, R363, R366, R378) and from the host (R357, R391 to
R393), with the taps (R268). -/

namespace Sys2Proof.Machine

/-- The baseline screen of a text packet that leaves again: none when it is dropped (R27; log 42). -/
def State.screenTransit (s : State) (a : Arrival) : Option Arrival × State :=
  if s.cast.defaultState && isText a.pkt then
    (fun (r : Option Packet × State) => (r.1.map (fun (p : Packet) => { a with pkt := p }), r.2)) (s.baselineScreen a.pkt)
  else (some a, s)

/-- Hand a screened packet on, when it is not dropped. -/
def State.screened (s : State) (a : Arrival) (f : Arrival → State → State) : State :=
  match s.screenTransit a with
  | (some b, t) => f b t
  | (none, t) => t

/-- A class-0 packet at its edge: dropped and counted when no slot entry admits it, else screened in the default state as
any text is, and sent on its way, with a copy to the taps (R25, R27, R30, R268, R363). -/
def State.enterClass0 (s : State) (a : Arrival) : State :=
  match s.class0Entry a with
  | some e => (s.screened a (fun b t => t.class0Out e b)).tapPacket a
  | none => s.violation a.pkt.hdr.seq (edgeByte a.edge)

/-! ### Links -/

/-- Text bytes of a class that wait at an edge (R95). -/
def State.waitingText (s : State) (e : Edge) (c : BitVec 3) : Nat :=
  ((s.streams.textWait.filter (fun a => decide (a.edge = e) && decide (a.pkt.hdr.cls = c))).map (fun a => a.pkt.size)).sum

/-- Text that joins more than `mark_bytes` of its class waiting at its edge is marked (R95, R372; log 34). -/
def State.markWaiting (s : State) (a : Arrival) : Arrival :=
  if isText a.pkt && decide (s.markBytes a.pkt.hdr.cls.toNat < s.waitingText a.edge a.pkt.hdr.cls) then
    { a with pkt := { a.pkt with hdr := { a.pkt.hdr with mark := true } } }
  else a

/-- A packet of classes 1 to 7 that came on a link that is UP (R24, R356, R366, R374). -/
def State.relay (s : State) (a : Arrival) : State :=
  if a.pkt.hdr.multicast then s.screened a (fun b t => t.replicate b b.toLink)
  else if a.pkt.hdr.dest = s.aon.node then
    (if a.pkt.hdr.cls = 7#3 then s.deliver a else receiveWindowed (s.markWaiting a) s)
  else s.screened a (fun b t => t.forward b.pkt b.stamp b.toLink)

/-- LINK_PACKET_RECEIVE, stamped with the exact count (R34, R36, log 56): what a link brings outside SYNC is discarded; a packet whose trailer fails is dropped and counted; a
link-local message is taken whatever its `dest`; other packets enter only on a link that is UP (R354, R355, R378, R381). -/
def linkReceive (k : LinkId) (w : WirePacket) (at16 : Nat) (s : State) : State :=
  let l := s.link k
  if l.state = .down ∨ l.state = .hunt ∨ !l.inSync then s
  else
    let s1 := s.setLink k { l with lastHeader := s.now, bad := 0 }
    if w.trailer ≠ w.pkt.trailer then trailerFail k s1
    else
      let a : Arrival := { pkt := w.pkt, edge := .link k, stamp := s.now, at16 := at16 }
      let s2 := s1.effects (countTraffic 0x01 k.val 1 w.pkt)
      if w.pkt.hdr.cls = 7#3 && linkLocal w.pkt.hdr.port then s2.toFunction a
      else if l.state ≠ .up then s2
      else if w.pkt.hdr.cls = 0#3 then s2.enterClass0 a
      else s2.relay a

/-! ### Host bulk ports -/

/-- Whether a host packet is malformed (R390, R392, R393). -/
def State.hostMalformed (s : State) (b : BulkId) (w : HostPacket) : Bool :=
  let h := w.pkt.hdr
  let listed := match s.plane.slots with
    | some t => t.entries.any (fun e => decide (e.slot = h.seq) && decide (e.inEdge = edgeByte (.host b)))
    | none => false
  decide (h.length.toNat = 0) || decide (128 < h.length.toNat) || decide (w.beats ≠ (16 + 64 * h.length.toNat + 127) / 128)
    || !w.framed || decide (w.vc.val ≠ vcOf h.cls) || (decide (h.cls = 0#3) && h.multicast && !listed)

/-- The header as the gate completes it: the slot identifier of class 0 is the host's (R357). -/
def State.completeHeader (s : State) (p : Packet) : Packet :=
  { p with hdr := { p.hdr with source := s.aon.node, mark := false, echo := false, gap := false,
                               seq := if p.hdr.cls = 0#3 then p.hdr.seq else 0#24 } }

/-- The beats of a packet that waits in a bulk port's receive buffer leave the host's credits (R391). -/
def State.useCredit (s : State) (b : BulkId) (p : Packet) : State :=
  let v := s.bulkPort b
  s.setBulk b { v with rxCredits := aset (vcOf p.hdr.cls) ((aget (vcOf p.hdr.cls) v.rxCredits).getD 0 - p.beats) v.rxCredits }

/-- A host packet of classes 1 to 7 enters the fabric. One that waits for its window, or text for the gate itself until it is
accepted or dropped, holds its receive buffer; every other one frees it at once, a screened one too, which is another packet
(R95, R368, R391, R395). -/
def State.hostEnter (s : State) (b : BulkId) (a : Arrival) : State :=
  if a.pkt.hdr.multicast then s.screened a (fun x t => t.enterGroup x)
  else if a.pkt.hdr.dest = s.aon.node then (if isText a.pkt then s.useCredit b a.pkt else s).deliver a
  else if a.pkt.hdr.cls = 7#3 then s.screened a (fun x t => t.forward x.pkt x.stamp x.toLink)
  else if s.cast.defaultState && isText a.pkt then s.screened a (fun x t => t.enterWindow { x with edge := .func })
  else (s.useCredit b a.pkt).enterWindow a

/-- HOST_PACKET_RECEIVE: a malformed packet is dropped and counted, with NTC_HOST (R393, R416). -/
def hostReceive (b : BulkId) (w : HostPacket) (s : State) : State :=
  if s.hostMalformed b w then
    let k : CtrKey := ⟨0x04, b.val, 32⟩
    s.effects [.count k 1, .notice 14 (hostDetail k b.val s.now)]
  else
    let p := s.completeHeader w.pkt
    let a : Arrival := { pkt := p, edge := .host b, stamp := s.now, at16 := 0 }
    let s1 := s.effects (countTraffic 0x04 b.val 1 p)
    if p.hdr.cls = 0#3 then s1.enterClass0 a else s1.hostEnter b a

/-! ### Meanings -/

/-- LINK_PACKET_RECEIVE (R24 to R27, R268, R354, R363, R366, R374, R378). -/
def execLinkPacketReceive (k : LinkId) (w : WirePacket) (at16 : Nat) (s : State) : Host.Outcome State Fault Refusal :=
  .next (linkReceive k w at16 s)

/-- HOST_PACKET_RECEIVE (R24 to R27, R268, R357, R391, R393). -/
def execHostPacketReceive (b : BulkId) (w : HostPacket) (s : State) : Host.Outcome State Fault Refusal := .next (hostReceive b w s)

end Sys2Proof.Machine
end

