-- ==== Sys2Proof/Machine/Queries.lean ====
section
/-! DEFINITION. Reads at a snapshot tick (R70, R86 to R88, R262, R493, R505, R518, R519) and the distance table (R236,
R237). -/

namespace Sys2Proof.Machine

/-! ### The stream context as bytes (R70) -/

/-- The code of a stream state (R72). -/
def streamStateCode : StreamState → Nat
  | .free => 0
  | .opening => 1
  | .live => 2
  | .holding => 3
  | .draining => 4
  | .halted => 5
  | .closed => 6

/-- A bit as its value. -/
def bitIf (b : Bool) (v : Nat) : Nat := if b then v else 0

/-- `hold_state` (R135). -/
def Stream.holdWord (st : Stream) : Nat :=
  bitIf st.holdActive (2 ^ 31) + st.holdDisp % 4 * 2 ^ 29 + st.holdEnd % 2 ^ 24

/-- The 128 header bytes; the release pointers of an ingress stream keep their initial 0 (R70, R133; log 43). -/
def Stream.headerBytes (st : Stream) : List Byte :=
  let flags := bitIf st.req.egress 1 + bitIf st.pinned 2 + bitIf st.req.awaitIngress 4 + bitIf st.ingressReceived 8
    + bitIf st.ingressLate 16 + bitIf st.empty 32
  let write := if st.req.egress then st.text.write else st.inp.seen.textWrite
  handleBytes st.handle ++ leBytes 2 st.req.tenant ++ leBytes 1 (streamStateCode st.state) ++ leBytes 1 flags
    ++ leBytes 4 st.committed ++ leBytes 4 st.epoch ++ leBytes 2 st.replyNode.toNat ++ [st.replyPort]
    ++ leBytes 1 st.stopReason ++ leBytes 8 st.openStamp ++ leBytes 8 st.boundary ++ leBytes 8 st.req.ingressHandle.toNat
    ++ leBytes 4 st.maxTokens ++ leBytes 2 st.grammar.state ++ leBytes 2 st.grammar.stack.length
    ++ leBytes 4 st.writeIndex ++ leBytes 4 st.releaseIndex ++ leBytes 4 st.rewindMark ++ leBytes 4 st.holdWord
    ++ leBytes 4 write ++ leBytes 4 st.textRelease ++ padTo 32 st.audit ++ leBytes 2 (st.lateMask % 64)
    ++ leBytes 1 st.req.stopSet ++ List.replicate 13 0#8

/-- The automata block: 8 entries. -/
def Stream.automataBytes (st : Stream) : List Byte :=
  padTo 64 ((st.awl.take 8).flatMap (fun a => leBytes 4 a.state.toNat ++ leBytes 4 a.lastEnd))

/-- The text state of an egress stream (R70, R130, R136). -/
def TextState.stateBytes (t : TextState) : List Byte :=
  let f := t.found.getD ⟨0, 0, 0, false, 0, 0⟩
  padTo 64 (padTo 3 t.carry ++ leBytes 1 t.carry.length ++ leBytes 4 t.carryHold ++ leBytes 4 t.stopLen
    ++ leBytes 4 t.stopState.toNat ++ leBytes 4 (t.write - t.stopLen) ++ leBytes 4 f.index ++ leBytes 2 f.offset
    ++ leBytes 1 (bitIf t.found.isSome 1 + bitIf f.inclusive 2) ++ leBytes 1 f.entry)

/-- The text state of an ingress stream as its last boundary committed it (R97, R104); `pretok_state` is the start state when no
pre-token is carried. -/
def IngressSeen.stateBytes (inp : IngressSeen) (start : Nat) : List Byte :=
  let c := inp.carry
  padTo 64 (padTo 3 (c.utf8.map (fun b => b.1)) ++ leBytes 1 c.utf8.length ++ leBytes 4 0 ++ leBytes 4 0
    ++ leBytes 4 inp.freeFrom ++ leBytes 4 ((c.state.map (fun v => v.toNat)).getD start) ++ leBytes 2 inp.segment
    ++ leBytes 1 inp.channel ++ leBytes 1 (bitIf inp.truncated 1 + bitIf inp.segmentOpen 2) ++ leBytes 4 inp.nextIndex
    ++ leBytes 4 inp.segmentBytes)

/-- The sampling block as the last boundary committed it (R86, R300). -/
def Stream.samplingBytes (st : Stream) : List Byte :=
  let p := st.seen
  padTo 64 (leBytes 2 p.grammarId ++ leBytes 2 0 ++ leBytes 4 p.temperature.toNat ++ leBytes 4 p.topK
    ++ leBytes 4 p.topP.toNat ++ leBytes 4 p.minP.toNat ++ leBytes 8 p.seed.toNat ++ leBytes 1 p.drafts ++ leBytes 3 0
    ++ leBytes 8 p.rng ++ leBytes 2 p.biasVector.toNat ++ leBytes 2 0 ++ leBytes 4 p.biasScale.toNat
    ++ leBytes 4 (p.logIndex.getD 0xFFFFFFFF))

/-- A counter as SNAPSHOT and the context give it: the count, and SAT in bit 48 (R71, R493). -/
def Counter.value (c : Counter) : Nat := c.count + bitIf c.sat (2 ^ 48)

/-- The 32 counter words of a stream (R71). -/
def Stream.words (st : Stream) : List Nat := (List.range 32).map (fun i => ((aget i st.counters).getD ⟨0, false⟩).value)

/-- An entry of the hold-back ring (R134). -/
def Stream.holdEntry (st : Stream) (e : HoldEntry) : Nat :=
  let valid := st.entryLive st.endPos e
  let held := (st.holdActive || st.awaiting) && decide (st.releaseIndex ≤ e.index)
  e.token % 2 ^ 20 + min e.bytes 255 * 2 ^ 20
    + (bitIf held 1 + bitIf e.late 2 + bitIf e.redacted 4 + bitIf valid 8) * 2 ^ 28

/-- A ring of `size` bytes that holds the newest bytes of a text written up to position `write`: the byte of position p
stands at p modulo the size. -/
def ringBytes (size write : Nat) (newestBytes : List Byte) : List Byte :=
  let kept := newest size newestBytes
  let lo := write - kept.length
  let turn := (size - lo % size) % size
  let flat := padTo size kept
  flat.drop turn ++ flat.take turn

/-- The 8,192 bytes of a stream's context (R70); the accumulators read 0 under a policy without armature tables (R186). -/
def State.contextBytes (s : State) (k : SlotId) (st : Stream) : List Byte :=
  let armed := ((s.policyOf st).bind (fun p => p.tables.armature)).isSome
  let start := match s.policyOf st with
    | none => 0
    | some p => match p.tables.skiver with
      | none => 0
      | some t => ((p.pretok t).map (fun (x : Automaton × AwlTables) => (x.1.startValue x.2.both k.val).toNat)).getD 0
  st.headerBytes ++ st.automataBytes
    ++ (if st.req.egress then st.text.stateBytes else st.inp.seen.stateBytes start) ++ st.samplingBytes
    ++ st.words.flatMap (leBytes 8)
    ++ (List.range 240).flatMap (fun i => leBytes 4 (if armed then (aget i st.acc).getD 0#32 else 0#32).toNat)
    ++ padTo 512 ((st.grammar.stack.take 256).flatMap (leBytes 2))
    ++ (List.range 512).flatMap (fun i =>
        leBytes 4 (match st.ring.find? (fun e => e.index % 512 = i) with | some e => st.holdEntry e | none => 0))
    ++ (if st.req.egress then ringBytes 4096 st.text.write st.text.ring else ringBytes 4096 st.inp.seen.textWrite st.inp.seen.ring)

/-! ### Judge frames (R261, R262) -/

/-- The item index of the committed item: the token's, or the ordinal of the last chunk that committed (R77, R261). -/
def Stream.committedItem (st : Stream) : Option Nat :=
  if st.req.egress then (if st.empty then none else some st.committed) else st.inp.lastChunk

/-- `sampled_through` at T: the token appended last at or before T; an ingress stream, which samples nothing, gives its last committed
index (R88; log 43). -/
def Stream.through (st : Stream) (t : Nat) : Nat :=
  if st.req.egress then
    match st.tokens.find? (fun x => decide (t < x.stamp)) with
    | some x => if x.index = 0 then 0xFFFFFFFF else x.index - 1
    | none => st.appended.getD 0xFFFFFFFF
  else st.lastIndex

/-- `in_flight` at T: tokens appended at or before T and not committed; 0 for an ingress stream (R88; log 43). -/
def Stream.flying (st : Stream) (t : Nat) : Nat := (st.tokens.filter (fun x => decide (x.stamp ≤ t))).length

/-- Whether a sampling step may still append at or before T (R88). -/
def Stream.stepDue (st : Stream) (t : Nat) : Bool := st.steps.any (fun x => !x.released && decide (x.release ≤ t))

/-- The frame of one stage when it is present. -/
def State.frame? (s : State) (g : JudgeStage) (k : SlotId) (item : Nat) : Option (List Byte) :=
  let f := Memory.bytes (s.cell (stageCell g k)).mem (frameAddr g k item) g.frameBytes
  if field f 0 4 = item % 2 ^ 32 ∧ fieldBit f 4 4 0 then some f else none

/-- The stages' frames: present ones, absent ones and stages there are none of (R262, R518). -/
def State.frames (s : State) (k : SlotId) (st : Stream) : List (Option (List Byte)) :=
  match st.committedItem, (s.policyOf st).bind (fun p => p.tables.judge) with
  | some n, some j => j.stages.map (fun g => s.frame? g k n)
  | _, _ => []

/-! ### One read -/

/-- What a read at T gives: status and body, the packet it sends to a queue, and the counters it clears. -/
structure Reading where
  status : Nat
  body : List Byte
  packet : Option (QueueId × Half × List (List Byte)) := none
  full : List Byte := []
  clears : List CtrKey := []
deriving DecidableEq, Repr

/-- Bodies of 56 bytes, the last filled with zeros. -/
def bodiesOf : Nat → List Byte → List (List Byte)
  | 0, _ => []
  | f + 1, bs => if bs.isEmpty then [] else padTo 56 (bs.take 56) :: bodiesOf f (bs.drop 56)

/-- A queue that a read may send items to: its number exists and the gate writes it (R518). -/
def State.exportQueue (s : State) (n : Nat) : Option QueueId :=
  (queueNumber n).bind (fun q => if (s.queue q).cfg.hostWrites then none else some q)

/-- STREAM_QUERY at T (R86, R88, R262, R518). -/
def State.readStream (s : State) (w : Waiting) : Reading :=
  match s.streamOf (field w.body 0 8) with
  | none => { status := Status.alreadyDone, body := [] }
  | some (k, st) =>
    let frames := s.frames k st
    let present := (frames.zipIdx.map (fun (x : Option (List Byte) × Nat) => bitIf x.1.isSome (2 ^ x.2))).sum
    let header := fun (exported : Nat) =>
      leBytes 8 w.due ++ leBytes 8 st.boundary ++ leBytes 4 (st.through w.due) ++ leBytes 4 (st.flying w.due) ++ leBytes 1 present
        ++ leBytes 1 exported ++ List.replicate 6 0#8
    let context := s.contextBytes k st
    let space := context ++ frames.flatMap (fun (f : Option (List Byte)) => padTo 2048 (f.getD []))
    let data := padTo (field w.body 10 2) (space.drop (field w.body 8 2))
    if field w.body 12 2 = 0xFFFF then { status := Status.ok, body := header 0 ++ data }
    else match s.exportQueue (field w.body 12 2) with
      | none => { status := Status.crossref, body := [] }
      | some q =>
        let raw := header 1 ++ context ++ (frames.filterMap id).flatten
        { status := Status.ok, body := header 1 ++ data, packet := some (q, 0x0008#16, bodiesOf 512 raw) }

/-- The counters of a group and index, by key or by value; none when the group or index does not exist (R519). -/
def State.groupKeys (s : State) (group index : Nat) : Option (List CtrKey) :=
  let upTo := fun (n : Nat) => some ((List.range n).map (fun p => (⟨group, index, p⟩ : CtrKey)))
  let only := fun (n : Nat) => if index = 0 then upTo n else none
  match group with
  | 0x01 => if index < 64 then upTo 38 else none
  | 0x02 => only 14
  | 0x03 => only (match s.plane.slots with | some t => t.entries.length | none => 0)
  | 0x04 => if index < 16 then upTo 33 else none
  | 0x05 => if index < 512 then upTo 3 else none
  | 0x06 => only 17
  | 0x07 => only 11
  | 0x08 => only 5
  | 0x09 => if index < 2 then upTo 256 else none
  | 0x0A => only 8
  | 0x0B => only 11
  | 0x0C => only 256
  | 0x0D => only 11
  | 0x0E => only 18
  | 0x0F => only 15
  | 0x10 => if [1, 2, 3, 4, 5, 0x10, 0x11, 0x12, 0x13, 0x14, 0x15].contains index then upTo 2 else none
  | 0x11 => only 14
  | 0x12 => only 5
  | 0x13 => only 8
  | 0x14 => only 4
  | 0x17 => only 5
  | _ => none

/-- Groups whose reads restart the peaks they return (R519). -/
def peakGroup (group : Nat) : Bool := decide (group = 0x09) || decide (group = 0x0C)

/-- The values of a group with the keys they stand for; group 0x15 is the stream's words, and 0x16 a tenant's (R519). A
stale handle gives the status ALREADY_DONE. -/
def State.groupValues (s : State) (group index handle : Nat) : Except Nat (List (Nat × Option CtrKey)) :=
  if group = 0x15 then
    if index ≠ 0 then .error Status.crossref
    else match s.streamOf handle with
      | none => .error Status.alreadyDone
      | some (_, st) => .ok (st.words.map (fun v => (v, none)))
  else if group = 0x16 then
    .ok [((s.counter ⟨0x16, index, 0⟩).value, none), ((s.counter ⟨0x16, index, 1⟩).value, none),
         ((aget index s.ctl.budgets).getD maxCount, none)]
  else match s.groupKeys group index with
    | none => .error Status.crossref
    | some ks => .ok (ks.map (fun k => ((s.counter k).value, some k)))

/-- SNAPSHOT at T (R86, R493, R518, R519); R517's layout has no place for a stream's `boundary_stamp` in the answer for group 0x15
(log 43). -/
def State.readCounters (s : State) (w : Waiting) : Reading :=
  let group := field w.body 0 2
  let clear := fieldBit w.body 6 2 0
  let toQueue := fieldBit w.body 6 2 1
  match s.groupValues group (field w.body 2 2) (field w.body 8 8) with
  | .error e => { status := e, body := [] }
  | .ok values =>
    let picked := (values.drop (field w.body 4 2)).take (if toQueue then 1783 else 27)
    let data := picked.flatMap (fun v => leBytes 8 v.1)
    let header := leBytes 8 w.due ++ leBytes 2 values.length ++ leBytes 2 picked.length ++ List.replicate 4 0#8
    let clears := if clear || peakGroup group then picked.filterMap (fun v => v.2) else []
    if !toQueue then { status := Status.ok, body := header ++ data, clears := clears }
    else match s.exportQueue (field w.body 16 2) with
      | none => { status := Status.crossref, body := [] }
      | some q =>
        { status := Status.ok, body := header, packet := some (q, 0x0009#16, bodiesOf 512 (header ++ data)), clears := clears }

/-- The mean of a half's estimates over the last millisecond, in 0.1 W (R505). -/
def HalfPower.average (h : HalfPower) : Nat := if h.history.isEmpty then h.estimate else (h.history.map (fun x => x.2)).sum / h.history.length

/-- The gate's 1 ms average, in 0.1 W. -/
def State.gateAverage (s : State) : Nat := s.power.north.average + s.power.south.average

/-- TELEMETRY_READ at T (R505, R517). -/
def State.readTelemetry (s : State) (w : Waiting) : Reading :=
  let n := s.power.north
  let d := s.power.south
  let two := fun (x : Nat) => leBytes 2 (min x 65535)
  { status := Status.ok,
    body := leBytes 8 w.due ++ two n.estimate ++ two d.estimate ++ two n.average ++ two d.average ++ two s.gateAverage
      ++ two s.power.cap ++ s.power.currents.flatMap two ++ two n.run ++ two d.run ++ two n.throttle ++ two d.throttle
      ++ leBytes 2 0 ++ s.power.sensors.flatMap (leInt 2) }

/-- The commands that read at a snapshot tick. -/
def snapshotCode (code : Nat) : Bool := [0x0204, 0x0301, 0x0304].contains code

/-- The reading of a waiting command. -/
def State.reading (s : State) (w : Waiting) : Reading :=
  if w.code = 0x0204 then s.readStream w else if w.code = 0x0301 then s.readCounters w else s.readTelemetry w

/-- Zero a counter that a read at T gave with the value then: later events stay counted (R493). -/
def State.clearCounter (s : State) (k : CtrKey) (was : Nat) : State :=
  { s with ctl := { s.ctl with counters := aset k ⟨(s.counter k).count - was, false⟩ s.ctl.counters } }

/-- Answer one read from what stood at T, writing its packet: one that does not fit answers BUSY and clears nothing. -/
def State.answerReading (s : State) (w : Waiting) (r : Reading) : State × List CtrKey :=
  match r.packet with
  | none => (s.finishWaiting w r.status r.body, r.clears)
  | some (q, tag, bodies) =>
    if s.packetFits q bodies.length then
      ((s.finishWaiting w r.status r.body).effects [.packet q tag none bodies], r.clears)
    else (s.finishWaiting w Status.busy [], [])

/-- Answer reads of one tick in their order. -/
def answerReadings (at' : State) : List Waiting → State → List CtrKey → State × List CtrKey
  | [], s, ks => (s, ks)
  | w :: ws, s, ks =>
    let r := s.answerReading w (at'.reading w)
    answerReadings at' ws r.1 (ks ++ r.2)

/-- SNAPSHOT_TICK: when nothing commits at or before T any more, every read of T is answered from one state; then the
counters that reads clear are zeroed (R86, R87, R493). -/
def snapshotTick (s0 : State) : State :=
  match s0.ctl.waiting.find? Waiting.atBoundary with
  | none => s0
  | some w =>
    if !snapshotCode w.code || decide (s0.now < w.due) || s0.streams.table.any (fun e => e.2.owes w.due || e.2.stepDue w.due) then s0
    else
      let s := s0.arbitrateAll w.due
      let ws := (s.ctl.waiting.filter Waiting.atBoundary).takeWhile (fun x => snapshotCode x.code && decide (x.due = w.due))
      let r := answerReadings s ws s []
      r.2.eraseDups.foldl (fun (t : State) k => t.clearCounter k (s.counter k).count) r.1

/-- Let a read wait for its snapshot tick, behind every command of the same stamp that commits at a boundary (R86, R87). -/
def State.waitSnapshot (s : State) (c : Cmd) : State :=
  let w : Waiting := { code := c.code, from? := some (c.port, c.slot), accept := c.accept,
                       order := 1000 + slotOrder c.port c.slot, due := boundaryOf c.accept, body := c.body.take c.len }
  { s with ctl := { s.ctl with waiting := insertWaiting w s.ctl.waiting } }

/-- STREAM_QUERY's acceptance: `offset` a multiple of 8 below 0x6000, `length` 8 to 200, a queue that exists, a handle that
is not stale (R516, R517, R518). -/
def runStreamQuery (c : Cmd) (s : State) : State :=
  let off := field c.body 8 2
  let len := field c.body 10 2
  let q := field c.body 12 2
  if off % 8 ≠ 0 ∨ 0x6000 ≤ off ∨ len < 8 ∨ 200 < len ∨ (q ≠ 0xFFFF ∧ 511 < q) then s.answer c Status.crossref []
  else match s.streamOf (field c.body 0 8) with
    | none => s.answer c Status.alreadyDone []
    | some _ => s.waitSnapshot c

/-- SNAPSHOT's acceptance: a group and index that exist; `clear` not with groups 0x15 and 0x16 (R516, R518, R519). -/
def runSnapshot (c : Cmd) (s : State) : State :=
  let group := field c.body 0 2
  if fieldBit c.body 6 2 0 && (decide (group = 0x15) || decide (group = 0x16)) then s.answer c Status.crossref []
  else match s.groupValues group (field c.body 2 2) (field c.body 8 8) with
    | .error e => s.answer c e []
    | .ok _ => s.waitSnapshot c

/-! ### The distance table (R236, R237) -/

/-- Ticks of one arithmetic cycle at a clock point (R232). -/
def cycleTicks (mhz : Nat) : Nat := if mhz = 0 then 0 else 1600 / mhz

/-- Round an amount of arithmetic cycles, in 1,600ths of a tick per MHz, up to whole ticks. -/
def cyclesUp (cycles mhz : Nat) : Nat := (1600 * cycles + mhz - 1) / max 1 mhz

/-- An entry of the distance table (R228, R232, R235, R237); a bypassed bench on the path adds a hop (R478). A memory write's round trip and a path over the welt between halves
at different clock points are free values: no rule gives them (log 44). -/
def State.distanceEntry (s : State) (b d : Nat) : Nat :=
  let src := benchAt b
  let dst := destinationAt d
  let h := s.rel.pathHops src dst
  let cross := decide (src.2 < 8) != decide (dst.2 < 8)
  let fn := s.power.north.point
  let fs := s.power.south.point
  let f := if src.2 < 8 then fs else fn
  let mixed := cross && decide (fn ≠ fs)
  let isShort := benchShort (s.rel.bench (BitVec.ofNat 8 b))
    || (decide (80 ≤ d) && benchShort (s.rel.bench (BitVec.ofNat 8 (d - 80))))
  if 64 ≤ d ∧ d < 80 ∧ d % 8 = 7 then 0
  else if isShort then 2 ^ 46
  else
    let bulk := if mixed then (Config.pathTicks 0 b d fn fs).toNat
      else if d < 64 then cyclesUp (6 + 4 * h) f + 24 + bitIf cross 32
      else cyclesUp (4 + 2 * h) f + bitIf cross 16
    let msg := if mixed || decide (d < 64) then (Config.pathTicks 1 b d fn fs).toNat
      else cyclesUp (2 + h) f + bitIf cross 8
    msg % 65536 + bulk % 65536 * 2 ^ 16 + bitIf cross (2 ^ 47) + h * 2 ^ 48

/-- The 64-byte header of the distance table. -/
def State.distanceHeader (s : State) : List Byte :=
  leBytes 4 0x44544756 ++ leBytes 2 3 ++ leBytes 2 336 ++ s.distanceId ++ s.capabilityId ++ leBytes 2 s.power.north.point
    ++ leBytes 2 s.power.south.point ++ List.replicate 36 0#8

/-- Bytes of the distance table. -/
def distanceBytes : Nat := 64 + 256 * 336 * 8

/-- The 8 bytes of the table at a multiple of 8. -/
def State.distanceWord (s : State) (off : Nat) : List Byte :=
  if off < 64 then (s.distanceHeader.drop off).take 8
  else leBytes 8 (s.distanceEntry ((off - 64) / 8 / 336) ((off - 64) / 8 % 336))

/-- DISTANCE_READ's effect: a page of at most 216 bytes (R518). -/
def runDistanceRead (c : Cmd) (s : State) : State :=
  let off := field c.body 0 4
  if distanceBytes ≤ off ∨ off % 8 ≠ 0 then s.answer c Status.crossref []
  else
    let n := min 27 ((distanceBytes - off) / 8)
    let page := (List.range n).flatMap (fun i => s.distanceWord (off + 8 * i))
    s.answer c Status.ok (s.distanceId ++ leBytes 2 page.length ++ List.replicate 6 0#8 ++ page)

/-! ### Meanings -/

/-- STREAM_QUERY (R60, R86, R518). -/
def execStreamQuery (p : MPort) (n : Fin 32) (s : State) : Host.Outcome State Fault Refusal :=
  .next (s.startCmd p n 0x0204 14 runStreamQuery)

/-- SNAPSHOT (R86, R518). -/
def execSnapshot (p : MPort) (n : Fin 32) (s : State) : Host.Outcome State Fault Refusal :=
  .next (s.startCmd p n 0x0301 18 runSnapshot)

/-- TELEMETRY_READ (R86, R505). -/
def execTelemetryRead (p : MPort) (n : Fin 32) (s : State) : Host.Outcome State Fault Refusal :=
  .next (s.startCmd p n 0x0304 0 (fun c t => t.waitSnapshot c))

/-- DISTANCE_READ (R236, R237, R518). -/
def execDistanceRead (p : MPort) (n : Fin 32) (s : State) : Host.Outcome State Fault Refusal :=
  .next (s.startCmd p n 0x0303 4 runDistanceRead)

/-- SNAPSHOT_TICK (R86 to R88, R262, R493, R519). -/
def execSnapshotTick (s : State) : Host.Outcome State Fault Refusal := .next (snapshotTick s)

end Sys2Proof.Machine
end

