-- ==== Sys2Proof/Machine/Sections.lean ====
section
/-! DEFINITION. The engine sections of a bundle read from their bytes (R100 to R108, R124, R125, R149, R164 to R168, R185 to R200,
R260, R269 to R277, R298 to R306, R318, R326). The manual gives the layout of every descriptor and every table entry; where a
table stands in its section's content it does not say, so a `SectionMap` gives that with the staging (log 47). -/

namespace Sys2Proof.Machine

/-! ### Records -/

/-- `n` records of `size` bytes from an offset on. -/
def recordsAt (b : List Byte) (off size n : Nat) : List (List Byte) :=
  (List.range n).map (fun i => (b.drop (off + size * i)).take size)

/-- The whole records of `size` bytes that a table holds. -/
def tableRows (size : Nat) (b : List Byte) : List (List Byte) := recordsAt b 0 size (b.length / size)

/-- A table's records under their numbers. -/
def numbered {α : Type} (size : Nat) (read : List Byte → α) (b : List Byte) : List (Nat × α) :=
  (tableRows size b).zipIdx.map (fun x => (x.2, read x.1))

/-- A word field as a word. -/
def wordAt (b : List Byte) (off : Nat) : Word := BitVec.ofNat 32 (field b off 4)

/-- Whether reserved fields, each an offset and a size, are zero (R10, R524). -/
def zeroed (b : List Byte) (spans : List (Nat × Nat)) : Bool := spans.all (fun x => decide (field b x.1 x.2 = 0))

/-- Bits lo to hi of a number. -/
def bitsOf (v lo hi : Nat) : Nat := v / 2 ^ lo % 2 ^ (hi + 1 - lo)

/-- Whether a byte of `halves` names at least one half and nothing else (R164, R185, R298, R326). -/
def halvesSound (v : Nat) : Bool := decide (1 ≤ v) && decide (v ≤ 3)

/-- A tenant map: ingress in bits 7:0, egress in bits 15:8 (R168, R186, R326). -/
def readTenants (b : List Byte) : List (Nat × (Nat × Nat)) := numbered 2 (fun e => (field e 0 1, field e 1 1)) b

/-- A list of numbers of 2 bytes. -/
def readNumbers (b : List Byte) : List Nat := (tableRows 2 b).map (fun e => field e 0 2)

end Sys2Proof.Machine

namespace Sys2Proof
open Machine

/-- A table's bytes in its section's content. -/
def SectionMap.table (m : SectionMap) (kind n : Nat) (b : List Byte) : List Byte :=
  match m.spans.find? (fun t => decide (t.kind = kind) && decide (t.table = n)) with
  | some t => (b.drop t.offset).take t.bytes
  | none => []

/-! ### Skiver tables: 1 special tokens, 2 byte map, 3 vocabulary hash, 4 token byte pool, 5 merge table -/

/-- A special-token entry (R100). -/
def readSpecial (e : List Byte) : SpecialToken :=
  { tokenId := field e 0 4 % 2 ^ 20, spelling := (e.drop 16).take (field e 4 1), isDefined := fieldBit e 5 1 0 }

/-- An occupied vocabulary slot (R107). -/
def readVocab (e : List Byte) : Option VocabSlot :=
  let v := field e 0 8
  if v.testBit 31 then
    some { poolOffset := bitsOf v 40 63, length := bitsOf v 32 39, wholeOk := v.testBit 30, fingerprint := bitsOf v 20 29,
           tokenId := bitsOf v 0 19 }
  else none

/-- An occupied merge slot (R108). -/
def readMerge (e : List Byte) : Option MergeSlot :=
  let v := field e 0 16
  if v.testBit 127 then
    some { rank := bitsOf v 64 84, result := bitsOf v 40 59, right := bitsOf v 20 39, left := bitsOf v 0 19 }
  else none

/-- The occupied slots of a hash table. -/
def occupied {α : Type} (l : List (Nat × Option α)) : List (Nat × α) := l.filterMap (fun x => x.2.map (fun v => (x.1, v)))

/-- Section 0x10 (R100, R105 to R108). -/
def SectionMap.skiver (m : SectionMap) (b : List Byte) : SkiverTables :=
  let table := fun (n : Nat) => m.table 0x10 n b
  { magic := wordAt b 0, chunkBytes := field b 4 2, unitMask := byteField b 6, templateFromHost := fieldBit b 7 1 0,
    segmentLimit := field b 8 4, controlMode := BitVec.ofNat 64 (field b 12 8), pretokAutomaton := field b 20 4,
    vocabCount := field b 24 4, mergeCount := field b 28 4, specialCount := field b 32 2,
    senders := (List.range (min 16 (field b 34 2))).map (fun i => nodeField b (64 + 2 * i)),
    specials := numbered 48 readSpecial (table 1), byteMap := numbered 4 (fun e => field e 0 4 % 2 ^ 20) (table 2),
    vocab := occupied (numbered 8 readVocab (table 3)), pool := table 4, merges := occupied (numbered 16 readMerge (table 5)) }

/-- Its sizes, and fields that can mean nothing. -/
def SectionMap.skiverSound (m : SectionMap) (b : List Byte) : Bool :=
  let table := fun (n : Nat) => m.table 0x10 n b
  decide (96 ≤ b.length) && zeroed b [(36, 28)] && decide (field b 7 1 ≤ 1) && decide (field b 34 2 ≤ 16)
    && (recordsAt b 64 2 16).all (fun e => decide (field e 0 2 < 4096))
    && decide ((table 1).length % 48 = 0) && decide ((table 1).length ≤ 4096 * 48)
    && (tableRows 48 (table 1)).all (fun e => decide (field e 0 4 < 2 ^ 20) && decide (field e 4 1 ≤ 32) && decide (field e 5 1 ≤ 1)
      && zeroed e [(6, 10)])
    && decide ((table 2).length = 256 * 4) && (tableRows 4 (table 2)).all (fun e => decide (field e 0 4 < 2 ^ 20))
    && decide ((table 3).length = 4194304 * 8) && decide ((table 5).length = 4194304 * 16)
    && (tableRows 16 (table 5)).all (fun e => decide (bitsOf (field e 0 16) 85 126 = 0) && decide (bitsOf (field e 0 16) 60 63 = 0))

/-! ### Egress tables: 1 detokenizer table, 2 token byte pool, 16 + i stop set i -/

/-- A detokenizer entry (R125). -/
def readDetok (e : List Byte) : DetokEntry :=
  let v := field e 0 8
  { poolOffset := bitsOf v 40 63, length := bitsOf v 32 39, ends := v.testBit 31, kind := bitsOf v 29 30 }

/-- A stop-string entry (R149). -/
def readStop (e : List Byte) : StopString := { inclusive := fieldBit e 2 1 0, text := (e.drop 4).take (field e 0 2) }

/-- Section 0x11 (R124, R125, R149). -/
def SectionMap.egress (m : SectionMap) (b : List Byte) : EgressTables :=
  { magic := wordAt b 0, idLimit := field b 4 4, defaultOverflow := field b 8 1, hideRedactLength := fieldBit b 9 1 0,
    detok := numbered 8 readDetok (m.table 0x11 1 b), pool := m.table 0x11 2 b,
    stopSets := (List.range (field b 10 2)).map (fun i => (tableRows 260 (m.table 0x11 (16 + i) b)).map readStop) }

/-- Its sizes, and fields that can mean nothing. -/
def SectionMap.egressSound (m : SectionMap) (b : List Byte) : Bool :=
  decide (64 ≤ b.length) && zeroed b [(12, 52)] && decide (field b 9 1 ≤ 1) && decide (field b 10 2 ≤ 256)
    && decide ((m.table 0x11 1 b).length = 8 * field b 4 4)
    && (tableRows 8 (m.table 0x11 1 b)).all (fun e => decide (bitsOf (field e 0 8) 0 28 = 0))
    && (List.range (field b 10 2)).all (fun i =>
      let set := m.table 0x11 (16 + i) b
      decide (set.length % 260 = 0) && (tableRows 260 set).all (fun e =>
        decide (1 ≤ field e 0 2) && decide (field e 0 2 ≤ 256) && decide (field e 2 1 ≤ 1) && zeroed e [(3, 1)]
          && (e.drop (4 + field e 0 2)).all (fun x => decide (x = 0#8))))

/-! ### Awl tables: 1 directory, 2 class maps, 3 report records, 4 set table, 5 tenant map; the class maps and the report records
stand in directory order (log 47) -/

/-- A report record (R166). -/
def readReport (e : List Byte) : AwlReport := { groups := wordAt e 0, length := field e 4 2, pattern := field e 6 2 }

/-- A directory entry with its class map and report records (R165, R166). -/
def readAutomaton (e classMap : List Byte) (reports : List AwlReport) : Automaton :=
  { kind := field e 0 1, sub := field e 1 1, classes := field e 2 2, firstLane := field e 4 2, replicas := field e 6 2,
    base := field e 8 2, start := field e 10 2, entries := field e 12 4, ingress := fieldBit e 18 2 0, egress := fieldBit e 18 2 1,
    channels := bitsOf (field e 18 2) 2 3, segmentReset := fieldBit e 18 2 4, contentId := BitVec.ofNat 64 (field e 24 8),
    classMap := classMap.map (fun x => x.toNat), reports := reports }

/-- The automata of a directory, whose report records follow one another. -/
def readDirectory (reports : List (List Byte)) (maps : List Byte) : List (List Byte) → Nat → Nat → List Automaton
  | [], _, _ => []
  | e :: es, i, first =>
    let n := field e 16 2
    readAutomaton e ((maps.drop (256 * i)).take 256) (((reports.drop first).take n).map readReport)
      :: readDirectory reports maps es (i + 1) (first + n)

/-- The transition words of a section's slice contents, by lane and row offset (R159, R164). Both halves' copies are identical
(R160), so one list stands for both. -/
def SectionMap.words (m : SectionMap) (b : List Byte) : List ((Nat × Nat) × Word) :=
  m.slices.flatMap (fun x => (recordsAt b x.offset 4 x.entries).zipIdx.map (fun e => ((x.lane, x.first + e.2), wordAt e.1 0)))

/-- Section 0x12 (R164 to R168). -/
def SectionMap.awl (m : SectionMap) (b : List Byte) : AwlTables :=
  { magic := wordAt b 0, northServes := fieldBit b 7 1 0, southServes := fieldBit b 7 1 1,
    automata := readDirectory (tableRows 8 (m.table 0x12 3 b)) (m.table 0x12 2 b) (recordsAt (m.table 0x12 1 b) 0 32 (field b 4 2)) 0 0,
    words := m.words b, sets := (recordsAt (m.table 0x12 4 b) 0 16 (field b 6 1)).map readNumbers,
    tenantMap := readTenants (m.table 0x12 5 b) }

/-- Its sizes, and fields that can mean nothing. -/
def SectionMap.awlSound (m : SectionMap) (b : List Byte) : Bool :=
  let dir := recordsAt (m.table 0x12 1 b) 0 32 (field b 4 2)
  decide (64 ≤ b.length) && zeroed b [(8, 56)] && halvesSound (field b 7 1)
    && decide ((m.table 0x12 1 b).length = 32 * field b 4 2) && decide ((m.table 0x12 2 b).length = 256 * field b 4 2)
    && decide ((m.table 0x12 3 b).length = 8 * (dir.map (fun e => field e 16 2)).sum)
    && dir.all (fun e => decide (field e 18 2 < 32) && zeroed e [(20, 4)])
    && decide ((m.table 0x12 4 b).length = 16 * field b 6 1) && decide ((m.table 0x12 5 b).length = 65536 * 2)
    && m.slices.all (fun x => decide (x.lane < 256) && decide (x.first + x.entries ≤ 65536)
      && decide (x.offset + 4 * x.entries ≤ b.length))
    && (m.words b).all (fun w => !w.2.getLsbD 31)

/-- The slices that a section's contents use: each occupies 256 KiB in each half (R160). -/
def SectionMap.usedSlices (m : SectionMap) : Nat := ((m.slices.map (fun x => x.lane)).eraseDups).length

/-! ### Armature tables: 1 initial table, 2 feature plan, 3 edge tables, 4 nodes, 5 bitmaps, 6 ensembles, 7 trees, 8 sets,
9 tenant map -/

/-- A feature plan entry (R187). -/
def readFeature (e : List Byte) : FeatureEntry :=
  { srcKind := bitsOf (field e 0 2) 12 15, srcIndex := bitsOf (field e 0 2) 0 11, op := field e 2 1, categorical := fieldBit e 3 1 0,
    inputIsFeature := fieldBit e 3 1 1, a := wordAt e 4, b := wordAt e 8, accWord := field e 12 2, field := field e 14 2 }

/-- A tree node (R197). -/
def readNode (e : List Byte) : TreeNode :=
  let v := field e 0 16
  { right := bitsOf v 70 91, left := bitsOf v 48 69, defaultRight := v.testBit 44, kind := bitsOf v 42 43, feature := bitsOf v 32 41,
    operand := wordAt e 0 }

/-- An ensemble entry, whose tree count is held less one (R200). -/
def readEnsemble (e : List Byte) : Ensemble :=
  { firstTree := field e 0 4, trees := field e 4 2 + 1, link := field e 6 1, base := wordAt e 8, errorValue := wordAt e 12,
    worst := wordAt e 16, neutral := wordAt e 20 }

/-- A tree entry (R200). -/
def readTree (e : List Byte) : TreeEntry :=
  let v := field e 0 8
  { pipeline := bitsOf v 28 31, depth := bitsOf v 22 27, root := bitsOf v 0 21 }

/-- Section 0x13 (R185 to R200). -/
def SectionMap.armature (m : SectionMap) (b : List Byte) : ArmatureTables :=
  let table := fun (n : Nat) => m.table 0x13 n b
  { magic := wordAt b 0, egressOffset := field b 20 4, ingressOffset := field b 24 4, northServes := fieldBit b 28 1 0,
    southServes := fieldBit b 28 1 1, layoutId := BitVec.ofNat 64 (field b 32 8), hostWords := BitVec.ofNat 256 (field b 64 32),
    initial := numbered 4 (fun e => wordAt e 0) (table 1), features := (tableRows 16 (table 2)).map readFeature,
    edges := (tableRows 256 (table 3)).map (fun e => (tableRows 4 e).map (fun w => wordAt w 0)),
    nodes := numbered 16 readNode (table 4), bitmaps := (tableRows 32 (table 5)).map (fun e => BitVec.ofNat 256 (field e 0 32)),
    ensembles := (tableRows 32 (table 6)).map readEnsemble, trees := (tableRows 8 (table 7)).map readTree,
    sets := (tableRows 32 (table 8)).map readNumbers, tenantMap := readTenants (table 9) }

/-- Its sizes, and fields that can mean nothing. -/
def SectionMap.armatureSound (m : SectionMap) (b : List Byte) : Bool :=
  let size := fun (n : Nat) => (m.table 0x13 n b).length
  decide (96 ≤ b.length) && zeroed b [(29, 3), (40, 24)] && halvesSound (field b 28 1)
    && decide (size 1 = 240 * 4) && decide (size 2 = 16 * field b 4 2) && decide (size 3 % 256 = 0)
    && decide (size 4 = 16 * field b 12 4) && decide (size 5 = 32 * field b 16 4) && decide (size 6 = 32 * field b 6 1)
    && decide (size 7 = 8 * field b 8 4) && decide (size 8 = 32 * field b 7 1) && decide (size 9 = 65536 * 2)
    && (tableRows 16 (m.table 0x13 2 b)).all (fun e => decide (field e 3 1 ≤ 3))
    && (tableRows 16 (m.table 0x13 4 b)).all (fun e =>
      decide (bitsOf (field e 0 16) 92 127 = 0) && decide (bitsOf (field e 0 16) 45 47 = 0))
    && (tableRows 32 (m.table 0x13 6 b)).all (fun e => zeroed e [(7, 1), (24, 8)])
    && (tableRows 8 (m.table 0x13 7 b)).all (fun e => zeroed e [(4, 4)])

/-! ### Callipers tables: 1 tap table, 2 probe table, 3 weight image, 4 cell-list table, in which a probe's `list` is a byte
offset (log 47) -/

/-- A node to match; 0xFFFF matches any (R270). -/
def readMatch (v : Nat) : Option NodeId := if v = 0xFFFF then none else some (BitVec.ofNat 12 v)

/-- A tap declaration (R270). -/
def readTap (e : List Byte) : TapDecl :=
  { edge := field e 0 1, south := fieldBit e 1 1 0, sourceNode := readMatch (field e 2 2), destNode := readMatch (field e 4 2),
    destPort := byteField e 6, inFormat := field e 7 1, elements := field e 8 2, rows := field e 10 2, rowBytes := field e 12 4,
    probeFirst := field e 16 2, probeN := field e 18 1, window := field e 20 4, layoutId := BitVec.ofNat 64 (field e 24 8) }

/-- A list of cells. -/
def readCells (b : List Byte) (off n : Nat) : List CellId := (recordsAt b off 2 n).map (fun e => BitVec.ofNat 12 (field e 0 2))

/-- A probe (R277). -/
def readProbe (cells e : List Byte) : ProbeDecl :=
  { mlp := fieldBit e 0 1 0, fmt := field e 1 1, actFmt := field e 2 1, link := field e 3 1, outputs := field e 4 2,
    scores := field e 6 1, steering := fieldBit e 7 1 0, accShift := signedOf 8 (field e 8 1), contributionId := field e 10 2,
    weights := field e 12 4, bias := field e 16 4, handler := field e 22 1, cellList := readCells cells (field e 24 4) (field e 20 2),
    worst := wordAt e 28, neutral := wordAt e 32, areaBase := field e 36 4 }

/-- Section 0x14 (R269, R270, R277). -/
def SectionMap.callipers (m : SectionMap) (b : List Byte) : CallipersTables :=
  { magic := wordAt b 0, taps := (recordsAt (m.table 0x14 1 b) 0 32 (field b 4 2)).map readTap,
    probes := (recordsAt (m.table 0x14 2 b) 0 48 (field b 6 2)).map (readProbe (m.table 0x14 4 b)),
    weightImage := m.table 0x14 3 b }

/-- Its sizes, and fields that can mean nothing. -/
def SectionMap.callipersSound (m : SectionMap) (b : List Byte) : Bool :=
  let size := fun (n : Nat) => (m.table 0x14 n b).length
  let cells := m.table 0x14 4 b
  let match' := fun (v : Nat) => decide (v = 0xFFFF) || decide (v < 4096)
  decide (64 ≤ b.length) && zeroed b [(16, 48)] && decide (size 1 = 32 * field b 4 2) && decide (size 2 = 48 * field b 6 2)
    && decide (size 3 = field b 8 4) && decide (size 4 = field b 12 4)
    && (tableRows 32 (m.table 0x14 1 b)).all (fun e => decide (field e 1 1 ≤ 1) && match' (field e 2 2) && match' (field e 4 2)
      && zeroed e [(19, 1)])
    && (tableRows 48 (m.table 0x14 2 b)).all (fun e => decide (field e 0 1 ≤ 1) && decide (field e 7 1 ≤ 1)
      && zeroed e [(9, 1), (23, 1), (40, 8)]
      && (decide (field e 20 2 = 0) || decide (field e 24 4 + 2 * field e 20 2 ≤ cells.length))
      && (recordsAt cells (field e 24 4) 2 (field e 20 2)).all (fun c => decide (field c 0 2 < 4096)))

/-! ### Sampler tables: 1 grammar directory, 2 states, 3 mask rows, 4 actions, 5 class map, 6 bias directory, 7 bias vectors, in
which a directory entry's `offset` counts -/

/-- A grammar state (R304). -/
def readState (e : List Byte) : GrammarState :=
  { isFinal := fieldBit e 0 8 48, maskRow := bitsOf (field e 0 8) 32 47, actionBase := bitsOf (field e 0 8) 0 31 }

/-- A mask row (R305). -/
def readRow (e : List Byte) : MaskRow :=
  { allow := BitVec.ofNat 4096 (field e 0 512), need1 := BitVec.ofNat 4096 (field e 512 512),
    need2 := BitVec.ofNat 4096 (field e 1024 512) }

/-- A grammar action (R306). -/
def readAction (e : List Byte) : GrammarAction :=
  let v := field e 0 8
  { returns := v.testBit 52, pushes := bitsOf v 50 51, pops := bitsOf v 48 49, push1 := bitsOf v 32 47, push0 := bitsOf v 16 31,
    target := bitsOf v 0 15 }

/-- A bias vector by its directory entry (R318). -/
def readBias (vectors e : List Byte) : List (Nat × Word) :=
  (recordsAt vectors (field e 0 4) 8 (field e 4 2)).map (fun x => (field x 0 4 % 2 ^ 20, wordAt x 4))

/-- Section 0x15 (R298, R303 to R306, R318). -/
def SectionMap.sampler (m : SectionMap) (b : List Byte) : SamplerTables :=
  let table := fun (n : Nat) => m.table 0x15 n b
  { magic := wordAt b 0, vocab := field b 4 4, maxDrafts := field b 8 1, northServes := fieldBit b 9 1 0,
    southServes := fieldBit b 9 1 1, tokenPort := byteField b 10, tokenGroup := field b 12 2, classCount := field b 20 2,
    grammarStreams := field b 30 2, logitWindow := field b 32 4,
    grammars := (tableRows 16 (table 1)).map (fun e => (field e 0 2, BitVec.ofNat 64 (field e 8 8))),
    states := numbered 8 readState (table 2), rows := (tableRows 1536 (table 3)).map readRow,
    actions := numbered 8 readAction (table 4), classMap := numbered 2 (fun e => field e 0 2 % 4096) (table 5),
    biases := (tableRows 8 (table 6)).map (readBias (table 7)) }

/-- Its sizes, and fields that can mean nothing. -/
def SectionMap.samplerSound (m : SectionMap) (b : List Byte) : Bool :=
  let table := fun (n : Nat) => m.table 0x15 n b
  let size := fun (n : Nat) => (m.table 0x15 n b).length
  decide (64 ≤ b.length) && zeroed b [(11, 1), (36, 28)] && halvesSound (field b 9 1)
    && decide (size 1 = 16 * field b 14 2) && decide (size 2 = 8 * field b 16 4) && decide (size 3 = 1536 * field b 22 2)
    && decide (size 4 = 8 * field b 24 4) && decide (size 5 = 2 * field b 4 4) && decide (size 6 = 8 * field b 28 2)
    && (tableRows 16 (table 1)).all (fun e => zeroed e [(2, 6)])
    && (tableRows 8 (table 2)).all (fun e => decide (bitsOf (field e 0 8) 49 63 = 0))
    && (tableRows 8 (table 4)).all (fun e => decide (bitsOf (field e 0 8) 53 63 = 0))
    && (tableRows 2 (table 5)).all (fun e => decide (field e 0 2 < 4096))
    && (tableRows 8 (table 6)).all (fun e => zeroed e [(6, 2)] && decide (field e 0 4 + 8 * field e 4 2 ≤ size 7)
      && (recordsAt (table 7) (field e 0 4) 8 (field e 4 2)).all (fun x => decide (field x 0 4 < 2 ^ 20)))

/-! ### Bridle tables: 1 program directory, 2 instruction table, 3 tenant map, 4 contribution default table -/

/-- A program directory entry (R326). -/
def readProgram (e : List Byte) : VerdictProgram :=
  { first := field e 0 4, length := field e 4 2, egress := fieldBit e 6 2 0, ingress := fieldBit e 6 2 1 }

/-- Section 0x16 (R326). -/
def SectionMap.bridle (m : SectionMap) (b : List Byte) : BridleTables :=
  let table := fun (n : Nat) => m.table 0x16 n b
  { magic := wordAt b 0, programs := (tableRows 8 (table 1)).map readProgram,
    code := (tableRows 8 (table 2)).map (fun e => BitVec.ofNat 64 (field e 0 8)), haltGroup := field b 12 2, noticePort := byteField b 14,
    auditMode := field b 15 1, auditQueue := (queueNumber (field b 16 2)).getD 0,
    haltQueue := if field b 18 2 = 0xFFFF then none else queueNumber (field b 18 2), northServes := fieldBit b 20 1 0,
    southServes := fieldBit b 20 1 1, tenantMap := readTenants (table 3),
    defaults := numbered 8 (fun e => (wordAt e 0, wordAt e 4)) (table 4) }

/-- Its sizes, and fields that can mean nothing. -/
def SectionMap.bridleSound (m : SectionMap) (b : List Byte) : Bool :=
  let size := fun (n : Nat) => (m.table 0x16 n b).length
  decide (64 ≤ b.length) && zeroed b [(6, 2), (21, 43)] && halvesSound (field b 20 1)
    && decide (field b 16 2 ≤ 511) && (decide (field b 18 2 ≤ 511) || decide (field b 18 2 = 0xFFFF))
    && decide (size 1 = 8 * field b 4 2) && decide (size 2 = 8 * field b 8 4) && decide (size 3 = 65536 * 2)
    && decide (size 4 = 4096 * 8) && (tableRows 8 (m.table 0x16 1 b)).all (fun e => decide (field e 6 2 ≤ 3))

/-! ### The judge descriptor: its lists of cells are the tables that its stages number -/

/-- A judge stage (R260). -/
def SectionMap.readStage (m : SectionMap) (b e : List Byte) : JudgeStage :=
  { frames := field e 2 1, frameBytes := field e 4 2, areaBase := field e 8 4,
    cells := readCells (m.table 0x17 (field e 12 4) b) 0 (field e 0 2) }

/-- Section 0x17 (R260). -/
def SectionMap.judge (m : SectionMap) (b : List Byte) : JudgeTables :=
  { magic := wordAt b 0, judgeOffset := field b 4 4, scores := field b 9 1, entryHandler := field b 10 1, ingressRing := field b 12 4,
    worst := (recordsAt b 16 4 8).map (fun e => wordAt e 0), neutral := (recordsAt b 48 4 8).map (fun e => wordAt e 0),
    stages := (recordsAt b 80 16 (field b 8 1)).map (m.readStage b) }

/-- Its sizes, and fields that can mean nothing. -/
def SectionMap.judgeSound (m : SectionMap) (b : List Byte) : Bool :=
  decide (80 + 16 * field b 8 1 ≤ b.length) && zeroed b [(11, 1)]
    && (recordsAt b 80 16 (field b 8 1)).all (fun e => zeroed e [(3, 1), (6, 2)]
      && decide ((m.table 0x17 (field e 12 4) b).length = 2 * field e 0 2)
      && (tableRows 2 (m.table 0x17 (field e 12 4) b)).all (fun c => decide (field c 0 2 < 4096)))

/-! ### All of them -/

/-- Whether an engine section has the sizes that its counts say, and no field at a value without a meaning (R109, R524). -/
def SectionMap.sound (m : SectionMap) (kind : Nat) (b : List Byte) : Bool :=
  match kind with
  | 0x10 => m.skiverSound b
  | 0x11 => m.egressSound b
  | 0x12 => m.awlSound b
  | 0x13 => m.armatureSound b
  | 0x14 => m.callipersSound b
  | 0x15 => m.samplerSound b
  | 0x16 => m.bridleSound b
  | 0x17 => m.judgeSound b
  | _ => true

end Sys2Proof
end

