-- ==== Sys2Proof/Machine/Bundle.lean ====
section
/-! DEFINITION. A bundle's bytes (R435, R436): header, directory, the checks of authenticity and form (R439, checks 1 and 2),
and the maquette's tables, read from their bytes. What the bytes leave open comes with the command that completes a staging
(log 47). -/

namespace Sys2Proof.Machine

/-- A directory entry (R435) with its index. -/
structure Section where
  index : Nat
  kind : Nat
  elided : Bool
  bytes : Nat
  offset : Nat
  digest : List Byte
deriving DecidableEq, Repr

/-- The directory of a bundle: as many entries as the header says, at most 8,192. -/
def directory (b : List Byte) : List Section :=
  (List.range (min 8192 (field b 6 2))).map (fun i =>
    let e := (b.drop (64 + 48 * i)).take 48
    { index := i, kind := field e 0 2, elided := fieldBit e 2 2 0, bytes := field e 4 4, offset := field e 8 8,
      digest := padTo 32 (e.drop 16) })

/-- The content of a section that is sent. -/
def Section.content (d : Section) (b : List Byte) : List Byte := (b.drop d.offset).take d.bytes

/-- The bytes of a bundle as they stand in the reserved region, and whether all were written: one that no write covered is a
free value. -/
def State.bundleBytes (s : State) (w : Writing) : List Byte × Bool :=
  let at' := fun (i : Nat) => writtenAt w.chunks i
  ((List.range w.totalBytes).map (fun i => (at' i).getD ((Config.freeWord (s.freeUse + i)).setWidth 8)),
   (List.range w.totalBytes).all (fun i => (at' i).isSome))

/-- Why a check fails: the check and the directory index of the failing section, 0xFFFF for none (R441). -/
abbrev Failing := Nat × Nat

/-- The first section that fails a test. -/
def failingSection (check : Nat) (ds : List Section) (ok : Section → Bool) : Option Failing :=
  (ds.find? (fun d => !ok d)).map (fun d => (check, d.index))

/-! ### Check 1: authenticity (R434, R436, R439) -/

/-- The record of the active policy's section that an elided one stands for (R436). -/
def Section.shared (d : Section) (active : Option Policy) : Option SectionRecord :=
  active.bind (fun p => p.sections.find? (fun r => decide (r.kind = d.kind) && decide (r.digest = d.digest)))

/-- Check 1. -/
def State.checkSignature (s : State) (b : List Byte) (total : Nat) : Option Failing :=
  let ds := directory b
  let signed := b.take (64 + 48 * ds.length)
  match aget (field b 24 1) s.boot.keys with
  | none => some (1, 0xFFFF)
  | some key =>
    if !s.boot.keysLocked || !ecdsaVerify key ((b.drop (total - 96)).take 96) (sha384 signed) then some (1, 0xFFFF)
    else failingSection 1 ds (fun d =>
      if d.elided then (d.shared s.cast.active).isSome else decide (sha256 (d.content b) = d.digest))

/-! ### Check 2: form -/

/-- The magic a section's content begins with, and its format where its layout has one (R48, R105, R124, R164, R185, R260,
R269, R298, R326, R362, R437). -/
def sectionMagic (kind : Nat) : Option (Nat × Bool) :=
  match kind with
  | 0x01 => some (0x53524756, true)
  | 0x02 => some (0x4C4D4756, true)
  | 0x04 => some (0x54534756, true)
  | 0x10 => some (0x4B534756, false)
  | 0x11 => some (0x54444756, false)
  | 0x12 => some (0x41574756, false)
  | 0x13 => some (0x41524756, false)
  | 0x14 => some (0x41434756, false)
  | 0x15 => some (0x50534756, false)
  | 0x16 => some (0x42524756, false)
  | 0x17 => some (0x444A4756, false)
  | _ => none

/-- Whether a section's magic and format are right. -/
def Section.formed (d : Section) (b : List Byte) : Bool :=
  let c := d.content b
  if d.elided then true
  else match sectionMagic d.kind with
    | none => true
    | some (m, versioned) => decide (field c 0 4 = m) && (!versioned || decide (field c 4 2 = 3))

/-- The `policy_id` of the latency manifest a bundle carries. -/
def manifestId (ds : List Section) (b : List Byte) (active : Option Policy) : Option Nat :=
  (ds.find? (fun d => d.kind = 0x02)).bind (fun d =>
    if d.elided then active.map (fun p => p.tables.latency.policyId.toNat) else some (field (d.content b) 8 8))

/-- Check 2. -/
def State.checkForm (s : State) (w : Writing) (b : List Byte) (all : Bool) : Option Failing :=
  let ds := directory b
  let id := field b 8 8
  if field b 0 4 ≠ 0x4E424756 ∨ field b 4 2 ≠ 3 ∨ field b 6 2 = 0 ∨ 8192 < field b 6 2 ∨ field b 16 8 ≠ w.totalBytes ∨ !all
      ∨ id ≠ w.policyId.toNat then some (2, 0xFFFF)
  else match failingSection 2 ds (fun d => d.formed b) with
    | some f => some f
    | none => if (manifestId ds b s.cast.active).getD id ≠ id then failingSection 2 ds (fun d => decide (d.kind ≠ 0x02)) else none

/-! ### Sections read from their bytes -/

/-- The resource manifest (R437). -/
def parseResources (b : List Byte) : ResourceManifest :=
  { magic := BitVec.ofNat 32 (field b 0 4), format := field b 4 2, roles := byteField b 6, placedBytes := field b 8 8,
    weightBytes := field b 16 4, classBytes := field b 20 4, biasBytes := field b 24 4, cellCount := field b 28 2 }

/-- A latency manifest entry (R48). -/
def parseEntry (e : List Byte) : ManifestEntry :=
  { stage := field e 0 1, failOpen := fieldBit e 1 1 0, crossesWelt := fieldBit e 1 1 1, crossGate := fieldBit e 1 1 2,
    contribution := fieldBit e 1 1 3, roles := byteField e 2, delay := field e 4 4, readyBy := field e 8 4,
    edgeLatency := field e 12 2, edgeAlign := field e 14 1, sourceNode := nodeField e 16, contributionId := field e 18 2 }

/-- The latency manifest (R48). -/
def parseLatency (b : List Byte) : LatencyManifest :=
  { magic := BitVec.ofNat 32 (field b 0 4), format := field b 4 2, policyId := BitVec.ofNat 64 (field b 8 8),
    distanceId := BitVec.ofNat 64 (field b 16 8), capabilityId := BitVec.ofNat 64 (field b 24 8),
    clockNorth := field b 32 2, clockSouth := field b 34 2, castWindow := field b 36 4, bridleRun := field b 40 4,
    entries := (recordsAt b 64 32 (field b 6 2)).map parseEntry }

/-- The route table (R358). -/
def parseRoutes (b : List Byte) : List (Nat × RouteEntry) :=
  (recordsAt b 0 8 4096).zipIdx.map (fun (x : List Byte × Nat) => (x.2, { hops := field x.1 4 1, cands := x.1.take 4 }))

/-- The slot table (R362). -/
def parseSlots (b : List Byte) : SlotTable :=
  { frameTicks := field b 16 8, frameBase := field b 24 8,
    entries := (recordsAt b 64 16 (min 65536 (field b 8 4))).map (fun e =>
      { slot := BitVec.ofNat 24 (field e 0 3), inEdge := byteField e 3, outEdge := byteField e 4, units := field e 5 1,
        source := nodeField e 6, checkSource := fieldBit e 6 2 15, opens := field e 8 4, closes := field e 12 4 }) }

/-- A group entry (R373). -/
def parseGroup (e : List Byte) : GroupEntry :=
  { atNode := fieldBit e 1 1 0, report := fieldBit e 1 1 1, member := field e 2 1, budget := field e 4 4,
    completionDelay := field e 8 4, completionQueue := (queueNumber (field e 12 2)).getD 0,
    branches := (recordsAt e 32 36 (min 8 (field e 0 1))).map (fun r =>
      { out := ⟨field r 0 1 % 64, Nat.mod_lt _ (by decide)⟩, members := BitVec.ofNat 256 (field r 4 32) }) }

/-- The group table: its entries with `defined` (R373). -/
def parseGroups (b : List Byte) : List (Nat × GroupEntry) :=
  ((recordsAt b 0 320 4096).zipIdx.filter (fun (x : List Byte × Nat) => fieldBit x.1 1 1 2)).map (fun x => (x.2, parseGroup x.1))

/-- The queue table (R405). -/
def parseQueues (b : List Byte) : List QueueCfg :=
  (recordsAt b 0 16 512).map (fun e =>
    { spillOffset := field e 0 4, spillItems := field e 4 4, level := field e 8 4, hostWrites := decide (field e 12 1 = 1),
      priority := field e 13 1 % 8 })

/-- A cell image (R258). -/
def parseImage (b : List Byte) : CellImage :=
  let wn := min 8 (field b 24 2)
  let rn := min 256 (field b 26 2)
  { cell := BitVec.ofNat 12 (field b 0 2), judgeEntry := fieldBit b 2 2 0, loadBase := field b 4 4, rangeBytes := field b 12 4,
    barrierMask := BitVec.ofNat 64 (field b 16 8), handlers := (List.range 16).map (fun i => field b (32 + 2 * i) 2),
    windows := (recordsAt b 64 16 wn).map (fun e => { table := field e 0 4, length := field e 4 4, writable := fieldBit e 8 1 0 }),
    relocs := (recordsAt b (64 + 16 * wn) 4 rn).map (fun e => (field e 0 4 % 2 ^ 17, field e 0 4 / 2 ^ 17 % 8)),
    body := padTo (field b 8 4) (b.drop (64 + 16 * wn + 4 * rn)) }

/-- Bytes rounded up to whole 64-byte units. -/
def units64 (n : Nat) : Nat := 64 * ((n + 63) / 64)

/-- Whether a group entry is sound (R373). -/
def groupSound (e : List Byte) : Bool :=
  decide (field e 0 1 ≤ 8) && decide (field e 1 1 ≤ 7) && decide (field e 4 4 ≤ 102400) && decide (field e 12 2 ≤ 511)
    && zeroed e [(3, 1), (14, 18)]
    && (recordsAt e 32 36 (min 8 (field e 0 1))).all (fun r => decide (field r 0 1 ≤ 63) && zeroed r [(1, 3)])

/-- Whether a latency manifest entry's reserved fields are zero (R48). -/
def entrySound (e : List Byte) : Bool :=
  decide (field e 1 1 < 16) && decide (field e 2 1 < 8) && decide (field e 16 2 < 4096) && zeroed e [(3, 1), (15, 1), (20, 12)]

/-- Whether a cell image has the size its counts say and its reserved fields are zero (R258). -/
def imageSound (b : List Byte) : Bool :=
  let wn := field b 24 2
  let rn := field b 26 2
  decide (wn ≤ 8) && decide (rn ≤ 256) && decide (field b 2 2 ≤ 1) && decide (field b 0 2 < 4096) && zeroed b [(28, 4)]
    && (recordsAt b 64 16 wn).all (fun e => decide (field e 8 1 ≤ 1) && zeroed e [(9, 7)])
    && (recordsAt b (64 + 16 * wn) 4 rn).all (fun e => decide (field e 0 4 < 2 ^ 20))
    && decide (b.length = units64 (64 + 16 * wn + 4 * rn + field b 8 4))

/-- Whether a section has the size that its counts say, and no field whose value its layout cannot mean, a reserved field that is
not zero among them (R10, R48, R258, R358, R362, R373, R395, R405, R437, R524; log 47). -/
def sectionSound (m : SectionMap) (kind : Nat) (b : List Byte) : Bool :=
  match kind with
  | 0x01 => decide (b.length = 64) && decide (field b 6 1 < 16) && zeroed b [(7, 1), (30, 34)]
  | 0x02 => decide (b.length = 64 + 32 * field b 6 2) && zeroed b [(44, 20)] && (recordsAt b 64 32 (field b 6 2)).all entrySound
  | 0x03 => decide (b.length = 4096 * 8) && (recordsAt b 0 8 4096).all (fun e => zeroed e [(5, 3)])
  | 0x04 => decide (field b 8 4 ≤ 65536) && decide (b.length = 64 + 16 * field b 8 4) && zeroed b [(6, 2), (12, 4), (32, 32)]
      && (recordsAt b 64 16 (field b 8 4)).all (fun e => decide (field e 6 2 / 4096 % 8 = 0))
  | 0x05 => decide (b.length = 4096 * 320) && (recordsAt b 0 320 4096).all groupSound
  | 0x06 => decide (b.length = 512 * 16)
      && (recordsAt b 0 16 512).all (fun e => decide (field e 12 1 ≤ 1) && decide (field e 13 1 ≤ 7) && zeroed e [(14, 2)])
  | 0x07 => decide (b.length = 256) && b.all (fun x => decide (x.toNat < 16))
  | 0x18 => imageSound b
  | _ => m.sound kind b

/-! ### The maquette's tables -/

/-- A section's contents: read from its bytes, or the active policy's when it is elided. -/
def pickSection {α : Type} (ds : List Section) (b : List Byte) (active : Option Policy) (kind : Nat) (read : List Byte → α)
    (own : PolicyTables → α) (absent : α) : α :=
  match ds.find? (fun d => d.kind = kind) with
  | none => absent
  | some d => if d.elided then (active.map (fun p => own p.tables)).getD absent else read (d.content b)

/-- An optional section's contents: read from its bytes when the bundle sends it, the active policy's when it is elided, none when
it is absent. -/
def pickEngine {α : Type} (ds : List Section) (b : List Byte) (active : Option Policy) (kind : Nat) (read : List Byte → α)
    (own : PolicyTables → Option α) : Option α :=
  match ds.find? (fun d => d.kind = kind) with
  | none => none
  | some d => if d.elided then active.bind (fun p => own p.tables) else some (read (d.content b))

/-- The image that an elided image section stands for. -/
def sharedImage (active : Option Policy) (d : Section) : Option CellImage :=
  active.bind (fun p =>
    let rs := p.sections.filter (fun r => r.kind = 0x18)
    (rs.findIdx? (fun r => decide (r.digest = d.digest))).bind (fun i => p.tables.images[i]?))

/-- The tables of a bundle, `m` giving what its bytes leave open. -/
def assemble (active : Option Policy) (b : List Byte) (m : SectionMap) : PolicyTables :=
  let ds := directory b
  { resources := pickSection ds b active 0x01 parseResources (fun x => x.resources) (parseResources []),
    latency := pickSection ds b active 0x02 parseLatency (fun x => x.latency) (parseLatency []),
    routes := pickSection ds b active 0x03 parseRoutes (fun x => x.routes) [],
    slots := pickSection ds b active 0x04 parseSlots (fun x => x.slots) (parseSlots []),
    groups := pickSection ds b active 0x05 parseGroups (fun x => x.groups) [],
    queueTable := pickSection ds b active 0x06 parseQueues (fun x => x.queueTable) [],
    delivery := pickSection ds b active 0x07 id (fun x => x.delivery) [],
    role := pickSection ds b active 0x08 (fun _ => m.role) (fun x => x.role) m.role,
    skiver := pickEngine ds b active 0x10 m.skiver (fun x => x.skiver),
    egress := pickEngine ds b active 0x11 m.egress (fun x => x.egress),
    awl := pickEngine ds b active 0x12 m.awl (fun x => x.awl),
    armature := pickEngine ds b active 0x13 m.armature (fun x => x.armature),
    callipers := pickEngine ds b active 0x14 m.callipers (fun x => x.callipers),
    sampler := pickEngine ds b active 0x15 m.sampler (fun x => x.sampler),
    bridle := pickEngine ds b active 0x16 m.bridle (fun x => x.bridle),
    judge := pickEngine ds b active 0x17 m.judge (fun x => x.judge),
    images := (ds.filter (fun d => d.kind = 0x18)).filterMap (fun d =>
      if d.elided then sharedImage active d else some (parseImage (d.content b))) }

/-- The policy-region bytes of a section once placed: each slice of the awl's transition table that it uses takes 256 KiB in each
half (R160), and the armature's section is placed once for each half that serves it (R202; log 47). -/
def placedBytes (d : Section) (m : SectionMap) (t : PolicyTables) : Nat :=
  match d.kind with
  | 0x12 => d.bytes - 4 * (m.slices.map (fun x => x.entries)).sum + 2 * 262144 * m.usedSlices
  | 0x13 => d.bytes * (match t.armature with | some a => if a.northServes && a.southServes then 2 else 1 | none => 1)
  | _ => d.bytes

/-- The record of each section as the firmware places it. -/
def sectionRecords (active : Option Policy) (b : List Byte) (m : SectionMap) (t : PolicyTables) : List SectionRecord :=
  (directory b).map (fun d =>
    match if d.elided then d.shared active else none with
    | some r => r
    | none => { kind := d.kind, digest := d.digest, placed := placedBytes d m t })

/-- The placed bytes of the sections that a bundle shares with the active policy (R436, R440). -/
def sharedBytes (active : Option Policy) (b : List Byte) : Nat :=
  (((directory b).filter (fun d => d.elided)).filterMap (fun d => (d.shared active).map (fun r => r.placed))).sum

end Sys2Proof.Machine
end

