-- ==== Sys2Proof/Machine/PolicyChecks.lean ====
section
/-! DEFINITION. Check 3 of a staging (R439, R523, R524): what each section of a maquette must satisfy. -/

namespace Sys2Proof.Machine

/-- Whether a number lies in a range. -/
def within (lo x hi : Nat) : Bool := decide (lo ≤ x) && decide (x ≤ hi)

/-- Whether a list names nothing twice. -/
def distinct {α : Type} [DecidableEq α] (l : List α) : Bool := decide (l.Nodup)

/-- One past the highest index that a sparse table gives. -/
def spanOf {α : Type} (m : List (Nat × α)) : Nat := maxOf (m.map (fun e => e.1 + 1))

/-- Spans that do not meet. -/
def apartSpans (a la b lb : Nat) : Bool := decide (a + la ≤ b) || decide (b + lb ≤ a)

/-- Every two elements of a list satisfy a test. -/
def pairwiseAll {α : Type} (f : α → α → Bool) : List α → Bool
  | [] => true
  | x :: xs => xs.all (f x) && pairwiseAll f xs

/-- A tenant map of set numbers: each is 0xFF or below the count, and tenants it leaves out name set 0 (R168). -/
def tenantMapOk (m : List (Nat × (Nat × Nat))) (count : Nat) : Bool :=
  m.all (fun e => decide (e.1 < 65536) && [e.2.1, e.2.2].all (fun n => decide (n = 0xFF) || decide (n < count)))
    && (decide (0 < count) || decide (m.length = 65536))

/-! ### Fabric tables -/

/-- The route table's candidates: bit 6 of a byte is reserved (R358). -/
def routesOk (rs : List (Nat × RouteEntry)) : Bool :=
  rs.all (fun e => decide (e.1 < 4096) && decide (e.2.cands.length ≤ 4) && e.2.cands.all (fun c => !c.getLsbD 6))

/-- The slot table: identifiers unique, edges of R362, units 1 to 128. -/
def slotsOk (t : SlotTable) : Bool :=
  let edge := fun (e : Byte) => decide (e.toNat ≤ 0x4F) || decide (e = 0x80#8)
  decide (t.entries.length ≤ 65536) && distinct (t.entries.map (fun e => e.slot))
    && t.entries.all (fun e => (edge e.inEdge || decide (e.inEdge = 0xFF#8)) && (edge e.outEdge || decide (e.outEdge = 0xC0#8))
      && within 1 e.units 128)

/-- The queue table: 512 entries, areas that do not overlap (R405). -/
def queuesOk (t : List QueueCfg) : Bool :=
  decide (t.length = 512)
    && t.all (fun c => decide (c.spillOffset % 4096 = 0) && decide (c.spillItems % 64 = 0) && decide (c.spillItems ≤ 1048576)
      && decide (c.level ≤ 16777215))
    && pairwiseAll (fun (a b : QueueCfg) => apartSpans a.spillOffset (64 * a.spillItems) b.spillOffset (64 * b.spillItems)
        || decide (a.spillItems = 0) || decide (b.spillItems = 0)) t

/-- The latency manifest's entries: stage codes of R48, and the contribution bit of R43's two kinds. -/
def entriesOk (m : LatencyManifest) : Bool :=
  m.entries.all (fun e => (within 1 e.stage 5 || within 0x10 e.stage 0x15) && decide (e.contribution = decide (0x10 ≤ e.stage)))

/-! ### Skiver (R98 to R109) -/

/-- Whether bytes are well-formed UTF-8 on their own. -/
def wellFormedText (bs : List Byte) : Bool :=
  let r := repairBytes [] (bs.map (fun b => (b, 0)))
  decide (r.replaced = 0) && r.carry.isEmpty

/-- The bytes of a pool span. -/
def poolBytes (pool : List Byte) (off len : Nat) : List Byte := (pool.drop off).take len

/-- The skiver tables. -/
def skiverOk (t : SkiverTables) (awl : Option AwlTables) : Bool :=
  let ids := t.vocab.map (fun e => e.2.tokenId)
  let special := (t.specials.filter (fun e => e.2.isDefined)).map (fun e => e.2.tokenId)
  let bytes := (List.range 256).map (fun b => (aget b t.byteMap).getD 0)
  within 256 t.chunkBytes 2048 && decide (t.chunkBytes % 64 = 0) && decide (t.unitMask ≠ 0#8)
    && (List.range 32).all (fun c => decide (t.mode c ≠ 3))
    && ((awl.bind (fun a => a.automata[t.pretokAutomaton]?)).map (fun a => decide (a.kind = 2))).getD false
    && decide (t.vocabCount ≤ 1048576) && decide (t.vocab.length = t.vocabCount)
    && decide (t.mergeCount ≤ 2097152) && decide (t.merges.length = t.mergeCount) && decide (t.senders.length ≤ 16)
    && decide (special.length = t.specialCount)
    && decide (t.pool.length ≤ 16777216) && distinct (t.vocab.map (fun e => e.1)) && distinct (t.merges.map (fun e => e.1))
    && t.specials.all (fun e => decide (e.1 < 4096) && decide (e.2.spelling.length ≤ 32) && decide (e.2.tokenId < 1048576))
    && bytes.all (fun n => ids.contains n)
    && t.vocab.all (fun e => decide (e.1 < 4194304) && within 1 e.2.length 255 && decide (e.2.tokenId < 1048576)
      && decide (e.2.poolOffset + e.2.length ≤ t.pool.length)
      && decide (vocabLookup t (poolBytes t.pool e.2.poolOffset e.2.length) = some e.2))
    && t.merges.all (fun e => decide (e.1 < 4194304) && decide (e.2.rank < 2097152) && ids.contains e.2.left
      && ids.contains e.2.right && ids.contains e.2.result && decide (mergeLookup t e.2.left e.2.right = some e.2))
    && special.all (fun n => !ids.contains n)

/-! ### Egress (R124 to R126, R149) -/

/-- The egress tables; each stop set has its automaton in the awl tables, whose records name its entries (R149, R166). -/
def egressOk (t : EgressTables) (awl : Option AwlTables) : Bool :=
  let stops := match awl with | some a => a.automata.filter (fun x => decide (x.kind = 1)) | none => []
  decide (t.idLimit ≤ 1048576) && decide (t.defaultOverflow ≤ 2) && decide (t.stopSets.length ≤ 256)
    && decide (stops.length = t.stopSets.length)
    && (t.stopSets.zip stops).all (fun x => x.2.reports.all (fun r => decide (r.pattern < x.1.length)))
    && t.stopSets.all (fun l => decide (l.length ≤ 64) && l.all (fun e => within 1 e.text.length 256))
    && t.detok.all (fun e => decide (e.1 < t.idLimit) && decide (e.2.length ≤ 255) && decide (e.2.kind ≤ 3)
      && decide (e.2.poolOffset + e.2.length ≤ t.pool.length)
      && (let bs := poolBytes t.pool e.2.poolOffset e.2.length
          decide (bs.length ≤ if wellFormedText bs then 252 else 84)))

/-! ### Awl (R164 to R168, R181) -/

/-- The lanes of an automaton's replicas. -/
def replicaLanes (a : Automaton) : List Nat := (List.range a.replicas).map (fun i => a.firstLane + i)

/-- The entries of an automaton in every slice that holds it. -/
def automatonWords (t : AwlTables) (a : Automaton) : List Word :=
  (replicaLanes a).flatMap (fun l => (List.range a.entries).map (fun i => (aget (l, a.base + i) t.words).getD 0#32))

/-- One automaton's checks (R165, R167). -/
def automatonOk (t : AwlTables) (a : Automaton) : Bool :=
  let row := fun (r : Nat) => decide (a.base ≤ r) && decide (r + a.classes ≤ a.base + a.entries)
  decide (a.kind ≤ 2) && decide (a.sub ≤ 3) && within 1 a.classes 256 && within 1 a.replicas 256
    && decide (a.firstLane + a.replicas ≤ 256) && within 1 a.entries 65536 && decide (a.base + a.entries ≤ 65536)
    && decide (a.channels ≤ 2) && decide (a.reports.length ≤ 4096) && decide (a.classMap.length = 256)
    && a.classMap.all (fun c => decide (c < a.classes)) && row a.start
    && (automatonWords t a).all (fun w => row (entryTarget w) && (!entryAccept w || decide (entryReport w < a.reports.length)))

/-- Two automata that share a slice: other places, other `sub`. -/
def automataApart (a b : Automaton) : Bool :=
  apartSpans a.firstLane a.replicas b.firstLane b.replicas
    || (apartSpans a.base a.entries b.base b.entries && decide (a.sub ≠ b.sub))

/-- The awl tables. -/
def awlOk (t : AwlTables) : Bool :=
  within 1 t.automata.length 1024 && decide (t.sets.length ≤ 255) && (t.northServes || t.southServes)
    && t.automata.all (automatonOk t) && pairwiseAll automataApart t.automata
    && decide ((t.automata.filter (fun a => decide (a.kind = 2))).length ≤ 1)
    && decide ((t.automata.filter (fun a => decide (a.kind = 1))).length ≤ 256)
    && t.sets.all (fun l => decide (l.length = 8) && l.all (fun n => decide (n = 0xFFFF)
      || ((t.automata[n]?).map (fun a => decide (a.kind = 0))).getD false))
    && tenantMapOk t.tenantMap t.sets.length

/-! ### Armature (R185 to R200, R208) -/

/-- What class of value an operand of the feature plan has: an integer becomes either class, a host word is read as either. -/
inductive ValueClass where
  | integer
  | number
  | code
  | host
deriving DecidableEq, Repr

/-- The class of a source, when it names one that exists (R188). -/
def sourceClass (t : ArmatureTables) (m : LatencyManifest) (kind i : Nat) : Option ValueClass :=
  let given := fun (ok : Bool) (c : ValueClass) => if ok then some c else none
  match kind with
  | 0 => given (decide (i ≤ 2)) .integer
  | 1 => given (decide (i < 32)) .integer
  | 2 => given (decide (i < 240) && !t.hostWords.getLsbD i) .number
  | 3 => given (decide (i / 64 < 8) && (decide (i % 64 ≤ 2) || decide (32 ≤ i % 64))) .integer
  | 4 => given (decide (i ≤ 5)) .integer
  | 5 => given (decide (i < 240) && t.hostWords.getLsbD i) .host
  | 6 => given (m.entries.any (fun e => decide (e.stage = 0x14) && decide (e.contributionId = i))) .number
  | 7 => given (decide (i ≤ 5)) .integer
  | _ => none

/-- The class of the operand of plan entry f, when it names one that exists. -/
def operandClass (t : ArmatureTables) (m : LatencyManifest) (f : Nat) (e : FeatureEntry) : Option ValueClass :=
  if e.inputIsFeature then
    let n := e.srcIndex % 1024
    if n < f then (t.features[n]?).map (fun x => if x.categorical then ValueClass.code else .number) else none
  else sourceClass t m e.srcKind e.srcIndex

/-- The number of categories of each feature, where the plan itself fixes it: a BIN has one more than its edges, a CROSS the product
of its inputs' and a PASS those of its input. A category code from outside the plan has no count there (log 47). -/
def planCategories (t : ArmatureTables) : List (Option Nat) :=
  t.features.foldl (fun (l : List (Option Nat)) e =>
    let at' := fun (n : Nat) => (l[n]?).getD none
    let x := if e.inputIsFeature then at' (e.srcIndex % 1024) else none
    l ++ [if e.op = 2 then some (e.b.toNat + 1)
          else if e.op = 3 then x.bind (fun n => (at' e.a.toNat).map (fun k => n * k))
          else if e.op = 0 then x else none]) []

/-- Whether the category counts of a CROSS entry's inputs stay within 256 together, with `b` for a count of the second that the plan
does not fix (R194). -/
def crossFits (t : ArmatureTables) (e : FeatureEntry) : Bool :=
  let counts := planCategories t
  let x := if e.inputIsFeature then (counts[e.srcIndex % 1024]?).getD none else none
  let y := ((counts[e.a.toNat]?).getD none).getD e.b.toNat
  decide (x.getD 1 * y ≤ 256)

/-- One plan entry (R187, R188, R194, R195). -/
def featureOk (t : ArmatureTables) (m : LatencyManifest) (f : Nat) (e : FeatureEntry) : Bool :=
  match operandClass t m f e with
  | none => false
  | some c =>
    let asNumber := decide (c ≠ .code)
    let fits := if e.categorical then decide (c ≠ .number) else asNumber
    let byKind := if !e.inputIsFeature && decide (e.srcKind = 6) then decide (e.field ≤ 15) else decide (e.field = 0)
    let word := if e.op = 4 then decide (e.accWord < 240) && !t.hostWords.getLsbD e.accWord else decide (e.accWord = 0xFFFF)
    byKind && word &&
      (match e.op with
      | 0 => fits
      | 1 => asNumber && !e.categorical
      | 2 => asNumber && within 1 e.b.toNat 63
          && ((t.edges[e.a.toNat]?).map (fun l =>
            decide (e.b.toNat ≤ l.length) && decide ((l.take e.b.toNat).Pairwise (fun x y => x < y))
              && (l.drop e.b.toNat).all (fun w => decide (w = 0xFFFFFFFF#32)))).getD false
      | 3 => e.categorical && decide (c ≠ .number) && within 1 e.b.toNat 256 && decide (e.a.toNat < f)
          && ((t.features[e.a.toNat]?).map (fun y => y.categorical)).getD false
          && crossFits t e
      | 4 => asNumber && !e.categorical
      | _ => false)

/-- One node: its feature is in the plan, whatever its kind, and a threshold is the key of a number (R196, R197, R199). -/
def nodeOk (t : ArmatureTables) (n : Nat) (d : TreeNode) : Bool :=
  let child := fun (c : Nat) => decide (n < c) && (aget c t.nodes).isSome
  let feature := t.features[d.feature]?
  feature.isSome && match d.kind with
  | 0 => child d.left && child d.right && (feature.map (fun x => !x.categorical)).getD false
      && within 0x007FFFFF d.operand.toNat 0xFF800000
  | 1 => child d.left && child d.right && (feature.map (fun x => x.categorical)).getD false
      && decide (d.operand.toNat < t.bitmaps.length)
  | 2 => f32Finite d.operand
  | _ => false

/-- The nodes of a tree down to a depth, and whether every path ends within it. -/
def treeNodes (nodes : List (Nat × TreeNode)) : Nat → Nat → List Nat × Bool
  | depth, n =>
    match aget n nodes with
    | none => ([n], false)
    | some d =>
      if d.kind = 2 then ([n], true)
      else match depth with
        | 0 => ([n], false)
        | k + 1 =>
          let l := treeNodes nodes k d.left
          let r := treeNodes nodes k d.right
          (n :: (l.1 ++ r.1), l.2 && r.2)

/-- The trees of an ensemble. -/
def ensembleTrees (t : ArmatureTables) (e : Ensemble) : List TreeEntry := (t.trees.drop e.firstTree).take e.trees

/-- The armature tables. -/
def armatureOk (t : ArmatureTables) (m : LatencyManifest) : Bool :=
  let accs := (t.features.filter (fun e => decide (e.op = 4))).map (fun e => e.accWord)
  within 1 t.features.length 1024 && within 1 t.ensembles.length 64 && decide (t.sets.length ≤ 255)
    && within 1 t.trees.length 65536 && within 1 (spanOf t.nodes) 4194304 && decide (t.bitmaps.length ≤ 262144)
    && (t.northServes || t.southServes) && decide (t.hostWords.toNat < 2 ^ 240) && t.initial.all (fun e => decide (e.1 < 240))
    && t.features.zipIdx.all (fun x => featureOk t m x.2 x.1) && distinct accs
    && t.nodes.all (fun e => nodeOk t e.1 e.2)
    && t.ensembles.all (fun e => decide (e.link ≤ 3) && decide (1 ≤ e.trees) && decide (e.firstTree + e.trees ≤ t.trees.length))
    && t.trees.all (fun r => decide (r.pipeline ≤ 15) && decide (r.depth ≤ 32) && (treeNodes t.nodes r.depth r.root).2)
    && t.sets.all (fun l => decide (l.length = 16) && l.all (fun n => decide (n = 0xFFFF) || decide (n < t.ensembles.length)))
    && tenantMapOk t.tenantMap t.sets.length

/-! ### Callipers (R269, R270, R276, R277, R291) -/

/-- Whether a weight and an activation format multiply (R217, R277). -/
def pairOk (fmt act : Nat) : Bool := (decide (fmt ≤ 1) && decide (act ≤ 1)) || (decide (fmt = act) && (decide (fmt = 2) || decide (fmt = 3)))

/-- Whether a tap's format converts to an activation format (R276). -/
def convertible (inFormat act : Nat) : Bool :=
  (decide (inFormat ≤ 2) && decide (act = inFormat)) || (within 3 inFormat 4 && [0, 1, 3].contains act)

/-- One tap. -/
def tapOk (t : CallipersTables) (d : TapDecl) : Bool :=
  let uses := (t.probes.drop d.probeFirst).take d.probeN
  decide (d.edge ≤ 2) && decide (d.inFormat ≤ 4) && within 64 d.elements 16384 && decide (d.elements % 64 = 0)
    && within 1 d.rows 1024 && decide (d.rowBytes = units64 (16 + d.elements * inBytes d.inFormat))
    && decide (d.rows * d.rowBytes ≤ 1048576) && within 1 d.probeN 16 && decide (d.probeFirst + d.probeN ≤ t.probes.length)
    && within 256 d.window 65536
    && uses.all (fun p => convertible d.inFormat p.actFmt
      && decide (p.weights + p.outputs * d.elements * (if p.fmt = 3 then 2 else 1) ≤ t.weightImage.length))

/-- One probe; an MLP probe's cells are usable. `weights` of a probe that no tap uses has no length, so its start counts (R277;
log 47). -/
def probeOk (t : CallipersTables) (usable : CellId → Bool) (p : ProbeDecl) : Bool :=
  pairOk p.fmt p.actFmt && [0, 1, 3].contains p.link && decide (p.weights % 64 = 0)
    && decide (p.weights < t.weightImage.length) && decide (p.bias + 4 * p.outputs ≤ t.weightImage.length) && decide (-128 ≤ p.accShift) && decide (p.accShift ≤ 127)
    && decide (p.contributionId < 4096)
    && (if p.mlp then within 1 p.outputs 256 && within 1 p.scores 16 && within 1 p.cellList.length 256 && decide (p.handler ≤ 15)
          && p.cellList.all usable
        else within 1 p.outputs 16 && decide (p.scores = p.outputs) && p.cellList.isEmpty)

/-- The callipers tables. -/
def callipersOk (t : CallipersTables) (usable : CellId → Bool) : Bool :=
  within 1 t.taps.length 256 && within 1 t.probes.length 1024 && t.taps.all (tapOk t) && t.probes.all (probeOk t usable)

/-! ### Sampler (R298 to R309, R318, R323) -/

/-- The set bits of a mask row. -/
def classesOf (v : BitVec 4096) : List Nat := (List.range 4096).filter (fun c => v.getLsbD c)

/-- One mask row: no `need1` or `need2` bit of a class without its `allow` bit, and no class that there is none of (R309, R524). -/
def maskRowOk (t : SamplerTables) (r : MaskRow) : Bool :=
  (classesOf (r.need1 ||| r.need2)).all (fun c => r.allow.getLsbD c) && (classesOf r.allow).all (fun c => decide (c < t.classCount))

/-- One action, whether or not a state uses it (R306, R309). -/
def actionOk (states : Nat) (a : GrammarAction) : Bool :=
  decide (a.pops ≤ 2) && decide (a.pushes ≤ 2) && decide (a.target < states) && decide (a.push0 < states) && decide (a.push1 < states)
    && (!a.returns || decide (1 ≤ a.pops))

/-- One grammar state: its actions exist, and `need1` and `need2` agree with them (R309). -/
def grammarStateOk (t : SamplerTables) (n actions : Nat) : Bool :=
  let st := t.state n
  let row := t.row n
  let allowed := classesOf row.allow
  let act := fun (c : Nat) => t.action { state := n } c
  decide (st.maskRow < t.rows.length) && decide (st.actionBase + allowed.length ≤ actions)
    && allowed.all (fun c =>
      decide (row.need1.getLsbD c = decide (1 ≤ (act c).pops)) && decide (row.need2.getLsbD c = decide ((act c).pops = 2)))
    && (st.isFinal || allowed.any (fun c => decide ((act c).pops = 0)))

/-- The sampler tables. -/
def samplerOk (t : SamplerTables) : Bool :=
  let states := spanOf t.states
  let actions := spanOf t.actions
  within 1 t.vocab 1048576 && decide (t.maxDrafts ≤ 15) && (t.northServes || t.southServes) && decide (t.tokenGroup < 4096)
    && decide (t.grammars.length ≤ 256) && decide (states ≤ 65536) && within 1 t.classCount 4096
    && decide (t.rows.length ≤ 16384) && decide (actions ≤ 4194304) && decide (t.biases.length ≤ 1024)
    && decide (t.grammarStreams ≤ 32768) && within 2048 t.logitWindow 262144
    && t.classMap.all (fun e => decide (e.1 < t.vocab) && decide (e.2 < t.classCount))
    && t.grammars.all (fun g => decide (g.1 < states))
    && t.rows.all (maskRowOk t) && t.actions.all (fun a => actionOk states a.2)
    && (List.range states).all (fun n => grammarStateOk t n actions)
    && decide (((t.biases.map (fun b => b.length)).sum) ≤ 262144)
    && t.biases.all (fun b => within 1 b.length 4096 && decide ((b.map (fun e => e.1)).Pairwise (fun x y => x < y))
      && b.all (fun e => decide (e.1 < t.vocab)
        && decide ((b.filter (fun x => decide (x.1 / 512 = e.1 / 512))).length ≤ 8)))

/-! ### Bridle (R326, R328 to R331) -/

/-- The operations of R329. -/
def bridleOps : List Nat :=
  [0x00, 0x01, 0x02, 0x10, 0x11, 0x12, 0x13, 0x18, 0x19, 0x1A, 0x20, 0x21, 0x22, 0x28, 0x29, 0x2A, 0x2B, 0x2C, 0x41, 0x42,
   0x43, 0x44, 0x45, 0x46]

/-- The operation, registers and immediate of a word. -/
def codeOp (w : DWord) : Nat := w.toNat / 2 ^ 56
/-- The immediate. -/
def codeImm (w : DWord) : Nat := w.toNat % 2 ^ 32

/-- Whether an operation branches. -/
def isBranch (op : Nat) : Bool := within 0x20 op 0x22 || within 0x28 op 0x2C

/-- A branch's offset: `imm`, or its bits 11:0 for `bbit` (R329). -/
def branchOffset (w : DWord) : Nat := if codeOp w = 0x2C then codeImm w % 4096 else codeImm w

/-- Whether a word is one of R329's operations with its reserved bits zero and every field that the operation reads at a value
with a meaning (log 45). -/
def codeLegal (w : DWord) (biases : Nat) (ingress : Bool) : Bool :=
  let op := codeOp w
  let imm := codeImm w
  let fields := match op with
    | 0x2C => decide (imm / 2 ^ 17 = 0) && decide (imm / 2 ^ 12 % 16 = 0) && within 1 (imm % 4096) 4095
    | 0x43 => within 1 imm 512
    | 0x45 => decide (imm % 2 ^ 16 = 0xFFFF) || decide (imm % 2 ^ 16 < biases)
    | _ => !isBranch op || within 1 imm 4095
  bridleOps.contains op && decide (w.toNat / 2 ^ 32 % 2 ^ 12 = 0) && fields
    && !(ingress && [0x41, 0x42, 0x43, 0x45].contains op)

/-- Whether a selector names an input that the policy has (R330, R331). -/
def selectorOk (t : PolicyTables) (sel : Nat) : Bool :=
  let sub := sel / 2 ^ 16 % 16
  let i := sel % 2 ^ 16
  match sel / 2 ^ 20 % 16 with
  | 0 => decide (i ≤ 6) && decide (sub = 0)
  | 1 => decide (i < 32) && decide (sub = 0)
  | 2 => decide (i < 240) && decide (sub = 0)
  | 3 => decide (i < 8) && decide (sub ≤ 6) && t.awl.isSome
  | 4 => decide (i < 16) && decide (sub ≤ 2) && t.armature.isSome
  | 5 => decide (i = 0) && (t.judge.map (fun j => decide (sub < j.scores) || decide (sub = 8) || decide (sub = 9))).getD false
  | 6 => decide (i / 4096 ≤ 1) && (decide (sub = 0) || decide (i / 4096 = 0))
      && t.latency.entries.any (fun e => decide (e.stage = 0x14) && decide (e.contributionId = i % 4096))
  | 7 => decide (i ≤ 5) && (if i = 5 then decide (sub ≤ 7) else decide (sub = 0))
  | 8 => decide (i ≤ 4) && decide (sub = 0)
  | 9 => decide (i ≤ 2) && decide (sub = 0)
  | _ => false

/-- The instructions that a program can reach: every branch goes forward, so one pass finds them (R329). -/
def reachedCode (code : List DWord) : List Nat :=
  code.zipIdx.foldl (fun (r : List Nat) (x : DWord × Nat) =>
    if !r.contains x.2 || decide (codeOp x.1 = 0) then r
    else (x.2 + 1) :: (if isBranch (codeOp x.1) then (x.2 + branchOffset x.1 + 1) :: r else r)) [0]

/-- The words of a program. -/
def programCode (b : BridleTables) (p : VerdictProgram) : List DWord := (b.code.drop p.first).take p.length

/-- One program (R326, R330): no path runs past its length. -/
def programOk (t : PolicyTables) (b : BridleTables) (p : VerdictProgram) : Bool :=
  let code := programCode b p
  within 1 p.length 4096 && decide (p.first + p.length ≤ b.code.length)
    && code.all (fun w => codeLegal w ((t.sampler.map (fun x => x.biases.length)).getD 0) p.ingress
      && (decide (codeOp w ≠ 0x01) || selectorOk t (codeImm w % 2 ^ 24)))
    && code.zipIdx.all (fun x => !isBranch (codeOp x.1) || decide (x.2 + branchOffset x.1 + 1 < p.length))
    && (reachedCode code).all (fun n => decide (n < p.length))

/-- The bridle tables. -/
def bridleOk (t : PolicyTables) (b : BridleTables) : Bool :=
  let named := fun (n : Nat) (egress : Bool) => decide (n = 0xFF)
    || ((b.programs[n]?).map (fun p => if egress then p.egress else p.ingress)).getD false
  within 1 b.programs.length 256 && within 1 b.code.length 65536 && decide (b.haltGroup < 4096) && decide (b.auditMode ≤ 2)
    && (b.northServes || b.southServes) && b.programs.all (programOk t b)
    && tenantMapOk b.tenantMap b.programs.length && b.tenantMap.all (fun e => named e.2.1 false && named e.2.2 true)
    && b.defaults.all (fun e => decide (e.1 < 4096))

/-- Instructions on the longest path from instruction n of a program, `end` among them (R341). -/
def longestPath (code : List DWord) : Nat → Nat → Nat
  | 0, _ => 0
  | f + 1, n =>
    match code[n]? with
    | none => 0
    | some w =>
      if codeOp w = 0 then 1
      else 1 + max (longestPath code f (n + 1)) (if isBranch (codeOp w) then longestPath code f (n + branchOffset w + 1) else 0)

/-! ### Judge and cell images (R245, R258, R260) -/

/-- The image of a cell. -/
def imageOf (t : PolicyTables) (c : CellId) : Option CellImage := t.images.find? (fun i => i.cell = c)

/-- The word at an index of an image's body. -/
def imageWord (body : List Byte) (i : Nat) : Word := BitVec.ofNat 32 (field body (4 * i) 4)

/-- Where instruction i of an image continues besides the next word: a branch's or jump's target (R244). -/
def jumpTarget (w : Word) (i : Nat) : Option Int :=
  let op := wordField w 27 24
  if wordField w 31 28 ≠ 3 then none
  else if op ≤ 5 then some (i + signedOf 14 (wordField w 13 0))
  else if op ≤ 9 then some (i + signedOf 19 (wordField w 18 0))
  else none

/-- Whether the word after an instruction is reached from it: not after `end`, `j` and `jr`. -/
def fallsThrough (w : Word) : Bool :=
  let op := wordField w 27 24
  !(decide (wordField w 31 28 = 0xA) && decide (op = 1)) && !(decide (wordField w 31 28 = 3) && (decide (op = 8) || decide (op = 10)))

/-- Whether every word that handlers reach decodes and every target lies in the image; code past the body is words of zeros
(R245, R258). The fuel is more than the visits there can be. -/
def reachWords (body : List Byte) : Nat → List Nat → List Nat → Bool
  | 0, todo, _ => todo.isEmpty
  | _, [], _ => true
  | f + 1, i :: todo, seen =>
    if seen.contains i || decide (body.length / 4 ≤ i) then reachWords body f todo seen
    else
      let w := imageWord body i
      let next := if fallsThrough w then [i + 1] else []
      match jumpTarget w i with
      | none => cellLegal w && reachWords body f (next ++ todo) (i :: seen)
      | some t => cellLegal w && decide (0 ≤ t) && decide (t < (body.length / 4 : Nat))
          && reachWords body f (t.toNat :: (next ++ todo)) (i :: seen)

/-- One image (R245, R258). -/
def imageOk (m : CellImage) : Bool :=
  let starts := m.handlers.filter (fun h => h ≠ 0xFFFF)
  decide (m.loadBase % 64 = 0) && decide (m.loadBase + m.rangeBytes ≤ localBytes) && decide (m.body.length ≤ m.rangeBytes)
    && decide (m.windows.length ≤ 8) && decide (m.relocs.length ≤ 256)
    && m.relocs.all (fun r => decide (r.1 % 8 = 0) && decide (m.loadBase ≤ r.1) && decide (r.1 + 8 ≤ m.loadBase + m.rangeBytes)
      && decide (r.2 < m.windows.length))
    && starts.all (fun h => decide (m.loadBase ≤ 4 * h) && decide (4 * h < m.loadBase + m.body.length))
    && reachWords m.body (3 * (m.body.length / 4) + 17) (starts.map (fun h => (4 * h - m.loadBase) / 4)) []

/-- The judge descriptor: counts of R260, an image on every cell it uses, and its entry handler on the entry cells. -/
def judgeOk (t : PolicyTables) (j : JudgeTables) : Bool :=
  within 1 j.stages.length 8 && within 1 j.scores 8 && decide (j.entryHandler ≤ 15)
    && j.stages.all (fun g => within 2 g.frames 32 && within 64 g.frameBytes 2048 && decide (g.frameBytes % 64 = 0)
      && within 1 g.cells.length 4096 && g.cells.all (fun c => (imageOf t c).isSome))
    && ((j.stages.head?).map (fun g => g.cells.all (fun c =>
      ((imageOf t c).map (fun m => decide ((m.handlers[j.entryHandler]?).getD 0xFFFF ≠ 0xFFFF))).getD false))).getD false

/-! ### The whole check -/

/-- The section types that a set of roles needs (R523). -/
def neededSections (roles : Byte) : List Nat :=
  [0x01, 0x02, 0x03, 0x04, 0x05, 0x06, 0x07, 0x08]
    ++ (if roles.getLsbD 0 then [0x10, 0x12, 0x16] else []) ++ (if roles.getLsbD 1 then [0x11, 0x12, 0x15, 0x16] else [])
    ++ (if roles.getLsbD 2 then [0x14] else [])

/-- Whether a section's contents pass, by its type; an image by its place among the images. A section that is sent must have
contents. -/
def State.sectionOk (s : State) (t : PolicyTables) (kind ordinal : Nat) : Bool :=
  match kind with
  | 0x01 => decide (t.resources.roles ≠ 0#8) && decide (t.resources.cellCount = t.images.length)
      && decide (t.resources.weightBytes = ((t.callipers.map (fun c => c.weightImage.length)).getD 0))
      && decide (t.resources.classBytes = ((t.sampler.map (fun x => 2 * x.vocab)).getD 0))
      && decide (t.resources.biasBytes = ((t.sampler.map (fun x => 8 * (x.biases.map (fun v => v.length)).sum)).getD 0))
  | 0x02 => entriesOk t.latency
  | 0x03 => routesOk t.routes
  | 0x04 => slotsOk t.slots
  | 0x06 => queuesOk t.queueTable
  | 0x10 => (t.skiver.map (fun x => skiverOk x t.awl)).getD false
  | 0x11 => (t.egress.map (fun x => egressOk x t.awl)).getD false
  | 0x12 => (t.awl.map awlOk).getD false
  | 0x13 => (t.armature.map (fun x => armatureOk x t.latency)).getD false
  | 0x14 => (t.callipers.map (fun x => callipersOk x s.rel.usable)).getD false
  | 0x15 => (t.sampler.map samplerOk).getD false
  | 0x16 => (t.bridle.map (bridleOk t)).getD false
  | 0x17 => (t.judge.map (judgeOk t)).getD false
  | 0x18 => ((t.images[ordinal]?).map (fun m => imageOk m
      && decide ((t.images.filter (fun x => decide (x.cell = m.cell))).length = 1))).getD false
  | _ => true

/-- Check 3: the sections that the roles need; then, in directory order, each section once and sound (R439, R523, R524). -/
def State.checkContents (s : State) (b : List Byte) (m : SectionMap) (t : PolicyTables) : Option Failing :=
  let ds := directory b
  let count := fun (d : Section) (k : Nat) => ((ds.take d.index).filter (fun x => x.kind = k)).length
  let known := fun (d : Section) => within 0x01 d.kind 0x08 || within 0x10 d.kind 0x18
  if !(neededSections t.resources.roles).all (fun k => ds.any (fun d => d.kind = k)) then some (3, 0xFFFF)
  else failingSection 3 ds (fun d => known d && (decide (d.kind = 0x18) || decide (count d d.kind = 0))
    && (d.elided || sectionSound m d.kind (d.content b)) && s.sectionOk t d.kind (count d 0x18))

end Sys2Proof.Machine
end

