-- ==== Sys2Proof/Machine/Staging.lean ====
section
/-! DEFINITION. Staging a maquette (R438 to R442): the checks of fit and of latency, the response body, the commands, and the
check that a changed capability map or distance table runs again. -/

namespace Sys2Proof.Machine

/-! ### Check 4: fit (R261, R440) -/

/-- The policy region's size (R19). -/
def regionBytes : Nat := 320 * 2 ^ 20

/-- The free bytes of the policy region (R440). A cast window retains no old policy (R449). -/
def State.regionFree (s : State) : Nat :=
  let kept := if s.cast.windowEnd.isSome then none else s.cast.retained
  regionBytes - ((s.cast.active.map (fun p => p.placed)).getD 0 + (kept.map (fun p => p.placed)).getD 0)

/-- Whether the frames of a judge stage lie in the range of each of its cells' images (R261). -/
def stageFits (t : PolicyTables) (g : JudgeStage) : Bool :=
  g.cells.zipIdx.all (fun x =>
    match imageOf t x.1 with
    | none => false
    | some m =>
      let streams := (32768 - x.2 + g.cells.length - 1) / max 1 g.cells.length
      decide (m.loadBase ≤ g.areaBase)
        && decide (g.areaBase + streams * g.frames * g.frameBytes ≤ m.loadBase + m.rangeBytes))

/-- Whether a judge's frames fit. -/
def judgeFits (t : PolicyTables) (j : JudgeTables) : Bool :=
  decide ((j.stages.map (fun g => g.frames * g.frameBytes)).sum ≤ 2048) && j.stages.all (stageFits t)

/-- The shortfalls that check 4 finds. -/
structure Fit where
  region : Nat := 0
  cells : Nat := 0
  store : Nat := 0
  failing : Option Failing := none
deriving DecidableEq, Repr

/-- Check 4 of a maquette whose elided sections hold `shared` placed bytes. The section it names is the first image on an
unusable cell, or else the section whose store, spill area or frames do not fit. -/
def State.checkFit (s : State) (ds : List Section) (t : PolicyTables) (shared : Nat) : Fit :=
  let r := t.resources
  let region := r.placedBytes - shared - s.regionFree
  let bad := t.images.zipIdx.filter (fun x => !s.rel.usable x.1.cell)
  let store := bitIf (decide (8 * 2 ^ 20 < r.weightBytes)) 1 + bitIf (decide (2 ^ 21 < r.classBytes)) 2
    + bitIf (decide (2 ^ 21 < r.biasBytes)) 4
  let spill := t.queueTable.all (fun c => decide (c.spillOffset + 64 * c.spillItems ≤ 2 ^ 26))
  let frames := (t.judge.map (judgeFits t)).getD true
  let nth := fun (k n : Nat) => (((ds.filter (fun d => d.kind = k))[n]?).map (fun d => d.index)).getD 0xFFFF
  let at' := match bad with
    | x :: _ => some (nth 0x18 x.2)
    | [] => if store ≠ 0 then some (nth (if store % 2 = 1 then 0x14 else 0x15) 0)
      else if !spill then some (nth 0x06 0) else if !frames then some (nth 0x17 0)
      else if 0 < region then some 0xFFFF else none
  { region := region, cells := bad.length, store := store, failing := at'.map (fun n => (4, n)) }

/-! ### Cast windows (R448) -/

/-- Images of a maquette that cannot be loaded beside the active policy's on their cells (R259). -/
def clashingImages (active : Option Policy) (t : PolicyTables) : List CellImage :=
  match active with
  | none => []
  | some p => t.images.filter (fun m => p.tables.images.any (fun a =>
      decide (a.cell = m.cell) && !apartSpans a.loadBase a.rangeBytes m.loadBase m.rangeBytes))

/-- Whether two awl tables are one section that a maquette shares (R436). -/
def sharesAwl (active : Option Policy) (records : List SectionRecord) : Bool :=
  match active with
  | none => false
  | some p => records.any (fun r => decide (r.kind = 0x12) && p.sections.contains r)

/-- Automata of a maquette whose slices collide with the active policy's. -/
def clashingAutomata (active : Option Policy) (t : PolicyTables) (records : List SectionRecord) : List Automaton :=
  match active.bind (fun p => p.tables.awl), t.awl with
  | some a, some m =>
    if sharesAwl active records then []
    else m.automata.filter (fun x => a.automata.any (fun y => !apartSpans x.firstLane x.replicas y.firstLane y.replicas
      && !apartSpans x.base x.entries y.base y.entries))
  | _, _ => []

/-- Whether a maquette needs a cast window. -/
def needsWindow (active : Option Policy) (t : PolicyTables) (records : List SectionRecord) : Bool :=
  !(clashingImages active t).isEmpty || !(clashingAutomata active t records).isEmpty

/-- The largest delay of a manifest. -/
def largestDelay (m : LatencyManifest) : Nat := maxOf (m.entries.map (fun e => e.delay))

/-- `window_needed` (R448): the bytes moved are the colliding images' and automata's, these in both halves. -/
def windowNeeded (active : Option Policy) (t : PolicyTables) (records : List SectionRecord) : Nat :=
  if !needsWindow active t records then 0
  else
    let bytes := ((clashingImages active t).map (fun m => units64 m.body.length)).sum
      + ((clashingAutomata active t records).map (fun a => 2 * 4 * a.entries * a.replicas)).sum
    (active.map (fun p => largestDelay p.tables.latency)).getD 0 + 1024 + 102400 + (bytes + 1023) / 1024

/-! ### Check 5: latency (R43, R49, R113, R203, R282, R321, R341) -/

/-- The entries of a stage code. -/
def entriesOf (m : LatencyManifest) (stage : Nat) : List ManifestEntry := m.entries.filter (fun e => e.stage = stage)

/-- A stage's delay, 0 without an entry. -/
def delayOf (m : LatencyManifest) (stage : Nat) : Nat := (((entriesOf m stage).head?).map (fun e => e.delay)).getD 0

/-- The stages that roles need (R49). -/
def neededStages (roles : Byte) : List Nat :=
  (if roles.getLsbD 0 then [1, 2] else []) ++ (if roles.getLsbD 1 then [3, 4] else []) ++ (if roles.getLsbD 2 then [5] else [])

/-- The contributions that the policy delivers to its bridle here (R49). -/
def neededContributions (t : PolicyTables) : List Nat :=
  let r := t.resources.roles
  (if r.getLsbD 1 then [0x10, 0x15] else []) ++ (if r.getLsbD 0 || r.getLsbD 1 then [0x11] else [])
    ++ (if t.armature.isSome then [0x12] else []) ++ (if t.judge.isSome then [0x13] else [])

/-- SL's minimum (R44, R321), with nothing of other streams ahead. -/
def sampleMinimum (t : PolicyTables) : Nat :=
  match t.sampler with
  | some m => 1408 + (m.maxDrafts + 1) * ((m.vocab + 511) / 512)
  | none => 1408

/-- TL's minimum for a chunk size (R113). -/
def tokenizeMinimum (chunkBytes : Nat) : Nat :=
  let b := 3 * (chunkBytes + 239)
  let s := (b + 15) / 16
  4 * (96 + s + 4 * (s + 63)) + 128

/-- The engine cycles that a full slice of a tap places on its busiest unit (R281, R282). -/
def sliceCycles (t : CallipersTables) (d : TapDecl) : Nat :=
  let uses := (t.probes.drop d.probeFirst).take d.probeN
  let cost := fun (p : ProbeDecl) => p.outputs * (if p.fmt = 3 then (d.elements + 31) / 32 else (d.elements + 63) / 64)
  let items := (List.range d.rows).flatMap (fun _ => uses.map cost)
  maxOf ((List.range 32).map (fun u => ((items.zipIdx.filter (fun x => decide (x.2 % 32 = u))).map (fun x => x.1)).sum))

/-- PL's minimum for a tap, with no other slice ahead and without the cells' path (R282). -/
def probeMinimum (t : CallipersTables) (d : TapDecl) : Nat :=
  let uses := (t.probes.drop d.probeFirst).take d.probeN
  32 + (d.rows * d.rowBytes + 511) / 512 + sliceCycles t d + 16 + 64 + bitIf (uses.any (fun p => p.mlp)) 16

/-- A program that some tenant's streams can be bound to. -/
def bindable (b : BridleTables) (n : Nat) : Bool :=
  b.tenantMap.any (fun e => decide (e.2.1 = n) || decide (e.2.2 = n)) || (decide (n = 0) && decide (b.tenantMap.length < 65536))

/-- Cb's minimum, with no other verdict ahead (R341). -/
def bridleMinimum (t : PolicyTables) : Nat :=
  match t.bridle with
  | none => 0
  | some b =>
    32 + maxOf (((b.programs.zipIdx.filter (fun x => bindable b x.2)).map (fun x =>
      longestPath (programCode b x.1) x.1.length 0))) + 48 + 160

/-- Whether a stage's delay lies in its range (R43) and is no shorter than what the firmware can prove of it. -/
def delayOk (t : PolicyTables) (e : ManifestEntry) : Bool :=
  match e.stage with
  | 1 => within 512 e.delay 65536 && (t.skiver.map (fun k => decide (tokenizeMinimum k.chunkBytes ≤ e.delay))).getD true
  | 2 => within 1024 e.delay 262144
  | 3 => within (sampleMinimum t) e.delay 262144
  | 4 => within 1024 e.delay 262144
  | 5 => within 256 e.delay 65536
      && (t.callipers.map (fun c => c.taps.all (fun d => decide (probeMinimum c d ≤ e.delay)))).getD true
  | _ => true

/-- Whether a contribution's `ready_by` meets the cutoff of each role it names (R46, R49). -/
def readyOk (m : LatencyManifest) (e : ManifestEntry) : Bool :=
  !within 0x10 e.stage 0x13
    || ((e.roles.getLsbD 0 || e.roles.getLsbD 1)
      && (!e.roles.getLsbD 0 || decide (e.readyBy + m.bridleRun ≤ delayOf m 2))
      && (!e.roles.getLsbD 1 || decide (e.readyBy + m.bridleRun ≤ delayOf m 4)))

/-- Whether the armature's offsets follow what its samples read (R203). -/
def offsetsOk (t : PolicyTables) : Bool :=
  match t.armature with
  | none => true
  | some a =>
    let m := t.latency
    (entriesOf m 0x10 ++ (entriesOf m 0x11).filter (fun e => e.roles.getLsbD 1)).all (fun e => decide (e.readyBy ≤ a.egressOffset))
      && ((entriesOf m 0x11).filter (fun e => e.roles.getLsbD 0)).all (fun e => decide (e.readyBy ≤ a.ingressOffset + delayOf m 1))

/-- Check 5. -/
def State.latencyProven (s : State) (t : PolicyTables) (records : List SectionRecord) : Bool :=
  let m := t.latency
  decide (leBytes 8 m.distanceId.toNat = s.distanceId) && decide (leBytes 8 m.capabilityId.toNat = s.capabilityId)
    && decide (m.clockNorth = s.power.north.point) && decide (m.clockSouth = s.power.south.point)
    && decide (m.castWindow ≤ 4800000) && (neededStages t.resources.roles).all (fun k => decide ((entriesOf m k).length = 1))
    && (neededContributions t).all (fun k => !(entriesOf m k).isEmpty) && m.entries.all (delayOk t) && m.entries.all (readyOk m)
    && offsetsOk t && decide (bridleMinimum t ≤ m.bridleRun) && decide (windowNeeded s.cast.active t records ≤ m.castWindow)

/-! ### The response (R441) -/

/-- The first 16 unusable cells, 0xFFFF where there are fewer. -/
def State.unusableCells (s : State) : List Byte :=
  let cells := ((List.range 4096).filter (fun c => !s.rel.usable (BitVec.ofNat 12 c))).take 16
  (cells ++ List.replicate (16 - cells.length) 0xFFFF).flatMap (leBytes 2)

/-- The body of the BUNDLE_STAGE response. -/
def State.stageBody (s : State) (check sect : Nat) (window : Bool) (fit : Fit) (needed : Nat) : List Byte :=
  leBytes 1 check ++ leBytes 1 (bitIf window 1) ++ leBytes 2 sect ++ leBytes 4 (min fit.region 0xFFFFFFFF) ++ leBytes 2 fit.cells
    ++ leBytes 2 fit.store ++ leBytes 4 (min needed 0xFFFFFFFF) ++ s.capabilityId ++ s.distanceId ++ s.unusableCells

/-- The status of a failing check (R439). -/
def checkStatus (check : Nat) : Nat :=
  match check with
  | 1 => Status.badSignature
  | 4 => Status.doesNotFit
  | 5 => Status.latencyUnproven
  | _ => Status.crossref

/-! ### Loading cell images (R258, R259) -/

/-- A policy slot as an image loads it. -/
def slotOfImage (id : DWord) (m : CellImage) : CellSlot :=
  { loaded := true, loadBase := m.loadBase, rangeBytes := m.rangeBytes, barrierMask := m.barrierMask, handlers := m.handlers,
    windows := m.windows.map (fun w => ((Config.tableBase id w.table).toNat, w.length, w.writable)) }

/-- Set a policy slot. -/
def Cell.setSlot (x : Cell) (one : Bool) (v : CellSlot) : Cell := if one then { x with slot1 := v } else { x with slot0 := v }

/-- Load an image into a slot: the body, zeros after it, and each relocation's window base. -/
def Cell.load (x : Cell) (one : Bool) (id : DWord) (m : CellImage) : Cell :=
  let sl := slotOfImage id m
  let x1 := (x.write m.loadBase (padTo m.rangeBytes m.body)).setSlot one sl
  m.relocs.foldl (fun (y : Cell) (r : Nat × Nat) => y.write r.1 (leBytes 8 (((sl.windows[r.2]?).map (fun w => w.1)).getD 0))) x1

/-- Empty a policy slot of every cell. -/
def State.clearCellSlots (s : State) (one : Bool) : State :=
  { s with grid := { s.grid with cells := s.grid.cells.map (fun (e : CellId × Cell) => (e.1, e.2.setSlot one {})) } }

/-- Load a policy's images into its slot of their cells. -/
def State.loadImages (s : State) (one : Bool) (t : PolicyTables) : State :=
  t.images.foldl (fun (u : State) m => u.setCell m.cell ((u.cell m.cell).load one t.latency.policyId m)) (s.clearCellSlots one)

/-- Change the store slot of both halves. -/
def State.setStores (s : State) (one : Bool) (v : StoreSlot) : State :=
  { s with eng := { s.eng with stores := aset (.south, one) v (aset (.north, one) v s.eng.stores) } }

/-- Free a policy slot: its cells' images and its stores (R447). -/
def State.freeSlots (s : State) (one : Bool) : State := (s.clearCellSlots one).setStores one {}

/-- Load a maquette's weight image, class map and bias vectors into the store slot that the active policy does not use, in both halves
(R278, R303, R318): what was poisoned in that slot of the weight stores is written anew. -/
def State.loadStores (s : State) (one : Bool) (t : PolicyTables) : State :=
  let v : StoreSlot :=
    { weights := (t.callipers.map (fun c => c.weightImage)).getD [], classes := (t.sampler.map (fun x => x.classMap)).getD [],
      biases := (t.sampler.map (fun x => x.biases)).getD [] }
  let base := if one then 0x800000 else 0
  let kept := s.rel.poisoned.filter (fun (e : Nat × Nat × Nat) =>
    !(decide (e.1 = 3) && decide (base ≤ e.2.2) && decide (e.2.2 < base + v.weights.length)))
  ({ s with rel := { s.rel with poisoned := kept } }).setStores one v

/-- Place a policy's sections: what its cells' windows then show is open, also where a cell had written (R258; log 40). -/
def State.placeSections (s : State) (t : PolicyTables) : State :=
  let spans := t.images.flatMap (fun m => m.windows.map (fun w => ((Config.tableBase t.latency.policyId w.table).toNat, w.length)))
  { s with cast := { s.cast with placements := s.cast.placements + 1 },
           grid := { s.grid with written := s.grid.written.filter (fun w => spans.all (fun v => apartSpans w.1 w.2 v.1 v.2)) } }

/-! ### BUNDLE_BEGIN, BUNDLE_WRITE, BUNDLE_DISCARD (R438, R518) -/

/-- Whether a live stream is held on a policy: pinned to it, or on the retained one because the active one lacks its role (R447). -/
def State.heldOn (s : State) (p : Policy) (st : Stream) : Bool :=
  let lacks := !((s.cast.active.map (fun a => a.role (roleOf st.req.egress))).getD true)
  decide (st.state ≠ .closed)
    && (if st.pinned then decide (st.epoch = p.epoch) else lacks && s.cast.retained.any (fun q => decide (q.epoch = p.epoch)))

/-- The streams held on a policy. -/
def State.heldStreams (s : State) (p : Policy) : Nat := (s.streams.table.filter (fun e => s.heldOn p e.2)).length

/-- BUNDLE_BEGIN's effect. -/
def runBundleBegin (c : Cmd) (s : State) : State :=
  let total := field c.body 0 8
  if s.cast.staged.isSome || s.cast.writing.isSome then s.answer c Status.busy []
  else match (if s.cast.windowEnd.isSome then none else s.cast.retained) with
    | some p => s.answer c Status.busy (leBytes 4 (s.heldStreams p))
    | none =>
      let free := s.regionFree
      if free < total then s.answer c Status.doesNotFit (leBytes 8 free ++ leBytes 8 (total - free))
      else
        let w : Writing := { policyId := BitVec.ofNat 64 (field c.body 8 8), totalBytes := total, port := c.port, chunks := [] }
        ({ s with cast := { s.cast with writing := some w } }).answer c Status.ok (leBytes 8 free ++ leBytes 8 0)

/-- BUNDLE_WRITE's effect. -/
def runBundleWrite (c : Cmd) (s : State) : State :=
  let off := field c.body 0 8
  let len := field c.body 8 2
  match s.cast.writing with
  | none => s.answer c Status.crossref []
  | some w =>
    if w.port ≠ c.port then s.answer c Status.notOwner []
    else if len = 0 ∨ 224 < len ∨ c.len < 16 + len ∨ w.totalBytes < off + len then s.answer c Status.crossref []
    else
      let w' : Writing := { w with chunks := w.chunks ++ [(off, (c.body.drop 16).take len)] }
      ({ s with cast := { s.cast with writing := some w' } }).answer c Status.ok []

/-- Drop a staged maquette, its stores and its images' cell slot. -/
def State.dropStaged (s : State) : State :=
  match s.cast.staged with
  | none => s
  | some p =>
    let s1 := { s with cast := { s.cast with staged := none, stagedBody := [], stagedShared := 0 } }
    if p.windowed then s1.setStores p.cellSlot {} else s1.freeSlots p.cellSlot

/-- BUNDLE_DISCARD's effect. -/
def runBundleDiscard (c : Cmd) (s : State) : State :=
  if s.cast.staged.isNone && s.cast.writing.isNone then s.answer c Status.alreadyDone []
  else if s.cast.armed.isSome then s.answer c Status.busy []
  else ({ s.dropStaged with cast := { s.dropStaged.cast with writing := none } }).answer c Status.ok []

/-! ### BUNDLE_STAGE (R439) -/

/-- BUNDLE_STAGE's start: with nothing being written it answers at once. -/
def runBundleStage (c : Cmd) (s : State) : State :=
  match s.cast.writing with
  | none =>
    if s.cast.staged.isSome then s.answer c Status.alreadyDone s.cast.stagedBody
    else s.answer c Status.crossref (s.stageBody 2 0xFFFF false {} 0)
  | some _ => s.admitLong c (fun t => { t with cast := { t.cast with staging := some (c.port, c.slot) } })

/-- Checks 1 to 3. -/
def State.checkBundle (s : State) (w : Writing) (b : List Byte) (all : Bool) (m : SectionMap) (t : PolicyTables) : Option Failing :=
  match s.checkSignature b w.totalBytes with
  | some f => some f
  | none => match s.checkForm w b all with
    | some f => some f
    | none => s.checkContents b m t

/-- The staging ends with a failing check: the maquette is rejected whole. -/
def State.rejectStage (s : State) (src : Option (MPort × Fin 32)) (f : Failing) (window : Bool) (fit : Fit) (needed : Nat) : State :=
  let body := s.stageBody f.1 f.2 window fit needed
  (({ s with cast := { s.cast with writing := none, staging := none } }).count1 0x11 0 (5 + f.1)).answerFrom src
    (checkStatus f.1) body

/-- BUNDLE_STAGE_COMPLETE: the checks in order, then the maquette is staged and its images are loaded beside the active
policy's, unless it needs a window (R259, R439, R448). It waits for the end of a cast window under way. -/
def stageComplete (m : SectionMap) (s0 : State) : State :=
  match s0.cast.writing, s0.cast.staging, s0.cast.windowEnd with
  | some w, some src, none =>
    let (b, all) := s0.bundleBytes w
    let s := if all then s0 else { s0 with freeUse := s0.freeUse + w.totalBytes }
    let t := assemble s.cast.active b m
    let records := sectionRecords s.cast.active b m t
    let shared := sharedBytes s.cast.active b
    let window := needsWindow s.cast.active t records
    let needed := windowNeeded s.cast.active t records
    match s.checkBundle w b all m t with
    | some f => s.rejectStage (some src) f false {} 0
    | none =>
      let fit := s.checkFit (directory b) t shared
      match fit.failing with
      | some f => s.rejectStage (some src) f window fit needed
      | none =>
        if !s.latencyProven t records then s.rejectStage (some src) (5, 0xFFFF) window fit needed
        else
          let one := !((s.cast.active.map (fun p => p.cellSlot)).getD true)
          let p : Policy := { tables := t, epoch := 0, instant := 0, effective := 0, sections := records,
                              placed := t.resources.placedBytes, windowed := window, cellSlot := one }
          let body := s.stageBody 0 0xFFFF window fit needed
          let s1 := { s with cast := { s.cast with staged := some p, stagedBody := body, stagedShared := shared, writing := none,
                                                   staging := none } }
          let s2 := if window then s1.loadStores one t else ((s1.loadImages one t).placeSections t).loadStores one t
          s2.answerFrom (some src) Status.ok body
  | _, _, _ => s0

/-! ### The recheck (R442) -/

/-- Raise NTC_CAST_DONE (R444). -/
def State.noteCast (s : State) (policyId : DWord) (epoch status instant : Nat) : State :=
  s.raise 17 (leBytes 8 policyId.toNat ++ leBytes 4 epoch ++ leBytes 1 status ++ leBytes 8 instant ++ leBytes 1 (syncCode s.aon.sync))

/-- Cancel an armed cast, counted. -/
def State.cancelArmed (s : State) : State :=
  if s.cast.armed.isSome then ({ s with cast := { s.cast with armed := none } }).count1 0x11 0 12 else s

/-- Run checks 4 and 5 again on a staged maquette after the capability map or the distance table has changed. With no cast
armed, the epoch and the instant that NTC_CAST_DONE latches are free values: none was given (log 46). -/
def State.recheck (s : State) : State :=
  match s.cast.staged with
  | none => s
  | some p =>
    let fit := s.checkFit [] p.tables s.cast.stagedShared
    let failed := match fit.failing with
      | some _ => some 4
      | none => if s.latencyProven p.tables p.sections then none else some 5
    match failed with
    | none => s
    | some check =>
      let armed := s.cast.armed
      let s1 := (s.dropStaged.cancelArmed).count1 0x11 0 (5 + check)
      match armed with
      | some a => s1.noteCast p.tables.latency.policyId a.epoch (checkStatus check) a.instant
      | none =>
        let n := s1.freeUse
        ({ s1 with freeUse := n + 3 }).noteCast p.tables.latency.policyId (Config.freeWord n).toNat (checkStatus check)
          ((Config.freeWord (n + 1)).toNat + 2 ^ 32 * (Config.freeWord (n + 2)).toNat)

/-- What follows a change of the capability map: when `capability_id` differs from before, the distance table is generated
anew and a staged maquette checked again (R236, R442, R492). -/
def State.afterMapChange (s : State) (before : List Byte) : State :=
  if s.capabilityId = before then s else s.newDistance.recheck

/-! ### Meanings -/

/-- BUNDLE_BEGIN (R438). -/
def execBundleBegin (p : MPort) (n : Fin 32) (s : State) : Host.Outcome State Fault Refusal :=
  .next (s.startCmd p n 0x0110 16 runBundleBegin)

/-- BUNDLE_WRITE (R438). -/
def execBundleWrite (p : MPort) (n : Fin 32) (s : State) : Host.Outcome State Fault Refusal :=
  .next (s.startCmd p n 0x0111 16 runBundleWrite)

/-- BUNDLE_STAGE (R439). -/
def execBundleStage (p : MPort) (n : Fin 32) (s : State) : Host.Outcome State Fault Refusal :=
  .next (s.startCmd p n 0x0112 0 runBundleStage)

/-- BUNDLE_STAGE_COMPLETE (R436, R439 to R441). -/
def execBundleStageComplete (m : SectionMap) (s : State) : Host.Outcome State Fault Refusal := .next (stageComplete m s)

/-- BUNDLE_DISCARD (R518). -/
def execBundleDiscard (p : MPort) (n : Fin 32) (s : State) : Host.Outcome State Fault Refusal :=
  .next (s.startCmd p n 0x0113 0 runBundleDiscard)

end Sys2Proof.Machine
end

