-- ==== Sys2Proof/Machine/Casting.lean ====
section
/-! DEFINITION. Casting (R443 to R449): arming by command and by message, the cast instant, the end of a cast window and the
end of a retained policy. -/

namespace Sys2Proof.Machine

/-! ### Arming (R443, R446, R449) -/

/-- Whether some live stream keeps a windowed cast from being armed (R449). -/
def State.windowBlocked (s : State) (p : Policy) : Bool :=
  p.windowed && s.streams.table.any (fun e =>
    decide (e.2.state ≠ .closed) && (e.2.pinned || !p.role (roleOf e.2.req.egress)))

/-- Whether an epoch is newer than another one (R443). -/
def newerEpoch (e active : Nat) : Bool :=
  let d := (e + 2 ^ 32 - active % 2 ^ 32) % 2 ^ 32
  decide (1 ≤ d) && decide (d < 2 ^ 31)

/-- Whether the active policy is the one that an arm names. -/
def State.alreadyCast (s : State) (policyId : DWord) (epoch : Nat) : Bool :=
  s.cast.active.any (fun p => decide (p.tables.latency.policyId = policyId) && decide (p.epoch = epoch))

/-- Arm a cast: a repeat of the active policy answers ALREADY_DONE even while UNLOCKED (R443, log 48): the status, and the state with the cast armed when it is OK. -/
def State.armCast (s : State) (policyId : DWord) (epoch instant accept : Nat) : Nat × State :=
  if s.alreadyCast policyId epoch then (Status.alreadyDone, s)
  else if s.aon.sync = .unlocked then (Status.degraded, s)
  else if s.cast.armed.isSome then (Status.busy, s)
  else match s.cast.staged with
    | none => (Status.crossref, s)
    | some p =>
      if p.tables.latency.policyId ≠ policyId then (Status.crossref, s)
      else if instant < accept + 65536 ∨ accept + 1600000000 < instant ∨ !newerEpoch epoch s.cast.epoch then (Status.crossref, s)
      else if s.windowBlocked p then (Status.busy, s)
      else (Status.ok, { s with cast := { s.cast with armed := some ⟨instant, epoch, policyId⟩ } })

/-- Disarm a cast. -/
def State.disarmCast (s : State) (policyId : DWord) (accept : Nat) : Nat × State :=
  match s.cast.armed with
  | none => (Status.alreadyDone, s)
  | some a =>
    if a.policyId ≠ policyId then (Status.crossref, s)
    else if a.instant < accept + 4096 then (Status.timeout, s)
    else (Status.ok, { s with cast := { s.cast with armed := none } })

/-- CAST_ARM's effect. -/
def runCastArm (c : Cmd) (s : State) : State :=
  let r := s.armCast (BitVec.ofNat 64 (field c.body 0 8)) (field c.body 16 4) (field c.body 8 8) c.accept
  r.2.answer c r.1 []

/-- CAST_DISARM's effect. -/
def runCastDisarm (c : Cmd) (s : State) : State :=
  let r := s.disarmCast (BitVec.ofNat 64 (field c.body 0 8)) c.accept
  r.2.answer c r.1 []

/-- The payload of the reply to a CAST message: the message's fields under `op` 3 with the status. -/
def castReply (payload : List Byte) (status : Nat) : List Byte :=
  padTo 64 (leBytes 1 3 ++ leBytes 1 status ++ (payload.drop 2).take 22)

/-- A CAST message: a reply goes to host bulk port 0 as a packet to the own node; a message of the enabled controller arms or disarms; any other is counted. -/
def takeCastMessage (s : State) : State :=
  match s.takeInbox (fun a => decide (a.pkt.hdr.port = 0xC5#8)) with
  | none => s
  | some (a, s1) =>
    let b := a.pkt.payload
    let op := field b 0 1
    if op = 3 then s1.offerBulk 0 { a.pkt with hdr := { a.pkt.hdr with dest := s1.aon.node, multicast := false } } a.toBulk
    else if !s1.ctl.castEnable || decide (a.pkt.hdr.source ≠ s1.ctl.castController) then s1.count1 0x11 0 13
    else
      let id : DWord := BitVec.ofNat 64 (field b 8 8)
      let r := if op = 1 then s1.armCast id (field b 4 4) (field b 16 8) a.stamp
               else if op = 2 then s1.disarmCast id a.stamp else (Status.crossref, s1)
      r.2.sendRouted (nodeField b 2) 0xC5#8 0#48 (castReply b r.1)

/-! ### The cast instant (R444) -/

/-- A queue's configuration from the policy: the level at once, the other fields once the queue is empty (R405). -/
def Queue.reconfigure (q : Queue) (c : QueueCfg) : Queue :=
  ({ q with cfg := { q.cfg with level := c.level }, nextCfg := some c } : Queue).settle

/-- Give every queue its new configuration. -/
def State.installQueues (s : State) (cs : List QueueCfg) : State :=
  (List.finRange 512).foldl (fun (u : State) q =>
    match cs[q.val]? with
    | some c => u.setQueue q ((u.queue q).reconfigure c)
    | none => u) s

/-- A half's array changes to its pending set point; one that an emergency holds below its set point is not raised (R484,
R486). -/
def HalfPower.applyPoint (h : HalfPower) : HalfPower :=
  { h with setPoint := h.point, pending := none, run := if h.run = h.setPoint then h.point else min h.run h.point }

/-- Both halves change to their pending set points, with their voltage codes (R501). -/
def State.applyPoints (s : State) : State :=
  (((s.setHalf .north s.power.north.applyPoint).setHalf .south s.power.south.applyPoint).driveVid .north).driveVid .south

/-- The array state of a half under a policy: power-gated when no image uses it; a lost one stays lost (R488, R489). -/
def arrayUnder (t : PolicyTables) (now : Nat) (h : HalfId) : Nat :=
  if now = 1 then 1 else if t.images.any (fun m => decide (cellHalf m.cell = h)) then 0 else 2

/-- Power-gate the arrays that a policy leaves unused (R489). -/
def State.gateArrays (s : State) (t : PolicyTables) : State :=
  ({ s with rel := { s.rel with arrayNorth := arrayUnder t s.rel.arrayNorth .north,
                                arraySouth := arrayUnder t s.rel.arraySouth .south } }).afterMapChange s.capabilityId

/-- Whether the cast ends the DEGRADED report (R487); `id` is the capability identifier at the instant. -/
def State.endsDegraded (s : State) (t : PolicyTables) (id : List Byte) : Bool :=
  s.rel.degraded && decide (s.power.north.run = s.power.north.setPoint) && decide (s.power.south.run = s.power.south.setPoint)
    && !s.rel.lost .north && !s.rel.lost .south && decide (leBytes 8 t.latency.capabilityId.toNat = id)

/-- End the DEGRADED report with its notice (R487, R496). The notice's half is a free value: the whole gate returns. -/
def State.clearDegraded (s : State) : State :=
  let n := s.draw
  ({ n.2 with rel := { n.2.rel with degraded := false } }).noteDegraded 6 ((Config.freeWord n.1).toNat % 2)

/-- The barrier release of a cast on the sync port (R402). -/
def State.castBarrier (s : State) : State :=
  if s.ctl.castBarrier.getLsbD 15 then
    { s with ctl := { s.ctl with syncOut := s.ctl.syncOut ++ [0x4000#16 ||| (s.ctl.castBarrier &&& 0x3FFF#16)] } }
  else s

/-- The policy as it becomes active: the engines of the capability map it was compiled for that had failed are carried by the
other half (R18, R479). -/
def Policy.castAt (p : Policy) (a : Armed) (r : Reliability) : Policy :=
  { p with epoch := a.epoch, instant := a.instant,
           effective := if p.windowed then a.instant + p.tables.latency.castWindow else a.instant,
           failedNorth := r.enginesNorth, failedSouth := r.enginesSouth }

/-- The engines that a hard fault holds until the next cast serve again, carried as the new policy places them (R479). -/
def State.endEngineHolds (s : State) : State :=
  { s with eng := { s.eng with restarting := s.eng.restarting.filter (fun e => decide (e.2.2.2 < 2 ^ 64)) } }

/-- The cast of a staged policy. -/
def State.castNow (s : State) (a : Armed) (m : Policy) : State :=
  let p := m.castAt a s.rel
  let s1 : State := { s with
    cast := { s.cast with active := some p, retained := s.cast.active, staged := none, stagedBody := [], stagedShared := 0,
                          armed := none, epoch := a.epoch, defaultState := false,
                          defaultUntil := if s.cast.defaultState then a.instant else s.cast.defaultUntil,
                          windowEnd := if p.windowed then some p.effective else none,
                          windowCast := if p.windowed then some a else none }
    plane := { s.plane with formerRoutes := some (a.instant, s.plane.policyRoutes) } }
  let s2 := ((s1.installTables p.tables).installQueues p.tables.queueTable).applyPoints.endEngineHolds
  let s3 : State := { s2 with power := { s2.power with throttlePending := false } }
  let s4 := if s3.endsDegraded p.tables s.capabilityId then s3.clearDegraded else s3
  let s5 := (s4.gateArrays p.tables).castBarrier.count1 0x11 0 11
  if p.windowed then s5 else s5.noteCast a.policyId a.epoch Status.ok a.instant

/-- CAST_INSTANT: at tick I the armed maquette becomes the active policy. -/
def castInstant (s : State) : State :=
  match s.cast.armed, s.cast.staged with
  | some a, some m => if a.instant ≤ s.now then s.castNow a m else s
  | _, _ => s

/-- CAST_WINDOW_END: the held sections are in place, the old policy is gone and the cast is reported (R448, R449). -/
def castWindowEnd (s : State) : State :=
  match s.cast.windowEnd, s.cast.active with
  | some e, some p =>
    if e ≤ s.now then
      let old := s.cast.retained
      let s1 : State := { s with cast := { s.cast with retained := none, windowEnd := none, windowCast := none } }
      let s2 := match old with | some q => s1.freeSlots q.cellSlot | none => s1
      let s3 := (s2.loadImages p.cellSlot p.tables).placeSections p.tables
      match s.cast.windowCast with
      | some a => s3.noteCast a.policyId a.epoch Status.ok a.instant
      | none => s3
    else s
  | _, _ => s

/-! ### The end of a retained policy (R447) -/

/-- Whether a stream holds something stamped that runs under a cast epoch and is not released. -/
def Stream.inFlightOf (st : Stream) (e : Nat) : Bool :=
  st.tokens.any (fun x => decide (x.epoch = e)) || st.steps.any (fun x => decide (x.epoch = e) && !x.released)
    || st.inp.chunks.any (fun c => decide (c.epoch = e) && !c.released) || st.inp.verdicts.any (fun v => decide (v.epoch = e))

/-- Whether anything stamped under a cast epoch, or before an instant, awaits its release. -/
def State.inFlightOf (s : State) (e instant : Nat) : Bool :=
  s.streams.table.any (fun x => x.2.inFlightOf e) || s.streams.opens.any (fun o => decide (o.stamp < instant))
    || s.streams.orphans.any (fun o => decide (s.now < o.release))
    || s.eng.lanes.any (fun l => l.2.run.any (fun r => decide (r.epoch = e)))
    || s.eng.callipers.items.any (fun i => decide (i.epoch = e) && !i.released)
    || s.eng.callipers.slices.any (fun x => decide (x.opened < instant)) || s.plane.inbox.any (fun a => decide (a.stamp < instant))

/-- POLICY_RETIRE: the last stream held on the retained policy has closed and every input stamped before the cast has been
released, so its bytes and slots are freed. -/
def policyRetire (s : State) : State :=
  match s.cast.retained, s.cast.windowEnd, s.cast.active with
  | some p, none, some a =>
    if s.heldStreams p = 0 ∧ !s.inFlightOf p.epoch a.instant then
      ({ s with cast := { s.cast with retained := none } }).freeSlots p.cellSlot
    else s
  | _, _, _ => s

/-! ### Meanings -/

/-- CAST_ARM (R443). -/
def execCastArm (p : MPort) (n : Fin 32) (s : State) : Host.Outcome State Fault Refusal :=
  .next (s.startCmd p n 0x0120 24 runCastArm)

/-- CAST_DISARM (R443). -/
def execCastDisarm (p : MPort) (n : Fin 32) (s : State) : Host.Outcome State Fault Refusal :=
  .next (s.startCmd p n 0x0121 8 runCastDisarm)

/-- CAST_MESSAGE (R446). -/
def execCastMessage (s : State) : Host.Outcome State Fault Refusal := .next (takeCastMessage s)

/-- CAST_INSTANT (R29, R402, R405, R444, R484, R487, R489, R501). -/
def execCastInstant (s : State) : Host.Outcome State Fault Refusal := .next (castInstant s)

/-- CAST_WINDOW_END (R448, R449). -/
def execCastWindowEnd (s : State) : Host.Outcome State Fault Refusal := .next (castWindowEnd s)

/-- POLICY_RETIRE (R447). -/
def execPolicyRetire (s : State) : Host.Outcome State Fault Refusal := .next (policyRetire s)

end Sys2Proof.Machine
end

