-- ==== Sys2Proof/Machine/Reliability.lean ====
section
/-! DEFINITION. Reliability (R468 to R483): patrol and repair of memories, hard faults of cells, benches and engines, and the
welt. -/

namespace Sys2Proof.Machine

/-! ### Streams in slot order -/

/-- Insert a slot's stream in ascending slot order. -/
def insertSlot (e : SlotId × Stream) : List (SlotId × Stream) → List (SlotId × Stream)
  | [] => [e]
  | x :: xs => if e.1 < x.1 then e :: x :: xs else x :: insertSlot e xs

/-- The streams that are not FREE, in ascending slot order. -/
def State.streamsInOrder (s : State) : List (SlotId × Stream) := s.streams.table.foldr insertSlot []

/-! ### Cells (R265, R476, R477) -/

/-- A cell whose work and memory are lost: the slots' tables stay the cell's, their images are to be loaded again. -/
def Cell.lost (x : Cell) (reload : Bool) : Cell := { slot0 := x.slot0, slot1 := x.slot1, reloading := reload }

/-- The work of the cells that a test picks is lost, with the transfers they began. -/
def State.loseCells (s : State) (f : CellId → Bool) : State :=
  { s with grid := { s.grid with cells := s.grid.cells.map (fun (e : CellId × Cell) => if f e.1 then (e.1, e.2.lost false) else e),
                                 transfers := s.grid.transfers.filter (fun t => !(f t.from? && decide (t.kind ≠ 3))) } }

/-- Whether a stream in slot k has judge frames on a cell (R261). -/
def State.judgesOn (s : State) (k : SlotId) (st : Stream) (c : CellId) : Bool :=
  ((s.policyOf st).bind (fun p => p.tables.judge)).any (fun j => j.stages.any (fun g => decide (stageCell g k = c)))

/-- The next judge item of every stream with frames on a cell restarts (R263, R265). -/
def State.restartJudges (s : State) (c : CellId) : State :=
  { s with streams := { s.streams with table := s.streams.table.map (fun (e : SlotId × Stream) =>
      if s.judgesOn e.1 e.2 c then (e.1, { e.2 with judgeRestart := true }) else e) } }

/-- Replace a bench's byte of the map. -/
def State.setBench (s : State) (b : Byte) (v : Byte) : State := { s with rel := { s.rel with benches := aset b v s.rel.benches } }

/-- A bench becomes short: its 16 cells are unusable and the map changes (R477, R492). -/
def State.shortBench (s : State) (b : Byte) (bits : Byte) : State :=
  let s1 := (s.setBench b (s.rel.bench b ||| bits)).loseCells (fun c => decide (benchOf c = b))
  ((s1.takeRepairSem).noteDegraded 4 (halfCode (benchHalf b))).afterMapChange s.capabilityId

/-- A hard fault of a cell: the bench's free spare takes the logical cell over, which is reloaded; otherwise the bench is
short (R476, R477). -/
def cellHardFault (c : CellId) (s : State) : State :=
  let b := benchOf c
  let v := s.rel.bench b
  if !s.rel.usable c then s
  else if benchSpareUsed v || benchSpareFailed v then s.shortBench b 0x01#8
  else
    let pos := c.toNat % 16
    let s1 := (s.loseCells (fun x => decide (x = c))).restartJudges c
    let s2 := (s1.setBench b (BitVec.ofNat 8 (2 + 16 * pos))).setCell c ((s1.cell c).lost true)
    s2.noteSpare 3 (leBytes 2 c.toNat ++ leBytes 1 pos)

/-- The policies whose images stand in cell slots: those in the gate, and a staged one that needs no window (R259). -/
def State.slotPolicies (s : State) : List Policy :=
  let staged := s.cast.staged.toList.filter (fun p => !p.windowed)
  let active := s.cast.active.toList.filter (fun _ => s.cast.windowEnd.isNone)
  active ++ s.cast.retained.toList ++ staged

/-- A cell with the images of a policy's slot loaded again (R259). -/
def Cell.reload (x : Cell) (p : Policy) (c : CellId) : Cell :=
  (p.tables.images.filter (fun m => decide (m.cell = c))).foldl (fun (y : Cell) m => y.load p.cellSlot p.tables.latency.policyId m) x

/-- CELL_RELOAD_COMPLETE: both slots' images are loaded again from the policy region. -/
def cellReloadComplete (c : CellId) (s : State) : State :=
  let x := s.cell c
  if x.reloading then s.setCell c (s.slotPolicies.foldl (fun (y : Cell) p => y.reload p c) { x with reloading := false }) else s

/-- BENCH_ROUTER_FAIL: the bench is bypassed and short; the distance table is generated anew (R478). -/
def benchRouterFail (b : Byte) (s : State) : State :=
  if s.rel.bench b &&& 0x09#8 = 0x09#8 then s else s.shortBench b 0x09#8

/-! ### Arrays and engines (R479, R488) -/

/-- Set a half's array state. -/
def State.setArray (s : State) (h : HalfId) (v : Nat) : State :=
  match h with
  | .north => { s with rel := { s.rel with arrayNorth := v } }
  | .south => { s with rel := { s.rel with arraySouth := v } }

/-- A half's array is lost: its cells are unusable and DEGRADED is reported (R488, R492). -/
def State.loseArray (s : State) (h : HalfId) : State :=
  if s.rel.lost h then s
  else
    let s1 := (s.setArray h 1).loseCells (fun c => decide (cellHalf c = h))
    let s2 := ({ s1 with rel := { s1.rel with degraded := true } }).takeRepairSem
    (s2.noteDegraded 3 (halfCode h)).afterMapChange s.capabilityId

/-- Whether a stream is bound to an engine by the policy it is under (R464). -/
def State.bound (s : State) (k : SlotId) (st : Stream) (e : Nat) (h : HalfId) (unit : Nat) : Bool :=
  (s.policyOf st).any (fun p => p.binds k st.req.egress e h unit)

/-- The streams not CLOSED that an engine binds, in slot order. -/
def State.boundStreams (s : State) (e : Nat) (h : HalfId) (unit : Nat) : List (SlotId × Stream) :=
  s.streamsInOrder.filter (fun x => decide (x.2.state ≠ .closed) && s.bound x.1 x.2 e h unit)

/-- Mark an engine or a skiver unit failed in the map (R490). -/
def Reliability.failEngine (r : Reliability) (h : HalfId) (e : Nat) (u : Option (Fin 8)) : Reliability :=
  match u with
  | some n => { r with skiverUnits := r.skiverUnits ||| (1#8 <<< n.val) }
  | none => match h with
    | .north => { r with enginesNorth := r.enginesNorth ||| (1#8 <<< e) }
    | .south => { r with enginesSouth := r.enginesSouth ||| (1#8 <<< e) }

/-- ENGINE_HARD_FAULT: the bound streams are halted with UNCORRECTABLE, later opens are refused until the next cast, and the
map marks the engine failed (R479). A unit is a skiver unit, which gives its half. -/
def engineHardFault (h : HalfId) (e : Fin 7) (u : Option (Fin 8)) (s : State) : State :=
  let u' := if e.val = 0 then u else none
  let half := match u' with | some n => unitHalf n | none => h
  let unit := (u'.map (fun n => n.val)).getD 0xFF
  let rel := s.rel.failEngine half e.val u'
  if rel = s.rel then s
  else
    let s1 : State := { s with rel := rel, eng := { s.eng with restarting := s.eng.restarting ++ [(e.val, half, unit, 2 ^ 64)] } }
    let s2 := ((s1.boundStreams e.val half unit).filter (fun x => !x.2.ended)).foldl (fun (t : State) x => (((t.work x.1 x.2).halt 14).closeHalted).run t) s1
    ((s2.takeRepairSem).noteDegraded 5 (halfCode half)).afterMapChange s.capabilityId

/-! ### The welt (R481 to R483) -/

/-- Free spare groups of a direction. -/
def Reliability.weltSpares (r : Reliability) (southward : Bool) : Nat := if southward then r.weltSparesN else r.weltSparesS

/-- The direction's code: 0 north to south (R496). -/
def directionCode (southward : Bool) : Nat := if southward then 0 else 1

/-- A welt group's traffic moves onto the engine and memory channel, which narrows (R483). The notice's half is a free value:
the welt belongs to neither. -/
def State.narrowWelt (s : State) (southward : Bool) (g : Fin 64) : State :=
  let n := s.draw
  let s1 : State := { n.2 with rel := { s.rel with weltMem := s.rel.weltMem - 1, weltRetired := s.rel.weltRetired ++ [(southward, g)] } }
  ((s1.takeRepairSem).degrade 2 ((Config.freeWord n.1).toNat % 2)).afterMapChange s.capabilityId

/-- WELT_GROUP_RETIRE: a free spare starts its copy, or the welt is degraded. -/
def weltGroupRetire (southward : Bool) (g : Fin 64) (s : State) : State :=
  let free := s.rel.weltSpares southward
  if s.rel.weltRetired.contains (southward, g) ∨ s.rel.weltMem = 0 then s
  else if free = 0 then s.narrowWelt southward g
  else
    { s with rel := { s.rel with
        weltSparesN := if southward then free - 1 else s.rel.weltSparesN
        weltSparesS := if southward then s.rel.weltSparesS else free - 1
        weltCopy := s.rel.weltCopy ++ [(southward, g, s.now + 256, 4 - free)] } }

/-- WELT_SPARE_TAKEOVER: the copy's 256 cycles are over and the spare group serves. -/
def weltSpareTakeover (southward : Bool) (s : State) : State :=
  match s.rel.weltCopy.find? (fun (e : Bool × Fin 64 × Nat × Nat) => decide (e.1 = southward) && decide (e.2.2.1 ≤ s.now)) with
  | none => s
  | some e =>
    ({ s with rel := { s.rel with weltCopy := s.rel.weltCopy.erase e } }).noteSpare 5
      (leBytes 1 (directionCode southward) ++ leBytes 1 e.2.1.val ++ leBytes 1 e.2.2.2)

/-! ### Patrol and repair of memories (R469 to R474) -/

/-- A memory macro's name. -/
def macroOf (m : MemLoc) : Nat × Nat × Nat := (m.kind.val, m.unit, m.macro16)

/-- Spare rows in use of a macro. -/
def Reliability.rows (r : Reliability) (m : MemLoc) : Nat := (aget (macroOf m) r.rowsUsed).getD 0

/-- Spare columns in use of a macro. -/
def Reliability.cols (r : Reliability) (m : MemLoc) : Nat := (aget (macroOf m) r.colsUsed).getD 0

/-- Whether two due repairs are one: of one row, or of one bit position of one macro. -/
def sameRepair (a b : MemLoc × Option Nat) : Bool :=
  decide ((macroOf a.1) = (macroOf b.1)) && decide (a.2 = b.2) && (a.2.isSome || decide (a.1.row = b.1.row))

/-- Note a repair as due, unless it is already or the macro's spares are all in use (R473, R474). -/
def Reliability.due (r : Reliability) (m : MemLoc) (bit : Option Nat) : Reliability :=
  let full := match bit with | some _ => decide (4 ≤ r.cols m) | none => decide (8 ≤ r.rows m)
  if full || r.repairsDue.any (sameRepair (m, bit)) then r else { r with repairsDue := r.repairsDue ++ [(m, bit)] }

/-- Poison an item of a queue's spill area. R405 does not say which item a word of the area holds, so a free value picks it
(log 50). -/
def State.poisonSpill (s : State) (addr : Nat) : State :=
  let rel := addr - 0x10000000
  match (List.finRange 512).find? (fun q =>
    let c := (s.queue q).cfg
    decide (c.spillOffset ≤ rel) && decide (rel < c.spillOffset + 64 * c.spillItems)) with
  | none => s
  | some q =>
    let v := s.queue q
    let spilled := ((v.items.drop 8).take (v.items.length - 16))
    let n := s.draw
    match spilled[(Config.freeWord n.1).toNat % max 1 spilled.length]? with
    | none => n.2
    | some x => n.2.setQueue q { v with items := v.items.map (fun i => if i.sequence = x.sequence then { i with bad := some addr } else i) }

/-- Mark the stream whose context holds a word (R70, R470). -/
def State.poisonContext (s : State) (addr : Nat) : State :=
  match s.streams.table.find? (fun e => decide (e.1.val = addr / 0x2000)) with
  | some (k, st) => s.setStream k { st with poisoned := some addr }
  | none => s

/-- A word is written back with `poison` set and the data as read (R469). -/
def State.poisonWord (s : State) (m : MemLoc) (data : DWord) : State :=
  let e : Nat × Nat × Nat := (m.kind.val, m.unit, m.addr)
  let s1 : State := { s with rel := { s.rel with poisoned := s.rel.poisoned.filter (fun x => x ≠ e) ++ [e] } }
  match m.kind with
  | 0 =>
    if m.addr < 0x10000000 then s1.poisonContext m.addr
    else if m.addr < 0x14000000 then s1.poisonSpill m.addr
    else { s1 with grid := { s1.grid with shared := s1.grid.shared.setBytes m.addr (leBytes 8 data.toNat),
                                          written := s1.grid.written ++ [(m.addr, 8)] } }
  | 1 =>
    let c : CellId := BitVec.ofNat 12 m.unit
    s.setCell c (((s.cell c).write m.addr (leBytes 8 data.toNat)).poisonSpan m.addr 8)
  | _ => s1

/-- Rows of a macro in which a bit position has been corrected in this pass (R473). -/
def Reliability.rowsWithBit (r : Reliability) (m : MemLoc) (bit : Nat) : List Nat :=
  ((r.passErrors.filter (fun e => decide ((macroOf e.1) = (macroOf m)) && decide (e.2 = bit))).map (fun e => e.1.row)).eraseDups

/-- A corrected word: the row is to be repaired when the word was found in error at the last pass too, a column when its bit
was corrected in 4 rows of the pass (R473). -/
def Reliability.noteCorrected (r : Reliability) (m : MemLoc) (bits : List Nat) : Reliability :=
  let again := r.corrected.any (fun e => decide (e.1 = m) && decide (e.2 + 1 = r.patrolPass))
  let r1 : Reliability := { r with
    corrected := r.corrected.filter (fun (e : MemLoc × Nat) => decide (e.1 ≠ m) && decide (r.patrolPass ≤ e.2 + 1))
      ++ [(m, r.patrolPass)],
    passErrors := r.passErrors ++ bits.map (fun b => (m, b)) }
  let r2 := if again then r1.due m none else r1
  bits.foldl (fun (q : Reliability) b => if 4 ≤ (q.rowsWithBit m b).length then q.due m (some b) else q) r2

/-- The first word of a pass comes round again: a pass is complete (R472; log 51). -/
def State.patrolPass (s : State) (m : MemLoc) : State :=
  match s.rel.patrolFirst with
  | none => { s with rel := { s.rel with patrolFirst := some m } }
  | some f =>
    if f = m then ({ s with rel := { s.rel with patrolPass := s.rel.patrolPass + 1, passErrors := [] } }).count1 0x13 0 4 else s

/-- The offset at which a notice names a word. -/
def wordDetail (m : MemLoc) (now : Nat) : List Byte :=
  leBytes 1 m.kind.val ++ leBytes 2 m.unit ++ leBytes 8 m.addr ++ leBytes 8 now

/-- PATROL_SCRUB: the patrol reads one stored word and deals with what it finds (R469, R472). -/
def patrolScrub (m : MemLoc) (w : BitVec 80) (s0 : State) : State :=
  let s := s0.patrolPass m
  match memDecode w with
  | .clean false _ => s
  | .clean true _ => s.effects (poisonRead m.kind.val m.unit m.addr s.now)
  | .corrected _ _ bits => ({ s with rel := s.rel.noteCorrected m bits }).count1 0x13 0 0
  | .uncorrectable data =>
    let s1 := s.poisonWord m data
    ({ s1 with rel := s1.rel.due m none }).effects [.count ⟨0x13, 0, 1⟩ 1, .notice 19 (wordDetail m s.now)]

/-- The location of a row's or column's repair (R496). -/
def repairLoc (m : MemLoc) (n : Nat) : List Byte :=
  leBytes 1 m.kind.val ++ leBytes 1 0 ++ leBytes 2 m.unit ++ leBytes 2 m.macro16 ++ leBytes 2 n

/-- Whether a repair takes a macro's last spare of its kind, the first of both kinds to run out (R474; log 51). -/
def Reliability.exhausts (r : Reliability) (m : MemLoc) (column : Bool) : Bool :=
  if column then decide (r.cols m = 3) && decide (r.rows m < 8) else decide (r.rows m = 7) && decide (r.cols m < 4)

/-- MEM_REPAIR: the copy of the oldest due repair is complete and the address map switches (R473, R474). -/
def memRepair (s : State) : State :=
  match s.rel.repairsDue with
  | [] => s
  | (m, bit) :: rest =>
    let last := s.rel.exhausts m bit.isSome
    let r : Reliability := { s.rel with repairsDue := rest }
    let s1 := match bit with
      | some b => (({ s with rel := { r with colsUsed := aset (macroOf m) (r.cols m + 1) r.colsUsed } }).count1 0x13 0 6).noteSpare 2
          (repairLoc m b)
      | none =>
        let fixed := r.corrected.filter (fun e => !(decide ((macroOf e.1) = (macroOf m)) && decide (e.1.row = m.row)))
        (({ s with rel := { r with rowsUsed := aset (macroOf m) (r.rows m + 1) r.rowsUsed, corrected := fixed } }).count1 0x13 0
          5).noteSpare 1 (repairLoc m m.row)
    if last then s1.count1 0x13 0 7 else s1

/-- The body byte that a policy's image gives a local address, when the address lies in the image's body. -/
def State.imageWord (s : State) (c : CellId) (addr : Nat) : Option (List Byte) :=
  (s.slotPolicies.flatMap (fun p => (p.tables.images.filter (fun m => decide (m.cell = c) && decide (m.loadBase ≤ addr)
    && decide (addr < m.loadBase + m.body.length))).map (fun m =>
      (({} : Cell).load p.cellSlot p.tables.latency.policyId m).mem.bytes addr 8))).head?

/-- CELL_IMAGE_REWRITE: the firmware writes a poisoned body word again from the policy region's copy (R470). -/
def cellImageRewrite (c : CellId) (addr : Nat) (s : State) : State :=
  let x := s.cell c
  if (x.poisonAt addr 8).isNone then s
  else match s.imageWord c addr with
    | some b => s.setCell c (x.write addr b)
    | none => s

/-- REPAIR_SEMAPHORE_RELEASE (R428). -/
def repairSemaphoreRelease (s : State) : State :=
  match s.ctl.repairSem with
  | none => s
  | some _ =>
    let s1 := s.setSem 0 ((s.sem 0).release 3)
    { s1 with ctl := { s1.ctl with repairSem := none } }

/-! ### Meanings -/

/-- CELL_HARD_FAULT (R476, R477, R492, R496). -/
def execCellHardFault (c : CellId) (s : State) : Host.Outcome State Fault Refusal := .next (cellHardFault c s)

/-- CELL_RELOAD_COMPLETE (R476). -/
def execCellReloadComplete (c : CellId) (s : State) : Host.Outcome State Fault Refusal := .next (cellReloadComplete c s)

/-- BENCH_ROUTER_FAIL (R478). -/
def execBenchRouterFail (b : Byte) (s : State) : Host.Outcome State Fault Refusal := .next (benchRouterFail b s)

/-- ENGINE_HARD_FAULT (R479). -/
def execEngineHardFault (h : HalfId) (e : Fin 7) (u : Option (Fin 8)) (s : State) : Host.Outcome State Fault Refusal :=
  .next (engineHardFault h e u s)

/-- WELT_GROUP_RETIRE (R482, R483). -/
def execWeltGroupRetire (d : Bool) (g : Fin 64) (s : State) : Host.Outcome State Fault Refusal := .next (weltGroupRetire d g s)

/-- WELT_SPARE_TAKEOVER (R482). -/
def execWeltSpareTakeover (d : Bool) (s : State) : Host.Outcome State Fault Refusal := .next (weltSpareTakeover d s)

/-- PATROL_SCRUB (R469, R470, R472, R473). -/
def execPatrolScrub (m : MemLoc) (w : BitVec 80) (s : State) : Host.Outcome State Fault Refusal := .next (patrolScrub m w s)

/-- MEM_REPAIR (R473, R474). -/
def execMemRepair (s : State) : Host.Outcome State Fault Refusal := .next (memRepair s)

/-- CELL_IMAGE_REWRITE (R470). -/
def execCellImageRewrite (c : CellId) (addr : Nat) (s : State) : Host.Outcome State Fault Refusal := .next (cellImageRewrite c addr s)

/-- REPAIR_SEMAPHORE_RELEASE (R428). -/
def execRepairSemaphoreRelease (s : State) : Host.Outcome State Fault Refusal := .next (repairSemaphoreRelease s)

end Sys2Proof.Machine
end

