-- ==== Sys2Proof/Machine/Power.lean ====
section
/-! DEFINITION. Clocks, power and temperature (R484 to R489, R501 to R509). -/

namespace Sys2Proof.Machine

/-! ### HALF_CLOCK (R484, R501) -/

/-- Form a half's pending set point again; a change of it gives a new distance table and the checks of R442 again. -/
def State.repoint (s : State) (h : HalfId) (v : HalfPower) : State :=
  let s1 := (s.setHalf h v).formPending h
  if (s1.power.half h).point = (s.power.half h).point then s1 else s1.newDistance.recheck

/-- HALF_CLOCK's effect. -/
def runHalfClock (c : Cmd) (s : State) : State :=
  let half := field c.body 0 1
  let mhz := field c.body 2 2
  if 1 < half ∨ mhz < 200 ∨ 800 < mhz ∨ mhz % 100 ≠ 0 then s.answer c Status.crossref []
  else if s.cast.armed.isSome then s.answer c Status.busy []
  else
    let h := if half = 0 then HalfId.north else HalfId.south
    let s1 := s.repoint h { s.power.half h with opSet := mhz }
    s1.answer c Status.ok s1.distanceId

/-! ### Temperature and emergency steps (R486, R507 to R509) -/

/-- A half that an emergency holds down: its reading, or the power throttle. -/
def HalfPower.hot (v : HalfPower) : Bool := v.emergency || v.powerHot

/-- Note what a reading or an estimate means for a half: whether it is in an emergency, and since when it has been cool. The
next step comes at once when that changes. -/
def HalfPower.update (v : HalfPower) (emergency powerHot cool : Bool) (now : Nat) : HalfPower :=
  let w : HalfPower := { v with
    emergency := emergency, powerHot := powerHot, coolSince := if cool then some (v.coolSince.getD now) else none
    lowSince := if emergency && decide (v.run = 200) && decide (v.run < v.setPoint) then some (v.lowSince.getD now) else none }
  if w.hot = v.hot then w else { w with lastStep := none }

/-- The gate's power over the last 16 estimates, an interval of 16,384 ticks, in 0.1 W (R507). -/
def Power.interval (p : Power) : Nat :=
  let last := fun (h : HalfPower) => (h.history.drop (h.history.length - 16)).map (fun x => x.2)
  let a := last p.north
  let b := last p.south
  (a.sum + b.sum) / max 1 a.length

/-- Whether a half counts as cool: below the release temperature and, after an emergency throttle, below P (R486, R507). -/
def Power.cool (p : Power) (v : HalfPower) : Bool :=
  decide (v.reading < 10 * (p.releaseC : Int)) && (!v.powerDown || decide (p.interval < p.cap))

/-- The highest of a list of readings. -/
def maxReading (l : List Int) : Int := match l with | [] => 0 | x :: xs => xs.foldl max x

/-- THERMAL_SENSOR_READ: 21 readings in 0.1 °C, 10 of each half and the AON island's (R508). -/
def thermalSensorRead (t : List Int) (s : State) : State :=
  let p := { s.power with sensors := t }
  let step := fun (v : HalfPower) (r : Int) =>
    let v1 : HalfPower := { v with reading := r }
    v1.update (decide (10 * (p.emergencyC : Int) < r)) v1.powerHot (p.cool v1) s.now
  let q : Power := { p with north := step p.north (maxReading (t.take 10)), south := step p.south (maxReading ((t.drop 10).take 10)) }
  { s with power := q, aon := { s.aon with thermTripN := s.aon.thermTripN && t.all (fun r => decide (r < 1250)) } }

/-- Whether a half's next step is due: at once, or 16,384 ticks after the last one. -/
def HalfPower.stepDue (v : HalfPower) (now : Nat) : Bool :=
  match v.lastStep with
  | none => true
  | some t => decide (t + 16384 ≤ now)

/-- NTC_POWER (R507): cause, half, limit or clock, estimate, tick. -/
def State.notePower (s : State) (cause : Nat) (h : HalfId) (mhz estimate : Nat) : State :=
  s.raise 23 (leBytes 1 cause ++ leBytes 1 (halfCode h) ++ leBytes 2 mhz ++ leBytes 2 estimate ++ leBytes 8 s.now)

/-- THERMAL_STEP_DOWN: an emergency takes a half down 100 MHz, and the gate reports DEGRADED (R56, R486, R507). The voltage
stays (R502). -/
def thermalStepDown (h : HalfId) (s : State) : State :=
  let v := s.power.half h
  if !v.hot || s.rel.lost h || !v.stepDue s.now || decide (v.run ≤ 200) then s
  else
    let run := v.run - 100
    let w : HalfPower := { v with run := run, lastStep := some s.now, powerDown := v.powerDown || v.powerHot,
                                  lowSince := if v.emergency && decide (run = 200) then some s.now else none }
    let s1 := (s.setHalf h w).degrade 1 (halfCode h)
    if v.powerHot then s1.notePower 2 h run s.power.interval else s1

/-- THERMAL_STEP_UP: after 1,600,000 ticks of cool a half comes back by 100 MHz each 16,384 ticks to its set point (R486). -/
def thermalStepUp (h : HalfId) (s : State) : State :=
  let v := s.power.half h
  match v.coolSince with
  | none => s
  | some t =>
    if v.hot || s.rel.lost h || decide (s.now < t + 1600000) || !v.stepDue s.now || decide (v.setPoint ≤ v.run) then s
    else
      let run := min v.setPoint (v.run + 100)
      s.setHalf h { v with run := run, lastStep := some s.now, powerDown := v.powerDown && decide (run ≠ v.setPoint) }

/-- HALF_ARRAY_LOST: 1,600,000 ticks at 200 MHz above the emergency temperature, or no group left for the engine and memory
channel, which loses the north array (R483, R488). A rail's loss is POWER_GOOD_LOSS. -/
def halfArrayLost (h : HalfId) (s : State) : State :=
  let long := match (s.power.half h).lowSince with | some t => decide (t + 1600000 ≤ s.now) | none => false
  if long || (decide (h = .north) && decide (s.rel.weltMem = 0)) then s.loseArray h else s

/-! ### Currents and estimates (R505, R507) -/

/-- The power of a rail in 0.1 W, from 0.1 A and microvolts. -/
def railPower (current microvolts : Nat) : Nat := current * microvolts / 1000000

/-- One estimate of a half, with the history of the last 1,600,000 ticks. -/
def HalfPower.addEstimate (v : HalfPower) (e now : Nat) : HalfPower :=
  { v with estimate := e, history := v.history.filter (fun x => decide (now < x.1 + 1600000)) ++ [(now, e)] }

/-- CURRENT_ESTIMATE: the rails' currents in 0.1 A give each half's estimate, VDD_CORE_X split evenly; an estimate above 1.1 P
over 16,384 ticks, or a current above its rail's peak, starts an emergency throttle of the half with the higher estimate, of
the south half when they are equal (R505, R507; log 52). -/
def currentEstimate (north south x : Nat) (s : State) : State :=
  let shared := railPower x 750000 / 2
  let n := s.power.north.addEstimate (railPower north (vidMicrovolts s.aon.vidNorth) + shared) s.now
  let d := s.power.south.addEstimate (railPower south (vidMicrovolts s.aon.vidSouth) + shared) s.now
  let p : Power := { s.power with north := n, south := d, currents := [north, south, x] }
  let above := (decide (16 ≤ p.north.history.length) && decide (11 * p.cap < 10 * p.interval)) || decide (1100 < north) || decide (1100 < south) || decide (900 < x)
  let stop := decide (p.interval ≤ p.cap)
  let higher := if d.estimate < n.estimate then HalfId.north else HalfId.south
  let step := fun (h : HalfId) (v : HalfPower) =>
    let power := if above then v.powerHot || decide (h = higher) else v.powerHot && !stop
    v.update v.emergency power (p.cool v) s.now
  { s with power := { p with north := step .north n, south := step .south d } }

/-! ### The power cap (R506) -/

/-- Lower a half's throttle limit by 100 MHz, with NTC_POWER. -/
def State.throttleDown (s : State) (h : HalfId) : State :=
  let v := s.power.half h
  if v.throttle ≤ 200 then s
  else
    let limit := v.throttle - 100
    let s1 : State := { s with power := { s.power with throttlePending := true } }
    (s1.repoint h { v with throttle := limit }).notePower 1 h limit s.gateAverage

/-- The half whose throttle limit is raised: of those below 800 MHz the one with the lower estimate, the north one when they
are equal (log 52). -/
def Power.raised (p : Power) : Option HalfId :=
  match decide (p.north.throttle < 800), decide (p.south.throttle < 800) with
  | true, true => if p.south.estimate < p.north.estimate then some .south else some .north
  | true, false => some .north
  | false, true => some .south
  | false, false => none

/-- POWER_CAP_COMPARE: each 1,600,000 ticks the firmware compares the average with P; a change waits while a cast is armed. -/
def powerCapCompare (s : State) : State :=
  if s.now < s.power.compareAt then s
  else
    let avg := s.gateAverage
    let below := if 10 * avg < 9 * s.power.cap then s.power.belowCount + 1 else 0
    let s1 : State := { s with power := { s.power with compareAt := s.now + 1600000, belowCount := below } }
    if s.cast.armed.isSome then s1
    else if s.power.cap < avg then
      if s.power.throttlePending then s1
      else s1.throttleDown (if s.power.south.estimate < s.power.north.estimate then .north else .south)
    else if below < 100 then s1
    else match s.power.raised with
      | none => s1
      | some h =>
        let s2 : State := { s1 with power := { s1.power with throttlePending := true, belowCount := 0 } }
        let v := s.power.half h
        s2.repoint h { v with throttle := v.throttle + 100 }

/-! ### Meanings -/

/-- HALF_CLOCK (R484, R501, R518). -/
def execHalfClock (p : MPort) (n : Fin 32) (s : State) : Host.Outcome State Fault Refusal :=
  .next (s.startCmd p n 0x0501 4 runHalfClock)

/-- THERMAL_SENSOR_READ (R508, R509). -/
def execThermalSensorRead (t : List Int) (s : State) : Host.Outcome State Fault Refusal := .next (thermalSensorRead t s)

/-- THERMAL_STEP_DOWN (R486). -/
def execThermalStepDown (h : HalfId) (s : State) : Host.Outcome State Fault Refusal := .next (thermalStepDown h s)

/-- THERMAL_STEP_UP (R486). -/
def execThermalStepUp (h : HalfId) (s : State) : Host.Outcome State Fault Refusal := .next (thermalStepUp h s)

/-- HALF_ARRAY_LOST (R488). -/
def execHalfArrayLost (h : HalfId) (s : State) : Host.Outcome State Fault Refusal := .next (halfArrayLost h s)

/-- CURRENT_ESTIMATE (R505, R507). -/
def execCurrentEstimate (north south x : Nat) (s : State) : Host.Outcome State Fault Refusal := .next (currentEstimate north south x s)

/-- POWER_CAP_COMPARE (R506). -/
def execPowerCapCompare (s : State) : Host.Outcome State Fault Refusal := .next (powerCapCompare s)

end Sys2Proof.Machine
end

