-- ==== Sys2Proof/Machine/Resets.lean ====
section
/-! DEFINITION. Resets and aborts (R451 to R467), the boot sequence (R453 to R456) and the loss of a supply (R504). -/

namespace Sys2Proof.Machine

/-! ### Cold reset (R452 to R456) -/

/-- Cold reset: every field at its reset value. The commands that wait outside the gate are no state of it. -/
def State.coldReset (s : State) : State := { State.reset with pending := s.pending, freeUse := s.freeUse }

/-- Receive credits of a bulk port, which the gate pulses to the host after reset (R391, R392). -/
def initialCredits : List (Nat × Nat) := [(0, 130), (1, 66), (2, 260), (3, 260)]

/-- The AON island samples the straps and the fuses (R380, R430, R513). -/
def Aon.sample (a : Aon) (p : Straps) : Aon :=
  { a with rstColdN := true, node := if p.nodeStrap then p.nodeId else 0#12, nodeValid := p.nodeStrap,
           masterStrap := p.plumbMaster, keyHash := p.keyHash, minSecurity := p.minSecurity }

/-- COLD_RESET_RELEASE: straps, initial credits, training of every lane, and what the self-test finds. -/
def coldResetRelease (p : Straps) (s : State) : State :=
  if s.aon.rstColdN then s
  else
    let s1 : State := { s with
      aon := s.aon.sample p
      bulk := (List.finRange 16).map (fun b => (b, ({ rxCredits := initialCredits } : Bulk)))
      plane := { s.plane with lanes := (List.finRange 8).map (fun g => (g, ({ train := List.finRange 8 |>.map Fin.castSucc } : LaneGroup))) }
      rel := { s.rel with findings := p.findings } }
    if p.plumbMaster then s1.becomeMaster else s1

/-- What the self-test repairs, within the limits of the spares, as a run-time fault is repaired (R456). A welt spare serves at
once: no traffic runs. -/
def State.selfTest (s : State) (f : TestFinding) : State :=
  match f with
  | .cell c => cellHardFault c s
  | .spareCell b => if benchSpareUsed (s.rel.bench b) then s else s.setBench b (s.rel.bench b ||| 0x04#8)
  | .engine h e => engineHardFault h e none s
  | .skiverUnit u => engineHardFault (unitHalf u) 0 (some u) s
  | .weltGroup d g =>
    let s1 := weltGroupRetire d g s
    s1.rel.weltCopy.foldl (fun (t : State) e => t.noteSpare 5 (leBytes 1 (directionCode e.1) ++ leBytes 1 e.2.1.val ++ leBytes 1 e.2.2.2))
      { s1 with rel := { s1.rel with weltCopy := [] } }

/-- The images of a cell moved by the self-test are none: it serves at once. -/
def State.endReloads (s : State) : State :=
  { s with grid := { s.grid with cells := s.grid.cells.map (fun (e : CellId × Cell) => (e.1, { e.2 with reloading := false })) } }

/-- ROM_READY: the map and the distance table are built, the repairs noted, and the boot ROM serves the mailboxes. -/
def romReady (s : State) : State :=
  if !s.aon.rstColdN || s.boot.romReady then s
  else
    let s1 := (s.rel.findings.foldl State.selfTest { s with rel := { s.rel with findings := [] } }).endReloads.newDistance
    answerUnknown { s1 with boot := { s1.boot with romReady := true }, aon := { s1.aon with rstOutN := true } }

/-- RESET_COLD's effect: OK, and the reset 1,600 ticks after the response (R454). -/
def runResetCold (c : Cmd) (s : State) : State :=
  if confirmed c then
    let s1 := s.answer c Status.ok []
    { s1 with aon := { s1.aon with resetColdAt := some (s1.aon.resetColdAt.getD (s1.now + 1600)) } }
  else s.answer c Status.crossref []

/-- RESET_COLD_START: the gate enters an internal cold reset. -/
def resetColdStart (s : State) : State :=
  match s.aon.resetColdAt with
  | some t => if t ≤ s.now then s.coldReset else s
  | none => s

/-- POWER_GOOD_LOSS: an array's rail loses the array; another one resets the gate (R488, R504). -/
def powerGoodLoss (r : Rail) (s : State) : State :=
  match r with
  | .north => s.loseArray .north
  | .south => s.loseArray .south
  | .x => s.coldReset
  | .sram => s.coldReset
  | .aon => s.coldReset

/-! ### Function reset (R460, R461) -/

/-- RESET_FUNCTION's effect. -/
def runResetFunction (c : Cmd) (s : State) : State :=
  if confirmed c then s.admitLong c (fun t => t.waitBoundary c) else s.answer c Status.crossref []

/-- A stream as a function reset closes it: nothing in flight, no record and no event. -/
def Stream.closedByReset (st : Stream) (now : Nat) : Stream :=
  if st.state = .closed then { st with steps := [], inp := { st.inp with chunks := [], verdicts := [] } }
  else { st with state := .closed, stopReason := if st.stopReason = 0 then 13 else st.stopReason, closedAt := now, boundary := now,
                 tokens := [], steps := [], stepHalts := [], openSet := none, endAppended := none,
                 inp := { st.inp with chunks := [], verdicts := [], unread := [] } }

/-- The staging under way is stopped and answers TIMEOUT; a bundle being written is gone with its region (R452, R461). -/
def State.stopStaging (s : State) : State :=
  ({ s with cast := { s.cast with writing := none, staging := none } }).answerFrom s.cast.staging Status.timeout []

/-- What is reported of casts at a function reset: an armed one is cancelled with TIMEOUT, one whose window runs has been made
(R461). -/
def State.endCasts (s : State) : State :=
  let s1 := match s.cast.armed with
    | some a => (s.cancelArmed).noteCast a.policyId a.epoch Status.timeout a.instant
    | none => s
  match s1.cast.windowCast with
  | some a => ({ s1 with cast := { s1.cast with windowCast := none } }).noteCast a.policyId a.epoch Status.ok a.instant
  | none => s1

/-- Everything that the screening functions hold, as the default state has it: policies, streams' work, engines, cells and the
memories of R452. The packets before a function are delivered anew (R27, R356). -/
def State.clearFunctions (s : State) (b : Nat) : State :=
  let s1 : State := { s with
    cast := { epoch := s.cast.epoch, placements := s.cast.placements, defaultState := true, resetting := some b }
    eng := {}
    grid := {}
    rel := { s.rel with poisoned := s.rel.poisoned.filter (fun (e : Nat × Nat × Nat) => decide (e.1 ≠ 0)) }
    streams := { s.streams with
      table := s.streams.table.map (fun (e : SlotId × Stream) => (e.1, e.2.closedByReset s.now))
      opens := s.streams.opens.map (fun (o : PendingOpen) => { o with status := Status.doesNotFit, slot := none })
      buffer := []
      ingressWaits := []
      textWait := []
      baseline := []
      logs := []
      orphans := [] }
    plane := { s.plane with inbox := [] } }
  deliverAll (s.plane.inbox ++ s.streams.textWait) s1

/-- FUNCTION_RESET_BOUNDARY: from B on no result is released; a commit, an open or a cast before B comes first. -/
def functionResetBoundary (s : State) : State :=
  match s.dueWaiting 0x0703 with
  | none => s
  | some w =>
    if s.streams.table.any (fun e => e.2.owes (w.due - 1)) || s.streams.opens.any (fun o => decide (o.stamp + 512 < w.due))
        || s.cast.armed.any (fun a => decide (a.instant < w.due)) then s
    else
      let closed := (s.streams.table.filter (fun e => decide (e.2.state ≠ .closed))).length
      let s1 := ((s.popWaiting.stopStaging).endCasts).clearFunctions w.due
      s1.waitCompletion { w with body := leBytes 4 closed }

/-- Queues 3 to 511 as after a cold reset (R452). -/
def State.resetPolicyQueues (s : State) : State := { s with queues := s.queues.filter (fun (e : QueueId × Queue) => decide (e.1.val < 3)) }

/-- FUNCTION_RESET_COMPLETE: every slot is FREE with its generation one higher, the queues are reset, NTC_RESET is raised and
the command answers. -/
def functionResetComplete (s : State) : State :=
  match s.completing 0x0703 with
  | none => s
  | some w =>
    let slots := s.streamsInOrder.map (fun x => x.1)
    let s1 : State := { s with
      streams := { s.streams with table := [], genBase := s.streams.genBase + 1, freed := s.streams.freed ++ slots }
      cast := { s.cast with resetting := none } }
    let s2 := (s1.resetPolicyQueues).dropCompleting w
    ((s2.count1 0x12 0 1).noteReset 2 w.accept w.due w.from? (field w.body 0 4)).answerFrom w.from? Status.ok []

/-! ### Engine aborts (R464, R465) -/

/-- The half of an engine abort: a skiver unit names its own. -/
def abortHalf (b : List Byte) : HalfId :=
  let unit := field b 2 1
  if field b 0 1 = 0 ∧ unit < 8 then (if unit < 4 then .north else .south)
  else if field b 1 1 = 0 then .north else .south

/-- The unit of an engine abort, 0xFF for all. -/
def abortUnit (b : List Byte) : Nat := if field b 0 1 = 0 then field b 2 1 else 0xFF

/-- ENGINE_ABORT's effect: engine 0 to 6, half 0 or 1, and of the skiver a unit 0 to 7 or 0xFF. -/
def runEngineAbort (c : Cmd) (s : State) : State :=
  let e := field c.body 0 1
  if 6 < e ∨ 1 < field c.body 1 1 ∨ (e = 0 ∧ 7 < field c.body 2 1 ∧ field c.body 2 1 ≠ 0xFF) then s.answer c Status.crossref []
  else s.admitLong c (fun t => t.waitBoundary c)

/-- Discard an engine's queued and in-flight work (R290, R465). -/
def Engines.clear (g : Engines) (e : Nat) (h : HalfId) (unit : Nat) : Engines :=
  if e = 0 then
    { g with skiverQueues := g.skiverQueues.filter (fun (x : Fin 8 × List (SlotId × Nat)) =>
        !(decide (unitHalf x.1 = h) && (decide (unit = 0xFF) || decide (x.1.val = unit)))) }
  else if e = 2 then { g with awl := g.awl.filter (fun (x : (HalfId × Fin 256) × AwlLane) => decide (x.1.1 ≠ h)) }
  else if e = 4 then
    { g with callipers := { g.callipers with slices := g.callipers.slices.filter (fun x => decide (halfOf x.south ≠ h)),
                                             items := g.callipers.items.filter (fun x => decide (halfOf x.south ≠ h)) } }
  else if e = 6 then { g with lanes := g.lanes.filter (fun (x : (HalfId × Fin 16) × Lane) => decide (x.1.1 ≠ h)) }
  else g

/-- ENGINE_ABORT_BOUNDARY: every bound stream is aborted, a HALTED one closed, the engine's work is discarded and it restarts (R465,
R466). -/
def engineAbortBoundary (s : State) : State :=
  match s.dueWaiting 0x0705 with
  | none => s
  | some w =>
    let e := field w.body 0 1
    let h := abortHalf w.body
    let unit := abortUnit w.body
    let hit := s.boundStreams e h unit
    if hit.any (fun x => x.2.owes w.due) then s
    else
      let s1 := hit.foldl (fun (t : State) x =>
        let c := t.atContext x.1 x.2
        ((c.1.work x.1 c.2).abort 12 0x0705).run c.1) s.popWaiting
      let s2 : State := { s1 with eng := { (s1.eng.clear e h unit) with restarting := s1.eng.restarting ++ [(e, h, unit, w.due)] } }
      ((s2.count1 0x12 0 2).noteReset 3 w.accept w.due w.from? hit.length).waitCompletion
        { w with body := w.body ++ leBytes 4 (hit.filter (fun x => !x.2.ended)).length }

/-- ENGINE_RESTART_COMPLETE: the engine serves again and the command answers. -/
def engineRestartComplete (s : State) : State :=
  match s.completing 0x0705 with
  | none => s
  | some w =>
    let key := (field w.body 0 1, abortHalf w.body, abortUnit w.body, w.due)
    let s1 := ({ s with eng := { s.eng with restarting := s.eng.restarting.erase key } }).dropCompleting w
    s1.answerFrom w.from? Status.ok (w.body.drop (w.body.length - 4) ++ List.replicate 4 0#8 ++ leBytes 8 s.now)

/-! ### Meanings -/

/-- COLD_RESET_ASSERT (R452 to R454). -/
def execColdResetAssert (s : State) : Host.Outcome State Fault Refusal := .next s.coldReset

/-- COLD_RESET_RELEASE (R391, R455, R456, R513). -/
def execColdResetRelease (p : Straps) (s : State) : Host.Outcome State Fault Refusal := .next (coldResetRelease p s)

/-- ROM_READY (R455, R456). -/
def execRomReady (s : State) : Host.Outcome State Fault Refusal := .next (romReady s)

/-- RESET_COLD (R451, R454). -/
def execResetCold (p : MPort) (n : Fin 32) (s : State) : Host.Outcome State Fault Refusal :=
  .next (s.startCmd p n 0x0701 4 runResetCold)

/-- RESET_COLD_START (R454). -/
def execResetColdStart (s : State) : Host.Outcome State Fault Refusal := .next (resetColdStart s)

/-- POWER_GOOD_LOSS (R504). -/
def execPowerGoodLoss (r : Rail) (s : State) : Host.Outcome State Fault Refusal := .next (powerGoodLoss r s)

/-- RESET_FUNCTION (R451, R460). -/
def execResetFunction (p : MPort) (n : Fin 32) (s : State) : Host.Outcome State Fault Refusal :=
  .next (s.startCmd p n 0x0703 4 runResetFunction)

/-- FUNCTION_RESET_BOUNDARY (R290, R460, R461). -/
def execFunctionResetBoundary (s : State) : Host.Outcome State Fault Refusal := .next (functionResetBoundary s)

/-- FUNCTION_RESET_COMPLETE (R452, R460, R467). -/
def execFunctionResetComplete (s : State) : Host.Outcome State Fault Refusal := .next (functionResetComplete s)

/-- ENGINE_ABORT (R464, R465). -/
def execEngineAbort (p : MPort) (n : Fin 32) (s : State) : Host.Outcome State Fault Refusal :=
  .next (s.startCmd p n 0x0705 4 runEngineAbort)

/-- ENGINE_ABORT_BOUNDARY (R465). -/
def execEngineAbortBoundary (s : State) : Host.Outcome State Fault Refusal := .next (engineAbortBoundary s)

/-- ENGINE_RESTART_COMPLETE (R465). -/
def execEngineRestartComplete (s : State) : Host.Outcome State Fault Refusal := .next (engineRestartComplete s)

end Sys2Proof.Machine
end

