-- ==== Sys2Proof/Machine/Dispatch.lean ====
section
/-! DEFINITION. One arm per command: the call of its meaning. -/

namespace Sys2Proof.Machine

/-- The effect of a command on everything but the queue of waiting commands. -/
def exec (i : Instr) (s : State) : Host.Outcome State Fault Refusal :=
  match i with
  | .plumbTick => Sys2Proof.Machine.execPlumbTick s
  | .coldResetAssert => Sys2Proof.Machine.execColdResetAssert s
  | .coldResetRelease t => Sys2Proof.Machine.execColdResetRelease t s
  | .romReady => Sys2Proof.Machine.execRomReady s
  | .resetColdStart => Sys2Proof.Machine.execResetColdStart s
  | .powerGoodLoss r => Sys2Proof.Machine.execPowerGoodLoss r s
  | .thermalSensorRead t => Sys2Proof.Machine.execThermalSensorRead t s
  | .thermalStepDown h => Sys2Proof.Machine.execThermalStepDown h s
  | .thermalStepUp h => Sys2Proof.Machine.execThermalStepUp h s
  | .halfArrayLost h => Sys2Proof.Machine.execHalfArrayLost h s
  | .currentEstimate north south x => Sys2Proof.Machine.execCurrentEstimate north south x s
  | .powerCapCompare => Sys2Proof.Machine.execPowerCapCompare s
  | .plumbLoRead p => Sys2Proof.Machine.execPlumbLoRead p s
  | .plumbStatusRead p => Sys2Proof.Machine.execPlumbStatusRead p s
  | .plumbSteppedClear p => Sys2Proof.Machine.execPlumbSteppedClear p s
  | .bootFwFailedClear p => Sys2Proof.Machine.execBootFwFailedClear p s
  | .nodeIdWrite p v => Sys2Proof.Machine.execNodeIdWrite p v s
  | .noticeAcknowledge p bits => Sys2Proof.Machine.execNoticeAcknowledge p bits s
  | .semRequest k a b fw => Sys2Proof.Machine.execSemRequest k a b fw s
  | .semRelease k p => Sys2Proof.Machine.execSemRelease k p s
  | .semForce k p => Sys2Proof.Machine.execSemForce k p s
  | .queueItemRead q => Sys2Proof.Machine.execQueueItemRead q s
  | .queueItemWrite q item => Sys2Proof.Machine.execQueueItemWrite q item s
  | .queueOverrunClear q => Sys2Proof.Machine.execQueueOverrunClear q s
  | .queueLatchedAck q => Sys2Proof.Machine.execQueueLatchedAck q s
  | .queueDropPacket q => Sys2Proof.Machine.execQueueDropPacket q s
  | .registerWrite b addr data => Sys2Proof.Machine.execRegisterWrite b addr data s
  | .bootInfo p n => Sys2Proof.Machine.execBootInfo p n s
  | .fwWrite p n => Sys2Proof.Machine.execFwWrite p n s
  | .fwStart p n => Sys2Proof.Machine.execFwStart p n s
  | .fwStartComplete => Sys2Proof.Machine.execFwStartComplete s
  | .keyLoad p n => Sys2Proof.Machine.execKeyLoad p n s
  | .keyLock p n => Sys2Proof.Machine.execKeyLock p n s
  | .bundleBegin p n => Sys2Proof.Machine.execBundleBegin p n s
  | .bundleWrite p n => Sys2Proof.Machine.execBundleWrite p n s
  | .bundleStage p n => Sys2Proof.Machine.execBundleStage p n s
  | .bundleStageComplete m => Sys2Proof.Machine.execBundleStageComplete m s
  | .bundleDiscard p n => Sys2Proof.Machine.execBundleDiscard p n s
  | .castArm p n => Sys2Proof.Machine.execCastArm p n s
  | .castDisarm p n => Sys2Proof.Machine.execCastDisarm p n s
  | .castConfig p n => Sys2Proof.Machine.execCastConfig p n s
  | .streamOpen p n => Sys2Proof.Machine.execStreamOpen p n s
  | .streamSet p n => Sys2Proof.Machine.execStreamSet p n s
  | .streamClose p n => Sys2Proof.Machine.execStreamClose p n s
  | .streamQuery p n => Sys2Proof.Machine.execStreamQuery p n s
  | .streamFeatures p n => Sys2Proof.Machine.execStreamFeatures p n s
  | .streamAbort p n => Sys2Proof.Machine.execStreamAbort p n s
  | .snapshot p n => Sys2Proof.Machine.execSnapshot p n s
  | .capabilityRead p n => Sys2Proof.Machine.execCapabilityRead p n s
  | .distanceRead p n => Sys2Proof.Machine.execDistanceRead p n s
  | .telemetryRead p n => Sys2Proof.Machine.execTelemetryRead p n s
  | .noticeRead p n => Sys2Proof.Machine.execNoticeRead p n s
  | .nodeFence p n => Sys2Proof.Machine.execNodeFence p n s
  | .linkConfig p n => Sys2Proof.Machine.execLinkConfig p n s
  | .plumbMaster p n => Sys2Proof.Machine.execPlumbMaster p n s
  | .syncConfig p n => Sys2Proof.Machine.execSyncConfig p n s
  | .groupAlloc p n => Sys2Proof.Machine.execGroupAlloc p n s
  | .groupFree p n => Sys2Proof.Machine.execGroupFree p n s
  | .halfClock p n => Sys2Proof.Machine.execHalfClock p n s
  | .powerCap p n => Sys2Proof.Machine.execPowerCap p n s
  | .thermalConfig p n => Sys2Proof.Machine.execThermalConfig p n s
  | .tenantBudget p n => Sys2Proof.Machine.execTenantBudget p n s
  | .queueRead p n => Sys2Proof.Machine.execQueueRead p n s
  | .queueWrite p n => Sys2Proof.Machine.execQueueWrite p n s
  | .queueStatus p n => Sys2Proof.Machine.execQueueStatus p n s
  | .queueControl p n => Sys2Proof.Machine.execQueueControl p n s
  | .resetCold p n => Sys2Proof.Machine.execResetCold p n s
  | .resetPlane p n => Sys2Proof.Machine.execResetPlane p n s
  | .resetFunction p n => Sys2Proof.Machine.execResetFunction p n s
  | .planeRestore p n => Sys2Proof.Machine.execPlaneRestore p n s
  | .engineAbort p n => Sys2Proof.Machine.execEngineAbort p n s
  | .streamSetBoundary => Sys2Proof.Machine.execStreamSetBoundary s
  | .streamCloseBoundary => Sys2Proof.Machine.execStreamCloseBoundary s
  | .hostFeatureBoundary => Sys2Proof.Machine.execHostFeatureBoundary s
  | .streamAbortBoundary => Sys2Proof.Machine.execStreamAbortBoundary s
  | .engineAbortBoundary => Sys2Proof.Machine.execEngineAbortBoundary s
  | .engineRestartComplete => Sys2Proof.Machine.execEngineRestartComplete s
  | .nodeFenceCommit => Sys2Proof.Machine.execNodeFenceCommit s
  | .groupAllocBoundary => Sys2Proof.Machine.execGroupAllocBoundary s
  | .groupFreeBoundary => Sys2Proof.Machine.execGroupFreeBoundary s
  | .tenantBudgetBoundary => Sys2Proof.Machine.execTenantBudgetBoundary s
  | .planeRestoreBoundary => Sys2Proof.Machine.execPlaneRestoreBoundary s
  | .planeResetBoundary => Sys2Proof.Machine.execPlaneResetBoundary s
  | .planeRetrain => Sys2Proof.Machine.execPlaneRetrain s
  | .functionResetBoundary => Sys2Proof.Machine.execFunctionResetBoundary s
  | .functionResetComplete => Sys2Proof.Machine.execFunctionResetComplete s
  | .snapshotTick => Sys2Proof.Machine.execSnapshotTick s
  | .castInstant => Sys2Proof.Machine.execCastInstant s
  | .castWindowEnd => Sys2Proof.Machine.execCastWindowEnd s
  | .policyRetire => Sys2Proof.Machine.execPolicyRetire s
  | .castMessage => Sys2Proof.Machine.execCastMessage s
  | .linkPacketReceive k w at16 => Sys2Proof.Machine.execLinkPacketReceive k w at16 s
  | .hostPacketReceive b w => Sys2Proof.Machine.execHostPacketReceive b w s
  | .hostCreditReturn b vc => Sys2Proof.Machine.execHostCreditReturn b vc s
  | .linkOutputSelect k at16 => Sys2Proof.Machine.execLinkOutputSelect k at16 s
  | .hostOutputSelect b => Sys2Proof.Machine.execHostOutputSelect b s
  | .syncPortEvent e => Sys2Proof.Machine.execSyncPortEvent e s
  | .laneRxUpRise g l => Sys2Proof.Machine.execLaneRxUpRise g l s
  | .laneRxUpFall g l => Sys2Proof.Machine.execLaneRxUpFall g l s
  | .laneFault g l => Sys2Proof.Machine.execLaneFault g l s
  | .linkSilenceTimeout k => Sys2Proof.Machine.execLinkSilenceTimeout k s
  | .laneMessage => Sys2Proof.Machine.execLaneMessage s
  | .laneSpareAcceptTimeout k => Sys2Proof.Machine.execLaneSpareAcceptTimeout k s
  | .hello => Sys2Proof.Machine.execHello s
  | .helloSendTimer k => Sys2Proof.Machine.execHelloSendTimer k s
  | .route => Sys2Proof.Machine.execRoute s
  | .routeSendTimer k => Sys2Proof.Machine.execRouteSendTimer k s
  | .sync => Sys2Proof.Machine.execSync s
  | .syncSendTimer k => Sys2Proof.Machine.execSyncSendTimer k s
  | .delayMeasureTimer k => Sys2Proof.Machine.execDelayMeasureTimer k s
  | .delayReq => Sys2Proof.Machine.execDelayReq s
  | .delayResp => Sys2Proof.Machine.execDelayResp s
  | .holdoverTimeout => Sys2Proof.Machine.execHoldoverTimeout s
  | .holdoverExpiry => Sys2Proof.Machine.execHoldoverExpiry s
  | .ack => Sys2Proof.Machine.execAck s
  | .ackSend peer => Sys2Proof.Machine.execAckSend peer s
  | .retransmitTimeout peer => Sys2Proof.Machine.execRetransmitTimeout peer s
  | .sendWindowIdleFree peer => Sys2Proof.Machine.execSendWindowIdleFree peer s
  | .receiveRecordIdleFree peer => Sys2Proof.Machine.execReceiveRecordIdleFree peer s
  | .miss => Sys2Proof.Machine.execMiss s
  | .retentionBudgetExpiry k => Sys2Proof.Machine.execRetentionBudgetExpiry k s
  | .mcastCompletionRecord => Sys2Proof.Machine.execMcastCompletionRecord s
  | .streamControlPacket => Sys2Proof.Machine.execStreamControlPacket s
  | .openCommit => Sys2Proof.Machine.execOpenCommit s
  | .slotFree => Sys2Proof.Machine.execSlotFree s
  | .hostFeaturePacket => Sys2Proof.Machine.execHostFeaturePacket s
  | .contributionArrive => Sys2Proof.Machine.execContributionArrive s
  | .ingressUnclaimedTimeout => Sys2Proof.Machine.execIngressUnclaimedTimeout s
  | .textPacket => Sys2Proof.Machine.execTextPacket s
  | .textPacketAccept => Sys2Proof.Machine.execTextPacketAccept s
  | .chunkEncodeDone u => Sys2Proof.Machine.execChunkEncodeDone u s
  | .chunkRelease => Sys2Proof.Machine.execChunkRelease s
  | .segmentVerdictRelease => Sys2Proof.Machine.execSegmentVerdictRelease s
  | .logitPacket => Sys2Proof.Machine.execLogitPacket s
  | .logitWindowExpiry k => Sys2Proof.Machine.execLogitWindowExpiry k s
  | .sampleRelease k => Sys2Proof.Machine.execSampleRelease k s
  | .awlItemAdmit h l => Sys2Proof.Machine.execAwlItemAdmit h l s
  | .awlItemDone h l => Sys2Proof.Machine.execAwlItemDone h l s
  | .awlReread h l good => Sys2Proof.Machine.execAwlReread h l good s
  | .armatureSampleAdmit => Sys2Proof.Machine.execArmatureSampleAdmit s
  | .armatureResult k => Sys2Proof.Machine.execArmatureResult k s
  | .armatureReread k e good => Sys2Proof.Machine.execArmatureReread k e good s
  | .judgeDispatch => Sys2Proof.Machine.execJudgeDispatch s
  | .judgeResult h => Sys2Proof.Machine.execJudgeResult h s
  | .tapSliceTimeout => Sys2Proof.Machine.execTapSliceTimeout s
  | .probeItemDone h => Sys2Proof.Machine.execProbeItemDone h s
  | .mlpResult h => Sys2Proof.Machine.execMlpResult h s
  | .probeRelease => Sys2Proof.Machine.execProbeRelease s
  | .probeRecordPacket => Sys2Proof.Machine.execProbeRecordPacket s
  | .verdictCutoff => Sys2Proof.Machine.execVerdictCutoff s
  | .bridleLaneStart h l => Sys2Proof.Machine.execBridleLaneStart h l s
  | .verdictRelease k => Sys2Proof.Machine.execVerdictRelease k s
  | .haltMessage => Sys2Proof.Machine.execHaltMessage s
  | .handlerStart c => Sys2Proof.Machine.execHandlerStart c s
  | .cellMessageArrive c => Sys2Proof.Machine.execCellMessageArrive c s
  | .bulkTransferComplete c => Sys2Proof.Machine.execBulkTransferComplete c s
  | .barrierComplete ch => Sys2Proof.Machine.execBarrierComplete ch s
  | .flagChange => Sys2Proof.Machine.execFlagChange s
  | .cellAdd c d a b => Sys2Proof.Machine.execCellAdd c d a b s
  | .cellSub c d a b => Sys2Proof.Machine.execCellSub c d a b s
  | .cellAnd c d a b => Sys2Proof.Machine.execCellAnd c d a b s
  | .cellOr c d a b => Sys2Proof.Machine.execCellOr c d a b s
  | .cellXor c d a b => Sys2Proof.Machine.execCellXor c d a b s
  | .cellSll c d a b => Sys2Proof.Machine.execCellSll c d a b s
  | .cellSrl c d a b => Sys2Proof.Machine.execCellSrl c d a b s
  | .cellSra c d a b => Sys2Proof.Machine.execCellSra c d a b s
  | .cellMul c d a b => Sys2Proof.Machine.execCellMul c d a b s
  | .cellSlt c d a b => Sys2Proof.Machine.execCellSlt c d a b s
  | .cellSltu c d a b => Sys2Proof.Machine.execCellSltu c d a b s
  | .cellMin c d a b => Sys2Proof.Machine.execCellMin c d a b s
  | .cellMax c d a b => Sys2Proof.Machine.execCellMax c d a b s
  | .cellAddi c d a imm => Sys2Proof.Machine.execCellAddi c d a imm s
  | .cellAndi c d a imm => Sys2Proof.Machine.execCellAndi c d a imm s
  | .cellOri c d a imm => Sys2Proof.Machine.execCellOri c d a imm s
  | .cellXori c d a imm => Sys2Proof.Machine.execCellXori c d a imm s
  | .cellSlli c d a imm => Sys2Proof.Machine.execCellSlli c d a imm s
  | .cellSrli c d a imm => Sys2Proof.Machine.execCellSrli c d a imm s
  | .cellSrai c d a imm => Sys2Proof.Machine.execCellSrai c d a imm s
  | .cellSlti c d a imm => Sys2Proof.Machine.execCellSlti c d a imm s
  | .cellExtr c d a lsb width1 => Sys2Proof.Machine.execCellExtr c d a lsb width1 s
  | .cellLui c d imm => Sys2Proof.Machine.execCellLui c d imm s
  | .cellLdB c d a imm => Sys2Proof.Machine.execCellLdB c d a imm s
  | .cellLdH c d a imm => Sys2Proof.Machine.execCellLdH c d a imm s
  | .cellLdW c d a imm => Sys2Proof.Machine.execCellLdW c d a imm s
  | .cellLdD c d a imm => Sys2Proof.Machine.execCellLdD c d a imm s
  | .cellStB c d a imm => Sys2Proof.Machine.execCellStB c d a imm s
  | .cellStH c d a imm => Sys2Proof.Machine.execCellStH c d a imm s
  | .cellStW c d a imm => Sys2Proof.Machine.execCellStW c d a imm s
  | .cellStD c d a imm => Sys2Proof.Machine.execCellStD c d a imm s
  | .cellBeq c a b off => Sys2Proof.Machine.execCellBeq c a b off s
  | .cellBne c a b off => Sys2Proof.Machine.execCellBne c a b off s
  | .cellBlt c a b off => Sys2Proof.Machine.execCellBlt c a b off s
  | .cellBge c a b off => Sys2Proof.Machine.execCellBge c a b off s
  | .cellBltu c a b off => Sys2Proof.Machine.execCellBltu c a b off s
  | .cellBgeu c a b off => Sys2Proof.Machine.execCellBgeu c a b off s
  | .cellJ c off => Sys2Proof.Machine.execCellJ c off s
  | .cellJal c d off => Sys2Proof.Machine.execCellJal c d off s
  | .cellJr c a => Sys2Proof.Machine.execCellJr c a s
  | .cellVadd c int d a b => Sys2Proof.Machine.execCellVadd c int d a b s
  | .cellVsub c int d a b => Sys2Proof.Machine.execCellVsub c int d a b s
  | .cellVmul c int d a b => Sys2Proof.Machine.execCellVmul c int d a b s
  | .cellVfma c int d a b e => Sys2Proof.Machine.execCellVfma c int d a b e s
  | .cellVmax c int d a b => Sys2Proof.Machine.execCellVmax c int d a b s
  | .cellVmin c int d a b => Sys2Proof.Machine.execCellVmin c int d a b s
  | .cellVbcast c d a => Sys2Proof.Machine.execCellVbcast c d a s
  | .cellVred c int d a => Sys2Proof.Machine.execCellVred c int d a s
  | .cellVld c d a imm => Sys2Proof.Machine.execCellVld c d a imm s
  | .cellVst c d a imm => Sys2Proof.Machine.execCellVst c d a imm s
  | .cellMclr c t mode shift => Sys2Proof.Machine.execCellMclr c t mode shift s
  | .cellMstep c t va vb asel bsel vec fmt => Sys2Proof.Machine.execCellMstep c t va vb asel bsel vec fmt s
  | .cellMrd c t vd target sat clr row rowmode q shift => Sys2Proof.Machine.execCellMrd c t vd target sat clr row rowmode q shift s
  | .cellMstat c t d => Sys2Proof.Machine.execCellMstat c t d s
  | .cellSend c a => Sys2Proof.Machine.execCellSend c a s
  | .cellSendw c a => Sys2Proof.Machine.execCellSendw c a s
  | .cellRecv c d => Sys2Proof.Machine.execCellRecv c d s
  | .cellRqlen c d => Sys2Proof.Machine.execCellRqlen c d s
  | .cellBput c a b tag len => Sys2Proof.Machine.execCellBput c a b tag len s
  | .cellBget c a b tag len => Sys2Proof.Machine.execCellBget c a b tag len s
  | .cellBpost c a b tag len => Sys2Proof.Machine.execCellBpost c a b tag len s
  | .cellBar c ch => Sys2Proof.Machine.execCellBar c ch s
  | .cellFset c f => Sys2Proof.Machine.execCellFset c f s
  | .cellFclr c f => Sys2Proof.Machine.execCellFclr c f s
  | .cellFrd c d f => Sys2Proof.Machine.execCellFrd c d f s
  | .cellFwait c f v => Sys2Proof.Machine.execCellFwait c f v s
  | .cellNop c => Sys2Proof.Machine.execCellNop c s
  | .cellEnd c => Sys2Proof.Machine.execCellEnd c s
  | .cellCsrr c d k => Sys2Proof.Machine.execCellCsrr c d k s
  | .cellPlumb c d => Sys2Proof.Machine.execCellPlumb c d s
  | .bridleEnd h l => Sys2Proof.Machine.execBridleEnd h l s
  | .bridleLd h l d sel => Sys2Proof.Machine.execBridleLd h l d sel s
  | .bridleLi h l d imm => Sys2Proof.Machine.execBridleLi h l d imm s
  | .bridleFadd h l d a b => Sys2Proof.Machine.execBridleFadd h l d a b s
  | .bridleFmul h l d a b => Sys2Proof.Machine.execBridleFmul h l d a b s
  | .bridleFmax h l d a b => Sys2Proof.Machine.execBridleFmax h l d a b s
  | .bridleFmin h l d a b => Sys2Proof.Machine.execBridleFmin h l d a b s
  | .bridleAnd h l d a b => Sys2Proof.Machine.execBridleAnd h l d a b s
  | .bridleOr h l d a b => Sys2Proof.Machine.execBridleOr h l d a b s
  | .bridleAdd h l d a b => Sys2Proof.Machine.execBridleAdd h l d a b s
  | .bridleBflt h l a b k => Sys2Proof.Machine.execBridleBflt h l a b k s
  | .bridleBfge h l a b k => Sys2Proof.Machine.execBridleBfge h l a b k s
  | .bridleBnan h l a k => Sys2Proof.Machine.execBridleBnan h l a k s
  | .bridleBeq h l a b k => Sys2Proof.Machine.execBridleBeq h l a b k s
  | .bridleBne h l a b k => Sys2Proof.Machine.execBridleBne h l a b k s
  | .bridleBltu h l a b k => Sys2Proof.Machine.execBridleBltu h l a b k s
  | .bridleBgeu h l a b k => Sys2Proof.Machine.execBridleBgeu h l a b k s
  | .bridleBbit h l a bit k => Sys2Proof.Machine.execBridleBbit h l a bit k s
  | .bridleHold h l span disp => Sys2Proof.Machine.execBridleHold h l span disp s
  | .bridleRedact h l a b => Sys2Proof.Machine.execBridleRedact h l a b s
  | .bridleRewind h l n => Sys2Proof.Machine.execBridleRewind h l n s
  | .bridleHalt h l => Sys2Proof.Machine.execBridleHalt h l s
  | .bridleBias h l a vector => Sys2Proof.Machine.execBridleBias h l a vector s
  | .bridleTag h l tag => Sys2Proof.Machine.execBridleTag h l tag s
  | .cellHardFault c => Sys2Proof.Machine.execCellHardFault c s
  | .cellReloadComplete c => Sys2Proof.Machine.execCellReloadComplete c s
  | .benchRouterFail b => Sys2Proof.Machine.execBenchRouterFail b s
  | .engineHardFault h e u => Sys2Proof.Machine.execEngineHardFault h e u s
  | .weltGroupRetire southward g => Sys2Proof.Machine.execWeltGroupRetire southward g s
  | .weltSpareTakeover southward => Sys2Proof.Machine.execWeltSpareTakeover southward s
  | .patrolScrub m w => Sys2Proof.Machine.execPatrolScrub m w s
  | .memRepair => Sys2Proof.Machine.execMemRepair s
  | .cellImageRewrite c addr => Sys2Proof.Machine.execCellImageRewrite c addr s
  | .packetDelineation k hdr => Sys2Proof.Machine.execPacketDelineation k hdr s
  | .detokenizerContributionReady k => Sys2Proof.Machine.execDetokenizerContributionReady k s
  | .samplerStepDone k => Sys2Proof.Machine.execSamplerStepDone k s
  | .ingressContributionCutoff => Sys2Proof.Machine.execIngressContributionCutoff s
  | .mboxSubmit p bits => Sys2Proof.Machine.execMboxSubmit p bits s
  | .repairSemaphoreRelease => Sys2Proof.Machine.execRepairSemaphoreRelease s
  | .planeResetComplete => Sys2Proof.Machine.execPlaneResetComplete s

end Sys2Proof.Machine
end

