-- ==== Sys2Proof/Safety.lean ====
section
/-! DEFINITION. The words of the statements: a legal state (clocks, cap and temperatures in their ranges, R484, R486, R506,
R508; every addressed memory in its canonical form), the part of a state that counters and notices leave alone, a command
that can start and one that is answered (R421 to R424), a cell and a lane that stand at an instruction (R244, R327). -/

namespace Sys2Proof.Machine

/-- A legal array clock: 200 MHz to 800 MHz in steps of 100 MHz (R484). -/
abbrev legalClock (mhz : Nat) : Prop := 200 ≤ mhz ∧ mhz ≤ 800 ∧ mhz % 100 = 0

/-- A half's points are legal clocks, and its array never runs above its set point (R484, R486, R506). -/
abbrev HalfPower.Legal (v : HalfPower) : Prop :=
  legalClock v.opSet ∧ legalClock v.throttle ∧ legalClock v.point ∧ legalClock v.setPoint ∧ legalClock v.run ∧ v.run ≤ v.setPoint

/-- Both halves are legal, the cap lies in 80 W to 240 W, the emergency temperature in 85 °C to 110 °C, and the release
temperature at least 5 °C below it (R506, R508). -/
abbrev Power.Legal (p : Power) : Prop :=
  p.north.Legal ∧ p.south.Legal ∧ 800 ≤ p.cap ∧ p.cap ≤ 2400 ∧ 85 ≤ p.emergencyC ∧ p.emergencyC ≤ 110 ∧ p.releaseC + 5 ≤ p.emergencyC

/-- Every addressed memory has its canonical form: the mailbox slots, the cells' local memory and the shared memory. -/
abbrev State.MemoryCanonical (s : State) : Prop :=
  (s.ctl.mbox.all (fun e => e.2.mem.wf) = true) ∧ (s.grid.cells.all (fun e => e.2.mem.wf) = true) ∧ s.grid.shared.wf = true

/-! ### Frames -/

/-- The state without what counting and raising notices write: counters, notices, events sent on the sync port and gate
queues (R402, R404, R493). Two states with one quiet part differ in nothing else. -/
def State.quiet (s : State) : State :=
  { s with queues := [], ctl := { s.ctl with counters := [], notices := [], syncOut := [] } }

/-- The quiet part without the mailbox slots: what the answer to a command leaves unchanged. -/
def State.apart (s : State) : State := { s.quiet with ctl := { s.quiet.ctl with mbox := [] } }

/-- The state without what sending packets writes besides: the link plane, the bulk ports, the sources of free values, the
tenant budgets and the contributions buffered for a stream. What a boundary of a stream leaves changes nothing else. -/
def State.inside (s : State) : State :=
  { s.quiet with
    freeUse := 0
    plane := {}
    bulk := []
    ctl := { s.quiet.ctl with budgets := [] }
    streams := { s.streams with buffer := [] } }

/-- What counting and raising notices write. -/
def State.loud (s : State) : List (QueueId × Queue) × List (CtrKey × Counter) × List Notice × List Half :=
  (s.queues, s.ctl.counters, s.ctl.notices, s.ctl.syncOut)

/-! ### Mailbox commands -/

/-- The command of a code in a slot can start and is not turned away: the firmware runs (or the boot ROM, for its own
commands, R430), the slot is handed over and not started, R423's order has come to it, a configuration command held
semaphore 0 at acceptance (R427), and its body is long enough (R516). -/
abbrev State.Ready (s : State) (p : MPort) (n : Fin 32) (code minLen : Nat) : Prop :=
  (s.boot.fwRunning = true ∨ (s.boot.romReady = true ∧ romCodes.contains code = true)) ∧
  (s.slot p n).owned = true ∧ (s.slot p n).started = false ∧ (s.slot p n).code = code ∧
  s.startAhead (cmdKey p n (s.slot p n)) = false ∧
  (isConfig code = true → s.configAhead (cmdKey p n (s.slot p n)) = false ∧ (s.slot p n).owner0 = portOwner p) ∧
  minLen ≤ (s.slot p n).bodyLen

/-- The slot's command body as `field` reads it. -/
abbrev State.arg (s : State) (p : MPort) (n : Fin 32) (off size : Nat) : Nat := field (s.slot p n).body off size

/-- A slot is answered: it is its port's again, its response area holds the status and body (R421), its command area is
as it was, a command with `notify` has NTC_MAILBOX latched (R424), and every other slot is as it was. -/
def State.Answered (s t : State) (p : MPort) (n : Fin 32) (status : Nat) (body : List Byte) : Prop :=
  (t.slot p n).owned = false ∧ (t.slot p n).started = false ∧
  (t.slot p n).mem = Memory.setBytes (s.slot p n).mem 0x100 (responseArea (s.slot p n) status body) ∧
  ((s.slot p n).notify = true → t.latched 15 = true) ∧
  (∀ q m, (q, m) ≠ (p, n) → t.slot q m = s.slot q m)

/-- A slot is its port's again, and its response area holds the status and body (R421). -/
abbrev State.Answers (s t : State) (p : MPort) (n : Fin 32) (status : Nat) (body : List Byte) : Prop :=
  (t.slot p n).owned = false ∧ (t.slot p n).mem = Memory.setBytes (s.slot p n).mem 0x100 (responseArea (s.slot p n) status body)

/-- The command's outcome: the slot is answered, and the rest is the state `e`, but that a command with `notify` raises its
notice (R424). -/
abbrev State.AnswersWith (s : State) (o : Host.Outcome State Fault Refusal) (p : MPort) (n : Fin 32) (status : Nat)
    (body : List Byte) (e : State) : Prop :=
  ∃ t, o = .next t ∧ s.Answered t p n status body ∧ t.apart = e.apart ∧ ((s.slot p n).notify = false → t.loud = e.loud)

/-- The command's outcome: it waits, started and not answered, behind the order of R68 and R423 until a tick, and the rest of
the state is as it was. -/
abbrev State.WaitsUntil (s : State) (o : Host.Outcome State Fault Refusal) (p : MPort) (n : Fin 32) (w : Waiting) : Prop :=
  ∃ t, o = .next t ∧ t.ctl.waiting = insertWaiting w s.ctl.waiting ∧ (t.slot p n).owned = true ∧
    (t.slot p n).started = true ∧ (t.slot p n).mem = (s.slot p n).mem ∧
    (∀ q m, (q, m) ≠ (p, n) → t.slot q m = s.slot q m) ∧
    { t with ctl := { t.ctl with waiting := s.ctl.waiting, mbox := s.ctl.mbox } } = s

/-- The entry of a slot's command that waits for its boundary, 1,024 ticks after acceptance (R80, R515). -/
def State.boundaryWait (s : State) (p : MPort) (n : Fin 32) (code : Nat) : Waiting :=
  { code := code, from? := some (p, n), accept := (s.slot p n).accept, order := slotOrder p n,
    due := (s.slot p n).accept + 1024, body := (s.slot p n).body.take (s.slot p n).bodyLen }

/-- The entry of a slot's command that waits for its snapshot tick T, behind what commits at T (R86, R87). -/
def State.snapshotWait (s : State) (p : MPort) (n : Fin 32) (code : Nat) : Waiting :=
  { s.boundaryWait p n code with order := 1000 + slotOrder p n }

/-- A command that waits for its boundary is done: it is off the list, and the slot it came from, if it came from one, is
answered (R80, R421). -/
def State.Finished (s t : State) (w : Waiting) (status : Nat) (body : List Byte) : Prop :=
  t.ctl.waiting = s.ctl.waiting.eraseP Waiting.atBoundary ∧
  (∀ p n, w.from? = some (p, n) → s.Answered t p n status body) ∧ (w.from? = none → t.ctl.mbox = s.ctl.mbox)

/-- The inside of a state without the mailbox slots and the waiting commands. -/
def State.besides (s : State) : State :=
  { s.inside with ctl := { s.inside.ctl with mbox := [], waiting := [] } }

/-- The state besides all streams and what waits for them. -/
def State.offStreams (s : State) : State := { s.besides with streams := {} }

/-- An open request at its stamp is granted: the slot that has been FREE the longest holds a fresh OPENING stream with the
request and the handle of the slot's generation, and its commit is pending (R61, R64 to R66, R70). -/
def State.Granted (s t : State) (r : OpenRequest) (stamp order : Nat) (mb : Option (MPort × Fin 32)) : Prop :=
  ∃ k st, s.streams.nextFree = some k ∧ t.streams.table = aset k st s.streams.table ∧ st.state = .opening ∧ st.req = r ∧
    st.handle = s.handleOf k ∧ st.openStamp = s.effStamp stamp ∧ st.tokens = [] ∧ st.counters = [] ∧ st.audit = [] ∧
    (∃ o ∈ t.streams.opens, o.req = r ∧ o.stamp = stamp ∧ o.order = order ∧ o.mailbox = mb ∧ o.slot = some k ∧ o.status = Status.ok)

/-- An open request at its stamp is refused: no stream changes, and its refusal with the status is pending (R66, R69). -/
def State.TurnedAway (s t : State) (r : OpenRequest) (stamp order : Nat) (mb : Option (MPort × Fin 32)) (status : Nat) : Prop :=
  t.streams.table = s.streams.table ∧ t.streams.nextFree = s.streams.nextFree ∧
    (∃ o ∈ t.streams.opens, o.req = r ∧ o.stamp = stamp ∧ o.order = order ∧ o.mailbox = mb ∧ o.slot = none ∧ o.status = status)

/-- The engines are as before, or only without what the stream in slot k had in the awl lanes, which a halt discards (R177). -/
abbrev State.EnginesKeep (s t : State) (k : SlotId) : Prop := t.eng = s.eng ∨ t.eng = (s.dropItems k).eng

/-- A command about the stream in slot k is done at its boundary: the stream is `x`, the command is answered, and nothing else has
changed (R80). -/
abbrev State.DoneOn (s t : State) (w : Waiting) (k : SlotId) (x : Stream) (status : Nat) (body : List Byte) : Prop :=
  s.Finished t w status body ∧ { t.besides with eng := s.eng } = (s.setStream k x).besides ∧ s.EnginesKeep t k

/-- Only the stream in slot k has changed, to `x`. -/
abbrev State.OnlyStream (s t : State) (k : SlotId) (x : Stream) : Prop :=
  t.streams.table = aset k x s.streams.table ∧ { t.offStreams with eng := s.eng } = s.offStreams ∧ s.EnginesKeep t k

/-- Nothing of the stream comes before a command's boundary at tick `due` any more (R80): no commit, no logit packet stamped before
it, no earlier release of a step, and no poisoned word of its context is met (R470). -/
abbrev State.BoundaryClear (s : State) (st : Stream) (due : Nat) : Prop :=
  st.owes due = false ∧ s.logitBefore st.handle due = false ∧ (∀ x ∈ st.steps, x.released = true ∨ due ≤ x.release) ∧
  st.poisoned = none

/-- The stream without what every boundary commits besides its own effect (R78): its tick, the counter words, the committed
sampling and ingress blocks, the grammar of a stream that has none, and the digest of the audit chain. -/
def Stream.bare (st : Stream) : Stream :=
  { st with boundary := 0, owed := [], counters := [], audit := [], grammar := {},
            seen := { grammarId := 0, temperature := 0#32, topK := 0, topP := 0#32, minP := 0#32, seed := 0#64, drafts := 0 },
            inp := { st.inp with seen := {} } }

/-! ### Instructions -/

/-- The cell whose core a command is an instruction of (R244 to R256). -/
def coreOf : Instr → Option CellId
  | .cellAdd c _ _ _ | .cellSub c _ _ _ | .cellAnd c _ _ _ | .cellOr c _ _ _ | .cellXor c _ _ _ | .cellSll c _ _ _
  | .cellSrl c _ _ _ | .cellSra c _ _ _ | .cellMul c _ _ _ | .cellSlt c _ _ _ | .cellSltu c _ _ _ | .cellMin c _ _ _
  | .cellMax c _ _ _ | .cellAddi c _ _ _ | .cellAndi c _ _ _ | .cellOri c _ _ _ | .cellXori c _ _ _ | .cellSlli c _ _ _
  | .cellSrli c _ _ _ | .cellSrai c _ _ _ | .cellSlti c _ _ _ | .cellExtr c _ _ _ _ | .cellLui c _ _ | .cellLdB c _ _ _
  | .cellLdH c _ _ _ | .cellLdW c _ _ _ | .cellLdD c _ _ _ | .cellStB c _ _ _ | .cellStH c _ _ _ | .cellStW c _ _ _
  | .cellStD c _ _ _ | .cellBeq c _ _ _ | .cellBne c _ _ _ | .cellBlt c _ _ _ | .cellBge c _ _ _ | .cellBltu c _ _ _
  | .cellBgeu c _ _ _ | .cellJ c _ | .cellJal c _ _ | .cellJr c _ | .cellVadd c _ _ _ _ | .cellVsub c _ _ _ _
  | .cellVmul c _ _ _ _ | .cellVfma c _ _ _ _ _ | .cellVmax c _ _ _ _ | .cellVmin c _ _ _ _ | .cellVbcast c _ _
  | .cellVred c _ _ _ | .cellVld c _ _ _ | .cellVst c _ _ _ | .cellMclr c _ _ _ | .cellMstep c _ _ _ _ _ _ _
  | .cellMrd c _ _ _ _ _ _ _ _ _ | .cellMstat c _ _ | .cellSend c _ | .cellSendw c _ | .cellRecv c _ | .cellRqlen c _
  | .cellBput c _ _ _ _ | .cellBget c _ _ _ _ | .cellBpost c _ _ _ _ | .cellBar c _ | .cellFset c _ | .cellFclr c _
  | .cellFrd c _ _ | .cellFwait c _ _ | .cellNop c | .cellEnd c | .cellCsrr c _ _ | .cellPlumb c _ => some c
  | _ => none

/-- The core of a cell runs a handler, is at no barrier, does not reload and stands at the instruction word (R242, R244,
R249, R257, R265). -/
abbrev State.CellAt (s : State) (c : CellId) (r : Running) (w : Word) : Prop :=
  (s.cell c).run = some r ∧ r.atBarrier = none ∧ (s.cell c).reloading = false ∧ (s.cell c).fetch r r.pc = .word w

/-- The state after an instruction that changes only its own cell, to `x`, and goes on at `pc`. -/
def State.cellNext (s : State) (c : CellId) (r : Running) (x : Cell) (pc : Nat) : State :=
  s.setCell c { x with run := some { r with pc := pc } }

/-- A bridle lane runs `r` and stands at the instruction word (R327, R328). -/
abbrev State.LaneAt (s : State) (h : HalfId) (l : Fin 16) (r : LaneRun) (w : DWord) : Prop :=
  (s.lane h l).run = some r ∧ s.laneCode r = some w

end Sys2Proof.Machine
end

