-- ==== Sys2Proof/Certificates/Slice0/Obligations.lean ====
section
/-! DEFINITION. The statements: one proposition each, in the words of Sys2Proof/Safety.lean; OBLIGATIONS.json lists them with
the rules they rest on. -/

open Sys2Proof Sys2Proof.Machine

/-! ### The machine -/

/-- A step takes the command at the front of the queue and is `exec` of it on the state with the queue's rest; on an empty queue
the gate idles (log 1). -/
def Obligations.StepRunsTheFrontCommand : Prop :=
  (∀ (c : Instr) (rest : List Instr) (s : State), step { s with pending := c :: rest } = exec c { s with pending := rest }) ∧
  (∀ s : State, s.pending = [] → step s = .next s)

/-- Every command answers a next state, and none changes the queue of the waiting commands. -/
def Obligations.EveryCommandCompletes : Prop :=
  ∀ (c : Instr) (s : State), ∃ t, exec c s = .next t ∧ t.pending = s.pending

/-- Reset: plumb 0, FREE_RUN, no identity; the firmware and the boot ROM stopped, the keys unlocked; every link DOWN, every queue
empty, every counter 0, every semaphore free, no notice; no stream, the first slot next; the default state with no policy; the
clocks, the cap and the temperatures at legal values, and every memory in its canonical form. -/
def Obligations.ResetState : Prop :=
  State.reset.pending = [] ∧ State.reset.aon.plumb = 0#64 ∧ State.reset.aon.sync = .freeRun ∧
  State.reset.aon.nodeValid = false ∧ State.reset.aon.master = false ∧ State.reset.aon.rstOutN = false ∧
  State.reset.boot.fwRunning = false ∧ State.reset.boot.romReady = false ∧ State.reset.boot.keysLocked = false ∧
  (∀ k : LinkId, (State.reset.link k).state = .down ∧ (State.reset.link k).out = {}) ∧
  (∀ q : QueueId, (State.reset.queue q).items = [] ∧ (State.reset.queue q).overrun = false) ∧
  (∀ k : CtrKey, (State.reset.counter k).count = 0) ∧ (∀ n : Fin 32, (State.reset.sem n).owner = 0) ∧
  (∀ code, State.reset.latched code = false) ∧ (∀ p n, (State.reset.slot p n).owned = false) ∧
  State.reset.streams.table = [] ∧ State.reset.streams.nextFree = some 0 ∧ State.reset.cast.active = none ∧
  State.reset.cast.defaultState = true ∧ (∀ c, (State.reset.cell c).run = none ∧ (State.reset.cell c).faultCause = 0) ∧
  State.reset.power.Legal ∧ State.reset.MemoryCanonical

/-- Every step keeps the clocks at multiples of 100 MHz from 200 to 800 MHz with each array at or below its set point, the cap in
80 W to 240 W, and the temperatures in R508's range (R484, R486, R506, R508). -/
def Obligations.StepKeepsLegalPower : Prop :=
  ∀ s t : State, s.power.Legal → step s = .next t → t.power.Legal

/-- The commands that write an addressed memory keep every memory in its canonical form: register writes, a cell's stores and a
landing transfer. -/
def Obligations.WritesKeepMemoryCanonical : Prop :=
  ∀ (s t : State) (c : Instr), s.MemoryCanonical → exec c s = .next t →
    ((∃ b a d, c = .registerWrite b a d) ∨
      (∃ k d a imm, c = .cellStB k d a imm ∨ c = .cellStH k d a imm ∨ c = .cellStW k d a imm ∨ c = .cellStD k d a imm ∨
        c = .cellVst k d a imm) ∨ (∃ k, c = .bulkTransferComplete k)) →
    t.MemoryCanonical

/-! ### Plumb, registers, semaphores and queues (R11, R31 to R35, R398 to R429, R512 to R514) -/

/-- A plumb tick increments the counter by exactly one and changes nothing else (R31). A read of PLUMB_LO answers the low half of
plumb and latches the high half for the reading port alone; a read of PLUMB_STATUS answers the status and clears `max_offset`;
nothing else changes (R35). -/
def Obligations.PlumbAndItsReads : Prop :=
  (∀ s : State, exec .plumbTick s = .next { s with aon := { s.aon with plumb := s.aon.plumb + 1#64 } }) ∧
  (∀ (s : State),
      (∃ t, exec (.plumbLoRead .a) s = .next t ∧ aget .ctl0 t.ctl.rsp = some (0, leBytes 4 (s.aon.plumb.setWidth 32 : Word).toNat) ∧
        t.aon = { s.aon with hiA := (s.aon.plumb >>> 32).setWidth 32 } ∧
        { t with aon := s.aon, ctl := { t.ctl with rsp := s.ctl.rsp } } = s) ∧
      (∃ t, exec (.plumbLoRead .b) s = .next t ∧ aget .mgtb t.ctl.rsp = some (0, leBytes 4 (s.aon.plumb.setWidth 32 : Word).toNat) ∧
        t.aon = { s.aon with hiB := (s.aon.plumb >>> 32).setWidth 32 } ∧
        { t with aon := s.aon, ctl := { t.ctl with rsp := s.ctl.rsp } } = s) ∧
      (∀ p, s.directRead p 0x24 = (match p with | .a => s.aon.hiA | .b => s.aon.hiB)) ∧
      (∀ p, ∃ t, exec (.plumbStatusRead p) s = .next t ∧ aget (portBus p) t.ctl.rsp = some (0, leBytes 4 s.aon.status.toNat) ∧
        t.aon = { s.aon with maxOffset := 0#8 } ∧ { t with aon := s.aon, ctl := { t.ctl with rsp := s.ctl.rsp } } = s))

/-- Writes by address: a slot's bytes while the port owns it, else result 2 (R422); NTC_ENABLE and QLEVEL are stored (R415, R512);
a misaligned address answers result 1 on the control ports and is counted on port B (R398, R420); nothing else changes.
Writing 1 clears `stepped` (R35) and `fw_failed` (R429); a NODE_ID write sets `node` and `valid` only while `valid` is 0 and
the writing port holds semaphore 0 (R513); an acknowledgement clears the notices of its bits (R514); nothing else changes. -/
def Obligations.RegisterWritesAndClears : Prop :=
  (∀ (s : State) (addr : Word) (data : List Byte),
      (∀ (n : Fin 32) (off : Nat), off + data.length ≤ 512 → off % data.length = 0 → data.length ∈ [4, 8, 64] →
        addr.toNat = 0x10000 + 512 * n.val + off →
        ((s.slot .a n).owned = true → exec (.registerWrite .ctl0 addr data) s = .next (s.reply .ctl0 2 [])) ∧
        ((s.slot .a n).owned = false → exec (.registerWrite .ctl0 addr data) s
          = .next ((s.setSlot .a n { s.slot .a n with mem := Memory.setBytes (s.slot .a n).mem off data }).reply .ctl0 0 [])) ∧
        (data.length = 4 → (s.slot .b n).owned = false → exec (.registerWrite .mgtb addr data) s
          = .next (s.setSlot .b n { s.slot .b n with mem := Memory.setBytes (s.slot .b n).mem off data }))) ∧
      (data.length ∈ [4, 8, 64] → addr.toNat % data.length ≠ 0 →
        exec (.registerWrite .ctl0 addr data) s = .next (s.reply .ctl0 1 []) ∧
        exec (.registerWrite .ctl1 addr data) s = .next (s.reply .ctl1 1 []) ∧
        (data.length = 4 → exec (.registerWrite .mgtb addr data) s = .next (s.countN 0x11 0 4 1))) ∧
      (addr.toNat = 0x14 → data.length = 4 →
        ∃ t, exec (.registerWrite .mgtb addr data) s = .next t ∧ t.ctl.enableB = BitVec.ofNat 32 (ofLe data) &&& 0x7FFFFF#32 ∧
          { t with ctl := { t.ctl with enableB := s.ctl.enableB, syncOut := s.ctl.syncOut } } = s) ∧
      (∀ q : QueueId, addr.toNat = 0x10004 + 16 * q.val → data.length = 4 →
        exec (.registerWrite .ctl1 addr data) s = .next ((s.setQueue q
          { s.queue q with cfg := { (s.queue q).cfg with level := ofLe data % 2 ^ 24 } }).reply .ctl1 0 []))) ∧
  (∀ (s : State) (p : MPort),
      (∃ t, exec (.plumbSteppedClear p) s = .next t ∧ t.aon = { s.aon with stepped := false } ∧
        { t with aon := s.aon, ctl := { t.ctl with rsp := s.ctl.rsp } } = s) ∧
      (∃ t, exec (.bootFwFailedClear p) s = .next t ∧ t.boot = { s.boot with fwFailed := false } ∧
        { t with boot := s.boot, ctl := { t.ctl with rsp := s.ctl.rsp } } = s) ∧
      (∀ v : Word, ∃ t, exec (.nodeIdWrite p v) s = .next t ∧
        t.aon = (if s.aon.nodeValid = false ∧ s.semOwner 0 = portOwner p then
          { s.aon with node := v.setWidth 12, nodeValid := true } else s.aon) ∧
        { t with aon := s.aon, ctl := { t.ctl with rsp := s.ctl.rsp } } = s) ∧
      (∀ bits : Word, ∃ t, exec (.noticeAcknowledge p bits) s = .next t ∧
        t.ctl.notices = s.ctl.notices.filter (fun n => !bits.getLsbD (n.code - 1)) ∧
        (∀ code, t.latched code = (s.latched code && !bits.getLsbD (code - 1))) ∧
        { t with ctl := { t.ctl with notices := s.ctl.notices, rsp := s.ctl.rsp, syncOut := s.ctl.syncOut } } = s))

/-- A semaphore as R426 says: a request to a free one is granted and counts in `epoch`, the firmware's wins, of two ports the one
that did not win the previous tie, port A first after a reset; a request to a held one changes nothing; a release acts for its
holder alone; a force releases it, counts, and latches NTC_SEMAPHORE with the number, the former owner and the port; a read
shows the owner. -/
def Obligations.SemaphoreRules : Prop :=
  ∀ (s : State) (n : Fin 32),
    (∀ a b fw, (s.sem n).owner ≠ 0 → ∃ t, exec (.semRequest n a b fw) s = .next t ∧ t.sem n = s.sem n) ∧
    (∀ a b fw, (s.sem n).owner = 0 → ∃ t, exec (.semRequest n a b fw) s = .next t ∧
      (t.sem n).owner = (if fw then 3 else if a && b then (if (s.sem n).tieB then 2 else 1) else if a then 1 else if b then 2 else 0) ∧
      (t.sem n).epoch = (if a || b || fw then (s.sem n).epoch + 1#16 else (s.sem n).epoch) ∧
      (t.sem n).tieB = (if a && b && !fw then !(s.sem n).tieB else (s.sem n).tieB)) ∧
    (State.reset.sem n).tieB = false ∧
    (∀ p, ∃ t, exec (.semRelease n p) s = .next t ∧
      t.sem n = (if (s.sem n).owner = portOwner p then { s.sem n with owner := 0 } else s.sem n)) ∧
    (∀ p, ∃ t, exec (.semForce n p) s = .next t ∧ t.sem n = { s.sem n with owner := 0 } ∧
      (t.counter ⟨0x11, 0, 5⟩).count = min (2 ^ 48 - 1) ((s.counter ⟨0x11, 0, 5⟩).count + 1) ∧ t.latched 16 = true ∧
      (s.latched 16 = false → ∃ v ∈ t.ctl.notices, v.code = 16 ∧
        v.detail = padTo 40 [BitVec.ofNat 8 n.val, BitVec.ofNat 8 (s.sem n).owner, BitVec.ofNat 8 (portCode p)])) ∧
    (∀ p, (s.sem n).owner < 4 → (s.directRead p (0x100 + 4 * n.val)).toNat % 4 = (s.sem n).owner) ∧
    (∀ c t, (c = .semRequest n true false false ∨ c = .semRequest n false true false ∨ c = .semRequest n false false true ∨
        c = .semRequest n true true false ∨ c = .semRelease n .a ∨ c = .semRelease n .b) → exec c s = .next t →
      (∀ m, m ≠ n → t.sem m = s.sem m) ∧ { t with ctl := { t.ctl with sems := s.ctl.sems } } = s)

/-- A read of an empty queue returns the idle item and changes no state (R412): its header holds the tag NOT_VALID and the
sequence of the next item, its body byte 8 `in_packet` and `overrun`, and every other byte is zero. -/
def Obligations.QueueIdleRead : Prop :=
  ∀ (s : State) (q : QueueId), (s.queue q).items = [] → (s.queue q).sequence < 2 ^ 32 →
    ∃ t, exec (.queueItemRead q) s = .next t ∧
      aget .ctl1 t.ctl.rsp = some (0, leBytes 4 0 ++ leBytes 4 (s.queue q).sequence
        ++ [BitVec.ofNat 8 ((if (s.queue q).current.isSome then 1 else 0) + (if (s.queue q).overrun then 2 else 0))]
        ++ List.replicate 55 0#8) ∧
      (∀ p, t.queue p = s.queue p) ∧
      { t with queues := s.queues, ctl := { t.ctl with rsp := s.ctl.rsp } } = s

/-- Writing 1 to `drop_packet` discards the current packet's unread items, counting them, and its later ones as they are written,
up to the last; with no packet current it has no effect (R410). -/
def Obligations.QueueDropPacket : Prop :=
  ∀ (s : State) (q : QueueId),
    ((s.queue q).current = none →
      ∃ t, exec (.queueDropPacket q) s = .next t ∧ (∀ p, t.queue p = s.queue p) ∧
        { t with queues := s.queues, ctl := { t.ctl with rsp := s.ctl.rsp } } = s) ∧
    (∀ p, (s.queue q).current = some p →
      ∃ t, exec (.queueDropPacket q) s = .next t ∧
        ((q = 0 → t.latched 22 = s.latched 22) → (t.queue q).items = (s.queue q).items.filter (fun i => i.pkt ≠ p)) ∧ (t.queue q).current = none ∧
        (t.queue q).dropping = (if (s.queue q).items.any (fun i => decide (i.pkt = p) && i.last) then none else some p) ∧
        (let n := ((s.queue q).items.filter (fun i => i.pkt = p)).length
         (t.counter ⟨0x05, q.val, 0⟩).count = if n = 0 then (s.counter ⟨0x05, q.val, 0⟩).count
           else min (2 ^ 48 - 1) ((s.counter ⟨0x05, q.val, 0⟩).count + n)) ∧
        (∀ m, m ≠ q → m ≠ 0 → t.queue m = s.queue m) ∧ { t.quiet with ctl := { t.quiet.ctl with rsp := s.ctl.rsp } } = s.quiet) ∧
    (∀ p bytes, (s.queue q).cfg.hostWrites = true → (s.queue q).dropping = some p →
      (ofLe (bytes.take 8)).testBit 19 = false →
      ∃ t, exec (.queueItemWrite q bytes) s = .next t ∧ (t.queue q).items = (s.queue q).items ∧
        (t.queue q).dropping = (if (ofLe (bytes.take 8)).testBit 20 then none else some p) ∧
        (t.counter ⟨0x05, q.val, 0⟩).count = min (2 ^ 48 - 1) ((s.counter ⟨0x05, q.val, 0⟩).count + 1))

/-- A read takes one item: the current packet's next, or the oldest of the highest priority (R408); a spilled item whose word is
poisoned comes as POISONED with a zero body and is counted (R470). A write offers one item to a host-written queue: with room it
is taken, an item that ends its packet filling in the packet's count; without room, or after a truncation, it is ignored with
`overrun`; after a drop_packet it is dropped; a gate-written queue refuses it with result 2 (R409 to R411). Writing 1 clears
`overrun` and acknowledges `latched` (R413, R415). -/
def Obligations.QueuePorts : Prop :=
  ∀ (s : State) (q : QueueId),
    (∀ i, (s.queue q).nextItem = some i →
      ∃ t, exec (.queueItemRead q) s = .next t ∧ aget .ctl1 t.ctl.rsp = some (0, i.bytes) ∧ i ∈ (s.queue q).items ∧
        (∀ p, (s.queue q).current = some p → i.pkt = p) ∧
        ((s.queue q).current = none → ∀ j ∈ (s.queue q).items, j.priority ≤ i.priority) ∧
        (i.bad = none → (t.queue q).items = (s.queue q).items.filter (fun j => j.sequence ≠ i.sequence) ∧
          (∀ m, m ≠ q → t.queue m = s.queue m) ∧ { t with queues := s.queues, ctl := { t.ctl with rsp := s.ctl.rsp } } = s) ∧
        (i.bad ≠ none → i.bytes.drop 8 = List.replicate 56 0#8 ∧ t.latched 19 = true ∧
          (q ≠ 0 → (t.queue q).items = (s.queue q).items.filter (fun j => j.sequence ≠ i.sequence)) ∧
          (∀ m, m ≠ q → m ≠ 0 → t.queue m = s.queue m) ∧
          (t.counter ⟨0x13, 0, 3⟩).count = min (2 ^ 48 - 1) ((s.counter ⟨0x13, 0, 3⟩).count + 1) ∧
          { t.quiet with ctl := { t.quiet.ctl with rsp := s.ctl.rsp } } = s.quiet)) ∧
    (∀ bytes, (s.queue q).cfg.hostWrites = true →
      let v := s.queue q
      let first := (ofLe (bytes.take 8)).testBit 19
      let last := (ofLe (bytes.take 8)).testBit 20
      ∃ t, exec (.queueItemWrite q bytes) s = .next t ∧ aget .ctl1 t.ctl.rsp = some (0, []) ∧
        (t.queue q).sequence = (v.sequence + 1) % 2 ^ 32 ∧ (∀ m, m ≠ q → m ≠ 0 → t.queue m = s.queue m) ∧
        { t.quiet with ctl := { t.quiet.ctl with rsp := s.ctl.rsp } } = s.quiet ∧
        (v.items.length ≠ v.capacity → (first = true ∨ v.dropping = none ∧ v.ignoring = false) →
          ∃ i, i.sequence = v.sequence ∧ i.body = padTo 56 (bytes.drop 8) ∧ i.first = first ∧ i.last = last ∧
            i.priority = ofLe (bytes.take 8) / 2 ^ 16 % 8 ∧ i.tag = BitVec.ofNat 16 (ofLe (bytes.take 8)) ∧
            i.pkt = (if first then v.sequence else v.writing.getD v.sequence) ∧
            (t.queue q).items = (if last && !first then
              fillPacketItems i.pkt ((v.sequence + 2 ^ 32 - i.pkt) % 2 ^ 32 + 1) (v.items ++ [i]) else v.items ++ [i])) ∧
        ((first = true ∨ v.dropping = none) → v.items.length = v.capacity ∨ (first = false ∧ v.ignoring = true) →
          (t.queue q).overrun = true ∧ (t.queue q).items.length = v.items.length ∧ t.latched 14 = true) ∧
        (first = false → v.dropping ≠ none → (t.queue q).items = v.items ∧ (t.queue q).overrun = v.overrun)) ∧
    (∀ bytes, (s.queue q).cfg.hostWrites = false →
      ∃ t, exec (.queueItemWrite q bytes) s = .next t ∧ aget .ctl1 t.ctl.rsp = some (2, []) ∧
        (q ≠ 0 → t.queue q = s.queue q) ∧
        { t.quiet with ctl := { t.quiet.ctl with rsp := s.ctl.rsp } } = s.quiet) ∧
    (∃ t, exec (.queueOverrunClear q) s = .next t ∧ t.queue q = { s.queue q with overrun := false } ∧
      (∀ m, m ≠ q → t.queue m = s.queue m) ∧ { t with queues := s.queues, ctl := { t.ctl with rsp := s.ctl.rsp } } = s) ∧
    (∃ t, exec (.queueLatchedAck q) s = .next t ∧
      t.queue q = { s.queue q with latched := false, crossings := 0, peak := (s.queue q).items.length } ∧
      (∀ m, m ≠ q → t.queue m = s.queue m) ∧ { t with queues := s.queues, ctl := { t.ctl with rsp := s.ctl.rsp } } = s)

/-- MBOX_SUBMIT hands over each slot whose bit is 1 and that the port owns, with the acceptance stamp; a slot already handed over
and a slot whose bit is 0 stay as they are (R422); while the firmware serves, a code that is not in the table is answered
CROSSREF at once (R516). -/
def Obligations.MailboxSubmit : Prop :=
  ∀ (s : State) (p : MPort) (bits : Word), ∃ t, exec (.mboxSubmit p bits) s = .next t ∧
    (∀ n, s.served = false ∨ commandCodes.contains (s.slot p n).code = true →
      t.slot p n = if bits.getLsbD n.val && !(s.slot p n).owned then
        { s.slot p n with owned := true, started := false, long := false, accept := s.now, owner0 := s.semOwner 0 }
        else s.slot p n) ∧
    (∀ n, s.served = true → commandCodes.contains (s.slot p n).code = false → bits.getLsbD n.val = true →
      (t.slot p n).owned = false ∧ (∃ bs, bs.length = 256 ∧ bs.getD 2 0#8 = BitVec.ofNat 8 Status.crossref ∧
        (t.slot p n).mem = (s.slot p n).mem.setBytes 0x100 bs)) ∧
    (∀ q n, q ≠ p → s.served = false ∨ commandCodes.contains (s.slot q n).code = true → t.slot q n = s.slot q n) ∧
    { t.apart with ctl := { t.apart.ctl with rsp := s.ctl.rsp } } = s.apart

/-! ### Mailbox commands (R421 to R434, R515 to R518) -/

/-- BOOT_INFO, CAPABILITY_READ, DISTANCE_READ, NOTICE_READ and QUEUE_STATUS answer OK with what they read, and change nothing
else. -/
def Obligations.MailboxReads : Prop :=
  ∀ (s : State) (p : MPort) (n : Fin 32),
    (s.Ready p n 0x0001 0 →
      s.AnswersWith (exec (.bootInfo p n) s) p n Status.ok
        (leBytes 4 versionWord.toNat ++ leBytes 4 s.boot.status.toNat ++ leBytes 4 s.aon.minSecurity.toNat
          ++ leBytes 4 (if s.boot.fwRunning then s.boot.line.toNat else 0) ++ padTo 48 s.aon.keyHash) s) ∧
    (s.Ready p n 0x0302 2 → s.arg p n 0 2 ≤ 376 → s.arg p n 0 2 % 8 = 0 →
      s.AnswersWith (exec (.capabilityRead p n) s) p n Status.ok
        (s.capabilityId ++ leBytes 2 (pageOf s.capabilityMap (s.arg p n 0 2)).length ++ List.replicate 6 0#8
          ++ pageOf s.capabilityMap (s.arg p n 0 2)) s) ∧
    (s.Ready p n 0x0303 4 → s.arg p n 0 4 < distanceBytes → s.arg p n 0 4 % 8 = 0 →
      s.AnswersWith (exec (.distanceRead p n) s) p n Status.ok
        (let page := (List.range (min 27 ((distanceBytes - s.arg p n 0 4) / 8))).flatMap
           (fun i => s.distanceWord (s.arg p n 0 4 + 8 * i))
         s.distanceId ++ leBytes 2 page.length ++ List.replicate 6 0#8 ++ page) s) ∧
    (s.Ready p n 0x0305 2 → 1 ≤ s.arg p n 0 2 → s.arg p n 0 2 ≤ 23 →
      s.AnswersWith (exec (.noticeRead p n) s) p n Status.ok (noticeReadBody s (s.arg p n 0 2)) s) ∧
    (∀ q : QueueId, s.Ready p n 0x0603 2 → s.arg p n 0 2 = q.val →
      s.AnswersWith (exec (.queueStatus p n) s) p n Status.ok
        (leBytes 4 (s.queue q).qstatus.toNat ++ leBytes 4 (s.queue q).qlevel.toNat ++ leBytes 4 (s.queue q).qpeak.toNat) s)

/-- CAST_CONFIG, SYNC_CONFIG, LINK_CONFIG, POWER_CAP and THERMAL_CONFIG store their fields, answer OK, and change nothing else.
PLUMB_MASTER takes and gives back the master role with NTC_PLUMB (R52), HALF_CLOCK stores the operator's set point and forms
the pending one (R484, R506), and RESET_COLD answers and sets the reset 1,600 ticks later (R454). -/
def Obligations.SettingsAndRoles : Prop :=
  (∀ (s : State) (p : MPort) (n : Fin 32),
      (s.Ready p n 0x0122 4 → s.arg p n 0 1 ≤ 1 →
        s.AnswersWith (exec (.castConfig p n) s) p n Status.ok []
          { s with ctl := { s.ctl with castEnable := decide (s.arg p n 0 1 = 1),
                                       castController := BitVec.ofNat 12 (s.arg p n 2 2) } }) ∧
      (s.Ready p n 0x0404 4 →
        s.AnswersWith (exec (.syncConfig p n) s) p n Status.ok []
          { s with ctl := { s.ctl with noticeFlag := BitVec.ofNat 16 (s.arg p n 0 2),
                                       castBarrier := BitVec.ofNat 16 (s.arg p n 2 2) } }) ∧
      (∀ k : LinkId, s.Ready p n 0x0402 4 → s.arg p n 0 1 = k.val →
        s.AnswersWith (exec (.linkConfig p n) s) p n Status.ok []
          (s.setLink k { s.link k with skew16 := (BitVec.ofNat 16 (s.arg p n 2 2)).toInt })) ∧
      (s.Ready p n 0x0502 2 → 80 ≤ s.arg p n 0 2 → s.arg p n 0 2 ≤ 240 →
        s.AnswersWith (exec (.powerCap p n) s) p n Status.ok []
          { s with power := { s.power with cap := 10 * s.arg p n 0 2 } }) ∧
      (s.Ready p n 0x0503 2 → 85 ≤ s.arg p n 0 1 → s.arg p n 0 1 ≤ 110 → s.arg p n 1 1 + 5 ≤ s.arg p n 0 1 →
        s.AnswersWith (exec (.thermalConfig p n) s) p n Status.ok []
          { s with power := { s.power with emergencyC := s.arg p n 0 1, releaseC := s.arg p n 1 1 } })) ∧
  (∀ (s : State) (p : MPort) (n : Fin 32),
      (s.Ready p n 0x0403 1 → s.arg p n 0 1 = 1 → s.aon.master = false →
        s.AnswersWith (exec (.plumbMaster p n) s) p n Status.ok []
          (({ s with aon := { s.aon with master := true, rateTrim := 0#8, maxOffset := 0#8, syncLink := 0xFF#8, depth := 0,
                                         masterNode := s.aon.node, lower := none, sync := .locked } }).raise 1
            (leBytes 1 (syncCode s.aon.sync) ++ leBytes 1 1 ++ leInt 4 (clampSigned 32 s.aon.lastOffset) ++ leBytes 1 1))) ∧
      (s.Ready p n 0x0403 1 → s.arg p n 0 1 = 0 → s.aon.master = true → s.aon.masterStrap = false →
        s.AnswersWith (exec (.plumbMaster p n) s) p n Status.ok []
          (({ s with aon := { s.aon with master := false, lastSync := s.now, beyond := 0, within := 0, sync := .locked } }).raise 1
            (leBytes 1 (syncCode s.aon.sync) ++ leBytes 1 1 ++ leInt 4 (clampSigned 32 s.aon.lastOffset) ++ leBytes 1 0))) ∧
      (∀ h : HalfId, s.Ready p n 0x0501 4 → s.arg p n 0 1 = halfCode h → legalClock (s.arg p n 2 2) → s.cast.armed = none →
        ∃ t b, exec (.halfClock p n) s = .next t ∧ s.Answered t p n Status.ok b ∧
          (t.power.half h).opSet = s.arg p n 2 2 ∧
          (t.power.half h).point = min (s.arg p n 2 2) (s.power.half h).throttle ∧
          (t.power.half h).setPoint = (s.power.half h).setPoint ∧ (t.power.half h).run = (s.power.half h).run) ∧
      (s.Ready p n 0x0701 4 → s.arg p n 0 4 = 0x54455352 →
        ∃ t, exec (.resetCold p n) s = .next t ∧ s.Answered t p n Status.ok [] ∧
          t.aon = { s.aon with resetColdAt := some (s.aon.resetColdAt.getD (s.now + 1600)) } ∧
          { t.apart with aon := s.aon } = s.apart))

/-- FW_WRITE, FW_START and its end load the firmware through the boot ROM (R430, R432): the image is kept, checked and started, or
rejected with its status. -/
def Obligations.Firmware : Prop :=
  ∀ (s : State) (p : MPort) (n : Fin 32),
    (s.Ready p n 0x0002 8 → s.boot.fwRunning = false → 1 ≤ s.arg p n 4 2 → s.arg p n 4 2 ≤ 224 →
      8 + s.arg p n 4 2 ≤ (s.slot p n).bodyLen → s.arg p n 0 4 + s.arg p n 4 2 ≤ 256 + 3145728 →
      s.AnswersWith (exec (.fwWrite p n) s) p n Status.ok []
        { s with boot := { s.boot with
            fwLoading := true
            image := s.boot.image ++ [(s.arg p n 0 4, (((s.slot p n).body.drop 8).take (s.arg p n 4 2)))] } }) ∧
    (s.Ready p n 0x0003 0 → s.boot.fwRunning = false → s.longWaits < 48 →
      fwCheck s.boot s.aon.keyHash s.aon.minSecurity = none →
      ∃ t, exec (.fwStart p n) s = .next t ∧ t.boot = { s.boot with starting := some (p, n) } ∧
        (t.slot p n).owned = true ∧ (t.slot p n).started = true ∧ (t.slot p n).mem = (s.slot p n).mem ∧
        (∀ q m, (q, m) ≠ (p, n) → t.slot q m = s.slot q m) ∧
        { t with boot := s.boot, ctl := { t.ctl with mbox := s.ctl.mbox } } = s) ∧
    (∀ st, s.Ready p n 0x0003 0 → s.boot.fwRunning = false → s.longWaits < 48 →
      fwCheck s.boot s.aon.keyHash s.aon.minSecurity = some st →
      s.AnswersWith (exec (.fwStart p n) s) p n st []
        { s with boot := { s.boot with image := [], fwLoading := false, fwFailed := true, lastError := BitVec.ofNat 8 st } }) ∧
    (s.boot.starting = some (p, n) →
      let line := BitVec.ofNat 32 (field ((writtenBytes s.boot.image 256).getD []) 8 4)
      s.AnswersWith (exec .fwStartComplete s) p n Status.ok (leBytes 4 line.toNat)
        { s with boot := { s.boot with starting := none, fwRunning := true, fwLoading := false, line := line, image := [] } })

/-- The operator keys (R434): KEY_LOAD writes a 96-byte key to a position 0 to 7; KEY_LOCK locks them until the next cold reset,
and a locked KEY_LOAD answers NOT_OWNER; while they are unlocked a staging fails its signature check. -/
def Obligations.OperatorKeys : Prop :=
  ∀ (s : State) (p : MPort) (n : Fin 32),
    (s.Ready p n 0x0101 112 → s.boot.keysLocked = false → s.arg p n 0 1 ≤ 7 →
      s.AnswersWith (exec (.keyLoad p n) s) p n Status.ok []
        { s with boot := { s.boot with keys := aset (s.arg p n 0 1) (((s.slot p n).body.drop 16).take 96) s.boot.keys } }) ∧
    (s.Ready p n 0x0102 0 → s.boot.keysLocked = false →
      s.AnswersWith (exec (.keyLock p n) s) p n Status.ok [] { s with boot := { s.boot with keysLocked := true } }) ∧
    (s.Ready p n 0x0101 112 → s.boot.keysLocked = true →
      s.AnswersWith (exec (.keyLoad p n) s) p n Status.notOwner [] s) ∧
    (∀ c t, s.boot.keysLocked = true → c ≠ .coldResetAssert → c ≠ .resetColdStart → (∀ r, c ≠ .powerGoodLoss r) →
      exec c s = .next t → t.boot.keysLocked = true ∧ t.boot.keys = s.boot.keys) ∧
    (∀ m w, s.boot.keysLocked = false → s.cast.writing = some w → s.cast.staging = some (p, n) → s.cast.windowEnd = none →
      ∃ t b, exec (.bundleStageComplete m) s = .next t ∧ s.Answered t p n Status.badSignature b ∧ t.cast.staged = s.cast.staged)

/-- BUNDLE_BEGIN, BUNDLE_WRITE, BUNDLE_STAGE's start and BUNDLE_DISCARD (R438, R439, R518): the bundle is reserved, written,
handed to staging, dropped, or the command is refused with its status; nothing else changes. BUNDLE_STAGE's checks end: a failing
one rejects the maquette whole with its status, and with none failing the maquette is staged with its tables (R439 to R441); a
cast window under way is waited for (R449). -/
def Obligations.BundleAndStaging : Prop :=
  (∀ (s : State) (p : MPort) (n : Fin 32),
      (s.Ready p n 0x0110 16 →
        (s.cast.staged.isSome = true ∨ s.cast.writing.isSome = true →
          s.AnswersWith (exec (.bundleBegin p n) s) p n Status.busy [] s) ∧
        (∀ r, s.cast.staged = none → s.cast.writing = none → s.cast.retained = some r → s.cast.windowEnd = none →
          s.AnswersWith (exec (.bundleBegin p n) s) p n Status.busy (leBytes 4 (s.heldStreams r)) s) ∧
        (s.cast.staged = none → s.cast.writing = none → (s.cast.retained = none ∨ s.cast.windowEnd.isSome = true) →
          (s.regionFree < s.arg p n 0 8 →
            s.AnswersWith (exec (.bundleBegin p n) s) p n Status.doesNotFit
              (leBytes 8 s.regionFree ++ leBytes 8 (s.arg p n 0 8 - s.regionFree)) s) ∧
          (s.arg p n 0 8 ≤ s.regionFree →
            s.AnswersWith (exec (.bundleBegin p n) s) p n Status.ok (leBytes 8 s.regionFree ++ leBytes 8 0)
              { s with cast := { s.cast with
                  writing := some { policyId := BitVec.ofNat 64 (s.arg p n 8 8), totalBytes := s.arg p n 0 8, port := p,
                                    chunks := [] } } }))) ∧
      (s.Ready p n 0x0111 16 →
        (s.cast.writing = none → s.AnswersWith (exec (.bundleWrite p n) s) p n Status.crossref [] s) ∧
        (∀ w, s.cast.writing = some w →
          let fits := 1 ≤ s.arg p n 8 2 ∧ s.arg p n 8 2 ≤ 224 ∧ 16 + s.arg p n 8 2 ≤ (s.slot p n).bodyLen ∧
            s.arg p n 0 8 + s.arg p n 8 2 ≤ w.totalBytes
          (w.port ≠ p → s.AnswersWith (exec (.bundleWrite p n) s) p n Status.notOwner [] s) ∧
          (w.port = p → ¬ fits → s.AnswersWith (exec (.bundleWrite p n) s) p n Status.crossref [] s) ∧
          (w.port = p → fits →
            s.AnswersWith (exec (.bundleWrite p n) s) p n Status.ok []
              { s with cast := { s.cast with
                  writing := some { w with chunks := w.chunks ++
                    [(s.arg p n 0 8, ((s.slot p n).body.drop 16).take (s.arg p n 8 2))] } } }))) ∧
      (∀ w, s.Ready p n 0x0112 0 → s.cast.writing = some w → s.longWaits < 48 →
        ∃ t, exec (.bundleStage p n) s = .next t ∧ t.cast = { s.cast with staging := some (p, n) } ∧
          (t.slot p n).owned = true ∧ (t.slot p n).started = true ∧ (t.slot p n).mem = (s.slot p n).mem ∧
          (∀ q m, (q, m) ≠ (p, n) → t.slot q m = s.slot q m) ∧
          { t with cast := s.cast, ctl := { t.ctl with mbox := s.ctl.mbox } } = s) ∧
      (s.Ready p n 0x0112 0 → s.cast.writing = none → s.cast.staged.isSome = true →
        s.AnswersWith (exec (.bundleStage p n) s) p n Status.alreadyDone s.cast.stagedBody s) ∧
      (s.Ready p n 0x0112 0 → s.cast.writing = none → s.cast.staged = none →
        s.AnswersWith (exec (.bundleStage p n) s) p n Status.crossref (s.stageBody 2 0xFFFF false {} 0) s) ∧
      (s.Ready p n 0x0113 0 → s.cast.staged = none → s.cast.writing = none →
        s.AnswersWith (exec (.bundleDiscard p n) s) p n Status.alreadyDone [] s) ∧
      (s.Ready p n 0x0113 0 → (s.cast.staged.isSome = true ∨ s.cast.writing.isSome = true) → s.cast.armed.isSome = true →
        s.AnswersWith (exec (.bundleDiscard p n) s) p n Status.busy [] s) ∧
      (∀ w, s.Ready p n 0x0113 0 → s.cast.staged = none → s.cast.writing = some w → s.cast.armed = none →
        s.AnswersWith (exec (.bundleDiscard p n) s) p n Status.ok [] { s with cast := { s.cast with writing := none } }) ∧
      (∀ m, s.Ready p n 0x0113 0 → s.cast.staged = some m → s.cast.armed = none →
        ∃ t b, exec (.bundleDiscard p n) s = .next t ∧ s.Answered t p n Status.ok b ∧ t.cast.staged = none ∧
          t.cast.writing = none ∧ t.cast.active = s.cast.active ∧ t.cast.retained = s.cast.retained ∧
          { t.apart with cast := s.cast, grid := s.grid, eng := s.eng } = s.apart)) ∧
  (∀ (s : State) (m : SectionMap), s.cast.windowEnd.isSome = true → exec (.bundleStageComplete m) s = .next s) ∧
  (∀ (s : State) (m : SectionMap) (w : Writing) (p : MPort) (n : Fin 32),
      s.cast.writing = some w → s.cast.staging = some (p, n) → s.cast.windowEnd = none →
      let all := (s.bundleBytes w).2
      let b := (s.bundleBytes w).1
      let e : State := if all then s else { s with freeUse := s.freeUse + w.totalBytes }
      let t := assemble s.cast.active b m
      let records := sectionRecords s.cast.active b m t
      let fit := e.checkFit (directory b) t (sharedBytes s.cast.active b)
      let rejects := fun (check : Nat) =>
        ∃ u body, exec (.bundleStageComplete m) s = .next u ∧ s.Answered u p n (checkStatus check) body ∧
          u.cast = { s.cast with writing := none, staging := none } ∧ { u.apart with cast := s.cast } = e.apart
      (∀ f, e.checkBundle w b all m t = some f → rejects f.1) ∧
      (∀ f, e.checkBundle w b all m t = none → fit.failing = some f → rejects f.1) ∧
      (e.checkBundle w b all m t = none → fit.failing = none → e.latencyProven t records = false → rejects 5) ∧
      (e.checkBundle w b all m t = none → fit.failing = none → e.latencyProven t records = true →
        ∃ u body q, exec (.bundleStageComplete m) s = .next u ∧ s.Answered u p n Status.ok body ∧ u.cast.staged = some q ∧
          q.tables = t ∧ q.sections = records ∧ q.cellSlot = !((s.cast.active.map (fun a => a.cellSlot)).getD true) ∧
          u.cast.writing = none ∧ u.cast.staging = none ∧ u.cast.active = s.cast.active ∧
          { u.apart with cast := s.cast, grid := s.grid, eng := s.eng, rel := s.rel } = e.apart))

/-- Arming (R443, R449): a repeat of the active policy is ALREADY_DONE (log 48), the UNLOCKED state DEGRADED, an armed cast BUSY;
no staged maquette of the name, an instant outside its range, or an epoch that is not newer is CROSSREF; a live stream that a
cast window excludes is BUSY; else the cast is armed. Disarming: nothing armed is ALREADY_DONE, another policy CROSSREF, less than
4,096 ticks before the instant TIMEOUT; else nothing is armed. CAST_ARM and CAST_DISARM answer so, and change nothing else. A
CAST message of the enabled controller does so by its `op`, and is replied to; a reply goes to the host; any other message is
counted and changes nothing (R446). -/
def Obligations.CastCommandsAndMessages : Prop :=
  (∀ (s : State) (id : DWord) (epoch instant accept : Nat),
      let r := s.armCast id epoch instant accept
      let active := ∃ a, s.cast.active = some a ∧ a.tables.latency.policyId = id ∧ a.epoch = epoch
      let newer := (epoch + 2 ^ 32 - s.cast.epoch % 2 ^ 32) % 2 ^ 32
      let good := fun (m : Policy) => m.tables.latency.policyId = id ∧ accept + 65536 ≤ instant ∧ instant ≤ accept + 1600000000 ∧
        1 ≤ newer ∧ newer ≤ 2 ^ 31 - 1
      let blocked := fun (m : Policy) => m.windowed = true ∧ ∃ x ∈ s.streams.table, x.2.state ≠ .closed ∧
        (x.2.pinned = true ∨ m.role (roleOf x.2.req.egress) = false)
      (active → r = (Status.alreadyDone, s)) ∧
      (¬ active → s.aon.sync = .unlocked → r = (Status.degraded, s)) ∧
      (¬ active → s.aon.sync ≠ .unlocked → s.cast.armed.isSome = true → r = (Status.busy, s)) ∧
      (¬ active → s.aon.sync ≠ .unlocked → s.cast.armed = none → (∀ m, s.cast.staged = some m → ¬ good m) →
        r = (Status.crossref, s)) ∧
      (∀ m, ¬ active → s.aon.sync ≠ .unlocked → s.cast.armed = none → s.cast.staged = some m → good m → blocked m →
        r = (Status.busy, s)) ∧
      (∀ m, ¬ active → s.aon.sync ≠ .unlocked → s.cast.armed = none → s.cast.staged = some m → good m → ¬ blocked m →
        r = (Status.ok, { s with cast := { s.cast with armed := some ⟨instant, epoch, id⟩ } }))) ∧
  (∀ (s : State) (id : DWord) (accept : Nat),
      let r := s.disarmCast id accept
      (s.cast.armed = none → r = (Status.alreadyDone, s)) ∧
      (∀ a, s.cast.armed = some a → a.policyId ≠ id → r = (Status.crossref, s)) ∧
      (∀ a, s.cast.armed = some a → a.policyId = id → a.instant < accept + 4096 → r = (Status.timeout, s)) ∧
      (∀ a, s.cast.armed = some a → a.policyId = id → accept + 4096 ≤ a.instant →
        r = (Status.ok, { s with cast := { s.cast with armed := none } }))) ∧
  (∀ (s : State) (p : MPort) (n : Fin 32),
      let id : DWord := BitVec.ofNat 64 (s.arg p n 0 8)
      (s.Ready p n 0x0120 24 →
        let r := s.armCast id (s.arg p n 16 4) (s.arg p n 8 8) (s.slot p n).accept
        s.AnswersWith (exec (.castArm p n) s) p n r.1 [] r.2) ∧
      (s.Ready p n 0x0121 8 →
        let r := s.disarmCast id (s.slot p n).accept
        s.AnswersWith (exec (.castDisarm p n) s) p n r.1 [] r.2)) ∧
  (∀ (s u : State) (a : Arrival), s.takeInbox (fun x => decide (x.pkt.hdr.port = 0xC5#8)) = some (a, u) →
      let op := field a.pkt.payload 0 1
      let id : DWord := BitVec.ofNat 64 (field a.pkt.payload 8 8)
      let r := if op = 1 then u.armCast id (field a.pkt.payload 4 4) (field a.pkt.payload 16 8) a.stamp
        else if op = 2 then u.disarmCast id a.stamp else (Status.crossref, u)
      (op = 3 → exec .castMessage s
        = .next (u.offerBulk 0 { a.pkt with hdr := { a.pkt.hdr with dest := s.aon.node, multicast := false } } a.toBulk)) ∧
      (op ≠ 3 → (u.ctl.castEnable = false ∨ a.pkt.hdr.source ≠ u.ctl.castController) →
        exec .castMessage s = .next (u.count1 0x11 0 13)) ∧
      (op ≠ 3 → u.ctl.castEnable = true → a.pkt.hdr.source = u.ctl.castController →
        exec .castMessage s = .next (r.2.sendRouted (nodeField a.pkt.payload 2) 0xC5#8 0#48
          (padTo 64 (leBytes 1 3 ++ leBytes 1 r.1 ++ (a.pkt.payload.drop 2).take 22)))))

/-- QUEUE_READ, QUEUE_WRITE and QUEUE_CONTROL act on the queue they name as its registers do (R408 to R415, R517, R518). -/
def Obligations.QueueCommands : Prop :=
  ∀ (s : State) (p : MPort) (n : Fin 32) (q : QueueId), s.arg p n 0 2 = q.val →
    (s.Ready p n 0x0601 2 →
      s.AnswersWith (exec (.queueRead p n) s) p n Status.ok (s.queue q).read.1.bytes (s.takeItem q).2) ∧
    (s.Ready p n 0x0602 80 → (s.queue q).cfg.hostWrites = true →
      s.AnswersWith (exec (.queueWrite p n) s) p n Status.ok [] (s.hostOffer q (((s.slot p n).body.drop 16).take 64))) ∧
    (s.Ready p n 0x0604 8 → s.arg p n 2 1 = 1 → s.arg p n 4 4 < 2 ^ 24 →
      s.AnswersWith (exec (.queueControl p n) s) p n Status.ok []
        (s.setQueue q { s.queue q with cfg := { (s.queue q).cfg with level := s.arg p n 4 4 } })) ∧
    (s.Ready p n 0x0604 8 → s.arg p n 2 1 = 2 →
      s.AnswersWith (exec (.queueControl p n) s) p n Status.ok []
        (s.setQueue q { s.queue q with latched := false, crossings := 0, peak := (s.queue q).items.length })) ∧
    (s.Ready p n 0x0604 8 → s.arg p n 2 1 = 3 →
      s.AnswersWith (exec (.queueControl p n) s) p n Status.ok [] (s.setQueue q { s.queue q with overrun := false })) ∧
    (s.Ready p n 0x0604 8 → s.arg p n 2 1 = 4 →
      s.AnswersWith (exec (.queueControl p n) s) p n Status.ok [] (s.dropPacket q))

/-- The stream commands wait, started and unanswered, for the boundary 1,024 ticks after acceptance, in the order of R423; a stale
handle answers ALREADY_DONE at once (R60), and an abort of one is counted. STREAM_QUERY, SNAPSHOT and TELEMETRY_READ wait for the
snapshot of that tick (R80, R86, R87, R515). The fabric, budget and reset commands wait, started and unanswered, for the boundary
1,024 ticks after acceptance (R376, R451, R458, R459, R460, R465, R495, R515, R518). A body out of range, a reset that is not
confirmed, and a counter group that does not exist answer at once, and change nothing; so does a command that would be the 49th
to wait long, with BUSY (R516). -/
def Obligations.CommandsThatWait : Prop :=
  (∀ (s : State) (p : MPort) (n : Fin 32),
      let fits := 1 ≤ s.arg p n 8 2 ∧ s.arg p n 8 2 ≤ 28 ∧ 16 + 8 * s.arg p n 8 2 ≤ (s.slot p n).bodyLen
      let asks := s.arg p n 8 2 % 8 = 0 ∧ s.arg p n 8 2 < 0x6000 ∧ 8 ≤ s.arg p n 10 2 ∧ s.arg p n 10 2 ≤ 200 ∧
        (s.arg p n 12 2 = 0xFFFF ∨ s.arg p n 12 2 ≤ 511)
      (∀ x, s.streamOf (s.arg p n 0 8) = some x →
        (s.Ready p n 0x0202 48 → s.WaitsUntil (exec (.streamSet p n) s) p n (s.boundaryWait p n 0x0202)) ∧
        (s.Ready p n 0x0203 8 → s.WaitsUntil (exec (.streamClose p n) s) p n (s.boundaryWait p n 0x0203)) ∧
        (s.Ready p n 0x0205 16 → fits → s.WaitsUntil (exec (.streamFeatures p n) s) p n (s.boundaryWait p n 0x0205)) ∧
        (s.Ready p n 0x0206 8 → s.WaitsUntil (exec (.streamAbort p n) s) p n (s.boundaryWait p n 0x0206)) ∧
        (s.Ready p n 0x0204 14 → asks → s.WaitsUntil (exec (.streamQuery p n) s) p n (s.snapshotWait p n 0x0204))) ∧
      (s.streamOf (s.arg p n 0 8) = none →
        (s.Ready p n 0x0202 48 → s.AnswersWith (exec (.streamSet p n) s) p n Status.alreadyDone [] s) ∧
        (s.Ready p n 0x0203 8 → s.AnswersWith (exec (.streamClose p n) s) p n Status.alreadyDone [] s) ∧
        (s.Ready p n 0x0205 16 → fits → s.AnswersWith (exec (.streamFeatures p n) s) p n Status.alreadyDone [] s) ∧
        (s.Ready p n 0x0206 8 →
          s.AnswersWith (exec (.streamAbort p n) s) p n Status.alreadyDone [] (s.countN 0x12 0 4 1)) ∧
        (s.Ready p n 0x0204 14 → asks → s.AnswersWith (exec (.streamQuery p n) s) p n Status.alreadyDone [] s)) ∧
      (s.Ready p n 0x0205 16 → ¬ fits → s.AnswersWith (exec (.streamFeatures p n) s) p n Status.crossref [] s) ∧
      (s.Ready p n 0x0204 14 → ¬ asks → s.AnswersWith (exec (.streamQuery p n) s) p n Status.crossref [] s) ∧
      (s.Ready p n 0x0301 18 →
        let bad := fieldBit (s.slot p n).body 6 2 0 = true ∧ (s.arg p n 0 2 = 0x15 ∨ s.arg p n 0 2 = 0x16)
        (bad → s.AnswersWith (exec (.snapshot p n) s) p n Status.crossref [] s) ∧
        (∀ e, ¬ bad → s.groupValues (s.arg p n 0 2) (s.arg p n 2 2) (s.arg p n 8 8) = .error e →
          s.AnswersWith (exec (.snapshot p n) s) p n e [] s) ∧
        (∀ v, ¬ bad → s.groupValues (s.arg p n 0 2) (s.arg p n 2 2) (s.arg p n 8 8) = .ok v →
          s.WaitsUntil (exec (.snapshot p n) s) p n (s.snapshotWait p n 0x0301))) ∧
      (s.Ready p n 0x0304 0 → s.WaitsUntil (exec (.telemetryRead p n) s) p n (s.snapshotWait p n 0x0304))) ∧
  (∀ (s : State) (p : MPort) (n : Fin 32),
      (s.Ready p n 0x0401 3 →
        let good := s.arg p n 0 2 < 4096 ∧ (s.arg p n 2 1 = 1 ∨ s.arg p n 2 1 = 2)
        (good → s.WaitsUntil (exec (.nodeFence p n) s) p n (s.boundaryWait p n 0x0401)) ∧
        (¬ good → s.AnswersWith (exec (.nodeFence p n) s) p n Status.crossref [] s)) ∧
      (s.Ready p n 0x0405 16 →
        (∀ e, groupOfBody (s.slot p n).body (s.slot p n).bodyLen = some e →
          s.WaitsUntil (exec (.groupAlloc p n) s) p n (s.boundaryWait p n 0x0405)) ∧
        (groupOfBody (s.slot p n).body (s.slot p n).bodyLen = none →
          s.AnswersWith (exec (.groupAlloc p n) s) p n Status.crossref [] s)) ∧
      (s.Ready p n 0x0406 2 →
        (s.arg p n 0 2 < 4096 → s.WaitsUntil (exec (.groupFree p n) s) p n (s.boundaryWait p n 0x0406)) ∧
        (4096 ≤ s.arg p n 0 2 → s.AnswersWith (exec (.groupFree p n) s) p n Status.crossref [] s)) ∧
      (s.Ready p n 0x0504 16 →
        let good := 1 ≤ s.arg p n 2 1 ∧ s.arg p n 2 1 ≤ 3
        (good → s.WaitsUntil (exec (.tenantBudget p n) s) p n (s.boundaryWait p n 0x0504)) ∧
        (¬ good → s.AnswersWith (exec (.tenantBudget p n) s) p n Status.crossref [] s)) ∧
      (s.Ready p n 0x0702 4 →
        (s.arg p n 0 4 = 0x54455352 → s.WaitsUntil (exec (.resetPlane p n) s) p n (s.boundaryWait p n 0x0702)) ∧
        (s.arg p n 0 4 ≠ 0x54455352 → s.AnswersWith (exec (.resetPlane p n) s) p n Status.crossref [] s)) ∧
      (s.Ready p n 0x0704 0 → s.WaitsUntil (exec (.planeRestore p n) s) p n (s.boundaryWait p n 0x0704)) ∧
      (s.Ready p n 0x0703 4 →
        (s.arg p n 0 4 = 0x54455352 → s.longWaits < 48 →
          s.WaitsUntil (exec (.resetFunction p n) s) p n (s.boundaryWait p n 0x0703)) ∧
        (s.arg p n 0 4 = 0x54455352 → 48 ≤ s.longWaits →
          s.AnswersWith (exec (.resetFunction p n) s) p n Status.busy [] s) ∧
        (s.arg p n 0 4 ≠ 0x54455352 → s.AnswersWith (exec (.resetFunction p n) s) p n Status.crossref [] s)) ∧
      (s.Ready p n 0x0705 4 →
        let good := s.arg p n 0 1 ≤ 6 ∧ s.arg p n 1 1 ≤ 1 ∧ (s.arg p n 0 1 = 0 → s.arg p n 2 1 ≤ 7 ∨ s.arg p n 2 1 = 0xFF)
        (good → s.longWaits < 48 → s.WaitsUntil (exec (.engineAbort p n) s) p n (s.boundaryWait p n 0x0705)) ∧
        (good → 48 ≤ s.longWaits → s.AnswersWith (exec (.engineAbort p n) s) p n Status.busy [] s) ∧
        (¬ good → s.AnswersWith (exec (.engineAbort p n) s) p n Status.crossref [] s)))

/-! ### Boundaries of commands, casts and resets (R80, R86, R87, R376, R444 to R467, R518) -/

/-- A stream command at its boundary, with nothing of the stream before it (R80); one whose handle is stale by then, or a SET or CLOSE
of a stream that is past LIVE and HOLDING for good, answers ALREADY_DONE and changes nothing. STREAM_SET sets the masked fields,
changes nothing else of the stream but what every boundary commits (R78), and drains an egress stream with stop reason 3 when the
new limit is reached; it answers OK with its tick (R518). STREAM_CLOSE ends appending: the stream drains with stop reason 4, keeps
what is in flight, an ingress stream's unread bytes go, and it answers OK with its tick (R73, R121). STREAM_ABORT closes the
stream, what is in flight is discarded, and the CLOSE event's body is the answer; a closed stream is answered with that body again
(R462, R463, R466). A host feature record is applied whole, to the accumulators and to what later commits write, when every
entry names a host word, and otherwise rejected whole (R191). -/
def Obligations.StreamBoundaries : Prop :=
  (∀ (s : State) w code c, (code = 0x0202 ∧ c = Instr.streamSetBoundary ∨ code = 0x0203 ∧ c = Instr.streamCloseBoundary ∨
        code = 0x0206 ∧ c = Instr.streamAbortBoundary ∨ code = 0x0205 ∧ c = Instr.hostFeatureBoundary) →
      s.dueWaiting code = some w → s.streamOf (field w.body 0 8) = none →
      ∃ t, exec c s = .next t ∧ s.Finished t w Status.alreadyDone [] ∧ t.besides = s.besides) ∧
  (∀ (s : State) w k st, s.dueWaiting 0x0202 = some w → s.streamOf (field w.body 0 8) = some (k, st) → s.BoundaryClear st w.due →
      let m := field w.body 8 2
      let limit := field w.body 44 4
      let reached := st.req.egress = true ∧ m.testBit 6 = true ∧ limit ≠ 0 ∧ limit ≤ st.nextIndex
      (st.gone = false →
        ∃ t x, exec .streamSetBoundary s = .next t ∧ s.DoneOn t w k x Status.ok (leBytes 8 w.due) ∧ x.boundary = s.now ∧
          x.sampling.temperature = (if m.testBit 0 then BitVec.ofNat 32 (field w.body 16 4) else st.sampling.temperature) ∧
          x.sampling.topK = (if m.testBit 1 then field w.body 20 4 else st.sampling.topK) ∧
          x.sampling.topP = (if m.testBit 2 then BitVec.ofNat 32 (field w.body 24 4) else st.sampling.topP) ∧
          x.sampling.minP = (if m.testBit 3 then BitVec.ofNat 32 (field w.body 28 4) else st.sampling.minP) ∧
          x.sampling.seed = (if m.testBit 4 then BitVec.ofNat 64 (field w.body 32 8) else st.sampling.seed) ∧
          x.replyNode = (if m.testBit 5 then nodeField w.body 40 else st.replyNode) ∧
          x.replyPort = (if m.testBit 5 then byteField w.body 42 else st.replyPort) ∧
          x.maxTokens = (if m.testBit 6 then limit else st.maxTokens) ∧
          (¬ reached →
            { x.bare with sampling := st.sampling, replyNode := st.replyNode, replyPort := st.replyPort, maxTokens := st.maxTokens } =
              st.bare) ∧
          (reached → st.running = true → x.stopReason = 3 ∧ x.running = false ∧
            (st.tokens ≠ [] → x.state = .draining ∧ x.tokens = st.tokens))) ∧
      (st.gone = true →
        ∃ t, exec .streamSetBoundary s = .next t ∧ s.Finished t w Status.alreadyDone [] ∧ t.besides = s.besides)) ∧
  (∀ (s : State) w k st, s.dueWaiting 0x0203 = some w → s.streamOf (field w.body 0 8) = some (k, st) → s.BoundaryClear st w.due →
      (st.running = true →
        ∃ t x, exec .streamCloseBoundary s = .next t ∧ s.DoneOn t w k x Status.ok (leBytes 8 w.due) ∧ x.running = false ∧
          x.stopReason = 4 ∧
          (st.req.egress = true → st.tokens ≠ [] → x.state = .draining ∧ x.tokens = st.tokens) ∧
          (st.req.egress = false → x.inp.unread = [] ∧ x.inp.segmentOpen = false ∧ x.inp.chunks = st.inp.chunks ∧
            (st.idle = false → x.state = .draining) ∧ (st.idle = true → x.state = .closed))) ∧
      (st.gone = true →
        ∃ t, exec .streamCloseBoundary s = .next t ∧ s.Finished t w Status.alreadyDone [] ∧ t.besides = s.besides)) ∧
  (∀ (s : State) w k st, s.dueWaiting 0x0206 = some w → s.streamOf (field w.body 0 8) = some (k, st) → s.BoundaryClear st w.due →
      (st.state ≠ .closed → st.state ≠ .free →
        ∃ t x, exec .streamAbortBoundary s = .next t ∧
          s.DoneOn t w k x (if st.state = .halted then Status.alreadyDone else Status.ok) (x.closeBody s.aon.node) ∧
          x.state = .closed ∧ x.tokens = [] ∧ x.inp.verdicts = [] ∧ x.inp.unread = [] ∧ (∀ c ∈ x.inp.chunks, c.void = true) ∧
          x.closedAt = s.now ∧ x.stopReason = (if st.stopReason = 0 ∧ st.state ≠ .halted then 12 else st.stopReason)) ∧
      (st.state = .closed →
        ∃ t, exec .streamAbortBoundary s = .next t ∧ s.Finished t w Status.alreadyDone (st.closeBody s.aon.node) ∧
          t.besides = s.besides)) ∧
  (∀ (s : State) w k st, s.dueWaiting 0x0205 = some w → s.streamOf (field w.body 0 8) = some (k, st) → s.BoundaryClear st w.due →
      (s.admissions k st).any (fun a => decide (a.tick < w.due)) = false →
      let host : BitVec 256 := (((s.policyOf st).bind (fun p => p.tables.armature)).map (fun t => t.hostWords)).getD 0#256
      let es := featureEntries w.body
      let set := fun (acc : List (Nat × Word)) => es.foldl (fun a e => aset e.1 e.2 a) acc
      (st.ended = false → (∀ e ∈ es, e.1 < 240 ∧ host.getLsbD e.1 = true) →
        ∃ t x, exec .hostFeatureBoundary s = .next t ∧ s.DoneOn t w k x Status.ok (leBytes 8 w.due) ∧
          x.acc = set st.acc ∧ x.workAcc = set st.workAcc ∧
          x.tokens = st.tokens.map (fun (y : Token) => { y with armAcc := setWrites es y.armAcc }) ∧
          x.inp.chunks = st.inp.chunks.map (fun (y : Chunk) => { y with armAcc := setWrites es y.armAcc }) ∧
          { x.bare with acc := st.acc, workAcc := st.workAcc, tokens := st.tokens,
                        inp := { x.bare.inp with chunks := st.inp.chunks } } = st.bare) ∧
      (st.ended = false → (∃ e ∈ es, ¬ (e.1 < 240 ∧ host.getLsbD e.1 = true)) →
        ∃ t x, exec .hostFeatureBoundary s = .next t ∧ s.DoneOn t w k x Status.crossref [] ∧ x.bare = st.bare) ∧
      (st.ended = true →
        ∃ t, exec .hostFeatureBoundary s = .next t ∧ s.Finished t w Status.alreadyDone [] ∧ t.besides = s.besides))

/-- The fabric and budget boundaries, each answered with its tick: a fence stands or falls, and one that stands or falls already
answers ALREADY_DONE, and each branch unfenced gives its next copy `gap` (R376); the lowest free group is allocated, or the answer is GROUP_FULL, and a group is freed (R518); a
tenant's budget is set, raised or disarmed after the tenant's commits up to its tick (R495). -/
def Obligations.GateBoundaries : Prop :=
  ∀ (s : State) (w : Waiting),
    (s.dueWaiting 0x0401 = some w →
      let node := nodeField w.body 0
      let stands := s.plane.fences.contains node
      (stands = false → field w.body 2 1 = 1 →
        ∃ t, exec .nodeFenceCommit s = .next t ∧ s.Finished t w Status.ok (leBytes 8 w.due) ∧
          t.plane.fences = s.plane.fences ++ [node] ∧ t.besides = s.besides) ∧
      (stands = true → field w.body 2 1 ≠ 1 →
        ∃ t, exec .nodeFenceCommit s = .next t ∧ s.Finished t w Status.ok (leBytes 8 w.due) ∧
          t.plane = { s.plane with fences := s.plane.fences.filter (fun n => n ≠ node), gapBranch := t.plane.gapBranch } ∧
          (∀ g e b, (g, e) ∈ s.plane.groups → b ∈ e.branches → s.leadsTo b.out node = true → (g, b.out) ∈ t.plane.gapBranch) ∧
          (∀ x ∈ s.plane.gapBranch, x ∈ t.plane.gapBranch) ∧
          (∀ x ∈ t.plane.gapBranch, x ∈ s.plane.gapBranch ∨ s.leadsTo x.2 node = true) ∧ t.besides = s.besides) ∧
      ((stands = true ↔ field w.body 2 1 = 1) →
        ∃ t, exec .nodeFenceCommit s = .next t ∧ s.Finished t w Status.alreadyDone (leBytes 8 w.due) ∧ t.plane = s.plane ∧
          t.besides = s.besides)) ∧
    (∀ e, s.dueWaiting 0x0405 = some w → groupOfBody w.body w.body.length = some e →
      (∀ g, g < 4096 → (∀ j, j < g → s.group? j ≠ none) → s.group? g = none →
        ∃ t, exec .groupAllocBoundary s = .next t ∧
          s.Finished t w Status.ok (leBytes 2 g ++ List.replicate 6 0#8 ++ leBytes 8 w.due) ∧
          t.plane = { s.plane with groups := aset g e s.plane.groups } ∧ t.besides = s.besides) ∧
      ((∀ g, g < 4096 → s.group? g ≠ none) →
        ∃ t, exec .groupAllocBoundary s = .next t ∧
          s.Finished t w Status.groupFull (List.replicate 8 0#8 ++ leBytes 8 w.due) ∧ t.plane = s.plane ∧ t.besides = s.besides)) ∧
    (s.dueWaiting 0x0406 = some w →
      ∃ t, exec .groupFreeBoundary s = .next t ∧ s.Finished t w Status.ok (leBytes 8 w.due) ∧
        t.plane = { s.plane with groups := aerase (field w.body 0 2) s.plane.groups } ∧ t.besides = s.besides) ∧
    (s.dueWaiting 0x0504 = some w →
      let cur := aget (field w.body 0 2) s.ctl.budgets
      let n := field w.body 8 8 % 2 ^ 48
      let next := if field w.body 2 1 = 1 then some n else if field w.body 2 1 = 2 then cur.map (fun v => min (2 ^ 48 - 1) (v + n))
        else none
      (s.tenantOwes (field w.body 0 2) w.due = false →
        ∃ t, exec .tenantBudgetBoundary s = .next t ∧
          s.Finished t w Status.ok (leBytes 8 (next.getD (2 ^ 48 - 1)) ++ leBytes 8 w.due) ∧
          t.ctl.budgets = (match next with
            | some v => aset (field w.body 0 2) v s.ctl.budgets
            | none => aerase (field w.body 0 2) s.ctl.budgets) ∧
          t.plane = s.plane ∧ t.besides = s.besides) ∧
      (s.tenantOwes (field w.body 0 2) w.due = true → exec .tenantBudgetBoundary s = .next s))

/-- SNAPSHOT_TICK: while something commits or is sampled at or before T the reads wait; then every read that waits for T is answered
from the state at T, in the order of R423: with its body, once its items have gone to the queue it names, or with BUSY where they
do not fit; and a read changes no stream (R86, R87). -/
def Obligations.SnapshotTick : Prop :=
  ∀ (s : State) (w : Waiting), s.ctl.waiting.find? Waiting.atBoundary = some w →
    (w.code = 0x0204 ∨ w.code = 0x0301 ∨ w.code = 0x0304) →
    let owed := s.streams.table.any (fun e => e.2.owes w.due || e.2.stepDue w.due)
    let e := s.arbitrateAll w.due
    let ofTick := fun (x : Waiting) => decide (x.code = 0x0204 ∨ x.code = 0x0301 ∨ x.code = 0x0304) && decide (x.due = w.due)
    let alone := fun (x : Waiting) => (s.ctl.waiting.filter (fun v => decide (v.from? = x.from?))).length = 1
    (s.now < w.due ∨ owed = true → exec .snapshotTick s = .next s) ∧
    (w.due ≤ s.now → owed = false →
      ∃ t, exec .snapshotTick s = .next t ∧ t.streams = s.streams ∧ t.besides = e.besides ∧
        (∀ x ∈ (s.ctl.waiting.filter Waiting.atBoundary).takeWhile ofTick, alone x →
          x ∉ t.ctl.waiting ∧
          (∀ p n, x.from? = some (p, n) →
            ((e.reading x).packet = none → e.Answers t p n (e.reading x).status (e.reading x).body) ∧
            ((e.reading x).packet ≠ none →
              e.Answers t p n (e.reading x).status (e.reading x).body ∨ e.Answers t p n Status.busy []))) ∧
        (∀ p n q tag bodies, alone w → w.from? = some (p, n) → (e.reading w).packet = some (q, tag, bodies) →
          (e.packetFits q bodies.length = true → e.Answers t p n (e.reading w).status (e.reading w).body) ∧
          (e.packetFits q bodies.length = false → e.Answers t p n Status.busy [])))

/-- A cast at its instant makes the staged policy active under its epoch, installs its tables and the queues' levels, changes both
halves to their pending points and reports, or, for a windowed one, waits for its window's end; before the instant nothing
happens (R405, R444, R484, R501). A window's end loads its images, ends the old policy and reports (R448, R449); a retained
policy that nothing holds is freed, with its slots (R447). -/
def Obligations.Casts : Prop :=
  ∀ (s : State),
    (∀ a m, s.cast.armed = some a → s.cast.staged = some m →
      (s.now < a.instant → exec .castInstant s = .next s) ∧
      (a.instant ≤ s.now →
        ∃ t p, exec .castInstant s = .next t ∧ t.cast.active = some p ∧ p.tables = m.tables ∧ p.epoch = a.epoch ∧
          p.instant = a.instant ∧ t.cast.retained = s.cast.active ∧ t.cast.staged = none ∧ t.cast.armed = none ∧
          t.cast.epoch = a.epoch ∧ t.cast.defaultState = false ∧
          t.cast.windowEnd = (if m.windowed then some (a.instant + m.tables.latency.castWindow) else none) ∧
          t.plane.policyRoutes = some m.tables.routes ∧ t.plane.slots = some m.tables.slots ∧ t.plane.groups = m.tables.groups ∧
          t.plane.delivery = some m.tables.delivery ∧ t.plane.tablesLost = false ∧
          (∀ (q : QueueId) v, m.tables.queueTable[q.val]? = some v → (t.queue q).cfg.level = v.level) ∧
          (∀ h : HalfId, (t.power.half h).setPoint = (s.power.half h).point ∧ (t.power.half h).pending = none) ∧
          (m.windowed = false → t.latched 17 = true) ∧ t.streams.table = s.streams.table ∧ t.boot = s.boot ∧ t.bulk = s.bulk ∧
          t.plane.links = s.plane.links.map (fun e => (e.1, { e.2 with routeDirty := true })) ∧ t.aon.plumb = s.aon.plumb ∧ t.ctl.mbox = s.ctl.mbox)) ∧
    (∀ e p, s.cast.windowEnd = some e → s.cast.active = some p →
      (s.now < e → exec .castWindowEnd s = .next s) ∧
      (e ≤ s.now →
        ∃ t, exec .castWindowEnd s = .next t ∧
          t.cast = { s.cast with retained := none, windowEnd := none, windowCast := none, placements := s.cast.placements + 1 } ∧
          (s.cast.windowCast.isSome = true → t.latched 17 = true) ∧
          (∀ m ∈ p.tables.images, (∀ n ∈ p.tables.images, n.cell = m.cell → n = m) →
            (t.cell m.cell).slot p.cellSlot = slotOfImage p.tables.latency.policyId m) ∧
          { t.eng with stores := s.eng.stores } = s.eng ∧
          { t.quiet with cast := s.cast, grid := s.grid, eng := s.eng } = s.quiet)) ∧
    (∀ p a, s.cast.retained = some p → s.cast.windowEnd = none → s.cast.active = some a →
      (s.heldStreams p ≠ 0 ∨ s.inFlightOf p.epoch a.instant = true → exec .policyRetire s = .next s) ∧
      (s.heldStreams p = 0 → s.inFlightOf p.epoch a.instant = false →
        ∃ t, exec .policyRetire s = .next t ∧ t.cast = { s.cast with retained := none } ∧
          (∀ c, (t.cell c).slot p.cellSlot = {} ∧ (t.cell c).mem = (s.cell c).mem ∧
            (t.cell c).slot (!p.cellSlot) = (s.cell c).slot (!p.cellSlot)) ∧
          (∀ h, aget (h, p.cellSlot) t.eng.stores = some {} ∧
            aget (h, !p.cellSlot) t.eng.stores = aget (h, !p.cellSlot) s.eng.stores) ∧
          { t.eng with stores := s.eng.stores } = s.eng ∧
          { t with cast := s.cast, grid := s.grid, eng := s.eng } = s))

/-- A plane reset at its boundary stops every link, discards what the plane holds and returns its tables to the default ones, and
the synchronization state stays as it is (R33); the lanes train again 4,800 ticks later, and the command answers when it is
complete, with NTC_RESET (R452, R458, R467); PLANE_RESTORE installs the active policy's tables again, or answers ALREADY_DONE
when nothing is lost (R459). -/
def Obligations.PlaneResets : Prop :=
  ∀ (s : State) (w : Waiting),
    (s.dueWaiting 0x0702 = some w →
      ∃ t, exec .planeResetBoundary s = .next t ∧ t.plane.policyRoutes = none ∧ t.plane.formerRoutes = none ∧ t.plane.slots = none ∧
        t.plane.groups = [] ∧ t.plane.delivery = none ∧ t.plane.tablesLost = true ∧ t.plane.windows = [] ∧ t.plane.records = [] ∧
        t.plane.acks = [] ∧ t.plane.edgeWait = [] ∧ t.plane.retrainAt = some (w.due + 4800) ∧ t.plane.resetBoundary = some w.due ∧
        (∀ k : LinkId, (t.link k).state = .down) ∧ (∀ b k, aget b t.bulk = some k → k.out = {}) ∧
        (∀ g v, aget g t.plane.lanes = some v → v.train = []) ∧ t.aon = s.aon ∧
        { w with code := 0x10702 } ∈ t.ctl.waiting ∧
        t.streams.table = s.streams.table ∧ t.cast = s.cast ∧ t.power = s.power ∧ t.boot = s.boot) ∧
    (∀ at', s.plane.retrainAt = some at' →
      (s.now < at' → exec .planeRetrain s = .next s) ∧
      (at' ≤ s.now →
        ∃ t, exec .planeRetrain s = .next t ∧ t.plane.retrainAt = none ∧
          (∀ g : Fin 8, (t.laneGroup g).train = (List.finRange 8).map (fun i => s.physLane (laneLink g i))) ∧
          { t with plane := s.plane } = s)) ∧
    (s.completing 0x0702 = some w →
      ∃ t, exec .planeResetComplete s = .next t ∧ t.plane = { s.plane with resetBoundary := none } ∧
        t.ctl.waiting = s.ctl.waiting.erase w ∧ (∀ p n, w.from? = some (p, n) → s.Answered t p n Status.ok []) ∧
        t.latched 18 = true ∧ t.besides = s.besides) ∧
    (∀ p, s.dueWaiting 0x0704 = some w → s.plane.tablesLost = true → s.cast.active = some p →
      ∃ t, exec .planeRestoreBoundary s = .next t ∧ s.Finished t w Status.ok [] ∧
        t.plane = { s.plane with policyRoutes := some p.tables.routes, slots := some p.tables.slots, groups := p.tables.groups,
                                 delivery := some p.tables.delivery, tablesLost := false,
                                 links := s.plane.links.map (fun e => (e.1, { e.2 with routeDirty := true })) } ∧
        t.besides = s.besides) ∧
    (s.dueWaiting 0x0704 = some w → s.plane.tablesLost = false ∨ s.cast.active = none →
      ∃ t, exec .planeRestoreBoundary s = .next t ∧ s.Finished t w Status.alreadyDone [] ∧ t.plane = s.plane ∧
        t.besides = s.besides)

/-- A function reset: at its boundary, with nothing that commits, opens or is cast before it, the screening functions stand in the
default state, every stream is closed and nothing in flight is released; at its completion every slot is FREE and the command
answers, with NTC_RESET (R452, R460, R461, R467). An engine abort closes every bound stream and no other, discards the engine's
work and restarts it; its completion answers with how many were closed (R464, R465). -/
def Obligations.FunctionAndEngineResets : Prop :=
  ∀ (s : State) (w : Waiting),
    (s.dueWaiting 0x0703 = some w → s.streams.table.any (fun e => e.2.owes (w.due - 1)) = false →
      s.streams.opens.any (fun o => decide (o.stamp + 512 < w.due)) = false →
      s.cast.armed.any (fun a => decide (a.instant < w.due)) = false →
      ∃ t, exec .functionResetBoundary s = .next t ∧ t.cast.active = none ∧ t.cast.retained = none ∧ t.cast.staged = none ∧
        t.cast.armed = none ∧ t.cast.writing = none ∧ t.cast.defaultState = true ∧ t.cast.epoch = s.cast.epoch ∧
        t.eng = {} ∧ t.grid = {} ∧ (∀ e ∈ t.streams.table, e.2.state = .closed ∧ e.2.steps = [] ∧ e.2.inp.chunks = []) ∧
        t.streams.table.map (fun e => e.1) = s.streams.table.map (fun e => e.1) ∧ t.power = s.power ∧ t.boot = s.boot) ∧
    (s.completing 0x0703 = some w →
      ∃ t, exec .functionResetComplete s = .next t ∧ t.streams.table = [] ∧ t.streams.genBase = s.streams.genBase + 1 ∧
        t.cast = { s.cast with resetting := none } ∧ (∀ q : QueueId, 3 ≤ q.val → t.queue q = resetQueue q) ∧
        (∀ p n, w.from? = some (p, n) → s.Answered t p n Status.ok []) ∧ t.latched 18 = true ∧
        t.plane = s.plane ∧ t.power = s.power ∧ t.boot = s.boot ∧ t.eng = s.eng ∧ t.grid = s.grid) ∧
    (s.dueWaiting 0x0705 = some w →
      let e := field w.body 0 1
      let h := abortHalf w.body
      let unit := abortUnit w.body
      let hit := s.boundStreams e h unit
      (hit.any (fun x => x.2.owes w.due) = true → exec .engineAbortBoundary s = .next s) ∧
      (hit.any (fun x => x.2.owes w.due) = false →
        ∃ t, exec .engineAbortBoundary s = .next t ∧ (e, h, unit, w.due) ∈ t.eng.restarting ∧ t.latched 18 = true ∧
          (∀ x ∈ hit, ∃ y, aget x.1 t.streams.table = some y ∧ y.state = .closed) ∧
          (∀ k, k ∉ hit.map (fun x => x.1) → aget k t.streams.table = aget k s.streams.table) ∧
          { w with code := w.code + 0x10000, body := w.body ++ leBytes 4 (hit.filter (fun x => !x.2.ended)).length } ∈ t.ctl.waiting ∧
          t.power = s.power ∧ t.boot = s.boot ∧ t.cast = s.cast ∧ t.grid = s.grid)) ∧
    (s.completing 0x0705 = some w →
      ∃ t, exec .engineRestartComplete s = .next t ∧
        t.eng = { s.eng with restarting := s.eng.restarting.erase (field w.body 0 1, abortHalf w.body, abortUnit w.body, w.due) } ∧
        (∀ p n, w.from? = some (p, n) → s.Answered t p n Status.ok
          (w.body.drop (w.body.length - 4) ++ List.replicate 4 0#8 ++ leBytes 8 s.now)) ∧
        { t.besides with eng := s.eng } = s.besides)

/-- A cold reset, from the pin, from RESET_COLD at its tick, or from the loss of a supply other than an array's, leaves every
field at its reset value (R452 to R454, R504); the waiting commands are outside the gate, and `freeUse` counts free values
(log 7). COLD_RESET_RELEASE samples the straps and fuses, gives the host's receive credits and trains lanes 0 to 7 of every
group (R391, R430, R455, R513); ROM_READY serves the mailboxes and releases gate_rst_out_n (R454, R456). -/
def Obligations.ColdResetAndStartUp : Prop :=
  (∀ (s : State),
      let fresh : State := { State.reset with pending := s.pending, freeUse := s.freeUse }
      exec .coldResetAssert s = .next fresh ∧
      (∀ at', s.aon.resetColdAt = some at' → at' ≤ s.now → exec .resetColdStart s = .next fresh) ∧
      (∀ at', s.aon.resetColdAt = some at' → s.now < at' → exec .resetColdStart s = .next s) ∧
      (s.aon.resetColdAt = none → exec .resetColdStart s = .next s) ∧
      exec (.powerGoodLoss .x) s = .next fresh ∧ exec (.powerGoodLoss .sram) s = .next fresh ∧
      exec (.powerGoodLoss .aon) s = .next fresh) ∧
  (∀ (s : State),
      (∀ p : Straps, s.aon.rstColdN = false →
        ∃ t, exec (.coldResetRelease p) s = .next t ∧ t.aon.rstColdN = true ∧ t.aon.nodeValid = p.nodeStrap ∧
          t.aon.node = (if p.nodeStrap then p.nodeId else 0#12) ∧ t.aon.masterStrap = p.plumbMaster ∧ t.aon.keyHash = p.keyHash ∧
          t.aon.minSecurity = p.minSecurity ∧ (p.plumbMaster = true → t.aon.master = true ∧ t.aon.sync = .locked) ∧
          (∀ b : BulkId, ∃ k, aget b t.bulk = some k ∧ k.rxCredits = [(0, 130), (1, 66), (2, 260), (3, 260)] ∧ k.credits = []) ∧
          (∀ g : Fin 8, ∃ k, aget g t.plane.lanes = some k ∧ (∀ l : Fin 9, l ∈ k.train ↔ l.val < 8) ∧ k.rxUp = []) ∧
          t.rel = { s.rel with findings := p.findings } ∧
          { t.quiet with aon := s.aon, bulk := s.bulk, rel := s.rel, plane := { t.plane with lanes := s.plane.lanes } } = s.quiet) ∧
      (s.aon.rstColdN = true → s.boot.romReady = false →
        ∃ t, exec .romReady s = .next t ∧ t.boot = { s.boot with romReady := true } ∧ t.aon = { s.aon with rstOutN := true } ∧
          t.rel.findings = [] ∧ t.power = s.power))

/-! ### Power, temperature and reliability (R469 to R509) -/

/-- THERMAL_SENSOR_READ takes the 21 readings: each half's is the highest of its 10, an emergency stands while it is above the
emergency temperature, and therm_trip is driven low by a reading of 125 °C (R486, R508, R509); clocks do not change.
CURRENT_ESTIMATE gives each half its estimate, its own rail's power and half of VDD_CORE_X's, adds it to the history, and
starts an emergency throttle on a current above its rail's peak (R505, R507); clocks do not change. -/
def Obligations.ReadingsAndEstimates : Prop :=
  (∀ (s : State) (l : List Int), l.length = 21 →
      ∃ t, exec (.thermalSensorRead l) s = .next t ∧ t.power.sensors = l ∧
        (∀ (h : HalfId) (v : HalfPower), v = t.power.half h →
          (∀ i, i < 10 → l.getD (10 * halfCode h + i) 0 ≤ v.reading) ∧ (∃ i, i < 10 ∧ v.reading = l.getD (10 * halfCode h + i) 0) ∧
          (v.emergency = true ↔ 10 * (s.power.emergencyC : Int) < v.reading) ∧
          v.run = (s.power.half h).run ∧ v.setPoint = (s.power.half h).setPoint ∧ v.point = (s.power.half h).point ∧
          v.throttle = (s.power.half h).throttle ∧ v.opSet = (s.power.half h).opSet ∧ v.estimate = (s.power.half h).estimate) ∧
        t.aon = { s.aon with thermTripN := s.aon.thermTripN && l.all (fun r => decide (r < 1250)) } ∧
        { t with power := s.power, aon := s.aon } = s) ∧
  (∀ (s : State) (a b x : Nat),
      ∃ t, exec (.currentEstimate a b x) s = .next t ∧ t.power.currents = [a, b, x] ∧
        t.power.north.estimate = a * vidMicrovolts s.aon.vidNorth / 1000000 + x * 750000 / 1000000 / 2 ∧
        t.power.south.estimate = b * vidMicrovolts s.aon.vidSouth / 1000000 + x * 750000 / 1000000 / 2 ∧
        (∀ h : HalfId, (t.power.half h).history.getLast? = some (s.now, (t.power.half h).estimate) ∧
          (t.power.half h).run = (s.power.half h).run ∧ (t.power.half h).setPoint = (s.power.half h).setPoint ∧
          (t.power.half h).point = (s.power.half h).point ∧ (t.power.half h).throttle = (s.power.half h).throttle) ∧
        ((1100 < a ∨ 1100 < b ∨ 900 < x) →
          (t.power.half (if t.power.south.estimate < t.power.north.estimate then .north else .south)).powerHot = true) ∧
        { t with power := s.power } = s)

/-- While a half is hot it steps down 100 MHz, not below 200 MHz, and the gate reports DEGRADED; after 1,600,000 ticks of cool it
steps back up to its set point (R486, R507); a half that runs 1,600,000 ticks at 200 MHz above the emergency temperature loses
its array (R488). POWER_CAP_COMPARE, each 1,600,000 ticks: an average above P lowers the throttle limit of the half with the
higher estimate by 100 MHz with NTC_POWER, and no half falls below 200 MHz; while a cast is armed the change waits (R506). -/
def Obligations.ClockStepsAndCap : Prop :=
  (∀ (s : State) (h : HalfId),
      let v := s.power.half h
      ((v.emergency = true ∨ v.powerHot = true) → s.rel.lost h = false → v.stepDue s.now = true → 200 < v.run →
        ∃ t, exec (.thermalStepDown h) s = .next t ∧ (t.power.half h).run = v.run - 100 ∧ (t.power.half h).setPoint = v.setPoint ∧
          (t.power.half h).point = v.point ∧ (t.power.half h).lastStep = some s.now ∧ t.rel = { s.rel with degraded := true } ∧
          (s.rel.degraded = false → t.latched 21 = true) ∧ (∀ k, k ≠ h → t.power.half k = s.power.half k) ∧
          { t.quiet with power := s.power, rel := s.rel } = s.quiet) ∧
      (∀ k, v.emergency = false → v.powerHot = false → s.rel.lost h = false → v.coolSince = some k → k + 1600000 ≤ s.now →
        v.stepDue s.now = true → v.run < v.setPoint →
        ∃ t, exec (.thermalStepUp h) s = .next t ∧ (t.power.half h).run = min v.setPoint (v.run + 100) ∧
          (t.power.half h).setPoint = v.setPoint ∧ (t.power.half h).point = v.point ∧ (t.power.half h).lastStep = some s.now ∧
          (∀ k, k ≠ h → t.power.half k = s.power.half k) ∧ { t with power := s.power } = s) ∧
      (∀ k, v.lowSince = some k → k + 1600000 ≤ s.now → s.rel.lost h = false →
        ∃ t, exec (.halfArrayLost h) s = .next t ∧ t.rel.array h = 1 ∧ t.rel.degraded = true ∧ t.latched 21 = true ∧
          (∀ c, cellHalf c = h → t.rel.usable c = false) ∧ t.power = s.power ∧ t.streams = s.streams ∧ t.plane = s.plane) ∧
      (∀ r, (r = Rail.north ∧ h = .north) ∨ (r = Rail.south ∧ h = .south) → s.rel.lost h = false →
        ∃ t, exec (.powerGoodLoss r) s = .next t ∧ t.rel.array h = 1 ∧ t.rel.degraded = true ∧ t.latched 21 = true ∧
          (∀ c, cellHalf c = h → t.rel.usable c = false) ∧ t.power = s.power ∧ t.streams = s.streams ∧ t.plane = s.plane)) ∧
  (∀ (s : State), s.power.compareAt ≤ s.now →
      let h := if s.power.south.estimate < s.power.north.estimate then HalfId.north else HalfId.south
      (s.cast.armed = none → s.power.throttlePending = false → s.power.cap < s.gateAverage → 200 < (s.power.half h).throttle →
        ∃ t, exec .powerCapCompare s = .next t ∧ (t.power.half h).throttle = (s.power.half h).throttle - 100 ∧
          (t.power.half h).point = min (s.power.half h).opSet ((s.power.half h).throttle - 100) ∧
          t.power.throttlePending = true ∧ t.power.compareAt = s.now + 1600000 ∧ t.latched 23 = true ∧
          (∀ k, (t.power.half k).run = (s.power.half k).run ∧ (t.power.half k).setPoint = (s.power.half k).setPoint) ∧
          t.streams = s.streams ∧ t.plane = s.plane ∧ t.boot = s.boot) ∧
      (s.cast.armed.isSome = true →
        ∃ t, exec .powerCapCompare s = .next t ∧ t.power.north = s.power.north ∧ t.power.south = s.power.south ∧
          t.power.compareAt = s.now + 1600000 ∧ { t with power := s.power } = s))

/-- A cell's hard fault moves it to its bench's free spare, with its work lost and its images to be loaded again, and raises
NTC_SPARE_USED; without a free spare the bench is short and its cells are unusable (R265, R476, R477); a failed router makes
its bench short and bypassed (R478). An engine's hard fault marks it in the map, holds it out of service and reports DEGRADED
(R479); a welt group's traffic starts its copy to a free spare, which serves after 256 cycles with NTC_SPARE_USED, or else the
engine and memory channel narrows (R482, R483). -/
def Obligations.HardFaults : Prop :=
  (∀ (s : State) (c : CellId),
      (s.rel.usable c = true → (s.rel.bench (benchOf c)).getLsbD 1 = false → (s.rel.bench (benchOf c)).getLsbD 2 = false →
        ∃ t, exec (.cellHardFault c) s = .next t ∧ t.rel.bench (benchOf c) = BitVec.ofNat 8 (2 + 16 * (c.toNat % 16)) ∧
          t.cell c = { slot0 := (s.cell c).slot0, slot1 := (s.cell c).slot1, reloading := true } ∧
          t.rel.repairs = s.rel.repairs + 1 ∧ t.latched 20 = true ∧ (∀ d, d ≠ c → t.cell d = s.cell d) ∧
          (∀ b, b ≠ benchOf c → t.rel.bench b = s.rel.bench b) ∧ t.plane = s.plane ∧ t.power = s.power ∧ t.boot = s.boot) ∧
      (s.rel.usable c = true → ((s.rel.bench (benchOf c)).getLsbD 1 = true ∨ (s.rel.bench (benchOf c)).getLsbD 2 = true) →
        ∃ t, exec (.cellHardFault c) s = .next t ∧ t.rel.bench (benchOf c) = s.rel.bench (benchOf c) ||| 0x01#8 ∧
          (∀ d, benchOf d = benchOf c → t.rel.usable d = false) ∧ t.latched 21 = true ∧
          (∀ b, b ≠ benchOf c → t.rel.bench b = s.rel.bench b) ∧ t.streams = s.streams ∧ t.plane = s.plane) ∧
      (∀ b, s.rel.bench b &&& 0x09#8 ≠ 0x09#8 →
        ∃ t, exec (.benchRouterFail b) s = .next t ∧ t.rel.bench b = s.rel.bench b ||| 0x09#8 ∧
          (∀ d, benchOf d = b → t.rel.usable d = false) ∧ t.latched 21 = true ∧
          (∀ k, k ≠ b → t.rel.bench k = s.rel.bench k) ∧ t.streams = s.streams ∧ t.plane = s.plane) ∧
      ((s.cell c).reloading = true →
        ∃ t, exec (.cellReloadComplete c) s = .next t ∧ (t.cell c).reloading = false ∧
          (∀ d, d ≠ c → t.cell d = s.cell d) ∧ { t with grid := s.grid } = s ∧
          (s.slotPolicies = [] → t.cell c = { s.cell c with reloading := false })) ∧
      (∀ addr b w, (s.cell c).poisonAt addr 8 = some w → s.imageWord c addr = some b →
        exec (.cellImageRewrite c addr) s = .next (s.setCell c ((s.cell c).write addr b)))) ∧
  (∀ (s : State),
      (∀ (h : HalfId) (e : Fin 7) (u : Option (Fin 8)), u = none ∨ e ≠ 0 →
        ((match h with | .north => s.rel.enginesNorth | .south => s.rel.enginesSouth).getLsbD e.val) = false →
        ∃ t, exec (.engineHardFault h e u) s = .next t ∧
          t.rel.enginesNorth = (match h with | .north => s.rel.enginesNorth ||| (1#8 <<< e.val) | .south => s.rel.enginesNorth) ∧
          t.rel.enginesSouth = (match h with | .south => s.rel.enginesSouth ||| (1#8 <<< e.val) | .north => s.rel.enginesSouth) ∧
          t.rel.skiverUnits = s.rel.skiverUnits ∧ t.latched 21 = true ∧ (e.val, h, 0xFF, 2 ^ 64) ∈ t.eng.restarting ∧
          t.power = s.power ∧ t.boot = s.boot) ∧
      (∀ (h : HalfId) (n : Fin 8), s.rel.skiverUnits.getLsbD n.val = false →
        ∃ t, exec (.engineHardFault h 0 (some n)) s = .next t ∧ t.rel.skiverUnits = s.rel.skiverUnits ||| (1#8 <<< n.val) ∧
          t.rel.enginesNorth = s.rel.enginesNorth ∧ t.rel.enginesSouth = s.rel.enginesSouth ∧ t.latched 21 = true ∧
          (0, unitHalf n, n.val, 2 ^ 64) ∈ t.eng.restarting ∧ t.power = s.power ∧ t.boot = s.boot) ∧
      (∀ (d : Bool) (g : Fin 64), s.rel.weltRetired.contains (d, g) = false → s.rel.weltMem ≠ 0 → s.rel.weltSpares d ≠ 0 →
        ∃ t, exec (.weltGroupRetire d g) s = .next t ∧
          t.rel.weltCopy = s.rel.weltCopy ++ [(d, g, s.now + 256, 4 - s.rel.weltSpares d)] ∧
          t.rel.weltSpares d = s.rel.weltSpares d - 1 ∧ t.rel.weltSpares (!d) = s.rel.weltSpares (!d) ∧
          { t with rel := s.rel } = s) ∧
      (∀ (d : Bool) (g : Fin 64), s.rel.weltRetired.contains (d, g) = false → s.rel.weltMem ≠ 0 → s.rel.weltSpares d = 0 →
        ∃ t, exec (.weltGroupRetire d g) s = .next t ∧ t.rel.weltMem = s.rel.weltMem - 1 ∧ t.rel.degraded = true ∧
          t.rel.weltRetired = s.rel.weltRetired ++ [(d, g)] ∧ t.streams = s.streams ∧ t.plane = s.plane) ∧
      (∀ (d : Bool) e, s.rel.weltCopy.find? (fun (e : Bool × Fin 64 × Nat × Nat) => decide (e.1 = d) && decide (e.2.2.1 ≤ s.now)) = some e →
        ∃ t, exec (.weltSpareTakeover d) s = .next t ∧ t.rel.weltCopy = s.rel.weltCopy.erase e ∧
          t.rel.repairs = s.rel.repairs + 1 ∧ t.latched 20 = true ∧ t.streams = s.streams ∧ t.plane = s.plane ∧ t.grid = s.grid))

/-- PATROL_SCRUB: a correct word changes nothing but the pass, one with its poison bit set is a poisoned read (NTC_ECC), a corrected one counts, an uncorrectable one is poisoned, its row
due for repair and NTC_MEMORY latched (R469, R472, R473); MEM_REPAIR takes a spare row or column into use with NTC_SPARE_USED
(R473, R474); the repair semaphore is released (R428). -/
def Obligations.MemoryPatrolAndRepair : Prop :=
  ∀ (s : State),
    (∀ (m : MemLoc) (w : BitVec 80) data, memDecode w = .clean false data →
      ∃ t, exec (.patrolScrub m w) s = .next t ∧ t.rel.poisoned = s.rel.poisoned ∧ t.rel.repairsDue = s.rel.repairsDue ∧
        t.grid = s.grid ∧ { t.quiet with rel := s.rel } = s.quiet) ∧
    (∀ (m : MemLoc) (w : BitVec 80) data, memDecode w = .clean true data →
      ∃ t, exec (.patrolScrub m w) s = .next t ∧ t.latched 19 = true ∧ t.rel.poisoned = s.rel.poisoned ∧
        t.rel.repairsDue = s.rel.repairsDue ∧ t.grid = s.grid ∧ { t.quiet with rel := s.rel } = s.quiet) ∧
    (∀ (m : MemLoc) (w : BitVec 80) p data bits, memDecode w = .corrected p data bits →
      ∃ t, exec (.patrolScrub m w) s = .next t ∧
        (t.counter ⟨0x13, 0, 0⟩).count = min (2 ^ 48 - 1) ((s.counter ⟨0x13, 0, 0⟩).count + 1) ∧
        (m, t.rel.patrolPass) ∈ t.rel.corrected ∧ t.rel.poisoned = s.rel.poisoned ∧ t.grid = s.grid ∧
        { t.quiet with rel := s.rel } = s.quiet) ∧
    (∀ (m : MemLoc) (w : BitVec 80) data, memDecode w = .uncorrectable data →
      ∃ t, exec (.patrolScrub m w) s = .next t ∧ t.latched 19 = true ∧
        (m.kind ≠ 1 → (m.kind.val, m.unit, m.addr) ∈ t.rel.poisoned) ∧
        (m.kind = 1 → ∃ a, (t.cell (BitVec.ofNat 12 m.unit)).poison.contains a = true ∧ a = m.addr) ∧
        (s.rel.rows m < 8 → t.rel.repairsDue.any (sameRepair (m, none)) = true) ∧
        t.power = s.power ∧ t.boot = s.boot ∧ t.plane = s.plane) ∧
    (∀ m rest, s.rel.repairsDue = (m, none) :: rest →
      ∃ t, exec .memRepair s = .next t ∧ t.rel.repairsDue = rest ∧ t.rel.rows m = s.rel.rows m + 1 ∧ t.rel.cols m = s.rel.cols m ∧
        t.rel.repairs = s.rel.repairs + 1 ∧ t.latched 20 = true ∧ t.streams = s.streams ∧ t.grid = s.grid ∧ t.plane = s.plane) ∧
    (∀ m b rest, s.rel.repairsDue = (m, some b) :: rest →
      ∃ t, exec .memRepair s = .next t ∧ t.rel.repairsDue = rest ∧ t.rel.cols m = s.rel.cols m + 1 ∧ t.rel.rows m = s.rel.rows m ∧
        t.rel.repairs = s.rel.repairs + 1 ∧ t.latched 20 = true ∧ t.streams = s.streams ∧ t.grid = s.grid ∧ t.plane = s.plane) ∧
    (s.rel.repairsDue = [] → exec .memRepair s = .next s) ∧
    (s.ctl.repairSem = none → exec .repairSemaphoreRelease s = .next s) ∧
    (∀ k, s.ctl.repairSem = some k →
      ∃ t, exec .repairSemaphoreRelease s = .next t ∧ t.ctl.repairSem = none ∧
        t.sem 0 = (if (s.sem 0).owner = 3 then { s.sem 0 with owner := 0 } else s.sem 0) ∧
        (∀ n, n ≠ 0 → t.sem n = s.sem n) ∧ { t with ctl := { t.ctl with sems := s.ctl.sems, repairSem := s.ctl.repairSem } } = s)

/-! ### Links, routing and packets (R24 to R27, R348 to R394) -/

/-- Lane and link states: a rising lane takes its DOWN link to HUNT; a falling lane of an UP link, or a faulty lane, starts the
spare procedure while its group's spare is free (a link of a gate without an identity stays in HELLO), and otherwise the link goes
DOWN, as a link on the faulty spare does and as one does after 1,600 ticks without a passing header or 320,000 ticks of the spare
procedure; a request or an accept, or 16,384 ticks without one, moves the lane to the spare; eight passing headers bring SYNC, two
failing ones end it; a HELLO of the matching link brings a link UP, and a spared one back UP with NTC_SPARE_USED; HELLOs go out
each 1,024 ticks, each 65,536 when UP, and none without an identity (R355, R381 to R383, R513). -/
def Obligations.LinkStates : Prop :=
  ∀ (s : State) (k : LinkId),
    let goesDown := fun (t : State) => (t.link k).state = .down ∧ (t.link k).inSync = false ∧ (t.link k).sparing = none ∧
      (t.link k).out = {} ∧ (t.link k).retention = [] ∧ (∀ j, j ≠ k → (t.link j).state = (s.link j).state) ∧
      { t.inside with aon := s.aon } = s.inside ∧ (s.aon.syncLink ≠ BitVec.ofNat 8 k.val → t.aon = s.aon)
    let spares := fun (t : State) (l : Fin 9) => t.inside = s.inside ∧ (t.link k).state = .sparing ∧
      (t.link k).sparing = some { began := s.now, lane := l, accepted := false, moved := false } ∧
      (∀ j, (t.link j).peer = (s.link j).peer ∧ (j ≠ k → (t.link j).state = (s.link j).state))
    (∀ g l, s.linkOfLane g l = some k →
      (∃ t, exec (.laneRxUpRise g l) s = .next t ∧ t.inside = s.inside ∧ l ∈ (t.laneGroup g).rxUp ∧
        (∀ j, j ≠ k → t.link j = s.link j) ∧
        t.link k = (if (s.link k).state = .down then
          { s.link k with state := .hunt, inSync := false, good := 0, bad := 0, lastHeader := s.now } else s.link k)) ∧
      (∃ t, exec (.laneRxUpFall g l) s = .next t ∧ l ∉ (t.laneGroup g).rxUp ∧
        ((s.link k).state = .up → s.spareFree g = true → spares t l) ∧
        ((s.link k).state = .up → s.spareFree g = false → goesDown t) ∧
        ((s.link k).state = .hunt ∨ (s.link k).state = .hello → goesDown t) ∧
        ((s.link k).state = .down ∨ (s.link k).state = .sparing → t.inside = s.inside ∧ ∀ j, t.link j = s.link j)) ∧
      (l ≠ 8 → (s.link k).state ≠ .sparing → ((s.link k).state = .hello → s.aon.nodeValid = true) →
        ∃ t, exec (.laneFault g l) s = .next t ∧ (s.spareFree g = true → spares t l) ∧
          (s.spareFree g = false → (s.link k).state ≠ .down → goesDown t) ∧
          (s.spareFree g = false → (s.link k).state = .down → t = s)) ∧
      (l ≠ 8 → (s.link k).state = .sparing ∨ ((s.link k).state = .hello ∧ s.aon.nodeValid = false) →
        exec (.laneFault g l) s = .next s) ∧
      (l = 8 → ∃ t, exec (.laneFault g 8) s = .next t ∧ (t.laneGroup g).spareFailed = true ∧ t.spareFree g = false ∧
        ((s.link k).state ≠ .down → goesDown t))) ∧
    (∀ g l, s.linkOfLane g l = none →
      (∃ t, exec (.laneRxUpRise g l) s = .next t ∧ t.inside = s.inside ∧ l ∈ (t.laneGroup g).rxUp ∧ (∀ j, t.link j = s.link j)) ∧
      (∃ t, exec (.laneRxUpFall g l) s = .next t ∧ t.inside = s.inside ∧ l ∉ (t.laneGroup g).rxUp ∧ (∀ j, t.link j = s.link j)) ∧
      (l ≠ 8 → exec (.laneFault g l) s = .next s) ∧
      (l = 8 → ∃ t, exec (.laneFault g l) s = .next t ∧ t.spareFree g = false ∧ t.inside = s.inside ∧ (∀ j, t.link j = s.link j))) ∧
    (((s.link k).state = .up ∨ (s.link k).state = .hello) ∧ (s.link k).lastHeader + 1600 ≤ s.now ∨
      (∃ sp, (s.link k).state = .sparing ∧ (s.link k).sparing = some sp ∧ sp.began + 320000 ≤ s.now) →
      ∃ t, exec (.linkSilenceTimeout k) s = .next t ∧ goesDown t) ∧
    (((s.link k).state = .up ∨ (s.link k).state = .hello) ∧ s.now < (s.link k).lastHeader + 1600 ∨
      (∃ sp, (s.link k).state = .sparing ∧ (s.link k).sparing = some sp ∧ s.now < sp.began + 320000) ∨
      (s.link k).state = .down ∨ (s.link k).state = .hunt →
      exec (.linkSilenceTimeout k) s = .next s) ∧
    (∀ a j u, s.takeLocal 0xC6#8 = some (a, j, u) → field a.pkt.payload 0 1 = k.val →
      (∀ sp, field a.pkt.payload 1 1 = 1 ∨ field a.pkt.payload 1 1 = 2 → (s.link k).sparing = some sp → sp.moved = false →
        ∃ t, exec .laneMessage s = .next t ∧ (t.link k).sparing = some { sp with accepted := true, moved := true } ∧
          (t.laneGroup (linkGroup k)).spared = some (linkLane k) ∧ 8 ∈ (t.laneGroup (linkGroup k)).train ∧
          (∀ i, i ≠ k → t.link i = s.link i) ∧ t.inside = s.inside) ∧
      (field a.pkt.payload 1 1 = 1 → (s.link k).sparing = none → s.spareFree (linkGroup k) = true →
        ∃ t, exec .laneMessage s = .next t ∧ (t.link k).state = .sparing ∧
          (t.link k).sparing = some { began := s.now, lane := s.physLane k, accepted := true, moved := true } ∧
          (t.laneGroup (linkGroup k)).spared = some (linkLane k) ∧ 8 ∈ (t.laneGroup (linkGroup k)).train ∧
          (∀ i, (t.link i).peer = (s.link i).peer ∧ (i ≠ k → (t.link i).state = (s.link i).state)) ∧ t.inside = s.inside)) ∧
    (∀ sp, (s.link k).sparing = some sp → sp.moved = false →
      (sp.began + 16384 ≤ s.now →
        ∃ t, exec (.laneSpareAcceptTimeout k) s = .next t ∧ (t.link k).sparing = some { sp with accepted := false, moved := true } ∧
          (t.laneGroup (linkGroup k)).spared = some (linkLane k) ∧ 8 ∈ (t.laneGroup (linkGroup k)).train ∧
          (∀ i, i ≠ k → t.link i = s.link i) ∧ t.inside = s.inside) ∧
      (s.now < sp.began + 16384 → exec (.laneSpareAcceptTimeout k) s = .next s)) ∧
    (∀ hdr, ((s.link k).state = .down → exec (.packetDelineation k hdr) s = .next s) ∧
      ((s.link k).state ≠ .down →
        ∃ t, exec (.packetDelineation k hdr) s = .next t ∧ (∀ j, j ≠ k → t.link j = s.link j) ∧ t.inside = s.inside ∧
          ((s.link k).inSync = true → headerPasses hdr = true → t.link k = { s.link k with bad := 0, lastHeader := s.now }) ∧
          ((s.link k).inSync = true → headerPasses hdr = false → (t.link k).state = (s.link k).state ∧
            ((t.link k).inSync = true ↔ (s.link k).bad = 0)) ∧
          ((s.link k).inSync = false → headerPasses hdr = true → (hdr.toNat / 2 ^ 48) % 256 ≤ 128 →
            (t.link k).state = (if 7 ≤ (s.link k).good ∧ (s.link k).state = .hunt then .hello else (s.link k).state) ∧
            ((t.link k).inSync = true ↔ 7 ≤ (s.link k).good) ∧ (t.link k).lastHeader = s.now) ∧
          ((s.link k).inSync = false → headerPasses hdr = false ∨ 128 < (hdr.toNat / 2 ^ 48) % 256 →
            t.link k = { s.link k with good := 0 }))) ∧
    (∀ a u, s.takeLocal 0xC7#8 = some (a, k, u) →
      ((s.link k).state = .hello → field a.pkt.payload 2 1 = k.val →
        (s.aon.nodeValid = true →
          ∃ t, exec .hello s = .next t ∧ (t.link k).state = .up ∧ (t.link k).peer = nodeField a.pkt.payload 0 ∧
            (∀ j, j ≠ k → t.link j = s.link j) ∧ t.inside = s.inside) ∧
        (s.aon.nodeValid = false → exec .hello s = .next u ∧ ∀ j, u.link j = s.link j)) ∧
      ((s.link k).state = .hello → field a.pkt.payload 2 1 ≠ k.val →
        ∃ t, exec .hello s = .next t ∧ t.plane = u.plane ∧ (∀ j, t.link j = s.link j) ∧ t.inside = s.inside ∧ t.latched 12 = true) ∧
      (∀ sp, (s.link k).state = .sparing → (s.link k).sparing = some sp → sp.moved = true → (s.link k).inSync = true →
        field a.pkt.payload 2 1 = k.val → s.aon.nodeValid = true →
        ∃ t, exec .hello s = .next t ∧ (t.link k).state = .up ∧ (t.link k).sparing = none ∧ t.latched 20 = true ∧
          (∀ j, j ≠ k → (t.link j).state = (s.link j).state) ∧ t.rel.repairs = s.rel.repairs + 1 ∧
          { t.inside with rel := s.rel, ctl := s.inside.ctl } = s.inside) ∧
      ((s.link k).state = .up → field a.pkt.payload 2 1 = k.val →
        ∃ t, exec .hello s = .next t ∧ t.link k = { s.link k with peer := nodeField a.pkt.payload 0 } ∧
          (∀ j, j ≠ k → t.link j = s.link j) ∧ t.inside = s.inside) ∧
      ((s.link k).state = .down ∨ (s.link k).state = .hunt → exec .hello s = .next u ∧ ∀ j, u.link j = s.link j)) ∧
    ((s.link k).state = .up ∨ (s.link k).state = .hello ∨ (s.link k).state = .sparing → s.aon.nodeValid = true →
      ((s.link k).helloAt ≤ s.now →
        ∃ t, exec (.helloSendTimer k) s = .next t ∧
          (t.link k).helloAt = s.now + (if (s.link k).state = .up then 65536 else 1024) ∧
          (t.link k).state = (s.link k).state ∧ (∀ j, j ≠ k → t.link j = s.link j) ∧ t.inside = s.inside) ∧
      (s.now < (s.link k).helloAt → exec (.helloSendTimer k) s = .next s)) ∧
    ((s.link k).state = .down ∨ (s.link k).state = .hunt ∨ s.aon.nodeValid = false → exec (.helloSendTimer k) s = .next s)

/-- ROUTE, SYNC and delay messages and their timers: a ROUTE replaces the hops learned on its link and is sent each 1,048,576
ticks or on a change; a LOCKED gate or the master sends a SYNC each 8,192 ticks; a valid SYNC of the followed link gives the
offset, which loads plumb once in FREE_RUN and moves the states as R52's table says (the trim is a free value within its range),
and the master takes none; a DELAY exchange gives half of the round trip less the skew; a follower without a SYNC enters HOLDOVER after 65,536 ticks and UNLOCKED 1,600,000 ticks later, each with
NTC_PLUMB (R52, R360, R379, R380). -/
def Obligations.RouteAndSync : Prop :=
  ∀ (s : State) (k : LinkId),
    (∀ a u, s.takeLocal 0xC8#8 = some (a, k, u) → (s.link k).state = .up →
      ∃ t, exec .route s = .next t ∧
        (t.link k).learned =
          (a.pkt.payload.zipIdx).filterMap (fun (b, n) => if b.toNat < 0xFF then some (n, b.toNat) else none) ∧
        (∀ j, (t.link j).state = (s.link j).state ∧ (j ≠ k → (t.link j).learned = (s.link j).learned)) ∧ t.inside = s.inside) ∧
    ((s.link k).state = .up → s.aon.nodeValid = true →
      ((s.link k).routeAt ≤ s.now ∨ (s.link k).routeDirty = true →
        ∃ t, exec (.routeSendTimer k) s = .next t ∧ (t.link k).routeAt = s.now + 1048576 ∧ (t.link k).routeDirty = false ∧
          (∀ j, j ≠ k → t.link j = s.link j) ∧ t.inside = s.inside) ∧
      (s.now < (s.link k).routeAt → (s.link k).routeDirty = false → exec (.routeSendTimer k) s = .next s)) ∧
    (∀ a u, s.takeLocal 0xC0#8 = some (a, k, u) → s.aon.master = false → s.aon.syncLink = BitVec.ofNat 8 k.val →
      fieldBit a.pkt.payload 3 1 0 = true →
      (∀ q, (s.link k).syncSeq = some q → laterSeq 32 (field a.pkt.payload 4 4) q = true) → field a.pkt.payload 2 1 ≤ 7 →
      let o16 : Int := (field a.pkt.payload 8 8 : Int) * 16 + field a.pkt.payload 16 1 + (s.link k).delay16.getD 0
        - ((a.stamp : Int) * 16 + a.at16)
      ∃ t, exec .sync s = .next t ∧ t.aon.depth = field a.pkt.payload 2 1 + 1 ∧ t.aon.lastOffset = o16 / 16 ∧
        t.aon.sync = (match s.aon.sync with
          | .freeRun => .locked
          | .locked => if o16.natAbs ≤ 64 ∨ s.aon.beyond = 0 then .locked else .unlocked
          | .holdover => if o16.natAbs ≤ 64 then .locked else .unlocked
          | .unlocked => if o16.natAbs ≤ 64 ∧ 1 ≤ s.aon.within then .locked else .unlocked) ∧
        (t.aon.sync ≠ s.aon.sync → t.latched 1 = true) ∧ (t.link k).syncSeq = some (field a.pkt.payload 4 4) ∧
        (s.aon.sync = .freeRun → t.aon.plumb = BitVec.ofInt 64 ((s.now : Int) + o16 / 16) ∧ t.aon.loaded = true ∧
          t.aon.rateTrim = s.aon.rateTrim) ∧
        (s.aon.sync ≠ .freeRun → t.aon.plumb = s.aon.plumb ∧ t.aon.lastSync = s.now ∧ t.aon.rateTrim = trimFor o16 ∧
          ∀ j, j ≠ k → t.link j = s.link j) ∧
        (∀ j, (t.link j).state = (s.link j).state ∧ (t.link j).peer = (s.link j).peer) ∧
        { t.inside with aon := s.aon } = s.inside) ∧
    (∀ a u, s.takeLocal 0xC0#8 = some (a, k, u) → s.aon.master = true → exec .sync s = .next u ∧ u.aon = s.aon) ∧
    ((s.link k).state = .up → s.aon.nodeValid = true → (s.aon.sync = .locked ∨ s.aon.master = true) → (s.link k).syncAt ≤ s.now →
      ∃ t, exec (.syncSendTimer k) s = .next t ∧ (t.link k).syncAt = s.now + 8192 ∧
        t.aon = { s.aon with syncSeq := (s.aon.syncSeq + 1) % 2 ^ 32 } ∧ (∀ j, j ≠ k → t.link j = s.link j) ∧
        { t.inside with aon := s.aon } = s.inside) ∧
    ((s.link k).state ≠ .up ∨ s.aon.nodeValid = false ∨ (s.aon.sync ≠ .locked ∧ s.aon.master = false) ∨ s.now < (s.link k).syncAt →
      exec (.syncSendTimer k) s = .next s) ∧
    ((s.link k).state ≠ .up ∨ s.now < (s.link k).delayAt → exec (.delayMeasureTimer k) s = .next s) ∧
    ((s.link k).state = .up → (s.link k).delayAt ≤ s.now →
      ∃ t, exec (.delayMeasureTimer k) s = .next t ∧ (t.link k).delayAt = s.now + 1048576 ∧
        (t.link k).delaySeq = ((s.link k).delaySeq + 1) % 2 ^ 32 ∧ (t.link k).delayT1 = none ∧
        (∀ j, j ≠ k → t.link j = s.link j) ∧ t.inside = s.inside) ∧
    (∀ a u, s.takeLocal 0xC1#8 = some (a, k, u) →
      ∃ t, exec .delayReq s = .next t ∧ t.inside = s.inside ∧
        (∀ j, (t.link j).state = (s.link j).state ∧ (j ≠ k → t.link j = s.link j)) ∧
        ((s.link k).out.fits (mkPacket s.aon.node 7#3 (s.link k).peer 0xC2#8 false false 0#48 (padTo 64
            (leBytes 4 (field a.pkt.payload 0 4) ++ List.replicate 4 0#8 ++ leBytes 8 (field a.pkt.payload 8 8)
              ++ leBytes 1 (field a.pkt.payload 16 1) ++ List.replicate 7 0#8 ++ leBytes 8 a.stamp ++ leBytes 1 a.at16))) = true →
          (s.link k).state = .up → (t.link k).out.queue.length = (s.link k).out.queue.length + 1)) ∧
    (∀ a u, s.takeLocal 0xC2#8 = some (a, k, u) → field a.pkt.payload 0 4 = (s.link k).delaySeq →
      (s.link k).delayT1.isSome = true →
      let t1 : Int := 16 * (field a.pkt.payload 8 8 : Int) + field a.pkt.payload 16 1
      let t2 : Int := 16 * (field a.pkt.payload 24 8 : Int) + field a.pkt.payload 32 1
      let t3 : Int := 16 * (field a.pkt.payload 40 8 : Int) + field a.pkt.payload 48 1
      let t4 : Int := 16 * (a.stamp : Int) + a.at16
      ∃ t, exec .delayResp s = .next t ∧
        t.link k = { s.link k with delay16 := some (((t4 - t1) - (t3 - t2) - (s.link k).skew16) / 2), delayT1 := none } ∧
        (∀ j, j ≠ k → t.link j = s.link j) ∧ t.inside = s.inside) ∧
    (s.aon.sync = .locked → s.aon.master = false → s.aon.lastSync + 65536 ≤ s.now →
      ∃ t, exec .holdoverTimeout s = .next t ∧
        t.aon = { s.aon with sync := .holdover, holdoverAt := s.now, beyond := 0, within := 0 } ∧ t.latched 1 = true ∧
        { t.quiet with aon := s.aon } = s.quiet) ∧
    (s.aon.sync = .holdover → s.aon.holdoverAt + 1600000 ≤ s.now →
      ∃ t, exec .holdoverExpiry s = .next t ∧ t.aon = { s.aon with sync := .unlocked, beyond := 0, within := 0 } ∧
        t.latched 1 = true ∧ { t.quiet with aon := s.aon } = s.quiet) ∧
    (s.aon.sync ≠ .locked ∨ s.aon.master = true ∨ s.now < s.aon.lastSync + 65536 → exec .holdoverTimeout s = .next s) ∧
    (s.aon.sync ≠ .holdover ∨ s.now < s.aon.holdoverAt + 1600000 → exec .holdoverExpiry s = .next s)

/-- Windows and acknowledgements, and what they do where no packet waits at its edge for a window: an ACK removes what it acknowledges and keeps the window
between 8,192 and 262,144 bytes; an acknowledgement carries at most 15 entries; an overdue packet is sent again with twice its
timeout, and after 8 resends its window is emptied; idle windows and records are freed (R366 to R370). -/
def Obligations.WindowsAndAcks : Prop :=
  ∀ (s : State) (peer : NodeId),
    (∀ c, c = .ack ∨ c = .retransmitTimeout peer ∨ c = .sendWindowIdleFree peer → ∃ t, exec c s = .next t ∧ t.inside = s.inside) ∧
    (∀ a u, s.takeInbox (fun x => decide (x.pkt.hdr.port = 0xC3#8)) = some (a, u) → aget a.pkt.hdr.source s.plane.windows = none →
      exec .ack s = .next u) ∧
    (∀ a u w, s.takeInbox (fun x => decide (x.pkt.hdr.port = 0xC3#8)) = some (a, u) → a.pkt.hdr.source = peer →
      aget peer s.plane.windows = some w → s.plane.edgeWait = [] →
      let expected := field a.pkt.payload 0 4 % 2 ^ 24
      ∃ t v, exec .ack s = .next t ∧ aget peer t.plane.windows = some v ∧ v.next = w.next ∧ v.lastActive = s.now ∧
        (∀ x ∈ v.outstanding, x ∈ w.outstanding ∧ ¬ (unitBefore x.pkt.hdr.seq.toNat expected = true ∧
          unitBefore expected ((x.pkt.hdr.seq.toNat + x.pkt.hdr.length.toNat) % 2 ^ 24) = false)) ∧
        (∀ e < min 15 (field a.pkt.payload 0 4 / 2 ^ 28), ∀ x ∈ v.outstanding,
          ¬ (x.pkt.hdr.seq.toNat = field a.pkt.payload (4 + 4 * e) 4 % 2 ^ 24 ∧
            x.pkt.hdr.length.toNat = field a.pkt.payload (4 + 4 * e) 4 / 2 ^ 24 % 128 + 1)) ∧
        (8192 ≤ w.w → w.w ≤ 262144 → 8192 ≤ v.w ∧ v.w ≤ 262144) ∧
        (∀ q, q ≠ peer → aget q t.plane.windows = aget q s.plane.windows) ∧ t.plane.links = s.plane.links ∧
        t.inside = s.inside) ∧
    (∀ es, aget peer s.plane.acks = some es → es ≠ [] →
      ∃ t, exec (.ackSend peer) s = .next t ∧
        aget peer t.plane.acks = (if es.length ≤ 15 then none else some (es.drop 15)) ∧
        (∀ q, q ≠ peer → aget q t.plane.acks = aget q s.plane.acks) ∧ t.plane.windows = s.plane.windows ∧
        t.plane.records = s.plane.records ∧ t.inside = s.inside) ∧
    (∀ w x, aget peer s.plane.windows = some w → w.overdue s.now = some x → x.resends < 8 →
      ∃ t v, exec (.retransmitTimeout peer) s = .next t ∧ aget peer t.plane.windows = some v ∧
        { x with sentAt := s.now, timeout := min 1048576 (2 * x.timeout), resends := x.resends + 1 } ∈ v.outstanding ∧
        v.outstanding.length = w.outstanding.length ∧ v.next = w.next ∧ (8192 ≤ w.w → 8192 ≤ v.w ∧ v.w ≤ w.w) ∧
        (∀ q, q ≠ peer → aget q t.plane.windows = aget q s.plane.windows) ∧ t.inside = s.inside) ∧
    (∀ w x, aget peer s.plane.windows = some w → w.overdue s.now = some x → 8 ≤ x.resends → s.plane.edgeWait = [] →
      ∃ t, exec (.retransmitTimeout peer) s = .next t ∧
        aget peer t.plane.windows = some { w with outstanding := [], gapNext := true, lastActive := s.now } ∧
        (∀ q, q ≠ peer → aget q t.plane.windows = aget q s.plane.windows) ∧ t.latched 12 = true ∧ t.inside = s.inside) ∧
    (∀ w, aget peer s.plane.windows = some w → w.outstanding = [] →
      (w.lastActive + 1048576 ≤ s.now → s.plane.edgeWait = [] → ∃ t, exec (.sendWindowIdleFree peer) s = .next t ∧
        aget peer t.plane.windows = none ∧ (∀ q, q ≠ peer → aget q t.plane.windows = aget q s.plane.windows) ∧
        { t with plane := { t.plane with windows := s.plane.windows } } = s) ∧
      (s.now < w.lastActive + 1048576 → exec (.sendWindowIdleFree peer) s = .next s)) ∧
    (∀ r, aget peer s.plane.records = some r →
      (r.lastActive + 2097152 ≤ s.now → ∃ t, exec (.receiveRecordIdleFree peer) s = .next t ∧
        aget peer t.plane.records = none ∧ (∀ q, q ≠ peer → aget q t.plane.records = aget q s.plane.records) ∧
        { t with plane := { t.plane with records := s.plane.records } } = s) ∧
      (s.now < r.lastActive + 2097152 → exec (.receiveRecordIdleFree peer) s = .next s))

/-- Multicast reports: a MISS adds its members to the completion record it names, or counts; a copy whose budget has run out
leaves the retention slots and the branch's next copy carries `gap`; a due completion record is written as TIMEOUT, FENCED or
OK with the members reached (R375 to R377). -/
def Obligations.MulticastReports : Prop :=
  ∀ (s : State),
    (∀ a u, s.takeInbox (fun x => decide (x.pkt.hdr.port = 0xC4#8)) = some (a, u) →
      let named := fun (c : Completion) => c.group = field a.pkt.payload 0 2 ∧ c.seq = field a.pkt.payload 4 3
      let members : BitVec 256 := BitVec.ofNat 256 (field a.pkt.payload 16 32)
      ((∃ c ∈ s.plane.completions, named c) →
        ∃ t, exec .miss s = .next t ∧ t.plane.completions.length = s.plane.completions.length ∧
          (∀ c ∈ s.plane.completions, ¬ named c → c ∈ t.plane.completions) ∧
          (∀ c ∈ s.plane.completions, named c →
            (if field a.pkt.payload 2 1 = 0 then { c with missed := c.missed ||| members }
             else { c with fenced := c.fenced ||| members }) ∈ t.plane.completions) ∧
          { t with plane := { t.plane with completions := s.plane.completions } } = u) ∧
      ((∀ c ∈ s.plane.completions, ¬ named c) → exec .miss s = .next (u.count1 0x02 0 9))) ∧
    (∀ (k : LinkId) r,
      (s.link k).retention.find? (fun r => decide (r.entered + ((s.group? r.group).map (fun e => e.budget)).getD 0 ≤ s.now)) =
        some r →
      ∃ t, exec (.retentionBudgetExpiry k) s = .next t ∧ (t.link k).retention = (s.link k).retention.erase r ∧
        (r.group, k) ∈ t.plane.gapBranch ∧ (∀ j, (t.link j).state = (s.link j).state) ∧ t.inside = s.inside) ∧
    (∀ (k : LinkId),
      (∀ r ∈ (s.link k).retention, s.now < r.entered + ((s.group? r.group).map (fun e => e.budget)).getD 0) →
      exec (.retentionBudgetExpiry k) s = .next s) ∧
    (∀ c, s.plane.completions.find? (fun c => decide (c.due ≤ s.now)) = some c →
      ∃ t, exec .mcastCompletionRecord s = .next t ∧
        t.plane = { s.plane with completions := s.plane.completions.filter (fun d => d ≠ c) } ∧
        t.loud = (s.writeItem c.queue 0x0003#16 (leBytes 2 c.group
          ++ leBytes 1 (if c.missed ≠ 0#256 then Status.timeout else if c.fenced ≠ 0#256 then Status.fenced else Status.ok)
          ++ leBytes 1 ((if c.missed ≠ 0#256 then 1 else 0) + (if c.fenced ≠ 0#256 then 2 else 0))
          ++ leBytes 4 c.seq ++ leBytes 8 c.stamp ++ leBytes 32 (c.all &&& ~~~(c.missed ||| c.fenced)).toNat)).loud ∧
        { t.quiet with plane := s.plane } = s.quiet) ∧
    (s.plane.completions.find? (fun c => decide (c.due ≤ s.now)) = none → exec .mcastCompletionRecord s = .next s)

/-- Packets that come on a link: outside SYNC nothing is taken; a failing trailer is counted and drops the packet; a link-local
message waits for its function; class 0 without an admitting entry is dropped; the first unit expected from a
source is delivered, owed an acknowledgement and advances `expected` past it (R24, R354, R355, R363, R366, R367, R378). -/
def Obligations.LinkPackets : Prop :=
  ∀ (s : State) (k : LinkId) (w : WirePacket) (x : Nat),
    ((s.link k).state = .down ∨ (s.link k).state = .hunt ∨ (s.link k).inSync = false →
      exec (.linkPacketReceive k w x) s = .next s) ∧
    ((s.link k).state = .up ∨ (s.link k).state = .hello ∨ (s.link k).state = .sparing → (s.link k).inSync = true →
      let a : Arrival := { pkt := w.pkt, edge := .link k, stamp := s.now, at16 := x }
      (w.trailer ≠ w.pkt.trailer →
        ∃ t, exec (.linkPacketReceive k w x) s = .next t ∧ t.plane.inbox = s.plane.inbox ∧ t.bulk = s.bulk ∧
          t.plane.records = s.plane.records ∧ t.latched 12 = true ∧ { t.inside with aon := s.aon } = s.inside ∧
          (((s.link k).trailerFails ++ [s.now]).length < 16 → t.inside = s.inside ∧ (t.link k).state = (s.link k).state)) ∧
      (w.trailer = w.pkt.trailer → w.pkt.hdr.cls = 7#3 → linkLocal w.pkt.hdr.port = true →
        ∃ t, exec (.linkPacketReceive k w x) s = .next t ∧ t.plane.inbox = s.plane.inbox ++ [a] ∧
          t.link k = { s.link k with lastHeader := s.now, bad := 0 } ∧ (∀ j, j ≠ k → t.link j = s.link j) ∧
          t.bulk = s.bulk ∧ t.inside = s.inside) ∧
      (w.trailer = w.pkt.trailer → (s.link k).state = .up → w.pkt.hdr.cls = 0#3 → s.class0Entry a = none →
        ∃ t, exec (.linkPacketReceive k w x) s = .next t ∧ t.plane.inbox = s.plane.inbox ∧ t.bulk = s.bulk ∧
          t.link k = { s.link k with lastHeader := s.now, bad := 0 } ∧ (∀ j, j ≠ k → t.link j = s.link j) ∧
          t.inside = s.inside) ∧
      (w.trailer = w.pkt.trailer → (s.link k).state = .up → w.pkt.hdr.cls ≠ 0#3 → w.pkt.hdr.cls ≠ 7#3 →
        w.pkt.hdr.multicast = false → w.pkt.hdr.dest = s.aon.node → 1 ≤ w.pkt.hdr.length.toNat →
        (s.plane.records.length < 8192 ∧ aget w.pkt.hdr.source s.plane.records = none ∧ (w.pkt.hdr.gap = true ∨ w.pkt.hdr.seq = 0#24)) ∨
          (∃ r0, aget w.pkt.hdr.source s.plane.records = some r0 ∧ r0.got = [] ∧ r0.held = [] ∧
            (w.pkt.hdr.gap = true ∨ r0.expected = w.pkt.hdr.seq.toNat)) →
        ∃ t r, exec (.linkPacketReceive k w x) s = .next t ∧ aget w.pkt.hdr.source t.plane.records = some r ∧
          r.expected = (w.pkt.hdr.seq.toNat + w.pkt.hdr.length.toNat) % 2 ^ 24 ∧ r.got = [] ∧ r.held = [] ∧
          r.lastActive = s.now ∧
          aget w.pkt.hdr.source t.plane.acks = some ((aget w.pkt.hdr.source s.plane.acks).getD [] ++
            [{ seq := w.pkt.hdr.seq.toNat, length := w.pkt.hdr.length.toNat, echo := w.pkt.hdr.mark, received := s.now }]) ∧
          (s.consumes w.pkt.hdr.port = true → a.noMessage = false → t.plane.inbox = s.plane.inbox ++ [a] ∧ t.bulk = s.bulk) ∧
          t.inside = s.inside))

/-- Packets of the host and outputs: a malformed packet is dropped with NTC_HOST; one for another gate enters its window; a credit
pulse adds one credit; an output sends the packet that is chosen, with its transmission time written (timing messages, R379)
and its credits taken (host ports, R391), and what is due and cannot leave (a lane being spared, no credits) is dropped and
counted (R382, R394); an event on the sync port is recorded in queue 2 (R361, R368, R370, R391, R393,
R402). -/
def Obligations.HostPacketsAndOutputs : Prop :=
  ∀ (s : State),
    (∀ b w, s.hostMalformed b w = true →
      ∃ t, exec (.hostPacketReceive b w) s = .next t ∧ t.quiet = s.quiet ∧ t.latched 14 = true) ∧
    (∀ b w, s.hostMalformed b w = false → w.pkt.hdr.multicast = false → w.pkt.hdr.dest ≠ s.aon.node → w.pkt.hdr.cls ≠ 0#3 →
      w.pkt.hdr.cls ≠ 7#3 → (s.cast.defaultState = false ∨ isText w.pkt = false) → s.plane.edgeWait = [] → s.windowRoom (s.completeHeader w.pkt) = true →
      let old := (aget w.pkt.hdr.dest s.plane.windows).getD {}
      ∃ t v p, exec (.hostPacketReceive b w) s = .next t ∧ aget w.pkt.hdr.dest t.plane.windows = some v ∧
        v.outstanding = old.outstanding ++ [p] ∧ p.sentAt = s.now + 120 ∧ p.resends = 0 ∧ p.pkt.payload = w.pkt.payload ∧
        p.pkt.hdr.source = s.aon.node ∧ p.pkt.hdr.seq = BitVec.ofNat 24 old.next ∧
        v.next = (old.next + w.pkt.hdr.length.toNat) % 2 ^ 24 ∧ t.plane.edgeWait = [] ∧ t.inside = s.inside) ∧
    (∀ b (vc : Fin 4), ∃ t, exec (.hostCreditReturn b vc) s = .next t ∧
      (t.bulkPort b).credit vc.val = (s.bulkPort b).credit vc.val + 1 ∧
      (∀ n, n ≠ vc.val → (t.bulkPort b).credit n = (s.bulkPort b).credit n) ∧
      (t.bulkPort b).out = (s.bulkPort b).out ∧ (∀ c, c ≠ b → t.bulkPort c = s.bulkPort c) ∧ { t with bulk := s.bulk } = s) ∧
    (∀ (k : LinkId) x,
      let c := (s.link k).out.choose s.now (fun p => (s.link k).maySend p && s.mayStart (BitVec.ofNat 8 k.val) p) s.weight
      (c = none → ∃ t, exec (.linkOutputSelect k x) s = .next t ∧
        t.link k = { s.link k with out := { (s.link k).out with sending := none } } ∧ (∀ j, j ≠ k → t.link j = s.link j) ∧
        t.inside = s.inside) ∧
      (∀ q o, c = some (q, o) → (s.link k).maySend q.pkt = true →
        ∃ t, exec (.linkOutputSelect k x) s = .next t ∧ (t.link k).out.sending = some (stampTiming q.pkt s.now x) ∧
          ((s.link k).retention = [] → (t.link k).out = { o with sending := some (stampTiming q.pkt s.now x) }) ∧
          (t.link k).state = (s.link k).state ∧ (∀ j, j ≠ k → t.link j = s.link j) ∧ t.inside = s.inside) ∧
      (∀ q o, c = some (q, o) → (s.link k).maySend q.pkt = false →
        ∃ t, exec (.linkOutputSelect k x) s = .next t ∧
          t.link k = { s.link k with out :=
            if (s.link k).state = .sparing then { o with sending := none } else { (s.link k).out with sending := none } } ∧
          ((s.link k).state = .sparing →
            (t.counter ⟨0x01, k.val, 36⟩).count = min (2 ^ 48 - 1) ((s.counter ⟨0x01, k.val, 36⟩).count + 1)) ∧
          (∀ j, j ≠ k → t.link j = s.link j) ∧ t.inside = s.inside)) ∧
    (∀ (b : BulkId),
      let c := (s.bulkPort b).out.choose s.now
        (fun p => decide (p.beats ≤ (s.bulkPort b).credit (vcOf p.hdr.cls)) && s.mayStart (BitVec.ofNat 8 (0x40 + b.val)) p) s.weight
      (c = none → ∃ t, exec (.hostOutputSelect b) s = .next t ∧
        t.bulkPort b = { s.bulkPort b with out := { (s.bulkPort b).out with sending := none } } ∧
        (∀ c, c ≠ b → t.bulkPort c = s.bulkPort c) ∧ { t with bulk := s.bulk } = s) ∧
      ∀ q o, c = some (q, o) →
        (q.pkt.beats ≤ (s.bulkPort b).credit (vcOf q.pkt.hdr.cls) →
          ∃ t, exec (.hostOutputSelect b) s = .next t ∧ (t.bulkPort b).out = { o with sending := some q.pkt } ∧
            (t.bulkPort b).credit (vcOf q.pkt.hdr.cls) = (s.bulkPort b).credit (vcOf q.pkt.hdr.cls) - q.pkt.beats ∧
            (∀ c, c ≠ b → t.bulkPort c = s.bulkPort c) ∧ { t.quiet with bulk := s.bulk } = s.quiet) ∧
        ((s.bulkPort b).credit (vcOf q.pkt.hdr.cls) < q.pkt.beats →
          ∃ t, exec (.hostOutputSelect b) s = .next t ∧ (t.bulkPort b).out = { o with sending := none } ∧
            (t.bulkPort b).credits = (s.bulkPort b).credits ∧ { t.quiet with bulk := s.bulk } = s.quiet)) ∧
    (∀ e : Half, ∃ t, exec (.syncPortEvent e) s = .next t ∧ t.quiet = s.quiet ∧
      ((s.queue 2).cfg.hostWrites = false → (s.queue 2).items.length + 1 ≤ (s.queue 2).capacity →
        (t.queue 2).items = (s.queue 2).items ++ packetItems (s.queue 2).sequence (s.queue 2).cfg.priority 0x0007#16
          [leBytes 2 e.toNat ++ List.replicate 6 0#8 ++ leBytes 8 s.now]))

/-! ### Streams (R58 to R210) -/

/-- Opens: a request waits for the open requests stamped before it, is granted a slot or refused at its stamp, and is answered 512
ticks later with the event's body, the stream LIVE or HOLDING; a CLOSED slot is FREE after 4,096 ticks, its generation one
higher and its old handle stale (R59 to R69, R73, R74). -/
def Obligations.Opens : Prop :=
  ∀ (s : State),
    (∀ (p : MPort) (n : Fin 32), s.Ready p n 0x0201 64 →
      let r := parseOpen (s.slot p n).body
      (s.openPacketBefore (s.slot p n).accept = true → exec (.streamOpen p n) s = .next s) ∧
      (s.openPacketBefore (s.slot p n).accept = false →
        let status := s.openStatus r (s.slot p n).accept
        ∃ t, exec (.streamOpen p n) s = .next t ∧ (t.slot p n).owned = true ∧ (t.slot p n).started = true ∧
          (t.slot p n).mem = (s.slot p n).mem ∧ t.offStreams = s.offStreams ∧
          (status = Status.ok → s.Granted t r (s.slot p n).accept (slotOrder p n) (some (p, n))) ∧
          (status ≠ Status.ok → s.TurnedAway t r (s.slot p n).accept (slotOrder p n) (some (p, n)) status))) ∧
    (∀ a, firstOpen s.plane.inbox = some a → s.openCmdBefore a.stamp = false →
      let r := parseOpen a.pkt.payload
      ∃ t, exec .streamControlPacket s = .next t ∧ t.offStreams = s.offStreams ∧ t.ctl.mbox = s.ctl.mbox ∧
        t.plane = { s.plane with inbox := s.plane.inbox.erase a } ∧
        (s.openStatus r a.stamp = Status.ok → s.Granted t r a.stamp (edgeOrder a.edge) none) ∧
        (s.openStatus r a.stamp ≠ Status.ok → s.TurnedAway t r a.stamp (edgeOrder a.edge) none (s.openStatus r a.stamp))) ∧
    (∀ a, firstOpen s.plane.inbox = some a → s.openCmdBefore a.stamp = true → exec .streamControlPacket s = .next s) ∧
    (∀ o rest k st, s.streams.opens = o :: rest → s.effStamp o.stamp + 512 ≤ s.now → o.slot = some k →
      aget k s.streams.table = some st → st.state = .opening →
      ∃ t st', exec .openCommit s = .next t ∧ s.OnlyStream t k st' ∧ t.streams.opens = rest ∧
        st'.state = (if st.req.awaitIngress then .holding else .live) ∧ st'.boundary = s.now ∧
        { st'.bare with state := st.state } = st.bare ∧
        (∀ p n, o.mailbox = some (p, n) → s.Answered t p n Status.ok (Event.body
          { kind := 1, tenant := o.req.tenant, node := s.aon.node, tag := o.req.tag, handle := st.handle.toNat,
            stamp := o.stamp, live := o.live }))) ∧
    (∀ o rest k st, s.streams.opens = o :: rest → s.effStamp o.stamp + 512 ≤ s.now → o.slot = some k →
      aget k s.streams.table = some st → st.state ≠ .opening →
      ∃ t, exec .openCommit s = .next t ∧ aget k t.streams.table = some st ∧ t.streams.opens = rest ∧ t.offStreams = s.offStreams) ∧
    (∀ o rest, s.streams.opens = o :: rest → s.now < s.effStamp o.stamp + 512 → exec .openCommit s = .next s) ∧
    (∀ o rest, s.streams.opens = o :: rest → s.effStamp o.stamp + 512 ≤ s.now → o.slot = none →
      ∃ t, exec .openCommit s = .next t ∧ t.streams.table = s.streams.table ∧ t.streams.opens = rest ∧
        t.offStreams = s.offStreams ∧
        (∀ p n, o.mailbox = some (p, n) → s.Answered t p n o.status (Event.body
          { kind := 2, status := o.status, tenant := o.req.tenant, node := s.aon.node, tag := o.req.tag, stamp := o.stamp,
            live := o.live, retry := o.retryAfter }))) ∧
    (∀ k st, s.dueFree = some (k, st) → s.cast.resetting = none →
      ∃ t, exec .slotFree s = .next t ∧ aget k t.streams.table = none ∧ (∀ j, j ≠ k → aget j t.streams.table = aget j s.streams.table) ∧
        t.generation k = (s.generation k + 1) % 2 ^ 21 ∧ (∀ j, j ≠ k → t.generation j = s.generation j) ∧
        t.streamOf (s.handleOf k).toNat = none ∧ t.streams.freed = s.streams.freed ++ [k] ∧
        t.streams.orphans = s.streams.orphans ++ s.orphansOf k st ∧ { t with streams := s.streams, eng := s.eng } = s) ∧
    (s.dueFree = none → exec .slotFree s = .next s)

/-- Contributions: a host feature record waits for the boundary 1,024 ticks after its stamp (R191); an ingress contribution is
kept for the streams that claim it, once per handle and before the cutoff (R84); a probe record is kept or discarded as its
stream's cutoff and index say, what is discarded counts in the stream's word 8 at its next boundary (R71, R78, R83, R285); at its
cutoff a missing ingress verdict takes its late default (R55, R84); after 16,777,216 ticks a contribution leaves
(R84). -/
def Obligations.Contributions : Prop :=
  ∀ (s : State),
    (∀ a u k st, s.takeInbox (fun a => decide (a.pkt.hdr.port = 0xD1#8)) = some (a, u) → 1 ≤ a.pkt.hdr.cls.toNat →
      a.pkt.hdr.cls.toNat ≤ 6 → s.streamOf (field a.pkt.payload 0 8) = some (k, st) → 1 ≤ field a.pkt.payload 8 2 →
      field a.pkt.payload 8 2 ≤ 60 → 16 + 8 * field a.pkt.payload 8 2 ≤ a.pkt.payload.length →
      ∃ t w, exec .hostFeaturePacket s = .next t ∧ w.code = 0x0205 ∧ w.from? = none ∧ w.accept = a.stamp ∧
        w.due = a.stamp + 1024 ∧ w.body = a.pkt.payload ∧ t.ctl.waiting = insertWaiting w s.ctl.waiting ∧
        { t with ctl := { t.ctl with waiting := s.ctl.waiting } } = u) ∧
    (∀ a u, s.takeInbox (fun a => decide (a.pkt.hdr.port = 0xD1#8)) = some (a, u) →
      (a.pkt.hdr.cls.toNat < 1 ∨ 6 < a.pkt.hdr.cls.toNat → exec .hostFeaturePacket s = .next u) ∧
      (1 ≤ a.pkt.hdr.cls.toNat → a.pkt.hdr.cls.toNat ≤ 6 → s.streamOf (field a.pkt.payload 0 8) = none →
        exec .hostFeaturePacket s = .next (u.count1 0x14 0 0)) ∧
      (∀ k st, 1 ≤ a.pkt.hdr.cls.toNat → a.pkt.hdr.cls.toNat ≤ 6 → s.streamOf (field a.pkt.payload 0 8) = some (k, st) →
        field a.pkt.payload 8 2 < 1 ∨ 60 < field a.pkt.payload 8 2 ∨ a.pkt.payload.length < 16 + 8 * field a.pkt.payload 8 2 →
        ∃ t, exec .hostFeaturePacket s = .next t ∧ t.quiet = u.quiet ∧ t.latched 7 = true)) ∧
    (∀ a u, s.takeInbox (fun a => s.contributionPort a.pkt.hdr.port) = some (a, u) → u.isIngress a.pkt.payload = true →
      let h := field a.pkt.payload 0 8
      (s.streams.ingressWaits.any (fun w => decide (w.handle.toNat = h)) = false → s.bufferUse < 65536 →
        ∃ t w, exec .contributionArrive s = .next t ∧ t.streams.ingressWaits = s.streams.ingressWaits ++ [w] ∧
          w.handle = BitVec.ofNat 48 h ∧ w.arrival = a.stamp ∧ (w.claimed = true ↔ ∃ e ∈ s.streams.table, e.2.claims h = true) ∧
          w.body = parseIngress a.pkt.payload ∧ { t.offStreams with eng := s.eng } = s.offStreams) ∧
      (s.streams.ingressWaits.any (fun w => decide (w.handle.toNat = h)) = true ∨ 65536 ≤ s.bufferUse →
        (s.streams.table.any (fun e => e.2.claims h) = false → exec .contributionArrive s = .next u) ∧
        (∀ k st, s.streams.table.filter (fun e => e.2.claims h) = [(k, st)] → aget k s.streams.table = some st →
          ∃ t, exec .contributionArrive s = .next t ∧ t.streams.ingressWaits = s.streams.ingressWaits ∧
            s.OnlyStream t k { st with owed := st.owed ++ [(8, 1)] })) ∧
      (s.streams.ingressWaits.any (fun w => decide (w.handle.toNat = h)) = false → s.bufferUse < 65536 →
        (s.streams.table.any (fun e => e.2.claims h) = false →
          ∃ t w, exec .contributionArrive s = .next t ∧ t.streams.ingressWaits = s.streams.ingressWaits ++ [w] ∧
            w.handle = BitVec.ofNat 48 h ∧ w.arrival = a.stamp ∧ w.claimed = false ∧ w.body = parseIngress a.pkt.payload ∧
            { t with streams := { t.streams with ingressWaits := s.streams.ingressWaits } } = u) ∧
        (∀ k st, s.streams.table.filter (fun e => e.2.claims h) = [(k, st)] → aget k s.streams.table = some st →
          st.ingress = none → (∀ c, u.ingressCutoff st = some c → a.stamp < c) →
          ∃ t, exec .contributionArrive s = .next t ∧
            t.streams.table = aset k { st with ingress := some (parseIngress a.pkt.payload), ingressArrival := some a.stamp }
              s.streams.table ∧
            { t with streams := s.streams } = u) ∧
        (∀ k st, s.streams.table.filter (fun e => e.2.claims h) = [(k, st)] → aget k s.streams.table = some st →
          st.ingress ≠ none ∨ (∃ c, u.ingressCutoff st = some c ∧ c ≤ a.stamp) →
          ∃ t, exec .contributionArrive s = .next t ∧ s.OnlyStream t k { st with owed := st.owed ++ [(8, 1)] } ∧
            (t.counter ⟨0x10, 0x15, 1⟩).count = min (2 ^ 48 - 1) ((s.counter ⟨0x10, 0x15, 1⟩).count + 1)))) ∧
    (∀ c a u k st,
      (c = .probeRecordPacket ∧ s.takeInbox (fun a => decide (a.pkt.hdr.port = 0xD2#8) && !s.isIngress a.pkt.payload) = some (a, u)) ∨
        (c = .contributionArrive ∧ s.takeInbox (fun a => s.contributionPort a.pkt.hdr.port) = some (a, u) ∧
          u.isIngress a.pkt.payload = false) →
      a.pkt.payload.length = 128 → field a.pkt.payload 0 8 ≠ 0 → s.streamOf (field a.pkt.payload 0 8) = some (k, st) →
      let r := parseProbe a.pkt.payload a.pkt.hdr.source
      let n := field a.pkt.payload 8 4
      (s.probeFate st n a.stamp r = .keep →
        ∃ t, exec c s = .next t ∧
          t.streams.buffer = s.streams.buffer ++ [{ handle := st.handle, index := n, arrival := a.stamp, probe := r }] ∧
          { t with streams := { t.streams with buffer := s.streams.buffer } } = u) ∧
      (s.probeFate st n a.stamp r ≠ .keep →
        ∃ t, exec c s = .next t ∧ t.streams.buffer = s.streams.buffer ∧
          s.OnlyStream t k { st with owed := st.owed ++ [(8, 1)] } ∧
          (s.probeFate st n a.stamp r = .late →
            (t.counter ⟨0x10, 0x14, 1⟩).count = min (2 ^ 48 - 1) ((s.counter ⟨0x10, 0x14, 1⟩).count + 1)))) ∧
    (∀ k st, s.streams.table.find? (fun e => s.ingressOverdue e.2) = some (k, st) →
      ∃ t r, exec .ingressContributionCutoff s = .next t ∧
        s.OnlyStream t k { st with ingress := some r, owed := st.owed ++ [(7, 1)] } ∧ r.late = true ∧
        r.verdict = (if ((s.policyOf st).map (fun p => p.failOpenFor 0x15 true)).getD false then 0 else 1) ∧ t.latched 2 = true) ∧
    ((∀ e ∈ s.streams.table, s.ingressOverdue e.2 = false) → exec .ingressContributionCutoff s = .next s) ∧
    (∃ t, exec .ingressUnclaimedTimeout s = .next t ∧
      (∀ w, w ∈ t.streams.ingressWaits ↔ w ∈ s.streams.ingressWaits ∧ s.now < w.arrival + 16777216) ∧
      { t.quiet with streams := s.streams } = s.quiet)

/-- Ingress text: text stamped in the default state is screened and goes to the host, later text that its stream can take waits at
its edge and what is no candidate is dropped and counted, a demoted template packet too (R27, R29, R60, R89 to R95); an accepted packet's bytes join the stream's text,
close a chunk and end a segment (R94, R95, R110, R118); a chunk encoded before its release tick is ready, unless a
poisoned word of its tables was met, and a late one is discarded (R40, R41, R470; which tables an encoding meets is a free value,
log 57). -/
def Obligations.IngressText : Prop :=
  ∀ (s : State),
    (∀ a u, s.takeInbox (fun a => isText a.pkt && !s.textWaits a.pkt.hdr.handle) = some (a, u) → s.inDefault a.stamp = false →
      (u.front = false → ∃ t, exec .textPacket s = .next t ∧ t.inside = s.inside ∧ t.plane = u.plane) ∧
      (u.front = true →
        (∀ k st p b c d, u.textFate a = .candidate k st p b c d →
          ∃ t, exec .textPacket s = .next t ∧ t.streams = { s.streams with textWait := s.streams.textWait ++ [a] } ∧
            t.offStreams = s.offStreams ∧ t.plane = u.plane ∧ t.bulk = s.bulk ∧ (u.demotes a = true → t.latched 4 = true)) ∧
        (u.textFate a = .malformed →
          ∃ t, exec .textPacket s = .next t ∧ t.quiet = (u.freeText a).quiet ∧ t.latched 4 = true) ∧
        (∀ k st, u.textFate a = .gap k st →
          ∃ t, exec .textPacket s = .next t ∧ t.streams.table = s.streams.table ∧ t.offStreams = s.offStreams ∧ t.latched 4 = true) ∧
        (u.textFate a = .stale ∨ u.textFate a = .duplicate →
          ∃ t, exec .textPacket s = .next t ∧ t.quiet = (u.freeText a).quiet ∧ (u.demotes a = true → t.latched 4 = true)))) ∧
    (∀ a u, s.takeInbox (fun a => isText a.pkt && !s.textWaits a.pkt.hdr.handle) = some (a, u) → s.inDefault a.stamp = true →
      (a.pkt.hdr.multicast = false → a.pkt.hdr.cls ≠ 0#3 → field a.pkt.payload 4 2 = 0 ∨ 240 < field a.pkt.payload 4 2 →
        exec .textPacket s = .next ((u.freeText a).countN 0x17 0 4 1)) ∧
      (a.pkt.hdr.multicast = true ∨ a.pkt.hdr.cls = 0#3 → ∃ t, exec .textPacket s = .next t ∧ t.inside = s.inside ∧ t.plane = u.plane) ∧
      (∃ t, exec .textPacket s = .next t ∧ t.streams.table = s.streams.table ∧ t.offStreams = s.offStreams)) ∧
    (∀ a, s.nextText = some a →
      let v : State := { s with streams := { s.streams with textWait := s.streams.textWait.erase a } }
      (∀ k st p b c d, v.textFate a ≠ .candidate k st p b c d) →
      ∃ t, exec .textPacketAccept s = .next t ∧ t.streams.table = s.streams.table ∧
        t.streams.textWait = s.streams.textWait.erase a ∧ t.offStreams = s.offStreams) ∧
    (s.nextText = none → exec .textPacketAccept s = .next s) ∧
    (∀ a k st p b c d, s.nextText = some a →
      ({ s with streams := { s.streams with textWait := s.streams.textWait.erase a } } : State).textFate a =
        .candidate k st p b c d →
      let len := field a.pkt.payload 4 2
      let ends := fieldBit a.pkt.payload 8 2 0
      ∃ t st', exec .textPacketAccept s = .next t ∧ t.streams.table = aset k st' s.streams.table ∧
        t.streams.textWait = s.streams.textWait.erase a ∧ st'.inp.textWrite = st.inp.textWrite + len ∧
        st'.inp.segment = (if ends then (st.inp.segment + 1) % 65536 else st.inp.segment) ∧
        st'.inp.segmentOpen = !ends ∧
        st'.inp.chunks.length = st.inp.chunks.length + (if closesChunk st.inp b a then 1 else 0) ∧
        st'.inp.nextChunk = st.inp.nextChunk + (if closesChunk st.inp b a then 1 else 0) ∧
        st'.inp.verdicts.length = st.inp.verdicts.length + (if ends then 1 else 0) ∧
        (∀ v ∈ st'.inp.verdicts, v ∈ st.inp.verdicts ∨ v.release = s.effStamp s.now + p.delay 2 ∧
          v.cutoff = v.release - p.cb ∧ v.segment = st.inp.segment ∧ v.epoch = p.epoch) ∧
        { st' with inp := st.inp } = st ∧ { t.offStreams with eng := s.eng } = s.offStreams) ∧
    (∀ (u : Fin 8) k n rest st c, s.unitQueue u = (k, n) :: rest → aget k s.streams.table = some st →
      st.inp.chunks.find? (fun c => decide (c.ordinal = n)) = some c →
      let ok := !c.released && decide (s.now < c.release) && (s.tablePoison 1 st.handle n).isNone
      ∃ t st', exec (.chunkEncodeDone u) s = .next t ∧ t.streams.table = aset k st' s.streams.table ∧ t.unitQueue u = rest ∧
        st'.inp.chunks = st.inp.chunks.map (fun x => if x.ordinal = n then { x with ready := ok, late := !ok } else x) ∧
        (c.released = true ∨ c.release ≤ s.now →
          (t.counter ⟨0x10, 1, 1⟩).count = min (2 ^ 48 - 1) ((s.counter ⟨0x10, 1, 1⟩).count + 1)) ∧
        { st' with inp := { st'.inp with chunks := st.inp.chunks } } = st ∧ { t.offStreams with eng := s.eng } = s.offStreams)

/-- The boundaries of an ingress stream: at its release tick a chunk that is ready commits its tokens and its list goes out, one
that is not ready is void, and without `fail_open` halts the stream with reason 9, one with forged text halts it with reason 14,
and the commit of the prompt's last chunk makes the stream DRAINING (R55, R102, R114 to R116, R121); a segment's verdict that halts
ends the stream with reason 5, a late one without `fail_open` too, and the last segment's closes it (R118 to R121). -/
def Obligations.IngressBoundaries : Prop :=
  ∀ (s : State),
    (∀ o u, s.dueOrphan (fun o => !o.sample) = some (o, u) →
      ∃ t, exec .chunkRelease s = .next t ∧ t.streams.table = s.streams.table ∧
        t.streams.orphans = s.streams.orphans.erase o ∧ t.offStreams = s.offStreams) ∧
    (∀ k st c p, s.dueOrphan (fun o => !o.sample) = none → s.dueChunk = some (k, st, c) → st.poisoned = none →
      s.policyByEpoch c.epoch = some p →
      (st.ended = false → c.void = false → c.ready = true → c.code.forged = false → st.running = true →
        ∃ t st', exec .chunkRelease s = .next t ∧ t.streams.table = aset k st' s.streams.table ∧
          st'.nextIndex = st.inp.nextIndex + c.code.ids.length ∧ st'.inp.nextIndex = st.inp.nextIndex + c.code.ids.length ∧
          (c.code.ids ≠ [] → st'.committed = st.inp.nextIndex + c.code.ids.length - 1 ∧ st'.empty = false) ∧
          st'.state = (if c.promptEnd then .draining else st.state) ∧ st'.boundary = s.now ∧ st'.epoch = p.epoch ∧
          (∃ x ∈ st'.inp.chunks, x.ordinal = c.ordinal ∧ x.released = true ∧ x.void = false ∧ x.firstIndex = st.inp.nextIndex) ∧
          { t.offStreams with eng := s.eng } = s.offStreams) ∧
      (st.ended = false → c.void = false → c.ready = false → p.failOpen 1 = false →
        ∃ t st', exec .chunkRelease s = .next t ∧ t.streams.table = aset k st' s.streams.table ∧
          (st'.state = .halted ∨ st'.state = .closed) ∧ st'.stopReason = (if st.stopReason = 0 then 9 else st.stopReason) ∧
          st'.nextIndex = st.nextIndex ∧ st'.committed = st.committed ∧ t.latched 2 = true ∧
          { t.offStreams with eng := s.eng } = s.offStreams) ∧
      (st.ended = false → c.void = false → c.ready = true → c.code.forged = true →
        ∃ t st', exec .chunkRelease s = .next t ∧ t.streams.table = aset k st' s.streams.table ∧
          (st'.state = .halted ∨ st'.state = .closed) ∧ st'.stopReason = (if st.stopReason = 0 then 14 else st.stopReason) ∧
          st'.nextIndex = st.nextIndex ∧ st'.committed = st.committed ∧ t.latched 4 = true ∧
          { t.offStreams with eng := s.eng } = s.offStreams) ∧
      (st.ended = false → c.void = true ∨ (c.ready = false ∧ p.failOpen 1 = true) →
        ∃ t st', exec .chunkRelease s = .next t ∧ t.streams.table = aset k st' s.streams.table ∧
          (st.running = true → st'.state = (if c.promptEnd then .draining else st.state)) ∧
          st'.nextIndex = st.nextIndex ∧ st'.committed = st.committed ∧ (c.void = false → t.latched 2 = true) ∧
          (∃ x ∈ st'.inp.chunks, x.ordinal = c.ordinal ∧ x.released = true ∧ x.void = true) ∧
          { t.offStreams with eng := s.eng } = s.offStreams) ∧
      (st.ended = true →
        ∃ t st', exec .chunkRelease s = .next t ∧ t.streams.table = aset k st' s.streams.table ∧ st'.ended = true ∧
          st'.nextIndex = st.nextIndex ∧ st'.committed = st.committed ∧
          (∃ x ∈ st'.inp.chunks, x.ordinal = c.ordinal ∧ x.released = true ∧ x.void = true) ∧
          { t.offStreams with eng := s.eng } = s.offStreams)) ∧
    (∀ k st v p, s.dueSegment = some (k, st, v) →
      (st.inp.chunks.any (fun c => !c.released && decide (c.release ≤ v.release)) = true →
        exec .segmentVerdictRelease s = .next s) ∧
      (st.inp.chunks.any (fun c => !c.released && decide (c.release ≤ v.release)) = false → st.poisoned = none → st.ended = false →
        s.policyByEpoch v.epoch = some p →
        let acts : Option Actions := match v.verdict with | .ready a => some a | _ => none
        let halts := match acts with | some a => a.halt | none => !p.failOpen 2
        ∃ t st', exec .segmentVerdictRelease s = .next t ∧ t.streams.table = aset k st' s.streams.table ∧
          { t.offStreams with eng := s.eng } = s.offStreams ∧ (acts = none → t.latched 2 = true ∧ t.latched 11 = true) ∧
          (halts = true → (st'.state = .halted ∨ st'.state = .closed) ∧
            st'.stopReason = (if st.stopReason = 0 then 5 else st.stopReason) ∧ st'.inp.verdicts = [] ∧ st'.inp.contributed = true) ∧
          (halts = false → st'.stopReason = st.stopReason ∧ st'.inp.segmentsDone = st.inp.segmentsDone + 1 ∧
            st'.inp.tags = st.inp.tags ++ (match acts with | some a => a.tags | none => []) ∧
            (v.promptEnd = true → st'.state = .closed ∧ st'.closedAt = s.now ∧ st'.inp.contributed = true) ∧
            (v.promptEnd = false → st'.inp.contributed = st.inp.contributed ∧ (st.running = true → st'.state = st.state)))))

/-- Sampling: a logit packet joins its set, and the one that completes it gives the set its logit stamp and the step the stream's
state of then, the bias cleared at the first step under a new policy (R294 to R297, R302, R322); a set stamped before the open's
commit is dropped, a packet that does not fit its stream is counted (R65, R295); an incomplete set leaves after `logit_window`
(R296); a step done before its release tick stands, unless it met a poisoned word of its tables (which one a step meets is a free
value, log 57), and a late one is discarded (R40, R41, R470); at its release tick, after the commits of that tick, a step appends
its tokens, each with a verdict due after VL, or none with the reason of R320, its halt due after VL (R307, R317 to R320). -/
def Obligations.Sampling : Prop :=
  ∀ (s : State) (k : SlotId) (st : Stream),
    (∀ a u p b, s.takeInbox (fun a => decide (a.pkt.hdr.port = 0xD3#8) && s.logitReady a) = some (a, u) → a.pkt.hdr.cls = 0#3 →
      s.policies.any (fun p => p.role 1) = true →
      let h := parseLogit a.pkt.payload
      s.named h.handle = .stream k st → s.policyFor st a.stamp = some p → s.samplerTables p k = some b →
      (∀ y, st.openSet = some y → a.stamp < y.firstStamp + b.logitWindow) →
      let fits := st.req.egress = true ∧ h.fits a.pkt.payload.length = true ∧ h.first + h.count ≤ b.vocab ∧
        h.drafts ≤ st.sampling.drafts ∧ (∀ y, st.openSet = some y → y.step = h.step → y.repeats h = false ∧ y.agrees h = true)
      let room := s.logitUse p (p.samplerHalf k) + h.count * logitSize (decide (h.format = 1)) ≤ 16777216
      let fresh : LogitSet :=
        { step := h.step, prevIndex := h.prevIndex, drafts := h.drafts, bf16 := decide (h.format = 1), draftIds := h.draftIds,
          firstStamp := a.stamp, pieces := [] }
      let old := match st.openSet with | some y => (if y.step = h.step then y else fresh) | none => fresh
      let set : LogitSet := { old with pieces := old.pieces ++
        [{ position := h.position, first := h.first, values := logitEntries h a.pkt.payload }] }
      (fits → room →
        (set.received < b.vocab * (set.drafts + 1) →
          ∃ t, exec .logitPacket s = .next t ∧ s.OnlyStream t k { st with openSet := some set }) ∧
        (b.vocab * (set.drafts + 1) ≤ set.received → s.effStamp a.stamp < st.openStamp + 512 →
          ∃ t, exec .logitPacket s = .next t ∧ s.OnlyStream t k { st with openSet := none }) ∧
        (b.vocab * (set.drafts + 1) ≤ set.received → st.openStamp + 512 ≤ s.effStamp a.stamp →
          ∃ t x st', exec .logitPacket s = .next t ∧ s.OnlyStream t k st' ∧ st'.steps = st.steps ++ [x] ∧ st'.openSet = none ∧
            st'.rngNext = st.rngNext + x.result.positions ∧ st'.sampleEpoch = p.epoch ∧ st'.tokens = st.tokens ∧
            x.set = set ∧ x.stamp = s.effStamp a.stamp ∧ x.release = s.effStamp a.stamp + p.delay 3 ∧ x.done = false ∧
            x.released = false ∧ x.epoch = p.epoch ∧ x.highest = st.highest ∧ x.sampling = st'.sampling ∧
            x.result = sampleStep b p.tables.egress x.sampling st.rngNext
              (if x.sampling.grammarId ≠ 0xFFFF then some x.grammar else none) set ∧
            (st.sampleEpoch = p.epoch → x.sampling = st.sampling ∧ x.grammar = st.workGrammar) ∧
            (st.sampleEpoch ≠ p.epoch → x.sampling.biasVector = 0xFFFF#16 ∧ x.sampling.biasScale = 0#32 ∧
              (x.grammarDropped = true ↔ st.sampling.grammarId ≠ 0xFFFF ∧
                (p.grammarContent st.sampling.grammarId = none ∨ p.grammarContent st.sampling.grammarId ≠ st.grammarContent)) ∧
              (x.grammarDropped = true → x.sampling.grammarId = 0xFFFF) ∧
              (x.grammarDropped = false → x.sampling.grammarId = st.sampling.grammarId ∧ x.grammar = st.workGrammar)))) ∧
      (¬ fits ∨ ¬ room → ∃ t, exec .logitPacket s = .next t ∧ t.quiet = u.quiet ∧ t.latched 10 = true)) ∧
    (∀ a u, s.takeInbox (fun a => decide (a.pkt.hdr.port = 0xD3#8) && s.logitReady a) = some (a, u) →
      (a.pkt.hdr.cls ≠ 0#3 ∨ s.policies.any (fun p => p.role 1) = false →
        ∃ t, exec .logitPacket s = .next t ∧ t.quiet = u.quiet ∧ t.latched 10 = true) ∧
      (a.pkt.hdr.cls = 0#3 → s.policies.any (fun p => p.role 1) = true → s.named (field a.pkt.payload 0 8) = .stale →
        exec .logitPacket s = .next (u.count1 0x14 0 0))) ∧
    (aget k s.streams.table = some st →
      (∀ x b, st.openSet = some x → (s.policyOf st).bind (fun p => p.tables.sampler) = some b →
        (x.firstStamp + b.logitWindow ≤ s.now →
          ∃ t, exec (.logitWindowExpiry k) s = .next t ∧ s.OnlyStream t k { st with openSet := none } ∧ t.latched 10 = true) ∧
        (s.now < x.firstStamp + b.logitWindow → exec (.logitWindowExpiry k) s = .next s)) ∧
      (st.openSet = none → exec (.logitWindowExpiry k) s = .next s) ∧
      (∀ x, st.steps.find? (fun x => !x.done && !x.late) = some x →
        (x.released = false →
          ∃ t st', exec (.samplerStepDone k) s = .next t ∧ s.OnlyStream t k st' ∧ { st' with steps := st.steps } = st ∧
            (let ok := decide (s.now < x.release) && (s.tablePoison 3 st.handle x.stamp).isNone
             { x with done := ok, late := !ok } ∈ st'.steps)) ∧
        (x.released = true →
          ∃ t, exec (.samplerStepDone k) s = .next t ∧ s.OnlyStream t k { st with steps := st.steps.erase x })) ∧
      (∀ o u, s.dueOrphan (fun o => o.sample && decide (o.slot = k)) = some (o, u) →
        ∃ t, exec (.sampleRelease k) s = .next t ∧ t.streams.table = s.streams.table ∧
          t.streams.orphans = s.streams.orphans.erase o ∧ t.offStreams = s.offStreams) ∧
      (∀ x, s.dueOrphan (fun o => o.sample && decide (o.slot = k)) = none → st.dueStep s.now = some x → st.owes x.release = true →
        exec (.sampleRelease k) s = .next s) ∧
      (∀ x p, s.dueOrphan (fun o => o.sample && decide (o.slot = k)) = none → st.dueStep s.now = some x →
        st.owes x.release = false → s.policyFor st x.release = some p →
        let overflows := x.hasGrammar = true ∧ st.sampling.grammarId ≠ 0xFFFF ∧ ∃ id b rest g, x.result.tokens = (id, b) :: rest ∧
          (s.policyByEpoch x.epoch).bind (fun q => s.samplerTables q k) = some g ∧
          grammarStep g ((p.tables.egress.map (fun e => e.endsAt id)).getD false) st.workGrammar id = none
        (st.noToken x = none → ¬ overflows →
          ∃ t st', exec (.sampleRelease k) s = .next t ∧ s.OnlyStream t k st' ∧ st.nextIndex < st'.nextIndex ∧
            st'.nextIndex ≤ st.nextIndex + x.result.tokens.length ∧
            st'.tokens.length = st.tokens.length + (st'.nextIndex - st.nextIndex) ∧
            (∀ y ∈ st'.tokens.drop st.tokens.length, y.stamp = x.release ∧ y.epoch = p.epoch ∧
              y.release = s.effStamp x.release + p.delay 4 ∧ y.cutoff = y.release - p.cb) ∧
            st'.appended = some (st'.nextIndex - 1) ∧ st'.committed = st.committed ∧ st'.text = st.text ∧
            st'.rngReleased = st.rngReleased + x.result.positions) ∧
        (∀ r, st.noToken x = some r ∨ (st.noToken x = none ∧ overflows ∧ r = ⟨0, 7, true⟩) →
          ∃ t st', exec (.sampleRelease k) s = .next t ∧ s.OnlyStream t k st' ∧ st'.tokens = st.tokens ∧
            st'.nextIndex = st.nextIndex ∧
            st'.stepHalts = (if r.halts then st.stepHalts ++ [{ due := s.effStamp x.release + p.delay 4, reason := r.reason }] else st.stepHalts))))

/-- The token's contributions of the detokenizer and the awl, on a half's lane: the detokenizer's is ready before the cutoff, unless it
met a poisoned word of its tables (which one is a free value, log 57), and late after it (R172, R470); an item enters a lane's free
position once its instance's last one has left, behind the bytes held ahead of it, and the one that ends first leaves and gives its
result to its token or chunk (R171, R173, R175, R182); a re-read that succeeds holds the item longer in its position, and one that
fails marks the result late (R179, R183). -/
def Obligations.AwlItems : Prop :=
  ∀ (s : State),
    (∀ k st x, aget k s.streams.table = some st → st.tokens.find? (fun t => t.detok.isNone && !(st.ended)) = some x →
      ∃ t st', exec (.detokenizerContributionReady k) s = .next t ∧ t.streams.table = aset k st' s.streams.table ∧
        (∃ y ∈ st'.tokens, y.index = x.index ∧
          y.detok = some (decide (s.now < x.cutoff) && x.inputs.isNone && (s.tablePoison 0x10 st.handle x.index).isNone)) ∧
        { st' with tokens := st.tokens } = st ∧ { t.quiet with streams := s.streams, eng := s.eng } = s.quiet) ∧
    (∀ h l i rest, (s.awlLane h l).queue = i :: rest →
      ((s.awlLane h l).inPlace.length < 4 → (∀ x ∈ (s.awlLane h l).inPlace, ¬ (x.slot = i.slot ∧ x.position = i.position)) →
        ∃ t, exec (.awlItemAdmit h l) s = .next t ∧
          t.awlLane h l =
            { queue := rest, inPlace := (s.awlLane h l).inPlace ++ [{ i with due := s.now + 4 * i.bytes.length }] } ∧
          (t.counter ⟨9, halfCode h, l.val⟩).count = max (s.counter ⟨9, halfCode h, l.val⟩).count i.ahead ∧
          (∀ g m, (g, m) ≠ (h, l) → t.awlLane g m = s.awlLane g m) ∧ { t.quiet with eng := s.eng } = s.quiet) ∧
      (4 ≤ (s.awlLane h l).inPlace.length ∨ (∃ x ∈ (s.awlLane h l).inPlace, x.slot = i.slot ∧ x.position = i.position) →
        exec (.awlItemAdmit h l) s = .next s)) ∧
    (∀ h l, (s.awlLane h l).queue = [] → exec (.awlItemAdmit h l) s = .next s) ∧
    (∀ h l i, (s.awlLane h l).first = some i →
      (∃ t, exec (.awlItemDone h l) s = .next t ∧
        t.awlLane h l = { s.awlLane h l with inPlace := (s.awlLane h l).inPlace.erase i } ∧
        (∀ g m, (g, m) ≠ (h, l) → t.awlLane g m = s.awlLane g m) ∧
        (∀ k, k ≠ i.slot → aget k t.streams.table = aget k s.streams.table) ∧
        { t.quiet with eng := s.eng, streams := s.streams } = s.quiet) ∧
      (∀ st x, aget i.slot s.streams.table = some st → i.ingress = false →
        st.tokens.find? (fun t => decide (t.index = i.ordinal)) = some x →
        ∃ t st', exec (.awlItemDone h l) s = .next t ∧ t.streams.table = aset i.slot st' s.streams.table ∧
          { st' with tokens := st.tokens } = st ∧ st'.tokens.length = st.tokens.length ∧
          (∃ y ∈ st'.tokens, y.index = x.index ∧ y.awlLeft = x.awlLeft - 1 ∧
            (x.awlLeft = 1 →
              y.awlReady = (decide (s.now < x.cutoff) && x.inputs.isNone && !x.awl.any (fun r => r.late))))) ∧
      (∀ st c, aget i.slot s.streams.table = some st → i.ingress = true →
        st.inp.chunks.find? (fun c => decide (c.ordinal = i.ordinal)) = some c →
        ∃ t st', exec (.awlItemDone h l) s = .next t ∧ t.streams.table = aset i.slot st' s.streams.table ∧
          { st' with inp := st.inp } = st ∧ st'.inp.chunks.length = st.inp.chunks.length ∧
          (∃ y ∈ st'.inp.chunks, y.ordinal = c.ordinal ∧ y.awlLeft = c.awlLeft - 1 ∧
            (c.awlLeft = 1 → y.awlReady = (!c.awl.any (fun r => r.late) &&
              (match st.inp.verdicts.find? (fun v => decide (v.lastChunk = c.ordinal)) with
                | some v => v.inputs.isNone && decide (s.now < v.cutoff)
                | none => true)))))) ∧
    (∀ h l good i st, (s.awlLane h l).first = some i → aget i.slot s.streams.table = some st →
      (good = true → s.otherCopy = true →
        ∃ t, exec (.awlReread h l good) s = .next t ∧ { t.quiet with freeUse := s.freeUse, eng := s.eng } = s.quiet ∧
          t.latched 6 = true ∧ (t.awlLane h l).queue = (s.awlLane h l).queue ∧
          (t.awlLane h l).inPlace =
            (s.awlLane h l).inPlace.map (fun x => if x = i then { x with due := x.due + 96 } else x)) ∧
      (good = false ∨ s.otherCopy = false →
        ∃ t st', exec (.awlReread h l good) s = .next t ∧ t.streams.table = aset i.slot st' s.streams.table ∧
          (s.otherCopy = true → t.latched 6 = true) ∧
          { t.quiet with streams := s.streams, freeUse := s.freeUse, eng := s.eng } = s.quiet ∧
          st'.tokens.length = st.tokens.length ∧ st'.inp.chunks.length = st.inp.chunks.length ∧
          (i.position ≠ 8 → i.ingress = false → { st' with tokens := st.tokens, workAwl := st.workAwl } = st ∧
            ∀ y ∈ st'.tokens, y.index = i.ordinal → i.position < y.awl.length →
              (y.awl[i.position]?).map (fun r => r.late) = some true) ∧
          (i.position ≠ 8 → i.ingress = true → { st' with inp := st.inp, workAwl := st.workAwl } = st ∧
            ∀ y ∈ st'.inp.chunks, y.ordinal = i.ordinal → i.position < y.awl.length →
              (y.awl[i.position]?).map (fun r => r.late) = some true) ∧
          (i.position = 8 → { st' with tokens := st.tokens, work := st.work } = st ∧
            ∀ y ∈ st'.tokens, y.index = i.ordinal → ∀ r ∈ y.awl, r.late = true)))

/-- Armature samples: a sample is admitted under the policy of its admission tick, once the host features due by then are in; it
evaluates its stream's set, 16 results, and its accumulators are committed with its token (R184, R187, R191, R193, R204, R206); under
a policy without armature tables it is delivered empty (R186); a result in time is delivered and a late one is late (R204, R205); a
node word that cannot be read gives its ensemble the late default, and the other half's copy mends it (R205, R210). -/
def Obligations.ArmatureSamples : Prop :=
  ∀ (s : State),
    (∀ a st, s.nextAdmission = some a → aget a.slot s.streams.table = some st →
      (∀ p b, s.policyFor st a.tick = some p → p.tables.armature = some b →
        (s.commandOwed st.handle.toNat a.tick = true → exec .armatureSampleAdmit s = .next s) ∧
        (∀ x, s.commandOwed st.handle.toNat a.tick = false → a.ingress = false →
          st.tokens.find? (fun t => decide (t.index = a.ordinal)) = some x →
          ∃ t st', exec .armatureSampleAdmit s = .next t ∧ s.OnlyStream t a.slot st' ∧ st'.acc = st.acc ∧
            st'.tokens.length = st.tokens.length ∧
            (∃ y ∈ st'.tokens, y.index = x.index ∧ y.armBy = p.epoch ∧ ∃ r, y.arm = some r ∧ r.length = 16) ∧
            { st' with tokens := st.tokens, workAcc := st.workAcc, armEpoch := st.armEpoch, layoutId := st.layoutId } = st) ∧
        (∀ c, s.commandOwed st.handle.toNat a.tick = false → a.ingress = true →
          st.inp.chunks.find? (fun c => decide (c.ordinal = a.ordinal)) = some c →
          ∃ t st', exec .armatureSampleAdmit s = .next t ∧ s.OnlyStream t a.slot st' ∧ st'.acc = st.acc ∧
            (∃ y ∈ st'.inp.chunks, y.ordinal = c.ordinal ∧ y.armBy = p.epoch ∧ ∃ r, y.arm = some r ∧ r.length = 16) ∧
            { st' with inp := st.inp, workAcc := st.workAcc, armEpoch := st.armEpoch, layoutId := st.layoutId } = st)) ∧
      ((∀ p, s.policyFor st a.tick = some p → p.tables.armature = none) →
        ∃ t st', exec .armatureSampleAdmit s = .next t ∧ s.OnlyStream t a.slot st' ∧
          { st' with tokens := st.tokens, inp := st.inp } = st ∧
          (a.ingress = false → ∀ y ∈ st'.tokens, y.index = a.ordinal → y.arm = some [] ∧ y.armDone = some true) ∧
          (a.ingress = true → ∀ y ∈ st'.inp.chunks, y.ordinal = a.ordinal → y.arm = some [] ∧ y.armDone = some true))) ∧
    (∀ k st, aget k s.streams.table = some st →
      (st.ended = true → exec (.armatureResult k) s = .next s) ∧
      (∀ x, st.req.egress = true → st.tokens.find? (fun t => t.arm.isSome && t.armDone.isNone) = some x →
        (st.ended = false →
          ∃ t st', exec (.armatureResult k) s = .next t ∧ s.OnlyStream t k st' ∧ { st' with tokens := st.tokens } = st ∧
            (∃ y ∈ st'.tokens, y.index = x.index ∧ y.arm = x.arm ∧
              y.armDone = some (decide (s.now < x.cutoff) && x.inputs.isNone))) ∧
        (∀ (e : Fin 16) good p n b r, s.policyByEpoch x.armBy = some p → x.arm = some r → e.val < r.length →
          p.tables.armature.bind (fun t => ((setEnsembles t st.armSet)[e.val]?).getD none) = some (n, b) →
          ∃ t st' y, exec (.armatureReread k e good) s = .next t ∧ s.OnlyStream t k st' ∧ { st' with tokens := st.tokens } = st ∧
            y ∈ st'.tokens ∧ y.index = x.index ∧ y.armDone = none ∧ (s.armCopy x.armBy = true → t.latched 7 = true) ∧
            (good = true → s.armCopy x.armBy = true → y.arm = some r ∧ y.armReread = x.armReread ++ [e.val]) ∧
            (good = false ∨ s.armCopy x.armBy = false → ∃ q, y.arm = some q ∧ q[e.val]? = some
              { value := if p.failOpenFor 0x12 true then b.neutral else b.worst, late := true, ensemble := n }))) ∧
      (∀ x, st.req.egress = false → st.inp.chunks.find? (fun c => c.arm.isSome && c.armDone.isNone) = some x →
        (st.ended = false →
          ∃ t st', exec (.armatureResult k) s = .next t ∧ s.OnlyStream t k st' ∧ { st' with inp := st.inp } = st ∧
            (∃ y ∈ st'.inp.chunks, y.ordinal = x.ordinal ∧ y.arm = x.arm ∧ y.armDone = some
              (match st.inp.verdicts.find? (fun v => decide (v.lastChunk = x.ordinal)) with
                | some v => v.inputs.isNone && decide (s.now < v.cutoff)
                | none => true))) ∧
        (∀ (e : Fin 16) good p n b r, s.policyByEpoch x.armBy = some p → x.arm = some r → e.val < r.length →
          p.tables.armature.bind (fun t => ((setEnsembles t st.armSet)[e.val]?).getD none) = some (n, b) →
          ∃ t st' y, exec (.armatureReread k e good) s = .next t ∧ s.OnlyStream t k st' ∧ { st' with inp := st.inp } = st ∧
            y ∈ st'.inp.chunks ∧ y.ordinal = x.ordinal ∧ y.armDone = none ∧ (s.armCopy x.armBy = true → t.latched 7 = true) ∧
            (good = true → s.armCopy x.armBy = true → y.arm = some r ∧ y.armReread = x.armReread ++ [e.val]) ∧
            (good = false ∨ s.armCopy x.armBy = false → ∃ q, y.arm = some q ∧ q[e.val]? = some
              { value := if p.failOpenFor 0x12 false then b.neutral else b.worst, late := true, ensemble := n }))))

/-- Verdicts: at its cutoff, and after the contributions stamped before it are in, a token's verdict takes its inputs and is queued on
its lane, or passes without a program or for a discarded token (R46, R326, R332); an idle lane takes the first verdict queued with
its registers 0 (R327, R328), unless an earlier token of its release tick will discard its token or stop before it (R335: log 45),
which passes without a program, or a poisoned word of the program is met, which leaves it to its late default (R470; which word a
program meets is a free value, log 57); a program's end in time gives its actions, and after the release tick is a late result
(R40, R41). -/
def Obligations.Verdicts : Prop :=
  ∀ (s : State),
    (∀ j st, firstJob (s.streams.table.flatMap (fun e => s.waitingVerdicts e.1 e.2)) = some j →
      aget j.slot s.streams.table = some st →
      (s.contributionBefore st.handle.toNat j.cutoff = true → exec .verdictCutoff s = .next s) ∧
      (∀ x p, s.contributionBefore st.handle.toNat j.cutoff = false → j.ingress = false →
        st.tokens.find? (fun t => decide (t.index = j.index)) = some x → s.policyByEpoch x.epoch = some p →
        let runs := (p.programOf st).isSome && !x.discarded
        ∃ t st', exec .verdictCutoff s = .next t ∧ t.streams.table = aset j.slot st' s.streams.table ∧
          { st' with tokens := st.tokens } = st ∧
          (∃ y ∈ st'.tokens, y.index = x.index ∧ y.inputs = some (s.tokenInputs st p x).1 ∧
            y.verdict = (if runs then .queued else .ready {})) ∧
          (runs = true → (t.lane (p.bridleHalf j.slot) (p.bridleLane j.slot)).queue =
            (s.lane (p.bridleHalf j.slot) (p.bridleLane j.slot)).queue ++ [j]) ∧
          (runs = false → t.eng = s.eng) ∧
          ((s.tokenInputs st p x).2 ≠ [] → t.latched 2 = true) ∧ { t.offStreams with eng := s.eng } = s.offStreams) ∧
      (∀ v p, s.contributionBefore st.handle.toNat j.cutoff = false → j.ingress = true →
        st.inp.verdicts.find? (fun t => decide (t.segment = j.index)) = some v → s.policyByEpoch v.epoch = some p →
        ∃ t st', exec .verdictCutoff s = .next t ∧ t.streams.table = aset j.slot st' s.streams.table ∧
          { st' with inp := st.inp } = st ∧
          (∃ y ∈ st'.inp.verdicts, y.segment = v.segment ∧ y.inputs = some (s.segmentInputs st p v).1 ∧
            y.verdict = (if (p.programOf st).isSome then .queued else .ready {})) ∧
          ((p.programOf st).isSome = true → (t.lane (p.bridleHalf j.slot) (p.bridleLane j.slot)).queue =
            (s.lane (p.bridleHalf j.slot) (p.bridleLane j.slot)).queue ++ [j]) ∧
          ((s.segmentInputs st p v).2 ≠ [] → t.latched 2 = true) ∧ { t.offStreams with eng := s.eng } = s.offStreams)) ∧
    (∀ h l, (s.lane h l).run.isSome = true ∨ firstJob (s.lane h l).queue = none → exec (.bridleLaneStart h l) s = .next s) ∧
    (∀ h l j, (s.lane h l).run = none → firstJob (s.lane h l).queue = some j →
      (∀ st i e b, s.jobOf j = some (st, i, e) → (s.policyByEpoch e).bind (fun p => p.programOf st) = some b →
        s.foreseenOver j st = false →
        (s.tablePoison j.stage st.handle j.index = none →
          ∃ t r, exec (.bridleLaneStart h l) s = .next t ∧ (t.lane h l).run = some r ∧ r.job = j ∧ r.epoch = e ∧ r.inputs = i ∧
            r.regs = Vector.replicate 16 0#32 ∧ r.pc = 0 ∧ r.acts = {} ∧ (t.lane h l).queue = (s.lane h l).queue.erase j ∧
            (∀ g m, (g, m) ≠ (h, l) → t.lane g m = s.lane g m) ∧
            t.streams.table = aset j.slot (st.setVerdict j .running) s.streams.table ∧
            { t.offStreams with eng := s.eng } = s.offStreams) ∧
        (∀ w, s.tablePoison j.stage st.handle j.index = some w →
          ∃ t, exec (.bridleLaneStart h l) s = .next t ∧ (t.lane h l).run = none ∧
            (t.lane h l).queue = (s.lane h l).queue.erase j ∧ t.streams = s.streams ∧ t.latched 19 = true ∧
            { t.offStreams with eng := s.eng } = s.offStreams)) ∧
      (∀ st i e, s.jobOf j = some (st, i, e) →
        s.foreseenOver j st = true ∨ (s.policyByEpoch e).bind (fun p => p.programOf st) = none →
        ∃ t, exec (.bridleLaneStart h l) s = .next t ∧ (t.lane h l).run = none ∧
          (t.lane h l).queue = (s.lane h l).queue.erase j ∧ (∀ g m, (g, m) ≠ (h, l) → t.lane g m = s.lane g m) ∧
          t.streams.table = aset j.slot (st.setVerdict j (.ready {})) s.streams.table ∧
          { t.offStreams with eng := s.eng } = s.offStreams) ∧
      (s.jobOf j = none →
        ∃ t, exec (.bridleLaneStart h l) s = .next t ∧ (t.lane h l).run = none ∧
          (t.lane h l).queue = (s.lane h l).queue.erase j ∧ (∀ g m, (g, m) ≠ (h, l) → t.lane g m = s.lane g m) ∧
          (∀ st, aget j.slot s.streams.table = some st → st.inFlight j = false → t.streams = s.streams ∧
            (t.counter ⟨0x10, j.stage, 1⟩).count = min (2 ^ 48 - 1) ((s.counter ⟨0x10, j.stage, 1⟩).count + 1)) ∧
          { t.offStreams with eng := s.eng } = s.offStreams)) ∧
    (∀ h l r, s.LaneAt h l r (bridleWord 0x00 0 0 0 0#32) →
      (∃ t, exec (.bridleEnd h l) s = .next t ∧ (t.lane h l).run = none ∧ (t.lane h l).queue = (s.lane h l).queue ∧
        (∀ g m, (g, m) ≠ (h, l) → t.lane g m = s.lane g m) ∧ { t.offStreams with eng := s.eng } = s.offStreams) ∧
      (∀ st, aget r.job.slot s.streams.table = some st →
        let release := if r.job.ingress then (st.inp.verdicts.find? (fun v => decide (v.segment = r.job.index))).map (fun v => v.release)
          else (st.tokens.find? (fun t => decide (t.index = r.job.index))).map (fun t => t.release)
        (∀ n, release = some n → s.now < n → ∃ t, exec (.bridleEnd h l) s = .next t ∧
          t.streams.table = aset r.job.slot (st.setVerdict r.job (.ready r.acts)) s.streams.table) ∧
        ((∀ n, release = some n → n ≤ s.now) → ∃ t, exec (.bridleEnd h l) s = .next t ∧ t.streams = s.streams ∧
          (t.counter ⟨0x10, r.job.stage, 1⟩).count = min (2 ^ 48 - 1) ((s.counter ⟨0x10, r.job.stage, 1⟩).count + 1))))

/-- A token's boundary: one whose verdict passes, or is late under `fail_open`, commits with its text and its actions in the order of
R137; HALT, or a late verdict without `fail_open`, ends the stream with reason 5 or 9 and discards what is in flight; REWIND
discards what is in flight and halts with reason 11 where its target is clamped; a discarded token leaves without committing, and so
does one of a stream that has ended; a step halt ends the stream with its own reason, and a poisoned word of the context with 14
(R72, R77, R137, R145, R320, R337, R339, R470). A halt message goes to the active policy's halt queue, or to the host (R338). -/
def Obligations.TokenBoundaries : Prop :=
  (∀ (s : State) (k : SlotId) (st : Stream), aget k s.streams.table = some st → st.poisoned = none →
    let halted := fun (st' : Stream) (reason : Nat) => (st'.state = .halted ∨ st'.state = .closed) ∧
      st'.stopReason = (if st.stopReason = 0 then reason else st.stopReason) ∧ ∀ y ∈ st'.tokens, y.discarded = true
    (∀ x, st.dueToken s.now = some x → (∀ h, st.dueHalt s.now = some h → x.release ≤ h.due) →
      (st.ended = false → x.discarded = false → st.afterStop x = false → (∀ r, st.ingress = some r → r.verdict ≠ 1) →
        (∀ acts, x.verdict = .ready acts ∨ ((∀ a, x.verdict ≠ .ready a) ∧ acts = {} ∧
            ∃ p, s.policyByEpoch x.epoch = some p ∧ p.failOpen 4 = true) →
          acts.halt = false → acts.rewind = none → st.overflows x.index x.textAfter = false →
          ∃ t st', exec (.verdictRelease k) s = .next t ∧ s.OnlyStream t k st' ∧ st'.committed = x.index ∧ st'.empty = false ∧
            st'.epoch = x.epoch ∧ st'.lateMask = x.lateMask % 64 ∧
            st'.tokens = st.tokens.filter (fun y => y.index ≠ x.index) ∧
            ((∀ e ∈ st.owed, e.1 ≠ 0) → st'.word 0 = min maxCount (st.word 0 + 1))) ∧
        (∀ acts, x.verdict = .ready acts → acts.halt = true →
          ∃ t st', exec (.verdictRelease k) s = .next t ∧ s.OnlyStream t k st' ∧ halted st' 5 ∧
            st'.committed = x.index ∧ st'.textRelease = st.textRelease) ∧
        (∀ acts c, x.verdict = .ready acts → acts.halt = false → acts.rewind = some c →
          ∃ t st', exec (.verdictRelease k) s = .next t ∧ s.OnlyStream t k st' ∧ st'.committed = x.index ∧
            (∀ y ∈ st'.tokens, y.discarded = true) ∧ ((st.rewindTarget x.index c).2 = true → halted st' 11)) ∧
        (∀ p, (∀ acts, x.verdict ≠ .ready acts) → s.policyByEpoch x.epoch = some p → p.failOpen 4 = false →
          ∃ t st', exec (.verdictRelease k) s = .next t ∧ s.OnlyStream t k st' ∧ halted st' 9 ∧
            t.latched 2 = true ∧ t.latched 11 = true)) ∧
      (x.discarded = true ∨ st.ended = true →
        ∃ t st', exec (.verdictRelease k) s = .next t ∧ s.OnlyStream t k st' ∧ st'.committed = st.committed ∧
          st'.tokens = st.tokens.filter (fun y => y.index ≠ x.index) ∧ (st.ended = true → st'.ended = true))) ∧
    (∀ x, st.dueHalt s.now = some x → (∀ y, st.dueToken s.now = some y → x.due < y.release) →
      (st.ended = false →
        ∃ t st', exec (.verdictRelease k) s = .next t ∧ s.OnlyStream t k st' ∧ halted st' x.reason ∧
          st'.committed = st.committed ∧ st'.stepHalts = st.stepHalts.erase x) ∧
      (st.ended = true →
        ∃ t, exec (.verdictRelease k) s = .next t ∧ s.OnlyStream t k { st with stepHalts := st.stepHalts.erase x })) ∧
    (st.dueToken s.now = none → st.dueHalt s.now = none → exec (.verdictRelease k) s = .next s)) ∧
  (∀ (s : State) (k : SlotId) (st : Stream) (a : Nat), aget k s.streams.table = some st → st.poisoned = some a → st.ended = false →
    st.dueToken s.now ≠ none ∨ st.dueHalt s.now ≠ none →
    ∃ t st', exec (.verdictRelease k) s = .next t ∧ aget k t.streams.table = some st' ∧ st'.ended = true ∧
      st'.stopReason = (if st.stopReason = 0 then 14 else st.stopReason) ∧ st'.committed = st.committed ∧ t.latched 19 = true ∧
      { t.offStreams with eng := s.eng } = s.offStreams) ∧
  (∀ (s : State) a u, s.takeInbox (fun a => decide (a.pkt.hdr.port = 0xD4#8)) = some (a, u) →
    ∃ t, exec .haltMessage s = .next t ∧ t.inside = s.inside ∧ t.plane = u.plane ∧
      (∀ q, (s.cast.active.bind (fun p => p.tables.bridle)).bind (fun (b : BridleTables) => b.haltQueue) = some q →
        t.loud = (s.writeItem q 0x0005#16 (a.pkt.payload.take 56)).loud ∧ t.bulk = s.bulk))

/-- The judge: an item goes to its stage-0 cell once, at its dispatch tick, with the stream's last item named (R260, R263); a
result before the cutoff is its token's or chunk's, and a late, second or poisoned one is discarded, counted in the stream's word 8 at
its next boundary (R71, R78, R83, R264). -/
def Obligations.JudgeItems : Prop :=
  ∀ (s : State),
    (∀ d st x p b g gs, s.nextDispatch = some d → aget d.slot s.streams.table = some st → st.req.egress = true →
      st.tokens.find? (fun t => decide (t.index = d.index)) = some x → s.judgeOf x.epoch true = some (p, b) →
      b.stages = g :: gs →
      ∃ t st' m, exec .judgeDispatch s = .next t ∧ t.streams.table = aset d.slot st' s.streams.table ∧
        t.grid.mesh = s.grid.mesh ++ [(none, m)] ∧ hdrDest m.header = (stageCell g d.slot).toNat ∧
        m.words.head? = some (st.handle.setWidth 64) ∧ m.words.length = 3 ∧
        (∃ y ∈ st'.tokens, y.index = x.index ∧ y.judgeSent = true) ∧ st'.judgeFirst = false ∧ st'.judgeRestart = false ∧
        st'.judgeLast = x.index ∧ st'.judgeEpoch = x.epoch ∧ { t.quiet with streams := s.streams, grid := s.grid } = s.quiet) ∧
    (∀ d st c p b g gs, s.nextDispatch = some d → aget d.slot s.streams.table = some st → st.req.egress = false →
      st.inp.chunks.find? (fun c => decide (c.ordinal = d.index)) = some c → s.judgeOf c.epoch false = some (p, b) →
      b.stages = g :: gs →
      ∃ t st' m, exec .judgeDispatch s = .next t ∧ t.streams.table = aset d.slot st' s.streams.table ∧
        t.grid.mesh = s.grid.mesh ++ [(none, m)] ∧ hdrDest m.header = (stageCell g d.slot).toNat ∧
        m.words.head? = some (st.handle.setWidth 64) ∧ m.words.length = 3 ∧
        (∃ y ∈ st'.inp.chunks, y.ordinal = c.ordinal ∧ y.judgeSent = true) ∧ st'.judgeFirst = false ∧ st'.judgeRestart = false ∧
        st'.judgeLast = c.ordinal ∧ st'.judgeEpoch = c.epoch ∧
        { t.quiet with streams := s.streams, grid := s.grid, freeUse := s.freeUse } = s.quiet) ∧
    (s.nextDispatch = none → exec .judgeDispatch s = .next s) ∧
    (∀ h m u, s.takeMesh (fun m => hdrToEngine m.header && decide (hdrDest m.header = bridlePort h)) = some (m, u) →
      (hdrKind m.header ≠ 0 → exec (.judgeResult h) s = .next u) ∧
      (hdrKind m.header = 0 → s.streamOf ((m.words[0]?).getD 0#64).toNat = none →
        exec (.judgeResult h) s = .next (u.count1 0x14 0 0)) ∧
      (∀ k st, hdrKind m.header = 0 → s.streamOf ((m.words[0]?).getD 0#64).toNat = some (k, st) →
        let index := ((m.words[1]?).getD 0#64).toNat % 2 ^ 32
        let drops := fun (late : Bool) => ∃ t, exec (.judgeResult h) s = .next t ∧
          t.streams.table = aset k { st with owed := st.owed ++ [(8, 1)] } s.streams.table ∧ t.grid = u.grid ∧
          { t.quiet with streams := s.streams, grid := s.grid } = s.quiet ∧
          (late = true → (t.counter ⟨0x10, 0x13, 1⟩).count = min (2 ^ 48 - 1) ((s.counter ⟨0x10, 0x13, 1⟩).count + 1))
        (st.ended = true → drops false) ∧
        (st.ended = false → st.req.egress = true →
          (st.tokens.find? (fun t => decide (t.index % 2 ^ 32 = index)) = none → drops true) ∧
          (∀ x p b, st.tokens.find? (fun t => decide (t.index % 2 ^ 32 = index)) = some x → s.judgeOf x.epoch true = some (p, b) →
            (x.inputs.isSome = true ∨ x.cutoff ≤ s.now → drops true) ∧
            (x.inputs = none → s.now < x.cutoff → x.judge ≠ none ∨ (judgeRecord m b.scores).poison = true → drops false) ∧
            (x.inputs = none → s.now < x.cutoff → x.judge = none → (judgeRecord m b.scores).poison = false →
              ∃ t st', exec (.judgeResult h) s = .next t ∧ t.streams.table = aset k st' s.streams.table ∧
                { st' with tokens := st.tokens } = st ∧
                (∃ y ∈ st'.tokens, y.index = x.index ∧ y.judge = some (judgeRecord m b.scores)) ∧
                t.grid = u.grid ∧ { t.quiet with streams := s.streams, grid := s.grid } = s.quiet))) ∧
        (st.ended = false → st.req.egress = false →
          (st.inp.chunks.find? (fun c => decide (c.ordinal % 2 ^ 32 = index)) = none → drops true) ∧
          (∀ x p b, st.inp.chunks.find? (fun c => decide (c.ordinal % 2 ^ 32 = index)) = some x → s.judgeOf x.epoch false = some (p, b) →
            let past := match st.inp.verdicts.find? (fun v => decide (v.segment = x.segment)) with
              | some v => v.inputs.isSome || decide (v.cutoff ≤ s.now)
              | none => false
            (past = true → drops true) ∧
            (past = false → x.judge ≠ none ∨ (judgeRecord m b.scores).poison = true → drops false) ∧
            (past = false → x.judge = none → (judgeRecord m b.scores).poison = false →
              ∃ t st', exec (.judgeResult h) s = .next t ∧ t.streams.table = aset k st' s.streams.table ∧
                { st' with inp := st.inp } = st ∧
                (∃ y ∈ st'.inp.chunks, y.ordinal = x.ordinal ∧ y.judge = some (judgeRecord m b.scores)) ∧
                t.grid = u.grid ∧ { t.quiet with streams := s.streams, grid := s.grid } = s.quiet)))))

/-- The callipers: a slice whose window has run out is discarded with its pass (R274, R293); the item whose unit is done first
finishes with its scores before its release tick, or poisoned with none, and an MLP's item waits for its cell (R278 to R281); an
MLP's result gives its item its scores (R280); a result at or after the release tick is late and discarded (R40, R41); at the
release tick every item due leaves as one record, with the probe's late default where its result is missing (R283, R284, R288). -/
def Obligations.ProbeItems : Prop :=
  ∀ (s : State),
    (∀ x, s.eng.callipers.slices.find? (fun x => decide (x.due ≤ s.now)) = some x →
      ∃ t, exec .tapSliceTimeout s = .next t ∧ t.eng.callipers = s.eng.callipers.finish x.tap x.pass ∧ t.latched 9 = true ∧
        (∀ y ∈ t.eng.callipers.slices, y ∈ s.eng.callipers.slices ∧ ¬ (y.tap = x.tap ∧ y.pass = x.pass)) ∧
        t.eng.callipers.items = s.eng.callipers.items ∧ { t.quiet with eng := s.eng } = s.quiet) ∧
    ((∀ x ∈ s.eng.callipers.slices, s.now < x.due) → exec .tapSliceTimeout s = .next s) ∧
    (∀ h, s.nextItem (decide (h = .south)) = none → exec (.probeItemDone h) s = .next s) ∧
    (∀ h i p b tp d, s.nextItem (decide (h = .south)) = some i → s.probeOf i = some (p, b, tp, d) →
      let poison := s.weightPoison i.south p d tp.elements
      let first := firstLayer (s.storeSlot (halfOf i.south) p.cellSlot).weights d
        ((convertRow tp d.actFmt i.row.data).map (fun x => x.1))
      let items := fun (f : ProbeItem → ProbeItem) => s.eng.callipers.items.map (fun x => if x = i then f x else x)
      (poison = none → d.mlp = true →
        ∃ t, exec (.probeItemDone h) s = .next t ∧ t.eng.callipers.items = items (fun x => { x with mlpWait := true }) ∧
          (∃ m, (none, m) ∈ t.grid.mesh ∧ hdrDest m.header =
            ((d.cellList[i.ordinal % max 1 d.cellList.length]?).getD 0#12).toNat ∧ m.words.head? = some i.row.handle) ∧
          t.streams = s.streams) ∧
      (poison ≠ none ∨ d.mlp = false →
        ∃ t, exec (.probeItemDone h) s = .next t ∧ { t.quiet with eng := s.eng } = s.quiet ∧
          (poison ≠ none → t.latched 19 = true) ∧
          (i.released = true → t.eng.callipers.items = s.eng.callipers.items.filter (fun x => x ≠ i)) ∧
          (i.released = false → i.release ≤ s.now →
            t.eng.callipers.items = items (fun x => { x with done := true, mlpWait := false })) ∧
          (i.released = false → s.now < i.release → poison ≠ none → t.eng.callipers.items =
            items (fun x => { x with done := true, mlpWait := false, scores := none, late := false, poison := true })) ∧
          (i.released = false → s.now < i.release → poison = none → t.eng.callipers.items =
            items (fun x => { x with done := true, mlpWait := false, scores := some (first.map (linkApply d.link)),
                                     late := false, poison := false })))) ∧
    (∀ h m u, s.takeMesh (fun m => hdrToEngine m.header && decide (hdrDest m.header = callipersPort h)) = some (m, u) →
      let w := fun (n : Nat) => ((m.words[n]?).getD 0#64).toNat
      let mine := fun (x : ProbeItem) => x.mlpWait && decide (halfOf x.south = h) && decide (x.row.handle.toNat = w 0)
        && decide (x.row.tokenIndex = w 1 % 2 ^ 32) && (s.probeOf x).any (fun e =>
          decide ((e.2.2.2.cellList[x.ordinal % max 1 e.2.2.2.cellList.length]?).map (fun c => c.toNat) = some (hdrSource m.header)))
      (hdrKind m.header ≠ 0 → exec (.mlpResult h) s = .next u) ∧
      (hdrKind m.header = 0 → s.eng.callipers.items.find? mine = none → exec (.mlpResult h) s = .next u) ∧
      (∀ i p b tp d, hdrKind m.header = 0 → s.eng.callipers.items.find? mine = some i → s.probeOf i = some (p, b, tp, d) →
        ∃ t ws, exec (.mlpResult h) s = .next t ∧ t.grid = u.grid ∧ t.streams = s.streams ∧ d.scores ≤ ws.length ∧
          (i.released = true → t.eng.callipers.items = s.eng.callipers.items.filter (fun x => x ≠ i)) ∧
          (i.released = false → s.now < i.release → t.eng.callipers.items = s.eng.callipers.items.map (fun x => if x = i then
            { x with done := true, mlpWait := false, scores := if (w 1).testBit 33 then none else some ws,
                     late := (w 1).testBit 32, poison := (w 1).testBit 33 } else x)) ∧
          (i.released = false → i.release ≤ s.now → t.eng.callipers.items =
            s.eng.callipers.items.map (fun x => if x = i then { x with done := true, mlpWait := false } else x)))) ∧
    (∀ n, (∃ i ∈ s.eng.callipers.items, i.released = false ∧ i.release = n) →
      (∀ i ∈ s.eng.callipers.items, i.released = false → n ≤ i.release) → n ≤ s.now →
      let due := fun (i : ProbeItem) => !i.released && decide (i.release = n)
      ∃ t, exec .probeRelease s = .next t ∧
        t.eng.callipers.items = (s.eng.callipers.items.map (fun i => if due i then { i with released := true } else i)).filter
          (fun i => !(i.released && i.done)) ∧
        ((∃ i ∈ s.eng.callipers.items, due i = true ∧ i.scores = none ∧ (s.probeOf i).isSome = true) → t.latched 2 = true) ∧
        { t.offStreams with eng := s.eng } = s.offStreams ∧
        ((∀ i ∈ s.eng.callipers.items, due i = true → BitVec.ofNat 12 (i.row.handle.toNat / 2 ^ 36) ≠ s.aon.node) →
          { t.inside with eng := s.eng } = s.inside)) ∧
    ((∀ i ∈ s.eng.callipers.items, i.released = true ∨ s.now < i.release) → exec .probeRelease s = .next s)

/-! ### The bridle's instructions (R327 to R334) -/

/-- The loads and the arithmetic of a bridle program write v`d`, count one step and go on (R329, R331): FP32 in
round-to-nearest-even with one NaN, integers wrapping. A branch of offset k continues k + 1 instructions after itself when it
is taken, else one, counts one step, and writes no register (R329). -/
def Obligations.BridleArithmeticAndBranches : Prop :=
  (∀ (s : State) (h : HalfId) (l : Fin 16) (r : LaneRun) (d a b : LaneReg),
      let u := r.get a
      let v := r.get b
      let stands := fun (op : Nat) => s.LaneAt h l r (bridleWord op d a b 0#32)
      let writes := fun (w : Word) => (Host.Outcome.next ((s.setLane h l { s.lane h l with
        run := some { r with regs := r.regs.set d.toNat w d.isLt, pc := r.pc + 1 } }).count1 0x0F 0 1) :
          Host.Outcome State Fault Refusal)
      (∀ sel : BitVec 24, s.LaneAt h l r (bridleWord 0x01 d 0 0 (sel.setWidth 32)) →
        exec (.bridleLd h l d sel) s = writes (r.inputs.select sel.toNat)) ∧
      (∀ imm : Word, s.LaneAt h l r (bridleWord 0x02 d 0 0 imm) → exec (.bridleLi h l d imm) s = writes imm) ∧
      (stands 0x10 → exec (.bridleFadd h l d a b) s = writes (f32Add u v)) ∧
      (stands 0x11 → exec (.bridleFmul h l d a b) s = writes (f32Mul u v)) ∧
      (stands 0x12 → exec (.bridleFmax h l d a b) s = writes (f32Max u v)) ∧
      (stands 0x13 → exec (.bridleFmin h l d a b) s = writes (f32Min u v)) ∧
      (stands 0x18 → exec (.bridleAnd h l d a b) s = writes (u &&& v)) ∧
      (stands 0x19 → exec (.bridleOr h l d a b) s = writes (u ||| v)) ∧
      (stands 0x1A → exec (.bridleAdd h l d a b) s = writes (u + v))) ∧
  (∀ (s : State) (h : HalfId) (l : Fin 16) (r : LaneRun) (a b : LaneReg) (k : Nat), 1 ≤ k → k ≤ 4095 →
      let u := r.get a
      let v := r.get b
      let stands := fun (op : Nat) (y : LaneReg) => s.LaneAt h l r (bridleWord op 0 a y (BitVec.ofNat 32 k))
      let branch := fun (taken : Prop) (_ : Decidable taken) => (Host.Outcome.next ((s.setLane h l { s.lane h l with
        run := some { r with pc := if taken then r.pc + 1 + k else r.pc + 1 } }).count1 0x0F 0 1) :
          Host.Outcome State Fault Refusal)
      (stands 0x20 b → exec (.bridleBflt h l a b k) s = branch (f32Lt u v = true) inferInstance) ∧
      (stands 0x21 b → exec (.bridleBfge h l a b k) s = branch (f32Le v u = true) inferInstance) ∧
      (stands 0x22 0 → exec (.bridleBnan h l a k) s = branch (f32IsNaN u = true) inferInstance) ∧
      (stands 0x28 b → exec (.bridleBeq h l a b k) s = branch (u = v) inferInstance) ∧
      (stands 0x29 b → exec (.bridleBne h l a b k) s = branch (u ≠ v) inferInstance) ∧
      (stands 0x2A b → exec (.bridleBltu h l a b k) s = branch (u.toNat < v.toNat) inferInstance) ∧
      (stands 0x2B b → exec (.bridleBgeu h l a b k) s = branch (v.toNat ≤ u.toNat) inferInstance) ∧
      (∀ bit : BitVec 5,
        s.LaneAt h l r (bridleWord 0x2C 0 a (bit.setWidth 4) (BitVec.ofNat 32 (k + (if bit.getLsbD 4 then 2 ^ 16 else 0)))) →
        exec (.bridleBbit h l a bit k) s = branch (u.getLsbD bit.toNat = true) inferInstance))

/-- The action instructions add to the verdict's actions within R334's limits, count one step and go on; one past a limit, or a BIAS
whose scale is not finite, counts `bridle_action_dropped`; no register changes. -/
def Obligations.BridleActions : Prop :=
  ∀ (s : State) (h : HalfId) (l : Fin 16) (r : LaneRun) (a b : LaneReg),
    let x := r.acts
    let acts := fun (y : Actions) => (Host.Outcome.next ((s.setLane h l { s.lane h l with
      run := some { r with acts := y, pc := r.pc + 1 } }).count1 0x0F 0 1) : Host.Outcome State Fault Refusal)
    let handle := ((aget r.job.slot s.streams.table).map (fun st => st.handle)).getD 0#48
    let drops := (Host.Outcome.next (((s.setLane h l { s.lane h l with
      run := some { r with acts := { x with dropped := x.dropped + 1 }, pc := r.pc + 1 } }).count1 0x0F 0 1).effects
        (bridleEvent 8 handle r.job.index s.now)) : Host.Outcome State Fault Refusal)
    (∀ (span : BitVec 10) (disp : BitVec 2),
      s.LaneAt h l r (bridleWord 0x41 0 0 0 (BitVec.ofNat 32 (span.toNat + disp.toNat * 2 ^ 16))) →
      exec (.bridleHold h l span disp) s
        = acts { x with holds := x.holds ++ [(span.toNat, if disp.toNat = 3 then 0 else disp.toNat)] }) ∧
    (s.LaneAt h l r (bridleWord 0x42 0 a b 0#32) →
      exec (.bridleRedact h l a b) s =
        if (r.get b).toNat = 0 then acts x
        else if 2 ≤ x.redacts.length then drops
        else acts { x with redacts := x.redacts ++ [((r.get a).toNat, min 4096 (r.get b).toNat)] }) ∧
    (∀ n, 1 ≤ n → n ≤ 512 → s.LaneAt h l r (bridleWord 0x43 0 0 0 (BitVec.ofNat 32 n)) →
      exec (.bridleRewind h l n) s = acts { x with rewind := some (max n (x.rewind.getD 0)) }) ∧
    (s.LaneAt h l r (bridleWord 0x44 0 0 0 0#32) → exec (.bridleHalt h l) s = acts { x with halt := true }) ∧
    (∀ vector : Half, s.LaneAt h l r (bridleWord 0x45 0 a 0 (vector.setWidth 32)) →
      exec (.bridleBias h l a vector) s =
        if f32Finite (r.get a) then acts { x with bias := some (vector, r.get a) } else drops) ∧
    (∀ tag : Half, s.LaneAt h l r (bridleWord 0x46 0 0 0 (tag.setWidth 32)) →
      exec (.bridleTag h l tag) s =
        if 8 ≤ x.tags.length then drops else acts { x with tags := x.tags ++ [tag] })

/-! ### Cell instructions and what happens to cells (R230 to R257) -/

/-- The register operations of a cell write d and go on (R245); a shift by 64 or more writes a value the spec does not state (log
36). The immediate operations of a cell, `extr` and `lui` write d and go on (R245). -/
def Obligations.CellArithmetic : Prop :=
  (∀ (s : State) (c : CellId) (r : Running) (d a b : CellReg),
      let x := s.cell c
      let u := x.get a
      let v := x.get b
      let stands := fun (op : Nat) => s.CellAt c r (encReg 0 op d a b 0#5 false)
      let writes := fun (w : DWord) => (Host.Outcome.next (s.cellNext c r (x.put d w) (r.pc + 4)) : Host.Outcome State Fault Refusal)
      (stands 0x0 → exec (.cellAdd c d a b) s = writes (u + v)) ∧
      (stands 0x1 → exec (.cellSub c d a b) s = writes (u - v)) ∧
      (stands 0x2 → exec (.cellAnd c d a b) s = writes (u &&& v)) ∧
      (stands 0x3 → exec (.cellOr c d a b) s = writes (u ||| v)) ∧
      (stands 0x4 → exec (.cellXor c d a b) s = writes (u ^^^ v)) ∧
      (stands 0x5 → ∃ w, exec (.cellSll c d a b) s = writes w ∧ (v.toNat < 64 → w = u <<< v.toNat)) ∧
      (stands 0x6 → ∃ w, exec (.cellSrl c d a b) s = writes w ∧ (v.toNat < 64 → w = u >>> v.toNat)) ∧
      (stands 0x7 → ∃ w, exec (.cellSra c d a b) s = writes w ∧ (v.toNat < 64 → w = u.sshiftRight v.toNat)) ∧
      (stands 0x8 → exec (.cellMul c d a b) s = writes (u * v)) ∧
      (stands 0x9 → exec (.cellSlt c d a b) s = writes (if u.toInt < v.toInt then 1#64 else 0#64)) ∧
      (stands 0xA → exec (.cellSltu c d a b) s = writes (if u.toNat < v.toNat then 1#64 else 0#64)) ∧
      (stands 0xB → exec (.cellMin c d a b) s = writes (if u.toInt < v.toInt then u else v)) ∧
      (stands 0xC → exec (.cellMax c d a b) s = writes (if u.toInt < v.toInt then v else u))) ∧
  (∀ (s : State) (c : CellId) (r : Running) (d a : CellReg) (imm : BitVec 14),
      let x := s.cell c
      let u := x.get a
      let i : DWord := imm.signExtend 64
      let stands := fun (op : Nat) => s.CellAt c r (encImm 1 op d a imm)
      let writes := fun (w : DWord) => (Host.Outcome.next (s.cellNext c r (x.put d w) (r.pc + 4)) : Host.Outcome State Fault Refusal)
      (stands 0x0 → exec (.cellAddi c d a imm) s = writes (u + i)) ∧
      (stands 0x2 → exec (.cellAndi c d a imm) s = writes (u &&& i)) ∧
      (stands 0x3 → exec (.cellOri c d a imm) s = writes (u ||| i)) ∧
      (stands 0x4 → exec (.cellXori c d a imm) s = writes (u ^^^ i)) ∧
      (stands 0x5 → exec (.cellSlli c d a imm) s = writes (u <<< (imm.toNat % 64))) ∧
      (stands 0x6 → exec (.cellSrli c d a imm) s = writes (u >>> (imm.toNat % 64))) ∧
      (stands 0x7 → exec (.cellSrai c d a imm) s = writes (u.sshiftRight (imm.toNat % 64))) ∧
      (stands 0x9 → exec (.cellSlti c d a imm) s = writes (if u.toInt < i.toInt then 1#64 else 0#64)) ∧
      (∀ lsb width1 : BitVec 6, s.CellAt c r (encExtr d a lsb width1) →
        exec (.cellExtr c d a lsb width1) s = writes ((u >>> lsb.toNat) &&& (BitVec.ofNat 64 (2 ^ (width1.toNat + 1) - 1)))) ∧
      (∀ i19 : BitVec 19, s.CellAt c r (encWide 1 0xF d i19) →
        exec (.cellLui c d i19) s = writes (i19.signExtend 64 <<< 13)))

/-- A load within the running slot's range and aligned writes d zero-extended and goes on; `vld` loads 64 bytes; no memory changes
(R245, R257). One that meets a poisoned word takes the data, ends the handler with cause 3, reports to the bench and latches NTC_CELL
and NTC_ECC; for `vld` the register is poisoned (R257, R470, log 38). A store within the running slot's range and aligned writes its bytes at the address and goes on: they read as
the source's low bytes after, every other byte as before; words written whole lose their poison; nothing else changes (R245,
R257, R469). -/
def Obligations.CellMemoryAccess : Prop :=
  (∀ (s : State) (c : CellId) (r : Running) (d a : CellReg) (imm : BitVec 14),
      let x := s.cell c
      let p := x.addr a imm
      let fits := fun (n : Nat) => x.reaches r p n n = true ∧ x.poisonAt p n = none
      let stands := fun (op : Nat) => s.CellAt c r (encImm 2 op d a imm)
      let loads := fun (n : Nat) =>
        (Host.Outcome.next (s.cellNext c r (x.put d (BitVec.ofNat 64 (ofLe (x.mem.bytes p n)))) (r.pc + 4)) :
          Host.Outcome State Fault Refusal)
      (stands 0x0 → fits 1 → exec (.cellLdB c d a imm) s = loads 1) ∧
      (stands 0x1 → fits 2 → exec (.cellLdH c d a imm) s = loads 2) ∧
      (stands 0x2 → fits 4 → exec (.cellLdW c d a imm) s = loads 4) ∧
      (stands 0x3 → fits 8 → exec (.cellLdD c d a imm) s = loads 8) ∧
      (s.CellAt c r (encImm 5 0x0 d a imm) → fits 64 →
        exec (.cellVld c d a imm) s = .next (s.cellNext c r (x.vput d (vectorOf (x.mem.bytes p 64))) (r.pc + 4))) ∧
      (∀ n w, x.reaches r p n n = true → x.poisonAt p n = some w →
        let poisons := fun (o : Host.Outcome State Fault Refusal) => ∃ t, o = .next t ∧
          t.quiet = ((s.report c).setCell c { x.put d (BitVec.ofNat 64 (ofLe (x.mem.bytes p n))) with
            run := none, sendHdr := none, sendWords := [], faultCause := 3 }).quiet ∧ t.latched 8 = true ∧ t.latched 19 = true
        (n = 1 → stands 0x0 → poisons (exec (.cellLdB c d a imm) s)) ∧ (n = 2 → stands 0x1 → poisons (exec (.cellLdH c d a imm) s)) ∧
        (n = 4 → stands 0x2 → poisons (exec (.cellLdW c d a imm) s)) ∧ (n = 8 → stands 0x3 → poisons (exec (.cellLdD c d a imm) s)) ∧
        (n = 64 → s.CellAt c r (encImm 5 0x0 d a imm) → ∃ (t : State) (y : Cell), exec (.cellVld c d a imm) s = .next t ∧
          t.quiet = ((s.report c).setCell c { y with run := none, sendHdr := none, sendWords := [], faultCause := 3 }).quiet ∧
          d ∈ y.vpoison ∧ { y with v := x.v, vpoison := x.vpoison } = x ∧ t.latched 8 = true ∧ t.latched 19 = true))) ∧
  (∀ (s : State) (c : CellId) (r : Running) (d a : CellReg) (imm : BitVec 14),
      let x := s.cell c
      let p := x.addr a imm
      let stores := fun (n : Nat) (bs : List Byte) (o : Host.Outcome State Fault Refusal) =>
        x.reaches r p n n = true →
        ∃ m ps, o = .next (s.cellNext c r { x with mem := m, poison := ps } (r.pc + 4)) ∧
          (∀ i, i < n → m.get (p + i) = bs.getD i 0#8) ∧ (∀ k, k < p ∨ p + n ≤ k → m.get k = x.mem.get k) ∧
          (∀ w, w ∈ ps ↔ w ∈ x.poison ∧ ¬ (p ≤ w ∧ w + 8 ≤ p + n))
      (s.CellAt c r (encImm 2 0x8 d a imm) → stores 1 (leBytes 1 (x.get d).toNat) (exec (.cellStB c d a imm) s)) ∧
      (s.CellAt c r (encImm 2 0x9 d a imm) → stores 2 (leBytes 2 (x.get d).toNat) (exec (.cellStH c d a imm) s)) ∧
      (s.CellAt c r (encImm 2 0xA d a imm) → stores 4 (leBytes 4 (x.get d).toNat) (exec (.cellStW c d a imm) s)) ∧
      (s.CellAt c r (encImm 2 0xB d a imm) → stores 8 (leBytes 8 (x.get d).toNat) (exec (.cellStD c d a imm) s)) ∧
      (s.CellAt c r (encImm 5 0x1 d a imm) → stores 64 (leBytes 64 (x.vget d).toNat) (exec (.cellVst c d a imm) s)))

/-- Branches and jumps change only the pc, and `jal` links the next address to d; an offset counts instructions from the branch
itself (R244, R245). `jr` to a target whose fetch fails is a program fault at once (R257). -/
def Obligations.CellBranches : Prop :=
  ∀ (s : State) (c : CellId) (r : Running) (a b : CellReg) (off : BitVec 14) (far : BitVec 19),
    let x := s.cell c
    let u := x.get a
    let v := x.get b
    let stands := fun (op : Nat) => s.CellAt c r (encImm 3 op a b off)
    let goes := fun (pc : Nat) => (Host.Outcome.next (s.cellNext c r x pc) : Host.Outcome State Fault Refusal)
    let branch := fun (taken : Prop) (_ : Decidable taken) => goes (if taken then ((r.pc : Int) + 4 * off.toInt).toNat else r.pc + 4)
    (stands 0 → exec (.cellBeq c a b off) s = branch (u = v) inferInstance) ∧
    (stands 1 → exec (.cellBne c a b off) s = branch (u ≠ v) inferInstance) ∧
    (stands 2 → exec (.cellBlt c a b off) s = branch (u.toInt < v.toInt) inferInstance) ∧
    (stands 3 → exec (.cellBge c a b off) s = branch (v.toInt ≤ u.toInt) inferInstance) ∧
    (stands 4 → exec (.cellBltu c a b off) s = branch (u.toNat < v.toNat) inferInstance) ∧
    (stands 5 → exec (.cellBgeu c a b off) s = branch (v.toNat ≤ u.toNat) inferInstance) ∧
    (∀ w, s.CellAt c r w → w &&& 0xFF07FFFF#32 = encWide 3 0x8 0#5 far →
      exec (.cellJ c far) s = goes ((r.pc : Int) + 4 * far.toInt).toNat) ∧
    (∀ d, s.CellAt c r (encWide 3 0x9 d far) →
      exec (.cellJal c d far) s
        = .next (s.cellNext c r (x.put d (BitVec.ofNat 64 (r.pc + 4))) ((r.pc : Int) + 4 * far.toInt).toNat)) ∧
    (∀ w t, s.CellAt c r w → w &&& 0xFFF80000#32 = encWide 3 0xA a 0#19 → x.fetch r u.toNat = .word t →
      exec (.cellJr c a) s = goes u.toNat) ∧
    (∀ w, s.CellAt c r w → w &&& 0xFFF80000#32 = encWide 3 0xA a 0#19 →
      let ends := fun (z : State) (cause : Nat) => ∃ y, exec (.cellJr c a) s = .next y ∧
        y.quiet = (z.setCell c { x with run := none, sendHdr := none, sendWords := [], faultCause := cause }).quiet ∧ y.latched 8 = true
      (∀ k, x.fetch r u.toNat = .fault k → ends s k) ∧ (∀ p, x.fetch r u.toNat = .poison p → ends (s.report c) 3))

/-- The vector operations write d lane by lane and go on; INT32 lanes wrap, FP32 lanes round to nearest even with a free NaN
(R245, R246); `vbcast` copies bits 31:0, and `vred` adds in its fixed order into bits 31:0 of d. -/
def Obligations.CellVectorOps : Prop :=
  ∀ (s : State) (c : CellId) (r : Running) (int : Bool) (d a b e : CellReg),
    let x := s.cell c
    let u := fun i => laneOf (x.vget a) i
    let v := fun i => laneOf (x.vget b) i
    let stands := fun (op : Nat) => s.CellAt c r (encReg 4 op d a b 0#5 int)
    let lanes := fun (f : Nat → Word) =>
      (Host.Outcome.next (s.cellNext c r (x.vput d (ofLanes f)) (r.pc + 4)) : Host.Outcome State Fault Refusal)
    (stands 0 → exec (.cellVadd c int d a b) s = lanes (fun i => if int then u i + v i else vAdd (u i) (v i))) ∧
    (stands 1 → exec (.cellVsub c int d a b) s = lanes (fun i => if int then u i - v i else vSub (u i) (v i))) ∧
    (stands 2 → exec (.cellVmul c int d a b) s = lanes (fun i => if int then u i * v i else vMul (u i) (v i))) ∧
    (s.CellAt c r (encReg 4 3 d a b e int) → exec (.cellVfma c int d a b e) s
      = lanes (fun i => if int then u i * v i + laneOf (x.vget e) i else vFma (u i) (v i) (laneOf (x.vget e) i))) ∧
    (stands 4 → exec (.cellVmax c int d a b) s
      = lanes (fun i => if int then (if (u i).toInt < (v i).toInt then v i else u i) else vMax (u i) (v i))) ∧
    (stands 5 → exec (.cellVmin c int d a b) s
      = lanes (fun i => if int then (if (v i).toInt < (u i).toInt then v i else u i) else vMin (u i) (v i))) ∧
    (∀ w, s.CellAt c r w → w &&& 0xFFFFC000#32 = encReg 4 6 d a 0#5 0#5 false →
      exec (.cellVbcast c d a) s = lanes (fun _ => (x.get a).setWidth 32)) ∧
    (∀ w, s.CellAt c r w → w &&& 0xFFFFC001#32 = encReg 4 7 d a 0#5 0#5 int →
      exec (.cellVred c int d a) s
        = .next (s.cellNext c r (x.put d ((vRed (if int then fun p q => p + q else vAdd) (x.vget a)).setWidth 64)) (r.pc + 4)))

/-- The matrix instructions act on the tile named and go on: `mclr` clears it in its mode, `mstep` adds a step in the tile's mode,
`mrd` reads it out into vd, reports a poisoned tile to the cell's bench and clears it when asked, `mstat` reads its state word (R217
to R226, R247). -/
def Obligations.CellMatrixOps : Prop :=
  ∀ (s : State) (c : CellId) (r : Running) (t : TileId),
    let x := s.cell c
    (∀ (mode : BitVec 2) (shift : Byte),
      s.CellAt c r (cellWord 6 0x0 (t.toNat * 2 ^ 22 + mode.toNat * 2 ^ 20 + shift.toNat * 2 ^ 12)) →
      exec (.cellMclr c t mode shift) s
        = .next ((s.effects (clearEffects (x.tile t))).cellNext c r
            (x.setTile t { mode := mode.toNat, shift := if mode = 1#2 then shift.toInt else 0 }) (r.pc + 4))) ∧
    (∀ (va vb : CellReg) (asel : BitVec 4) (bsel : BitVec 2) (vec : Bool) (fmt : BitVec 3),
      s.CellAt c r (cellWord 6 0x1 (t.toNat * 2 ^ 22 + va.toNat * 2 ^ 17 + vb.toNat * 2 ^ 12 + asel.toNat * 2 ^ 8
        + bsel.toNat * 2 ^ 6 + (if vec then 32 else 0) + fmt.toNat * 4)) →
      ((x.tile t).mode = 2 → fmt = 6#3 →
        ∃ z, exec (.cellMstep c t va vb asel bsel vec fmt) s = .next (s.cellNext c r (x.setTile t z) (r.pc + 4)) ∧
          z.elems = ((x.tile t).stepOrdered (x.vget va) (x.vget vb) asel.toNat bsel.toNat vec).elems ∧
          z.poison = ((x.tile t).poison || x.vpoison.contains va || x.vpoison.contains vb) ∧ z.steps = min 0xFFFF ((x.tile t).steps + 1) ∧ z.mode = (x.tile t).mode ∧ z.shift = (x.tile t).shift) ∧
      ((x.tile t).mode = 1 → fmt ≠ 6#3 →
        ∃ z, exec (.cellMstep c t va vb asel bsel vec fmt) s = .next (s.cellNext c r (x.setTile t z) (r.pc + 4)) ∧
          z.elems = ((x.tile t).stepLong fmt.toNat (x.vget va) (x.vget vb) asel.toNat bsel.toNat vec (x.get 30#5)).elems ∧
          z.poison = ((x.tile t).poison || x.vpoison.contains va || x.vpoison.contains vb) ∧ z.steps = min 0xFFFF ((x.tile t).steps + 1) ∧ z.mode = (x.tile t).mode ∧ z.shift = (x.tile t).shift)) ∧
    (∀ (vd : CellReg) (target : BitVec 3) (sat clr : Bool) (row : BitVec 2) (rowmode : Bool) (q : BitVec 2) (shift : BitVec 7),
      s.CellAt c r (cellWord 6 0x2 (t.toNat * 2 ^ 22 + vd.toNat * 2 ^ 17 + target.toNat * 2 ^ 14 + (if sat then 2 ^ 13 else 0)
        + (if clr then 2 ^ 12 else 0) + row.toNat * 2 ^ 10 + (if rowmode then 2 ^ 9 else 0) + q.toNat * 2 ^ 7 + shift.toNat)) →
      ∃ free : Nat → Byte, exec (.cellMrd c t vd target sat clr row rowmode q shift) s =
        .next (((if (x.tile t).poison then s.report c else s).effects (readOutEffects c t (x.tile t) (if rowmode then 4 else 16) s.now
            ++ (if clr then clearEffects (x.tile t) else []))).cellNext c r
          (let z := x.vput vd (readOut (x.tile t) (x.vget vd) target.toNat sat rowmode row.toNat q.toNat shift.toNat free)
           if clr then z.setTile t { mode := (x.tile t).mode, shift := (x.tile t).shift } else z) (r.pc + 4))) ∧
    (∀ (d : CellReg) (w : Word), s.CellAt c r w → w &&& 0xFFFE0FFF#32 = cellWord 6 0x3 (t.toNat * 2 ^ 22 + d.toNat * 2 ^ 17) →
      exec (.cellMstat c t d) s = .next (s.cellNext c r (x.put d ((x.tile t).word.setWidth 64)) (r.pc + 4)))

/-- `recv` takes the next word of the oldest message that is no work, `rqlen` counts such words, `send` and `sendw` write a
message's words and let it leave at its length; `recv` with no word stalls, and a send into a full buffer stalls, counted in
msg_backpressure (R230, R240, R250 to R252). `bput`, `bget` and `bpost` start a transfer of `length`
units of 64 bytes, 0 meaning 256, and go on; a span outside the slot's windows is refused, and one outside the slot's range of local
memory is a program fault (R253, R254, R257). -/
def Obligations.CellCommunication : Prop :=
  (∀ (s : State) (c : CellId) (r : Running) (a : CellReg) (w : Word), s.CellAt c r w →
      let x := s.cell c
      (∀ v q, w &&& 0xFFF80000#32 = cellWord 7 0x2 (a.toNat * 2 ^ 19) → takeWord x.recvQ = some (v, q) →
        exec (.cellRecv c a) s = .next (s.cellNext c r (({ x with recvQ := q } : Cell).put a v) (r.pc + 4))) ∧
      (w &&& 0xFFF80000#32 = cellWord 7 0x2 (a.toNat * 2 ^ 19) → takeWord x.recvQ = none → exec (.cellRecv c a) s = .next s) ∧
      (w &&& 0xFFF80000#32 = cellWord 7 0x3 (a.toNat * 2 ^ 19) →
        exec (.cellRqlen c a) s = .next (s.cellNext c r
          (x.put a (BitVec.ofNat 64 ((x.recvQ.filter (fun m => decide (hdrKind m.header ≠ 1))).foldl (fun n m => n + m.left) 0))) (r.pc + 4))) ∧
      (w &&& 0xFF07C000#32 = cellWord 7 0x0 (a.toNat * 2 ^ 14) → x.sendHdr = none → s.sendable (x.get a) = true → s.sendUse c x < 16 →
        exec (.cellSend c a) s =
          if hdrLength (withSource (x.get a) c) = 0 then
            .next ((s.putMesh (some c) { header := withSource (x.get a) c, words := [] }).cellNext c r
              { x with sendHdr := none, sendWords := [] } (r.pc + 4))
          else .next (s.cellNext c r { x with sendHdr := some (withSource (x.get a) c), sendWords := [] } (r.pc + 4))) ∧
      (∀ h, w &&& 0xFF07C000#32 = cellWord 7 0x1 (a.toNat * 2 ^ 14) → x.sendHdr = some h → s.sendUse c x < 16 →
        exec (.cellSendw c a) s =
          if hdrLength h ≤ x.sendWords.length + 1 then
            .next ((s.putMesh (some c) { header := h, words := x.sendWords ++ [x.get a] }).cellNext c r
              { x with sendHdr := none, sendWords := [] } (r.pc + 4))
          else .next (s.cellNext c r { x with sendHdr := some h, sendWords := x.sendWords ++ [x.get a] } (r.pc + 4))) ∧
      (w &&& 0xFF07C000#32 = cellWord 7 0x1 (a.toNat * 2 ^ 14) → x.sendHdr = none →
        exec (.cellSendw c a) s = .next (s.cellNext c r x (r.pc + 4))) ∧
      (16 ≤ s.sendUse c x →
        let stalls := fun (o : Host.Outcome State Fault Refusal) => ∃ t, o = .next t ∧ t.quiet = s.quiet ∧ t.latched 8 = true ∧
          (t.counter ⟨0x0B, 0, 3⟩).count = min (2 ^ 48 - 1) ((s.counter ⟨0x0B, 0, 3⟩).count + 1)
        (w &&& 0xFF07C000#32 = cellWord 7 0x0 (a.toNat * 2 ^ 14) → x.sendHdr = none → s.sendable (x.get a) = true →
          stalls (exec (.cellSend c a) s)) ∧
        (w &&& 0xFF07C000#32 = cellWord 7 0x1 (a.toNat * 2 ^ 14) → x.sendHdr.isSome = true → stalls (exec (.cellSendw c a) s)))) ∧
  (∀ (s : State) (c : CellId) (r : Running) (a b : CellReg) (tag : BitVec 6) (len : Byte),
      let x := s.cell c
      let n := 64 * (if len.toNat = 0 then 256 else len.toNat)
      let p := (x.get a).toNat
      let off := (x.get b).toNat % 2 ^ 30
      let faults := fun (o : Host.Outcome State Fault Refusal) => ∃ t, o = .next t ∧
        t.quiet = (s.setCell c { x with run := none, sendHdr := none, sendWords := [], faultCause := 2 }).quiet ∧ t.latched 8 = true
      (s.CellAt c r (encBulk 0x0 a b tag len) →
        (x.reaches r p n 64 = false ∨ localBytes < (x.get b).toNat % 2 ^ 17 + n ∨ (x.get b).toNat % 64 ≠ 0) →
        faults (exec (.cellBput c a b tag len) s)) ∧
      (x.reaches r p n 64 = false →
        (s.CellAt c r (encBulk 0x1 a b tag len) → faults (exec (.cellBget c a b tag len) s)) ∧
        (s.CellAt c r (encBulk 0x2 a b tag len) → faults (exec (.cellBpost c a b tag len) s))) ∧
      (x.reaches r p n 64 = true →
      (s.CellAt c r (encBulk 0x0 a b tag len) → (x.get b).toNat % 2 ^ 17 + n ≤ localBytes → (x.get b).toNat % 64 = 0 →
        exec (.cellBput c a b tag len) s = .next ((s.startTransfer
          { from? := c, kind := 0, dest := BitVec.ofNat 12 (hdrDest (x.get b)), localAddr := p, remote := (x.get b).toNat % 2 ^ 17,
            bytes := n, data := x.mem.bytes p n, poison := (x.poisonAt p n).isSome, tag := tag, refused := false,
            issued := s.now }).cellNext c r x (r.pc + 4))) ∧
      (∀ write : Bool, s.CellAt c r (encBulk (if write then 0x2 else 0x1) a b tag len) →
        ∃ t, (if write then exec (.cellBpost c a b tag len) s else exec (.cellBget c a b tag len) s) = .next t ∧
          ∃ f, t.grid.transfers = s.grid.transfers ++ [f] ∧ f.from? = c ∧ f.kind = (if write then 2 else 1) ∧ f.localAddr = p ∧
            f.remote = off ∧ f.bytes = n ∧ f.tag = tag ∧ (write = true → f.data = x.mem.bytes p n) ∧
            (f.refused = true ↔ ¬ (off % 64 = 0 ∧ ∃ v ∈ (x.slot r.slot1).windows, v.1 ≤ off ∧ off + n ≤ v.1 + v.2.1 ∧
              (write = true → v.2.2 = true))) ∧
            (f.refused = true → t.latched 8 = true) ∧ { t.quiet with grid := s.grid } = s.quiet ∧
            t.grid.cells = (s.cellNext c r x (r.pc + 4)).grid.cells ∧
            { t.grid with transfers := s.grid.transfers, cells := s.grid.cells } = s.grid)))

/-- `bar` waits at a channel the cell is a member of, `fset` and `fclr` send a change to the root, `frd` reads a flag, `fwait`
goes on while the flag holds its value; `nop` goes on, `end` makes the core idle, `csrr` and `plumb` read (R231, R242, R255,
R256); plumb is at most one tick old (R34). BARRIER_COMPLETE releases every member of a full channel and nothing else (R231);
FLAG_CHANGE applies the oldest change of a flag, and a set and a clear of one cycle leave it set (R231). -/
def Obligations.CellSynchronization : Prop :=
  (∀ (s : State) (c : CellId) (r : Running) (d : CellReg) (w : Word), s.CellAt c r w →
      let x := s.cell c
      (∀ ch : BitVec 6, w &&& 0xFF003F00#32 = cellWord 9 0 (ch.toNat * 2 ^ 8) → (x.slot r.slot1).barrierMask.getLsbD ch.toNat = true →
        exec (.cellBar c ch) s = .next (s.setCell c { x with run := some { r with atBarrier := some ch } })) ∧
      (∀ f : Byte, w &&& 0xFF003FC0#32 = cellWord 9 1 (f.toNat * 2 ^ 6) →
        exec (.cellFset c f) s = .next ((s.askFlag f true).cellNext c r x (r.pc + 4))) ∧
      (∀ f : Byte, w &&& 0xFF003FC0#32 = cellWord 9 2 (f.toNat * 2 ^ 6) →
        exec (.cellFclr c f) s = .next ((s.askFlag f false).cellNext c r x (r.pc + 4))) ∧
      (∀ f : Byte, w &&& 0xFFF83FC0#32 = cellWord 9 3 (d.toNat * 2 ^ 19 + f.toNat * 2 ^ 6) →
        exec (.cellFrd c d f) s = .next (s.cellNext c r (x.put d (if s.flag f = true then 1#64 else 0#64)) (r.pc + 4))) ∧
      (∀ (f : Byte) (v : Bool), w &&& 0xFF003FC1#32 = cellWord 9 4 (f.toNat * 2 ^ 6 + (if v then 1 else 0)) →
        exec (.cellFwait c f v) s = if s.flag f = v then .next (s.cellNext c r x (r.pc + 4)) else .next s) ∧
      (w &&& 0xFF000000#32 = cellWord 0xA 0 0 → exec (.cellNop c) s = .next (s.cellNext c r x (r.pc + 4))) ∧
      (w &&& 0xFF000000#32 = cellWord 0xA 1 0 → exec (.cellEnd c) s = .next (s.setCell c { x with run := none })) ∧
      (∀ (k : BitVec 14) (v : DWord), w &&& 0xFFF83FFF#32 = cellWord 0xA 2 (d.toNat * 2 ^ 19 + k.toNat) →
        [c.setWidth 64, if r.slot1 then 1#64 else 0#64, BitVec.ofNat 64 (s.power.half (cellHalf c)).run,
          BitVec.ofNat 64 x.faultCause, BitVec.ofNat 64 x.workItems][k.toNat]? = some v →
        exec (.cellCsrr c d k) s = .next (s.cellNext c r (x.put d v) (r.pc + 4))) ∧
      (w &&& 0xFFF80000#32 = cellWord 0xA 4 (d.toNat * 2 ^ 19) →
        ∃ old : Nat, old ≤ 1 ∧ exec (.cellPlumb c d) s =
          .next (({ s with freeUse := s.freeUse + 1 }).cellNext c r (x.put d (s.aon.plumb - BitVec.ofNat 64 old)) (r.pc + 4)))) ∧
  (∀ (s : State),
      (∀ ch : Fin 64, ∃ t, exec (.barrierComplete ch) s = .next t ∧ { t with grid := { t.grid with cells := s.grid.cells } } = s ∧
        ∀ c x, aget c s.grid.cells = some x →
          (∀ one, s.barrierFull one (BitVec.ofNat 6 ch.val) = true → x.arrived one (BitVec.ofNat 6 ch.val) = true →
            aget c t.grid.cells = some { x with run := x.run.map (fun (r : Running) => { r with pc := r.pc + 4, atBarrier := none }) }) ∧
          ((∀ one, s.barrierFull one (BitVec.ofNat 6 ch.val) = false ∨ x.arrived one (BitVec.ofNat 6 ch.val) = false) →
            aget c t.grid.cells = some x)) ∧
      (∀ f v k rest, s.grid.flagOps = (f, v, k) :: rest →
        ((∀ o ∈ rest, ¬ (o.1 = f ∧ o.2.2 = k ∧ o.2.1 ≠ v)) →
          ∃ t, exec .flagChange s = .next t ∧ t.flag f = v ∧ (∀ g, g ≠ f → t.flag g = s.flag g) ∧ t.grid.flagOps = rest ∧
            { t with grid := { t.grid with flags := s.grid.flags, flagOps := s.grid.flagOps } } = s) ∧
        ((∃ o ∈ rest, o.1 = f ∧ o.2.2 = k ∧ o.2.1 ≠ v) →
          ∃ t, exec .flagChange s = .next t ∧ t.flag f = true ∧ (∀ g, g ≠ f → t.flag g = s.flag g) ∧
            t.grid.flagOps = rest.filter (fun o => !(decide (o.1 = f) && decide (o.2.2 = k))) ∧
            { t.quiet with grid := { t.grid with flags := s.grid.flags, flagOps := s.grid.flagOps } } = s.quiet)))

/-- A program fault ends the handler, discards the message being written, keeps its cause, latches NTC_CELL and leaves every other
part as it was: a fetch that fails, and on a poisoned word a report to the bench (1, 2, 3), an access outside the slot's range (2), a step in the wrong tile mode (4), a barrier the
cell is no member of (5), a bad send (6), a control register that is not there (7) (R257). Of an idle core, one at a barrier and one whose cell reloads no instruction runs
(R242, R249, R265). -/
def Obligations.CellProgramFaults : Prop :=
  ∀ (s : State) (c : CellId) (r : Running),
    let x := s.cell c
    let faults := fun (o : Host.Outcome State Fault Refusal) (cause : Nat) =>
      ∃ t, o = .next t ∧
        t.quiet = (s.setCell c { x with run := none, sendHdr := none, sendWords := [], faultCause := cause }).quiet ∧ t.latched 8 = true
    (∀ i : Instr, coreOf i = some c →
      ((x.run = none ∨ x.reloading = true) → exec i s = .next s) ∧ (∀ q ch, x.run = some q → q.atBarrier = some ch → exec i s = .next s) ∧
      (x.run = some r → r.atBarrier = none → x.reloading = false →
        (∀ k, x.fetch r r.pc = .fault k → faults (exec i s) k) ∧
        (∀ a, x.fetch r r.pc = .poison a → ∃ t, exec i s = .next t ∧
          t.quiet = ((s.report c).setCell c { x with run := none, sendHdr := none, sendWords := [], faultCause := 3 }).quiet ∧
          t.latched 8 = true ∧ t.latched 19 = true))) ∧
    (∀ (d a : CellReg) (imm : BitVec 14),
      (s.CellAt c r (encImm 2 0x0 d a imm) → x.reaches r (x.addr a imm) 1 1 = false → faults (exec (.cellLdB c d a imm) s) 2) ∧
      (s.CellAt c r (encImm 2 0x1 d a imm) → x.reaches r (x.addr a imm) 2 2 = false → faults (exec (.cellLdH c d a imm) s) 2) ∧
      (s.CellAt c r (encImm 2 0x2 d a imm) → x.reaches r (x.addr a imm) 4 4 = false → faults (exec (.cellLdW c d a imm) s) 2) ∧
      (s.CellAt c r (encImm 2 0x3 d a imm) → x.reaches r (x.addr a imm) 8 8 = false → faults (exec (.cellLdD c d a imm) s) 2) ∧
      (s.CellAt c r (encImm 2 0x8 d a imm) → x.reaches r (x.addr a imm) 1 1 = false → faults (exec (.cellStB c d a imm) s) 2) ∧
      (s.CellAt c r (encImm 2 0x9 d a imm) → x.reaches r (x.addr a imm) 2 2 = false → faults (exec (.cellStH c d a imm) s) 2) ∧
      (s.CellAt c r (encImm 2 0xA d a imm) → x.reaches r (x.addr a imm) 4 4 = false → faults (exec (.cellStW c d a imm) s) 2) ∧
      (s.CellAt c r (encImm 2 0xB d a imm) → x.reaches r (x.addr a imm) 8 8 = false → faults (exec (.cellStD c d a imm) s) 2) ∧
      (s.CellAt c r (encImm 5 0x0 d a imm) → x.reaches r (x.addr a imm) 64 64 = false → faults (exec (.cellVld c d a imm) s) 2) ∧
      (s.CellAt c r (encImm 5 0x1 d a imm) → x.reaches r (x.addr a imm) 64 64 = false → faults (exec (.cellVst c d a imm) s) 2)) ∧
    (∀ (t : TileId) (va vb : CellReg) (asel : BitVec 4) (bsel : BitVec 2) (vec : Bool) (fmt : BitVec 3),
      s.CellAt c r (cellWord 6 0x1 (t.toNat * 2 ^ 22 + va.toNat * 2 ^ 17 + vb.toNat * 2 ^ 12 + asel.toNat * 2 ^ 8
        + bsel.toNat * 2 ^ 6 + (if vec then 32 else 0) + fmt.toNat * 4)) →
      (x.tile t).mode ≠ (if fmt = 6#3 then 2 else 1) → faults (exec (.cellMstep c t va vb asel bsel vec fmt) s) 4) ∧
    (∀ (w : Word), s.CellAt c r w →
      (∀ ch : BitVec 6, w &&& 0xFF003F00#32 = cellWord 9 0 (ch.toNat * 2 ^ 8) →
        (x.slot r.slot1).barrierMask.getLsbD ch.toNat = false → faults (exec (.cellBar c ch) s) 5) ∧
      (∀ a : CellReg, w &&& 0xFF07C000#32 = cellWord 7 0x0 (a.toNat * 2 ^ 14) →
        (x.sendHdr.isSome = true ∨ s.sendable (x.get a) = false) → faults (exec (.cellSend c a) s) 6) ∧
      (∀ (d : CellReg) (k : BitVec 14), w &&& 0xFFF83FFF#32 = cellWord 0xA 2 (d.toNat * 2 ^ 19 + k.toNat) → 5 ≤ k.toNat →
        faults (exec (.cellCsrr c d k) s) 7))

/-- HANDLER_START starts the handler of the oldest work message in an idle core: g1 holds the header, g2 upward the payload words,
every other general register zero, and the pc is four times the handler table's entry (R242); CELL_MESSAGE_ARRIVE queues the
oldest message to the cell while 64 words have room (R230). BULK_TRANSFER_COMPLETE lands the oldest transfer that completes at
a cell, where the transfer says, and queues its completion word: status 1 refused, 2 poisoned, else 0 (R253, R254). -/
def Obligations.CellDeliveries : Prop :=
  (∀ (s : State) (c : CellId),
      let x := s.cell c
      let mine := fun (m : Msg) => !hdrToEngine m.header && decide (hdrDest m.header = c.toNat) &&
          !(s.grid.transfers.any (fun t => decide (t.kind = 3) && decide (t.dest = c) && decide (t.from?.toNat = hdrSource m.header)
            && m.isWork))
      (∀ m entry, x.run = none → x.reloading = false → s.rel.usable c = true → x.recvQ.find? Msg.isWork = some m →
        (x.slot (hdrSlot m.header)).handlers[hdrHandler m.header]? = some entry → entry ≠ 0xFFFF →
        ∃ t, exec (.handlerStart c) s = .next t ∧
          t.quiet = (s.setCell c { x with
            g := Vector.ofFn (fun i => if i.val = 1 then m.header else if 2 ≤ i.val then (m.words[i.val - 2]?).getD 0#64 else 0#64)
            recvQ := x.recvQ.erase m
            workItems := min (2 ^ 48 - 1) (x.workItems + 1)
            run := some { pc := 4 * entry, slot1 := hdrSlot m.header, handlerAddr := 4 * entry } }).quiet) ∧
      (∀ m, x.run = none → x.reloading = false → s.rel.usable c = true → x.recvQ.find? Msg.isWork = some m →
        ((x.slot (hdrSlot m.header)).handlers[hdrHandler m.header]?).getD 0xFFFF = 0xFFFF →
        ∃ t, exec (.handlerStart c) s = .next t ∧ (t.cell c).run = none ∧ (t.cell c).faultCause = 2 ∧
          (t.cell c).recvQ = x.recvQ.erase m ∧ (t.cell c).workItems = min (2 ^ 48 - 1) (x.workItems + 1) ∧ t.latched 8 = true ∧
          { t.quiet with grid := { t.grid with cells := s.grid.cells } } = s.quiet ∧ (∀ d, d ≠ c → t.cell d = s.cell d)) ∧
      ((x.run.isSome = true ∨ x.reloading = true ∨ s.rel.usable c = false ∨ ∀ m ∈ x.recvQ, m.isWork = false) →
        exec (.handlerStart c) s = .next s) ∧
      ((s.takeMesh mine = none → exec (.cellMessageArrive c) s = .next s) ∧
        (∀ m u, s.takeMesh mine = some (m, u) →
          (s.rel.usable c = false → exec (.cellMessageArrive c) s = .next u) ∧
          (s.rel.usable c = true → x.reloading = true → m.isWork = true → ∃ t, exec (.cellMessageArrive c) s = .next t ∧
            t.quiet = u.quiet ∧ (t.counter ⟨0x0B, 0, 10⟩).count = min (2 ^ 48 - 1) ((s.counter ⟨0x0B, 0, 10⟩).count + 1)) ∧
          (s.rel.usable c = true → (x.reloading = false ∨ m.isWork = false) →
            (64 < x.queued + m.size → exec (.cellMessageArrive c) s = .next (s.stopMesh m)) ∧
            (x.queued + m.size ≤ 64 →
              exec (.cellMessageArrive c) s = .next (u.setCell c { x with recvQ := x.recvQ ++ [{ m with waits := false }] })))))) ∧
  (∀ (s : State) (c : CellId),
      let a := s.arbitrate (benchOf c) s.now
      let next := a.grid.transfers.find? (fun t => decide ((if t.kind = 0 ∨ t.kind = 3 then t.dest else t.from?) = c))
      (next = none → exec (.bulkTransferComplete c) s = .next a) ∧
      (∀ f, next = some f →
        let asks := (f.kind = 1 ∨ f.kind = 2) ∧ f.refused = false ∧ f.granted = false
        let taken := { a with grid := { a.grid with transfers := a.grid.transfers.erase f } }
        (asks → exec (.bulkTransferComplete c) s = .next a) ∧
        (¬ asks → a.rel.usable c = false →
          exec (.bulkTransferComplete c) s = .next (if f.kind = 2 then (taken.land f).1 else taken)) ∧
        (¬ asks → a.rel.usable c = true → 64 < (a.cell c).queued + 1 → exec (.bulkTransferComplete c) s = .next a) ∧
        (¬ asks → a.rel.usable c = true → (a.cell c).queued + 1 ≤ 64 →
          ∃ t, exec (.bulkTransferComplete c) s = .next t ∧ t.grid.transfers = a.grid.transfers.erase f ∧
            (∃ status, (t.cell c).recvQ = (a.cell c).recvQ ++
                [{ header := mkHeader 2 c.toNat false f.from?.toNat 0 false status f.tag.toNat, words := [] }] ∧
              (f.refused = true → status = 1 ∧ (t.cell c).mem = (a.cell c).mem ∧ t.grid.shared = a.grid.shared) ∧
              (f.refused = false → f.kind ≠ 1 → status = if f.poison then 2 else 0) ∧
              (f.refused = false → f.kind = 0 ∨ f.kind = 3 → (t.cell c).mem = (a.cell c).mem.setBytes f.remote f.data ∧
                t.grid.shared = a.grid.shared) ∧
              (f.refused = false → f.kind = 1 → (t.cell c).mem = (a.cell c).mem.setBytes f.localAddr (a.readShared f.remote f.bytes) ∧
                status = (if (a.sharedPoison f.remote f.bytes).isSome then 2 else 0) ∧ t.grid.shared = a.grid.shared) ∧
              (f.refused = false → f.kind = 2 → (t.cell c).mem = (a.cell c).mem ∧
                t.grid.shared = a.grid.shared.setBytes f.remote f.data)) ∧
            (t.cell c).g = (a.cell c).g ∧ (t.cell c).v = (a.cell c).v ∧ (t.cell c).run = (a.cell c).run ∧
            (∀ d, d ≠ c → t.cell d = a.cell d) ∧ { t.quiet with grid := a.grid, rel := a.rel } = a.quiet)))
end

