-- ==== Sys2Proof/Laws/Memory.lean ====
section
/-! SUPPORT. The laws of the addressed memories and of the maps held as lists: read after write, and that every memory
operation keeps the canonical form. -/

namespace Sys2Proof.Machine

/-! ### Maps -/

@[simp] theorem aget_aset_self {α β : Type} [DecidableEq α] (k : α) (v : β) (m : List (α × β)) :
    aget k (aset k v m) = some v := by
  induction m with
  | nil => simp [aset, aget]
  | cons p m ih => by_cases h : p.1 = k <;> simp [aset, aget, h, ih]

theorem aget_aset_ne {α β : Type} [DecidableEq α] {j k : α} (h : j ≠ k) (v : β) (m : List (α × β)) :
    aget j (aset k v m) = aget j m := by
  induction m with
  | nil => simp [aset, aget, Ne.symm h]
  | cons p m ih =>
    obtain ⟨a, b⟩ := p
    by_cases hk : a = k
    · subst hk
      simp [aset, aget, Ne.symm h]
    · by_cases hj : a = j <;> simp only [aset, aget, hk, hj, ih, if_true, if_false]
      all_goals first | rfl | simp_all [aget]

theorem aget_aset {α β : Type} [DecidableEq α] (j k : α) (v : β) (m : List (α × β)) :
    aget j (aset k v m) = if j = k then some v else aget j m := by
  by_cases h : j = k
  · simp [h]
  · simp [h, aget_aset_ne h]

theorem aget_aerase {α β : Type} [DecidableEq α] (j k : α) (m : List (α × β)) :
    aget j (aerase k m) = if j = k then none else aget j m := by
  induction m with
  | nil => simp [aerase, aget]
  | cons p m ih =>
    obtain ⟨a, b⟩ := p
    simp only [aerase] at ih
    by_cases hk : a = k <;> by_cases hj : a = j <;> by_cases hjk : j = k <;> simp_all [aerase, aget]

/-- A value that a map gives stands in it. -/
theorem mem_of_aget {α β : Type} [DecidableEq α] {k : α} {v : β} {m : List (α × β)} (h : aget k m = some v) : (k, v) ∈ m := by
  induction m with
  | nil => simp [aget] at h
  | cons p m ih =>
    obtain ⟨a, b⟩ := p
    by_cases hk : a = k
    · simp [aget, hk] at h
      simp [hk, h]
    · simp [aget, hk] at h
      exact List.mem_cons_of_mem _ (ih h)

/-- What holds of every value of a map still holds after one is set. -/
theorem aset_forall {α β : Type} [DecidableEq α] (P : α × β → Prop) {k : α} {v : β} {m : List (α × β)}
    (hm : ∀ e ∈ m, P e) (hv : P (k, v)) : ∀ e ∈ aset k v m, P e := by
  induction m with
  | nil => simpa [aset] using hv
  | cons p m ih =>
    obtain ⟨a, b⟩ := p
    by_cases hk : a = k
    · simp only [aset, hk, if_true]
      intro e he
      rcases List.mem_cons.1 he with rfl | he
      · exact hv
      · exact hm e (List.mem_cons_of_mem _ he)
    · simp only [aset, hk, if_false]
      intro e he
      rcases List.mem_cons.1 he with rfl | he
      · exact hm _ (by simp)
      · exact ih (fun e he => hm e (List.mem_cons_of_mem _ he)) e he

/-! ### Addressed memories -/

/-- Below the first listed address every byte reads 0. -/
theorem Memory.get_below {m : Memory} {b : Nat} {w : Byte} (h : Memory.wf ((b, w) :: m) = true) {a : Nat} (hab : a < b) :
    Memory.get ((b, w) :: m) a = 0#8 := by
  induction m generalizing b w with
  | nil => simp [Memory.get, Nat.ne_of_gt hab]
  | cons p m ih =>
    obtain ⟨c, u⟩ := p
    simp [Memory.wf] at h
    have := ih (b := c) (w := u) h.2 (by omega)
    simp only [Memory.get] at this ⊢
    rw [if_neg (by omega)]
    exact this

theorem Memory.wf_tail {p : Host.Cell} {m : Memory} (h : Memory.wf (p :: m) = true) : Memory.wf m = true := by
  cases m with
  | nil => rfl
  | cons q m => simp [Memory.wf] at h; exact h.2

/-- Read after write of one byte. -/
theorem Memory.get_set {m : Memory} (h : m.wf = true) (a b : Nat) (v : Byte) :
    (m.set a v).get b = if b = a then v else m.get b := by
  induction m with
  | nil =>
    by_cases hv : v = 0#8 <;> by_cases hb : b = a
    · simp [Memory.set, Memory.get, hv]
    · simp [Memory.set, Memory.get, hv]
    · simp [Memory.set, Memory.get, hv, hb]
    · simp [Memory.set, Memory.get, hv, hb, Ne.symm hb]
  | cons p m ih =>
    obtain ⟨c, w⟩ := p
    have iht := ih (Memory.wf_tail h)
    by_cases h1 : a < c
    · have hz := Memory.get_below h h1
      by_cases hv : v = 0#8 <;> by_cases hb : b = a
      · subst hb; simp [Memory.set, h1, hv, hz]
      · simp [Memory.set, h1, hv, hb]
      · subst hb; simp [Memory.set, h1, hv, Memory.get]
      · simp [Memory.set, h1, hv, hb, Memory.get, Ne.symm hb]
    · by_cases h2 : a = c
      · subst h2
        have hz : Memory.get m a = 0#8 := by
          cases m with
          | nil => rfl
          | cons q m =>
            obtain ⟨d, u⟩ := q
            simp [Memory.wf] at h
            exact Memory.get_below h.2 h.1.2
        by_cases hv : v = 0#8 <;> by_cases hb : b = a
        · subst hb; simp [Memory.set, hv, hz]
        · simp [Memory.set, hv, hb, Memory.get, Ne.symm hb]
        · subst hb; simp [Memory.set, hv, Memory.get]
        · simp [Memory.set, hv, hb, Memory.get, Ne.symm hb]
      · simp only [Memory.set, h1, h2, if_false, Memory.get, iht]
        by_cases hc : c = b
        · have : b ≠ a := by omega
          simp [hc, this]
        · simp [hc]

/-- A write puts nothing before the first listed address but itself. -/
theorem Memory.set_head {m : Memory} (a : Nat) (v : Byte) {q : Host.Cell} {r : Memory} (h : m.set a v = q :: r) (lo : Nat)
    (ha : lo < a) (hm : ∀ p r, m = p :: r → lo < p.1) (hw : m.wf = true) : lo < q.1 := by
  cases m with
  | nil =>
    by_cases hv : v = 0#8 <;> simp [Memory.set, hv] at h
    rw [← h.1]; exact ha
  | cons p m =>
    obtain ⟨c, w⟩ := p
    have hc := hm _ _ rfl
    simp only [Memory.set] at h
    split at h
    · split at h
      · cases h; exact hc
      · cases h; exact ha
    · split at h
      · split at h
        · subst h
          simp [Memory.wf] at hw
          have := hw.1.2
          simp at hc
          omega
        · cases h; exact ha
      · cases h; exact hc

/-- A write of one byte keeps the canonical form. -/
theorem Memory.wf_set {m : Memory} (h : m.wf = true) (a : Nat) (v : Byte) : (m.set a v).wf = true := by
  induction m with
  | nil => by_cases hv : v = 0#8 <;> simp [Memory.set, Memory.wf, hv]
  | cons p m ih =>
    obtain ⟨c, w⟩ := p
    have ht := Memory.wf_tail h
    have hw : w ≠ 0#8 := by cases m <;> simp [Memory.wf] at h <;> tauto
    simp only [Memory.set]
    split
    · split
      · exact h
      · rename_i h1 hv
        simp [Memory.wf, hv, h1, h]
    · split
      · split
        · exact ht
        · rename_i h1 h2 hv
          cases m with
          | nil => simp [Memory.wf, hv]
          | cons q m =>
            subst h2
            simp [Memory.wf] at h ⊢
            exact ⟨⟨hv, h.1.2⟩, h.2⟩
      · rename_i h1 h2
        have hs := ih ht
        cases hq : Memory.set m a v with
        | nil => simp [Memory.wf, hw]
        | cons q r =>
          have hlt : c < q.1 := by
            refine Memory.set_head a v hq c (by omega) ?_ ht
            intro p' r' e
            subst e
            simp [Memory.wf] at h
            exact h.1.2
          rw [hq] at hs
          obtain ⟨d, u⟩ := q
          simp [Memory.wf, hw, hlt, hs]

/-- A write of bytes keeps the canonical form. -/
theorem Memory.wf_setBytes {m : Memory} (h : m.wf = true) (a : Nat) (bs : List Byte) : (m.setBytes a bs).wf = true := by
  induction bs generalizing m a with
  | nil => exact h
  | cons b bs ih => exact ih (Memory.wf_set h a b) (a + 1)

/-- Read after write of bytes. -/
theorem Memory.get_setBytes {m : Memory} (h : m.wf = true) (a b : Nat) (bs : List Byte) :
    (m.setBytes a bs).get b = if h : a ≤ b ∧ b < a + bs.length then bs[b - a]'(by omega) else m.get b := by
  induction bs generalizing m a with
  | nil => simp [Memory.setBytes]
  | cons x bs ih =>
    rw [Memory.setBytes, ih (Memory.wf_set h a x), Memory.get_set h]
    by_cases h1 : b = a
    · subst h1
      simp
    · by_cases h2 : a + 1 ≤ b ∧ b < a + 1 + bs.length
      · have h3 : a ≤ b ∧ b < a + (x :: bs).length := by simp; omega
        rw [dif_pos h2, dif_pos h3]
        obtain ⟨d, hd⟩ : ∃ d, b - a = d + 1 := ⟨b - a - 1, by omega⟩
        have : b - (a + 1) = d := by omega
        simp [hd, this]
      · have h3 : ¬ (a ≤ b ∧ b < a + (x :: bs).length) := by simp; omega
        rw [dif_neg h2, dif_neg h3, if_neg h1]

/-- Bytes written are the bytes read back. -/
theorem Memory.bytes_setBytes {m : Memory} (h : m.wf = true) (a : Nat) (bs : List Byte) :
    (m.setBytes a bs).bytes a bs.length = bs := by
  apply List.ext_getElem
  · simp [Memory.bytes]
  · intro i h1 h2
    simp only [Memory.bytes, List.getElem_map, List.getElem_range, Memory.get_setBytes h]
    rw [dif_pos (by omega)]
    congr 1
    omega

/-- Bytes outside what is written read as before. -/
theorem Memory.bytes_setBytes_outside {m : Memory} (h : m.wf = true) (a b n : Nat) (bs : List Byte)
    (hd : b + n ≤ a ∨ a + bs.length ≤ b) : (m.setBytes a bs).bytes b n = m.bytes b n := by
  apply List.map_congr_left
  intro i hi
  have := List.mem_range.1 hi
  rw [Memory.get_setBytes h, dif_neg (by omega)]

end Sys2Proof.Machine
end

