-- ==== Sys2Proof/Laws/State.lean ====
section
/-! SUPPORT. One lemma per field for each named update of the state: what it leaves unchanged, and what it sets. -/

namespace Sys2Proof.Machine

@[simp] theorem State.setQueue_pending (s : State) (q : QueueId) (v : Queue) : (s.setQueue q v).pending = s.pending := rfl
@[simp] theorem State.setQueue_freeUse (s : State) (q : QueueId) (v : Queue) : (s.setQueue q v).freeUse = s.freeUse := rfl
@[simp] theorem State.setQueue_aon (s : State) (q : QueueId) (v : Queue) : (s.setQueue q v).aon = s.aon := rfl
@[simp] theorem State.setQueue_boot (s : State) (q : QueueId) (v : Queue) : (s.setQueue q v).boot = s.boot := rfl
@[simp] theorem State.setQueue_ctl (s : State) (q : QueueId) (v : Queue) : (s.setQueue q v).ctl = s.ctl := rfl
@[simp] theorem State.setQueue_plane (s : State) (q : QueueId) (v : Queue) : (s.setQueue q v).plane = s.plane := rfl
@[simp] theorem State.setQueue_bulk (s : State) (q : QueueId) (v : Queue) : (s.setQueue q v).bulk = s.bulk := rfl
@[simp] theorem State.setQueue_cast (s : State) (q : QueueId) (v : Queue) : (s.setQueue q v).cast = s.cast := rfl
@[simp] theorem State.setQueue_streams (s : State) (q : QueueId) (v : Queue) : (s.setQueue q v).streams = s.streams := rfl
@[simp] theorem State.setQueue_eng (s : State) (q : QueueId) (v : Queue) : (s.setQueue q v).eng = s.eng := rfl
@[simp] theorem State.setQueue_grid (s : State) (q : QueueId) (v : Queue) : (s.setQueue q v).grid = s.grid := rfl
@[simp] theorem State.setQueue_rel (s : State) (q : QueueId) (v : Queue) : (s.setQueue q v).rel = s.rel := rfl
@[simp] theorem State.setQueue_power (s : State) (q : QueueId) (v : Queue) : (s.setQueue q v).power = s.power := rfl

@[simp] theorem State.setSem_pending (s : State) (n : Fin 32) (v : Semaphore) : (s.setSem n v).pending = s.pending := rfl
@[simp] theorem State.setSem_freeUse (s : State) (n : Fin 32) (v : Semaphore) : (s.setSem n v).freeUse = s.freeUse := rfl
@[simp] theorem State.setSem_aon (s : State) (n : Fin 32) (v : Semaphore) : (s.setSem n v).aon = s.aon := rfl
@[simp] theorem State.setSem_boot (s : State) (n : Fin 32) (v : Semaphore) : (s.setSem n v).boot = s.boot := rfl
@[simp] theorem State.setSem_queues (s : State) (n : Fin 32) (v : Semaphore) : (s.setSem n v).queues = s.queues := rfl
@[simp] theorem State.setSem_plane (s : State) (n : Fin 32) (v : Semaphore) : (s.setSem n v).plane = s.plane := rfl
@[simp] theorem State.setSem_bulk (s : State) (n : Fin 32) (v : Semaphore) : (s.setSem n v).bulk = s.bulk := rfl
@[simp] theorem State.setSem_cast (s : State) (n : Fin 32) (v : Semaphore) : (s.setSem n v).cast = s.cast := rfl
@[simp] theorem State.setSem_streams (s : State) (n : Fin 32) (v : Semaphore) : (s.setSem n v).streams = s.streams := rfl
@[simp] theorem State.setSem_eng (s : State) (n : Fin 32) (v : Semaphore) : (s.setSem n v).eng = s.eng := rfl
@[simp] theorem State.setSem_grid (s : State) (n : Fin 32) (v : Semaphore) : (s.setSem n v).grid = s.grid := rfl
@[simp] theorem State.setSem_rel (s : State) (n : Fin 32) (v : Semaphore) : (s.setSem n v).rel = s.rel := rfl
@[simp] theorem State.setSem_power (s : State) (n : Fin 32) (v : Semaphore) : (s.setSem n v).power = s.power := rfl

@[simp] theorem State.setSlot_pending (s : State) (p : MPort) (n : Fin 32) (v : MSlot) : (s.setSlot p n v).pending = s.pending := rfl
@[simp] theorem State.setSlot_freeUse (s : State) (p : MPort) (n : Fin 32) (v : MSlot) : (s.setSlot p n v).freeUse = s.freeUse := rfl
@[simp] theorem State.setSlot_aon (s : State) (p : MPort) (n : Fin 32) (v : MSlot) : (s.setSlot p n v).aon = s.aon := rfl
@[simp] theorem State.setSlot_boot (s : State) (p : MPort) (n : Fin 32) (v : MSlot) : (s.setSlot p n v).boot = s.boot := rfl
@[simp] theorem State.setSlot_queues (s : State) (p : MPort) (n : Fin 32) (v : MSlot) : (s.setSlot p n v).queues = s.queues := rfl
@[simp] theorem State.setSlot_plane (s : State) (p : MPort) (n : Fin 32) (v : MSlot) : (s.setSlot p n v).plane = s.plane := rfl
@[simp] theorem State.setSlot_bulk (s : State) (p : MPort) (n : Fin 32) (v : MSlot) : (s.setSlot p n v).bulk = s.bulk := rfl
@[simp] theorem State.setSlot_cast (s : State) (p : MPort) (n : Fin 32) (v : MSlot) : (s.setSlot p n v).cast = s.cast := rfl
@[simp] theorem State.setSlot_streams (s : State) (p : MPort) (n : Fin 32) (v : MSlot) : (s.setSlot p n v).streams = s.streams := rfl
@[simp] theorem State.setSlot_eng (s : State) (p : MPort) (n : Fin 32) (v : MSlot) : (s.setSlot p n v).eng = s.eng := rfl
@[simp] theorem State.setSlot_grid (s : State) (p : MPort) (n : Fin 32) (v : MSlot) : (s.setSlot p n v).grid = s.grid := rfl
@[simp] theorem State.setSlot_rel (s : State) (p : MPort) (n : Fin 32) (v : MSlot) : (s.setSlot p n v).rel = s.rel := rfl
@[simp] theorem State.setSlot_power (s : State) (p : MPort) (n : Fin 32) (v : MSlot) : (s.setSlot p n v).power = s.power := rfl

@[simp] theorem State.reply_pending (s : State) (b : Bus) (r : Nat) (d : List Byte) : (s.reply b r d).pending = s.pending := rfl
@[simp] theorem State.reply_freeUse (s : State) (b : Bus) (r : Nat) (d : List Byte) : (s.reply b r d).freeUse = s.freeUse := rfl
@[simp] theorem State.reply_aon (s : State) (b : Bus) (r : Nat) (d : List Byte) : (s.reply b r d).aon = s.aon := rfl
@[simp] theorem State.reply_boot (s : State) (b : Bus) (r : Nat) (d : List Byte) : (s.reply b r d).boot = s.boot := rfl
@[simp] theorem State.reply_queues (s : State) (b : Bus) (r : Nat) (d : List Byte) : (s.reply b r d).queues = s.queues := rfl
@[simp] theorem State.reply_plane (s : State) (b : Bus) (r : Nat) (d : List Byte) : (s.reply b r d).plane = s.plane := rfl
@[simp] theorem State.reply_bulk (s : State) (b : Bus) (r : Nat) (d : List Byte) : (s.reply b r d).bulk = s.bulk := rfl
@[simp] theorem State.reply_cast (s : State) (b : Bus) (r : Nat) (d : List Byte) : (s.reply b r d).cast = s.cast := rfl
@[simp] theorem State.reply_streams (s : State) (b : Bus) (r : Nat) (d : List Byte) : (s.reply b r d).streams = s.streams := rfl
@[simp] theorem State.reply_eng (s : State) (b : Bus) (r : Nat) (d : List Byte) : (s.reply b r d).eng = s.eng := rfl
@[simp] theorem State.reply_grid (s : State) (b : Bus) (r : Nat) (d : List Byte) : (s.reply b r d).grid = s.grid := rfl
@[simp] theorem State.reply_rel (s : State) (b : Bus) (r : Nat) (d : List Byte) : (s.reply b r d).rel = s.rel := rfl
@[simp] theorem State.reply_power (s : State) (b : Bus) (r : Nat) (d : List Byte) : (s.reply b r d).power = s.power := rfl

@[simp] theorem State.setHalf_pending (s : State) (h : HalfId) (v : HalfPower) : (s.setHalf h v).pending = s.pending := by cases h <;> rfl
@[simp] theorem State.setHalf_freeUse (s : State) (h : HalfId) (v : HalfPower) : (s.setHalf h v).freeUse = s.freeUse := by cases h <;> rfl
@[simp] theorem State.setHalf_aon (s : State) (h : HalfId) (v : HalfPower) : (s.setHalf h v).aon = s.aon := by cases h <;> rfl
@[simp] theorem State.setHalf_boot (s : State) (h : HalfId) (v : HalfPower) : (s.setHalf h v).boot = s.boot := by cases h <;> rfl
@[simp] theorem State.setHalf_ctl (s : State) (h : HalfId) (v : HalfPower) : (s.setHalf h v).ctl = s.ctl := by cases h <;> rfl
@[simp] theorem State.setHalf_queues (s : State) (h : HalfId) (v : HalfPower) : (s.setHalf h v).queues = s.queues := by cases h <;> rfl
@[simp] theorem State.setHalf_plane (s : State) (h : HalfId) (v : HalfPower) : (s.setHalf h v).plane = s.plane := by cases h <;> rfl
@[simp] theorem State.setHalf_bulk (s : State) (h : HalfId) (v : HalfPower) : (s.setHalf h v).bulk = s.bulk := by cases h <;> rfl
@[simp] theorem State.setHalf_cast (s : State) (h : HalfId) (v : HalfPower) : (s.setHalf h v).cast = s.cast := by cases h <;> rfl
@[simp] theorem State.setHalf_streams (s : State) (h : HalfId) (v : HalfPower) : (s.setHalf h v).streams = s.streams := by cases h <;> rfl
@[simp] theorem State.setHalf_eng (s : State) (h : HalfId) (v : HalfPower) : (s.setHalf h v).eng = s.eng := by cases h <;> rfl
@[simp] theorem State.setHalf_grid (s : State) (h : HalfId) (v : HalfPower) : (s.setHalf h v).grid = s.grid := by cases h <;> rfl
@[simp] theorem State.setHalf_rel (s : State) (h : HalfId) (v : HalfPower) : (s.setHalf h v).rel = s.rel := by cases h <;> rfl

@[simp] theorem State.setLink_pending (s : State) (k : LinkId) (v : Link) : (s.setLink k v).pending = s.pending := rfl
@[simp] theorem State.setLink_freeUse (s : State) (k : LinkId) (v : Link) : (s.setLink k v).freeUse = s.freeUse := rfl
@[simp] theorem State.setLink_aon (s : State) (k : LinkId) (v : Link) : (s.setLink k v).aon = s.aon := rfl
@[simp] theorem State.setLink_boot (s : State) (k : LinkId) (v : Link) : (s.setLink k v).boot = s.boot := rfl
@[simp] theorem State.setLink_ctl (s : State) (k : LinkId) (v : Link) : (s.setLink k v).ctl = s.ctl := rfl
@[simp] theorem State.setLink_queues (s : State) (k : LinkId) (v : Link) : (s.setLink k v).queues = s.queues := rfl
@[simp] theorem State.setLink_bulk (s : State) (k : LinkId) (v : Link) : (s.setLink k v).bulk = s.bulk := rfl
@[simp] theorem State.setLink_cast (s : State) (k : LinkId) (v : Link) : (s.setLink k v).cast = s.cast := rfl
@[simp] theorem State.setLink_streams (s : State) (k : LinkId) (v : Link) : (s.setLink k v).streams = s.streams := rfl
@[simp] theorem State.setLink_eng (s : State) (k : LinkId) (v : Link) : (s.setLink k v).eng = s.eng := rfl
@[simp] theorem State.setLink_grid (s : State) (k : LinkId) (v : Link) : (s.setLink k v).grid = s.grid := rfl
@[simp] theorem State.setLink_rel (s : State) (k : LinkId) (v : Link) : (s.setLink k v).rel = s.rel := rfl
@[simp] theorem State.setLink_power (s : State) (k : LinkId) (v : Link) : (s.setLink k v).power = s.power := rfl

@[simp] theorem State.setLaneGroup_pending (s : State) (g : Fin 8) (v : LaneGroup) : (s.setLaneGroup g v).pending = s.pending := rfl
@[simp] theorem State.setLaneGroup_freeUse (s : State) (g : Fin 8) (v : LaneGroup) : (s.setLaneGroup g v).freeUse = s.freeUse := rfl
@[simp] theorem State.setLaneGroup_aon (s : State) (g : Fin 8) (v : LaneGroup) : (s.setLaneGroup g v).aon = s.aon := rfl
@[simp] theorem State.setLaneGroup_boot (s : State) (g : Fin 8) (v : LaneGroup) : (s.setLaneGroup g v).boot = s.boot := rfl
@[simp] theorem State.setLaneGroup_ctl (s : State) (g : Fin 8) (v : LaneGroup) : (s.setLaneGroup g v).ctl = s.ctl := rfl
@[simp] theorem State.setLaneGroup_queues (s : State) (g : Fin 8) (v : LaneGroup) : (s.setLaneGroup g v).queues = s.queues := rfl
@[simp] theorem State.setLaneGroup_bulk (s : State) (g : Fin 8) (v : LaneGroup) : (s.setLaneGroup g v).bulk = s.bulk := rfl
@[simp] theorem State.setLaneGroup_cast (s : State) (g : Fin 8) (v : LaneGroup) : (s.setLaneGroup g v).cast = s.cast := rfl
@[simp] theorem State.setLaneGroup_streams (s : State) (g : Fin 8) (v : LaneGroup) : (s.setLaneGroup g v).streams = s.streams := rfl
@[simp] theorem State.setLaneGroup_eng (s : State) (g : Fin 8) (v : LaneGroup) : (s.setLaneGroup g v).eng = s.eng := rfl
@[simp] theorem State.setLaneGroup_grid (s : State) (g : Fin 8) (v : LaneGroup) : (s.setLaneGroup g v).grid = s.grid := rfl
@[simp] theorem State.setLaneGroup_rel (s : State) (g : Fin 8) (v : LaneGroup) : (s.setLaneGroup g v).rel = s.rel := rfl
@[simp] theorem State.setLaneGroup_power (s : State) (g : Fin 8) (v : LaneGroup) : (s.setLaneGroup g v).power = s.power := rfl

@[simp] theorem State.setRecord_pending (s : State) (n : NodeId) (r : RecvRecord) : (s.setRecord n r).pending = s.pending := rfl
@[simp] theorem State.setRecord_freeUse (s : State) (n : NodeId) (r : RecvRecord) : (s.setRecord n r).freeUse = s.freeUse := rfl
@[simp] theorem State.setRecord_aon (s : State) (n : NodeId) (r : RecvRecord) : (s.setRecord n r).aon = s.aon := rfl
@[simp] theorem State.setRecord_boot (s : State) (n : NodeId) (r : RecvRecord) : (s.setRecord n r).boot = s.boot := rfl
@[simp] theorem State.setRecord_ctl (s : State) (n : NodeId) (r : RecvRecord) : (s.setRecord n r).ctl = s.ctl := rfl
@[simp] theorem State.setRecord_queues (s : State) (n : NodeId) (r : RecvRecord) : (s.setRecord n r).queues = s.queues := rfl
@[simp] theorem State.setRecord_bulk (s : State) (n : NodeId) (r : RecvRecord) : (s.setRecord n r).bulk = s.bulk := rfl
@[simp] theorem State.setRecord_cast (s : State) (n : NodeId) (r : RecvRecord) : (s.setRecord n r).cast = s.cast := rfl
@[simp] theorem State.setRecord_streams (s : State) (n : NodeId) (r : RecvRecord) : (s.setRecord n r).streams = s.streams := rfl
@[simp] theorem State.setRecord_eng (s : State) (n : NodeId) (r : RecvRecord) : (s.setRecord n r).eng = s.eng := rfl
@[simp] theorem State.setRecord_grid (s : State) (n : NodeId) (r : RecvRecord) : (s.setRecord n r).grid = s.grid := rfl
@[simp] theorem State.setRecord_rel (s : State) (n : NodeId) (r : RecvRecord) : (s.setRecord n r).rel = s.rel := rfl
@[simp] theorem State.setRecord_power (s : State) (n : NodeId) (r : RecvRecord) : (s.setRecord n r).power = s.power := rfl

@[simp] theorem State.setBulk_pending (s : State) (b : BulkId) (v : Bulk) : (s.setBulk b v).pending = s.pending := rfl
@[simp] theorem State.setBulk_freeUse (s : State) (b : BulkId) (v : Bulk) : (s.setBulk b v).freeUse = s.freeUse := rfl
@[simp] theorem State.setBulk_aon (s : State) (b : BulkId) (v : Bulk) : (s.setBulk b v).aon = s.aon := rfl
@[simp] theorem State.setBulk_boot (s : State) (b : BulkId) (v : Bulk) : (s.setBulk b v).boot = s.boot := rfl
@[simp] theorem State.setBulk_ctl (s : State) (b : BulkId) (v : Bulk) : (s.setBulk b v).ctl = s.ctl := rfl
@[simp] theorem State.setBulk_queues (s : State) (b : BulkId) (v : Bulk) : (s.setBulk b v).queues = s.queues := rfl
@[simp] theorem State.setBulk_plane (s : State) (b : BulkId) (v : Bulk) : (s.setBulk b v).plane = s.plane := rfl
@[simp] theorem State.setBulk_cast (s : State) (b : BulkId) (v : Bulk) : (s.setBulk b v).cast = s.cast := rfl
@[simp] theorem State.setBulk_streams (s : State) (b : BulkId) (v : Bulk) : (s.setBulk b v).streams = s.streams := rfl
@[simp] theorem State.setBulk_eng (s : State) (b : BulkId) (v : Bulk) : (s.setBulk b v).eng = s.eng := rfl
@[simp] theorem State.setBulk_grid (s : State) (b : BulkId) (v : Bulk) : (s.setBulk b v).grid = s.grid := rfl
@[simp] theorem State.setBulk_rel (s : State) (b : BulkId) (v : Bulk) : (s.setBulk b v).rel = s.rel := rfl
@[simp] theorem State.setBulk_power (s : State) (b : BulkId) (v : Bulk) : (s.setBulk b v).power = s.power := rfl

@[simp] theorem State.setStream_pending (s : State) (k : SlotId) (st : Stream) : (s.setStream k st).pending = s.pending := rfl
@[simp] theorem State.setStream_freeUse (s : State) (k : SlotId) (st : Stream) : (s.setStream k st).freeUse = s.freeUse := rfl
@[simp] theorem State.setStream_aon (s : State) (k : SlotId) (st : Stream) : (s.setStream k st).aon = s.aon := rfl
@[simp] theorem State.setStream_boot (s : State) (k : SlotId) (st : Stream) : (s.setStream k st).boot = s.boot := rfl
@[simp] theorem State.setStream_ctl (s : State) (k : SlotId) (st : Stream) : (s.setStream k st).ctl = s.ctl := rfl
@[simp] theorem State.setStream_queues (s : State) (k : SlotId) (st : Stream) : (s.setStream k st).queues = s.queues := rfl
@[simp] theorem State.setStream_plane (s : State) (k : SlotId) (st : Stream) : (s.setStream k st).plane = s.plane := rfl
@[simp] theorem State.setStream_bulk (s : State) (k : SlotId) (st : Stream) : (s.setStream k st).bulk = s.bulk := rfl
@[simp] theorem State.setStream_cast (s : State) (k : SlotId) (st : Stream) : (s.setStream k st).cast = s.cast := rfl
@[simp] theorem State.setStream_eng (s : State) (k : SlotId) (st : Stream) : (s.setStream k st).eng = s.eng := rfl
@[simp] theorem State.setStream_grid (s : State) (k : SlotId) (st : Stream) : (s.setStream k st).grid = s.grid := rfl
@[simp] theorem State.setStream_rel (s : State) (k : SlotId) (st : Stream) : (s.setStream k st).rel = s.rel := rfl
@[simp] theorem State.setStream_power (s : State) (k : SlotId) (st : Stream) : (s.setStream k st).power = s.power := rfl

@[simp] theorem State.setAwlLane_pending (s : State) (h : HalfId) (l : Fin 256) (v : AwlLane) : (s.setAwlLane h l v).pending = s.pending := rfl
@[simp] theorem State.setAwlLane_freeUse (s : State) (h : HalfId) (l : Fin 256) (v : AwlLane) : (s.setAwlLane h l v).freeUse = s.freeUse := rfl
@[simp] theorem State.setAwlLane_aon (s : State) (h : HalfId) (l : Fin 256) (v : AwlLane) : (s.setAwlLane h l v).aon = s.aon := rfl
@[simp] theorem State.setAwlLane_boot (s : State) (h : HalfId) (l : Fin 256) (v : AwlLane) : (s.setAwlLane h l v).boot = s.boot := rfl
@[simp] theorem State.setAwlLane_ctl (s : State) (h : HalfId) (l : Fin 256) (v : AwlLane) : (s.setAwlLane h l v).ctl = s.ctl := rfl
@[simp] theorem State.setAwlLane_queues (s : State) (h : HalfId) (l : Fin 256) (v : AwlLane) : (s.setAwlLane h l v).queues = s.queues := rfl
@[simp] theorem State.setAwlLane_plane (s : State) (h : HalfId) (l : Fin 256) (v : AwlLane) : (s.setAwlLane h l v).plane = s.plane := rfl
@[simp] theorem State.setAwlLane_bulk (s : State) (h : HalfId) (l : Fin 256) (v : AwlLane) : (s.setAwlLane h l v).bulk = s.bulk := rfl
@[simp] theorem State.setAwlLane_cast (s : State) (h : HalfId) (l : Fin 256) (v : AwlLane) : (s.setAwlLane h l v).cast = s.cast := rfl
@[simp] theorem State.setAwlLane_streams (s : State) (h : HalfId) (l : Fin 256) (v : AwlLane) : (s.setAwlLane h l v).streams = s.streams := rfl
@[simp] theorem State.setAwlLane_grid (s : State) (h : HalfId) (l : Fin 256) (v : AwlLane) : (s.setAwlLane h l v).grid = s.grid := rfl
@[simp] theorem State.setAwlLane_rel (s : State) (h : HalfId) (l : Fin 256) (v : AwlLane) : (s.setAwlLane h l v).rel = s.rel := rfl
@[simp] theorem State.setAwlLane_power (s : State) (h : HalfId) (l : Fin 256) (v : AwlLane) : (s.setAwlLane h l v).power = s.power := rfl

@[simp] theorem State.setLane_pending (s : State) (h : HalfId) (l : Fin 16) (v : Lane) : (s.setLane h l v).pending = s.pending := rfl
@[simp] theorem State.setLane_freeUse (s : State) (h : HalfId) (l : Fin 16) (v : Lane) : (s.setLane h l v).freeUse = s.freeUse := rfl
@[simp] theorem State.setLane_aon (s : State) (h : HalfId) (l : Fin 16) (v : Lane) : (s.setLane h l v).aon = s.aon := rfl
@[simp] theorem State.setLane_boot (s : State) (h : HalfId) (l : Fin 16) (v : Lane) : (s.setLane h l v).boot = s.boot := rfl
@[simp] theorem State.setLane_ctl (s : State) (h : HalfId) (l : Fin 16) (v : Lane) : (s.setLane h l v).ctl = s.ctl := rfl
@[simp] theorem State.setLane_queues (s : State) (h : HalfId) (l : Fin 16) (v : Lane) : (s.setLane h l v).queues = s.queues := rfl
@[simp] theorem State.setLane_plane (s : State) (h : HalfId) (l : Fin 16) (v : Lane) : (s.setLane h l v).plane = s.plane := rfl
@[simp] theorem State.setLane_bulk (s : State) (h : HalfId) (l : Fin 16) (v : Lane) : (s.setLane h l v).bulk = s.bulk := rfl
@[simp] theorem State.setLane_cast (s : State) (h : HalfId) (l : Fin 16) (v : Lane) : (s.setLane h l v).cast = s.cast := rfl
@[simp] theorem State.setLane_streams (s : State) (h : HalfId) (l : Fin 16) (v : Lane) : (s.setLane h l v).streams = s.streams := rfl
@[simp] theorem State.setLane_grid (s : State) (h : HalfId) (l : Fin 16) (v : Lane) : (s.setLane h l v).grid = s.grid := rfl
@[simp] theorem State.setLane_rel (s : State) (h : HalfId) (l : Fin 16) (v : Lane) : (s.setLane h l v).rel = s.rel := rfl
@[simp] theorem State.setLane_power (s : State) (h : HalfId) (l : Fin 16) (v : Lane) : (s.setLane h l v).power = s.power := rfl

@[simp] theorem State.setCal_pending (s : State) (v : Callipers) : (s.setCal v).pending = s.pending := rfl
@[simp] theorem State.setCal_freeUse (s : State) (v : Callipers) : (s.setCal v).freeUse = s.freeUse := rfl
@[simp] theorem State.setCal_aon (s : State) (v : Callipers) : (s.setCal v).aon = s.aon := rfl
@[simp] theorem State.setCal_boot (s : State) (v : Callipers) : (s.setCal v).boot = s.boot := rfl
@[simp] theorem State.setCal_ctl (s : State) (v : Callipers) : (s.setCal v).ctl = s.ctl := rfl
@[simp] theorem State.setCal_queues (s : State) (v : Callipers) : (s.setCal v).queues = s.queues := rfl
@[simp] theorem State.setCal_plane (s : State) (v : Callipers) : (s.setCal v).plane = s.plane := rfl
@[simp] theorem State.setCal_bulk (s : State) (v : Callipers) : (s.setCal v).bulk = s.bulk := rfl
@[simp] theorem State.setCal_cast (s : State) (v : Callipers) : (s.setCal v).cast = s.cast := rfl
@[simp] theorem State.setCal_streams (s : State) (v : Callipers) : (s.setCal v).streams = s.streams := rfl
@[simp] theorem State.setCal_grid (s : State) (v : Callipers) : (s.setCal v).grid = s.grid := rfl
@[simp] theorem State.setCal_rel (s : State) (v : Callipers) : (s.setCal v).rel = s.rel := rfl
@[simp] theorem State.setCal_power (s : State) (v : Callipers) : (s.setCal v).power = s.power := rfl

@[simp] theorem State.setCell_pending (s : State) (c : CellId) (x : Cell) : (s.setCell c x).pending = s.pending := rfl
@[simp] theorem State.setCell_freeUse (s : State) (c : CellId) (x : Cell) : (s.setCell c x).freeUse = s.freeUse := rfl
@[simp] theorem State.setCell_aon (s : State) (c : CellId) (x : Cell) : (s.setCell c x).aon = s.aon := rfl
@[simp] theorem State.setCell_boot (s : State) (c : CellId) (x : Cell) : (s.setCell c x).boot = s.boot := rfl
@[simp] theorem State.setCell_ctl (s : State) (c : CellId) (x : Cell) : (s.setCell c x).ctl = s.ctl := rfl
@[simp] theorem State.setCell_queues (s : State) (c : CellId) (x : Cell) : (s.setCell c x).queues = s.queues := rfl
@[simp] theorem State.setCell_plane (s : State) (c : CellId) (x : Cell) : (s.setCell c x).plane = s.plane := rfl
@[simp] theorem State.setCell_bulk (s : State) (c : CellId) (x : Cell) : (s.setCell c x).bulk = s.bulk := rfl
@[simp] theorem State.setCell_cast (s : State) (c : CellId) (x : Cell) : (s.setCell c x).cast = s.cast := rfl
@[simp] theorem State.setCell_streams (s : State) (c : CellId) (x : Cell) : (s.setCell c x).streams = s.streams := rfl
@[simp] theorem State.setCell_eng (s : State) (c : CellId) (x : Cell) : (s.setCell c x).eng = s.eng := rfl
@[simp] theorem State.setCell_rel (s : State) (c : CellId) (x : Cell) : (s.setCell c x).rel = s.rel := rfl
@[simp] theorem State.setCell_power (s : State) (c : CellId) (x : Cell) : (s.setCell c x).power = s.power := rfl

@[simp] theorem State.putMesh_pending (s : State) (o : Option CellId) (m : Msg) : (s.putMesh o m).pending = s.pending := rfl
@[simp] theorem State.putMesh_freeUse (s : State) (o : Option CellId) (m : Msg) : (s.putMesh o m).freeUse = s.freeUse := rfl
@[simp] theorem State.putMesh_aon (s : State) (o : Option CellId) (m : Msg) : (s.putMesh o m).aon = s.aon := rfl
@[simp] theorem State.putMesh_boot (s : State) (o : Option CellId) (m : Msg) : (s.putMesh o m).boot = s.boot := rfl
@[simp] theorem State.putMesh_ctl (s : State) (o : Option CellId) (m : Msg) : (s.putMesh o m).ctl = s.ctl := rfl
@[simp] theorem State.putMesh_queues (s : State) (o : Option CellId) (m : Msg) : (s.putMesh o m).queues = s.queues := rfl
@[simp] theorem State.putMesh_plane (s : State) (o : Option CellId) (m : Msg) : (s.putMesh o m).plane = s.plane := rfl
@[simp] theorem State.putMesh_bulk (s : State) (o : Option CellId) (m : Msg) : (s.putMesh o m).bulk = s.bulk := rfl
@[simp] theorem State.putMesh_cast (s : State) (o : Option CellId) (m : Msg) : (s.putMesh o m).cast = s.cast := rfl
@[simp] theorem State.putMesh_streams (s : State) (o : Option CellId) (m : Msg) : (s.putMesh o m).streams = s.streams := rfl
@[simp] theorem State.putMesh_eng (s : State) (o : Option CellId) (m : Msg) : (s.putMesh o m).eng = s.eng := rfl
@[simp] theorem State.putMesh_rel (s : State) (o : Option CellId) (m : Msg) : (s.putMesh o m).rel = s.rel := rfl
@[simp] theorem State.putMesh_power (s : State) (o : Option CellId) (m : Msg) : (s.putMesh o m).power = s.power := rfl

@[simp] theorem State.startTransfer_pending (s : State) (t : Transfer) : (s.startTransfer t).pending = s.pending := rfl
@[simp] theorem State.startTransfer_freeUse (s : State) (t : Transfer) : (s.startTransfer t).freeUse = s.freeUse := rfl
@[simp] theorem State.startTransfer_aon (s : State) (t : Transfer) : (s.startTransfer t).aon = s.aon := rfl
@[simp] theorem State.startTransfer_boot (s : State) (t : Transfer) : (s.startTransfer t).boot = s.boot := rfl
@[simp] theorem State.startTransfer_ctl (s : State) (t : Transfer) : (s.startTransfer t).ctl = s.ctl := rfl
@[simp] theorem State.startTransfer_queues (s : State) (t : Transfer) : (s.startTransfer t).queues = s.queues := rfl
@[simp] theorem State.startTransfer_plane (s : State) (t : Transfer) : (s.startTransfer t).plane = s.plane := rfl
@[simp] theorem State.startTransfer_bulk (s : State) (t : Transfer) : (s.startTransfer t).bulk = s.bulk := rfl
@[simp] theorem State.startTransfer_cast (s : State) (t : Transfer) : (s.startTransfer t).cast = s.cast := rfl
@[simp] theorem State.startTransfer_streams (s : State) (t : Transfer) : (s.startTransfer t).streams = s.streams := rfl
@[simp] theorem State.startTransfer_eng (s : State) (t : Transfer) : (s.startTransfer t).eng = s.eng := rfl
@[simp] theorem State.startTransfer_rel (s : State) (t : Transfer) : (s.startTransfer t).rel = s.rel := rfl
@[simp] theorem State.startTransfer_power (s : State) (t : Transfer) : (s.startTransfer t).power = s.power := rfl

@[simp] theorem State.setBench_pending (s : State) (b v : Byte) : (s.setBench b v).pending = s.pending := rfl
@[simp] theorem State.setBench_freeUse (s : State) (b v : Byte) : (s.setBench b v).freeUse = s.freeUse := rfl
@[simp] theorem State.setBench_aon (s : State) (b v : Byte) : (s.setBench b v).aon = s.aon := rfl
@[simp] theorem State.setBench_boot (s : State) (b v : Byte) : (s.setBench b v).boot = s.boot := rfl
@[simp] theorem State.setBench_ctl (s : State) (b v : Byte) : (s.setBench b v).ctl = s.ctl := rfl
@[simp] theorem State.setBench_queues (s : State) (b v : Byte) : (s.setBench b v).queues = s.queues := rfl
@[simp] theorem State.setBench_plane (s : State) (b v : Byte) : (s.setBench b v).plane = s.plane := rfl
@[simp] theorem State.setBench_bulk (s : State) (b v : Byte) : (s.setBench b v).bulk = s.bulk := rfl
@[simp] theorem State.setBench_cast (s : State) (b v : Byte) : (s.setBench b v).cast = s.cast := rfl
@[simp] theorem State.setBench_streams (s : State) (b v : Byte) : (s.setBench b v).streams = s.streams := rfl
@[simp] theorem State.setBench_eng (s : State) (b v : Byte) : (s.setBench b v).eng = s.eng := rfl
@[simp] theorem State.setBench_grid (s : State) (b v : Byte) : (s.setBench b v).grid = s.grid := rfl
@[simp] theorem State.setBench_power (s : State) (b v : Byte) : (s.setBench b v).power = s.power := rfl

@[simp] theorem State.setArray_pending (s : State) (h : HalfId) (n : Nat) : (s.setArray h n).pending = s.pending := by cases h <;> rfl
@[simp] theorem State.setArray_freeUse (s : State) (h : HalfId) (n : Nat) : (s.setArray h n).freeUse = s.freeUse := by cases h <;> rfl
@[simp] theorem State.setArray_aon (s : State) (h : HalfId) (n : Nat) : (s.setArray h n).aon = s.aon := by cases h <;> rfl
@[simp] theorem State.setArray_boot (s : State) (h : HalfId) (n : Nat) : (s.setArray h n).boot = s.boot := by cases h <;> rfl
@[simp] theorem State.setArray_ctl (s : State) (h : HalfId) (n : Nat) : (s.setArray h n).ctl = s.ctl := by cases h <;> rfl
@[simp] theorem State.setArray_queues (s : State) (h : HalfId) (n : Nat) : (s.setArray h n).queues = s.queues := by cases h <;> rfl
@[simp] theorem State.setArray_plane (s : State) (h : HalfId) (n : Nat) : (s.setArray h n).plane = s.plane := by cases h <;> rfl
@[simp] theorem State.setArray_bulk (s : State) (h : HalfId) (n : Nat) : (s.setArray h n).bulk = s.bulk := by cases h <;> rfl
@[simp] theorem State.setArray_cast (s : State) (h : HalfId) (n : Nat) : (s.setArray h n).cast = s.cast := by cases h <;> rfl
@[simp] theorem State.setArray_streams (s : State) (h : HalfId) (n : Nat) : (s.setArray h n).streams = s.streams := by cases h <;> rfl
@[simp] theorem State.setArray_eng (s : State) (h : HalfId) (n : Nat) : (s.setArray h n).eng = s.eng := by cases h <;> rfl
@[simp] theorem State.setArray_grid (s : State) (h : HalfId) (n : Nat) : (s.setArray h n).grid = s.grid := by cases h <;> rfl
@[simp] theorem State.setArray_power (s : State) (h : HalfId) (n : Nat) : (s.setArray h n).power = s.power := by cases h <;> rfl

@[simp] theorem State.setHalf_half (s : State) (h : HalfId) (v : HalfPower) : (s.setHalf h v).power.half h = v := by cases h <;> rfl

@[simp] theorem State.setHalf_cap (s : State) (h : HalfId) (v : HalfPower) : (s.setHalf h v).power.cap = s.power.cap := by
  cases h <;> rfl

end Sys2Proof.Machine
end

