-- ==== Sys2Proof/Laws/Effects.lean ====
section
/-! SUPPORT. What counting, raising notices and offering packets to gate queues leave unchanged: everything but counters,
notices, events sent on the sync port, and queues. -/

namespace Sys2Proof.Machine

@[simp] theorem State.signalIrq_quiet (s : State) (b : Bool) : (s.signalIrq b).quiet = s.quiet := by
  unfold State.signalIrq; split <;> rfl

@[simp] theorem State.setQueue_quiet (s : State) (q : QueueId) (v : Queue) : (s.setQueue q v).quiet = s.quiet := rfl

@[simp] theorem offerPacket_quiet (q : QueueId) (tag : Half) (prio : Option Nat) (bodies : List (List Byte)) (s : State) :
    (offerPacket q tag prio bodies s).1.quiet = s.quiet := by
  unfold offerPacket
  dsimp only
  repeat' split
  all_goals simp

@[simp] theorem oneEffect_quiet (e : Effect) (s : State) : (oneEffect e s).1.quiet = s.quiet := by
  unfold oneEffect
  dsimp only
  repeat' split
  all_goals simp
  all_goals rfl

@[simp] theorem runEffects_quiet (n : Nat) (es : List Effect) (s : State) : (runEffects n es s).quiet = s.quiet := by
  induction n generalizing es s with
  | zero => rfl
  | succ n ih => cases es with
    | nil => rfl
    | cons e es => simp [runEffects, ih]

/-- Effects change nothing of the quiet part. -/
@[simp] theorem State.effects_quiet (s : State) (es : List Effect) : (s.effects es).quiet = s.quiet := by simp [State.effects]

@[simp] theorem State.count1_quiet (s : State) (g i p : Nat) : (s.count1 g i p).quiet = s.quiet := by simp [State.count1]
@[simp] theorem State.countN_quiet (s : State) (g i p n : Nat) : (s.countN g i p n).quiet = s.quiet := by simp [State.countN]
@[simp] theorem State.raise_quiet (s : State) (c : Nat) (d : List Byte) : (s.raise c d).quiet = s.quiet := by simp [State.raise]
@[simp] theorem State.writeItem_quiet (s : State) (q : QueueId) (t : Half) (b : List Byte) : (s.writeItem q t b).quiet = s.quiet := by
  simp [State.writeItem]
@[simp] theorem State.acknowledge_quiet (s : State) (b : Word) : (s.acknowledge b).quiet = s.quiet := by
  simp [State.acknowledge]; rfl
@[simp] theorem State.takeItem_quiet (s : State) (q : QueueId) : (s.takeItem q).2.quiet = s.quiet := by
  unfold State.takeItem; dsimp only; split <;> simp
@[simp] theorem State.hostOffer_quiet (s : State) (q : QueueId) (b : List Byte) : (s.hostOffer q b).quiet = s.quiet := by
  unfold State.hostOffer; dsimp only; repeat' split
  all_goals simp
@[simp] theorem State.dropPacket_quiet (s : State) (q : QueueId) : (s.dropPacket q).quiet = s.quiet := by
  unfold State.dropPacket; dsimp only; split <;> simp

/-- A field that the quiet part shows is unchanged by effects. -/
theorem State.effects_field {α : Type} (f : State → α) (h : ∀ u : State, f u = f u.quiet) (s : State) (es : List Effect) :
    f (s.effects es) = f s := by rw [h, State.effects_quiet, ← h]

@[simp] theorem State.effects_pending (s : State) (es : List Effect) : (s.effects es).pending = s.pending :=
  State.effects_field State.pending (fun _ => rfl) s es
@[simp] theorem State.effects_freeUse (s : State) (es : List Effect) : (s.effects es).freeUse = s.freeUse :=
  State.effects_field State.freeUse (fun _ => rfl) s es
@[simp] theorem State.effects_aon (s : State) (es : List Effect) : (s.effects es).aon = s.aon :=
  State.effects_field State.aon (fun _ => rfl) s es
@[simp] theorem State.effects_boot (s : State) (es : List Effect) : (s.effects es).boot = s.boot :=
  State.effects_field State.boot (fun _ => rfl) s es
@[simp] theorem State.effects_plane (s : State) (es : List Effect) : (s.effects es).plane = s.plane :=
  State.effects_field State.plane (fun _ => rfl) s es
@[simp] theorem State.effects_bulk (s : State) (es : List Effect) : (s.effects es).bulk = s.bulk :=
  State.effects_field State.bulk (fun _ => rfl) s es
@[simp] theorem State.effects_cast (s : State) (es : List Effect) : (s.effects es).cast = s.cast :=
  State.effects_field State.cast (fun _ => rfl) s es
@[simp] theorem State.effects_streams (s : State) (es : List Effect) : (s.effects es).streams = s.streams :=
  State.effects_field State.streams (fun _ => rfl) s es
@[simp] theorem State.effects_eng (s : State) (es : List Effect) : (s.effects es).eng = s.eng :=
  State.effects_field State.eng (fun _ => rfl) s es
@[simp] theorem State.effects_grid (s : State) (es : List Effect) : (s.effects es).grid = s.grid :=
  State.effects_field State.grid (fun _ => rfl) s es
@[simp] theorem State.effects_rel (s : State) (es : List Effect) : (s.effects es).rel = s.rel :=
  State.effects_field State.rel (fun _ => rfl) s es
@[simp] theorem State.effects_power (s : State) (es : List Effect) : (s.effects es).power = s.power :=
  State.effects_field State.power (fun _ => rfl) s es
@[simp] theorem State.effects_mbox (s : State) (es : List Effect) : (s.effects es).ctl.mbox = s.ctl.mbox :=
  State.effects_field (fun u => u.ctl.mbox) (fun _ => rfl) s es
@[simp] theorem State.effects_sems (s : State) (es : List Effect) : (s.effects es).ctl.sems = s.ctl.sems :=
  State.effects_field (fun u => u.ctl.sems) (fun _ => rfl) s es
@[simp] theorem State.effects_waiting (s : State) (es : List Effect) : (s.effects es).ctl.waiting = s.ctl.waiting :=
  State.effects_field (fun u => u.ctl.waiting) (fun _ => rfl) s es
@[simp] theorem State.effects_budgets (s : State) (es : List Effect) : (s.effects es).ctl.budgets = s.ctl.budgets :=
  State.effects_field (fun u => u.ctl.budgets) (fun _ => rfl) s es
@[simp] theorem State.effects_repairSem (s : State) (es : List Effect) : (s.effects es).ctl.repairSem = s.ctl.repairSem :=
  State.effects_field (fun u => u.ctl.repairSem) (fun _ => rfl) s es
@[simp] theorem State.effects_rsp (s : State) (es : List Effect) : (s.effects es).ctl.rsp = s.ctl.rsp :=
  State.effects_field (fun u => u.ctl.rsp) (fun _ => rfl) s es
@[simp] theorem State.effects_slot (s : State) (es : List Effect) (p : MPort) (n : Fin 32) : (s.effects es).slot p n = s.slot p n := by
  simp [State.slot]
@[simp] theorem State.effects_cell (s : State) (es : List Effect) (c : CellId) : (s.effects es).cell c = s.cell c := by
  simp [State.cell]
@[simp] theorem State.effects_now (s : State) (es : List Effect) : (s.effects es).now = s.now := by simp [State.now]

/-! ### Effects do not look at the mailbox slots -/

theorem State.signalIrq_setSlot (u : State) (b : Bool) (p : MPort) (n : Fin 32) (m : MSlot) :
    (u.setSlot p n m).signalIrq b = (u.signalIrq b).setSlot p n m := by
  unfold State.signalIrq
  dsimp only
  by_cases h : (u.ctl.noticeFlag.getLsbD 15 && (b != u.hostIrq)) = true
  · rw [if_pos h, if_pos (show ((u.setSlot p n m).ctl.noticeFlag.getLsbD 15 && (b != (u.setSlot p n m).hostIrq)) = true from h)]
    rfl
  · rw [if_neg h, if_neg (show ¬ ((u.setSlot p n m).ctl.noticeFlag.getLsbD 15 && (b != (u.setSlot p n m).hostIrq)) = true from h)]

theorem oneEffect_setSlot (e : Effect) (s : State) (p : MPort) (n : Fin 32) (m : MSlot) :
    oneEffect e (s.setSlot p n m) = ((oneEffect e s).1.setSlot p n m, (oneEffect e s).2) := by
  cases e with
  | count k c =>
    have : (s.setSlot p n m).counter k = s.counter k := rfl
    simp only [oneEffect, this]
    split <;> rfl
  | notice c d =>
    have : (s.setSlot p n m).latched c = s.latched c := rfl
    simp only [oneEffect, this]
    split
    · rfl
    · exact congrArg (fun x => (x, _)) (State.signalIrq_setSlot
        { s with ctl := { s.ctl with notices := s.ctl.notices ++ [⟨c, 1, s.now, padTo 40 d⟩] } } _ p n m)
  | packet q t pr b =>
    have : (s.setSlot p n m).queue q = s.queue q := rfl
    simp only [oneEffect, offerPacket, this]
    repeat' split
    all_goals rfl

theorem runEffects_setSlot (k : Nat) (es : List Effect) (s : State) (p : MPort) (n : Fin 32) (m : MSlot) :
    runEffects k es (s.setSlot p n m) = (runEffects k es s).setSlot p n m := by
  induction k generalizing es s with
  | zero => rfl
  | succ k ih => cases es with
    | nil => rfl
    | cons e es => simp only [runEffects, oneEffect_setSlot, ih]

/-- Effects commute with writing a mailbox slot. -/
theorem State.effects_setSlot (s : State) (es : List Effect) (p : MPort) (n : Fin 32) (m : MSlot) :
    (s.setSlot p n m).effects es = (s.effects es).setSlot p n m := runEffects_setSlot _ es s p n m

/-! ### Latched notices stay latched -/

theorem countNotice_code (c code : Nat) (ns : List Notice) :
    (countNotice c ns).any (fun n => decide (n.code = code)) = ns.any (fun n => decide (n.code = code)) := by
  induction ns with
  | nil => rfl
  | cons n ns ih =>
    simp only [countNotice, List.map_cons, List.any_cons] at ih ⊢
    rw [ih]
    split <;> rfl

theorem State.latched_any (s : State) (code : Nat) : s.latched code = s.ctl.notices.any (fun n => decide (n.code = code)) := by
  simp only [State.latched, State.notice?]
  induction s.ctl.notices with
  | nil => rfl
  | cons n ns ih => by_cases h : n.code = code <;> simp [List.find?, h] at ih ⊢; exact ih

theorem oneEffect_latched (e : Effect) (s : State) (code : Nat) (h : s.latched code = true) : (oneEffect e s).1.latched code = true := by
  rw [State.latched_any] at h ⊢
  cases e with
  | count k n => simp only [oneEffect]; split <;> exact h
  | notice c d =>
    simp only [oneEffect]
    split
    · simpa [countNotice_code] using h
    · have : ∀ (u : State) b, (u.signalIrq b).ctl.notices = u.ctl.notices := by
        intro u b; unfold State.signalIrq; split <;> rfl
      simp [this]
      simp at h
      exact Or.inl h
  | packet q t p b =>
    have : (offerPacket q t p b s).1.ctl.notices = s.ctl.notices := by
      unfold offerPacket; dsimp only; repeat' split
      all_goals rfl
    simpa [oneEffect, this] using h

theorem runEffects_latched (n : Nat) (es : List Effect) (s : State) (code : Nat) (h : s.latched code = true) :
    (runEffects n es s).latched code = true := by
  induction n generalizing es s with
  | zero => exact h
  | succ n ih => cases es with
    | nil => exact h
    | cons e es => exact ih _ _ (oneEffect_latched e s code h)

/-- A latched notice stays latched through effects. -/
theorem State.effects_latched (s : State) (es : List Effect) (code : Nat) (h : s.latched code = true) :
    (s.effects es).latched code = true := runEffects_latched _ _ _ _ h

/-- A notice that is raised is latched. -/
theorem State.raise_latched (s : State) (code : Nat) (d : List Byte) : (s.raise code d).latched code = true := by
  show (runEffects 127 ((oneEffect (.notice code d) s).2 ++ []) (oneEffect (.notice code d) s).1).latched code = true
  apply runEffects_latched
  have sig : ∀ (u : State) b, (u.signalIrq b).ctl.notices = u.ctl.notices := by
    intro u b; unfold State.signalIrq; split <;> rfl
  simp only [oneEffect]
  split
  · rename_i h
    rw [State.latched_any] at h ⊢
    simpa [countNotice_code] using h
  · rw [State.latched_any]
    simp [sig]

/-! ### Queues and counters under effects -/

theorem State.signalIrq_queues (s : State) (b : Bool) : (s.signalIrq b).queues = s.queues := by
  unfold State.signalIrq; split <;> rfl

theorem State.signalIrq_counters (s : State) (b : Bool) : (s.signalIrq b).ctl.counters = s.ctl.counters := by
  unfold State.signalIrq; split <;> rfl

theorem State.setQueue_queue (s : State) (k q : QueueId) (v : Queue) : (s.setQueue k v).queue q = if k = q then v else s.queue q := by
  simp only [State.queue, State.setQueue, aget_aset]
  by_cases h : k = q
  · simp [h]
  · rw [if_neg h, if_neg (fun e => h e.symm)]

/-- An effect that leaves queue q: it offers it no packet, or the host writes the queue. -/
def Effect.spares (q : QueueId) : Effect → Bool
  | .packet k _ _ _ => decide (k ≠ q)
  | _ => true

/-- An effect that does not count k. -/
def Effect.skips (k : CtrKey) : Effect → Bool
  | .count j _ => decide (j ≠ k)
  | _ => true

theorem oneEffect_queue (e : Effect) (s : State) (q : QueueId) (h : e.spares q = true ∨ (s.queue q).cfg.hostWrites = true) :
    (oneEffect e s).1.queue q = s.queue q := by
  cases e with
  | count k n => simp only [oneEffect]; split <;> rfl
  | notice c d =>
    simp only [oneEffect]
    split
    · rfl
    · simp [State.queue, State.signalIrq_queues]
  | packet k t p b =>
    simp only [oneEffect, offerPacket]
    by_cases hk : k = q
    · subst hk
      have hw : (s.queue k).cfg.hostWrites = true := by simpa [Effect.spares] using h
      simp only [hw, if_true]
      split <;> rfl
    · repeat' split
      all_goals simp [State.setQueue_queue, hk]

theorem oneEffect_causes (e : Effect) (s : State) (q : QueueId) (h : q ≠ 0) : (oneEffect e s).2.all (Effect.spares q) = true := by
  cases e with
  | count k n => simp only [oneEffect]; split <;> simp [Effect.spares]
  | notice c d => simp only [oneEffect]; split <;> simp [Effect.spares, Ne.symm h]
  | packet k t p b =>
    simp only [oneEffect, offerPacket]
    repeat' split
    all_goals simp [Effect.spares]

/-- Effects leave a queue but the NOTICE queue 0 and those they offer packets to. -/
theorem State.effects_queue (s : State) (es : List Effect) (q : QueueId) (h : q ≠ 0) (he : es.all (Effect.spares q) = true) :
    (s.effects es).queue q = s.queue q := by
  have go : ∀ (n : Nat) (es : List Effect) (s : State), es.all (Effect.spares q) = true → (runEffects n es s).queue q = s.queue q := by
    intro n
    induction n with
    | zero => intros; rfl
    | succ n ih =>
      intro es s he
      cases es with
      | nil => rfl
      | cons e es =>
        simp only [List.all_cons, Bool.and_eq_true] at he
        simp only [runEffects]
        rw [ih _ _ (by simp [oneEffect_causes e s q h, he.2]), oneEffect_queue e s q (Or.inl he.1)]
  exact go _ _ _ he

/-- Effects leave a queue that the host writes. -/
theorem State.effects_hostQueue (s : State) (es : List Effect) (q : QueueId) (h : (s.queue q).cfg.hostWrites = true) :
    (s.effects es).queue q = s.queue q := by
  have go : ∀ (n : Nat) (es : List Effect) (s : State), (s.queue q).cfg.hostWrites = true → (runEffects n es s).queue q = s.queue q := by
    intro n
    induction n with
    | zero => intros; rfl
    | succ n ih =>
      intro es s he
      cases es with
      | nil => rfl
      | cons e es =>
        simp only [runEffects]
        have hq := oneEffect_queue e s q (Or.inr he)
        rw [ih _ _ (by rw [hq]; exact he), hq]
  exact go _ _ _ h

theorem oneEffect_counter (e : Effect) (s : State) (k : CtrKey) (h : e.skips k = true) : (oneEffect e s).1.counter k = s.counter k := by
  cases e with
  | count j n =>
    have hj : j ≠ k := by simpa [Effect.skips] using h
    simp only [oneEffect]
    split <;> simp [State.counter, aget_aset, Ne.symm hj]
  | notice c d =>
    simp only [oneEffect]
    split
    · rfl
    · simp [State.counter, State.signalIrq_counters]
  | packet q t p b =>
    simp only [oneEffect, offerPacket]
    repeat' split
    all_goals rfl

/-- What an effect causes counts only a queue's own counters. -/
theorem oneEffect_causes_skip (e : Effect) (s : State) (k : CtrKey) (h : k.group ≠ 5) : (oneEffect e s).2.all (Effect.skips k) = true := by
  have hk : ∀ q n, queueCtr q n ≠ k := fun q n e => h (by rw [← e]; rfl)
  cases e with
  | count j n => simp only [oneEffect]; split <;> simp [Effect.skips]
  | notice c d => simp only [oneEffect]; split <;> simp [Effect.skips]
  | packet q t p b =>
    simp only [oneEffect, offerPacket]
    repeat' split
    all_goals simp [Effect.skips, hk]

theorem runEffects_counter (n : Nat) (es : List Effect) (s : State) (k : CtrKey) (h : k.group ≠ 5) (he : es.all (Effect.skips k) = true) :
    (runEffects n es s).counter k = s.counter k := by
  induction n generalizing es s with
  | zero => rfl
  | succ n ih =>
    cases es with
    | nil => rfl
    | cons e es =>
      simp only [List.all_cons, Bool.and_eq_true] at he
      simp only [runEffects]
      rw [ih _ _ (by simp [oneEffect_causes_skip e s k h, he.2]), oneEffect_counter e s k he.1]

/-- A counter outside the queues' group is left by effects that do not count it. -/
theorem State.effects_counter (s : State) (es : List Effect) (k : CtrKey) (h : k.group ≠ 5) (he : es.all (Effect.skips k) = true) :
    (s.effects es).counter k = s.counter k := runEffects_counter _ _ _ _ h he

theorem Counter.add_count (c : Counter) (n : Nat) : (c.add n).count = min maxCount (c.count + n) := by
  unfold Counter.add; split <;> simp <;> omega

/-- A counter outside the queues' group that is counted once rises, saturating (R493). -/
theorem State.effects_count (s : State) (es : List Effect) (k : CtrKey) (n : Nat) (h : k.group ≠ 5) (he : es.all (Effect.skips k) = true) :
    (s.effects (.count k n :: es)).counter k = (s.counter k).add n := by
  show (runEffects (64 * (es.length + 1) + 63 + 1) (.count k n :: es) s).counter k = _
  simp only [runEffects]
  rw [runEffects_counter _ _ _ _ h (by rw [List.all_append, oneEffect_causes_skip _ _ _ h, he]; rfl)]
  simp only [oneEffect]
  split <;> simp [State.counter]

/-! ### Every notice among effects is raised -/

/-- How many of the notices that effects cause (13, 14 and 22) are not latched. -/
def State.toLatch (s : State) : Nat := (if s.latched 13 then 0 else 1) + (if s.latched 14 then 0 else 1) + (if s.latched 22 then 0 else 1)

/-- A bound of the steps that a caused notice takes, with n of them not latched. -/
def noticeSteps : Nat → Nat
  | 0 => 1
  | n + 1 => 3 + 2 * noticeSteps n

/-- A bound of the steps that an effect takes. -/
def Effect.steps (s : State) : Effect → Nat
  | .count _ _ => 1 + noticeSteps s.toLatch
  | .notice c _ => if s.latched c then 1 else if c = 13 ∨ c = 14 ∨ c = 22 then noticeSteps s.toLatch else 3 + 2 * noticeSteps s.toLatch
  | .packet _ _ _ _ => 2 + 2 * noticeSteps s.toLatch

theorem noticeSteps_mono {m n : Nat} (h : m ≤ n) : noticeSteps m ≤ noticeSteps n := by
  induction n generalizing m with
  | zero => have : m = 0 := by omega
            subst this; exact Nat.le_refl _
  | succ n ih =>
    cases m with
    | zero => have := ih (m := 0) (by omega); simp only [noticeSteps] at *; omega
    | succ m => have := ih (m := m) (by omega); simp only [noticeSteps]; omega

theorem noticeSteps_pos (n : Nat) : 1 ≤ noticeSteps n := by cases n <;> simp only [noticeSteps] <;> omega

theorem unlatched_mono (a b : Bool) (h : a = true → b = true) : (if b = true then 0 else 1) ≤ (if a = true then 0 else 1) := by
  revert a b; decide

theorem toLatch_mono {s t : State} (h : ∀ c, s.latched c = true → t.latched c = true) : t.toLatch ≤ s.toLatch := by
  have h1 := unlatched_mono _ _ (h 13)
  have h2 := unlatched_mono _ _ (h 14)
  have h3 := unlatched_mono _ _ (h 22)
  unfold State.toLatch; omega

theorem toLatch_drop {s t : State} (h : ∀ c, s.latched c = true → t.latched c = true) {c : Nat} (hc : c = 13 ∨ c = 14 ∨ c = 22)
    (h0 : s.latched c = false) (h1 : t.latched c = true) : t.toLatch + 1 ≤ s.toLatch := by
  have a1 := unlatched_mono _ _ (h 13)
  have a2 := unlatched_mono _ _ (h 14)
  have a3 := unlatched_mono _ _ (h 22)
  unfold State.toLatch
  rcases hc with rfl | rfl | rfl <;> simp only [h0, h1, if_true, Bool.false_eq_true, if_false] <;> omega

theorem Effect.steps_mono {s t : State} (h : ∀ c, s.latched c = true → t.latched c = true) (e : Effect) : e.steps t ≤ e.steps s := by
  have hm := noticeSteps_mono (toLatch_mono h)
  have := noticeSteps_pos t.toLatch
  cases e with
  | count k n => simp only [Effect.steps]; omega
  | packet k t p b => simp only [Effect.steps]; omega
  | notice c d =>
    simp only [Effect.steps]
    by_cases h0 : s.latched c = true
    · simp [h0, h c h0]
    · by_cases h1 : t.latched c = true
      · rw [if_pos h1, if_neg h0]; split <;> omega
      · rw [if_neg h1, if_neg h0]; split <;> omega

/-- A bound of the steps that a list of effects takes. -/
def effectSteps (s : State) (es : List Effect) : Nat := (es.map (Effect.steps s)).sum

theorem effectSteps_mono {s t : State} (h : ∀ c, s.latched c = true → t.latched c = true) (es : List Effect) :
    effectSteps t es ≤ effectSteps s es := by
  unfold effectSteps
  induction es with
  | nil => exact Nat.le_refl _
  | cons e es ih => have := e.steps_mono h; simp only [List.map_cons, List.sum_cons]; omega

theorem oneEffect_latches (s : State) (c : Nat) (d : List Byte) : (oneEffect (.notice c d) s).1.latched c = true := by
  have sig : ∀ (u : State) b, (u.signalIrq b).ctl.notices = u.ctl.notices := by
    intro u b; unfold State.signalIrq; split <;> rfl
  simp only [oneEffect]
  split
  · rename_i h
    rw [State.latched_any] at h ⊢
    simpa [countNotice_code] using h
  · rw [State.latched_any]
    simp [sig]

theorem offerPacket_causes (q : QueueId) (t : Half) (p : Option Nat) (b : List (List Byte)) (s : State) :
    (offerPacket q t p b s).2 = [] ∨ (∃ k n, (offerPacket q t p b s).2 = [.count k n]) ∨
      (∃ k n d, (offerPacket q t p b s).2 = [.count k n, .notice 14 d]) ∨ (∃ d, (offerPacket q t p b s).2 = [.notice 13 d]) := by
  unfold offerPacket
  dsimp only
  repeat' split
  all_goals first
    | exact .inl rfl
    | exact .inr (.inl ⟨_, _, rfl⟩)
    | exact .inr (.inr (.inl ⟨_, _, _, rfl⟩))
    | exact .inr (.inr (.inr ⟨_, rfl⟩))

theorem effectSteps_one (e : Effect) (s : State) : effectSteps (oneEffect e s).1 (oneEffect e s).2 + 1 ≤ e.steps s := by
  have hl : ∀ c, s.latched c = true → (oneEffect e s).1.latched c = true := fun c => oneEffect_latched e s c
  have hm := noticeSteps_mono (toLatch_mono hl)
  have hp := noticeSteps_pos (oneEffect e s).1.toLatch
  have one : ∀ c d, (c = 13 ∨ c = 14 ∨ c = 22) →
      Effect.steps (oneEffect e s).1 (.notice c d) ≤ noticeSteps s.toLatch := by
    intro c d hc; simp only [Effect.steps, hc, if_true]; split <;> omega
  cases e with
  | count k n =>
    simp only [oneEffect] at *
    split
    · rename_i hs; have := one 22 (k.name ++ leBytes 8 0 ++ leBytes 8 s.now) (by simp)
      simp only [hs, if_true] at this
      simp only [effectSteps, List.map_cons, List.map_nil, List.sum_cons, List.sum_nil, Effect.steps] at *; omega
    · simp only [effectSteps, List.map_nil, List.sum_nil, Effect.steps]; omega
  | notice c d =>
    have hlc := oneEffect_latches s c d
    by_cases h0 : s.latched c = true
    · simp [oneEffect, h0, effectSteps, Effect.steps]
    · have e2 : (oneEffect (.notice c d) s).2 = [.packet 0 0x0006#16 none [noticeBody c 1 s.now d]] := by simp [oneEffect, h0]
      rw [e2]
      simp only [effectSteps, List.map_cons, List.map_nil, List.sum_cons, List.sum_nil, Effect.steps, h0]
      simp only [Bool.false_eq_true, if_false]
      split
      · rename_i hc
        have hd := toLatch_drop hl hc (by simpa using h0) hlc
        have hz : ∃ m, s.toLatch = m + 1 := ⟨s.toLatch - 1, by omega⟩
        obtain ⟨m, hz⟩ := hz
        have := noticeSteps_mono (m := (oneEffect (.notice c d) s).1.toLatch) (n := m) (by omega)
        rw [hz]; simp only [noticeSteps]; omega
      · omega
  | packet q t p b =>
    have shape := offerPacket_causes q t p b s
    have hcount : ∀ k n, Effect.steps (oneEffect (.packet q t p b) s).1 (.count k n) ≤ 1 + noticeSteps s.toLatch := by
      intro k n; simp only [Effect.steps]; omega
    have e1 : (oneEffect (.packet q t p b) s).2 = (offerPacket q t p b s).2 := rfl
    simp only [e1, effectSteps, Effect.steps]
    rcases shape with h | ⟨k, n, h⟩ | ⟨k, n, d, h⟩ | ⟨d, h⟩ <;> rw [h] <;>
      simp only [List.map_cons, List.map_nil, List.sum_cons, List.sum_nil]
    · omega
    · have := hcount k n; omega
    · have := hcount k n; have := one 14 d (by simp); omega
    · have := one 13 d (by simp); omega

theorem runEffects_raises (f : Nat) (es : List Effect) (s : State) (h : effectSteps s es ≤ f) (c : Nat) (d : List Byte)
    (hc : .notice c d ∈ es) : (runEffects f es s).latched c = true := by
  induction f generalizing es s with
  | zero =>
    cases es with
    | nil => simp at hc
    | cons e es =>
      exfalso
      have := effectSteps_one e s
      simp only [effectSteps, List.map_cons, List.sum_cons] at h this; omega
  | succ f ih =>
    cases es with
    | nil => simp at hc
    | cons e es =>
      simp only [runEffects]
      by_cases he : e = .notice c d
      · subst he; exact runEffects_latched _ _ _ _ (oneEffect_latches s c d)
      · refine ih _ _ ?_ ?_
        · have h1 := effectSteps_one e s
          have h2 := effectSteps_mono (s := s) (t := (oneEffect e s).1) (fun c => oneEffect_latched e s c) es
          simp only [effectSteps, List.map_cons, List.sum_cons, List.map_append, List.sum_append] at *; omega
        · rcases List.mem_cons.1 hc with hc | hc
          · exact absurd hc.symm he
          · exact List.mem_append_right _ hc

/-- Every notice among effects is latched after them. -/
theorem State.effects_raises (s : State) (es : List Effect) (c : Nat) (d : List Byte) (hc : .notice c d ∈ es) :
    (s.effects es).latched c = true := by
  refine runEffects_raises _ _ _ ?_ c d hc
  have h3 : noticeSteps s.toLatch ≤ 29 := noticeSteps_mono (n := 3) (by unfold State.toLatch; split <;> split <;> split <;> omega)
  unfold effectSteps
  clear hc
  induction es with
  | nil => simp
  | cons e es ih =>
    have : e.steps s ≤ 61 := by
      cases e <;> simp only [Effect.steps]
      · omega
      · split
        · omega
        · split <;> omega
      · omega
    simp only [List.map_cons, List.sum_cons, List.length_cons] at *; omega
end Sys2Proof.Machine
end

