-- ==== Sys2Proof/Laws/Cells.lean ====
section
/-! SUPPORT. What an instruction of a cell or of a bridle lane does: one law for the instruction at the pc, one for each other
case. -/

namespace Sys2Proof.Machine

/-- A core that stands at an instruction runs it. -/
theorem State.onCell_at {s : State} {c : CellId} {r : Running} {w mask enc : Word} (h : s.CellAt c r w) (hw : w &&& mask = enc)
    (f : Running → Cell → State → State × CellOut) :
    s.onCell c mask enc f = (f r (s.cell c) s).1.retire c (s.cell c) r (f r (s.cell c) s).2 := by
  obtain ⟨h1, h2, h3, h4⟩ := h
  simp [State.onCell, h1, h2, h3, h4, hw]

/-- An instruction that acts on its own cell and goes on. -/
theorem State.cellOp_go {s : State} {c : CellId} {r : Running} {w mask enc : Word} (h : s.CellAt c r w) (hw : w &&& mask = enc)
    {f : Running → Cell → CellOut} {y : Cell} (hf : f r (s.cell c) = .go y) :
    s.cellOp c mask enc f = s.cellNext c r y (r.pc + 4) := by
  rw [State.cellOp, State.onCell_at h hw]
  simp [hf, State.retire, State.cellNext]

/-- An instruction that acts on its own cell and jumps. -/
theorem State.cellOp_jump {s : State} {c : CellId} {r : Running} {w mask enc : Word} (h : s.CellAt c r w) (hw : w &&& mask = enc)
    {f : Running → Cell → CellOut} {y : Cell} {t : Nat} (hf : f r (s.cell c) = .jump y t) :
    s.cellOp c mask enc f = s.cellNext c r y t := by
  rw [State.cellOp, State.onCell_at h hw]
  simp [hf, State.retire, State.cellNext]

/-- An instruction that ends in a program fault. -/
theorem State.cellOp_fault {s : State} {c : CellId} {r : Running} {w mask enc : Word} (h : s.CellAt c r w) (hw : w &&& mask = enc)
    {f : Running → Cell → CellOut} {n : Nat} (hf : f r (s.cell c) = .fault n) :
    s.cellOp c mask enc f = s.programFault c (s.cell c) n := by
  rw [State.cellOp, State.onCell_at h hw]
  simp [hf, State.retire]

/-- A core that is idle, at a barrier or reloading runs nothing (R242, R249, R265). -/
theorem State.onCell_idle {s : State} {c : CellId} {mask enc : Word} {f : Running → Cell → State → State × CellOut}
    (h : ∀ r, (s.cell c).run = some r → r.atBarrier.isSome = true ∨ (s.cell c).reloading = true) : s.onCell c mask enc f = s := by
  unfold State.onCell
  dsimp only
  cases hr : (s.cell c).run with
  | none => rfl
  | some r => simp [h r hr]

/-- A fetch that fails is a program fault (R257). -/
theorem State.onCell_fault {s : State} {c : CellId} {r : Running} {mask enc : Word} {n : Nat}
    (h1 : (s.cell c).run = some r) (h2 : r.atBarrier = none) (h3 : (s.cell c).reloading = false)
    (h4 : (s.cell c).fetch r r.pc = .fault n) (f : Running → Cell → State → State × CellOut) :
    s.onCell c mask enc f = s.programFault c (s.cell c) n := by
  simp [State.onCell, h1, h2, h3, h4]

@[simp] theorem and_allBits (w : Word) : w &&& allBits = w := by
  unfold allBits; exact BitVec.and_allOnes

/-- g0 reads as zero (R241). -/
@[simp] theorem Cell.get_zero (x : Cell) : x.get 0#5 = 0#64 := by simp [Cell.get]

/-- g0 ignores writes (R241). -/
@[simp] theorem Cell.put_zero (x : Cell) (v : DWord) : x.put 0#5 v = x := by simp [Cell.put]

/-- A register other than g0 reads what was written. -/
theorem Cell.get_put (x : Cell) (r : CellReg) (v : DWord) (h : r ≠ 0#5) : (x.put r v).get r = v := by
  simp [Cell.get, Cell.put, h]

/-- Writing a register leaves every other one. -/
theorem Cell.get_put_ne (x : Cell) (r q : CellReg) (v : DWord) (h : q ≠ r) : (x.put r v).get q = x.get q := by
  unfold Cell.get Cell.put
  by_cases hq : q = 0#5
  · simp [hq]
  · by_cases hr : r = 0#5
    · simp [hr]
    · have : r.toNat ≠ q.toNat := fun e => h (BitVec.eq_of_toNat_eq e.symm)
      simp [hq, hr, Vector.getElem_set_ne, this]

/-- Writing a general register changes nothing else of the cell. -/
theorem Cell.put_rest (x : Cell) (r : CellReg) (v : DWord) : { x.put r v with g := x.g } = x := by
  unfold Cell.put; split <;> rfl

/-- A program fault ends the handler and is otherwise counted and noticed (R257). -/
theorem State.programFault_quiet (s : State) (c : CellId) (x : Cell) (n : Nat) :
    (s.programFault c x n).quiet =
      (s.setCell c { x with run := none, sendHdr := none, sendWords := [], faultCause := n }).quiet := by
  simp [State.programFault]

/-- A lane that stands at an instruction runs it and counts one step (R327, R346). -/
theorem State.onLane_at {s : State} {h : HalfId} {l : Fin 16} {r : LaneRun} {w : DWord} (hh : s.LaneAt h l r w)
    (f : LaneRun → LaneRun) :
    s.onLane h l w f = (s.setLane h l { s.lane h l with run := some (f { r with pc := r.pc + 1 }) }).count1 0x0F 0 1 := by
  obtain ⟨h1, h2⟩ := hh
  simp [State.onLane, h1, h2]

/-- A lane that stands at an action instruction runs it, counts one step, and counts an action that is dropped (R334, R346). -/
theorem State.actOn_at {s : State} {h : HalfId} {l : Fin 16} {r : LaneRun} {w : DWord} (hh : s.LaneAt h l r w)
    (f : LaneRun → Actions) :
    s.actOn h l w f =
      let u := (s.setLane h l { s.lane h l with run := some { r with acts := f { r with pc := r.pc + 1 }, pc := r.pc + 1 } }).count1 0x0F 0 1
      if r.acts.dropped < (f r).dropped then
        u.effects (bridleEvent 8 (((aget r.job.slot s.streams.table).map (fun st => st.handle)).getD 0#48) r.job.index s.now)
      else u := by
  have h1 := State.onLane_at hh (fun x => { x with acts := f x })
  obtain ⟨h2, h3⟩ := hh
  simp [State.actOn, h1, h2, h3]

end Sys2Proof.Machine
end

