-- ==== Sys2Proof/Laws/Commands.lean ====
section
/-! SUPPORT. Mailbox commands: what starting one runs, what answering one writes, and what waiting adds. -/

namespace Sys2Proof.Machine

@[simp] theorem State.slot_setSlot (s : State) (p : MPort) (n : Fin 32) (m : MSlot) : (s.setSlot p n m).slot p n = m := by
  simp [State.slot, State.setSlot]

theorem State.slot_setSlot_ne (s : State) (p q : MPort) (n j : Fin 32) (m : MSlot) (h : (q, j) ≠ (p, n)) :
    (s.setSlot p n m).slot q j = s.slot q j := by
  simp [State.slot, State.setSlot, aget_aset_ne h]

@[simp] theorem State.setSlot_apart (s : State) (p : MPort) (n : Fin 32) (m : MSlot) : (s.setSlot p n m).apart = s.apart := rfl

theorem State.apart_of_quiet {s t : State} (h : s.quiet = t.quiet) : s.apart = t.apart := by unfold State.apart; rw [h]

@[simp] theorem State.effects_apart (s : State) (es : List Effect) : (s.effects es).apart = s.apart :=
  State.apart_of_quiet (State.effects_quiet s es)

@[simp] theorem State.raise_apart (s : State) (c : Nat) (d : List Byte) : (s.raise c d).apart = s.apart :=
  State.apart_of_quiet (State.raise_quiet s c d)

@[simp] theorem State.raise_slot (s : State) (c : Nat) (d : List Byte) (p : MPort) (n : Fin 32) :
    (s.raise c d).slot p n = s.slot p n := State.effects_slot s _ p n

@[simp] theorem State.respond_apart (s : State) (p : MPort) (n : Fin 32) (st : Nat) (b : List Byte) :
    (s.respond p n st b).apart = s.apart := by
  unfold State.respond
  dsimp only
  split <;> simp

@[simp] theorem State.answer_apart (s : State) (c : Cmd) (st : Nat) (b : List Byte) : (s.answer c st b).apart = s.apart := by
  simp [State.answer]

/-- The command that a slot holds, as the firmware starts it. -/
def State.cmdOf (s : State) (p : MPort) (n : Fin 32) (code : Nat) : Cmd :=
  { port := p, slot := n, code := code, accept := (s.slot p n).accept, len := (s.slot p n).bodyLen, body := (s.slot p n).body }

/-- The state in which a command runs. -/
def State.startedAt (s : State) (p : MPort) (n : Fin 32) : State := s.setSlot p n { s.slot p n with started := true }

@[simp] theorem State.cmdOf_port (s : State) (p : MPort) (n : Fin 32) (c : Nat) : (s.cmdOf p n c).port = p := rfl
@[simp] theorem State.cmdOf_slot (s : State) (p : MPort) (n : Fin 32) (c : Nat) : (s.cmdOf p n c).slot = n := rfl
@[simp] theorem State.cmdOf_code (s : State) (p : MPort) (n : Fin 32) (c : Nat) : (s.cmdOf p n c).code = c := rfl
@[simp] theorem State.cmdOf_accept (s : State) (p : MPort) (n : Fin 32) (c : Nat) :
    (s.cmdOf p n c).accept = (s.slot p n).accept := rfl
@[simp] theorem State.cmdOf_len (s : State) (p : MPort) (n : Fin 32) (c : Nat) :
    (s.cmdOf p n c).len = (s.slot p n).bodyLen := rfl
@[simp] theorem State.cmdOf_body (s : State) (p : MPort) (n : Fin 32) (c : Nat) :
    (s.cmdOf p n c).body = (s.slot p n).body := rfl
@[simp] theorem State.startedAt_boot (s : State) (p : MPort) (n : Fin 32) : (s.startedAt p n).boot = s.boot := rfl
@[simp] theorem State.startedAt_cast (s : State) (p : MPort) (n : Fin 32) : (s.startedAt p n).cast = s.cast := rfl
@[simp] theorem State.startedAt_aon (s : State) (p : MPort) (n : Fin 32) : (s.startedAt p n).aon = s.aon := rfl
@[simp] theorem State.startedAt_power (s : State) (p : MPort) (n : Fin 32) : (s.startedAt p n).power = s.power := rfl
@[simp] theorem State.startedAt_plane (s : State) (p : MPort) (n : Fin 32) : (s.startedAt p n).plane = s.plane := rfl
@[simp] theorem State.startedAt_queue (s : State) (p : MPort) (n : Fin 32) (q : QueueId) :
    (s.startedAt p n).queue q = s.queue q := rfl

/-- A command that is ready runs. -/
theorem State.startCmd_ready {s : State} {p : MPort} {n : Fin 32} {code len : Nat} (h : s.Ready p n code len)
    (run : Cmd → State → State) : s.startCmd p n code len run = run (s.cmdOf p n code) (s.startedAt p n) := by
  obtain ⟨hr, ho, hs, hc, ha, hg, hl⟩ := h
  have hserved : s.served = true := by
    rcases hr with hr | hr <;> simp [State.served, hr]
  have hcmd : s.cmd? p n code = some (s.cmdOf p n code) := by
    unfold State.cmd?
    by_cases hcfg : isConfig code = true
    · simp [hserved, ho, hs, hc, ha, (hg hcfg).1, State.cmdOf]
    · simp [hserved, ho, hs, hc, ha, hcfg, State.cmdOf]
  have h1 : (!s.boot.fwRunning && !romCodes.contains code) = false := by
    rcases hr with hr | hr <;> simp_all
  have h2 : (isConfig code && decide ((s.slot p n).owner0 ≠ portOwner p)) = false := by
    by_cases hcfg : isConfig code = true
    · simp [(hg hcfg).2]
    · simp [hcfg]
  have h3 : ¬ (s.cmdOf p n code).len < len := by simp [State.cmdOf]; omega
  simp only [State.startCmd, hcmd]
  rw [if_neg (by simpa using h1), if_neg (by simpa using h2), if_neg h3]
  rfl

/-- What answering writes, for a state whose slots are those of `s` with the command started. -/
theorem State.respond_answered {s u : State} {p : MPort} {n : Fin 32} (st : Nat) (b : List Byte)
    (hm : (u.slot p n).mem = (s.slot p n).mem) (hk : (u.slot p n).accept = (s.slot p n).accept)
    (ho : ∀ q m, (q, m) ≠ (p, n) → u.slot q m = s.slot q m) : s.Answered (u.respond p n st b) p n st b := by
  have hcode : responseArea (u.slot p n) st b = responseArea (s.slot p n) st b := by
    simp [responseArea, MSlot.code, MSlot.seqBytes, hm, hk]
  have hn : (u.slot p n).notify = (s.slot p n).notify := by simp [MSlot.notify, hm]
  have hslot : (u.respond p n st b).slot p n =
      { u.slot p n with mem := Memory.setBytes (u.slot p n).mem 0x100 (responseArea (u.slot p n) st b), owned := false,
                        started := false, long := false } := by
    unfold State.respond; dsimp only; split <;> simp
  refine ⟨by rw [hslot], by rw [hslot], by rw [hslot]; simp [hcode, hm], ?_, ?_⟩
  · intro h
    have : (u.slot p n).notify = true := by rw [hn]; exact h
    unfold State.respond
    simp only [this, if_true]
    exact State.raise_latched _ _ _
  · intro q m hq
    rw [← ho q m hq]
    unfold State.respond
    dsimp only
    split <;> simp [State.slot_setSlot_ne _ _ _ _ _ _ hq]

/-- An answer without `notify` writes the slot alone. -/
theorem State.respond_quietly (u : State) (p : MPort) (n : Fin 32) (st : Nat) (b : List Byte)
    (h : (u.slot p n).notify = false) :
    u.respond p n st b = u.setSlot p n
      { u.slot p n with mem := Memory.setBytes (u.slot p n).mem 0x100 (responseArea (u.slot p n) st b), owned := false,
                        started := false, long := false } := by
  simp [State.respond, h]

/-- An answer in a state whose slots are those of `s`, but for `owned`, `started` and `long` of the slot. -/
theorem State.answersAt {s u e : State} {p : MPort} {n : Fin 32} (st : Nat) (b : List Byte)
    (hm : (u.slot p n).mem = (s.slot p n).mem) (hk : (u.slot p n).accept = (s.slot p n).accept)
    (ho : ∀ q m, (q, m) ≠ (p, n) → u.slot q m = s.slot q m) (he : u.apart = e.apart) (hl : u.loud = e.loud) :
    s.AnswersWith (.next (u.respond p n st b)) p n st b e := by
  refine ⟨_, rfl, State.respond_answered st b hm hk ho, by rw [State.respond_apart, he], ?_⟩
  intro hn
  rw [← hl, State.respond_quietly u p n st b (by simpa [MSlot.notify, hm] using hn)]
  rfl

/-- A ready command that runs to an answer in the state `e` with the slot marked started. -/
theorem State.answersWith {s e : State} {p : MPort} {n : Fin 32} {code len : Nat} (h : s.Ready p n code len)
    {run : Cmd → State → State} {st : Nat} {b : List Byte} (hmb : e.ctl.mbox = s.ctl.mbox)
    (hrun : run (s.cmdOf p n code) (s.startedAt p n) =
      (e.setSlot p n { s.slot p n with started := true }).respond p n st b) :
    s.AnswersWith (.next (s.startCmd p n code len run)) p n st b e := by
  rw [State.startCmd_ready h, hrun]
  refine State.answersAt st b ?_ ?_ ?_ rfl rfl
  · simp
  · simp
  · intro q m hq
    rw [State.slot_setSlot_ne _ _ _ _ _ _ hq]
    simp [State.slot, hmb]

theorem State.takeItem_setSlot (s : State) (q : QueueId) (p : MPort) (n : Fin 32) (m : MSlot) :
    (s.setSlot p n m).takeItem q = ((s.takeItem q).1, (s.takeItem q).2.setSlot p n m) := by
  unfold State.takeItem
  have hq : (s.setSlot p n m).queue q = s.queue q := rfl
  simp only [hq]
  split
  · rw [← State.effects_setSlot]; rfl
  · rfl

theorem State.dropPacket_setSlot (s : State) (q : QueueId) (p : MPort) (n : Fin 32) (m : MSlot) :
    (s.setSlot p n m).dropPacket q = (s.dropPacket q).setSlot p n m := by
  unfold State.dropPacket
  have hq : (s.setSlot p n m).queue q = s.queue q := rfl
  simp only [hq]
  split
  · rfl
  · unfold State.countN; rw [← State.effects_setSlot]; rfl

theorem State.hostOffer_setSlot (s : State) (q : QueueId) (b : List Byte) (p : MPort) (n : Fin 32) (m : MSlot) :
    (s.setSlot p n m).hostOffer q b = (s.hostOffer q b).setSlot p n m := by
  unfold State.hostOffer
  have hq : (s.setSlot p n m).queue q = s.queue q := rfl
  have hs : ∀ v, (s.setSlot p n m).setQueue q v = (s.setQueue q v).setSlot p n m := fun _ => rfl
  have hn : (s.setSlot p n m).now = s.now := rfl
  have hr : ∀ (u : State) c d, (u.setSlot p n m).raise c d = (u.raise c d).setSlot p n m :=
    fun u c d => State.effects_setSlot u _ p n m
  have hc : ∀ (u : State) a b c d, (u.setSlot p n m).countN a b c d = (u.countN a b c d).setSlot p n m :=
    fun u a b c d => State.effects_setSlot u _ p n m
  simp only [hq, hs, hn, hc, State.effects_setSlot]
  generalize (s.queue q).offerHost b = r
  obtain ⟨o, v⟩ := r
  cases o <;> dsimp only <;> split
  all_goals first | rw [hr] | rfl

theorem aset_aget {α β : Type} [DecidableEq α] {k : α} {v : β} (m : List (α × β)) (h : aget k m = some v) : aset k v m = m := by
  induction m with
  | nil => simp [aget] at h
  | cons a m ih =>
    obtain ⟨j, w⟩ := a
    by_cases hj : j = k
    · simp [aget, hj] at h; simp [aset, hj, h]
    · simp [aget, hj] at h; simp [aset, hj, ih h]

theorem aset_aset {α β : Type} [DecidableEq α] (k : α) (a b : β) (m : List (α × β)) : aset k a (aset k b m) = aset k a m := by
  induction m with
  | nil => simp [aset]
  | cons x m ih => obtain ⟨j, w⟩ := x; by_cases hj : j = k <;> simp [aset, hj, ih]

theorem State.longWaits_startedAt {s : State} {p : MPort} {n : Fin 32} (ho : (s.slot p n).owned = true) :
    (s.startedAt p n).longWaits = s.longWaits := by
  unfold State.longWaits State.startedAt State.setSlot
  dsimp only
  have key : ∀ (m : List ((MPort × Fin 32) × MSlot)) (v : MSlot), aget (p, n) m = some v →
      ((aset (p, n) { v with started := true } m).filter (fun e => e.2.owned && e.2.long)).length
        = (m.filter (fun e => e.2.owned && e.2.long)).length := by
    intro m v hv
    induction m with
    | nil => simp [aget] at hv
    | cons a m ih =>
      obtain ⟨j, w⟩ := a
      by_cases hj : j = (p, n)
      · simp [aget, hj] at hv; subst hv; simp [aset, hj, List.filter_cons]; split <;> simp
      · simp [aget, hj] at hv; simp [aset, hj, List.filter_cons]; split <;> simp [ih hv]
  cases hv : aget (p, n) s.ctl.mbox with
  | none => simp [State.slot, hv] at ho
  | some v =>
    have hs : s.slot p n = v := by simp [State.slot, hv]
    rw [hs]; exact key _ _ hv

/-- Below the limit a command that answers later is admitted (R516). -/
theorem State.admitLong_ready {s : State} {p : MPort} {n : Fin 32} {code len : Nat} (h : s.Ready p n code len)
    (hl : s.longWaits < 48) (k : State → State) :
    (s.startedAt p n).admitLong (s.cmdOf p n code) k = k (s.setSlot p n { s.slot p n with started := true, long := true }) := by
  unfold State.admitLong
  rw [if_neg (by rw [State.longWaits_startedAt h.2.1]; omega)]
  have hs : (s.startedAt p n).slot p n = { s.slot p n with started := true } := by simp [State.startedAt]
  simp only [State.cmdOf_port, State.cmdOf_slot, hs]
  congr 1
  simp only [State.setSlot, State.startedAt, aset_aset]

/-- A ready command that waits. -/
theorem State.waitsUntil {s : State} {p : MPort} {n : Fin 32} {code len : Nat} (h : s.Ready p n code len)
    (run : Cmd → State → State) (w : Waiting) (m : MSlot) (hm : m.mem = (s.slot p n).mem) (ho : m.owned = true) (hs : m.started = true)
    (hrun : run (s.cmdOf p n code) (s.startedAt p n) =
      { s with ctl := { s.ctl with mbox := aset (p, n) m s.ctl.mbox, waiting := insertWaiting w s.ctl.waiting } }) :
    s.WaitsUntil (.next (s.startCmd p n code len run)) p n w := by
  refine ⟨_, rfl, ?_⟩
  rw [State.startCmd_ready h, hrun]
  refine ⟨rfl, ?_, ?_, ?_, ?_, rfl⟩
  · simp [State.slot, ho]
  · simp [State.slot, hs]
  · simp [State.slot] at hm ⊢; exact hm
  · intro q j hq
    simp [State.slot, aget_aset_ne hq]

end Sys2Proof.Machine
end

