-- ==== Sys2Proof/Laws/Ecc.lean ====
section
/-! SUPPORT. The parity of the 80-bit memory words (R468): a code word has even parity, so no two inverted bits mend an odd
number of errors (R469). -/

namespace Sys2Proof.Machine

theorem oddParity_succ (n v : Nat) : oddParity (n + 1) v = (oddParity n v != Nat.testBit v n) := by
  simp [oddParity, List.range_succ, List.foldl_append]

theorem oddParity_congr (n v w : Nat) (h : ∀ i, i < n → Nat.testBit v i = Nat.testBit w i) : oddParity n v = oddParity n w := by
  induction n with
  | zero => rfl
  | succ n ih => rw [oddParity_succ, oddParity_succ, ih (fun i hi => h i (by omega)), h n (by omega)]

theorem oddParity_flip (n v i : Nat) (h : i < n) : oddParity n (v ^^^ 2 ^ i) = !oddParity n v := by
  induction n with
  | zero => omega
  | succ n ih =>
    rw [oddParity_succ, oddParity_succ, Nat.testBit_xor, Nat.testBit_two_pow]
    by_cases hi : i = n
    · subst hi
      rw [oddParity_congr i (v ^^^ 2 ^ i) v (fun j hj => by
        rw [Nat.testBit_xor, Nat.testBit_two_pow, decide_eq_false (by omega), Bool.xor_false])]
      cases oddParity i v <;> cases Nat.testBit v i <;> simp
    · rw [ih (by omega), decide_eq_false hi]
      cases oddParity n v <;> cases Nat.testBit v n <;> simp

theorem bchRem_lt (n v : Nat) (h : v < 2 ^ (n + 14)) : bchRem n v < 2 ^ 14 := by
  induction n generalizing v with
  | zero => simpa [bchRem] using h
  | succ n ih =>
    rw [bchRem]
    apply ih
    have hg : bchGen <<< n < 2 ^ (n + 15) := by
      rw [Nat.shiftLeft_eq, Nat.pow_add, Nat.mul_comm]
      exact Nat.mul_lt_mul_of_pos_left (by decide) (Nat.two_pow_pos n)
    have hb : Nat.testBit (bchGen <<< n) (n + 14) = true := by
      rw [Nat.testBit_shiftLeft]
      simp only [Nat.add_sub_cancel_left]
      simp
      decide
    have hv : v < 2 ^ (n + 15) := by rw [show n + 15 = n + 1 + 14 by omega]; exact h
    split
    · rename_i ht
      apply Nat.lt_pow_two_of_testBit
      intro i hi
      rw [Nat.testBit_xor]
      by_cases he : i = n + 14
      · subst he; rw [ht, hb]; rfl
      · rw [Nat.testBit_lt_two_pow (Nat.lt_of_lt_of_le hv (Nat.pow_le_pow_right (by decide) (by omega))),
          Nat.testBit_lt_two_pow (Nat.lt_of_lt_of_le hg (Nat.pow_le_pow_right (by decide) (by omega)))]; rfl
    · rename_i ht
      apply Nat.lt_pow_two_of_testBit
      intro i hi
      by_cases he : i = n + 14
      · subst he; simpa using ht
      · exact Nat.testBit_lt_two_pow (Nat.lt_of_lt_of_le hv (Nat.pow_le_pow_right (by decide) (by omega)))

/-- A code word has even parity. -/
theorem memValid_even (w : BitVec 80) (h : memValid w = true) : oddParity 80 w.toNat = false := by
  unfold memValid at h
  simp only [beq_iff_eq] at h
  rw [← h]
  unfold memEncode
  generalize w.getLsbD 64 = p
  generalize (w.setWidth 64 : DWord) = d
  have hc : bchCheck p d < 2 ^ 14 := by
    apply bchRem_lt
    rw [Nat.shiftLeft_eq]
    have := d.isLt
    split <;> omega
  have hl : d.toNat + (if p = true then 2 ^ 64 else 0) + bchCheck p d <<< 65 < 2 ^ 79 := by
    rw [Nat.shiftLeft_eq]
    have := d.isLt
    split <;> omega
  generalize d.toNat + (if p = true then 2 ^ 64 else 0) + bchCheck p d <<< 65 = low at hl
  simp only [BitVec.toNat_ofNat]
  cases hp : oddParity 79 low
  · simp only [Bool.false_eq_true, if_false, Nat.add_zero]
    rw [Nat.mod_eq_of_lt (by omega), oddParity_succ, hp, Nat.testBit_lt_two_pow hl]; rfl
  · simp only [if_true]
    rw [Nat.mod_eq_of_lt (by omega), oddParity_succ, oddParity_congr 79 (low + 2 ^ 79) low, hp]
    · rw [Nat.add_comm, Nat.testBit_two_pow_add_eq, Nat.testBit_lt_two_pow hl]; rfl
    · intro i hi
      rw [Nat.add_comm]
      exact Nat.testBit_two_pow_add_gt hi low

/-- Inverting a bit changes the parity. -/
theorem oddParity_flipBit (w : BitVec 80) (i : Nat) (h : i < 80) : oddParity 80 (flipBit w i).toNat = !oddParity 80 w.toNat := by
  have : (flipBit w i).toNat = w.toNat ^^^ 2 ^ i := by
    unfold flipBit
    simp only [BitVec.toNat_xor, BitVec.toNat_shiftLeft, BitVec.toNat_ofNat]
    rw [Nat.shiftLeft_eq, show 1 % 2 ^ 80 = 1 by decide, Nat.one_mul, Nat.mod_eq_of_lt (Nat.pow_lt_pow_right (by decide) h)]
  rw [this, oddParity_flip _ _ _ h]

/-- A word of odd parity that no single inverted bit mends is uncorrectable (R469). -/
theorem memDecode_odd (w : BitVec 80) (hp : oddParity 80 w.toNat = true) (h : ∀ i, i < 80 → memValid (flipBit w i) = false) :
    memDecode w = .uncorrectable (w.setWidth 64) := by
  unfold memDecode
  have hw : memValid w = false := by
    cases hv : memValid w
    · rfl
    · rw [memValid_even w hv] at hp; cases hp
  have h1 : (List.range 80).find? (fun i => memValid (flipBit w i)) = none := by
    rw [List.find?_eq_none]; intro i hi; rw [h i (List.mem_range.mp hi)]; decide
  have h2 : ((List.range 80).flatMap (fun i => (List.range i).map (fun j => (i, j)))).find?
      (fun p => memValid (flipBit (flipBit w p.1) p.2)) = none := by
    rw [List.find?_eq_none]
    intro p hp' hv
    simp only [List.mem_flatMap, List.mem_map, List.mem_range] at hp'
    obtain ⟨i, hi, j, hj, rfl⟩ := hp'
    have := memValid_even _ hv
    rw [oddParity_flipBit _ _ (by simp only; omega), oddParity_flipBit _ _ hi, hp] at this
    cases this
  simp only [hw, Bool.false_eq_true, if_false, h1, h2]

end Sys2Proof.Machine
end

