-- ==== Sys2Proof/Laws/Inside.lean ====
section
/-! SUPPORT. What sending packets leaves unchanged besides what counting does (State.inside): the fabric's and the outputs'
operations, and what the work on a stream changes: that stream, and what it sends. -/

namespace Sys2Proof.Machine

/-! ### Ops -/

@[simp] theorem inside_mk (pending freeUse aon boot ctl queues plane bulk cast streams eng grid rel power) :
    (State.mk pending freeUse aon boot ctl queues plane bulk cast streams eng grid rel power).inside =
      State.mk pending 0 aon boot { ctl with counters := [], notices := [], syncOut := [], budgets := [] } [] {} [] cast
        { streams with buffer := [] } eng grid rel power := rfl

@[simp] theorem inside_eta (s : State) :
    State.mk s.pending 0 s.aon s.boot { s.ctl with counters := [], notices := [], syncOut := [], budgets := [] } [] {} [] s.cast
        { s.streams with buffer := [] } s.eng s.grid s.rel s.power = s.inside := rfl

theorem foldl_inside {α : Type} (f : State → α → State) (h : ∀ s a, (f s a).inside = s.inside) (l : List α) (s : State) :
    (l.foldl f s).inside = s.inside := by
  induction l generalizing s with
  | nil => rfl
  | cons a l ih => simp [ih, h]

theorem State.inside_of_quiet {s t : State} (h : s.quiet = t.quiet) : s.inside = t.inside := by
  have h1 : ∀ u : State, u.inside = { u.quiet with freeUse := 0, plane := {}, bulk := [], ctl := { u.quiet.ctl with budgets := [] }, streams := { u.quiet.streams with buffer := [] } } := fun _ => rfl
  rw [h1, h1 t, h]

@[simp] theorem State.effects_inside (s : State) (es : List Effect) : (s.effects es).inside = s.inside :=
  State.inside_of_quiet (State.effects_quiet s es)
@[simp] theorem State.count1_inside (s : State) (g i p : Nat) : (s.count1 g i p).inside = s.inside :=
  State.inside_of_quiet (by simp)
@[simp] theorem State.countN_inside (s : State) (g i p n : Nat) : (s.countN g i p n).inside = s.inside :=
  State.inside_of_quiet (by simp)
@[simp] theorem State.raise_inside (s : State) (c : Nat) (d : List Byte) : (s.raise c d).inside = s.inside :=
  State.inside_of_quiet (by simp)
@[simp] theorem State.writeItem_inside (s : State) (q : QueueId) (t : Half) (b : List Byte) : (s.writeItem q t b).inside = s.inside :=
  State.inside_of_quiet (by simp)
@[simp] theorem State.setQueue_inside (s : State) (q : QueueId) (v : Queue) : (s.setQueue q v).inside = s.inside := rfl

@[simp] theorem State.setLink_inside (s : State) (k : LinkId) (l : Link) : (s.setLink k l).inside = s.inside := rfl

/-! ### Fabric -/

@[simp] theorem State.countLink_inside (s : State) (k : CtrKey) (link : Byte) :
    (State.countLink s k link).inside = s.inside := by
  simp [State.countLink]

@[simp] theorem State.linkRecord_inside (s : State) (kind : Nat) (link : Byte) (peer : NodeId) (slot : Nat) (lane : Nat) :
    (State.linkRecord s kind link peer slot lane).inside = s.inside := by
  simp [State.linkRecord]

@[simp] theorem State.violation_inside (s : State) (slot : BitVec 24) (edge : Byte) :
    (State.violation s slot edge).inside = s.inside := by
  simp [State.violation]

@[simp] theorem State.enqueueLink_inside (s : State) (k : LinkId) (p : Packet) (start : Nat) :
    (State.enqueueLink s k p start).inside = s.inside := by
  unfold State.enqueueLink
  dsimp only
  split <;> simp

@[simp] theorem State.offerLink_inside (s : State) (k : LinkId) (p : Packet) (start : Nat) :
    (State.offerLink s k p start).inside = s.inside := by
  unfold State.offerLink
  split <;> simp

@[simp] theorem State.setBulk_inside (s : State) (b : BulkId) (v : Bulk) :
    (State.setBulk s b v).inside = s.inside := by
  rfl

@[simp] theorem State.offerBulk_inside (s : State) (b : BulkId) (p : Packet) (start : Nat) :
    (State.offerBulk s b p start).inside = s.inside := by
  unfold State.offerBulk
  dsimp only
  repeat' split
  all_goals simp

@[simp] theorem State.forward_inside (s : State) (p : Packet) (stamp start : Nat) :
    (State.forward s p stamp start).inside = s.inside := by
  unfold State.forward
  repeat' split
  all_goals simp

@[simp] theorem State.toFunction_inside (s : State) (a : Arrival) :
    (State.toFunction s a).inside = s.inside := by
  rfl

@[simp] theorem State.deliver_inside (s : State) (a : Arrival) :
    (State.deliver s a).inside = s.inside := by
  unfold State.deliver
  dsimp only
  repeat' split
  all_goals simp

theorem takeInbox_inside {s t : State} {f : Arrival → Bool} {a : Arrival} (h : s.takeInbox f = some (a, t)) : t.inside = s.inside := by
  unfold State.takeInbox at h
  split at h <;> simp_all
  obtain ⟨_, rfl⟩ := h
  rfl

@[simp] theorem State.sendRouted_inside (s : State) (dest : NodeId) (port : Byte) (handle : BitVec 48) (payload : List Byte) :
    (State.sendRouted s dest port handle payload).inside = s.inside := by
  unfold State.sendRouted
  split <;> simp

@[simp] theorem State.sendLocal_inside (s : State) (k : LinkId) (port : Byte) (payload : List Byte) :
    (State.sendLocal s k port payload).inside = s.inside := by
  simp [State.sendLocal]

@[simp] theorem State.windowSend_inside (s : State) (a : Arrival) :
    (State.windowSend s a).inside = s.inside := by
  simp [State.windowSend]

@[simp] theorem State.returnCredit_inside (s : State) (e : Edge) (p : Packet) :
    (State.returnCredit s e p).inside = s.inside := by
  unfold State.returnCredit
  split <;> rfl

@[simp] theorem pumpEdge_inside (as : List Arrival) (bl : List NodeId) (s : State) : (pumpEdge as bl s).inside = s.inside := by
  fun_induction pumpEdge as bl s <;> simp_all

@[simp] theorem State.pump_inside (s : State) :
    (State.pump s).inside = s.inside := by
  simp [State.pump]

@[simp] theorem State.enterWindow_inside (s : State) (a : Arrival) :
    (State.enterWindow s a).inside = s.inside := by
  unfold State.enterWindow
  repeat' split
  all_goals simp

@[simp] theorem receiveAck_inside (a : Arrival) (s : State) :
    (receiveAck a s).inside = s.inside := by
  unfold receiveAck
  split <;> simp

@[simp] theorem retransmit_inside (peer : NodeId) (s : State) :
    (retransmit peer s).inside = s.inside := by
  unfold retransmit
  repeat' split
  all_goals simp

@[simp] theorem deliverAll_inside (as : List Arrival) (s : State) :
    (deliverAll as s).inside = s.inside := by
  simp [deliverAll, foldl_inside]

@[simp] theorem State.setRecord_inside (s : State) (n : NodeId) (r : RecvRecord) :
    (State.setRecord s n r).inside = s.inside := by
  rfl

@[simp] theorem State.oweAck_inside (s : State) (p : Packet) :
    (State.oweAck s p).inside = s.inside := by
  rfl

@[simp] theorem receiveInRange_inside (a : Arrival) (r : RecvRecord) (s : State) :
    (receiveInRange a r s).inside = s.inside := by
  unfold receiveInRange
  dsimp only
  repeat' split
  all_goals simp

@[simp] theorem receiveWindowed_inside (a : Arrival) (s : State) :
    (receiveWindowed a s).inside = s.inside := by
  unfold receiveWindowed
  dsimp only
  repeat' split
  all_goals simp

@[simp] theorem sendAck_inside (peer : NodeId) (s : State) :
    (sendAck peer s).inside = s.inside := by
  unfold sendAck
  dsimp only
  repeat' split
  all_goals simp

@[simp] theorem State.reportMiss_inside (s : State) (g : Nat) (p : Packet) (reason : Nat) (members : BitVec 256) :
    (State.reportMiss s g p reason members).inside = s.inside := by
  unfold State.reportMiss
  repeat' split
  all_goals first | rfl | simp

@[simp] theorem State.branchGap_inside (s : State) (g : Nat) (k : LinkId) :
    (State.branchGap s g k).inside = s.inside := by
  unfold State.branchGap
  split <;> rfl

@[simp] theorem State.branchMiss_inside (s : State) (g : Nat) (k : LinkId) (p : Packet) (members : BitVec 256) :
    (State.branchMiss s g k p members).inside = s.inside := by
  simp [State.branchMiss]

@[simp] theorem State.copyTo_inside (s : State) (g : Nat) (p : Packet) (b : GroupBranch) (start : Nat) :
    (State.copyTo s g p b start).inside = s.inside := by
  unfold State.copyTo
  dsimp only
  repeat' split
  all_goals simp

@[simp] theorem State.localCopy_inside (s : State) (g : Nat) (a : Arrival) :
    (State.localCopy s g a).inside = s.inside := by
  simp [State.localCopy]

@[simp] theorem State.replicate_inside (s : State) (a : Arrival) (start : Nat) :
    (State.replicate s a start).inside = s.inside := by
  unfold State.replicate
  dsimp only
  repeat' split
  all_goals simp_all [foldl_inside]

@[simp] theorem State.oweCompletion_inside (s : State) (a : Arrival) :
    (State.oweCompletion s a).inside = s.inside := by
  unfold State.oweCompletion
  dsimp only
  repeat' split
  all_goals simp

@[simp] theorem State.enterGroup_inside (s : State) (a : Arrival) :
    (State.enterGroup s a).inside = s.inside := by
  unfold State.enterGroup
  dsimp only
  split <;> simp

@[simp] theorem State.sendGroup_inside (s : State) (g : Nat) (cls : BitVec 3) (port : Byte) (handle : BitVec 48) (payload : List Byte) :
    (State.sendGroup s g cls port handle payload).inside = s.inside := by
  simp [State.sendGroup]

@[simp] theorem State.sendBest_inside (s : State) (cls : Nat) (dest : NodeId) (port : Byte) (fence : Bool) (handle : BitVec 48) (payload : List Byte) (lat : Nat) :
    (State.sendBest s cls dest port fence handle payload lat).inside = s.inside := by
  simp [State.sendBest]

@[simp] theorem State.class0Out_inside (s : State) (e : SlotEntry) (a : Arrival) :
    (State.class0Out s e a).inside = s.inside := by
  unfold State.class0Out
  dsimp only
  repeat' split
  all_goals simp

@[simp] theorem State.sendClass0_inside (s : State) (dest : NodeId) (port : Byte) (mc : Bool) (handle : BitVec 48) (payload : List Byte) (lat : Nat) :
    (State.sendClass0 s dest port mc handle payload lat).inside = s.inside := by
  unfold State.sendClass0
  dsimp only
  repeat' split
  all_goals simp

/-! ### Outputs -/

@[simp] theorem serveRetention_inside (k : LinkId) (rs : List Retained) (s : State) : (serveRetention k rs s).inside = s.inside := by
  induction rs generalizing s with
  | nil => rfl
  | cons r rs ih => unfold serveRetention; dsimp only; split <;> simp [ih]

@[simp] theorem selectLink_inside (k : LinkId) (at16 : Nat) (s : State) :
    (selectLink k at16 s).inside = s.inside := by
  unfold selectLink
  dsimp only
  repeat' split
  all_goals simp

@[simp] theorem selectBulk_inside (b : BulkId) (s : State) :
    (selectBulk b s).inside = s.inside := by
  unfold selectBulk
  dsimp only
  repeat' split
  all_goals simp

/-! ### Context -/

@[simp] theorem State.sendEvent_inside (s : State) (node : NodeId) (port : Byte) (h : BitVec 48) (body : List Byte) :
    (State.sendEvent s node port h body).inside = s.inside := by
  unfold State.sendEvent
  dsimp only
  split <;> simp

@[simp] theorem State.commitToken_inside (s : State) (tenant bytes : Nat) : (s.commitToken tenant bytes).inside = s.inside := by
  unfold State.commitToken
  dsimp only
  split
  · simp
  · simp
  · exact State.effects_inside _ _

/-- What a boundary sends changes nothing inside but the awl items that a halt discards (R177). -/
theorem State.sendOut_inside (s : State) (k : SlotId) (p : Option Policy) (st : Stream) (o : Out) :
    { (s.sendOut k p st o).inside with eng := s.eng } = s.inside ∧ { (s.sendOut k p st o).eng with awl := s.eng.awl } = s.eng := by
  have h : ∀ t : State, t.inside = s.inside → { t.inside with eng := s.eng } = s.inside ∧ { t.eng with awl := s.eng.awl } = s.eng := by
    intro t e
    have e1 : t.inside.eng = s.inside.eng := congrArg State.eng e
    have e2 : t.eng = s.eng := e1
    rw [e, e2]
    exact ⟨rfl, rfl⟩
  unfold State.sendOut
  cases o
  case dropItems => exact ⟨rfl, rfl⟩
  all_goals
    apply h
    dsimp only
    repeat' split
    all_goals simp

/-- What the work on a stream leaves in it, and what it sends: besides, only the awl items that a halt discards (R177). -/
theorem Work.run_inside (w : Work) (s : State) :
    { (w.run s).inside with eng := s.eng } = (s.setStream w.env.slot w.st).inside ∧ { (w.run s).eng with awl := s.eng.awl } = s.eng := by
  unfold Work.run
  have h : ∀ (l : List Out) (u : State), { (l.foldl (fun t o => t.sendOut w.env.slot w.env.policy w.st o) u).inside with eng := u.eng } = u.inside ∧
      { (l.foldl (fun t o => t.sendOut w.env.slot w.env.policy w.st o) u).eng with awl := u.eng.awl } = u.eng := by
    intro l
    induction l with
    | nil => exact fun u => ⟨rfl, rfl⟩
    | cons o l ih =>
      intro u
      have a := ih (u.sendOut w.env.slot w.env.policy w.st o)
      have b := u.sendOut_inside w.env.slot w.env.policy w.st o
      simp only [List.foldl_cons]
      refine ⟨?_, ?_⟩
      · rw [← b.1, ← a.1]
      · rw [← b.2]
        have c := a.2
        generalize (l.foldl (fun t o => t.sendOut w.env.slot w.env.policy w.st o) (u.sendOut w.env.slot w.env.policy w.st o)).eng = x at *
        generalize (u.sendOut w.env.slot w.env.policy w.st o).eng = y at *
        cases x; cases y; simp_all
  exact h w.outs (s.setStream w.env.slot w.st)

theorem AwlLane.without_twice (v : AwlLane) (k : SlotId) : (v.without k).without k = v.without k := by
  simp [AwlLane.without, List.filter_filter]

theorem State.dropItems_twice (s : State) (k : SlotId) : ((s.dropItems k).dropItems k).eng = (s.dropItems k).eng := by
  simp [State.dropItems, AwlLane.without_twice]

/-- The engines after the work on a stream: as they were, or without the stream's items in the awl lanes (R177). -/
theorem Work.run_eng (w : Work) (s : State) : (w.run s).eng = s.eng ∨ (w.run s).eng = (s.dropItems w.env.slot).eng := by
  have one : ∀ (u : State) (o : Out), (u.sendOut w.env.slot w.env.policy w.st o).eng = u.eng ∨
      (u.sendOut w.env.slot w.env.policy w.st o).eng = (u.dropItems w.env.slot).eng := by
    intro u o
    unfold State.sendOut
    cases o
    case dropItems => exact .inr rfl
    all_goals
      left
      apply congrArg State.eng (a₁ := State.inside _) (a₂ := State.inside _)
      try dsimp only
      repeat' split
      all_goals simp
  have go : ∀ (l : List Out) (u : State), (l.foldl (fun t o => t.sendOut w.env.slot w.env.policy w.st o) u).eng = u.eng ∨
      (l.foldl (fun t o => t.sendOut w.env.slot w.env.policy w.st o) u).eng = (u.dropItems w.env.slot).eng := by
    intro l
    induction l with
    | nil => exact fun u => .inl rfl
    | cons o l ih =>
      intro u
      have drop : ∀ a b : State, a.eng = b.eng → (a.dropItems w.env.slot).eng = (b.dropItems w.env.slot).eng := by
        intro a b h; simp only [State.dropItems, h]
      rcases ih (u.sendOut w.env.slot w.env.policy w.st o) with h | h <;> rcases one u o with g | g <;> simp only [List.foldl_cons, h]
      · exact .inl g
      · exact .inr g
      · exact .inr (drop _ _ g)
      · exact .inr ((drop _ _ g).trans (State.dropItems_twice u w.env.slot))
  exact go w.outs (s.setStream w.env.slot w.st)

end Sys2Proof.Machine
end

