-- ==== Sys2Proof/Laws/KeptBase.lean ====
section
/-! SUPPORT. What almost every command leaves unchanged (the queue, the boot state and the power state), for the shared operations, the registers and the firmware commands. -/

namespace Sys2Proof.Machine

/-! ### Ops -/

/-- What almost every command leaves: the queue of waiting commands, the boot state and the power state. -/
def State.kept (s : State) : List Instr × Boot × Power := (s.pending, s.boot, s.power)

@[simp] theorem kept_mk (pending freeUse aon boot ctl queues plane bulk cast streams eng grid rel power) :
    (State.mk pending freeUse aon boot ctl queues plane bulk cast streams eng grid rel power).kept = (pending, boot, power) := rfl

@[simp] theorem kept_eta (s : State) : (s.pending, s.boot, s.power) = s.kept := rfl

theorem foldl_kept {α : Type} (f : State → α → State) (h : ∀ s a, (f s a).kept = s.kept) (l : List α) (s : State) :
    (l.foldl f s).kept = s.kept := by
  induction l generalizing s with
  | nil => rfl
  | cons a l ih => simp [ih, h]

@[simp] theorem State.setQueue_kept (s : State) (q : QueueId) (v : Queue) :
    (State.setQueue s q v).kept = s.kept := by
  rfl

@[simp] theorem State.signalIrq_kept (s : State) (before : Bool) :
    (State.signalIrq s before).kept = s.kept := by
  unfold State.signalIrq
  split <;> rfl

@[simp] theorem offerPacket_kept (q : QueueId) (tag : Half) (prio : Option Nat) (bodies : List (List Byte)) (s : State) :
    (offerPacket q tag prio bodies s).1.kept = s.kept := by
  unfold offerPacket
  dsimp only
  repeat' split
  all_goals simp

@[simp] theorem oneEffect_kept (e : Effect) (s : State) :
    (oneEffect e s).1.kept = s.kept := by
  unfold oneEffect
  dsimp only
  repeat' split
  all_goals simp

@[simp] theorem runEffects_kept (n : Nat) (es : List Effect) (s : State) : (runEffects n es s).kept = s.kept := by
  induction n generalizing es s with
  | zero => rfl
  | succ n ih => cases es with
    | nil => rfl
    | cons e es => simp [runEffects, ih]

@[simp] theorem State.effects_kept (s : State) (es : List Effect) :
    (State.effects s es).kept = s.kept := by
  simp [State.effects]

@[simp] theorem State.count1_kept (s : State) (group index pos : Nat) :
    (State.count1 s group index pos).kept = s.kept := by
  simp [State.count1]

@[simp] theorem State.countN_kept (s : State) (group index pos n : Nat) :
    (State.countN s group index pos n).kept = s.kept := by
  simp [State.countN]

@[simp] theorem State.raise_kept (s : State) (code : Nat) (detail : List Byte) :
    (State.raise s code detail).kept = s.kept := by
  simp [State.raise]

@[simp] theorem State.writeItem_kept (s : State) (q : QueueId) (tag : Half) (body : List Byte) :
    (State.writeItem s q tag body).kept = s.kept := by
  simp [State.writeItem]

@[simp] theorem State.takeItem_kept (s : State) (q : QueueId) :
    (State.takeItem s q).2.kept = s.kept := by
  unfold State.takeItem
  dsimp only
  split <;> simp

@[simp] theorem State.acknowledge_kept (s : State) (bits : Word) :
    (State.acknowledge s bits).kept = s.kept := by
  simp [State.acknowledge]

@[simp] theorem State.hostOffer_kept (s : State) (q : QueueId) (bytes : List Byte) :
    (State.hostOffer s q bytes).kept = s.kept := by
  unfold State.hostOffer
  dsimp only
  repeat' split
  all_goals simp

@[simp] theorem State.dropPacket_kept (s : State) (q : QueueId) :
    (State.dropPacket s q).kept = s.kept := by
  unfold State.dropPacket
  dsimp only
  split <;> simp

@[simp] theorem State.draw_kept (s : State) :
    (State.draw s).2.kept = s.kept := by
  rfl

/-! ### Flags -/

@[simp] theorem State.setSem_kept (s : State) (n : Fin 32) (v : Semaphore) :
    (State.setSem s n v).kept = s.kept := by
  rfl

@[simp] theorem State.setSlot_kept (s : State) (p : MPort) (n : Fin 32) (m : MSlot) :
    (State.setSlot s p n m).kept = s.kept := by
  rfl

/-! ### Mailbox -/

@[simp] theorem State.respond_kept (s : State) (p : MPort) (n : Fin 32) (status : Nat) (body : List Byte) :
    (State.respond s p n status body).kept = s.kept := by
  unfold State.respond
  dsimp only
  split <;> simp

@[simp] theorem State.answer_kept (s : State) (c : Cmd) (status : Nat) (body : List Byte) :
    (State.answer s c status body).kept = s.kept := by
  simp [State.answer]

@[simp] theorem State.answerFrom_kept (s : State) (src : Option (MPort × Fin 32)) (status : Nat) (body : List Byte) :
    (State.answerFrom s src status body).kept = s.kept := by
  unfold State.answerFrom
  split <;> simp

@[simp] theorem State.markStarted_kept (s : State) (c : Cmd) :
    (State.markStarted s c).kept = s.kept := by
  rfl

@[simp] theorem State.startCmd_kept (s : State) (p : MPort) (n : Fin 32) (code minLen : Nat) (run : Cmd → State → State) (h : ∀ c t, (run c t).kept = t.kept) :
    (State.startCmd s p n code minLen run).kept = s.kept := by
  unfold State.startCmd
  dsimp only
  repeat' split
  all_goals simp_all

@[simp] theorem State.admitLong_kept (s : State) (c : Cmd) (k : State → State) (h : ∀ t, (k t).kept = t.kept) :
    (State.admitLong s c k).kept = s.kept := by
  unfold State.admitLong
  dsimp only
  repeat' split
  all_goals simp_all

@[simp] theorem State.wait_kept (s : State) (c : Cmd) (due : Nat) :
    (State.wait s c due).kept = s.kept := by
  rfl

@[simp] theorem State.waitBoundary_kept (s : State) (c : Cmd) :
    (State.waitBoundary s c).kept = s.kept := by
  rfl

@[simp] theorem State.popWaiting_kept (s : State) :
    (State.popWaiting s).kept = s.kept := by
  rfl

@[simp] theorem State.waitCompletion_kept (s : State) (w : Waiting) :
    (State.waitCompletion s w).kept = s.kept := by
  rfl

@[simp] theorem State.dropCompleting_kept (s : State) (w : Waiting) :
    (State.dropCompleting s w).kept = s.kept := by
  rfl

/-! ### Capability -/

@[simp] theorem State.noteDegraded_kept (s : State) (cause : Nat) (h : Nat) :
    (State.noteDegraded s cause h).kept = s.kept := by
  simp [State.noteDegraded]

@[simp] theorem State.degrade_kept (s : State) (cause : Nat) (h : Nat) :
    (State.degrade s cause h).kept = s.kept := by
  unfold State.degrade
  split <;> simp

@[simp] theorem State.takeRepairSem_kept (s : State) :
    (State.takeRepairSem s).kept = s.kept := by
  unfold State.takeRepairSem
  split <;> rfl

@[simp] theorem State.noteSpare_kept (s : State) (kind : Nat) (loc : List Byte) :
    (State.noteSpare s kind loc).kept = s.kept := by
  simp [State.noteSpare]

@[simp] theorem State.newDistance_kept (s : State) :
    (State.newDistance s).kept = s.kept := by
  rfl

@[simp] theorem State.driveVid_kept (s : State) (h : HalfId) :
    (State.driveVid s h).kept = s.kept := by
  unfold State.driveVid
  split <;> rfl

/-! ### Registers -/

@[simp] theorem State.reply_kept (s : State) (b : Bus) (result : Nat) (data : List Byte) :
    (State.reply s b result data).kept = s.kept := by
  rfl

@[simp] theorem readPlumbLo_kept (p : MPort) (s : State) :
    (readPlumbLo p s).kept = s.kept := by
  rfl

@[simp] theorem readPlumbStatus_kept (p : MPort) (s : State) :
    (readPlumbStatus p s).kept = s.kept := by
  rfl

@[simp] theorem clearStepped_kept (s : State) :
    (clearStepped s).kept = s.kept := by
  rfl

@[simp] theorem writeNodeId_kept (p : MPort) (v : Word) (s : State) :
    (writeNodeId p v s).kept = s.kept := by
  unfold writeNodeId
  split <;> rfl

@[simp] theorem forceSem_kept (n : Fin 32) (p : MPort) (s : State) :
    (forceSem n p s).kept = s.kept := by
  simp [forceSem]

@[simp] theorem readItem_kept (q : QueueId) (s : State) :
    (readItem q s).kept = s.kept := by
  simp [readItem]

@[simp] theorem writeItemPort_kept (q : QueueId) (item : List Byte) (s : State) :
    (writeItemPort q item s).kept = s.kept := by
  unfold writeItemPort
  split <;> simp

@[simp] theorem clearOverrun_kept (q : QueueId) (s : State) :
    (clearOverrun q s).kept = s.kept := by
  rfl

@[simp] theorem ackQueue_kept (q : QueueId) (s : State) :
    (ackQueue q s).kept = s.kept := by
  rfl

@[simp] theorem setLevel_kept (q : QueueId) (level : Nat) (s : State) :
    (setLevel q level s).kept = s.kept := by
  rfl

@[simp] theorem submitSlot_kept (p : MPort) (s : State) (n : Fin 32) :
    (submitSlot p s n).kept = s.kept := by
  unfold submitSlot
  dsimp only
  split <;> simp

@[simp] theorem answerUnknown_kept (s : State) : (answerUnknown s).kept = s.kept := by
  unfold answerUnknown
  split
  · exact foldl_kept _ (fun t e => by split <;> simp) _ _
  · rfl

@[simp] theorem submit_kept (p : MPort) (bits : Word) (s : State) :
    (submit p bits s).kept = s.kept := by
  simp [submit, foldl_kept]

@[simp] theorem writeSlot_kept (p : MPort) (off : Nat) (data : List Byte) (s : State) :
    (writeSlot p off data s).2.kept = s.kept := by
  unfold writeSlot
  dsimp only
  split <;> simp

@[simp] theorem writeQueueReg_kept (off : Nat) (v : Word) (s : State) :
    (writeQueueReg off v s).kept = s.kept := by
  unfold writeQueueReg
  repeat' split
  all_goals simp

@[simp] theorem writeQueueRegs_kept (off : Nat) (bs : List Byte) (s : State) : (writeQueueRegs off bs s).kept = s.kept := by
  fun_induction writeQueueRegs off bs s <;> simp_all

/-! ### Firmware -/

@[simp] theorem runQueueRead_kept (c : Cmd) (s : State) :
    (runQueueRead c s).kept = s.kept := by
  unfold runQueueRead
  split <;> simp

@[simp] theorem runQueueWrite_kept (c : Cmd) (s : State) :
    (runQueueWrite c s).kept = s.kept := by
  unfold runQueueWrite
  repeat' split
  all_goals simp

@[simp] theorem runQueueStatus_kept (c : Cmd) (s : State) :
    (runQueueStatus c s).kept = s.kept := by
  unfold runQueueStatus
  split <;> simp

@[simp] theorem runQueueControl_kept (c : Cmd) (s : State) :
    (runQueueControl c s).kept = s.kept := by
  unfold runQueueControl
  repeat' split
  all_goals simp

@[simp] theorem runNoticeRead_kept (c : Cmd) (s : State) :
    (runNoticeRead c s).kept = s.kept := by
  unfold runNoticeRead
  dsimp only
  split <;> simp

@[simp] theorem runCapabilityRead_kept (c : Cmd) (s : State) :
    (runCapabilityRead c s).kept = s.kept := by
  unfold runCapabilityRead
  dsimp only
  split <;> simp

@[simp] theorem runCastConfig_kept (c : Cmd) (s : State) :
    (runCastConfig c s).kept = s.kept := by
  unfold runCastConfig
  dsimp only
  split <;> simp

@[simp] theorem runSyncConfig_kept (c : Cmd) (s : State) :
    (runSyncConfig c s).kept = s.kept := by
  simp [runSyncConfig]

@[simp] theorem State.setLink_kept (s : State) (k : LinkId) (l : Link) :
    (State.setLink s k l).kept = s.kept := by
  rfl

@[simp] theorem runLinkConfig_kept (c : Cmd) (s : State) :
    (runLinkConfig c s).kept = s.kept := by
  unfold runLinkConfig
  dsimp only
  split <;> simp

end Sys2Proof.Machine
end

