-- ==== Sys2Proof/Laws/KeptFabric.lean ====
section
/-! SUPPORT. The kept parts for the link plane and plumb. -/

namespace Sys2Proof.Machine

/-! ### Fabric -/

@[simp] theorem State.countLink_kept (s : State) (k : CtrKey) (link : Byte) :
    (State.countLink s k link).kept = s.kept := by
  simp [State.countLink]

@[simp] theorem State.linkRecord_kept (s : State) (kind : Nat) (link : Byte) (peer : NodeId) (slot : Nat) (lane : Nat) :
    (State.linkRecord s kind link peer slot lane).kept = s.kept := by
  simp [State.linkRecord]

@[simp] theorem State.violation_kept (s : State) (slot : BitVec 24) (edge : Byte) :
    (State.violation s slot edge).kept = s.kept := by
  simp [State.violation]

@[simp] theorem State.routesAt_kept (s : State) (stamp : Nat) :
    (State.routesAt s stamp).kept = s.kept := by
  unfold State.routesAt
  repeat' split
  all_goals simp

@[simp] theorem State.enqueueLink_kept (s : State) (k : LinkId) (p : Packet) (start : Nat) :
    (State.enqueueLink s k p start).kept = s.kept := by
  unfold State.enqueueLink
  dsimp only
  split <;> simp

@[simp] theorem State.offerLink_kept (s : State) (k : LinkId) (p : Packet) (start : Nat) :
    (State.offerLink s k p start).kept = s.kept := by
  unfold State.offerLink
  split <;> simp

@[simp] theorem State.setBulk_kept (s : State) (b : BulkId) (v : Bulk) :
    (State.setBulk s b v).kept = s.kept := by
  rfl

@[simp] theorem State.offerBulk_kept (s : State) (b : BulkId) (p : Packet) (start : Nat) :
    (State.offerBulk s b p start).kept = s.kept := by
  unfold State.offerBulk
  dsimp only
  repeat' split
  all_goals simp

@[simp] theorem State.forward_kept (s : State) (p : Packet) (stamp start : Nat) :
    (State.forward s p stamp start).kept = s.kept := by
  unfold State.forward
  repeat' split
  all_goals simp

@[simp] theorem State.toFunction_kept (s : State) (a : Arrival) :
    (State.toFunction s a).kept = s.kept := by
  rfl

@[simp] theorem State.deliver_kept (s : State) (a : Arrival) :
    (State.deliver s a).kept = s.kept := by
  unfold State.deliver
  dsimp only
  repeat' split
  all_goals simp

theorem takeInbox_kept {s t : State} {f : Arrival → Bool} {a : Arrival} (h : s.takeInbox f = some (a, t)) : t.kept = s.kept := by
  unfold State.takeInbox at h
  split at h <;> simp_all
  obtain ⟨_, rfl⟩ := h
  rfl

@[simp] theorem State.sendRouted_kept (s : State) (dest : NodeId) (port : Byte) (handle : BitVec 48) (payload : List Byte) :
    (State.sendRouted s dest port handle payload).kept = s.kept := by
  unfold State.sendRouted
  split <;> simp

@[simp] theorem State.sendLocal_kept (s : State) (k : LinkId) (port : Byte) (payload : List Byte) :
    (State.sendLocal s k port payload).kept = s.kept := by
  simp [State.sendLocal]

@[simp] theorem State.windowSend_kept (s : State) (a : Arrival) :
    (State.windowSend s a).kept = s.kept := by
  simp [State.windowSend]

@[simp] theorem State.returnCredit_kept (s : State) (e : Edge) (p : Packet) :
    (State.returnCredit s e p).kept = s.kept := by
  unfold State.returnCredit
  split <;> rfl

@[simp] theorem pumpEdge_kept (as : List Arrival) (bl : List NodeId) (s : State) : (pumpEdge as bl s).kept = s.kept := by
  fun_induction pumpEdge as bl s <;> simp_all

@[simp] theorem State.pump_kept (s : State) :
    (State.pump s).kept = s.kept := by
  simp [State.pump]

@[simp] theorem State.enterWindow_kept (s : State) (a : Arrival) :
    (State.enterWindow s a).kept = s.kept := by
  unfold State.enterWindow
  repeat' split
  all_goals simp

@[simp] theorem receiveAck_kept (a : Arrival) (s : State) :
    (receiveAck a s).kept = s.kept := by
  unfold receiveAck
  split <;> simp

@[simp] theorem retransmit_kept (peer : NodeId) (s : State) :
    (retransmit peer s).kept = s.kept := by
  unfold retransmit
  repeat' split
  all_goals simp

@[simp] theorem deliverAll_kept (as : List Arrival) (s : State) :
    (deliverAll as s).kept = s.kept := by
  simp [deliverAll, foldl_kept]

@[simp] theorem State.setRecord_kept (s : State) (n : NodeId) (r : RecvRecord) :
    (State.setRecord s n r).kept = s.kept := by
  rfl

@[simp] theorem State.oweAck_kept (s : State) (p : Packet) :
    (State.oweAck s p).kept = s.kept := by
  rfl

@[simp] theorem receiveInRange_kept (a : Arrival) (r : RecvRecord) (s : State) :
    (receiveInRange a r s).kept = s.kept := by
  unfold receiveInRange
  dsimp only
  repeat' split
  all_goals simp

@[simp] theorem receiveWindowed_kept (a : Arrival) (s : State) :
    (receiveWindowed a s).kept = s.kept := by
  unfold receiveWindowed
  dsimp only
  repeat' split
  all_goals simp

@[simp] theorem sendAck_kept (peer : NodeId) (s : State) :
    (sendAck peer s).kept = s.kept := by
  unfold sendAck
  dsimp only
  repeat' split
  all_goals simp

@[simp] theorem State.reportMiss_kept (s : State) (g : Nat) (p : Packet) (reason : Nat) (members : BitVec 256) :
    (State.reportMiss s g p reason members).kept = s.kept := by
  unfold State.reportMiss
  repeat' split
  all_goals simp

@[simp] theorem State.branchGap_kept (s : State) (g : Nat) (k : LinkId) :
    (State.branchGap s g k).kept = s.kept := by
  unfold State.branchGap
  split <;> rfl

@[simp] theorem State.branchMiss_kept (s : State) (g : Nat) (k : LinkId) (p : Packet) (members : BitVec 256) :
    (State.branchMiss s g k p members).kept = s.kept := by
  simp [State.branchMiss]

@[simp] theorem State.copyTo_kept (s : State) (g : Nat) (p : Packet) (b : GroupBranch) (start : Nat) :
    (State.copyTo s g p b start).kept = s.kept := by
  unfold State.copyTo
  dsimp only
  repeat' split
  all_goals simp

@[simp] theorem State.localCopy_kept (s : State) (g : Nat) (a : Arrival) :
    (State.localCopy s g a).kept = s.kept := by
  simp [State.localCopy]

@[simp] theorem State.replicate_kept (s : State) (a : Arrival) (start : Nat) :
    (State.replicate s a start).kept = s.kept := by
  unfold State.replicate
  dsimp only
  repeat' split
  all_goals simp_all [foldl_kept]

@[simp] theorem State.oweCompletion_kept (s : State) (a : Arrival) :
    (State.oweCompletion s a).kept = s.kept := by
  unfold State.oweCompletion
  dsimp only
  repeat' split
  all_goals simp

@[simp] theorem State.enterGroup_kept (s : State) (a : Arrival) :
    (State.enterGroup s a).kept = s.kept := by
  unfold State.enterGroup
  dsimp only
  split <;> simp

@[simp] theorem State.sendGroup_kept (s : State) (g : Nat) (cls : BitVec 3) (port : Byte) (handle : BitVec 48) (payload : List Byte) :
    (State.sendGroup s g cls port handle payload).kept = s.kept := by
  simp [State.sendGroup]

@[simp] theorem State.sendBest_kept (s : State) (cls : Nat) (dest : NodeId) (port : Byte) (fence : Bool) (handle : BitVec 48) (payload : List Byte) (lat : Nat) :
    (State.sendBest s cls dest port fence handle payload lat).kept = s.kept := by
  simp [State.sendBest]

@[simp] theorem State.class0Out_kept (s : State) (e : SlotEntry) (a : Arrival) :
    (State.class0Out s e a).kept = s.kept := by
  unfold State.class0Out
  dsimp only
  repeat' split
  all_goals simp

@[simp] theorem State.sendClass0_kept (s : State) (dest : NodeId) (port : Byte) (mc : Bool) (handle : BitVec 48) (payload : List Byte) (lat : Nat) :
    (State.sendClass0 s dest port mc handle payload lat).kept = s.kept := by
  unfold State.sendClass0
  dsimp only
  repeat' split
  all_goals simp

/-! ### Outputs -/

@[simp] theorem serveRetention_kept (k : LinkId) (rs : List Retained) (s : State) : (serveRetention k rs s).kept = s.kept := by
  induction rs generalizing s with
  | nil => rfl
  | cons r rs ih => unfold serveRetention; dsimp only; split <;> simp [ih]

@[simp] theorem selectLink_kept (k : LinkId) (at16 : Nat) (s : State) :
    (selectLink k at16 s).kept = s.kept := by
  unfold selectLink
  dsimp only
  repeat' split
  all_goals simp

@[simp] theorem selectBulk_kept (b : BulkId) (s : State) :
    (selectBulk b s).kept = s.kept := by
  unfold selectBulk
  dsimp only
  repeat' split
  all_goals simp

/-! ### Sync -/

@[simp] theorem State.setSync_kept (s : State) (new : SyncState) :
    (State.setSync s new).kept = s.kept := by
  simp [State.setSync]

@[simp] theorem State.becomeMaster_kept (s : State) :
    (State.becomeMaster s).kept = s.kept := by
  simp [State.becomeMaster]

@[simp] theorem State.endMaster_kept (s : State) :
    (State.endMaster s).kept = s.kept := by
  simp [State.endMaster]

@[simp] theorem State.holdover_kept (s : State) :
    (State.holdover s).kept = s.kept := by
  simp [State.holdover]

@[simp] theorem runPlumbMaster_kept (c : Cmd) (s : State) :
    (runPlumbMaster c s).kept = s.kept := by
  unfold runPlumbMaster
  dsimp only
  repeat' split
  all_goals simp

@[simp] theorem State.loadPlumb_kept (s : State) (ticks : Int) :
    (State.loadPlumb s ticks).kept = s.kept := by
  simp [State.loadPlumb]

@[simp] theorem applyOffset_kept (o16 : Int) (s : State) :
    (applyOffset o16 s).kept = s.kept := by
  unfold applyOffset
  dsimp only
  repeat' split
  all_goals simp

@[simp] theorem State.follow_kept (s : State) (k : LinkId) (depth : Nat) (master : NodeId) :
    (State.follow s k depth master).kept = s.kept := by
  rfl

@[simp] theorem State.otherSync_kept (s : State) (o16 : Int) :
    (State.otherSync s o16).kept = s.kept := by
  unfold State.otherSync
  split <;> simp

@[simp] theorem receiveSync_kept (a : Arrival) (k : LinkId) (s : State) :
    (receiveSync a k s).kept = s.kept := by
  unfold receiveSync
  dsimp only
  repeat' split
  all_goals simp

@[simp] theorem reselectSync_kept (k : LinkId) (s : State) :
    (reselectSync k s).kept = s.kept := by
  unfold reselectSync
  dsimp only
  repeat' split
  all_goals simp

theorem takeLocal_kept {s t : State} {p : Byte} {a : Arrival} {k : LinkId} (h : s.takeLocal p = some (a, k, t)) :
    t.kept = s.kept := by
  unfold State.takeLocal at h
  split at h
  · rename_i b u hu
    split at h <;> simp_all
    obtain ⟨_, _, rfl⟩ := h
    exact takeInbox_kept hu
  · simp at h

@[simp] theorem sendSync_kept (k : LinkId) (s : State) :
    (sendSync k s).kept = s.kept := by
  unfold sendSync
  dsimp only
  split <;> simp

@[simp] theorem measureDelay_kept (k : LinkId) (s : State) :
    (measureDelay k s).kept = s.kept := by
  unfold measureDelay
  dsimp only
  split <;> simp

@[simp] theorem answerDelay_kept (s : State) :
    (answerDelay s).kept = s.kept := by
  unfold answerDelay
  split
  · rfl
  · have h0 := takeLocal_kept ‹_›
    simp_all

@[simp] theorem receiveDelay_kept (s : State) :
    (receiveDelay s).kept = s.kept := by
  unfold receiveDelay
  split
  · rfl
  · have h0 := takeLocal_kept ‹_›
    dsimp only
    repeat' split
    all_goals simp_all

/-! ### Links -/

@[simp] theorem State.setLaneGroup_kept (s : State) (g : Fin 8) (v : LaneGroup) :
    (State.setLaneGroup s g v).kept = s.kept := by
  rfl

@[simp] theorem State.routesChanged_kept (s : State) : s.routesChanged.kept = s.kept := rfl

@[simp] theorem missRetained_kept (k : LinkId) (rs : List Retained) (s : State) :
    (missRetained k rs s).kept = s.kept := by
  simp [missRetained, foldl_kept]

@[simp] theorem State.linkStops_kept (s : State) (k : LinkId) (reselect : Bool) :
    (State.linkStops s k reselect).kept = s.kept := by
  unfold State.linkStops
  dsimp only
  repeat' split
  all_goals simp

@[simp] theorem State.linkDown_kept (s : State) (k : LinkId) :
    (State.linkDown s k).kept = s.kept := by
  simp [State.linkDown]

@[simp] theorem State.startSparing_kept (s : State) (k : LinkId) :
    (State.startSparing s k).kept = s.kept := by
  unfold State.startSparing
  split <;> simp

@[simp] theorem State.moveLane_kept (s : State) (k : LinkId) (accepted : Bool) :
    (State.moveLane s k accepted).kept = s.kept := by
  unfold State.moveLane
  dsimp only
  split <;> simp

@[simp] theorem State.spareDone_kept (s : State) (k : LinkId) :
    (State.spareDone s k).kept = s.kept := by
  unfold State.spareDone
  dsimp only
  split <;> simp

@[simp] theorem receiveLane_kept (a : Arrival) (s : State) :
    (receiveLane a s).kept = s.kept := by
  unfold receiveLane
  dsimp only
  repeat' split
  all_goals simp

@[simp] theorem delineate_kept (k : LinkId) (hdr : BitVec 128) (s : State) :
    (delineate k hdr s).kept = s.kept := by
  unfold delineate
  dsimp only
  repeat' split
  all_goals simp

@[simp] theorem laneRise_kept (g : Fin 8) (l : Fin 9) (s : State) :
    (laneRise g l s).kept = s.kept := by
  unfold laneRise
  dsimp only
  repeat' split
  all_goals simp

@[simp] theorem laneFall_kept (g : Fin 8) (l : Fin 9) (s : State) :
    (laneFall g l s).kept = s.kept := by
  unfold laneFall
  dsimp only
  repeat' split
  all_goals simp

@[simp] theorem laneFaulty_kept (g : Fin 8) (l : Fin 9) (s : State) :
    (laneFaulty g l s).kept = s.kept := by
  unfold laneFaulty
  dsimp only
  repeat' split
  all_goals simp

@[simp] theorem trailerFail_kept (k : LinkId) (s : State) :
    (trailerFail k s).kept = s.kept := by
  unfold trailerFail
  dsimp only
  split <;> simp

@[simp] theorem silence_kept (k : LinkId) (s : State) :
    (silence k s).kept = s.kept := by
  unfold silence
  dsimp only
  repeat' split
  all_goals simp

@[simp] theorem receiveHello_kept (a : Arrival) (k : LinkId) (s : State) :
    (receiveHello a k s).kept = s.kept := by
  unfold receiveHello
  dsimp only
  repeat' split
  all_goals simp

@[simp] theorem sendHello_kept (k : LinkId) (s : State) :
    (sendHello k s).kept = s.kept := by
  unfold sendHello
  dsimp only
  repeat' split
  all_goals simp

@[simp] theorem receiveRoute_kept (a : Arrival) (k : LinkId) (s : State) :
    (receiveRoute a k s).kept = s.kept := by
  unfold receiveRoute
  dsimp only
  split <;> simp

@[simp] theorem sendRoute_kept (k : LinkId) (s : State) :
    (sendRoute k s).kept = s.kept := by
  unfold sendRoute
  dsimp only
  split <;> simp

@[simp] theorem receiveMiss_kept (a : Arrival) (s : State) :
    (receiveMiss a s).kept = s.kept := by
  unfold receiveMiss
  dsimp only
  split <;> simp

@[simp] theorem writeCompletion_kept (s : State) :
    (writeCompletion s).kept = s.kept := by
  unfold writeCompletion
  split <;> simp

@[simp] theorem expireRetention_kept (k : LinkId) (s : State) :
    (expireRetention k s).kept = s.kept := by
  unfold expireRetention
  dsimp only
  split <;> simp

@[simp] theorem runNodeFence_kept (c : Cmd) (s : State) :
    (runNodeFence c s).kept = s.kept := by
  unfold runNodeFence
  split <;> simp

@[simp] theorem fenceLink_kept (k : LinkId) (s : State) :
    (fenceLink k s).kept = s.kept := by
  simp [fenceLink, foldl_kept]

@[simp] theorem unfenceLinks_kept (node : NodeId) (s : State) :
    (unfenceLinks node s).kept = s.kept := by
  simp [unfenceLinks, foldl_kept]

@[simp] theorem commitFence_kept (s : State) :
    (commitFence s).kept = s.kept := by
  unfold commitFence
  dsimp only
  repeat' split
  all_goals simp_all [foldl_kept]

@[simp] theorem runGroupAlloc_kept (c : Cmd) (s : State) :
    (runGroupAlloc c s).kept = s.kept := by
  unfold runGroupAlloc
  split <;> simp

@[simp] theorem commitGroupAlloc_kept (s : State) :
    (commitGroupAlloc s).kept = s.kept := by
  unfold commitGroupAlloc
  repeat' split
  all_goals simp

@[simp] theorem runGroupFree_kept (c : Cmd) (s : State) :
    (runGroupFree c s).kept = s.kept := by
  unfold runGroupFree
  split <;> simp

@[simp] theorem commitGroupFree_kept (s : State) :
    (commitGroupFree s).kept = s.kept := by
  unfold commitGroupFree
  split <;> simp

@[simp] theorem runResetPlane_kept (c : Cmd) (s : State) :
    (runResetPlane c s).kept = s.kept := by
  unfold runResetPlane
  split <;> simp

@[simp] theorem planeReset_kept (s : State) :
    (planeReset s).kept = s.kept := by
  unfold planeReset
  dsimp only
  repeat' split
  all_goals simp_all [foldl_kept]

@[simp] theorem retrain_kept (s : State) :
    (retrain s).kept = s.kept := by
  unfold retrain
  repeat' split
  all_goals simp

@[simp] theorem State.noteReset_kept (s : State) (cls accept boundary : Nat) (port : Option (MPort × Fin 32)) (closed : Nat) :
    (State.noteReset s cls accept boundary port closed).kept = s.kept := by
  simp [State.noteReset]

@[simp] theorem planeResetDone_kept (s : State) :
    (planeResetDone s).kept = s.kept := by
  unfold planeResetDone
  split <;> simp

@[simp] theorem State.installTables_kept (s : State) (t : PolicyTables) :
    (State.installTables s t).kept = s.kept := by
  rfl

@[simp] theorem planeRestore_kept (s : State) :
    (planeRestore s).kept = s.kept := by
  unfold planeRestore
  repeat' split
  all_goals simp

end Sys2Proof.Machine
end

