-- ==== Sys2Proof/Laws/KeptStreams.lean ====
section
/-! SUPPORT. The kept parts for streams and the engines that serve them. -/

namespace Sys2Proof.Machine

/-! ### Context -/

@[simp] theorem State.setStream_kept (s : State) (k : SlotId) (st : Stream) :
    (State.setStream s k st).kept = s.kept := by
  rfl

@[simp] theorem State.sendEvent_kept (s : State) (node : NodeId) (port : Byte) (h : BitVec 48) (body : List Byte) :
    (State.sendEvent s node port h body).kept = s.kept := by
  unfold State.sendEvent
  dsimp only
  split <;> simp

@[simp] theorem State.commitToken_kept (s : State) (tenant bytes : Nat) :
    (State.commitToken s tenant bytes).kept = s.kept := by
  unfold State.commitToken
  dsimp only
  split <;> simp

@[simp] theorem State.dropItems_kept (s : State) (k : SlotId) :
    (State.dropItems s k).kept = s.kept := by
  rfl

@[simp] theorem State.sendOut_kept (s : State) (k : SlotId) (p : Option Policy) (st : Stream) (o : Out) :
    (State.sendOut s k p st o).kept = s.kept := by
  unfold State.sendOut
  repeat' split
  all_goals simp

@[simp] theorem Work.run_kept (w : Work) (s : State) :
    (Work.run w s).kept = s.kept := by
  simp [Work.run, foldl_kept]

/-! ### Boundary -/

@[simp] theorem State.atContext_kept (s : State) (k : SlotId) (st : Stream) :
    (State.atContext s k st).1.kept = s.kept := by
  unfold State.atContext
  repeat' split
  all_goals simp

/-! ### Opens -/

@[simp] theorem State.claimIngress_kept (s : State) (p : Policy) (st : Stream) :
    (State.claimIngress s p st).2.kept = s.kept := by
  unfold State.claimIngress
  dsimp only
  repeat' split
  all_goals simp

@[simp] theorem State.addOpen_kept (s : State) (o : PendingOpen) :
    (State.addOpen s o).kept = s.kept := by
  rfl

@[simp] theorem State.requestOpen_kept (s : State) (b : List Byte) (stamp order : Nat) (mb : Option (MPort × Fin 32)) :
    (State.requestOpen s b stamp order mb).kept = s.kept := by
  unfold State.requestOpen
  dsimp only
  repeat' split
  all_goals simp

@[simp] theorem startOpen_kept (p : MPort) (n : Fin 32) (s : State) :
    (startOpen p n s).kept = s.kept := by
  unfold startOpen
  repeat' split
  all_goals simp

@[simp] theorem takeOpenPacket_kept (s : State) : (takeOpenPacket s).kept = s.kept := by
  unfold takeOpenPacket
  split
  · split <;> simp
  · split
    · exact takeInbox_kept ‹_›
    · rfl

@[simp] theorem State.commitOpen_kept (s : State) (o : PendingOpen) (k : SlotId) (st : Stream) :
    (State.commitOpen s o k st).kept = s.kept := by
  simp [State.commitOpen]

@[simp] theorem openCommit_kept (s : State) :
    (openCommit s).kept = s.kept := by
  unfold openCommit
  dsimp only
  repeat' split
  all_goals simp

@[simp] theorem slotFree_kept (s : State) :
    (slotFree s).kept = s.kept := by
  unfold slotFree
  split <;> rfl

/-! ### StreamCommands -/

@[simp] theorem State.finishWaiting_kept (s : State) (w : Waiting) (status : Nat) (body : List Byte) :
    (State.finishWaiting s w status body).kept = s.kept := by
  simp [State.finishWaiting]

@[simp] theorem State.atBoundary_kept (s : State) (code : Nat) (run : Waiting → SlotId → Stream → State → State) (h : ∀ w k st t, (run w k st t).kept = t.kept) :
    (State.atBoundary s code run).kept = s.kept := by
  unfold State.atBoundary
  dsimp only
  repeat' split
  all_goals simp_all

@[simp] theorem State.startStream_kept (s : State) (p : MPort) (n : Fin 32) (code len : Nat) (ok : Cmd → Bool) :
    (State.startStream s p n code len ok).kept = s.kept := by
  unfold State.startStream
  refine State.startCmd_kept _ _ _ _ _ _ (fun c t => ?_)
  repeat' split
  all_goals simp

@[simp] theorem runStreamSet_kept (w : Waiting) (k : SlotId) (st : Stream) (s : State) :
    (runStreamSet w k st s).kept = s.kept := by
  unfold runStreamSet
  split <;> simp

@[simp] theorem runStreamClose_kept (w : Waiting) (k : SlotId) (st : Stream) (s : State) :
    (runStreamClose w k st s).kept = s.kept := by
  unfold runStreamClose
  split <;> simp

@[simp] theorem runStreamAbort_kept (w : Waiting) (k : SlotId) (st : Stream) (s : State) :
    (runStreamAbort w k st s).kept = s.kept := by
  unfold runStreamAbort
  split <;> simp

@[simp] theorem runFeatures_kept (w : Waiting) (k : SlotId) (st : Stream) (s : State) :
    (runFeatures w k st s).kept = s.kept := by
  unfold runFeatures
  dsimp only
  repeat' split
  all_goals simp

@[simp] theorem hostFeatureBoundary_kept (s : State) :
    (hostFeatureBoundary s).kept = s.kept := by
  unfold hostFeatureBoundary
  repeat' split
  all_goals simp

@[simp] theorem takeFeaturePacket_kept (s : State) :
    (takeFeaturePacket s).kept = s.kept := by
  unfold takeFeaturePacket
  split
  · rfl
  · have h0 := takeInbox_kept ‹_›
    dsimp only
    repeat' split
    all_goals simp_all

@[simp] theorem tenantBudgetBoundary_kept (s : State) :
    (tenantBudgetBoundary s).kept = s.kept := by
  unfold tenantBudgetBoundary
  dsimp only
  repeat' split
  all_goals simp

/-! ### Contributions -/

@[simp] theorem State.streamWord_kept (s : State) (k : SlotId) (i n : Nat) :
    (State.streamWord s k i n).kept = s.kept := by
  unfold State.streamWord
  split <;> simp

@[simp] theorem State.takeProbe_kept (s : State) (arrival : Nat) (source : NodeId) (b : List Byte) :
    (State.takeProbe s arrival source b).kept = s.kept := by
  unfold State.takeProbe
  dsimp only
  repeat' split
  all_goals simp

@[simp] theorem takeProbePacket_kept (a : Arrival) (s : State) :
    (takeProbePacket a s).kept = s.kept := by
  simp [takeProbePacket, foldl_kept]

@[simp] theorem State.giveIngress_kept (s : State) (k : SlotId) (arrival : Nat) (r : IngressRecord) :
    (State.giveIngress s k arrival r).kept = s.kept := by
  unfold State.giveIngress
  dsimp only
  repeat' split
  all_goals simp

@[simp] theorem State.takeIngress_kept (s : State) (arrival : Nat) (b : List Byte) :
    (State.takeIngress s arrival b).kept = s.kept := by
  unfold State.takeIngress
  dsimp only
  repeat' split
  all_goals simp_all [foldl_kept]

@[simp] theorem contributionArrive_kept (s : State) : (contributionArrive s).kept = s.kept := by
  unfold contributionArrive
  split
  · rfl
  · have h0 := takeInbox_kept ‹_›
    split <;> simp [h0]

@[simp] theorem ingressContributionCutoff_kept (s : State) :
    (ingressContributionCutoff s).kept = s.kept := by
  unfold ingressContributionCutoff
  split <;> simp

@[simp] theorem ingressUnclaimed_kept (s : State) :
    (ingressUnclaimed s).kept = s.kept := by
  unfold ingressUnclaimed
  dsimp only
  split <;> simp

/-! ### Awl -/

@[simp] theorem State.setAwlLane_kept (s : State) (h : HalfId) (l : Fin 256) (v : AwlLane) :
    (State.setAwlLane s h l v).kept = s.kept := by
  rfl

@[simp] theorem State.pushItem_kept (s : State) (h : HalfId) (lane : Nat) (i : AwlItem) :
    (State.pushItem s h lane i).kept = s.kept := by
  rfl

@[simp] theorem State.pushItems_kept (s : State) (p : Policy) (slot : SlotId) (items : List (Nat × AwlItem)) :
    (State.pushItems s p slot items).kept = s.kept := by
  simp [State.pushItems, foldl_kept]

@[simp] theorem State.raisePeak_kept (s : State) (k : CtrKey) (n : Nat) :
    (State.raisePeak s k n).kept = s.kept := by
  rfl

@[simp] theorem awlAdmit_kept (h : HalfId) (l : Fin 256) (s : State) :
    (awlAdmit h l s).kept = s.kept := by
  unfold awlAdmit
  dsimp only
  repeat' split
  all_goals simp

@[simp] theorem awlDone_kept (h : HalfId) (l : Fin 256) (s : State) :
    (awlDone h l s).kept = s.kept := by
  unfold awlDone
  dsimp only
  repeat' split
  all_goals simp

@[simp] theorem detokReady_kept (k : SlotId) (s : State) :
    (detokReady k s).kept = s.kept := by
  unfold detokReady
  dsimp only
  repeat' split
  all_goals simp

@[simp] theorem awlReread_kept (h : HalfId) (l : Fin 256) (good : Bool) (s : State) :
    (awlReread h l good s).kept = s.kept := by
  unfold awlReread
  repeat' split
  all_goals simp

/-! ### Sampler -/

@[simp] theorem State.logitStamp_kept (s : State) (k : SlotId) (st : Stream) (p : Policy) (t : SamplerTables) (set : LogitSet) (stamp : Nat) :
    (State.logitStamp s k st p t set stamp).kept = s.kept := by
  unfold State.logitStamp
  dsimp only
  split <;> simp

@[simp] theorem State.joinSet_kept (s : State) (k : SlotId) (st : Stream) (p : Policy) (t : SamplerTables) (h : LogitHeader) (a : Arrival) :
    (State.joinSet s k st p t h a).kept = s.kept := by
  unfold State.joinSet
  dsimp only
  repeat' split
  all_goals simp

@[simp] theorem State.expireSet_kept (s : State) (k : SlotId) (st : Stream) (window stamp : Nat) :
    (State.expireSet s k st window stamp).2.kept = s.kept := by
  unfold State.expireSet
  repeat' split
  all_goals simp

@[simp] theorem State.logitFor_kept (s0 : State) (k : SlotId) (st0 : Stream) (a : Arrival) :
    (State.logitFor s0 k st0 a).kept = s0.kept := by
  unfold State.logitFor
  dsimp only
  repeat' split
  all_goals simp

@[simp] theorem logitPacket_kept (s : State) :
    (logitPacket s).kept = s.kept := by
  unfold logitPacket
  split
  · rfl
  · have h0 := takeInbox_kept ‹_›
    dsimp only
    repeat' split
    all_goals simp_all

@[simp] theorem logitExpiry_kept (k : SlotId) (s : State) :
    (logitExpiry k s).kept = s.kept := by
  unfold logitExpiry
  repeat' split
  all_goals simp

@[simp] theorem stepDone_kept (k : SlotId) (s : State) :
    (stepDone k s).kept = s.kept := by
  unfold stepDone
  repeat' split
  all_goals simp

@[simp] theorem State.sendTokens_kept (s : State) (st : Stream) (x : Step) (payload : List Byte) :
    (State.sendTokens s st x payload).kept = s.kept := by
  unfold State.sendTokens
  dsimp only
  split <;> simp

@[simp] theorem State.purgeDrafts_kept (s : State) (k : SlotId) (st : Stream) (n a : Nat) :
    (State.purgeDrafts s k st n a).kept = s.kept := by
  unfold State.purgeDrafts
  dsimp only
  split <;> simp

@[simp] theorem State.releaseNone_kept (s : State) (k : SlotId) (st : Stream) (x : Step) (r : NoToken) (vl : Nat) :
    (State.releaseNone s k st x r vl).kept = s.kept := by
  simp [State.releaseNone]

@[simp] theorem State.releaseTokens_kept (s : State) (k : SlotId) (st : Stream) (x : Step) (p : Policy) :
    (State.releaseTokens s k st x p).kept = s.kept := by
  unfold State.releaseTokens
  dsimp only
  split <;> simp

@[simp] theorem State.releaseStep_kept (s : State) (k : SlotId) (st : Stream) (x : Step) :
    (State.releaseStep s k st x).kept = s.kept := by
  unfold State.releaseStep
  dsimp only
  repeat' split
  all_goals simp

theorem dueOrphan_kept {s t : State} {f : Orphan → Bool} {o : Orphan} (h : s.dueOrphan f = some (o, t)) : t.kept = s.kept := by
  unfold State.dueOrphan at h
  split at h <;> simp_all
  obtain ⟨_, rfl⟩ := h
  rfl

@[simp] theorem sampleRelease_kept (k : SlotId) (s : State) : (sampleRelease k s).kept = s.kept := by
  unfold sampleRelease
  split
  · have h0 := dueOrphan_kept ‹_›
    simp [h0]
  · repeat' split
    all_goals simp

/-! ### Armature -/

@[simp] theorem State.skipSample_kept (s : State) (a : Admission) :
    (State.skipSample s a).kept = s.kept := by
  unfold State.skipSample
  split <;> rfl

@[simp] theorem armAdmit_kept (s : State) :
    (armAdmit s).kept = s.kept := by
  unfold armAdmit
  repeat' split
  all_goals simp

@[simp] theorem armResult_kept (k : SlotId) (s : State) :
    (armResult k s).kept = s.kept := by
  unfold armResult
  repeat' split
  all_goals simp

@[simp] theorem armReread_kept (k : SlotId) (e : Fin 16) (good : Bool) (s : State) :
    (armReread k e good s).kept = s.kept := by
  unfold armReread
  dsimp only
  repeat' split
  all_goals simp

/-! ### Verdicts -/

@[simp] theorem State.setLane_kept (s : State) (h : HalfId) (l : Fin 16) (v : Lane) :
    (State.setLane s h l v).kept = s.kept := by
  rfl

@[simp] theorem State.queueJob_kept (s : State) (p : Policy) (j : VerdictJob) :
    (State.queueJob s p j).kept = s.kept := by
  rfl

@[simp] theorem State.cutoff_kept (s : State) (j : VerdictJob) (st : Stream) :
    (State.cutoff s j st).kept = s.kept := by
  unfold State.cutoff
  dsimp only
  repeat' split
  all_goals simp

@[simp] theorem verdictCutoff_kept (s : State) :
    (verdictCutoff s).kept = s.kept := by
  unfold verdictCutoff
  repeat' split
  all_goals simp

@[simp] theorem laneStart_kept (h : HalfId) (l : Fin 16) (s : State) :
    (laneStart h l s).kept = s.kept := by
  unfold laneStart
  dsimp only
  repeat' split
  all_goals simp

@[simp] theorem State.releaseToken_kept (s : State) (k : SlotId) (st : Stream) (t : Token) :
    (State.releaseToken s k st t).kept = s.kept := by
  simp [State.releaseToken]

@[simp] theorem State.foresee_kept (s : State) (k : SlotId) (ts : List Token) :
    (State.foresee s k ts).kept = s.kept := by
  unfold State.foresee
  refine foldl_kept _ (fun u x => ?_) _ _
  repeat' split
  all_goals first | rfl | exact State.releaseToken_kept _ _ _ _

@[simp] theorem State.runHalt_kept (s : State) (k : SlotId) (st : Stream) (x : StepHalt) :
    (State.runHalt s k st x).kept = s.kept := by
  unfold State.runHalt
  split <;> simp

@[simp] theorem verdictRelease_kept (k : SlotId) (s : State) :
    (verdictRelease k s).kept = s.kept := by
  unfold verdictRelease
  dsimp only
  repeat' split
  all_goals simp

@[simp] theorem haltMessage_kept (s : State) :
    (haltMessage s).kept = s.kept := by
  unfold haltMessage
  split
  · rfl
  · have h0 := takeInbox_kept ‹_›
    dsimp only
    repeat' split
    all_goals simp_all

/-! ### Bridle -/

@[simp] theorem State.onLane_kept (s : State) (h : HalfId) (l : Fin 16) (word : DWord) (f : LaneRun → LaneRun) :
    (State.onLane s h l word f).kept = s.kept := by
  unfold State.onLane
  dsimp only
  repeat' split
  all_goals simp

@[simp] theorem State.actOn_kept (s : State) (h : HalfId) (l : Fin 16) (word : DWord) (f : LaneRun → Actions) :
    (State.actOn s h l word f).kept = s.kept := by
  unfold State.actOn
  dsimp only
  repeat' split
  all_goals simp

@[simp] theorem State.endVerdict_kept (s : State) (r : LaneRun) :
    (State.endVerdict s r).kept = s.kept := by
  unfold State.endVerdict
  dsimp only
  repeat' split
  all_goals simp

@[simp] theorem State.laneEnd_kept (s : State) (h : HalfId) (l : Fin 16) :
    (State.laneEnd s h l).kept = s.kept := by
  unfold State.laneEnd
  dsimp only
  repeat' split
  all_goals simp

/-! ### Ingress -/

@[simp] theorem State.screenHits_kept (s : State) (rule n : Nat) :
    (State.screenHits s rule n).kept = s.kept := by
  unfold State.screenHits
  split <;> simp

@[simp] theorem State.baselineScreen_kept (s : State) (p : Packet) :
    (State.baselineScreen s p).2.kept = s.kept := by
  unfold State.baselineScreen
  dsimp only
  repeat' split
  all_goals simp

@[simp] theorem State.dropText_kept (s : State) (a : Arrival) (f : TextFate) :
    (State.dropText s a f).kept = s.kept := by
  unfold State.dropText
  split <;> simp

@[simp] theorem State.freeText_kept (s : State) (a : Arrival) :
    (State.freeText s a).kept = s.kept := by
  unfold State.freeText
  split <;> simp

@[simp] theorem textPacket_kept (s : State) : (textPacket s).kept = s.kept := by
  unfold textPacket
  split
  · rfl
  · rename_i a s1 h
    have h0 := takeInbox_kept h
    have h1 := State.baselineScreen_kept (s1.freeText a) a.pkt
    dsimp only
    split
    · simp [h0]
    · split
      · split <;> simp_all
      · split
        · simp [h0]
        · split <;> split <;> simp [h0]

@[simp] theorem State.acceptText_kept (s : State) (a : Arrival) (k : SlotId) (st : Stream) (p : Policy) (t : SkiverTables) (channel : Nat) (demoted : Bool) :
    (State.acceptText s a k st p t channel demoted).kept = s.kept := by
  simp [State.acceptText]

@[simp] theorem textAccept_kept (s : State) :
    (textAccept s).kept = s.kept := by
  unfold textAccept
  dsimp only
  repeat' split
  all_goals simp

@[simp] theorem encodeDone_kept (u : Fin 8) (s : State) :
    (encodeDone u s).kept = s.kept := by
  unfold encodeDone
  dsimp only
  repeat' split
  all_goals simp

@[simp] theorem State.sendLists_kept (s : State) (route : NodeId × Byte) (h : BitVec 48) (lists : List (List Byte)) (lat : Nat) :
    (State.sendLists s route h lists lat).kept = s.kept := by
  simp [State.sendLists, foldl_kept]

@[simp] theorem State.chunkBoundary_kept (s : State) (k : SlotId) (st : Stream) (p : Policy) (c : Chunk) (late forged : Bool) :
    (State.chunkBoundary s k st p c late forged).kept = s.kept := by
  simp [State.chunkBoundary]

@[simp] theorem State.releaseChunk_kept (s : State) (k : SlotId) (st : Stream) (c : Chunk) :
    (State.releaseChunk s k st c).kept = s.kept := by
  unfold State.releaseChunk
  repeat' split
  all_goals simp

@[simp] theorem chunkRelease_kept (s : State) : (chunkRelease s).kept = s.kept := by
  unfold chunkRelease
  split
  · have h0 := dueOrphan_kept ‹_›
    simp [h0]
  · dsimp only
    repeat' split
    all_goals simp

@[simp] theorem State.releaseSegment_kept (s : State) (k : SlotId) (st : Stream) (v : SegVerdict) (p : Policy) :
    (State.releaseSegment s k st v p).kept = s.kept := by
  unfold State.releaseSegment
  dsimp only
  split <;> simp

@[simp] theorem segmentRelease_kept (s : State) :
    (segmentRelease s).kept = s.kept := by
  unfold segmentRelease
  dsimp only
  repeat' split
  all_goals simp

end Sys2Proof.Machine
end

