-- ==== Sys2Proof/Laws/KeptCells.lean ====
section
/-! SUPPORT. The kept parts for the cell grid, the callipers and the edges. -/

namespace Sys2Proof.Machine

/-! ### Cells -/

@[simp] theorem State.setCell_kept (s : State) (c : CellId) (v : Cell) :
    (State.setCell s c v).kept = s.kept := by
  rfl

@[simp] theorem State.report_kept (s : State) (c : CellId) :
    (State.report s c).kept = s.kept := by
  unfold State.report
  split <;> rfl

@[simp] theorem State.programFault_kept (s : State) (c : CellId) (x : Cell) (cause : Nat) :
    (State.programFault s c x cause).kept = s.kept := by
  simp [State.programFault]

@[simp] theorem State.retire_kept (s : State) (c : CellId) (x0 : Cell) (r : Running) (o : CellOut) :
    (State.retire s c x0 r o).kept = s.kept := by
  unfold State.retire
  split <;> simp

@[simp] theorem State.onCell_kept (s : State) (c : CellId) (mask enc : Word) (f : Running → Cell → State → State × CellOut) (h : ∀ r x t, (f r x t).1.kept = t.kept) :
    (State.onCell s c mask enc f).kept = s.kept := by
  unfold State.onCell
  dsimp only
  repeat' split
  all_goals simp_all

@[simp] theorem State.cellOp_kept (s : State) (c : CellId) (mask enc : Word) (f : Running → Cell → CellOut) :
    (State.cellOp s c mask enc f).kept = s.kept := by
  simp [State.cellOp]

/-! ### CellScalar -/

@[simp] theorem State.regOp_kept (s : State) (c : CellId) (op : Nat) (d a b : CellReg) (f : DWord → DWord → DWord) :
    (State.regOp s c op d a b f).kept = s.kept := by
  simp [State.regOp]

@[simp] theorem State.immOp_kept (s : State) (c : CellId) (op : Nat) (d a : CellReg) (imm : BitVec 14) (f : DWord → DWord) :
    (State.immOp s c op d a imm f).kept = s.kept := by
  simp [State.immOp]

@[simp] theorem State.loadOp_kept (s : State) (c : CellId) (op n : Nat) (d a : CellReg) (imm : BitVec 14) :
    (State.loadOp s c op n d a imm).kept = s.kept := by
  simp [State.loadOp]

@[simp] theorem State.storeOp_kept (s : State) (c : CellId) (op n : Nat) (d a : CellReg) (imm : BitVec 14) :
    (State.storeOp s c op n d a imm).kept = s.kept := by
  simp [State.storeOp]

@[simp] theorem State.branchOp_kept (s : State) (c : CellId) (op : Nat) (a b : CellReg) (off : BitVec 14) (f : DWord → DWord → Bool) :
    (State.branchOp s c op a b off f).kept = s.kept := by
  simp [State.branchOp]

/-! ### CellVector -/

@[simp] theorem State.laneOp_kept (s : State) (c : CellId) (op : Nat) (int : Bool) (d a b : CellReg) (f : Word → Word → Word) :
    (State.laneOp s c op int d a b f).kept = s.kept := by
  simp [State.laneOp]

/-! ### CellMessages -/

@[simp] theorem handlerStart_kept (c : CellId) (s : State) :
    (handlerStart c s).kept = s.kept := by
  unfold handlerStart
  dsimp only
  repeat' split
  all_goals simp

@[simp] theorem State.putMesh_kept (s : State) (src : Option CellId) (m : Msg) :
    (State.putMesh s src m).kept = s.kept := by
  rfl

@[simp] theorem State.sendStall_kept (s : State) (c : CellId) :
    (State.sendStall s c).kept = s.kept := by
  simp [State.sendStall]

@[simp] theorem State.sendOn_kept (s : State) (c : CellId) (x : Cell) (h : DWord) (words : List DWord) :
    (State.sendOn s c x h words).1.kept = s.kept := by
  unfold State.sendOn
  split <;> rfl

@[simp] theorem sendHeader_kept (c : CellId) (v : DWord) (x : Cell) (s : State) :
    (sendHeader c v x s).1.kept = s.kept := by
  unfold sendHeader
  repeat' split
  all_goals simp

@[simp] theorem sendPayload_kept (c : CellId) (v : DWord) (x : Cell) (s : State) :
    (sendPayload c v x s).1.kept = s.kept := by
  unfold sendPayload
  repeat' split
  all_goals simp

@[simp] theorem State.stopMesh_kept (s : State) (m : Msg) :
    (State.stopMesh s m).kept = s.kept := by
  rfl

theorem takeMesh_kept {s t : State} {f : Msg → Bool} {m : Msg} (h : s.takeMesh f = some (m, t)) : t.kept = s.kept := by
  unfold State.takeMesh at h
  split at h <;> simp_all
  obtain ⟨_, rfl⟩ := h
  rfl

@[simp] theorem messageArrive_kept (c : CellId) (s : State) : (messageArrive c s).kept = s.kept := by
  unfold messageArrive
  dsimp only
  split
  · rfl
  · have h0 := takeMesh_kept ‹_›
    repeat' split
    all_goals simp [h0]

@[simp] theorem State.grantOne_kept (s : State) (b : Byte) (upTo : Nat) :
    (State.grantOne s b upTo).kept = s.kept := by
  unfold State.grantOne
  dsimp only
  repeat' split
  all_goals simp

@[simp] theorem State.arbitrate_kept (s : State) (b : Byte) (upTo : Nat) :
    (State.arbitrate s b upTo).kept = s.kept := by
  simp [State.arbitrate, foldl_kept]

@[simp] theorem State.arbitrateAll_kept (s : State) (upTo : Nat) :
    (State.arbitrateAll s upTo).kept = s.kept := by
  simp [State.arbitrateAll, foldl_kept]

@[simp] theorem State.startTransfer_kept (s : State) (t : Transfer) :
    (State.startTransfer s t).kept = s.kept := by
  rfl

@[simp] theorem bulkPut_kept (c : CellId) (a b : DWord) (tag : BitVec 6) (n : Nat) (r : Running) (x : Cell) (s : State) :
    (bulkPut c a b tag n r x s).1.kept = s.kept := by
  unfold bulkPut
  dsimp only
  split <;> simp

@[simp] theorem bulkShared_kept (c : CellId) (write : Bool) (a b : DWord) (tag : BitVec 6) (n : Nat) (r : Running) (x : Cell) (s : State) :
    (bulkShared c write a b tag n r x s).1.kept = s.kept := by
  unfold bulkShared
  dsimp only
  repeat' split
  all_goals simp

@[simp] theorem State.writeShared_kept (s : State) (off : Nat) (bs : List Byte) :
    (State.writeShared s off bs).kept = s.kept := by
  rfl

@[simp] theorem State.land_kept (s : State) (t : Transfer) :
    (State.land s t).1.kept = s.kept := by
  unfold State.land
  repeat' split
  all_goals simp

@[simp] theorem bulkComplete_kept (c : CellId) (s0 : State) :
    (bulkComplete c s0).kept = s0.kept := by
  unfold bulkComplete
  dsimp only
  repeat' split
  all_goals simp

@[simp] theorem barrierComplete_kept (ch : BitVec 6) (s : State) :
    (barrierComplete ch s).kept = s.kept := by
  unfold barrierComplete
  dsimp only
  repeat' split
  all_goals simp

@[simp] theorem flagChange_kept (s : State) :
    (flagChange s).kept = s.kept := by
  unfold flagChange
  dsimp only
  repeat' split
  all_goals simp

@[simp] theorem State.askFlag_kept (s : State) (f : Byte) (v : Bool) :
    (State.askFlag s f v).kept = s.kept := by
  rfl

/-! ### Judge -/

@[simp] theorem State.dispatchItem_kept (s : State) (k : SlotId) (st : Stream) (p : Policy) (j : JudgeTables) (index epoch count bytes : Nat) (upper : Nat) :
    (State.dispatchItem s k st p j index epoch count bytes upper).kept = s.kept := by
  unfold State.dispatchItem
  split <;> simp

@[simp] theorem State.stageList_kept (s : State) (p : Policy) (j : JudgeTables) (st : Stream) (c : Chunk) :
    (State.stageList s p j st c).1.kept = s.kept := by
  rfl

@[simp] theorem judgeDispatch_kept (s : State) :
    (judgeDispatch s).kept = s.kept := by
  unfold judgeDispatch
  repeat' split
  all_goals simp

@[simp] theorem State.dropJudge_kept (s : State) (k : SlotId) (late : Bool) :
    (State.dropJudge s k late).kept = s.kept := by
  unfold State.dropJudge
  split <;> simp

@[simp] theorem State.takeJudge_kept (s : State) (k : SlotId) (st : Stream) (index : Nat) (m : Msg) :
    (State.takeJudge s k st index m).kept = s.kept := by
  unfold State.takeJudge
  dsimp only
  repeat' split
  all_goals simp

@[simp] theorem judgeResult_kept (h : HalfId) (s : State) :
    (judgeResult h s).kept = s.kept := by
  unfold judgeResult
  split
  · rfl
  · have h0 := takeMesh_kept ‹_›
    dsimp only
    repeat' split
    all_goals simp_all

/-! ### Callipers -/

@[simp] theorem State.setCal_kept (s : State) (c : Callipers) :
    (State.setCal s c).kept = s.kept := by
  rfl

@[simp] theorem State.discardSlice_kept (s : State) (tap pass tick : Nat) :
    (State.discardSlice s tap pass tick).kept = s.kept := by
  simp [State.discardSlice]

@[simp] theorem State.expireSlices_kept (s : State) (tap t : Nat) :
    (State.expireSlices s tap t).kept = s.kept := by
  simp [State.expireSlices, foldl_kept]

@[simp] theorem State.completeSlice_kept (s : State) (p : Policy) (ct : CallipersTables) (t : TapDecl) (tap stamp : Nat) (x : Slice) :
    (State.completeSlice s p ct t tap stamp x).kept = s.kept := by
  unfold State.completeSlice
  split <;> simp

@[simp] theorem State.tapRow_kept (s0 : State) (p : Policy) (ct : CallipersTables) (t : TapDecl) (tap stamp : Nat) (b : List Byte) :
    (State.tapRow s0 p ct t tap stamp b).kept = s0.kept := by
  unfold State.tapRow
  dsimp only
  repeat' split
  all_goals simp

@[simp] theorem State.tapPacket_kept (s : State) (a : Arrival) :
    (State.tapPacket s a).kept = s.kept := by
  unfold State.tapPacket
  dsimp only
  repeat' split
  all_goals simp_all [foldl_kept]

@[simp] theorem sliceTimeout_kept (s : State) :
    (sliceTimeout s).kept = s.kept := by
  unfold sliceTimeout
  split <;> simp

@[simp] theorem State.mapItems_kept (s : State) (f : ProbeItem → ProbeItem) :
    (State.mapItems s f).kept = s.kept := by
  rfl

@[simp] theorem State.itemDone_kept (s : State) (i : ProbeItem) (scores : Option (List Word)) (late poison : Bool) :
    (State.itemDone s i scores late poison).kept = s.kept := by
  unfold State.itemDone
  repeat' split
  all_goals simp

@[simp] theorem State.fillFree_kept (s : State) (n : Nat) (ws : List Word) :
    (State.fillFree s n ws).2.kept = s.kept := by
  rfl

@[simp] theorem State.sendMlp_kept (s : State) (i : ProbeItem) (p : Policy) (d : ProbeDecl) (ws : List Word) :
    (State.sendMlp s i p d ws).kept = s.kept := by
  rfl

@[simp] theorem probeItemDone_kept (h : HalfId) (s : State) :
    (probeItemDone h s).kept = s.kept := by
  unfold probeItemDone
  dsimp only
  repeat' split
  all_goals simp

@[simp] theorem mlpResult_kept (h : HalfId) (s : State) :
    (mlpResult h s).kept = s.kept := by
  unfold mlpResult
  split
  · rfl
  · have h0 := takeMesh_kept ‹_›
    dsimp only
    repeat' split
    all_goals simp_all

@[simp] theorem State.sendRecords_kept (s : State) (release : Nat) (home : NodeId) (rs : List (List Byte)) (lat : Nat) :
    (State.sendRecords s release home rs lat).kept = s.kept := by
  unfold State.sendRecords
  repeat' split
  all_goals simp_all [foldl_kept]

@[simp] theorem probeRelease_kept (s : State) :
    (probeRelease s).kept = s.kept := by
  unfold probeRelease
  dsimp only
  repeat' split
  all_goals simp_all [foldl_kept]

/-! ### Edge -/

@[simp] theorem State.screenTransit_kept (s : State) (a : Arrival) :
    (State.screenTransit s a).2.kept = s.kept := by
  unfold State.screenTransit
  split <;> simp

@[simp] theorem State.screened_kept (s : State) (a : Arrival) (f : Arrival → State → State)
    (h : ∀ a t, (f a t).kept = t.kept) : (s.screened a f).kept = s.kept := by
  have h1 := State.screenTransit_kept s a
  unfold State.screened
  split <;> simp_all

@[simp] theorem State.enterClass0_kept (s : State) (a : Arrival) :
    (State.enterClass0 s a).kept = s.kept := by
  unfold State.enterClass0
  split
  · rw [State.tapPacket_kept]
    exact State.screened_kept s a _ (fun b t => State.class0Out_kept t _ b)
  · simp

@[simp] theorem State.relay_kept (s : State) (a : Arrival) :
    (State.relay s a).kept = s.kept := by
  unfold State.relay
  repeat' split
  all_goals simp

@[simp] theorem linkReceive_kept (k : LinkId) (w : WirePacket) (at16 : Nat) (s : State) :
    (linkReceive k w at16 s).kept = s.kept := by
  unfold linkReceive
  dsimp only
  repeat' split
  all_goals simp

@[simp] theorem State.useCredit_kept (s : State) (b : BulkId) (p : Packet) :
    (State.useCredit s b p).kept = s.kept := by
  rfl

@[simp] theorem State.hostEnter_kept (s : State) (b : BulkId) (a : Arrival) :
    (State.hostEnter s b a).kept = s.kept := by
  unfold State.hostEnter
  repeat' split
  all_goals simp

@[simp] theorem hostReceive_kept (b : BulkId) (w : HostPacket) (s : State) :
    (hostReceive b w s).kept = s.kept := by
  unfold hostReceive
  dsimp only
  repeat' split
  all_goals simp

end Sys2Proof.Machine
end

