-- ==== Sys2Proof/Laws/KeptPolicy.lean ====
section
/-! SUPPORT. The kept parts for reads, staging, casting, reliability, power and resets. -/

namespace Sys2Proof.Machine

/-! ### Queries -/

@[simp] theorem State.clearCounter_kept (s : State) (k : CtrKey) (was : Nat) :
    (State.clearCounter s k was).kept = s.kept := by
  rfl

@[simp] theorem State.answerReading_kept (s : State) (w : Waiting) (r : Reading) :
    (State.answerReading s w r).1.kept = s.kept := by
  unfold State.answerReading
  repeat' split
  all_goals simp

@[simp] theorem answerReadings_kept (u : State) (ws : List Waiting) (s : State) (ks : List CtrKey) :
    (answerReadings u ws s ks).1.kept = s.kept := by
  induction ws generalizing s ks with
  | nil => rfl
  | cons w ws ih => simp [answerReadings, ih]

@[simp] theorem snapshotTick_kept (s0 : State) :
    (snapshotTick s0).kept = s0.kept := by
  unfold snapshotTick
  dsimp only
  repeat' split
  all_goals simp_all [foldl_kept]

@[simp] theorem State.waitSnapshot_kept (s : State) (c : Cmd) :
    (State.waitSnapshot s c).kept = s.kept := by
  rfl

@[simp] theorem runStreamQuery_kept (c : Cmd) (s : State) :
    (runStreamQuery c s).kept = s.kept := by
  unfold runStreamQuery
  dsimp only
  repeat' split
  all_goals simp

@[simp] theorem runSnapshot_kept (c : Cmd) (s : State) :
    (runSnapshot c s).kept = s.kept := by
  unfold runSnapshot
  dsimp only
  repeat' split
  all_goals simp

@[simp] theorem runDistanceRead_kept (c : Cmd) (s : State) :
    (runDistanceRead c s).kept = s.kept := by
  unfold runDistanceRead
  dsimp only
  split <;> simp

/-! ### Staging -/

@[simp] theorem State.clearCellSlots_kept (s : State) (one : Bool) :
    (State.clearCellSlots s one).kept = s.kept := by
  rfl

@[simp] theorem State.loadImages_kept (s : State) (one : Bool) (t : PolicyTables) :
    (State.loadImages s one t).kept = s.kept := by
  simp [State.loadImages, foldl_kept]

@[simp] theorem State.setStores_kept (s : State) (one : Bool) (v : StoreSlot) :
    (State.setStores s one v).kept = s.kept := by
  rfl

@[simp] theorem State.freeSlots_kept (s : State) (one : Bool) :
    (State.freeSlots s one).kept = s.kept := by
  rfl

@[simp] theorem State.loadStores_kept (s : State) (one : Bool) (t : PolicyTables) :
    (State.loadStores s one t).kept = s.kept := by
  rfl

@[simp] theorem State.placeSections_kept (s : State) (t : PolicyTables) :
    (State.placeSections s t).kept = s.kept := by
  rfl

@[simp] theorem runBundleBegin_kept (c : Cmd) (s : State) :
    (runBundleBegin c s).kept = s.kept := by
  unfold runBundleBegin
  dsimp only
  repeat' split
  all_goals simp

@[simp] theorem runBundleWrite_kept (c : Cmd) (s : State) :
    (runBundleWrite c s).kept = s.kept := by
  unfold runBundleWrite
  dsimp only
  repeat' split
  all_goals simp

@[simp] theorem State.dropStaged_kept (s : State) :
    (State.dropStaged s).kept = s.kept := by
  unfold State.dropStaged
  repeat' split
  all_goals simp

@[simp] theorem runBundleDiscard_kept (c : Cmd) (s : State) :
    (runBundleDiscard c s).kept = s.kept := by
  unfold runBundleDiscard
  repeat' split
  all_goals simp

@[simp] theorem runBundleStage_kept (c : Cmd) (s : State) : (runBundleStage c s).kept = s.kept := by
  unfold runBundleStage
  split
  · split <;> simp
  · exact State.admitLong_kept _ _ _ (fun t => rfl)

@[simp] theorem State.rejectStage_kept (s : State) (src : Option (MPort × Fin 32)) (f : Failing) (window : Bool) (fit : Fit) (needed : Nat) :
    (State.rejectStage s src f window fit needed).kept = s.kept := by
  simp [State.rejectStage]

@[simp] theorem stageComplete_kept (m : SectionMap) (s0 : State) :
    (stageComplete m s0).kept = s0.kept := by
  unfold stageComplete
  dsimp only
  repeat' split
  all_goals simp

@[simp] theorem State.noteCast_kept (s : State) (policyId : DWord) (epoch status instant : Nat) :
    (State.noteCast s policyId epoch status instant).kept = s.kept := by
  simp [State.noteCast]

@[simp] theorem State.cancelArmed_kept (s : State) :
    (State.cancelArmed s).kept = s.kept := by
  unfold State.cancelArmed
  split <;> simp

@[simp] theorem State.recheck_kept (s : State) :
    (State.recheck s).kept = s.kept := by
  unfold State.recheck
  dsimp only
  repeat' split
  all_goals simp

@[simp] theorem State.afterMapChange_kept (s : State) (before : List Byte) :
    (State.afterMapChange s before).kept = s.kept := by
  unfold State.afterMapChange
  split <;> simp

/-! ### Casting -/

@[simp] theorem State.armCast_kept (s : State) (policyId : DWord) (epoch instant accept : Nat) :
    (State.armCast s policyId epoch instant accept).2.kept = s.kept := by
  unfold State.armCast
  repeat' split
  all_goals simp

@[simp] theorem State.disarmCast_kept (s : State) (policyId : DWord) (accept : Nat) :
    (State.disarmCast s policyId accept).2.kept = s.kept := by
  unfold State.disarmCast
  repeat' split
  all_goals simp

@[simp] theorem runCastArm_kept (c : Cmd) (s : State) :
    (runCastArm c s).kept = s.kept := by
  simp [runCastArm]

@[simp] theorem runCastDisarm_kept (c : Cmd) (s : State) :
    (runCastDisarm c s).kept = s.kept := by
  simp [runCastDisarm]

@[simp] theorem takeCastMessage_kept (s : State) :
    (takeCastMessage s).kept = s.kept := by
  unfold takeCastMessage
  split
  · rfl
  · have h0 := takeInbox_kept ‹_›
    dsimp only
    repeat' split
    all_goals simp_all

@[simp] theorem State.installQueues_kept (s : State) (cs : List QueueCfg) :
    (State.installQueues s cs).kept = s.kept := by
  unfold State.installQueues
  exact foldl_kept _ (fun u q => by split <;> simp) _ _

@[simp] theorem State.gateArrays_kept (s : State) (t : PolicyTables) :
    (State.gateArrays s t).kept = s.kept := by
  simp [State.gateArrays]

@[simp] theorem State.clearDegraded_kept (s : State) :
    (State.clearDegraded s).kept = s.kept := by
  simp [State.clearDegraded]

@[simp] theorem State.castBarrier_kept (s : State) :
    (State.castBarrier s).kept = s.kept := by
  unfold State.castBarrier
  split <;> rfl

@[simp] theorem State.endEngineHolds_kept (s : State) :
    (State.endEngineHolds s).kept = s.kept := by
  rfl

@[simp] theorem castWindowEnd_kept (s : State) :
    (castWindowEnd s).kept = s.kept := by
  unfold castWindowEnd
  dsimp only
  repeat' split
  all_goals simp

@[simp] theorem policyRetire_kept (s : State) :
    (policyRetire s).kept = s.kept := by
  unfold policyRetire
  repeat' split
  all_goals simp

/-! ### Reliability -/

@[simp] theorem State.loseCells_kept (s : State) (f : CellId → Bool) :
    (State.loseCells s f).kept = s.kept := by
  rfl

@[simp] theorem State.restartJudges_kept (s : State) (c : CellId) :
    (State.restartJudges s c).kept = s.kept := by
  rfl

@[simp] theorem State.setBench_kept (s : State) (b : Byte) (v : Byte) :
    (State.setBench s b v).kept = s.kept := by
  rfl

@[simp] theorem State.shortBench_kept (s : State) (b : Byte) (bits : Byte) :
    (State.shortBench s b bits).kept = s.kept := by
  simp [State.shortBench]

@[simp] theorem cellHardFault_kept (c : CellId) (s : State) :
    (cellHardFault c s).kept = s.kept := by
  unfold cellHardFault
  dsimp only
  repeat' split
  all_goals simp

@[simp] theorem cellReloadComplete_kept (c : CellId) (s : State) :
    (cellReloadComplete c s).kept = s.kept := by
  unfold cellReloadComplete
  dsimp only
  split <;> simp

@[simp] theorem benchRouterFail_kept (b : Byte) (s : State) :
    (benchRouterFail b s).kept = s.kept := by
  unfold benchRouterFail
  split <;> simp

@[simp] theorem State.setArray_kept (s : State) (h : HalfId) (v : Nat) :
    (State.setArray s h v).kept = s.kept := by
  unfold State.setArray
  split <;> rfl

@[simp] theorem State.loseArray_kept (s : State) (h : HalfId) :
    (State.loseArray s h).kept = s.kept := by
  unfold State.loseArray
  split <;> simp

@[simp] theorem engineHardFault_kept (h : HalfId) (e : Fin 7) (u : Option (Fin 8)) (s : State) :
    (engineHardFault h e u s).kept = s.kept := by
  unfold engineHardFault
  dsimp only
  repeat' split
  all_goals simp_all [foldl_kept]

@[simp] theorem State.narrowWelt_kept (s : State) (southward : Bool) (g : Fin 64) :
    (State.narrowWelt s southward g).kept = s.kept := by
  simp [State.narrowWelt]

@[simp] theorem weltGroupRetire_kept (southward : Bool) (g : Fin 64) (s : State) :
    (weltGroupRetire southward g s).kept = s.kept := by
  unfold weltGroupRetire
  dsimp only
  repeat' split
  all_goals simp

@[simp] theorem weltSpareTakeover_kept (southward : Bool) (s : State) :
    (weltSpareTakeover southward s).kept = s.kept := by
  unfold weltSpareTakeover
  split <;> simp

@[simp] theorem State.poisonSpill_kept (s : State) (addr : Nat) :
    (State.poisonSpill s addr).kept = s.kept := by
  unfold State.poisonSpill
  dsimp only
  repeat' split
  all_goals simp

@[simp] theorem State.poisonContext_kept (s : State) (addr : Nat) :
    (State.poisonContext s addr).kept = s.kept := by
  unfold State.poisonContext
  split <;> rfl

@[simp] theorem State.poisonWord_kept (s : State) (m : MemLoc) (data : DWord) :
    (State.poisonWord s m data).kept = s.kept := by
  unfold State.poisonWord
  repeat' split
  all_goals simp

@[simp] theorem State.patrolPass_kept (s : State) (m : MemLoc) :
    (State.patrolPass s m).kept = s.kept := by
  unfold State.patrolPass
  repeat' split
  all_goals simp

@[simp] theorem patrolScrub_kept (m : MemLoc) (w : BitVec 80) (s0 : State) :
    (patrolScrub m w s0).kept = s0.kept := by
  unfold patrolScrub
  split <;> simp

@[simp] theorem memRepair_kept (s : State) :
    (memRepair s).kept = s.kept := by
  unfold memRepair
  dsimp only
  repeat' split
  all_goals simp

@[simp] theorem cellImageRewrite_kept (c : CellId) (addr : Nat) (s : State) :
    (cellImageRewrite c addr s).kept = s.kept := by
  unfold cellImageRewrite
  dsimp only
  repeat' split
  all_goals simp

@[simp] theorem repairSemaphoreRelease_kept (s : State) :
    (repairSemaphoreRelease s).kept = s.kept := by
  unfold repairSemaphoreRelease
  split <;> rfl

/-! ### Power -/

@[simp] theorem State.notePower_kept (s : State) (cause : Nat) (h : HalfId) (mhz estimate : Nat) :
    (State.notePower s cause h mhz estimate).kept = s.kept := by
  simp [State.notePower]

@[simp] theorem halfArrayLost_kept (h : HalfId) (s : State) :
    (halfArrayLost h s).kept = s.kept := by
  unfold halfArrayLost
  dsimp only
  repeat' split
  all_goals simp

/-! ### Resets -/

@[simp] theorem coldResetRelease_kept (p : Straps) (s : State) :
    (coldResetRelease p s).kept = s.kept := by
  unfold coldResetRelease
  repeat' split
  all_goals simp

@[simp] theorem State.selfTest_kept (s : State) (f : TestFinding) :
    (State.selfTest s f).kept = s.kept := by
  unfold State.selfTest
  dsimp only
  repeat' split
  all_goals simp_all [foldl_kept]

@[simp] theorem State.endReloads_kept (s : State) :
    (State.endReloads s).kept = s.kept := by
  rfl

@[simp] theorem runResetCold_kept (c : Cmd) (s : State) :
    (runResetCold c s).kept = s.kept := by
  unfold runResetCold
  split <;> simp

@[simp] theorem runResetFunction_kept (c : Cmd) (s : State) :
    (runResetFunction c s).kept = s.kept := by
  unfold runResetFunction
  split <;> simp

@[simp] theorem State.stopStaging_kept (s : State) :
    (State.stopStaging s).kept = s.kept := by
  simp [State.stopStaging]

@[simp] theorem State.endCasts_kept (s : State) :
    (State.endCasts s).kept = s.kept := by
  unfold State.endCasts
  dsimp only
  repeat' split
  all_goals simp

@[simp] theorem State.clearFunctions_kept (s : State) (b : Nat) :
    (State.clearFunctions s b).kept = s.kept := by
  simp [State.clearFunctions]

@[simp] theorem functionResetBoundary_kept (s : State) :
    (functionResetBoundary s).kept = s.kept := by
  unfold functionResetBoundary
  repeat' split
  all_goals simp

@[simp] theorem State.resetPolicyQueues_kept (s : State) :
    (State.resetPolicyQueues s).kept = s.kept := by
  rfl

@[simp] theorem functionResetComplete_kept (s : State) :
    (functionResetComplete s).kept = s.kept := by
  unfold functionResetComplete
  split <;> simp

@[simp] theorem runEngineAbort_kept (c : Cmd) (s : State) :
    (runEngineAbort c s).kept = s.kept := by
  unfold runEngineAbort
  dsimp only
  split <;> simp

@[simp] theorem engineAbortBoundary_kept (s : State) :
    (engineAbortBoundary s).kept = s.kept := by
  unfold engineAbortBoundary
  dsimp only
  repeat' split
  all_goals simp_all [foldl_kept]

@[simp] theorem engineRestartComplete_kept (s : State) :
    (engineRestartComplete s).kept = s.kept := by
  unfold engineRestartComplete
  split <;> simp

end Sys2Proof.Machine
end

