-- ==== Sys2Proof/Laws/KeptExec.lean ====
section
/-! SUPPORT. What each command leaves unchanged: all but those of `Instr.setsBoot` and `Instr.setsPower` keep the queue, the
boot state and the power state. -/

namespace Sys2Proof.Machine

/-- An outcome that is a next state keeps the queue, the boot state and the power state. -/
def Keeps (o : Host.Outcome State Fault Refusal) (s : State) : Prop :=
  match o with
  | .next t => t.kept = s.kept
  | _ => True

@[simp] theorem keeps_next (t s : State) : Keeps (.next t) s ↔ t.kept = s.kept := Iff.rfl

theorem execPlumbTick_keeps (s : State) : Keeps (execPlumbTick s) s := by
  simp [execPlumbTick]

theorem execColdResetRelease_keeps (p : Straps) (s : State) : Keeps (execColdResetRelease p s) s := by
  simp [execColdResetRelease]

theorem execHalfArrayLost_keeps (h : HalfId) (s : State) : Keeps (execHalfArrayLost h s) s := by
  simp [execHalfArrayLost]

theorem execPlumbLoRead_keeps (p : MPort) (s : State) : Keeps (execPlumbLoRead p s) s := by
  simp [execPlumbLoRead]

theorem execPlumbStatusRead_keeps (p : MPort) (s : State) : Keeps (execPlumbStatusRead p s) s := by
  simp [execPlumbStatusRead]

theorem execPlumbSteppedClear_keeps (p : MPort) (s : State) : Keeps (execPlumbSteppedClear p s) s := by
  simp [execPlumbSteppedClear]

theorem execNodeIdWrite_keeps (p : MPort) (v : Word) (s : State) : Keeps (execNodeIdWrite p v s) s := by
  simp [execNodeIdWrite]

theorem execNoticeAcknowledge_keeps (p : MPort) (bits : Word) (s : State) : Keeps (execNoticeAcknowledge p bits s) s := by
  simp [execNoticeAcknowledge]

theorem execSemRequest_keeps (k : Fin 32) (a b fw : Bool) (s : State) : Keeps (execSemRequest k a b fw s) s := by
  simp [execSemRequest]

theorem execSemRelease_keeps (k : Fin 32) (p : MPort) (s : State) : Keeps (execSemRelease k p s) s := by
  simp [execSemRelease]

theorem execSemForce_keeps (k : Fin 32) (p : MPort) (s : State) : Keeps (execSemForce k p s) s := by
  simp [execSemForce]

theorem execQueueItemRead_keeps (q : QueueId) (s : State) : Keeps (execQueueItemRead q s) s := by
  simp [execQueueItemRead]

theorem execQueueItemWrite_keeps (q : QueueId) (item : List Byte) (s : State) : Keeps (execQueueItemWrite q item s) s := by
  simp [execQueueItemWrite]

theorem execQueueOverrunClear_keeps (q : QueueId) (s : State) : Keeps (execQueueOverrunClear q s) s := by
  simp [execQueueOverrunClear]

theorem execQueueLatchedAck_keeps (q : QueueId) (s : State) : Keeps (execQueueLatchedAck q s) s := by
  simp [execQueueLatchedAck]

theorem execQueueDropPacket_keeps (q : QueueId) (s : State) : Keeps (execQueueDropPacket q s) s := by
  simp [execQueueDropPacket]

theorem execBootInfo_keeps (p : MPort) (n : Fin 32) (s : State) : Keeps (execBootInfo p n s) s := by
  simp [execBootInfo]

theorem execBundleBegin_keeps (p : MPort) (n : Fin 32) (s : State) : Keeps (execBundleBegin p n s) s := by
  simp [execBundleBegin]

theorem execBundleWrite_keeps (p : MPort) (n : Fin 32) (s : State) : Keeps (execBundleWrite p n s) s := by
  simp [execBundleWrite]

theorem execBundleStage_keeps (p : MPort) (n : Fin 32) (s : State) : Keeps (execBundleStage p n s) s := by
  simp [execBundleStage]

theorem execBundleStageComplete_keeps (t : SectionMap) (s : State) : Keeps (execBundleStageComplete t s) s := by
  simp [execBundleStageComplete]

theorem execBundleDiscard_keeps (p : MPort) (n : Fin 32) (s : State) : Keeps (execBundleDiscard p n s) s := by
  simp [execBundleDiscard]

theorem execCastArm_keeps (p : MPort) (n : Fin 32) (s : State) : Keeps (execCastArm p n s) s := by
  simp [execCastArm]

theorem execCastDisarm_keeps (p : MPort) (n : Fin 32) (s : State) : Keeps (execCastDisarm p n s) s := by
  simp [execCastDisarm]

theorem execCastConfig_keeps (p : MPort) (n : Fin 32) (s : State) : Keeps (execCastConfig p n s) s := by
  simp [execCastConfig]

theorem execStreamOpen_keeps (p : MPort) (n : Fin 32) (s : State) : Keeps (execStreamOpen p n s) s := by
  simp [execStreamOpen]

theorem execStreamSet_keeps (p : MPort) (n : Fin 32) (s : State) : Keeps (execStreamSet p n s) s := by
  simp [execStreamSet]

theorem execStreamClose_keeps (p : MPort) (n : Fin 32) (s : State) : Keeps (execStreamClose p n s) s := by
  simp [execStreamClose]

theorem execStreamQuery_keeps (p : MPort) (n : Fin 32) (s : State) : Keeps (execStreamQuery p n s) s := by
  simp [execStreamQuery]

theorem execStreamFeatures_keeps (p : MPort) (n : Fin 32) (s : State) : Keeps (execStreamFeatures p n s) s := by
  simp [execStreamFeatures]

theorem execStreamAbort_keeps (p : MPort) (n : Fin 32) (s : State) : Keeps (execStreamAbort p n s) s := by
  unfold execStreamAbort
  exact State.startCmd_kept _ _ _ _ _ _ (fun c t => by repeat' split <;> simp)

theorem execSnapshot_keeps (p : MPort) (n : Fin 32) (s : State) : Keeps (execSnapshot p n s) s := by
  simp [execSnapshot]

theorem execCapabilityRead_keeps (p : MPort) (n : Fin 32) (s : State) : Keeps (execCapabilityRead p n s) s := by
  simp [execCapabilityRead]

theorem execDistanceRead_keeps (p : MPort) (n : Fin 32) (s : State) : Keeps (execDistanceRead p n s) s := by
  simp [execDistanceRead]

theorem execTelemetryRead_keeps (p : MPort) (n : Fin 32) (s : State) : Keeps (execTelemetryRead p n s) s := by
  simp [execTelemetryRead]

theorem execNoticeRead_keeps (p : MPort) (n : Fin 32) (s : State) : Keeps (execNoticeRead p n s) s := by
  simp [execNoticeRead]

theorem execNodeFence_keeps (p : MPort) (n : Fin 32) (s : State) : Keeps (execNodeFence p n s) s := by
  simp [execNodeFence]

theorem execLinkConfig_keeps (p : MPort) (n : Fin 32) (s : State) : Keeps (execLinkConfig p n s) s := by
  simp [execLinkConfig]

theorem execPlumbMaster_keeps (p : MPort) (n : Fin 32) (s : State) : Keeps (execPlumbMaster p n s) s := by
  simp [execPlumbMaster]

theorem execSyncConfig_keeps (p : MPort) (n : Fin 32) (s : State) : Keeps (execSyncConfig p n s) s := by
  simp [execSyncConfig]

theorem execGroupAlloc_keeps (p : MPort) (n : Fin 32) (s : State) : Keeps (execGroupAlloc p n s) s := by
  simp [execGroupAlloc]

theorem execGroupFree_keeps (p : MPort) (n : Fin 32) (s : State) : Keeps (execGroupFree p n s) s := by
  simp [execGroupFree]

theorem execTenantBudget_keeps (p : MPort) (n : Fin 32) (s : State) : Keeps (execTenantBudget p n s) s := by
  unfold execTenantBudget
  exact State.startCmd_kept _ _ _ _ _ _ (fun c t => by repeat' split <;> simp)

theorem execQueueRead_keeps (p : MPort) (n : Fin 32) (s : State) : Keeps (execQueueRead p n s) s := by
  simp [execQueueRead]

theorem execQueueWrite_keeps (p : MPort) (n : Fin 32) (s : State) : Keeps (execQueueWrite p n s) s := by
  simp [execQueueWrite]

theorem execQueueStatus_keeps (p : MPort) (n : Fin 32) (s : State) : Keeps (execQueueStatus p n s) s := by
  simp [execQueueStatus]

theorem execQueueControl_keeps (p : MPort) (n : Fin 32) (s : State) : Keeps (execQueueControl p n s) s := by
  simp [execQueueControl]

theorem execResetCold_keeps (p : MPort) (n : Fin 32) (s : State) : Keeps (execResetCold p n s) s := by
  simp [execResetCold]

theorem execResetPlane_keeps (p : MPort) (n : Fin 32) (s : State) : Keeps (execResetPlane p n s) s := by
  simp [execResetPlane]

theorem execResetFunction_keeps (p : MPort) (n : Fin 32) (s : State) : Keeps (execResetFunction p n s) s := by
  simp [execResetFunction]

theorem execPlaneRestore_keeps (p : MPort) (n : Fin 32) (s : State) : Keeps (execPlaneRestore p n s) s := by
  simp [execPlaneRestore]

theorem execEngineAbort_keeps (p : MPort) (n : Fin 32) (s : State) : Keeps (execEngineAbort p n s) s := by
  simp [execEngineAbort]

theorem execStreamSetBoundary_keeps (s : State) : Keeps (execStreamSetBoundary s) s := by
  simp [execStreamSetBoundary]

theorem execStreamCloseBoundary_keeps (s : State) : Keeps (execStreamCloseBoundary s) s := by
  simp [execStreamCloseBoundary]

theorem execHostFeatureBoundary_keeps (s : State) : Keeps (execHostFeatureBoundary s) s := by
  simp [execHostFeatureBoundary]

theorem execStreamAbortBoundary_keeps (s : State) : Keeps (execStreamAbortBoundary s) s := by
  simp [execStreamAbortBoundary]

theorem execEngineAbortBoundary_keeps (s : State) : Keeps (execEngineAbortBoundary s) s := by
  simp [execEngineAbortBoundary]

theorem execEngineRestartComplete_keeps (s : State) : Keeps (execEngineRestartComplete s) s := by
  simp [execEngineRestartComplete]

theorem execNodeFenceCommit_keeps (s : State) : Keeps (execNodeFenceCommit s) s := by
  simp [execNodeFenceCommit]

theorem execGroupAllocBoundary_keeps (s : State) : Keeps (execGroupAllocBoundary s) s := by
  simp [execGroupAllocBoundary]

theorem execGroupFreeBoundary_keeps (s : State) : Keeps (execGroupFreeBoundary s) s := by
  simp [execGroupFreeBoundary]

theorem execTenantBudgetBoundary_keeps (s : State) : Keeps (execTenantBudgetBoundary s) s := by
  simp [execTenantBudgetBoundary]

theorem execPlaneRestoreBoundary_keeps (s : State) : Keeps (execPlaneRestoreBoundary s) s := by
  simp [execPlaneRestoreBoundary]

theorem execPlaneResetBoundary_keeps (s : State) : Keeps (execPlaneResetBoundary s) s := by
  simp [execPlaneResetBoundary]

theorem execPlaneRetrain_keeps (s : State) : Keeps (execPlaneRetrain s) s := by
  simp [execPlaneRetrain]

theorem execFunctionResetBoundary_keeps (s : State) : Keeps (execFunctionResetBoundary s) s := by
  simp [execFunctionResetBoundary]

theorem execFunctionResetComplete_keeps (s : State) : Keeps (execFunctionResetComplete s) s := by
  simp [execFunctionResetComplete]

theorem execSnapshotTick_keeps (s : State) : Keeps (execSnapshotTick s) s := by
  simp [execSnapshotTick]

theorem execCastWindowEnd_keeps (s : State) : Keeps (execCastWindowEnd s) s := by
  simp [execCastWindowEnd]

theorem execPolicyRetire_keeps (s : State) : Keeps (execPolicyRetire s) s := by
  simp [execPolicyRetire]

theorem execCastMessage_keeps (s : State) : Keeps (execCastMessage s) s := by
  simp [execCastMessage]

theorem execLinkPacketReceive_keeps (k : LinkId) (w : WirePacket) (at16 : Nat) (s : State) : Keeps (execLinkPacketReceive k w at16 s) s := by
  simp [execLinkPacketReceive]

theorem execHostPacketReceive_keeps (b : BulkId) (w : HostPacket) (s : State) : Keeps (execHostPacketReceive b w s) s := by
  simp [execHostPacketReceive]

theorem execHostCreditReturn_keeps (b : BulkId) (vc : Fin 4) (s : State) : Keeps (execHostCreditReturn b vc s) s := by
  simp [execHostCreditReturn]

theorem execLinkOutputSelect_keeps (k : LinkId) (at16 : Nat) (s : State) : Keeps (execLinkOutputSelect k at16 s) s := by
  simp [execLinkOutputSelect]

theorem execHostOutputSelect_keeps (b : BulkId) (s : State) : Keeps (execHostOutputSelect b s) s := by
  simp [execHostOutputSelect]

theorem execSyncPortEvent_keeps (e : Half) (s : State) : Keeps (execSyncPortEvent e s) s := by
  simp [execSyncPortEvent]

theorem execLaneRxUpRise_keeps (g : Fin 8) (l : Fin 9) (s : State) : Keeps (execLaneRxUpRise g l s) s := by
  simp [execLaneRxUpRise]

theorem execLaneRxUpFall_keeps (g : Fin 8) (l : Fin 9) (s : State) : Keeps (execLaneRxUpFall g l s) s := by
  simp [execLaneRxUpFall]

theorem execLaneFault_keeps (g : Fin 8) (l : Fin 9) (s : State) : Keeps (execLaneFault g l s) s := by
  simp [execLaneFault]

theorem execLinkSilenceTimeout_keeps (k : LinkId) (s : State) : Keeps (execLinkSilenceTimeout k s) s := by
  simp [execLinkSilenceTimeout]

theorem execLaneMessage_keeps (s : State) : Keeps (execLaneMessage s) s := by
  unfold execLaneMessage
  simp only [keeps_next]
  split
  · rfl
  · have h0 := takeLocal_kept ‹_›
    simp_all

theorem execLaneSpareAcceptTimeout_keeps (k : LinkId) (s : State) : Keeps (execLaneSpareAcceptTimeout k s) s := by
  unfold execLaneSpareAcceptTimeout
  repeat' split
  all_goals simp

theorem execHello_keeps (s : State) : Keeps (execHello s) s := by
  unfold execHello
  simp only [keeps_next]
  split
  · rfl
  · have h0 := takeLocal_kept ‹_›
    simp_all

theorem execHelloSendTimer_keeps (k : LinkId) (s : State) : Keeps (execHelloSendTimer k s) s := by
  simp [execHelloSendTimer]

theorem execRoute_keeps (s : State) : Keeps (execRoute s) s := by
  unfold execRoute
  simp only [keeps_next]
  split
  · rfl
  · have h0 := takeLocal_kept ‹_›
    simp_all

theorem execRouteSendTimer_keeps (k : LinkId) (s : State) : Keeps (execRouteSendTimer k s) s := by
  simp [execRouteSendTimer]

theorem execSync_keeps (s : State) : Keeps (execSync s) s := by
  unfold execSync
  simp only [keeps_next]
  split
  · rfl
  · have h0 := takeLocal_kept ‹_›
    simp_all

theorem execSyncSendTimer_keeps (k : LinkId) (s : State) : Keeps (execSyncSendTimer k s) s := by
  simp [execSyncSendTimer]

theorem execDelayMeasureTimer_keeps (k : LinkId) (s : State) : Keeps (execDelayMeasureTimer k s) s := by
  simp [execDelayMeasureTimer]

theorem execDelayReq_keeps (s : State) : Keeps (execDelayReq s) s := by
  simp [execDelayReq]

theorem execDelayResp_keeps (s : State) : Keeps (execDelayResp s) s := by
  simp [execDelayResp]

theorem execHoldoverTimeout_keeps (s : State) : Keeps (execHoldoverTimeout s) s := by
  unfold execHoldoverTimeout
  repeat' split
  all_goals simp

theorem execHoldoverExpiry_keeps (s : State) : Keeps (execHoldoverExpiry s) s := by
  unfold execHoldoverExpiry
  repeat' split
  all_goals simp

theorem execAck_keeps (s : State) : Keeps (execAck s) s := by
  unfold execAck
  simp only [keeps_next]
  split
  · rfl
  · have h0 := takeInbox_kept ‹_›
    simp_all

theorem execAckSend_keeps (peer : NodeId) (s : State) : Keeps (execAckSend peer s) s := by
  simp [execAckSend]

theorem execRetransmitTimeout_keeps (peer : NodeId) (s : State) : Keeps (execRetransmitTimeout peer s) s := by
  simp [execRetransmitTimeout]

theorem execSendWindowIdleFree_keeps (peer : NodeId) (s : State) : Keeps (execSendWindowIdleFree peer s) s := by
  unfold execSendWindowIdleFree
  repeat' split
  all_goals simp

theorem execReceiveRecordIdleFree_keeps (peer : NodeId) (s : State) : Keeps (execReceiveRecordIdleFree peer s) s := by
  unfold execReceiveRecordIdleFree
  repeat' split
  all_goals simp

theorem execMiss_keeps (s : State) : Keeps (execMiss s) s := by
  unfold execMiss
  simp only [keeps_next]
  split
  · rfl
  · have h0 := takeInbox_kept ‹_›
    simp_all

theorem execRetentionBudgetExpiry_keeps (k : LinkId) (s : State) : Keeps (execRetentionBudgetExpiry k s) s := by
  simp [execRetentionBudgetExpiry]

theorem execMcastCompletionRecord_keeps (s : State) : Keeps (execMcastCompletionRecord s) s := by
  simp [execMcastCompletionRecord]

theorem execStreamControlPacket_keeps (s : State) : Keeps (execStreamControlPacket s) s := by
  simp [execStreamControlPacket]

theorem execOpenCommit_keeps (s : State) : Keeps (execOpenCommit s) s := by
  simp [execOpenCommit]

theorem execSlotFree_keeps (s : State) : Keeps (execSlotFree s) s := by
  simp [execSlotFree]

theorem execHostFeaturePacket_keeps (s : State) : Keeps (execHostFeaturePacket s) s := by
  simp [execHostFeaturePacket]

theorem execContributionArrive_keeps (s : State) : Keeps (execContributionArrive s) s := by
  simp [execContributionArrive]

theorem execIngressUnclaimedTimeout_keeps (s : State) : Keeps (execIngressUnclaimedTimeout s) s := by
  simp [execIngressUnclaimedTimeout]

theorem execTextPacket_keeps (s : State) : Keeps (execTextPacket s) s := by
  simp [execTextPacket]

theorem execTextPacketAccept_keeps (s : State) : Keeps (execTextPacketAccept s) s := by
  simp [execTextPacketAccept]

theorem execChunkEncodeDone_keeps (u : Fin 8) (s : State) : Keeps (execChunkEncodeDone u s) s := by
  simp [execChunkEncodeDone]

theorem execChunkRelease_keeps (s : State) : Keeps (execChunkRelease s) s := by
  simp [execChunkRelease]

theorem execSegmentVerdictRelease_keeps (s : State) : Keeps (execSegmentVerdictRelease s) s := by
  simp [execSegmentVerdictRelease]

theorem execLogitPacket_keeps (s : State) : Keeps (execLogitPacket s) s := by
  simp [execLogitPacket]

theorem execLogitWindowExpiry_keeps (k : SlotId) (s : State) : Keeps (execLogitWindowExpiry k s) s := by
  simp [execLogitWindowExpiry]

theorem execSampleRelease_keeps (k : SlotId) (s : State) : Keeps (execSampleRelease k s) s := by
  simp [execSampleRelease]

theorem execAwlItemAdmit_keeps (h : HalfId) (l : Fin 256) (s : State) : Keeps (execAwlItemAdmit h l s) s := by
  simp [execAwlItemAdmit]

theorem execAwlItemDone_keeps (h : HalfId) (l : Fin 256) (s : State) : Keeps (execAwlItemDone h l s) s := by
  simp [execAwlItemDone]

theorem execAwlReread_keeps (h : HalfId) (l : Fin 256) (good : Bool) (s : State) : Keeps (execAwlReread h l good s) s := by
  simp [execAwlReread]

theorem execArmatureSampleAdmit_keeps (s : State) : Keeps (execArmatureSampleAdmit s) s := by
  simp [execArmatureSampleAdmit]

theorem execArmatureResult_keeps (k : SlotId) (s : State) : Keeps (execArmatureResult k s) s := by
  simp [execArmatureResult]

theorem execArmatureReread_keeps (k : SlotId) (e : Fin 16) (good : Bool) (s : State) : Keeps (execArmatureReread k e good s) s := by
  simp [execArmatureReread]

theorem execJudgeDispatch_keeps (s : State) : Keeps (execJudgeDispatch s) s := by
  simp [execJudgeDispatch]

theorem execJudgeResult_keeps (h : HalfId) (s : State) : Keeps (execJudgeResult h s) s := by
  simp [execJudgeResult]

theorem execTapSliceTimeout_keeps (s : State) : Keeps (execTapSliceTimeout s) s := by
  simp [execTapSliceTimeout]

theorem execProbeItemDone_keeps (h : HalfId) (s : State) : Keeps (execProbeItemDone h s) s := by
  simp [execProbeItemDone]

theorem execMlpResult_keeps (h : HalfId) (s : State) : Keeps (execMlpResult h s) s := by
  simp [execMlpResult]

theorem execProbeRelease_keeps (s : State) : Keeps (execProbeRelease s) s := by
  simp [execProbeRelease]

theorem execProbeRecordPacket_keeps (s : State) : Keeps (execProbeRecordPacket s) s := by
  unfold execProbeRecordPacket
  simp only [keeps_next]
  split
  · rfl
  · have h0 := takeInbox_kept ‹_›
    simp_all

theorem execVerdictCutoff_keeps (s : State) : Keeps (execVerdictCutoff s) s := by
  simp [execVerdictCutoff]

theorem execBridleLaneStart_keeps (h : HalfId) (l : Fin 16) (s : State) : Keeps (execBridleLaneStart h l s) s := by
  simp [execBridleLaneStart]

theorem execVerdictRelease_keeps (k : SlotId) (s : State) : Keeps (execVerdictRelease k s) s := by
  simp [execVerdictRelease]

theorem execHaltMessage_keeps (s : State) : Keeps (execHaltMessage s) s := by
  simp [execHaltMessage]

theorem execHandlerStart_keeps (c : CellId) (s : State) : Keeps (execHandlerStart c s) s := by
  simp [execHandlerStart]

theorem execCellMessageArrive_keeps (c : CellId) (s : State) : Keeps (execCellMessageArrive c s) s := by
  simp [execCellMessageArrive]

theorem execBulkTransferComplete_keeps (c : CellId) (s : State) : Keeps (execBulkTransferComplete c s) s := by
  simp [execBulkTransferComplete]

theorem execBarrierComplete_keeps (ch : Fin 64) (s : State) : Keeps (execBarrierComplete ch s) s := by
  simp [execBarrierComplete]

theorem execFlagChange_keeps (s : State) : Keeps (execFlagChange s) s := by
  simp [execFlagChange]

theorem execCellAdd_keeps (c : CellId) (d a b : CellReg) (s : State) : Keeps (execCellAdd c d a b s) s := by
  simp [execCellAdd]

theorem execCellSub_keeps (c : CellId) (d a b : CellReg) (s : State) : Keeps (execCellSub c d a b s) s := by
  simp [execCellSub]

theorem execCellAnd_keeps (c : CellId) (d a b : CellReg) (s : State) : Keeps (execCellAnd c d a b s) s := by
  simp [execCellAnd]

theorem execCellOr_keeps (c : CellId) (d a b : CellReg) (s : State) : Keeps (execCellOr c d a b s) s := by
  simp [execCellOr]

theorem execCellXor_keeps (c : CellId) (d a b : CellReg) (s : State) : Keeps (execCellXor c d a b s) s := by
  simp [execCellXor]

theorem execCellSll_keeps (c : CellId) (d a b : CellReg) (s : State) : Keeps (execCellSll c d a b s) s := by
  simp [execCellSll]

theorem execCellSrl_keeps (c : CellId) (d a b : CellReg) (s : State) : Keeps (execCellSrl c d a b s) s := by
  simp [execCellSrl]

theorem execCellSra_keeps (c : CellId) (d a b : CellReg) (s : State) : Keeps (execCellSra c d a b s) s := by
  simp [execCellSra]

theorem execCellMul_keeps (c : CellId) (d a b : CellReg) (s : State) : Keeps (execCellMul c d a b s) s := by
  simp [execCellMul]

theorem execCellSlt_keeps (c : CellId) (d a b : CellReg) (s : State) : Keeps (execCellSlt c d a b s) s := by
  simp [execCellSlt]

theorem execCellSltu_keeps (c : CellId) (d a b : CellReg) (s : State) : Keeps (execCellSltu c d a b s) s := by
  simp [execCellSltu]

theorem execCellMin_keeps (c : CellId) (d a b : CellReg) (s : State) : Keeps (execCellMin c d a b s) s := by
  simp [execCellMin]

theorem execCellMax_keeps (c : CellId) (d a b : CellReg) (s : State) : Keeps (execCellMax c d a b s) s := by
  simp [execCellMax]

theorem execCellAddi_keeps (c : CellId) (d a : CellReg) (imm : BitVec 14) (s : State) : Keeps (execCellAddi c d a imm s) s := by
  simp [execCellAddi]

theorem execCellAndi_keeps (c : CellId) (d a : CellReg) (imm : BitVec 14) (s : State) : Keeps (execCellAndi c d a imm s) s := by
  simp [execCellAndi]

theorem execCellOri_keeps (c : CellId) (d a : CellReg) (imm : BitVec 14) (s : State) : Keeps (execCellOri c d a imm s) s := by
  simp [execCellOri]

theorem execCellXori_keeps (c : CellId) (d a : CellReg) (imm : BitVec 14) (s : State) : Keeps (execCellXori c d a imm s) s := by
  simp [execCellXori]

theorem execCellSlli_keeps (c : CellId) (d a : CellReg) (imm : BitVec 14) (s : State) : Keeps (execCellSlli c d a imm s) s := by
  simp [execCellSlli]

theorem execCellSrli_keeps (c : CellId) (d a : CellReg) (imm : BitVec 14) (s : State) : Keeps (execCellSrli c d a imm s) s := by
  simp [execCellSrli]

theorem execCellSrai_keeps (c : CellId) (d a : CellReg) (imm : BitVec 14) (s : State) : Keeps (execCellSrai c d a imm s) s := by
  simp [execCellSrai]

theorem execCellSlti_keeps (c : CellId) (d a : CellReg) (imm : BitVec 14) (s : State) : Keeps (execCellSlti c d a imm s) s := by
  simp [execCellSlti]

theorem execCellExtr_keeps (c : CellId) (d a : CellReg) (lsb width1 : BitVec 6) (s : State) : Keeps (execCellExtr c d a lsb width1 s) s := by
  simp [execCellExtr]

theorem execCellLui_keeps (c : CellId) (d : CellReg) (imm : BitVec 19) (s : State) : Keeps (execCellLui c d imm s) s := by
  simp [execCellLui]

theorem execCellLdB_keeps (c : CellId) (d a : CellReg) (imm : BitVec 14) (s : State) : Keeps (execCellLdB c d a imm s) s := by
  simp [execCellLdB]

theorem execCellLdH_keeps (c : CellId) (d a : CellReg) (imm : BitVec 14) (s : State) : Keeps (execCellLdH c d a imm s) s := by
  simp [execCellLdH]

theorem execCellLdW_keeps (c : CellId) (d a : CellReg) (imm : BitVec 14) (s : State) : Keeps (execCellLdW c d a imm s) s := by
  simp [execCellLdW]

theorem execCellLdD_keeps (c : CellId) (d a : CellReg) (imm : BitVec 14) (s : State) : Keeps (execCellLdD c d a imm s) s := by
  simp [execCellLdD]

theorem execCellStB_keeps (c : CellId) (d a : CellReg) (imm : BitVec 14) (s : State) : Keeps (execCellStB c d a imm s) s := by
  simp [execCellStB]

theorem execCellStH_keeps (c : CellId) (d a : CellReg) (imm : BitVec 14) (s : State) : Keeps (execCellStH c d a imm s) s := by
  simp [execCellStH]

theorem execCellStW_keeps (c : CellId) (d a : CellReg) (imm : BitVec 14) (s : State) : Keeps (execCellStW c d a imm s) s := by
  simp [execCellStW]

theorem execCellStD_keeps (c : CellId) (d a : CellReg) (imm : BitVec 14) (s : State) : Keeps (execCellStD c d a imm s) s := by
  simp [execCellStD]

theorem execCellBeq_keeps (c : CellId) (a b : CellReg) (off : BitVec 14) (s : State) : Keeps (execCellBeq c a b off s) s := by
  simp [execCellBeq]

theorem execCellBne_keeps (c : CellId) (a b : CellReg) (off : BitVec 14) (s : State) : Keeps (execCellBne c a b off s) s := by
  simp [execCellBne]

theorem execCellBlt_keeps (c : CellId) (a b : CellReg) (off : BitVec 14) (s : State) : Keeps (execCellBlt c a b off s) s := by
  simp [execCellBlt]

theorem execCellBge_keeps (c : CellId) (a b : CellReg) (off : BitVec 14) (s : State) : Keeps (execCellBge c a b off s) s := by
  simp [execCellBge]

theorem execCellBltu_keeps (c : CellId) (a b : CellReg) (off : BitVec 14) (s : State) : Keeps (execCellBltu c a b off s) s := by
  simp [execCellBltu]

theorem execCellBgeu_keeps (c : CellId) (a b : CellReg) (off : BitVec 14) (s : State) : Keeps (execCellBgeu c a b off s) s := by
  simp [execCellBgeu]

theorem execCellJ_keeps (c : CellId) (off : BitVec 19) (s : State) : Keeps (execCellJ c off s) s := by
  simp [execCellJ]

theorem execCellJal_keeps (c : CellId) (d : CellReg) (off : BitVec 19) (s : State) : Keeps (execCellJal c d off s) s := by
  simp [execCellJal]

theorem execCellJr_keeps (c : CellId) (a : CellReg) (s : State) : Keeps (execCellJr c a s) s := by
  simp [execCellJr]

theorem execCellVadd_keeps (c : CellId) (int : Bool) (d a b : CellReg) (s : State) : Keeps (execCellVadd c int d a b s) s := by
  simp [execCellVadd]

theorem execCellVsub_keeps (c : CellId) (int : Bool) (d a b : CellReg) (s : State) : Keeps (execCellVsub c int d a b s) s := by
  simp [execCellVsub]

theorem execCellVmul_keeps (c : CellId) (int : Bool) (d a b : CellReg) (s : State) : Keeps (execCellVmul c int d a b s) s := by
  simp [execCellVmul]

theorem execCellVfma_keeps (c : CellId) (int : Bool) (d a b e : CellReg) (s : State) : Keeps (execCellVfma c int d a b e s) s := by
  simp [execCellVfma]

theorem execCellVmax_keeps (c : CellId) (int : Bool) (d a b : CellReg) (s : State) : Keeps (execCellVmax c int d a b s) s := by
  simp [execCellVmax]

theorem execCellVmin_keeps (c : CellId) (int : Bool) (d a b : CellReg) (s : State) : Keeps (execCellVmin c int d a b s) s := by
  simp [execCellVmin]

theorem execCellVbcast_keeps (c : CellId) (d a : CellReg) (s : State) : Keeps (execCellVbcast c d a s) s := by
  simp [execCellVbcast]

theorem execCellVred_keeps (c : CellId) (int : Bool) (d a : CellReg) (s : State) : Keeps (execCellVred c int d a s) s := by
  simp [execCellVred]

theorem execCellVld_keeps (c : CellId) (d a : CellReg) (imm : BitVec 14) (s : State) : Keeps (execCellVld c d a imm s) s := by
  simp [execCellVld]

theorem execCellVst_keeps (c : CellId) (d a : CellReg) (imm : BitVec 14) (s : State) : Keeps (execCellVst c d a imm s) s := by
  simp [execCellVst]

theorem execCellMclr_keeps (c : CellId) (t : TileId) (mode : BitVec 2) (shift : Byte) (s : State) : Keeps (execCellMclr c t mode shift s) s := by
  simp [execCellMclr]

theorem execCellMstep_keeps (c : CellId) (t : TileId) (va vb : CellReg) (asel : BitVec 4) (bsel : BitVec 2) (vec : Bool) (fmt : BitVec 3) (s : State) : Keeps (execCellMstep c t va vb asel bsel vec fmt s) s := by
  simp [execCellMstep]

theorem execCellMrd_keeps (c : CellId) (t : TileId) (vd : CellReg) (target : BitVec 3) (sat clr : Bool) (row : BitVec 2) (rowmode : Bool) (q : BitVec 2) (shift : BitVec 7) (s : State) : Keeps (execCellMrd c t vd target sat clr row rowmode q shift s) s := by
  exact State.onCell_kept _ _ _ _ _ (fun r x t => by dsimp only; split <;> simp)

theorem execCellMstat_keeps (c : CellId) (t : TileId) (d : CellReg) (s : State) : Keeps (execCellMstat c t d s) s := by
  simp [execCellMstat]

theorem execCellSend_keeps (c : CellId) (a : CellReg) (s : State) : Keeps (execCellSend c a s) s := by
  simp [execCellSend]

theorem execCellSendw_keeps (c : CellId) (a : CellReg) (s : State) : Keeps (execCellSendw c a s) s := by
  simp [execCellSendw]

theorem execCellRecv_keeps (c : CellId) (d : CellReg) (s : State) : Keeps (execCellRecv c d s) s := by
  simp [execCellRecv]

theorem execCellRqlen_keeps (c : CellId) (d : CellReg) (s : State) : Keeps (execCellRqlen c d s) s := by
  simp [execCellRqlen]

theorem execCellBput_keeps (c : CellId) (a b : CellReg) (tag : BitVec 6) (len : Byte) (s : State) : Keeps (execCellBput c a b tag len s) s := by
  simp [execCellBput]

theorem execCellBget_keeps (c : CellId) (a b : CellReg) (tag : BitVec 6) (len : Byte) (s : State) : Keeps (execCellBget c a b tag len s) s := by
  simp [execCellBget]

theorem execCellBpost_keeps (c : CellId) (a b : CellReg) (tag : BitVec 6) (len : Byte) (s : State) : Keeps (execCellBpost c a b tag len s) s := by
  simp [execCellBpost]

theorem execCellBar_keeps (c : CellId) (ch : BitVec 6) (s : State) : Keeps (execCellBar c ch s) s := by
  exact State.onCell_kept _ _ _ _ _ (fun r x t => by split <;> simp)

theorem execCellFset_keeps (c : CellId) (f : Byte) (s : State) : Keeps (execCellFset c f s) s := by
  simp [execCellFset]

theorem execCellFclr_keeps (c : CellId) (f : Byte) (s : State) : Keeps (execCellFclr c f s) s := by
  simp [execCellFclr]

theorem execCellFrd_keeps (c : CellId) (d : CellReg) (f : Byte) (s : State) : Keeps (execCellFrd c d f s) s := by
  simp [execCellFrd]

theorem execCellFwait_keeps (c : CellId) (f : Byte) (v : Bool) (s : State) : Keeps (execCellFwait c f v s) s := by
  simp [execCellFwait]

theorem execCellNop_keeps (c : CellId) (s : State) : Keeps (execCellNop c s) s := by
  simp [execCellNop]

theorem execCellEnd_keeps (c : CellId) (s : State) : Keeps (execCellEnd c s) s := by
  simp [execCellEnd]

theorem execCellCsrr_keeps (c : CellId) (d : CellReg) (k : BitVec 14) (s : State) : Keeps (execCellCsrr c d k s) s := by
  exact State.onCell_kept _ _ _ _ _ (fun r x t => by split <;> simp)

theorem execCellPlumb_keeps (c : CellId) (d : CellReg) (s : State) : Keeps (execCellPlumb c d s) s := by
  unfold execCellPlumb
  refine State.onCell_kept _ _ _ _ _ (fun r x t => ?_)
  dsimp only
  all_goals simp_all

theorem execBridleEnd_keeps (h : HalfId) (l : Fin 16) (s : State) : Keeps (execBridleEnd h l s) s := by
  simp [execBridleEnd]

theorem execBridleLd_keeps (h : HalfId) (l : Fin 16) (d : LaneReg) (sel : BitVec 24) (s : State) : Keeps (execBridleLd h l d sel s) s := by
  simp [execBridleLd]

theorem execBridleLi_keeps (h : HalfId) (l : Fin 16) (d : LaneReg) (imm : Word) (s : State) : Keeps (execBridleLi h l d imm s) s := by
  simp [execBridleLi]

theorem execBridleFadd_keeps (h : HalfId) (l : Fin 16) (d a b : LaneReg) (s : State) : Keeps (execBridleFadd h l d a b s) s := by
  simp [execBridleFadd]

theorem execBridleFmul_keeps (h : HalfId) (l : Fin 16) (d a b : LaneReg) (s : State) : Keeps (execBridleFmul h l d a b s) s := by
  simp [execBridleFmul]

theorem execBridleFmax_keeps (h : HalfId) (l : Fin 16) (d a b : LaneReg) (s : State) : Keeps (execBridleFmax h l d a b s) s := by
  simp [execBridleFmax]

theorem execBridleFmin_keeps (h : HalfId) (l : Fin 16) (d a b : LaneReg) (s : State) : Keeps (execBridleFmin h l d a b s) s := by
  simp [execBridleFmin]

theorem execBridleAnd_keeps (h : HalfId) (l : Fin 16) (d a b : LaneReg) (s : State) : Keeps (execBridleAnd h l d a b s) s := by
  simp [execBridleAnd]

theorem execBridleOr_keeps (h : HalfId) (l : Fin 16) (d a b : LaneReg) (s : State) : Keeps (execBridleOr h l d a b s) s := by
  simp [execBridleOr]

theorem execBridleAdd_keeps (h : HalfId) (l : Fin 16) (d a b : LaneReg) (s : State) : Keeps (execBridleAdd h l d a b s) s := by
  simp [execBridleAdd]

theorem execBridleBflt_keeps (h : HalfId) (l : Fin 16) (a b : LaneReg) (k : Nat) (s : State) : Keeps (execBridleBflt h l a b k s) s := by
  simp [execBridleBflt]

theorem execBridleBfge_keeps (h : HalfId) (l : Fin 16) (a b : LaneReg) (k : Nat) (s : State) : Keeps (execBridleBfge h l a b k s) s := by
  simp [execBridleBfge]

theorem execBridleBnan_keeps (h : HalfId) (l : Fin 16) (a : LaneReg) (k : Nat) (s : State) : Keeps (execBridleBnan h l a k s) s := by
  simp [execBridleBnan]

theorem execBridleBeq_keeps (h : HalfId) (l : Fin 16) (a b : LaneReg) (k : Nat) (s : State) : Keeps (execBridleBeq h l a b k s) s := by
  simp [execBridleBeq]

theorem execBridleBne_keeps (h : HalfId) (l : Fin 16) (a b : LaneReg) (k : Nat) (s : State) : Keeps (execBridleBne h l a b k s) s := by
  simp [execBridleBne]

theorem execBridleBltu_keeps (h : HalfId) (l : Fin 16) (a b : LaneReg) (k : Nat) (s : State) : Keeps (execBridleBltu h l a b k s) s := by
  simp [execBridleBltu]

theorem execBridleBgeu_keeps (h : HalfId) (l : Fin 16) (a b : LaneReg) (k : Nat) (s : State) : Keeps (execBridleBgeu h l a b k s) s := by
  simp [execBridleBgeu]

theorem execBridleBbit_keeps (h : HalfId) (l : Fin 16) (a : LaneReg) (bit : BitVec 5) (k : Nat) (s : State) : Keeps (execBridleBbit h l a bit k s) s := by
  simp [execBridleBbit]

theorem execBridleHold_keeps (h : HalfId) (l : Fin 16) (span : BitVec 10) (disp : BitVec 2) (s : State) : Keeps (execBridleHold h l span disp s) s := by
  simp [execBridleHold]

theorem execBridleRedact_keeps (h : HalfId) (l : Fin 16) (a b : LaneReg) (s : State) : Keeps (execBridleRedact h l a b s) s := by
  simp [execBridleRedact]

theorem execBridleRewind_keeps (h : HalfId) (l : Fin 16) (n : Nat) (s : State) : Keeps (execBridleRewind h l n s) s := by
  simp [execBridleRewind]

theorem execBridleHalt_keeps (h : HalfId) (l : Fin 16) (s : State) : Keeps (execBridleHalt h l s) s := by
  simp [execBridleHalt]

theorem execBridleBias_keeps (h : HalfId) (l : Fin 16) (a : LaneReg) (vector : Half) (s : State) : Keeps (execBridleBias h l a vector s) s := by
  simp [execBridleBias]

theorem execBridleTag_keeps (h : HalfId) (l : Fin 16) (tag : Half) (s : State) : Keeps (execBridleTag h l tag s) s := by
  simp [execBridleTag]

theorem execCellHardFault_keeps (c : CellId) (s : State) : Keeps (execCellHardFault c s) s := by
  simp [execCellHardFault]

theorem execCellReloadComplete_keeps (c : CellId) (s : State) : Keeps (execCellReloadComplete c s) s := by
  simp [execCellReloadComplete]

theorem execBenchRouterFail_keeps (b : Byte) (s : State) : Keeps (execBenchRouterFail b s) s := by
  simp [execBenchRouterFail]

theorem execEngineHardFault_keeps (h : HalfId) (e : Fin 7) (u : Option (Fin 8)) (s : State) : Keeps (execEngineHardFault h e u s) s := by
  simp [execEngineHardFault]

theorem execWeltGroupRetire_keeps (d : Bool) (g : Fin 64) (s : State) : Keeps (execWeltGroupRetire d g s) s := by
  simp [execWeltGroupRetire]

theorem execWeltSpareTakeover_keeps (d : Bool) (s : State) : Keeps (execWeltSpareTakeover d s) s := by
  simp [execWeltSpareTakeover]

theorem execPatrolScrub_keeps (m : MemLoc) (w : BitVec 80) (s : State) : Keeps (execPatrolScrub m w s) s := by
  simp [execPatrolScrub]

theorem execMemRepair_keeps (s : State) : Keeps (execMemRepair s) s := by
  simp [execMemRepair]

theorem execCellImageRewrite_keeps (c : CellId) (addr : Nat) (s : State) : Keeps (execCellImageRewrite c addr s) s := by
  simp [execCellImageRewrite]

theorem execPacketDelineation_keeps (k : LinkId) (hdr : BitVec 128) (s : State) : Keeps (execPacketDelineation k hdr s) s := by
  simp [execPacketDelineation]

theorem execDetokenizerContributionReady_keeps (k : SlotId) (s : State) : Keeps (execDetokenizerContributionReady k s) s := by
  simp [execDetokenizerContributionReady]

theorem execSamplerStepDone_keeps (k : SlotId) (s : State) : Keeps (execSamplerStepDone k s) s := by
  simp [execSamplerStepDone]

theorem execIngressContributionCutoff_keeps (s : State) : Keeps (execIngressContributionCutoff s) s := by
  simp [execIngressContributionCutoff]

theorem execMboxSubmit_keeps (p : MPort) (bits : Word) (s : State) : Keeps (execMboxSubmit p bits s) s := by
  simp [execMboxSubmit]

theorem execRepairSemaphoreRelease_keeps (s : State) : Keeps (execRepairSemaphoreRelease s) s := by
  simp [execRepairSemaphoreRelease]

theorem execPlaneResetComplete_keeps (s : State) : Keeps (execPlaneResetComplete s) s := by
  simp [execPlaneResetComplete]

end Sys2Proof.Machine
end

