-- ==== Sys2Proof/Laws/Streams.lean ====
section
/-! SUPPORT. What the shared operations on one stream's work can do to the stream. -/

namespace Sys2Proof.Machine

@[simp] theorem Work.put_st (w : Work) (o) : (w.put o).st = w.st := rfl
@[simp] theorem Work.put_env (w : Work) (o) : (w.put o).env = w.env := rfl
@[simp] theorem Work.effect_st (w : Work) (es) : (w.effect es).st = w.st := rfl
@[simp] theorem Work.effect_env (w : Work) (es) : (w.effect es).env = w.env := rfl
@[simp] theorem Work.glob_st (w : Work) (a b c n) : (w.glob a b c n).st = w.st := by unfold Work.glob; split <;> rfl
@[simp] theorem Work.glob_env (w : Work) (a b c n) : (w.glob a b c n).env = w.env := by unfold Work.glob; split <;> rfl
@[simp] theorem Work.egressNote_st (w : Work) (a b) : (w.egressNote a b).st = w.st := rfl
@[simp] theorem Work.egressNote_env (w : Work) (a b) : (w.egressNote a b).env = w.env := rfl
@[simp] theorem Work.record_st (w : Work) (a b c d e f) : (w.record a b c d e f).st = w.st := rfl
@[simp] theorem Work.record_env (w : Work) (a b c d e f) : (w.record a b c d e f).env = w.env := rfl
@[simp] theorem Work.word_env (w : Work) (i n) : (w.word i n).env = w.env := by
  unfold Work.word
  dsimp only
  repeat' split
  all_goals rfl

/-- A counter word changes nothing else of the stream. -/
theorem Work.word_st (w : Work) (i n) : ∃ c, (w.word i n).st = { w.st with counters := c } := by
  unfold Work.word; dsimp only; repeat' split
  · exact ⟨w.st.counters, rfl⟩
  · exact ⟨_, rfl⟩
  · exact ⟨_, rfl⟩
/-- An audit record changes nothing else of the stream. -/
theorem Work.audit_st (w : Work) (r) : ∃ d, (w.audit r).st = { w.st with audit := d } := by
  unfold Work.audit
  dsimp only
  repeat' split
  all_goals exact ⟨_, Work.glob_st _ _ _ _ _⟩
@[simp] theorem Work.audit_env (w : Work) (r) : (w.audit r).env = w.env := by
  unfold Work.audit
  dsimp only
  repeat' split
  all_goals exact Work.glob_env _ _ _ _ _
@[simp] theorem Work.commandRecord_env (w : Work) (c) : (w.commandRecord c).env = w.env := Work.audit_env _ _
theorem Work.commandRecord_st (w : Work) (c) : ∃ d, (w.commandRecord c).st = { w.st with audit := d } := Work.audit_st _ _
/-- What every boundary does to the stream, R78. -/
theorem Work.atBoundary_st (w : Work) : ∃ c g n b, w.atBoundary.st = { w.st with
    boundary := w.env.now, owed := [], counters := c, seen := n, grammar := g, inp := { w.st.inp with seen := b } } ∧ w.atBoundary.env = w.env := by
  unfold Work.atBoundary
  dsimp only
  generalize hx : (⟨w.env, _, w.outs⟩ : Work) = x
  have hg : ∀ (l : List (Nat × Nat)) (v : Work), ∃ c, (l.foldl (fun v e => v.word e.1 e.2) v).st = { v.st with counters := c } ∧ (l.foldl (fun v e => v.word e.1 e.2) v).env = v.env := by
    intro l
    induction l with
    | nil => exact fun v => ⟨v.st.counters, rfl, rfl⟩
    | cons a l ih =>
      intro v
      obtain ⟨c, h1, h2⟩ := ih (v.word a.1 a.2)
      obtain ⟨d, h3⟩ := v.word_st a.1 a.2
      exact ⟨c, by simp only [List.foldl_cons, h1, h3], by simp only [List.foldl_cons, h2, Work.word_env]⟩
  obtain ⟨c, h1, h2⟩ := hg w.st.owed x
  subst hx
  exact ⟨c, _, _, _, by rw [h1], h2⟩
@[simp] theorem Work.atBoundary_env (w : Work) : w.atBoundary.env = w.env := by obtain ⟨_, _, _, _, _, h⟩ := w.atBoundary_st; exact h
@[simp] theorem Work.sendText_env (w : Work) (a b) : (w.sendText a b).env = w.env := by
  unfold Work.sendText
  simp only [Work.glob_env, Work.word_env]
  generalize List.range _ = l
  have : ∀ v : Work, (l.foldl (fun (v : Work) i => v.record 0 (a + 224 * i) 0 (v.st.tokenAt (a + 224 * i)) [] (v.st.text.bytes (a + 224 * i) (min (a + b) (a + 224 * i + 224)))) v).env = v.env := by
    induction l with
    | nil => intro v; rfl
    | cons x l ih => intro v; simp [List.foldl_cons, ih]
  exact this w
/-- Sent text changes only the counters of the stream. -/
theorem Work.sendText_st (w : Work) (a b) : ∃ c, (w.sendText a b).st = { w.st with counters := c } := by
  unfold Work.sendText
  simp only [Work.glob_st]
  generalize List.range _ = l
  have : ∀ v : Work, (l.foldl (fun (v : Work) i => v.record 0 (a + 224 * i) 0 (v.st.tokenAt (a + 224 * i)) [] (v.st.text.bytes (a + 224 * i) (min (a + b) (a + 224 * i + 224)))) v).st = v.st := by
    induction l with
    | nil => intro v; rfl
    | cons x l ih => intro v; simp [List.foldl_cons, ih]
  have hw := this w
  obtain ⟨c, hc⟩ := (List.foldl (fun (v : Work) i => v.record 0 (a + 224 * i) 0 (v.st.tokenAt (a + 224 * i)) [] (v.st.text.bytes (a + 224 * i) (min (a + b) (a + 224 * i + 224)))) w l).word_st 1 b
  exact ⟨c, by rw [hc, hw]⟩
@[simp] theorem Work.sendRedacted_env (w : Work) (a b) : (w.sendRedacted a b).env = w.env := rfl
@[simp] theorem Work.sendRedacted_st (w : Work) (a b) : (w.sendRedacted a b).st = w.st := rfl
/-- Release moves the release position, the rewind mark and the redacted spans, and counts. -/
theorem Work.releaseTo_st (w : Work) (hi) : ∃ c r m d, (w.releaseTo hi).st = { w.st with counters := c, textRelease := r, rewindMark := m, redacted := d } ∧
    (w.releaseTo hi).env = w.env := by
  unfold Work.releaseTo
  dsimp only
  split
  · exact ⟨w.st.counters, w.st.textRelease, w.st.rewindMark, w.st.redacted, rfl, rfl⟩
  · generalize runsOf _ _ _ = l
    have : ∀ v : Work, ∃ c, (l.foldl (fun (v : Work) r => if r.1 then v.sendRedacted r.2.1 r.2.2 else v.sendText r.2.1 r.2.2) v).st = { v.st with counters := c } ∧
        (l.foldl (fun (v : Work) r => if r.1 then v.sendRedacted r.2.1 r.2.2 else v.sendText r.2.1 r.2.2) v).env = v.env := by
      induction l with
      | nil => exact fun v => ⟨v.st.counters, rfl, rfl⟩
      | cons x l ih =>
        intro v
        simp only [List.foldl_cons]
        by_cases hx : x.1 = true
        · simp only [hx, if_true]
          obtain ⟨c, h1, h2⟩ := ih (v.sendRedacted x.2.1 x.2.2)
          exact ⟨c, h1, h2⟩
        · simp only [hx, if_false]
          obtain ⟨c, h1, h2⟩ := ih (v.sendText x.2.1 x.2.2)
          obtain ⟨d, h3⟩ := v.sendText_st x.2.1 x.2.2
          exact ⟨c, by simp [h1, h3], by simp [h2]⟩
    obtain ⟨c, h1, h2⟩ := this w
    generalize List.foldl _ w l = v at h1 h2 ⊢
    obtain ⟨e, st, o⟩ := v
    dsimp only at h1 h2
    subst h1
    exact ⟨c, _, _, _, rfl, h2⟩
theorem Work.release_st (w : Work) : ∃ i c r m d, w.release.st = { w.st with releaseIndex := i, counters := c, textRelease := r, rewindMark := m, redacted := d } ∧
    w.release.env = w.env := by
  unfold Work.release
  dsimp only
  generalize hx : ({ env := w.env, st := _, outs := w.outs } : Work) = x
  obtain ⟨c, r, m, d, h1, h2⟩ := x.releaseTo_st x.st.releaseLimit
  subst hx
  exact ⟨_, c, r, m, d, h1, h2⟩
theorem Work.sendEnd_st (w : Work) (f) : ∃ b, (w.sendEnd f).st = { w.st with endSent := b } ∧ (w.sendEnd f).env = w.env := by
  unfold Work.sendEnd
  dsimp only
  split
  · exact ⟨w.st.endSent, rfl, rfl⟩
  · exact ⟨true, rfl, rfl⟩
theorem Work.redactRange_st (w : Work) (lo hi) : ∃ c r d, (w.redactRange lo hi).st = { w.st with counters := c, ring := r, redacted := d } ∧ (w.redactRange lo hi).env = w.env := by
  unfold Work.redactRange
  dsimp only
  split
  · exact ⟨w.st.counters, w.st.ring, w.st.redacted, rfl, rfl⟩
  · generalize hx : ({ env := w.env, st := _, outs := w.outs } : Work) = x
    obtain ⟨c, h⟩ := x.word_st 2 (List.filter (fun i => !w.st.isRedacted (lo + i)) (List.range (hi - lo))).length
    refine ⟨c, ?_⟩
    subst hx
    exact ⟨_, _, (Work.glob_st _ _ _ _ _).trans h, (Work.glob_env _ _ _ _ _).trans (Work.word_env _ _ _)⟩
theorem Work.dispose_st (w : Work) (n) : ∃ i c r m d g a, (w.dispose n).1.st = { w.st with releaseIndex := i, counters := c, textRelease := r, rewindMark := m, redacted := d, ring := g, holdActive := a } ∧
    (w.dispose n).1.env = w.env := by
  unfold Work.dispose
  dsimp only
  generalize (if (w.egressNote 6 n).st.holdActive = true then _ else _) = disp
  by_cases h1 : disp = 1
  · simp only [h1, if_true]
    obtain ⟨c, r, d, h2, h3⟩ := (w.egressNote 6 n).redactRange_st w.st.textRelease w.st.endPos
    simp only [Work.egressNote_st] at *
    generalize (w.egressNote 6 n).redactRange w.st.textRelease w.st.endPos = y at h2 h3 ⊢
    obtain ⟨e, st, o⟩ := y
    dsimp only at h2 h3 ⊢
    subst h2 h3
    generalize hx : (Work.mk _ _ o : Work) = x
    obtain ⟨c2, r2, m2, d2, h4, h5⟩ := x.releaseTo_st w.st.endPos
    subst hx
    exact ⟨_, c2, r2, m2, d2, _, _, h4, h5⟩
  · simp only [h1, if_false]
    split
    · exact ⟨_, w.st.counters, w.st.textRelease, w.st.rewindMark, w.st.redacted, w.st.ring, _, rfl, rfl⟩
    · exact ⟨w.st.releaseIndex, w.st.counters, w.st.textRelease, w.st.rewindMark, w.st.redacted, w.st.ring, w.st.holdActive, rfl, rfl⟩

/-- A close: its boundary, the CLOSE record, and the state CLOSED with its tick (R73). -/
theorem Work.close_st (w : Work) : ∃ c g n b d, w.close.st = { w.st with
    state := .closed, closedAt := w.env.now, boundary := w.env.now, owed := [], counters := c, seen := n, grammar := g,
    workGrammar := g, inp := { w.st.inp with seen := b }, audit := d } ∧ w.close.env = w.env := by
  unfold Work.close
  obtain ⟨c, g, n, b, h, e⟩ := w.atBoundary_st
  generalize w.atBoundary = v at h e ⊢
  obtain ⟨ev, st, o⟩ := v
  dsimp only at h e ⊢
  subst h e
  simp only [Work.put_st, Work.put_env]
  generalize hx : (Work.mk _ _ o : Work) = x
  obtain ⟨c2, h2⟩ := x.word_st 8 x.env.buffered
  have e2 := x.word_env 8 x.env.buffered
  subst hx
  dsimp only at h2 e2 ⊢
  generalize (Work.word _ 8 _ : Work) = y at h2 e2 ⊢
  obtain ⟨ey, sy, oy⟩ := y
  dsimp only at h2 e2 ⊢
  subst h2 e2
  generalize hz : (Work.put _ Out.purge : Work) = z
  obtain ⟨d, h3⟩ := z.audit_st { kind := 5, subject := z.st.stopReason, epoch := z.st.epoch }
  have e3 := z.audit_env { kind := 5, subject := z.st.stopReason, epoch := z.st.epoch }
  subst hz
  exact ⟨_, _, _, _, _, h3, e3⟩

/-- The halt of a stream that has not ended: what is in flight is discarded, and the stop reason is set once (R73, R75, R337). -/
theorem Work.halt_st (w : Work) (r : Nat) (hw : w.st.ended = false) : ∃ c g n b i l e, (w.halt r).st = { w.st with
    state := .halted, stopReason := if w.st.stopReason = 0 then r else w.st.stopReason, boundary := w.env.now, owed := [],
    counters := c, seen := n, grammar := g, workGrammar := g, writeIndex := i, ring := l, endSent := e,
    tokens := w.st.tokens.map (fun t => { t with discarded := true }),
    inp := { w.st.inp with seen := b, verdicts := [],
                           chunks := w.st.inp.chunks.map (fun c => if c.released then c else { c with void := true }) } } ∧
    (w.halt r).env = w.env := by
  unfold Work.halt
  simp only [hw, Bool.false_eq_true, if_false]
  obtain ⟨c, g, n, b, h, e⟩ := w.atBoundary_st
  generalize w.atBoundary = v at h e ⊢
  obtain ⟨ev, st, o⟩ := v
  dsimp only at h e ⊢
  subst h e
  generalize hx : (Work.put _ Out.dropItems : Work) = x
  obtain ⟨e2, h2, h3⟩ := x.sendEnd_st (Stream.endIndex _)
  exact ⟨_, _, _, _, _, _, e2, by rw [h2, ← hx]; rfl, by rw [h3, ← hx]; rfl⟩

/-- A halt of a stream that has ended does nothing (R73). -/
theorem Work.halt_ended (w : Work) (r : Nat) (hw : w.st.ended = true) : w.halt r = w := by
  unfold Work.halt
  simp only [hw, if_true]

/-- The stream without what the end of a boundary, a halt, a close or an abort can write: what is left is what they keep. -/
def Stream.core (st : Stream) : Stream :=
  { st with
    state := .live, stopReason := 0, boundary := 0, ingressReceived := false, ingressLate := false, ingressApplied := false,
    writeIndex := 0, releaseIndex := 0, rewindMark := 0, holdActive := false, textRelease := 0, text := {}, work := {}, ring := [],
    redacted := [], seen := st.sampling, grammar := {}, workGrammar := {}, counters := [], owed := [], tokens := [], audit := [],
    endSent := false, closedAt := 0, inp := {} }

@[simp] theorem Work.word_core (w : Work) (i n) : (w.word i n).st.core = w.st.core := by
  obtain ⟨_, h⟩ := w.word_st i n; rw [h]; rfl
@[simp] theorem Work.audit_core (w : Work) (r) : (w.audit r).st.core = w.st.core := by
  obtain ⟨_, h⟩ := w.audit_st r; rw [h]; rfl
@[simp] theorem Work.commandRecord_core (w : Work) (c) : (w.commandRecord c).st.core = w.st.core := Work.audit_core _ _
@[simp] theorem Work.atBoundary_core (w : Work) : w.atBoundary.st.core = w.st.core := by
  obtain ⟨_, _, _, _, h, _⟩ := w.atBoundary_st; rw [h]; rfl
@[simp] theorem Work.releaseTo_core (w : Work) (n) : (w.releaseTo n).st.core = w.st.core := by
  obtain ⟨_, _, _, _, h, _⟩ := w.releaseTo_st n; rw [h]; rfl
@[simp] theorem Work.releaseTo_env (w : Work) (n) : (w.releaseTo n).env = w.env := by
  obtain ⟨_, _, _, _, _, h⟩ := w.releaseTo_st n; exact h
@[simp] theorem Work.release_core (w : Work) : w.release.st.core = w.st.core := by
  obtain ⟨_, _, _, _, _, h, _⟩ := w.release_st; rw [h]; rfl
@[simp] theorem Work.release_env (w : Work) : w.release.env = w.env := by
  obtain ⟨_, _, _, _, _, _, h⟩ := w.release_st; exact h
@[simp] theorem Work.sendEnd_core (w : Work) (n) : (w.sendEnd n).st.core = w.st.core := by
  obtain ⟨_, h, _⟩ := w.sendEnd_st n; rw [h]; rfl
@[simp] theorem Work.sendEnd_env (w : Work) (n) : (w.sendEnd n).env = w.env := by
  obtain ⟨_, _, h⟩ := w.sendEnd_st n; exact h
@[simp] theorem Work.dispose_core (w : Work) (n) : (w.dispose n).1.st.core = w.st.core := by
  obtain ⟨_, _, _, _, _, _, _, h, _⟩ := w.dispose_st n; rw [h]; rfl
@[simp] theorem Work.dispose_env (w : Work) (n) : (w.dispose n).1.env = w.env := by
  obtain ⟨_, _, _, _, _, _, _, _, h⟩ := w.dispose_st n; exact h
@[simp] theorem Stream.clearSlots_core (st : Stream) (l) : (st.clearSlots l).core = st.core := rfl

/-- The carry of a DRAINING stream changes its text and its last entry, and counts (R132). -/
theorem Work.flushCarry_st (w : Work) : ∃ c t k g, w.flushCarry.st = { w.st with counters := c, text := t, work := k, ring := g } ∧
    w.flushCarry.env = w.env := by
  unfold Work.flushCarry
  dsimp only
  split
  · exact ⟨w.st.counters, w.st.text, w.st.work, w.st.ring, rfl, rfl⟩
  · generalize hx : (Work.mk w.env _ w.outs : Work) = x
    obtain ⟨c, h⟩ := x.word_st 3 1
    simp only [Work.effect_st, Work.glob_st, Work.effect_env, Work.glob_env, Work.word_env]
    subst hx
    exact ⟨c, _, _, _, h, rfl⟩
@[simp] theorem Work.flushCarry_core (w : Work) : w.flushCarry.st.core = w.st.core := by
  obtain ⟨_, _, _, _, h, _⟩ := w.flushCarry_st; rw [h]; rfl
@[simp] theorem Work.flushCarry_env (w : Work) : w.flushCarry.env = w.env := by
  obtain ⟨_, _, _, _, _, h⟩ := w.flushCarry_st; exact h
/-- The ingress verdict changes only its three flags (R85). -/
theorem Work.applyIngress_st (w : Work) : ∃ a b c, w.applyIngress.1.st = { w.st with ingressApplied := a, ingressReceived := b, ingressLate := c } ∧
    w.applyIngress.1.env = w.env := by
  unfold Work.applyIngress
  dsimp only
  repeat' split
  · exact ⟨w.st.ingressApplied, w.st.ingressReceived, w.st.ingressLate, rfl, rfl⟩
  · exact ⟨true, _, _, rfl, rfl⟩
  · exact ⟨w.st.ingressApplied, w.st.ingressReceived, w.st.ingressLate, rfl, rfl⟩
@[simp] theorem Work.applyIngress_core (w : Work) : w.applyIngress.1.st.core = w.st.core := by
  obtain ⟨_, _, _, h, _⟩ := w.applyIngress_st; rw [h]; rfl
@[simp] theorem Work.applyIngress_env (w : Work) : w.applyIngress.1.env = w.env := by
  obtain ⟨_, _, _, _, h⟩ := w.applyIngress_st; exact h
@[simp] theorem Work.drainEnd_core (w : Work) (n) : (w.drainEnd n).1.st.core = w.st.core := by
  unfold Work.drainEnd
  repeat' split
  all_goals simp
@[simp] theorem Work.drainEnd_env (w : Work) (n) : (w.drainEnd n).1.env = w.env := by
  unfold Work.drainEnd
  repeat' split
  all_goals simp
@[simp] theorem Work.drain_core (w : Work) (r) : (w.drain r).st.core = w.st.core := by
  unfold Work.drain; split <;> rfl
@[simp] theorem Work.drain_env (w : Work) (r) : (w.drain r).env = w.env := by
  unfold Work.drain; split <;> rfl
theorem Stream.core_releaseIndex (st : Stream) (n) : ({ st with releaseIndex := n } : Stream).core = st.core := rfl
theorem Stream.core_state (st : Stream) (x) : ({ st with state := x } : Stream).core = st.core := rfl
@[simp] theorem Work.finish_core (w : Work) (n) : (w.finish n).work.st.core = w.st.core ∧ (w.finish n).work.env = w.env := by
  unfold Work.finish
  dsimp only
  generalize hi : (if (w.st.draining && w.st.tokens.isEmpty) = true then w.applyIngress else (w, false)) = ing
  have h1 : ing.1.st.core = w.st.core ∧ ing.1.env = w.env := by
    subst hi; split <;> simp
  obtain ⟨v, b⟩ := ing
  dsimp only at h1 ⊢
  rw [← h1.1, ← h1.2]
  split
  · exact ⟨rfl, rfl⟩
  split
  · split
    · split
      · exact ⟨Work.drainEnd_core v n, Work.drainEnd_env v n⟩
      · refine ⟨?_, ?_⟩
        · rw [Work.sendEnd_core, Work.releaseTo_core]
          exact Work.drainEnd_core v n
        · rw [Work.sendEnd_env, Work.releaseTo_env]
          exact Work.drainEnd_env v n
    · split
      · exact ⟨Work.sendEnd_core _ _, Work.sendEnd_env _ _⟩
      · exact ⟨rfl, rfl⟩
  · split <;> exact ⟨rfl, rfl⟩
@[simp] theorem Work.halt_core (w : Work) (r) : (w.halt r).st.core = w.st.core ∧ (w.halt r).env = w.env := by
  unfold Work.halt
  dsimp only
  split
  · exact ⟨rfl, rfl⟩
  · refine ⟨?_, ?_⟩
    · simp only [Work.sendEnd_core, Work.put_st]
      exact (Work.atBoundary_core w)
    · simp
@[simp] theorem Work.close_core (w : Work) : w.close.st.core = w.st.core ∧ w.close.env = w.env := by
  unfold Work.close
  dsimp only
  refine ⟨?_, ?_⟩
  · simp only [Work.put_st, Work.audit_core, Work.word_core]
    exact Work.atBoundary_core w
  · simp
@[simp] theorem Work.closeHalted_core (w : Work) : w.closeHalted.st.core = w.st.core ∧ w.closeHalted.env = w.env := by
  unfold Work.closeHalted
  repeat' split
  all_goals first | exact w.close_core | exact ⟨rfl, rfl⟩
@[simp] theorem After.settle_core (a : After) : a.settle.st.core = a.work.st.core ∧ a.settle.env = a.work.env := by
  unfold After.settle
  repeat' split
  · exact ⟨((a.work.halt _).closeHalted_core).1.trans (a.work.halt_core _).1, ((a.work.halt _).closeHalted_core).2.trans (a.work.halt_core _).2⟩
  · exact a.work.close_core
  · exact a.work.closeHalted_core
@[simp] theorem After.settleCommand_core (a : After) (c) : (a.settleCommand c).st.core = a.work.st.core ∧ (a.settleCommand c).env = a.work.env := by
  unfold After.settleCommand
  have h := After.settle_core { a with work := a.work.commandRecord c }
  exact ⟨h.1.trans (Work.commandRecord_core _ _), h.2.trans (Work.commandRecord_env _ _)⟩
@[simp] theorem Work.drainAt_core (w : Work) (r) : (w.drainAt r).work.st.core = w.st.core ∧ (w.drainAt r).work.env = w.env := by
  unfold Work.drainAt
  dsimp only
  split
  · have h := (w.drain r).release.finish_core (w.drain r).st.lastIndex
    refine ⟨h.1.trans (by simp), h.2.trans (by simp)⟩
  · simp

end Sys2Proof.Machine
end

