-- ==== Sys2Proof/WellFormed.lean ====
section
/-! DEFINITION. Which commands are well formed: operand lists of the lengths the ports carry, and fields inside the ranges
their layouts give. `exec` is total and does not depend on these checks. -/

namespace Sys2Proof

/-- A bridle branch offset: 1 to 4,095 (R329, R330). -/
def branchOk (k : Nat) : Bool := decide (1 ≤ k) && decide (k ≤ 4095)

/-- The checks on each command's operands. -/
def Instr.wellFormed : Instr → Bool
  | .thermalSensorRead t => decide (t.length = 21)
  | .coldResetRelease s => decide (s.keyHash.length = 48)
  | .queueItemWrite _ item => decide (item.length = 64)
  | .registerWrite b _ data =>
    match b with
    | .mgtb => decide (data.length = 4)
    | _ => decide (data.length = 4) || decide (data.length = 8) || decide (data.length = 64)
  | .linkPacketReceive _ w at16 =>
    decide (w.pkt.payload.length = 64 * w.pkt.hdr.length.toNat) && decide (at16 < 16)
  | .hostPacketReceive _ w => decide (w.pkt.payload.length % 64 = 0)
  | .linkOutputSelect _ at16 => decide (at16 < 16)
  | .bridleBflt _ _ _ _ k => branchOk k
  | .bridleBfge _ _ _ _ k => branchOk k
  | .bridleBnan _ _ _ k => branchOk k
  | .bridleBeq _ _ _ _ k => branchOk k
  | .bridleBne _ _ _ _ k => branchOk k
  | .bridleBltu _ _ _ _ k => branchOk k
  | .bridleBgeu _ _ _ _ k => branchOk k
  | .bridleBbit _ _ _ _ k => branchOk k
  | .bridleRewind _ _ n => decide (1 ≤ n) && decide (n ≤ 512)
  | .patrolScrub m _ => decide (m.addr % 8 = 0)
  | .cellImageRewrite _ addr => decide (addr % 8 = 0)
  | _ => true

end Sys2Proof
end

