-- ==== Sys2Proof/Tests/Slice0.lean ====
section
/-! SUPPORT. Tests: ill-formed terms that the checks refuse, worked examples of the manual, and for the statements the states
and operands that meet their hypotheses. -/

namespace Sys2Proof.Tests

open Sys2Proof Sys2Proof.Machine

set_option Elab.async false

/-! ### Fixtures -/

/-- A running gate: node 5, firmware up, keys locked, LOCKED at plumb 1,000,000. -/
def gate : State :=
  { State.reset with
    aon := { rstColdN := true, rstOutN := true, node := 5#12, nodeValid := true, sync := .locked, plumb := 1000000#64 }
    boot := { romReady := true, fwRunning := true, keysLocked := true } }

/-- A command body: fields of (size, value), zeros after. -/
def bodyOf (fs : List (Nat × Nat)) : List Byte := fs.flatMap (fun f => leBytes f.1 f.2)

/-- A slot handed over at tick 900,000 by port A's holder of semaphore 0, with a command and its body. -/
def handed (code : Nat) (body : List Byte) : MSlot :=
  { mem := Memory.setBytes [] 0 (leBytes 2 code ++ List.replicate 6 0#8 ++ leBytes 2 body.length ++ List.replicate 6 0#8 ++ body),
    owned := true, accept := 900000, owner0 := 1 }

/-- A state with a command in slot 0 of port A. -/
def withCmd (s : State) (code : Nat) (body : List Byte) : State := s.setSlot .a 0 (handed code body)

/-! ### Plumb, registers, semaphores and queues: hypotheses met -/

theorem witness_registerWrites :
    (gate.slot .a 31).owned = false ∧ 508 + 4 ≤ 512 ∧ 508 % 4 = 0 ∧
    (0x10000 + 512 * 31 + 508#32 : Word).toNat = 0x10000 + 512 * (31 : Fin 32).val + 508 ∧
    ((withCmd gate 0x0001 []).slot .a 0).owned = true ∧ (0x10001#32 : Word).toNat % 4 ≠ 0 ∧
    (0x10004 + 16 * 511#32 : Word).toNat = 0x10004 + 16 * (511 : QueueId).val := by
  decide +kernel

theorem witness_semaphoreRules :
    (gate.sem 31).owner = 0 ∧ ((gate.setSem 31 { owner := 3 }).sem 31).owner ≠ 0 ∧
    ((gate.setSem 31 { owner := 2 }).sem 31).owner = portOwner .b ∧ ((gate.setSem 31 { owner := 3 }).sem 31).owner < 4 ∧
    gate.latched 16 = false := by
  decide +kernel

/-- A gate that has written a packet of two items to queue 3. -/
def queued : State := gate.effects [.packet 3 0x0001#16 none [List.replicate 56 1#8, List.replicate 56 2#8]]
/-- `queued` with the packet's first item read. -/
def halfRead : State := (queued.takeItem 3).2
/-- A host-written queue 511. -/
def hostQueue (v : Queue) : State := gate.setQueue 511 { v with cfg := { v.cfg with hostWrites := true } }
/-- The item a host writes: first and last, or neither. -/
def hostItem (flags : Nat) : List Byte := padTo 64 (leBytes 8 (flags * 2 ^ 19))

theorem witness_queueReads :
    (gate.queue 511).items = [] ∧ (gate.queue 511).sequence < 2 ^ 32 ∧
    (gate.queue 3).current = none ∧ (halfRead.queue 3).current = some 0 ∧ (halfRead.latched 22 = false) ∧
    ((queued.queue 3).nextItem).any (fun i => decide (i.bad = none)) = true ∧
    ((halfRead.queue 3).nextItem).any (fun i => decide (i.bad = none)) = true ∧
    (gate.queue 511).cfg.hostWrites = false := by
  decide +kernel

theorem witness_queueWrites :
    (let s := hostQueue { gate.queue 511 with dropping := some 0 }
     (s.queue 511).cfg.hostWrites = true ∧ (s.queue 511).dropping = some 0 ∧ (ofLe ((hostItem 0).take 8)).testBit 19 = false) ∧
    (let s := hostQueue (gate.queue 511)
     (s.queue 511).cfg.hostWrites = true ∧ (s.queue 511).items.length < (s.queue 511).capacity ∧ (s.queue 511).dropping = none ∧
       (s.queue 511).ignoring = false ∧ (ofLe ((hostItem 3).take 8)).testBit 19 = true ∧ (s.queue 511).sequence < 2 ^ 32) := by
  decide +kernel

theorem witness_queueOther :
    (let i : Item := { ((queued.queue 3).nextItem).getD (queued.queue 3).read.1 with bad := some 7 }
     let s := queued.setQueue 3 { queued.queue 3 with items := [i] }
     (s.queue 3).nextItem = some i ∧ i.bad ≠ none) ∧
    (let s := hostQueue { gate.queue 511 with items := List.replicate (gate.queue 511).capacity (queued.queue 3).read.1 }
     (s.queue 511).cfg.hostWrites = true ∧ (s.queue 511).items.length = (s.queue 511).capacity ∧ (s.queue 511).dropping = none) ∧
    (let s := hostQueue { gate.queue 511 with ignoring := true }
     (s.queue 511).ignoring = true ∧ (s.queue 511).cfg.hostWrites = true) := by
  decide +kernel

theorem witness_mailboxSubmit :
    gate.served = true ∧ commandCodes.contains (gate.slot .a 0).code = false ∧ (1#32 : Word).getLsbD (0 : Fin 32).val = true ∧
    State.reset.served = false ∧ commandCodes.contains ((withCmd gate 0x0705 []).slot .a 0).code = true := by
  decide +kernel

/-! ### Mailbox commands: hypotheses met -/

/-- The state with a command whose body holds the fields. -/
def asked (s : State) (code : Nat) (fs : List (Nat × Nat)) : State := withCmd s code (bodyOf fs)
/-- Such a command can start. -/
def starts (s : State) (code minLen : Nat) (fs : List (Nat × Nat)) : Bool := decide ((asked s code fs).Ready .a 0 code minLen)
/-- The reset gate with the boot ROM serving. -/
def rom : State := { State.reset with aon := { gate.aon with keyHash := List.replicate 48 7#8 }, boot := { romReady := true } }

theorem witness_mailboxReads :
    starts gate 0x0001 0 [] ∧ starts rom 0x0001 0 [] ∧
    starts gate 0x0302 2 [(2, 376)] ∧ (asked gate 0x0302 [(2, 376)]).arg .a 0 0 2 = 376 ∧
    starts gate 0x0303 4 [(4, 688184)] ∧ (asked gate 0x0303 [(4, 688184)]).arg .a 0 0 4 + 8 = distanceBytes ∧
    starts gate 0x0305 2 [(2, 23)] ∧ (asked gate 0x0305 [(2, 23)]).arg .a 0 0 2 = 23 ∧
    starts gate 0x0603 2 [(2, 511)] ∧ (asked gate 0x0603 [(2, 511)]).arg .a 0 0 2 = (511 : QueueId).val := by
  decide +kernel

theorem witness_settings :
    starts gate 0x0122 4 [(1, 1), (1, 0), (2, 4095)] ∧ (asked gate 0x0122 [(1, 1), (1, 0), (2, 4095)]).arg .a 0 0 1 ≤ 1 ∧
    starts gate 0x0404 4 [(2, 0xFFFF), (2, 0xFFFF)] ∧
    starts gate 0x0402 4 [(1, 63), (1, 0), (2, 0x8000)] ∧
      (asked gate 0x0402 [(1, 63), (1, 0), (2, 0x8000)]).arg .a 0 0 1 = (63 : LinkId).val ∧
    starts gate 0x0502 2 [(2, 240)] ∧ (asked gate 0x0502 [(2, 240)]).arg .a 0 0 2 = 240 ∧
    starts gate 0x0503 2 [(1, 110), (1, 105)] ∧ (asked gate 0x0503 [(1, 110), (1, 105)]).arg .a 0 0 1 = 110 ∧
      (asked gate 0x0503 [(1, 110), (1, 105)]).arg .a 0 1 1 + 5 = 110 := by
  decide +kernel

/-- The gate as the master by command. -/
def master : State := { gate with aon := { gate.aon with master := true } }

theorem witness_roles :
    starts gate 0x0403 1 [(1, 1)] ∧ (asked gate 0x0403 [(1, 1)]).arg .a 0 0 1 = 1 ∧ gate.aon.master = false ∧
    starts master 0x0403 1 [(1, 0)] ∧ (asked master 0x0403 [(1, 0)]).arg .a 0 0 1 = 0 ∧ master.aon.master = true ∧
      master.aon.masterStrap = false ∧
    starts gate 0x0501 4 [(1, 1), (1, 0), (2, 200)] ∧ (asked gate 0x0501 [(1, 1), (1, 0), (2, 200)]).arg .a 0 0 1 = halfCode .south ∧
      legalClock ((asked gate 0x0501 [(1, 1), (1, 0), (2, 200)]).arg .a 0 2 2) ∧ gate.cast.armed = none ∧
    starts gate 0x0701 4 [(4, 0x54455352)] ∧ (asked gate 0x0701 [(4, 0x54455352)]).arg .a 0 0 4 = 0x54455352 := by
  decide +kernel

theorem witness_fwWrite :
    (let fs := [(4, 256 + 3145728 - 1), (2, 1), (2, 0), (1, 0xAA)]
     starts rom 0x0002 8 fs ∧ rom.boot.fwRunning = false ∧ (asked rom 0x0002 fs).arg .a 0 4 2 = 1 ∧
       8 + 1 ≤ ((asked rom 0x0002 fs).slot .a 0).bodyLen ∧ (asked rom 0x0002 fs).arg .a 0 0 4 + 1 = 256 + 3145728) ∧
    starts rom 0x0003 0 [] ∧ (asked rom 0x0003 []).longWaits < 48 ∧
    fwCheck rom.boot rom.aon.keyHash rom.aon.minSecurity = some Status.crossref ∧
    ({ rom with boot := { rom.boot with starting := some (.a, 0) } } : State).boot.starting = some (.a, 0) := by
  decide +kernel

theorem witness_operatorKeys :
    (let s : State := { gate with boot := { gate.boot with keysLocked := false } }
     starts s 0x0101 112 [(16, 7), (96, 5)] ∧ (asked s 0x0101 [(16, 7), (96, 5)]).arg .a 0 0 1 = 7 ∧ starts s 0x0102 0 [] ∧
       s.boot.keysLocked = false) ∧
    starts gate 0x0101 112 [(112, 0)] ∧ gate.boot.keysLocked = true := by
  decide +kernel

/-! ### Signatures -/

/-- A P-384 public key: twice the base point (R431: x ‖ y, most significant byte first). -/
def testKey : List Byte :=
  beBytes 48 0x8d999057ba3d2d969260045c55b97f089025959a6f434d651d207d19fb96e9e4fe0e86ebe0e64f85b96a9c75295df61
    ++ beBytes 48 0x8e80f1fa5b1b3cedb7bfe8dffd6dba74b275d875bc6cc43e904e505f256ab4255ffd43e94d39e22d61501e700a940e80

/-- The SHA-384 of `testKey`. -/
def testKeyHash : List Byte :=
  beBytes 48 0x728f0b1f7c8f999347dca33c1964cf745779012692830edc267075562dc31278439732d095ad7c6363eb54eb284bc8e4

/-- A firmware image of one body byte, line 5.3, for this VERSION, signed (R431). -/
def testImage : List Byte :=
  bodyOf [(4, 0x57464756), (2, 1), (2, 0), (4, 0x00050003), (4, 0), (4, 1), (4, 0x00020001), (4, 0x00020001), (36, 0)] ++ testKey
    ++ beBytes 48 p384G.1
    ++ beBytes 48 0x3cce63e13b4033fa10596a50beeda6b823cf2515dd014477d4df35e7daaf5476e733c874ba87db9507ff84dff4f2da92
    ++ [0#8]

theorem test_sha384_of_key : sha384 testKey = testKeyHash := by decide +kernel

theorem witness_fwStart :
    starts rom 0x0003 0 [] ∧ rom.boot.fwRunning = false ∧
    fwCheck { rom.boot with image := [(0, testImage)] } testKeyHash 0#32 = none := by
  decide +kernel

/-! ### A policy -/

/-- An entry of the latency manifest. -/
def entry (stage delay ready : Nat) : ManifestEntry :=
  { stage := stage, failOpen := false, crossesWelt := false, crossGate := false, contribution := decide (16 ≤ stage), roles := 3#8,
    delay := delay, readyBy := ready, edgeLatency := 0, edgeAlign := 0, sourceNode := 5#12, contributionId := 0 }

/-- A policy's tables with no engine's section: policy 9, of the role that needs none. -/
def baseTables : PolicyTables :=
  { resources := { magic := 0#32, format := 3, roles := 8#8, placedBytes := 0, weightBytes := 0, classBytes := 0, biasBytes := 0, cellCount := 0 }
    latency := { magic := 0#32, format := 3, policyId := 9#64, distanceId := Config.freshId 0,
                 capabilityId := BitVec.ofNat 64 (ofLe gate.capabilityId),
                 clockNorth := 800, clockSouth := 800, castWindow := 4800000, bridleRun := 512, entries := [] }
    routes := [], slots := { frameTicks := 4096, frameBase := 0, entries := [] }, groups := []
    queueTable := List.replicate 512 { spillOffset := 0, spillItems := 0, level := 16, hostWrites := false, priority := 4 }
    delivery := List.replicate 256 0#8
    role := { roles := 8#8, streamEventQueue := 3, linkEventQueue := 3, bestEffortClass := 1, weights := [], markBytes := [],
              ingressRoutes := [], ingressRouteDefault := (5#12, 0x10#8), contributionPort := 0xD2#8 }
    skiver := none, egress := none, awl := none, armature := none, callipers := none, sampler := none, bridle := none, judge := none
    images := [] }

/-- What a bundle's bytes leave open, for sections that have none. -/
def baseMap : SectionMap := { role := baseTables.role }

/-- It as the active policy, each section's digest 32 zero bytes. -/
def basePolicy : Policy :=
  { tables := baseTables, epoch := 1, instant := 500000, effective := 500000,
    sections := (List.range 8).map (fun i => { kind := i + 1, digest := List.replicate 32 0#8, placed := 0 }),
    placed := 0, windowed := false, cellSlot := false }

/-- The gate under a policy, its stores loaded. -/
def under (p : Policy) : State :=
  ({ gate with cast := { active := some p, epoch := p.epoch, defaultState := false } } : State).loadStores p.cellSlot p.tables

/-! ### Bundles and casts: hypotheses met -/

/-- A bundle of policy 9 that shares all sections with the active policy, signed by operator key 0. -/
def testBundle : List Byte :=
  bodyOf [(4, 0x4E424756), (2, 3), (2, 8), (8, 9), (8, 544), (40, 0)]
    ++ (List.range 8).flatMap (fun i => bodyOf [(2, i + 1), (2, 1), (44, 0)])
    ++ beBytes 48 p384G.1
    ++ beBytes 48 0x7af3c8372754bee8dd4a4687c877c0c5f0424e02bed0ce3058329b7561cb46709eebd1a75ab378c5b91d228a36417ee7

/-- The bundle written whole, and its staging begun. -/
def testWriting : Writing := { policyId := 9#64, totalBytes := 544, port := .a, chunks := [(0, testBundle)] }
def stagingState : State :=
  { under basePolicy with
    boot := { gate.boot with keys := [(0, testKey)] }
    cast := { (under basePolicy).cast with writing := some testWriting, staging := some (.a, 0) } }

theorem witness_stagingBytes : (stagingState.bundleBytes testWriting).2 = true ∧ (stagingState.bundleBytes testWriting).1 = testBundle ∧
    stagingState.cast.windowEnd = none := by
  decide +kernel

theorem witness_stagingFails :
    ({ stagingState with boot := gate.boot } : State).checkBundle testWriting testBundle true baseMap
      (assemble stagingState.cast.active testBundle baseMap) = some (1, 0xFFFF) ∧
    ({ stagingState with boot := { gate.boot with keysLocked := false } } : State).boot.keysLocked = false := by
  decide +kernel

theorem witness_stagingSignature : stagingState.checkSignature testBundle 544 = none := by decide +kernel
theorem witness_stagingForm : stagingState.checkForm testWriting testBundle true = none := by decide +kernel
theorem witness_stagingContents :
    stagingState.checkContents testBundle baseMap (assemble stagingState.cast.active testBundle baseMap) = none := by
  decide +kernel
theorem witness_stagingFit :
    (stagingState.checkFit (directory testBundle) (assemble stagingState.cast.active testBundle baseMap)
      (sharedBytes stagingState.cast.active testBundle)).failing = none := by
  decide +kernel

theorem witness_stagingChecks :
    stagingState.checkBundle testWriting testBundle true baseMap (assemble stagingState.cast.active testBundle baseMap) = none := by
  unfold State.checkBundle
  rw [show testWriting.totalBytes = 544 from rfl, witness_stagingSignature, witness_stagingForm, witness_stagingContents]

theorem witness_stagingLatency :
    stagingState.latencyProven (assemble stagingState.cast.active testBundle baseMap)
      (sectionRecords stagingState.cast.active testBundle baseMap (assemble stagingState.cast.active testBundle baseMap)) = true := by
  unfold State.latencyProven
  simp only [Bool.and_eq_true, decide_eq_true_eq]
  refine ⟨⟨⟨⟨⟨⟨⟨⟨⟨⟨⟨?_, ?_⟩, ?_⟩, ?_⟩, ?_⟩, ?_⟩, ?_⟩, ?_⟩, ?_⟩, ?_⟩, ?_⟩, ?_⟩
  · have h : (assemble stagingState.cast.active testBundle baseMap).latency = baseTables.latency := by
      unfold assemble pickSection
      have : (directory testBundle).find? (fun d => decide (d.kind = 0x02)) = some ⟨1, 2, true, 0, 0, List.replicate 32 0#8⟩ := by
        decide +kernel
      simp only [this]
      rfl
    rw [h]
    rfl
  all_goals decide +kernel

theorem witness_bundleCommands :
    (let fs := [(8, regionBytes), (8, 9)]
     starts gate 0x0110 16 fs ∧ (asked gate 0x0110 fs).arg .a 0 0 8 = (asked gate 0x0110 fs).regionFree ∧ gate.cast.staged = none ∧
       gate.cast.writing = none ∧ gate.cast.retained = none) ∧
    (let fs := [(8, 320), (2, 224), (6, 0), (224, 0)]
     starts stagingState 0x0111 16 fs ∧ (asked stagingState 0x0111 fs).cast.writing = some testWriting ∧ testWriting.port = .a ∧
       (asked stagingState 0x0111 fs).arg .a 0 8 2 = 224 ∧ 16 + 224 ≤ ((asked stagingState 0x0111 fs).slot .a 0).bodyLen ∧
       (asked stagingState 0x0111 fs).arg .a 0 0 8 + 224 = testWriting.totalBytes) ∧
    starts stagingState 0x0112 0 [] ∧ stagingState.longWaits < 48 ∧
    starts stagingState 0x0113 0 [] ∧ stagingState.cast.staged = none ∧ stagingState.cast.armed = none := by
  decide +kernel

theorem witness_bundleRefused :
    (let fs := [(8, 64), (8, 9)]
     starts stagingState 0x0110 16 fs ∧ (asked stagingState 0x0110 fs).cast.writing.isSome = true ∧
       (let s := { under basePolicy with cast := { (under basePolicy).cast with retained := some basePolicy } }
        starts s 0x0110 16 fs ∧ s.cast.staged = none ∧ s.cast.writing = none ∧ s.cast.windowEnd = none) ∧
       (let fs := [(8, regionBytes + 1), (8, 9)]
        starts gate 0x0110 16 fs ∧ (asked gate 0x0110 fs).regionFree < (asked gate 0x0110 fs).arg .a 0 0 8)) ∧
    (let fs := [(8, 320), (2, 224), (6, 0), (224, 0)]
     starts gate 0x0111 16 fs ∧ gate.cast.writing = none ∧
       (let s : State := { stagingState with cast := { stagingState.cast with writing := some { testWriting with port := .b } } }
        starts s 0x0111 16 fs ∧ s.cast.writing.any (fun w => decide (w.port ≠ .a)) = true) ∧
       (let fs := [(8, 321), (2, 224), (6, 0), (224, 0)]
        starts stagingState 0x0111 16 fs ∧ testWriting.totalBytes < (asked stagingState 0x0111 fs).arg .a 0 0 8 + 224)) ∧
    starts gate 0x0112 0 [] ∧ gate.cast.writing = none ∧ gate.cast.staged = none ∧
    starts stagingState 0x0113 0 [] ∧ stagingState.cast.writing = some testWriting ∧
    (let s : State := { stagingState with cast := { stagingState.cast with windowEnd := some 1 } }
     s.cast.windowEnd.isSome = true) := by
  decide +kernel

/-- The policy staged for a cast, and armed for its instant. -/
def stagedState : State := { under basePolicy with cast := { (under basePolicy).cast with staged := some { basePolicy with epoch := 0, cellSlot := true } } }
def armedState : State := { stagedState with cast := { stagedState.cast with armed := some ⟨904096, 2, 9#64⟩ } }

theorem witness_castCommands :
    starts stagedState 0x0112 0 [] ∧ stagedState.cast.writing = none ∧ stagedState.cast.staged.isSome = true ∧
    starts stagedState 0x0113 0 [] ∧ stagedState.cast.armed = none ∧
    (let fs := [(8, 9), (8, 965536), (4, 2 ^ 31), (4, 0)]
     let s := asked stagedState 0x0120 fs
     starts stagedState 0x0120 24 fs ∧ s.aon.sync ≠ .unlocked ∧ basePolicy.tables.latency.policyId = BitVec.ofNat 64 (s.arg .a 0 0 8) ∧
       basePolicy.epoch ≠ s.arg .a 0 16 4 ∧ (s.slot .a 0).accept + 65536 = s.arg .a 0 8 8 ∧
       (s.arg .a 0 16 4 + 2 ^ 32 - s.cast.epoch % 2 ^ 32) % 2 ^ 32 = 2 ^ 31 - 1 ∧ basePolicy.windowed = false) ∧
    (let s := asked armedState 0x0121 [(8, 9)]
     starts armedState 0x0121 8 [(8, 9)] ∧ s.cast.armed = some ⟨904096, 2, 9#64⟩ ∧ BitVec.ofNat 64 (s.arg .a 0 0 8) = 9#64 ∧
       (s.slot .a 0).accept + 4096 = 904096) := by
  decide +kernel

/-- The policy staged for a cast with a window, while a pinned stream lives. -/
def windowedState : State :=
  { stagedState with cast := { stagedState.cast with staged := some { basePolicy with epoch := 0, cellSlot := true, windowed := true } } }

theorem witness_castRefused :
    (basePolicy.tables.latency.policyId = 9#64 ∧ basePolicy.epoch = 1 ∧ stagedState.cast.active.isSome = true) ∧
    ({ stagedState with aon := { stagedState.aon with sync := .unlocked } } : State).aon.sync = .unlocked ∧
    (armedState.cast.armed.isSome = true ∧ armedState.aon.sync ≠ .unlocked) ∧
    ((1 + 2 ^ 32 - stagedState.cast.epoch % 2 ^ 32) % 2 ^ 32 = 0 ∧ (2 ^ 31 + 1 + 2 ^ 32 - stagedState.cast.epoch % 2 ^ 32) % 2 ^ 32 = 2 ^ 31) ∧
    (windowedState.cast.staged.any (fun m => m.windowed && !m.role 1) = true ∧ (900000 + 65536 ≤ 965536)) ∧
    (stagedState.cast.armed = none ∧ armedState.cast.armed = some ⟨904096, 2, 9#64⟩ ∧ (9#64 : DWord) ≠ 8#64 ∧ 904096 < 900001 + 4096) ∧
    starts armedState 0x0113 0 [] ∧ starts stagedState 0x0113 0 [] := by
  decide +kernel

/-- A state with a packet of 64 bytes or more from node 6 waiting for its function. -/
def arriveAs (s : State) (hdr : Header) (edge : Edge) (fs : List (Nat × Nat)) : State :=
  let b := bodyOf fs
  let payload := padTo (64 * ((b.length + 63) / 64)) b
  { s with plane := { s.plane with inbox := s.plane.inbox ++
      [{ pkt := { hdr := { hdr with length := BitVec.ofNat 8 (payload.length / 64) }, payload := payload }, edge := edge,
         stamp := 990000, at16 := 0 }] } }

/-- A header of a class to a port of this gate. -/
def toPort (cls port : Nat) : Header :=
  { handle := 0#48, seq := 0#24, length := 1#8, multicast := false, echo := false, mark := false, fence := false,
    cls := BitVec.ofNat 3 cls, source := 6#12, port := BitVec.ofNat 8 port, dest := 5#12, gap := false }

def arrive (s : State) (cls port : Nat) (fs : List (Nat × Nat)) : State := arriveAs s (toPort cls port) (.link 3) fs

/-- `stagedState` with casting by messages of node 6. -/
def castable : State := { stagedState with ctl := { stagedState.ctl with castEnable := true, castController := 6#12 } }

theorem witness_castMessages :
    (let taken := fun (s : State) (op : Nat) (ok : Bool) =>
       ((arrive s 6 0xC5 [(1, op)]).takeInbox (fun x => decide (x.pkt.hdr.port = 0xC5#8))).any (fun r =>
         decide (field r.1.pkt.payload 0 1 = op) &&
           decide ((r.2.ctl.castEnable = true ∧ r.1.pkt.hdr.source = r.2.ctl.castController) ↔ ok = true))
     taken castable 1 true && taken castable 2 true && taken castable 3 true && taken stagedState 1 false) = true := by
  decide +kernel

/-! ### Streams in the gate -/

/-- An open request of tenant 4 for an egress or an ingress stream. -/
def request (egress : Bool) : OpenRequest :=
  { tag := 1#64, tenant := 4, egress := egress, pin := false, awaitIngress := false, replyNode := 6#12, replyPort := 0x40#8,
    stopSet := 0, ingressHandle := 0#64, maxTokens := 0, grammarId := 0xFFFF, temperature := 0#32, topK := 0, topP := 0#32,
    minP := 0#32, seed := 0#64, drafts := 0 }

/-- The stream in slot 7, generation 0, at node 5. -/
def stream (egress : Bool) : Stream :=
  { handle := BitVec.ofNat 48 (5 * 2 ^ 36 + 7 * 2 ^ 21), state := .live, req := request egress, openStamp := 600000, pinned := false,
    epoch := 1, replyNode := 6#12, replyPort := 0x40#8, maxTokens := 0, sampling := ⟨0xFFFF, 0#32, 0, 0#32, 0#32, 0#64, 0, 0, 0xFFFF#16, 0#32, none⟩,
    seen := ⟨0xFFFF, 0#32, 0, 0#32, 0#32, 0#64, 0, 0, 0xFFFF#16, 0#32, none⟩ }

/-- Its handle as a field. -/
def handle7 : Nat := 5 * 2 ^ 36 + 7 * 2 ^ 21

/-- The gate with a stream in slot 7. -/
def holding (s : State) (st : Stream) : State := { s with streams := { s.streams with table := [(7, st)] } }
/-- The gate under the base policy with a live egress stream. -/
def live : State := holding (under basePolicy) (stream true)

/-! ### Commands that wait, and boundaries: hypotheses met -/

theorem witness_queueCommands :
    starts gate 0x0601 2 [(2, 511)] ∧ (asked gate 0x0601 [(2, 511)]).arg .a 0 0 2 = (511 : QueueId).val ∧
    starts (hostQueue (gate.queue 511)) 0x0602 80 [(2, 511), (78, 0)] ∧
    (let fs := [(2, 511), (1, 1), (1, 0), (4, 2 ^ 24 - 1)]
     starts gate 0x0604 8 fs ∧ (asked gate 0x0604 fs).arg .a 0 2 1 = 1 ∧ (asked gate 0x0604 fs).arg .a 0 4 4 + 1 = 2 ^ 24) ∧
    (starts gate 0x0604 8 [(2, 511), (6, 2)] && starts gate 0x0604 8 [(2, 511), (6, 3)] && starts gate 0x0604 8 [(2, 511), (6, 4)]) = true ∧
    (asked gate 0x0604 [(2, 511), (6, 4)]).arg .a 0 2 1 = 4 := by
  decide +kernel

theorem witness_streamCommandsWait :
    (let named := fun (code : Nat) (fs : List (Nat × Nat)) => ((asked live code fs).streamOf ((asked live code fs).arg .a 0 0 8)).isSome
     starts live 0x0202 48 [(8, handle7), (40, 0)] && named 0x0202 [(8, handle7), (40, 0)]
       && starts live 0x0203 8 [(8, handle7)] && named 0x0203 [(8, handle7)]
       && starts live 0x0205 16 [(8, handle7), (2, 28), (230, 0)] && named 0x0205 [(8, handle7), (2, 28), (230, 0)]
       && starts live 0x0206 8 [(8, handle7)] && starts live 0x0204 14 [(8, handle7), (2, 0x6000 - 8), (2, 200), (2, 511)]) = true ∧
    16 + 8 * 28 ≤ ((asked live 0x0205 [(8, handle7), (2, 28), (230, 0)]).slot .a 0).bodyLen ∧
    starts live 0x0301 18 [(2, 0x15), (2, 0), (4, 0), (8, handle7), (2, 0)] ∧
    (live.groupValues 0x15 0 handle7).toOption.isSome = true ∧
    starts live 0x0304 0 [] ∧ starts gate 0x0203 8 [(8, handle7)] ∧ (gate.streamOf handle7).isNone = true := by
  decide +kernel

theorem witness_gateCommandsWait :
    starts gate 0x0401 3 [(2, 4095), (1, 2)] ∧ (asked gate 0x0401 [(2, 4095), (1, 2)]).arg .a 0 2 1 = 2 ∧
    starts gate 0x0405 16 [(2, 0), (1, 1), (13, 0), (40, 63)] ∧
      ((fun (m : MSlot) => (groupOfBody m.body m.bodyLen).isSome) ((asked gate 0x0405 [(2, 0), (1, 1), (13, 0), (40, 63)]).slot .a 0)) = true ∧
    starts gate 0x0406 2 [(2, 4095)] ∧ starts gate 0x0504 16 [(2, 4), (1, 3), (13, 0)] ∧
    starts gate 0x0702 4 [(4, 0x54455352)] ∧ starts gate 0x0704 0 [] ∧ starts gate 0x0703 4 [(4, 0x54455352)] ∧
    starts gate 0x0705 4 [(1, 0), (1, 1), (1, 7), (1, 0)] ∧ starts gate 0x0705 4 [(1, 6), (1, 0), (1, 0xFF), (1, 0)] ∧
    gate.longWaits < 48 := by
  decide +kernel

theorem witness_commandsRefused :
    (starts gate 0x0202 48 [(8, handle7), (40, 0)] && starts gate 0x0205 16 [(8, handle7), (2, 28), (230, 0)]
      && starts gate 0x0206 8 [(8, handle7)] && starts gate 0x0204 14 [(8, handle7), (2, 0), (2, 8), (2, 0xFFFF)]) = true ∧
    (gate.streamOf handle7).isNone = true ∧
    (let refused := fun (code len : Nat) (fs : List (Nat × Nat)) (off n v : Nat) =>
       starts live code len fs && decide ((asked live code fs).arg .a 0 off n = v)
     refused 0x0205 16 [(8, handle7), (2, 29), (230, 0)] 8 2 29 && refused 0x0204 14 [(8, handle7), (2, 0x6000), (2, 200), (2, 0)] 8 2 0x6000
       && refused 0x0401 3 [(2, 4096), (1, 1)] 0 2 4096 && refused 0x0405 16 [(2, 0), (1, 9), (13, 0)] 2 1 9
       && refused 0x0406 2 [(2, 4096)] 0 2 4096 && refused 0x0504 16 [(2, 4), (1, 4), (13, 0)] 2 1 4
       && refused 0x0702 4 [(4, 1)] 0 4 1 && refused 0x0703 4 [(4, 1)] 0 4 1 && refused 0x0705 4 [(1, 7), (3, 0)] 0 1 7
       && refused 0x0301 18 [(2, 0x15), (2, 0), (2, 0), (2, 1), (8, handle7), (2, 0)] 6 2 1) = true ∧
    (let m := (asked live 0x0405 [(2, 0), (1, 9), (13, 0)]).slot .a 0
     groupOfBody m.body m.bodyLen = none) ∧
    (let long : MSlot := { owned := true, started := true, long := true }
     let s : State := { asked gate 0x0703 [(4, 0x54455352)] with ctl := { (asked gate 0x0703 [(4, 0x54455352)]).ctl with
       mbox := ((asked gate 0x0703 [(4, 0x54455352)]).ctl.mbox)
         ++ ((List.finRange 31).map (fun n => ((MPort.a, ⟨n.val + 1, by omega⟩), long)))
         ++ ((List.finRange 17).map (fun n => ((MPort.b, ⟨n.val, by omega⟩), long))) } }
     s.longWaits = 48 ∧ s.Ready .a 0 0x0703 4 ∧ s.arg .a 0 0 4 = 0x54455352) ∧
    ((live.groupValues 0x1F 0 0).toOption.isNone = true ∧ starts live 0x0301 18 [(2, 0x1F), (2, 0), (14, 0)]) := by
  decide +kernel

/-- A command of slot 0 of port A that waits, its boundary reached. -/
def waitsFor (s : State) (code : Nat) (fs : List (Nat × Nat)) : State :=
  let w : Waiting := { code := code, from? := some (.a, 0), accept := 998976, order := 0, due := 1000000, body := bodyOf fs }
  { asked s code fs with ctl := { (asked s code fs).ctl with waiting := [w] } }

/-- Whether its boundary has come and nothing of its stream is owed before. -/
def dueFor (s : State) (code : Nat) (fs : List (Nat × Nat)) (also : Stream → Bool) : Bool :=
  ((waitsFor s code fs).dueWaiting code).any (fun w => ((waitsFor s code fs).streamOf (field w.body 0 8)).any (fun x =>
    !x.2.owes w.due && decide (x.2.poisoned = none) && also x.2))

/-- Streams that are draining, halted, and closed. -/
def drained : State := holding (under basePolicy) { stream true with state := .closed, stopReason := 4 }
def haltedState : State := holding (under basePolicy) { stream true with state := .halted, stopReason := 5 }

/-- A policy whose armature lets the host write word 239 alone. -/
def hostWordPolicy : Policy :=
  let a : ArmatureTables :=
    { magic := 0#32, egressOffset := 0, ingressOffset := 0, northServes := true, southServes := false, layoutId := 1#64,
      hostWords := BitVec.ofNat 256 (2 ^ 239), initial := [], features := [], edges := [], nodes := [], bitmaps := [], ensembles := [],
      trees := [], sets := [], tenantMap := [] }
  { basePolicy with tables := { baseTables with armature := some a } }
def hostWordState : State := holding (under hostWordPolicy) (stream true)

theorem witness_streamBoundaries :
    (dueFor live 0x0202 [(8, handle7), (2, 0x7F), (38, 0)] (fun st => !st.gone)
      && dueFor drained 0x0202 [(8, handle7), (40, 0)] (fun st => st.gone)
      && dueFor live 0x0203 [(8, handle7)] (fun st => st.running)
      && dueFor (holding (under basePolicy) (stream false)) 0x0203 [(8, handle7)] (fun st => st.running && !st.req.egress)
      && dueFor drained 0x0203 [(8, handle7)] (fun st => st.gone)
      && dueFor live 0x0206 [(8, handle7)] (fun st => decide (st.state ≠ .closed) && decide (st.state ≠ .free))
      && dueFor haltedState 0x0206 [(8, handle7)] (fun st => decide (st.state = .halted))
      && dueFor drained 0x0206 [(8, handle7)] (fun st => decide (st.state = .closed))) = true := by
  decide +kernel

theorem witness_hostFeatures :
    (let ok := fun (fs : List (Nat × Nat)) => dueFor hostWordState 0x0205 fs (fun st => !st.ended &&
       (featureEntries (padTo 240 (bodyOf fs))).all (fun e => decide (e.1 < 240) && decide (e.1 = 239)))
     let bad := fun (fs : List (Nat × Nat)) => dueFor hostWordState 0x0205 fs (fun st => !st.ended &&
       (featureEntries (padTo 240 (bodyOf fs))).any (fun e => !decide (e.1 = 239)))
     ok [(8, handle7), (2, 1), (6, 0), (2, 239), (2, 0), (4, 5)] && bad [(8, handle7), (2, 1), (6, 0), (2, 240), (2, 0), (4, 5)]) = true ∧
    (BitVec.ofNat 256 (2 ^ 239)).getLsbD 239 = true := by
  decide +kernel

theorem witness_gateBoundaries :
    ((waitsFor gate 0x0401 [(2, 4095), (1, 1)]).dueWaiting 0x0401).isSome = true ∧ gate.plane.fences.contains 0xFFF#12 = false ∧
    ((waitsFor gate 0x0401 [(2, 6), (1, 2)]).dueWaiting 0x0401).any (fun w => decide (nodeField w.body 0 = 6#12)) = true ∧
    ((waitsFor gate 0x0405 [(2, 0), (1, 1), (13, 0), (40, 63)]).dueWaiting 0x0405).any (fun w =>
      (groupOfBody w.body w.body.length).isSome) = true ∧ gate.group? 0 = none ∧
    ((waitsFor gate 0x0406 [(2, 4095)]).dueWaiting 0x0406).isSome = true ∧
    ((waitsFor gate 0x0504 [(2, 4), (1, 2), (5, 0), (8, 2 ^ 48 - 1)]).dueWaiting 0x0504).any (fun w =>
      !(waitsFor gate 0x0504 []).tenantOwes (field w.body 0 2) w.due) = true := by
  decide +kernel

theorem witness_boundariesStale :
    [0x0202, 0x0203, 0x0205, 0x0206].all (fun code => ((waitsFor gate code [(8, handle7)]).dueWaiting code).any (fun w =>
      ((waitsFor gate code [(8, handle7)]).streamOf (field w.body 0 8)).isNone)) = true ∧
    (dueFor drained 0x0205 [(8, handle7)] (fun st => st.ended)
      && dueFor live 0x0202 [(8, handle7), (2, 0x40), (34, 0), (4, 0)] (fun st => st.running)) = true := by
  decide +kernel

/-- A stream that has appended 5 tokens, the last in flight. -/
def appendedFive : Stream :=
  { stream true with nextIndex := 5, appended := some 4 }

theorem witness_limitReached :
    dueFor (holding (under basePolicy) appendedFive) 0x0202 [(8, handle7), (2, 0x40), (34, 0), (4, 5)] (fun st =>
      st.running && st.req.egress && decide (5 ≤ st.nextIndex)) = true := by
  decide +kernel

/-- An entry of an allocated group. -/
def testGroup : GroupEntry :=
  { atNode := true, report := false, member := 0, budget := 0, completionDelay := 0, completionQueue := 0, branches := [] }

theorem witness_gateBoundariesRefused :
    (let s : State := { waitsFor gate 0x0401 [(2, 6), (1, 1)] with plane := { fences := [6#12] } }
     (s.dueWaiting 0x0401).any (fun w => s.plane.fences.contains (nodeField w.body 0) && decide (field w.body 2 1 = 1)) = true) ∧
    (let s : State := { waitsFor gate 0x0401 [(2, 6), (1, 2)] with plane := { fences := [6#12] } }
     (s.dueWaiting 0x0401).any (fun w => s.plane.fences.contains (nodeField w.body 0) && decide (field w.body 2 1 = 2)) = true) := by
  decide +kernel

theorem witness_groupsFull :
    ∀ g, g < 4096 → aget g ((List.range 4096).map (fun n => (n, testGroup))) ≠ none := by
  have h : ∀ (l : List Nat) g, g ∈ l → aget g (l.map (fun n => (n, testGroup))) ≠ none := by
    intro l g hg
    induction l with
    | nil => simp at hg
    | cons a l ih =>
      by_cases e : a = g
      · simp [aget, e]
      · simpa [aget, e] using ih ((List.mem_cons.mp hg).resolve_left (fun h => e h.symm))
  exact fun g hg => h _ g (List.mem_range.mpr hg)

theorem witness_snapshotTick :
    (let s := waitsFor live 0x0204 [(8, handle7), (2, 0), (2, 200), (2, 0xFFFF)]
     (s.ctl.waiting.find? Waiting.atBoundary).any (fun w => decide (w.code = 0x0204) && decide (w.due ≤ s.now)
       && !s.streams.table.any (fun e => e.2.owes w.due)
       && decide ((s.ctl.waiting.filter (fun v => decide (v.from? = w.from?))).length = 1)
       && decide (w.from? = some (.a, 0)) && (s.reading w).packet.isNone)) = true := by
  decide +kernel

theorem witness_snapshotOther :
    (let s := waitsFor live 0x0204 [(8, handle7), (2, 0), (2, 200), (2, 511)]
     (s.ctl.waiting.find? Waiting.atBoundary).any (fun w => (s.reading w).packet.any (fun p => s.packetFits p.1 p.2.2.length)) = true) ∧
    (let s := (waitsFor live 0x0204 [(8, handle7), (2, 0), (2, 200), (2, 511)]).setQueue 511
       { live.queue 511 with items := List.replicate (live.queue 511).capacity (queued.queue 3).read.1 }
     (s.ctl.waiting.find? Waiting.atBoundary).any (fun w => (s.reading w).packet.any (fun p => !s.packetFits p.1 p.2.2.length)) = true) ∧
    (let s := waitsFor (holding (under basePolicy) { stream true with stepHalts := [{ due := 1000000, reason := 9 }] }) 0x0204
       [(8, handle7), (2, 0), (2, 200), (2, 511)]
     (s.ctl.waiting.find? Waiting.atBoundary).any (fun w => s.streams.table.any (fun e => e.2.owes w.due)) = true) := by
  decide +kernel

/-! ### Casts, resets, power and reliability: hypotheses met -/

/-- A command of slot 0 of port A past its boundary that waits for its completion. -/
def completes (s : State) (code : Nat) (fs : List (Nat × Nat)) : State :=
  let t := waitsFor s code fs
  { t with ctl := { t.ctl with waiting := t.ctl.waiting.map (fun w => { w with code := code + 0x10000 }) } }

theorem witness_casts :
    armedState.cast.armed = some ⟨904096, 2, 9#64⟩ ∧ armedState.cast.staged.isSome = true ∧ 904096 ≤ armedState.now ∧
    (let s : State := { under basePolicy with cast := { (under basePolicy).cast with windowEnd := some 1000000, windowCast := some ⟨1, 1, 9#64⟩ } }
     s.cast.windowEnd = some 1000000 ∧ s.cast.active.isSome = true ∧ 1000000 ≤ s.now ∧ s.cast.windowCast.isSome = true) ∧
    (let p : Policy := { basePolicy with epoch := 0, cellSlot := true }
     let s : State := { live with cast := { live.cast with retained := some p } }
     let t : State := { s with streams := {} }
     s.cast.windowEnd = none ∧ s.cast.active.isSome = true ∧ s.heldStreams p ≠ 0 ∧ t.heldStreams p = 0 ∧
       t.inFlightOf 0 basePolicy.instant = false) := by
  decide +kernel

theorem witness_castsOther :
    (let s : State := { armedState with cast := { armedState.cast with armed := some ⟨1000001, 2, 9#64⟩ } }
     s.cast.armed = some ⟨1000001, 2, 9#64⟩ ∧ s.now < 1000001) ∧
    (let s : State := { under basePolicy with cast := { (under basePolicy).cast with windowEnd := some 1000001 } }
     s.cast.windowEnd = some 1000001 ∧ s.now < 1000001) ∧
    (let s : State := { gate with plane := { gate.plane with retrainAt := some 1000001 } }
     s.plane.retrainAt = some 1000001 ∧ s.now < 1000001) := by
  decide +kernel

theorem witness_planeResets :
    ((waitsFor gate 0x0702 [(4, 0x54455352)]).dueWaiting 0x0702).isSome = true ∧
    ({ gate with plane := { gate.plane with retrainAt := some 1000000 } } : State).plane.retrainAt = some gate.now ∧
    ((completes gate 0x0702 [(4, 0x54455352)]).completing 0x0702).isSome = true ∧
    ((waitsFor { under basePolicy with plane := { tablesLost := true } } 0x0704 []).dueWaiting 0x0704).isSome = true ∧
    (under basePolicy).cast.active.isSome = true ∧
    ((waitsFor gate 0x0704 []).dueWaiting 0x0704).isSome = true ∧ gate.plane.tablesLost = false := by
  decide +kernel

theorem witness_functionResets :
    ((waitsFor live 0x0703 [(4, 0x54455352)]).dueWaiting 0x0703).any (fun w =>
      !live.streams.table.any (fun e => e.2.owes (w.due - 1)) && !live.cast.armed.any (fun a => decide (a.instant < w.due))) = true ∧
    ((completes live 0x0703 [(4, 0x54455352)]).completing 0x0703).isSome = true ∧
    ((waitsFor live 0x0705 [(1, 6), (1, 1), (1, 0xFF), (1, 0)]).dueWaiting 0x0705).any (fun w =>
      (live.boundStreams (field w.body 0 1) (abortHalf w.body) (abortUnit w.body)).isEmpty) = true ∧
    ((completes live 0x0705 [(1, 6), (1, 1), (1, 0xFF), (1, 0), (4, 0)]).completing 0x0705).isSome = true := by
  decide +kernel

/-- Straps of a master at node 5. -/
def straps : Straps :=
  { nodeStrap := true, nodeId := 5#12, plumbMaster := true, keyHash := List.replicate 48 0#8, minSecurity := 0#32, findings := [] }

theorem witness_coldReset :
    (let s : State := { gate with aon := { gate.aon with resetColdAt := some 1000000 } }
     s.aon.resetColdAt = some 1000000 ∧ 1000000 ≤ s.now) ∧
    (let s : State := { gate with aon := { gate.aon with resetColdAt := some 1000001 } }
     s.aon.resetColdAt = some 1000001 ∧ s.now < 1000001) ∧
    gate.aon.resetColdAt = none ∧ State.reset.aon.rstColdN = false ∧ straps.plumbMaster = true ∧
    (let s : State := { State.reset with aon := { rstColdN := true } }
     s.aon.rstColdN = true ∧ s.boot.romReady = false) ∧ (List.replicate 21 (1250 : Int)).length = 21 ∧ 1100 < 1101 := by
  decide +kernel

/-- The gate with the north half's control state. -/
def north (v : HalfPower) : State := { gate with power := { gate.power with north := v } }

theorem witness_clockSteps :
    (let s := north { emergency := true, run := 300 }
     (s.power.half .north).emergency = true ∧ s.rel.lost .north = false ∧ (s.power.half .north).stepDue s.now = true ∧
       200 < (s.power.half .north).run) ∧
    (let v : HalfPower := { run := 700, coolSince := some 0 }
     let s : State := { north v with aon := { gate.aon with plumb := 1600000#64 } }
     v.emergency = false ∧ v.powerHot = false ∧ s.rel.lost .north = false ∧ 0 + 1600000 ≤ s.now ∧ v.stepDue s.now = true ∧
       v.run < v.setPoint) ∧
    (let s : State := { north { lowSince := some 0, run := 200 } with aon := { gate.aon with plumb := 1600000#64 } }
     (s.power.half .north).lowSince = some 0 ∧ 0 + 1600000 ≤ s.now ∧ s.rel.lost .north = false) ∧ gate.rel.lost .south = false := by
  decide +kernel

theorem witness_capCompare :
    (let s : State := { north { throttle := 300, estimate := 2500, history := [(999000, 2500)] } with cast := gate.cast }
     s.power.compareAt ≤ s.now ∧ s.cast.armed = none ∧ s.power.throttlePending = false ∧ s.power.cap < s.gateAverage ∧
       s.power.south.estimate < s.power.north.estimate ∧ 200 < (s.power.half .north).throttle) ∧
    armedState.cast.armed.isSome = true ∧ armedState.power.compareAt ≤ armedState.now := by
  decide +kernel

theorem witness_cellFaults :
    gate.rel.usable 0xFFF#12 = true ∧ (gate.rel.bench 0xFF#8).getLsbD 1 = false ∧ (gate.rel.bench 0xFF#8).getLsbD 2 = false ∧
    (let s : State := { gate with rel := { gate.rel with benches := [(0xFF#8, 0x02#8)] } }
     s.rel.usable 0xFFF#12 = true ∧ (s.rel.bench (benchOf 0xFFF#12)).getLsbD 1 = true) ∧
    gate.rel.bench 0#8 &&& 0x09#8 ≠ 0x09#8 ∧
    (gate.setCell 1#12 { reloading := true }).slotPolicies = [] ∧ ((gate.setCell 1#12 { reloading := true }).cell 1#12).reloading = true := by
  decide +kernel

/-- An image on cell 1: `end` at its base. -/
def image : CellImage :=
  { cell := 1#12, judgeEntry := false, loadBase := 0, rangeBytes := 64, barrierMask := 1#64, handlers := 0 :: List.replicate 15 0xFFFF,
    windows := [], relocs := [], body := leBytes 4 (cellWord 0xA 1 0).toNat }

theorem witness_imageRewrite :
    (let p : Policy := { basePolicy with tables := { baseTables with images := [image] } }
     let s := ((under p).loadImages false p.tables).setCell 1#12 { ((under p).loadImages false p.tables).cell 1#12 with poison := [0] }
     ((s.cell 1#12).poisonAt 0 8).isSome = true ∧ (s.imageWord 1#12 0).isSome = true) := by
  decide +kernel

theorem witness_engineAndWelt :
    gate.rel.enginesNorth.getLsbD 6 = false ∧ gate.rel.weltRetired.contains (true, 63) = false ∧ gate.rel.weltMem ≠ 0 ∧
    gate.rel.weltSpares true ≠ 0 ∧
    (let s : State := { gate with rel := { gate.rel with weltSparesN := 0, weltSparesS := 0 } }
     s.rel.weltSpares true = 0 ∧ s.rel.weltMem ≠ 0) ∧
    (let s : State := { gate with rel := { gate.rel with weltCopy := [(true, 63, 1000000, 0)] } }
     (s.rel.weltCopy.find? (fun (e : Bool × Fin 64 × Nat × Nat) => decide (e.1 = true) && decide (e.2.2.1 ≤ s.now))).isSome = true) := by
  decide +kernel

/-- A word of cell 4,095's memory, and a word of bank 63. -/
def cellWordAt : MemLoc := { kind := 1, unit := 0xFFF, macro16 := 0, row := 0, addr := 0x17FF8 }
def bankWordAt : MemLoc := { kind := 0, unit := 63, macro16 := 0, row := 0, addr := 63 * 10 * 2 ^ 20 }

theorem witness_patrolUncorrectable : memDecode 7#80 = .uncorrectable 7#64 :=
  memDecode_odd 7#80 (by decide +kernel) (fun i h => by
    have : (List.range 80).all (fun i => !memValid (flipBit 7#80 i)) = true := by decide +kernel
    simpa using List.all_eq_true.mp this i (List.mem_range.mpr h))

theorem witness_patrol :
    (match memDecode 0#80 with | .clean false _ => true | _ => false) = true ∧
    (match memDecode 1#80 with | .corrected _ _ _ => true | _ => false) = true ∧
    gate.rel.rows bankWordAt < 8 ∧ cellWordAt.kind = 1 ∧ bankWordAt.kind ≠ 1 ∧
    ({ gate with rel := { gate.rel with repairsDue := [(bankWordAt, none)] } } : State).rel.repairsDue = [(bankWordAt, none)] ∧
    ({ gate with rel := { gate.rel with repairsDue := [(bankWordAt, some 79)] } } : State).rel.repairsDue = [(bankWordAt, some 79)] ∧
    ({ gate with ctl := { gate.ctl with repairSem := some 1000000 } } : State).ctl.repairSem = some 1000000 := by
  decide +kernel

/-! ### Links, routing and packets: hypotheses met -/

/-- The gate with link 3, on lane 3 of group 0, as given. -/
def linked (l : Link) : State := { gate with plane := { links := [(3, l)] } }
def upLink : Link := { state := .up, peer := 6#12, inSync := true, lastHeader := 999000, helloAt := 1000001, routeAt := 1000001 }
/-- Link 3 UP. -/
def linkUp : State := linked upLink
/-- A group whose one branch leaves on link 3. -/
def grouped : GroupEntry :=
  { atNode := false, report := true, member := 0, budget := 0, completionDelay := 40, completionQueue := 9, branches := [{ out := 3, members := 2#256 }] }

/-- The first copy after an unfence carries `gap`, though none was missed (R376). -/
theorem test_unfence_gap :
    (let s := waitsFor { linkUp with plane := { linkUp.plane with groups := [(33, grouped)], fences := [6#12] } } 0x0401 [(2, 6), (1, 2)]
     match exec .nodeFenceCommit s with
     | .next u => decide (u.plane.gapBranch = [(33, 3)]) && decide (u.plane.fences = [])
     | _ => false) = true := by
  decide +kernel

/-- A class-0 multicast that enters the fabric here owes a completion record (R377). -/
theorem test_class0_completion :
    (let s : State := { linkUp with plane := { linkUp.plane with groups := [(33, grouped)] } }
     let e : SlotEntry := { slot := 7, inEdge := 0x40, outEdge := 0xC0, units := 1, source := 0, checkSource := false, opens := 0, closes := 0 }
     let a : Arrival := { pkt := { hdr := { toPort 0 0x40 with seq := 7, dest := 33, multicast := true, source := 0 }, payload := [] }, edge := .host 0,
                          stamp := 100, at16 := 0 }
     (s.class0Out e a).plane.completions.map (fun c => (c.group, c.seq, c.due)) = [(33, 7, 140)]) := by
  decide +kernel

/-- The spare-lane procedure on link 3. -/
def sparingLink (began : Nat) : Link := { upLink with state := .sparing, sparing := some { began := began, lane := 3, accepted := false, moved := false } }

theorem witness_lanes :
    linkUp.linkOfLane 0 3 = some 3 ∧ (linkUp.link 3).state = .up ∧ linkUp.spareFree 0 = true ∧
    (let s : State := { linkUp with plane := { linkUp.plane with lanes := [(0, { spareFailed := true })] } }
     s.linkOfLane 0 3 = some 3 ∧ (s.link 3).state = .up ∧ s.spareFree 0 = false) ∧
    ((arrive (linked (sparingLink 990000)) 7 0xC6 [(1, 3), (1, 2)]).takeLocal 0xC6#8).any (fun x =>
      decide (field x.1.pkt.payload 0 1 = 3) && decide (field x.1.pkt.payload 1 1 = 2)) = true ∧
    ((linked (sparingLink 983616)).link 3).sparing.any (fun sp => !sp.moved && decide (sp.began + 16384 = (linked upLink).now)) = true := by
  decide +kernel

theorem witness_lanesOther :
    (linkUp.linkOfLane 0 8 = none ∧ ((linked { upLink with state := .hunt }).link 3).state = .hunt ∧
      ((linked { upLink with state := .hello }).link 3).state = .hello ∧ ((linked {}).link 3).state = .down ∧
      ((linked (sparingLink 990000)).link 3).state = .sparing ∧ (linked {}).linkOfLane 0 3 = some 3) ∧
    (let s : State := { linked { upLink with state := .hello } with aon := { gate.aon with nodeValid := false } }
     (s.link 3).state = .hello ∧ s.aon.nodeValid = false ∧ s.linkOfLane 0 3 = some 3) ∧
    (let s : State := { linked {} with plane := { (linked {}).plane with lanes := [(0, { spareFailed := true })] } }
     s.linkOfLane 0 3 = some 3 ∧ (s.link 3).state = .down ∧ s.spareFree 0 = false) ∧
    (let s : State := { linkUp with plane := { linkUp.plane with lanes := [(0, { spared := some 3 })] } }
     s.linkOfLane 0 8 = some 3) ∧
    ((arrive linkUp 7 0xC6 [(1, 3), (1, 1)]).takeLocal 0xC6#8).any (fun x => decide (field x.1.pkt.payload 0 1 = 3) &&
      decide (field x.1.pkt.payload 1 1 = 1) && (linkUp.link 3).sparing.isNone && linkUp.spareFree (linkGroup 3)) = true ∧
    (let l := sparingLink 983617
     (linked l).now < 983617 + 16384 ∧ ((linked l).link 3).sparing.any (fun sp => !sp.moved) = true) ∧
    ((linked (sparingLink 680001)).link 3).sparing.any (fun sp => decide ((linked upLink).now < sp.began + 320000)) = true := by
  decide +kernel

/-- Link 3 on the spare, its HELLO awaited. -/
def spared3 : Link := { sparingLink 990000 with sparing := some { began := 990000, lane := 3, accepted := true, moved := true } }

theorem witness_helloOther :
    (let s := arrive (linked spared3) 7 0xC7 [(2, 6), (1, 3)]
     (s.takeLocal 0xC7#8).any (fun x => decide (x.2.1 = 3)) = true ∧ (s.link 3).state = .sparing ∧
       (s.link 3).sparing.any (fun sp => sp.moved) = true ∧ (s.link 3).inSync = true ∧ s.aon.nodeValid = true) ∧
    ((arrive linkUp 7 0xC7 [(2, 6), (1, 3)]).takeLocal 0xC7#8).isSome = true ∧
    ((arrive (linked {}) 7 0xC7 [(2, 6), (1, 3)]).takeLocal 0xC7#8).isSome = true ∧
    (let s : State := { arrive (linked { upLink with state := .hello }) 7 0xC7 [(2, 6), (1, 3)] with aon := { gate.aon with nodeValid := false } }
     (s.takeLocal 0xC7#8).isSome = true ∧ (s.link 3).state = .hello) ∧
    (let s := linked { upLink with state := .hello, helloAt := 1000000 }
     (s.link 3).helloAt = s.now ∧ (s.link 3).state = .hello) := by
  decide +kernel

theorem witness_linkTimers :
    (let s := linked { upLink with lastHeader := 998400 }
     (s.link 3).state = .up ∧ (s.link 3).lastHeader + 1600 = s.now) ∧
    (let s := linked { upLink with lastHeader := 998401 }
     (s.link 3).state = .up ∧ s.now < (s.link 3).lastHeader + 1600) ∧
    ((linked (sparingLink 680000)).link 3).sparing.any (fun sp => decide (sp.began + 320000 = linkUp.now)) = true ∧
    (linked { upLink with helloAt := 1000000 }).now = ((linked { upLink with helloAt := 1000000 }).link 3).helloAt ∧
    linkUp.now < (linkUp.link 3).helloAt ∧ linkUp.aon.nodeValid = true := by
  decide +kernel

theorem witness_delineation :
    headerPasses 0x55#128 = true ∧ ((0x55#128 : BitVec 128).toNat / 2 ^ 48) % 256 ≤ 128 ∧
    ((linked { state := .hunt, good := 7 }).link 3).state = .hunt ∧ ((linked { state := .hunt, good := 7 }).link 3).inSync = false ∧
    headerPasses 0x54#128 = false ∧ (linkUp.link 3).state ≠ .down ∧ (linkUp.link 3).inSync = true ∧
    (let s := arrive (linked { upLink with state := .hello }) 7 0xC7 [(2, 6), (1, 3)]
     (s.takeLocal 0xC7#8).any (fun x => decide (x.2.1 = 3) && decide (field x.1.pkt.payload 2 1 = 3)) = true ∧ (s.link 3).state = .hello) ∧
    ((arrive (linked { upLink with state := .hello }) 7 0xC7 [(2, 6), (1, 4)]).takeLocal 0xC7#8).any (fun x =>
      decide (field x.1.pkt.payload 2 1 ≠ 3)) = true := by
  decide +kernel

theorem witness_route :
    ((arrive linkUp 7 0xC8 [(64, 0)]).takeLocal 0xC8#8).any (fun x => decide (x.2.1 = 3)) = true ∧
    (linked { upLink with routeAt := 1000000 }).now = ((linked { upLink with routeAt := 1000000 }).link 3).routeAt ∧
    linkUp.now < (linkUp.link 3).routeAt ∧ (linkUp.link 3).routeDirty = false := by
  decide +kernel

/-- The gate LOCKED and following link 3. -/
def follower : State := { linkUp with aon := { gate.aon with syncLink := 3#8 } }

theorem witness_sync :
    (let s := arrive follower 7 0xC0 [(2, 6), (1, 7), (1, 1), (4, 9), (8, 990000), (1, 15)]
     (s.takeLocal 0xC0#8).any (fun x => decide (x.2.1 = 3) && fieldBit x.1.pkt.payload 3 1 0 &&
       decide (field x.1.pkt.payload 2 1 = 7)) = true ∧ s.aon.master = false ∧ s.aon.syncLink = BitVec.ofNat 8 (3 : LinkId).val ∧
       s.aon.sync = .locked ∧ (s.link 3).syncSeq = none) ∧
    ((arrive { linkUp with aon := master.aon } 7 0xC0 [(64, 0)]).takeLocal 0xC0#8).isSome = true ∧ master.aon.master = true ∧
    (linkUp.link 3).syncAt ≤ linkUp.now ∧ linkUp.aon.sync = .locked ∧ (linkUp.link 3).delayAt ≤ linkUp.now ∧
    (let s : State := { gate with aon := { gate.aon with lastSync := 934464 } }
     s.aon.sync = .locked ∧ s.aon.master = false ∧ s.aon.lastSync + 65536 = s.now) ∧
    (let s : State := { gate with aon := { gate.aon with sync := .holdover, holdoverAt := 0, plumb := 1600000#64 } }
     s.aon.sync = .holdover ∧ s.aon.holdoverAt + 1600000 = s.now) := by
  decide +kernel

theorem witness_syncOther :
    (let s : State := { follower with aon := { follower.aon with sync := .freeRun } }
     s.aon.sync = .freeRun ∧ s.aon.master = false) ∧
    (let s : State := { follower with aon := { follower.aon with sync := .unlocked, within := 1 } }
     s.aon.sync = .unlocked ∧ 1 ≤ s.aon.within) ∧
    ((linked {}).link 3).state ≠ .up ∧ (let l : Link := { upLink with syncAt := 1000001, delayAt := 1000001 }
      (linked l).now < ((linked l).link 3).syncAt ∧ (linked l).now < ((linked l).link 3).delayAt) ∧
    (let s : State := { gate with aon := { gate.aon with lastSync := 934465 } }
     s.aon.sync = .locked ∧ s.now < s.aon.lastSync + 65536) ∧
    (let s : State := { gate with aon := { gate.aon with sync := .holdover, holdoverAt := 0 } }
     s.aon.sync = .holdover ∧ s.now < s.aon.holdoverAt + 1600000) ∧
    (let s := linked { upLink with routeAt := 1000001, routeDirty := true }
     s.now < (s.link 3).routeAt ∧ (s.link 3).routeDirty = true) := by
  decide +kernel

theorem witness_delays :
    ((arrive linkUp 7 0xC1 [(4, 1), (4, 0), (8, 5), (1, 15)]).takeLocal 0xC1#8).any (fun x => decide (x.2.1 = 3)) = true ∧
    (linkUp.link 3).out.fits (mkPacket 5#12 7#3 6#12 0xC2#8 false false 0#48 (List.replicate 64 0#8)) = true ∧
    (let s := arrive (linked { upLink with delaySeq := 1, delayT1 := some 5 }) 7 0xC2 [(4, 1), (60, 0)]
     (s.takeLocal 0xC2#8).any (fun x => decide (x.2.1 = 3) && decide (field x.1.pkt.payload 0 4 = (s.link 3).delaySeq)) = true ∧
       (s.link 3).delayT1.isSome = true) := by
  decide +kernel

/-- A packet sent to node 6 and outstanding. -/
def outstanding (resends sentAt : Nat) : Unacked :=
  { pkt := { hdr := { toPort 6 0x40 with dest := 6#12 }, payload := List.replicate 64 0#8 }, sentAt := sentAt, timeout := 4096, resends := resends }
/-- The gate with a sending window to node 6. -/
def windowed (w : SendWindow) : State := { linkUp with plane := { linkUp.plane with windows := [(6#12, w)] } }

theorem witness_windows :
    (let s := arrive (windowed { outstanding := [outstanding 0 995904], w := 8192, next := 1 }) 7 0xC3 [(4, 1), (60, 0)]
     (s.takeInbox (fun x => decide (x.pkt.hdr.port = 0xC3#8))).any (fun r => decide (r.1.pkt.hdr.source = 6#12)) = true ∧
       s.plane.edgeWait = [] ∧ (aget 6#12 s.plane.windows).any (fun w => decide (w.w = 8192)) = true) ∧
    (aget 6#12 (windowed { outstanding := [outstanding 7 995904] }).plane.windows).any (fun w =>
      (w.overdue 1000000).any (fun x => decide (x.resends + 1 = 8))) = true ∧
    (aget 6#12 (windowed { outstanding := [outstanding 8 995904] }).plane.windows).any (fun w =>
      (w.overdue gate.now).any (fun x => decide (x.resends = 8))) = true ∧
    (let s : State := { windowed { lastActive := 0 } with aon := { gate.aon with plumb := 1048576#64 } }
     (aget 6#12 s.plane.windows).any (fun w => w.outstanding.isEmpty && decide (w.lastActive + 1048576 = s.now)) = true) ∧
    (aget 6#12 (windowed {}).plane.windows).any (fun w => w.outstanding.isEmpty && decide (gate.now < w.lastActive + 1048576)) = true := by
  decide +kernel

theorem witness_windowsOther :
    (let s := arrive linkUp 7 0xC3 [(64, 0)]
     (s.takeInbox (fun x => decide (x.pkt.hdr.port = 0xC3#8))).any (fun r => (aget r.1.pkt.hdr.source s.plane.windows).isNone) = true) ∧
    (let s : State := { linkUp with plane := { linkUp.plane with acks := [(6#12, List.replicate 15 ⟨0, 1, false, 0⟩)] } }
     (aget 6#12 s.plane.acks).any (fun es => decide (es.length = 15)) = true) := by
  decide +kernel

theorem witness_acksAndRecords :
    (let s : State := { linkUp with plane := { linkUp.plane with acks := [(6#12, List.replicate 16 ⟨0, 1, false, 0⟩)] } }
     (aget 6#12 s.plane.acks).any (fun es => decide (es ≠ []) && decide (15 < es.length)) = true) ∧
    (let s : State := { linkUp with plane := { linkUp.plane with records := [(6#12, {})] }, aon := { gate.aon with plumb := 2097152#64 } }
     (aget 6#12 s.plane.records).any (fun r => decide (r.lastActive + 2097152 = s.now)) = true) ∧
    (let s : State := { linkUp with plane := { linkUp.plane with records := [(6#12, {})] } }
     (aget 6#12 s.plane.records).any (fun r => decide (s.now < r.lastActive + 2097152)) = true) := by
  decide +kernel

/-- The gate with a completion record due. -/
def completion : Completion := { group := 4095, seq := 7, stamp := 1, due := 1000000, queue := 9, all := 3#256, missed := 0#256, fenced := 0#256 }
def completing : State := { linkUp with plane := { linkUp.plane with completions := [completion] } }

theorem witness_multicast :
    (let s := arrive completing 7 0xC4 [(2, 4095), (1, 1), (1, 0), (4, 7), (56, 1)]
     (s.takeInbox (fun x => decide (x.pkt.hdr.port = 0xC4#8))).any (fun r => decide (field r.1.pkt.payload 0 2 = completion.group) &&
       decide (field r.1.pkt.payload 4 3 = completion.seq)) = true) ∧
    ((arrive linkUp 7 0xC4 [(64, 0)]).takeInbox (fun x => decide (x.pkt.hdr.port = 0xC4#8))).isSome = true ∧ linkUp.plane.completions = [] ∧
    (let s := linked { upLink with retention := [⟨(outstanding 0 0).pkt, 1000000, 4095, 1#256⟩] }
     ((s.link 3).retention.find? (fun r => decide (r.entered + ((s.group? r.group).map (fun e => e.budget)).getD 0 ≤ s.now))).isSome = true) ∧
    (completing.plane.completions.find? (fun c => decide (c.due ≤ completing.now))).isSome = true := by
  decide +kernel

theorem witness_multicastOther :
    (let s := linked { upLink with retention := [⟨(outstanding 0 0).pkt, 1000001, 4095, 1#256⟩] }
     (s.link 3).retention.all (fun r => decide (s.now < r.entered + ((s.group? r.group).map (fun e => e.budget)).getD 0)) = true) ∧
    (linkUp.plane.completions.find? (fun c => decide (c.due ≤ linkUp.now))).isNone = true := by
  decide +kernel

/-- A packet of a class to a port of this gate, as it comes over a link. -/
def wire (cls port : Nat) : WirePacket :=
  let p : Packet := { hdr := { toPort cls port with gap := true }, payload := List.replicate 64 0#8 }
  { pkt := p, trailer := p.trailer }

theorem witness_linkPackets :
    ((linked {}).link 3).state = .down ∧ (linkUp.link 3).state = .up ∧ (linkUp.link 3).inSync = true ∧
    (0#32 : Word) ≠ (wire 1 0xC5).pkt.trailer ∧ ((linkUp.link 3).trailerFails ++ [linkUp.now]).length < 16 ∧
    (wire 7 0xC7).pkt.hdr.cls = 7#3 ∧ linkLocal (wire 7 0xC7).pkt.hdr.port = true ∧
    linkUp.class0Entry { pkt := (wire 0 0xD3).pkt, edge := .link 3, stamp := linkUp.now, at16 := 0 } = none ∧
    (let p := (wire 1 0xE0).pkt
     p.hdr.cls ≠ 0#3 ∧ p.hdr.cls ≠ 7#3 ∧ p.hdr.multicast = false ∧ p.hdr.dest = linkUp.aon.node ∧ linkUp.plane.records.length < 8192 ∧
       aget p.hdr.source linkUp.plane.records = none ∧ p.hdr.gap = true ∧ 1 ≤ p.hdr.length.toNat ∧ linkUp.consumes p.hdr.port = true ∧
       ({ pkt := p, edge := .link 3, stamp := linkUp.now, at16 := 0 } : Arrival).noMessage = false) := by
  decide +kernel

theorem witness_linkPacketsOther :
    ((linked { upLink with state := .hunt, inSync := false }).link 3).inSync = false ∧
    (let p := (wire 1 0xE0).pkt
     let s : State := { linkUp with plane := { linkUp.plane with records := [(6#12, {})] } }
     (aget p.hdr.source s.plane.records).any (fun r => decide (r.got = []) && decide (r.held = []) &&
       (p.hdr.gap || decide (r.expected = p.hdr.seq.toNat))) = true) := by
  decide +kernel

/-- A packet of the host to a node. -/
def hostPacket (cls : Nat) (dest : NodeId) : HostPacket :=
  { pkt := { hdr := { toPort cls 0x40 with dest := dest }, payload := List.replicate 64 0#8 }, vc := 2, beats := 1, framed := true }

/-- The gate under the base policy, link 3 UP, with a packet queued on link 3 and on bulk port 15. -/
def sending : State :=
  let o : Output := { queue := [{ pkt := (hostPacket 6 6#12).pkt, start := 0 }] }
  { under basePolicy with plane := { links := [(3, { upLink with out := o })] },
                          bulk := [(15, { out := o, credits := [(vcOf 6#3, (hostPacket 6 6#12).pkt.beats)] })] }

theorem witness_hostPackets :
    gate.hostMalformed 15 { hostPacket 6 6#12 with framed := false } = true ∧
    (let s := under basePolicy
     let w := { hostPacket 6 6#12 with vc := ⟨vcOf 6#3 % 4, by decide⟩ }
     s.hostMalformed 15 w = false ∧ w.pkt.hdr.multicast = false ∧ w.pkt.hdr.dest ≠ s.aon.node ∧ w.pkt.hdr.cls ≠ 0#3 ∧ w.pkt.hdr.cls ≠ 7#3 ∧
       s.cast.defaultState = false ∧ s.plane.edgeWait = [] ∧ s.windowRoom (s.completeHeader w.pkt) = true) := by
  decide +kernel

theorem witness_outputs :
    ((linkUp.link 3).out.choose linkUp.now (fun p => (linkUp.link 3).maySend p && linkUp.mayStart 3#8 p) linkUp.weight).isNone = true ∧
    ((sending.link 3).out.choose sending.now (fun p => (sending.link 3).maySend p && sending.mayStart 3#8 p) sending.weight).any (fun c =>
      (sending.link 3).maySend c.1.pkt && (sending.link 3).retention.isEmpty) = true ∧
    ((sending.bulkPort 15).out.choose sending.now (fun p => decide (p.beats ≤ (sending.bulkPort 15).credit (vcOf p.hdr.cls)) &&
      sending.mayStart 0x4F#8 p) sending.weight).any (fun c =>
        decide (c.1.pkt.beats = (sending.bulkPort 15).credit (vcOf c.1.pkt.hdr.cls))) = true ∧
    (let o : Output := { queue := [{ pkt := (hostPacket 0 6#12).pkt, start := 1000000 }] }
     let s : State := { gate with bulk := [(15, { out := o })] }
     ((s.bulkPort 15).out.choose s.now (fun p => decide (p.beats ≤ (s.bulkPort 15).credit (vcOf p.hdr.cls)) && s.mayStart 0x4F#8 p)
       s.weight).any (fun c => decide ((s.bulkPort 15).credit (vcOf c.1.pkt.hdr.cls) < c.1.pkt.beats)) = true) ∧
    (gate.queue 2).cfg.hostWrites = false ∧ (gate.queue 2).items.length + 1 ≤ (gate.queue 2).capacity := by
  decide +kernel

theorem witness_outputsOther :
    (let o : Output := { queue := [{ pkt := (hostPacket 6 6#12).pkt, start := 0 }] }
     let s := linked { sparingLink 990000 with out := o }
     ((s.link 3).out.choose s.now (fun p => (s.link 3).maySend p && s.mayStart 3#8 p) s.weight).isNone = true) ∧
    (let o : Output := { queue := [{ pkt := { (hostPacket 0 6#12).pkt with hdr := { (hostPacket 0 6#12).pkt.hdr with cls := 0#3 } }, start := 1000000 }] }
     let s := linked { sparingLink 990000 with out := o }
     ((s.link 3).out.choose s.now (fun p => (s.link 3).maySend p && s.mayStart 3#8 p) s.weight).any (fun c => !(s.link 3).maySend c.1.pkt) = true) := by
  decide +kernel

/-! ### A policy with every engine -/

/-- An automaton of kind k with one state. -/
def automaton (kind sub : Nat) : Automaton :=
  { kind := kind, sub := sub, classes := 1, firstLane := 0, replicas := 1, base := sub, start := sub, entries := 1, ingress := true,
    egress := true, channels := 0, segmentReset := false, contentId := BitVec.ofNat 64 sub, classMap := List.replicate 256 0, reports := [] }

def testSkiver : SkiverTables :=
  { magic := 0#32, chunkBytes := 256, unitMask := 1#8, templateFromHost := true, segmentLimit := 65536, controlMode := 0#64,
    pretokAutomaton := 0, vocabCount := 0, mergeCount := 0, senders := [6#12], specialCount := 0, specials := [], byteMap := [], vocab := [], pool := [],
    merges := [] }

def testAwl : AwlTables :=
  { magic := 0#32, northServes := true, southServes := true, automata := [automaton 2 0, automaton 0 1], words := [],
    sets := [[1, 0xFFFF, 0xFFFF, 0xFFFF, 0xFFFF, 0xFFFF, 0xFFFF, 0xFFFF]], tenantMap := [] }

def testArmature : ArmatureTables :=
  { magic := 0#32, egressOffset := 0, ingressOffset := 0, northServes := true, southServes := false, layoutId := 1#64,
    hostWords := 0#256, initial := [], features := [], edges := [], nodes := [], bitmaps := [],
    ensembles := [{ firstTree := 0, trees := 0, link := 0, base := 0#32, errorValue := 0#32, worst := 5#32, neutral := 6#32 }],
    trees := [], sets := [0 :: List.replicate 15 0xFFFF], tenantMap := [] }

def testSampler : SamplerTables :=
  { magic := 0#32, vocab := 4, maxDrafts := 2, northServes := true, southServes := true, tokenPort := 0x20#8, tokenGroup := 0xFFFF,
    classCount := 1, grammarStreams := 512, logitWindow := 4096, grammars := [], states := [], rows := [], actions := [], classMap := [],
    biases := [] }

def testBridle : BridleTables :=
  { magic := 0#32, programs := [{ first := 0, length := 1, egress := true, ingress := true }], code := [0#64], haltGroup := 0xFFFF,
    noticePort := 0x20#8, auditMode := 0, auditQueue := 5, haltQueue := some 6, northServes := true, southServes := true,
    tenantMap := [], defaults := [] }

/-- A linear probe of one output on rows of 64 bytes, at 1-byte format. -/
def testProbe : ProbeDecl :=
  { mlp := false, fmt := 0, actFmt := 0, link := 0, outputs := 1, scores := 1, steering := false, accShift := 0, contributionId := 0x14,
    weights := 0, bias := 64, handler := 0, cellList := [3#12], worst := 0x3F800000#32, neutral := 0#32, areaBase := 0 }
def testTap : TapDecl :=
  { edge := 3, south := false, sourceNode := none, destNode := none, destPort := 0x30#8, inFormat := 0, elements := 64, rows := 1,
    rowBytes := 96, probeFirst := 0, probeN := 2, window := 4096, layoutId := 1#64 }

def testJudge : JudgeTables :=
  { magic := 0#32, judgeOffset := 0, scores := 1, entryHandler := 0, ingressRing := 4096, worst := [1#32], neutral := [0#32],
    stages := [{ frames := 2, frameBytes := 64, areaBase := 0, cells := [1#12] }] }

/-- Every role and every engine's section. -/
def fullPolicy : Policy :=
  { basePolicy with tables := { baseTables with
      resources := { baseTables.resources with roles := 7#8 }
      latency := { baseTables.latency with entries := [entry 1 4096 0, entry 2 4096 0, entry 3 2048 0, entry 4 2048 0, entry 5 4096 0,
        { entry 0x14 0 1024 with contributionId := 0x14 }, { entry 0x15 0 1024 with contributionId := 0x15 }] }
      skiver := some testSkiver, egress := some { magic := 0#32, idLimit := 4, defaultOverflow := 0, hideRedactLength := false,
                                                  detok := [], pool := [], stopSets := [[]] }
      awl := some testAwl, armature := some testArmature, sampler := some testSampler, bridle := some testBridle, judge := some testJudge
      callipers := some { magic := 0#32, taps := [testTap], probes := [testProbe, { testProbe with mlp := true }],
                          weightImage := List.replicate 128 1#8 } } }

/-- The gate under it, and with a stream in slot 7. -/
def served : State := under fullPolicy
def serving (st : Stream) : State := holding served st
/-- A stream bound to program, sets and an awl instance. -/
def boundStream (egress : Bool) : Stream :=
  { stream egress with program := 0, armSet := 0, awlSet := 0, workAwl := [{}], awl := [{}] }

/-! ### Streams: hypotheses met -/

theorem witness_engineAbortOwes :
    (let s := waitsFor (serving { boundStream true with stepHalts := [{ due := 1000000, reason := 9 }] }) 0x0705
       [(1, 6), (1, 1), (1, 0xFF), (1, 0)]
     (s.dueWaiting 0x0705).any (fun w => (s.boundStreams (field w.body 0 1) (abortHalf w.body) (abortUnit w.body)).any
       (fun x => x.2.owes w.due)) = true) := by
  decide +kernel

/-- An open request's body for an egress stream of tenant 4. -/
def openBody : List (Nat × Nat) := [(8, 1), (2, 4), (2, 1), (2, 6), (1, 0x40), (1, 0), (8, 0), (4, 0), (2, 0xFFFF), (2, 0), (32, 0)]

theorem witness_streamOpen :
    (starts served 0x0201 64 openBody && starts gate 0x0201 64 openBody) = true ∧
    (asked served 0x0201 openBody).openPacketBefore 900000 = false ∧
    (asked served 0x0201 openBody).openStatus (parseOpen ((asked served 0x0201 openBody).slot .a 0).body) 900000 = Status.ok ∧
    (asked gate 0x0201 openBody).openStatus (parseOpen ((asked gate 0x0201 openBody).slot .a 0).body) 900000 ≠ Status.ok ∧
    (firstOpen (arrive served 1 0xD0 openBody).plane.inbox).any (fun a => !(arrive served 1 0xD0 openBody).openCmdBefore a.stamp &&
      decide ((arrive served 1 0xD0 openBody).openStatus (parseOpen a.pkt.payload) a.stamp = Status.ok)) = true ∧
    (firstOpen (arrive gate 6 0xD0 openBody).plane.inbox).any (fun a =>
      decide ((arrive gate 6 0xD0 openBody).openStatus (parseOpen a.pkt.payload) a.stamp ≠ Status.ok)) = true := by
  decide +kernel

theorem witness_opensWait :
    (let s : State := { arrive served 1 0xD0 openBody with ctl := (asked served 0x0201 openBody).ctl }
     (firstOpen s.plane.inbox).any (fun a => s.openCmdBefore a.stamp) = true) ∧
    (let a := (arrive served 1 0xD0 openBody).plane.inbox
     let s : State := { asked served 0x0201 openBody with plane := { served.plane with inbox := a.map (fun x => { x with stamp := 899999 }) } }
     s.openPacketBefore (s.slot .a 0).accept = true ∧ s.Ready .a 0 0x0201 64) := by
  decide +kernel

/-- An open that waits for its commit. -/
def pendingOpen (slot : Option SlotId) : PendingOpen :=
  { req := request true, stamp := 999488, order := 0, mailbox := some (.a, 0), status := if slot.isSome then Status.ok else Status.tableFull,
    slot := slot, live := 1, retryAfter := 0 }

theorem witness_openCommit :
    (let s := serving { stream true with state := .opening }
     let t : State := { s with streams := { s.streams with opens := [pendingOpen (some 7)] } }
     t.effStamp 999488 + 512 = t.now ∧ (aget 7 t.streams.table).any (fun st => decide (st.state = .opening)) = true) ∧
    (pendingOpen none).slot = none ∧ served.effStamp (pendingOpen none).stamp + 512 = served.now ∧
    (serving { stream true with state := .closed, closedAt := 995904 }).dueFree.isSome = true ∧ served.cast.resetting = none := by
  decide +kernel

theorem witness_openCommitOther :
    (let t : State := { serving (stream true) with streams := { (serving (stream true)).streams with opens := [pendingOpen (some 7)] } }
     t.effStamp 999488 + 512 = t.now ∧ (aget 7 t.streams.table).any (fun st => decide (st.state ≠ .opening)) = true) ∧
    (let o := { pendingOpen none with stamp := 999489 }
     served.now < served.effStamp o.stamp + 512) ∧ (serving (stream true)).dueFree.isNone = true := by
  decide +kernel

theorem witness_contributionPackets :
    (let s := arrive (serving (stream true)) 6 0xD1 [(8, handle7), (2, 60), (486, 0)]
     (s.takeInbox (fun a => decide (a.pkt.hdr.port = 0xD1#8))).any (fun r => (s.streamOf (field r.1.pkt.payload 0 8)).isSome &&
       decide (field r.1.pkt.payload 8 2 = 60) && decide (16 + 8 * 60 ≤ r.1.pkt.payload.length) &&
       decide (r.1.pkt.hdr.cls.toNat = 6)) = true) ∧
    (let s := arrive served 1 0xD2 [(8, 77), (4, 0), (2, 0x15), (114, 0)]
     (s.takeInbox (fun a => s.contributionPort a.pkt.hdr.port)).any (fun r => r.2.isIngress r.1.pkt.payload) = true ∧
       s.streams.ingressWaits = [] ∧ s.bufferUse < 65536 ∧ s.streams.table.any (fun e => e.2.claims 77) = false) := by
  decide +kernel

/-- An egress stream that claims ingress handle 77, opened at a tick. -/
def claiming (opened : Nat) : Stream := { stream true with req := { request true with ingressHandle := 77#64 }, openStamp := opened }

theorem witness_ingressClaimed :
    (let s := arrive (serving (claiming 990000)) 1 0xD2 [(8, 77), (4, 0), (2, 0x15), (114, 0)]
     s.streams.table.filter (fun e => e.2.claims 77) = [(7, claiming 990000)] ∧ (claiming 990000).ingress = none ∧
       s.ingressCutoff (claiming 990000) = some 991024) ∧
    (serving (claiming 998976)).ingressOverdue (claiming 998976) = true := by
  decide +kernel

theorem witness_contributionsRefused :
    (let bad := fun (s : State) (cls : Nat) (n : Nat) (f : Bool → Bool) =>
       ((arrive s cls 0xD1 [(8, handle7), (2, n), (486, 0)]).takeInbox (fun a => decide (a.pkt.hdr.port = 0xD1#8))).any (fun r =>
         f ((arrive s cls 0xD1 [(8, handle7), (2, n), (486, 0)]).streamOf (field r.1.pkt.payload 0 8)).isSome && decide (field r.1.pkt.payload 8 2 = n)
           && decide (r.1.pkt.hdr.cls.toNat = cls))
     bad (serving (stream true)) 0 1 id && bad served 6 1 (!·) && bad (serving (stream true)) 6 61 id && bad (serving (stream true)) 6 0 id) = true ∧
    (let s := arrive (serving (claiming 900000)) 1 0xD2 [(8, 77), (4, 0), (2, 0x15), (114, 0)]
     s.ingressCutoff (claiming 900000) = some 901024 ∧ (901024 ≤ 990000)) ∧
    (let w : IngressWait := { handle := 77#48, arrival := 0, claimed := true, body := ingressDefault false }
     let s : State := { served with streams := { served.streams with ingressWaits := [w] } }
     s.streams.ingressWaits.any (fun w => decide (w.handle.toNat = 77)) = true) ∧
    ((served.streams.table.all (fun e => !served.ingressOverdue e.2)) = true) := by
  decide +kernel

/-- A probe record's fields for token 0 of slot 7. -/
def probeFields (id : Nat) : List (Nat × Nat) := [(8, handle7), (4, 0), (2, id), (2, 0), (2, 1), (1, 1), (1, 0), (108, 0)]

theorem witness_probeRecords :
    (let fate := fun (id : Nat) =>
       let s := arrive (serving (stream true)) 1 0xD2 (probeFields id)
       (s.takeInbox (fun a => decide (a.pkt.hdr.port = 0xD2#8) && !s.isIngress a.pkt.payload)).map (fun r =>
         s.probeFate (stream true) (field r.1.pkt.payload 8 4) r.1.stamp { parseProbe r.1.pkt.payload r.1.pkt.hdr.source with source := 5#12 })
     fate 0x14 = some .keep ∧ fate 0x99 = some .discard) ∧
    (let s := arrive (serving (stream true)) 1 0xD2 (probeFields 0x14)
     (s.takeInbox (fun a => decide (a.pkt.hdr.port = 0xD2#8) && !s.isIngress a.pkt.payload)).any (fun r =>
       decide (r.1.pkt.payload.length = 128) && (s.streamOf (field r.1.pkt.payload 0 8)).isSome) = true) := by
  decide +kernel

/-! ### Ingress streams: hypotheses met -/

/-- A text packet for slot 7: position, length, segment 0, whether it ends the segment. -/
def textHdr : Header := { toPort 2 0xE0 with handle := BitVec.ofNat 48 handle7 }
def textPacket (s : State) (pos len : Nat) (ends : Nat) : State :=
  arriveAs s textHdr (.link 3) [(4, pos), (2, len), (2, 0), (2, ends), (6, 0), (240, 0x61)]

/-- What becomes of the text packet that waits. -/
def fateOf (s : State) : Option TextFate :=
  (s.takeInbox (fun a => isText a.pkt && !s.textWaits a.pkt.hdr.handle)).map (fun r => r.2.textFate r.1)

theorem witness_textPackets :
    (let s := serving (boundStream false)
     s.front = true ∧ s.cast.defaultState = false ∧
       (match fateOf (textPacket s 0 240 1) with | some (.candidate ..) => true | _ => false) = true ∧
       (match fateOf (textPacket s 0 241 0) with | some .malformed => true | _ => false) = true) ∧
    fateOf (textPacket served 0 1 0) = some .stale ∧ (under basePolicy).front = false ∧
    (fateOf (textPacket (under basePolicy) 0 1 0)).isSome = true := by
  decide +kernel

theorem witness_textOther :
    (let ends : SegVerdict := { segment := 0, stamp := 0, release := 1, cutoff := 0, epoch := 1, node := 6#12, promptEnd := true, lastChunk := 0, verdict := .waiting }
     let _ := ends
     (match fateOf (textPacket (serving (boundStream false)) 1 240 0) with | some (.gap ..) => true | _ => false) = true) ∧
    (textPacket (serving (boundStream false)) 0 240 1).inDefault 990000 = false ∧ gate.inDefault 990000 = true ∧
    (serving (boundStream false)).nextText.isNone = true := by
  decide +kernel

theorem witness_baselineOther :
    (let h := { textHdr with multicast := true }
     let s := arriveAs gate h (.link 3) [(4, 0), (2, 240), (2, 0), (2, 0), (6, 0), (240, 0x61)]
     (s.takeInbox (fun a => isText a.pkt && !s.textWaits a.pkt.hdr.handle)).any (fun r => r.1.pkt.hdr.multicast) = true) := by
  decide +kernel

theorem witness_duplicateText :
    fateOf (textPacket (serving { boundStream false with inp := { textWrite := 240 } }) 0 240 0) = some .duplicate := by
  decide +kernel

theorem witness_baselineText :
    gate.cast.defaultState = true ∧
    (let s := textPacket gate 0 241 0
     (s.takeInbox (fun a => isText a.pkt && !s.textWaits a.pkt.hdr.handle)).any (fun r =>
       decide (240 < field r.1.pkt.payload 4 2) && !r.1.pkt.hdr.multicast) = true) := by
  decide +kernel

/-- A text packet waiting at its edge. -/
def textWaiting : State :=
  let s := textPacket (serving (boundStream false)) 0 240 1
  { s with streams := { s.streams with textWait := s.plane.inbox }, plane := served.plane }

theorem witness_textAccept :
    (textWaiting.nextText).any (fun a =>
      match ({ textWaiting with streams := { textWaiting.streams with textWait := textWaiting.streams.textWait.erase a } } : State).textFate a with
      | .candidate .. => true
      | _ => false) = true := by
  decide +kernel

theorem witness_textAcceptOther :
    (let s : State := { textWaiting with streams := { textWaiting.streams with table := [] } }
     (s.nextText).any (fun a =>
       match ({ s with streams := { s.streams with textWait := s.streams.textWait.erase a } } : State).textFate a with
       | .stale => true
       | _ => false) = true) := by
  decide +kernel

/-- A chunk in flight: its encoding, and the tick it is released at. -/
def testChunk (ready : Bool) : Chunk :=
  { ordinal := 0, stamp := 900000, release := 1000000, epoch := 1, unit := 0, segment := 0, channel := 0, endsSegment := true,
    promptEnd := false, endPos := 3, code := ⟨[1, 2], [], 0, 0, 0, 0, 0, 0, 0, false⟩, carryAfter := {}, ready := ready }
def chunked (c : Chunk) : State := serving { boundStream false with inp := { chunks := [c], textWrite := 3 } }

theorem witness_chunks :
    (let s : State := { chunked { testChunk false with release := 1000001 } with eng := { skiverQueues := [(0, [(7, 0)])] } }
     s.unitQueue 0 = [(7, 0)] ∧ (aget 7 s.streams.table).any (fun st => (st.inp.chunks.find? (fun c => decide (c.ordinal = 0))).isSome) = true) ∧
    (let ok := fun (ready : Bool) => (chunked (testChunk ready)).dueChunk.any (fun x => !x.2.1.ended && decide (x.2.1.poisoned = none) &&
       !x.2.2.void && decide (x.2.2.ready = ready) && ((chunked (testChunk ready)).policyByEpoch x.2.2.epoch).any (fun p => !p.failOpen 1))
     ok true && ok false) = true ∧
    (testChunk true).code.forged = false ∧ (boundStream false).running = true ∧ served.streams.orphans = [] := by
  decide +kernel

/-- The full policy with `fail_open` in every entry. -/
def openPolicy : Policy :=
  { fullPolicy with tables := { fullPolicy.tables with latency := { fullPolicy.tables.latency with
      entries := fullPolicy.tables.latency.entries.map (fun e => { e with failOpen := true }) } } }

theorem witness_chunksOther :
    (let due := fun (s : State) (f : Stream → Chunk → Bool) => s.dueChunk.any (fun x => decide (x.2.1.poisoned = none) && f x.2.1 x.2.2
       && (s.policyByEpoch x.2.2.epoch).isSome)
     let c := { testChunk true with code := { (testChunk true).code with forged := true } }
     due (chunked c) (fun st c => !st.ended && !c.void && c.ready && c.code.forged)
       && due (chunked { testChunk true with void := true }) (fun st c => !st.ended && c.void)
       && due (holding (under openPolicy) { boundStream false with inp := { chunks := [testChunk false], textWrite := 3 } })
            (fun st c => !st.ended && !c.void && !c.ready && openPolicy.failOpen 1)
       && due (serving { boundStream false with state := .halted, inp := { chunks := [testChunk true], textWrite := 3 } }) (fun st _ => st.ended)) = true ∧
    (let o : Orphan := { slot := 7, release := 1000000, sample := false, dest := 0, port := 0#8, handle := 0#48, lat := 0, payload := [] }
     let s : State := { served with streams := { served.streams with orphans := [o] } }
     (s.dueOrphan (fun o => !o.sample)).isSome = true) ∧
    (let s : State := { chunked { testChunk false with release := 1000000 } with eng := { skiverQueues := [(0, [(7, 0)])] } }
     s.unitQueue 0 = [(7, 0)] ∧ 1000000 ≤ s.now) := by
  decide +kernel

/-- A segment verdict due. -/
def segVerdict (v : VerdictStage) (last : Bool) : SegVerdict :=
  { segment := 0, stamp := 900000, release := 1000000, cutoff := 999488, epoch := 1, node := 6#12, promptEnd := last, lastChunk := 0,
    verdict := v }
def judged (v : SegVerdict) : State := serving { boundStream false with inp := { verdicts := [v] } }

theorem witness_segmentVerdicts :
    (let due := fun (v : SegVerdict) => (judged v).dueSegment.any (fun x => !x.2.1.ended && decide (x.2.1.poisoned = none) &&
       !x.2.1.inp.chunks.any (fun c => !c.released && decide (c.release ≤ v.release)) && decide (x.2.2 = v) &&
       ((judged v).policyByEpoch v.epoch).any (fun p => !p.failOpen 2))
     due (segVerdict (.ready { halt := true }) false) && due (segVerdict (.ready {}) true) && due (segVerdict .queued false)) = true := by
  decide +kernel

theorem witness_segmentsOther :
    (let v := segVerdict (.ready {}) false
     (serving { boundStream false with inp := { verdicts := [v], chunks := [testChunk true] } }).dueSegment.any (fun x =>
       x.2.1.inp.chunks.any (fun c => !c.released && decide (c.release ≤ v.release))) = true) ∧
    ((holding (under openPolicy) { boundStream false with inp := { verdicts := [segVerdict .queued false] } }).dueSegment.any (fun x =>
       !x.2.1.ended && openPolicy.failOpen 2)) = true := by
  decide +kernel

/-! ### Egress streams: hypotheses met -/

/-- A logit packet for slot 7 with all 4 entries of a vocabulary of 4, or one of them. -/
def logits (s : State) (count cls : Nat) : State :=
  arriveAs s (toPort cls 0xD3) (.link 3) [(8, handle7), (4, 0), (2, 1), (1, 0), (1, 0), (4, 0), (2, count), (1, 0), (105, 0), (4 * count, 1)]
def sampled : State := serving { boundStream true with sampleEpoch := 1, sampling := { (stream true).sampling with drafts := 2 } }

theorem witness_logits :
    (let ok := fun (count : Nat) => (fun (s : State) =>
       (s.takeInbox (fun a => decide (a.pkt.hdr.port = 0xD3#8) && s.logitReady a)).any (fun r =>
         let h := parseLogit r.1.pkt.payload
         decide (r.1.pkt.hdr.cls = 0#3) && h.fits r.1.pkt.payload.length && decide (h.first + h.count ≤ 4) && decide (h.drafts ≤ 2) &&
           (match s.named h.handle with | .stream _ st => st.openSet.isNone && st.req.egress && decide (st.sampleEpoch = 1)
              && (s.policyFor st r.1.stamp).any (fun p => p.tables.sampler.isSome && decide (p.epoch = 1)
                && decide (s.logitUse p (p.samplerHalf 7) + h.count * logitSize (decide (h.format = 1)) ≤ 16777216)) | _ => false)
           && decide (h.count = count))) (logits sampled count 0)
     ok 4 && ok 3) = true ∧
    served.policies.any (fun p => p.role 1) = true ∧
    ((logits sampled 4 6).takeInbox (fun a => decide (a.pkt.hdr.port = 0xD3#8) && (logits sampled 4 6).logitReady a)).isSome = true := by
  decide +kernel

theorem witness_logitsRefused :
    (let taken := fun (s : State) (f : State → Arrival → Bool) =>
       (s.takeInbox (fun a => decide (a.pkt.hdr.port = 0xD3#8) && s.logitReady a)).any (fun r => f s r.1)
     taken (logits served 4 0) (fun s a => decide (a.pkt.hdr.cls = 0#3) && decide (s.named (field a.pkt.payload 0 8) ≠ .otherNode))
       && taken (logits sampled 4 6) (fun _ a => decide (a.pkt.hdr.cls ≠ 0#3))
       && taken (logits sampled 5 0) (fun s a => decide (4 < (parseLogit a.pkt.payload).first + (parseLogit a.pkt.payload).count)
            && s.policies.any (fun p => p.role 1))
       && taken (logits (serving { boundStream true with openStamp := 989999 }) 4 0) (fun s a => decide (s.effStamp a.stamp < 989999 + 512))) = true ∧
    (let s : State := { logits { served with streams := { served.streams with genBase := 1 } } 4 0 with freeUse := 0 }
     (s.takeInbox (fun a => decide (a.pkt.hdr.port = 0xD3#8) && s.logitReady a)).any (fun r => decide (s.named (field r.1.pkt.payload 0 8) = .stale)) = true) := by
  decide +kernel

/-- An open set, and a step of its results. -/
def testSet (first : Nat) : LogitSet := { step := 1, prevIndex := 0xFFFFFFFF, drafts := 0, bf16 := false, draftIds := [], firstStamp := first, pieces := [] }
def testStep (release : Nat) (tokens : List (Nat × Bool)) : Step :=
  { set := testSet 900000, stamp := 990000, release := release, epoch := 1, sampling := (stream true).sampling, grammar := {},
    hasGrammar := false, grammarDropped := false, highest := 0xFFFFFFFF, ended := 0, result := ⟨tokens, 0, false, 1, 0, 0, 0⟩ }

theorem witness_samplerTicks :
    (let s := serving { boundStream true with openSet := some (testSet 995904) }
     (aget 7 s.streams.table).any (fun st => (s.policyOf st).any (fun p => p.tables.sampler.any (fun b =>
       st.openSet.any (fun x => decide (x.firstStamp + b.logitWindow = s.now))))) = true) ∧
    (let s := serving { boundStream true with openSet := some (testSet 995905) }
     (aget 7 s.streams.table).any (fun st => st.openSet.any (fun x => decide (s.now < x.firstStamp + testSampler.logitWindow))) = true) ∧
    ([testStep 1000001 [(1, false)], { testStep 1000000 [(1, false)] with released := true }].all (fun x =>
      ({ boundStream true with steps := [x] } : Stream).steps.find? (fun x => !x.done && !x.late) == some x)) = true := by
  decide +kernel

theorem witness_sampleRelease :
    (let ok := fun (st : Stream) (r : Bool) => (fun (s : State) => (st.dueStep s.now).any (fun x => !st.owes x.release &&
        (s.policyFor st x.release).isSome && decide ((st.noToken x).isNone = r))) (serving st)
     ok { boundStream true with steps := [{ testStep 1000000 [(1, false)] with done := true }] } true
       && ok { boundStream true with steps := [testStep 1000000 [(1, false)]] } false) = true ∧ served.streams.orphans = [] := by
  decide +kernel

theorem witness_sampleReleaseOther :
    (let o : Orphan := { slot := 7, release := 1000000, sample := true, dest := 0, port := 0#8, handle := 0#48, lat := 0, payload := [] }
     let s : State := { served with streams := { served.streams with orphans := [o] } }
     (s.dueOrphan (fun o => o.sample && decide (o.slot = 7))).isSome = true) ∧
    (let st : Stream := { boundStream true with steps := [{ testStep 1000000 [(1, false)] with done := true }],
                                                stepHalts := [{ due := 1000000, reason := 9 }] }
     (st.dueStep served.now).any (fun x => st.owes x.release) = true) ∧
    (boundStream true).openSet = none := by
  decide +kernel

/-- Grammar tables of one state in which every class leaves with two pushes. -/
def deepSampler : SamplerTables :=
  { testSampler with
    states := [(0, { isFinal := false, maskRow := 0, actionBase := 0 })]
    rows := [{ allow := 1, need1 := 0, need2 := 0 }]
    actions := [(0, { returns := false, pushes := 2, pops := 0, push1 := 0, push0 := 0, target := 0 })]
    classMap := [(0, 0), (1, 0), (2, 0), (3, 0)] }

theorem witness_grammarOverflow :
    grammarStep deepSampler false { state := 0, stack := List.replicate 255 0 } 1 = none := by
  decide +kernel

/-- A token appended, its release tick given. -/
def testToken (release : Nat) : Token :=
  { index := 0, id := 1, stamp := 999000, stepPos := 0, epoch := 1, release := release, cutoff := release - 512, bytes := [0x61#8],
    start := 0, replaced := 0, isUndefined := false, ends := false, atMax := false, textAfter := { write := 1, ring := [0x61#8] },
    grammarAfter := {}, masked := 0, proposed := 0, accepted := 0, awl := [{}], awlLeft := 1 }
def tokened (x : Token) : Stream := { boundStream true with nextIndex := 1, appended := some 0, tokens := [x] }

/-- An awl item of that token. -/
def testItem : AwlItem := { slot := 7, ingress := false, ordinal := 0, position := 0, stamp := 999000, bytes := [] }
def awlState (v : AwlLane) : State := { serving (tokened (testToken 1001048)) with eng := { awl := [((.north, 255), v)] } }

theorem witness_awl :
    (tokened (testToken 1001048)).tokens.find? (fun t => t.detok.isNone && !(tokened (testToken 1001048)).ended) = some (testToken 1001048) ∧
    (served.policyByEpoch 1).isSome = true ∧
    ((awlState { queue := [testItem] }).awlLane .north 255).queue = [testItem] ∧
    ((awlState { inPlace := [testItem] }).awlLane .north 255).first = some testItem ∧
    (awlState {}).otherCopy = true ∧ (tokened (testToken 1001048)).tokens.find? (fun t => decide (t.index = testItem.ordinal)) =
      some (testToken 1001048) := by
  decide +kernel

theorem witness_awlOther :
    (let v : AwlLane := { queue := [testItem], inPlace := (List.range 4).map (fun n => { testItem with position := n + 1 }) }
     ((awlState v).awlLane .north 255).inPlace.length = 4) ∧
    (let v : AwlLane := { queue := [testItem], inPlace := [testItem] }
     ((awlState v).awlLane .north 255).inPlace.any (fun x => decide (x.slot = testItem.slot) && decide (x.position = testItem.position)) = true) ∧
    ((awlState {}).awlLane .north 255).queue = [] ∧
    (let i := { testItem with ingress := true }
     let s : State := { chunked { testChunk false with awl := [{}], awlLeft := 1 } with eng := { awl := [((.north, 255), { inPlace := [i] })] } }
     (s.awlLane .north 255).first = some i ∧ (aget 7 s.streams.table).any (fun st => (st.inp.chunks.find? (fun c => decide (c.ordinal = i.ordinal))).isSome) = true) ∧
    (let i := { testItem with position := 8 }
     ((awlState { inPlace := [i] }).awlLane .north 255).first = some i) ∧
    ({ awlState {} with rel := { gate.rel with weltMem := 0 } } : State).otherCopy = false := by
  decide +kernel

theorem witness_armature :
    (let s := serving (tokened (testToken 1001048))
     (s.nextAdmission).any (fun a => !a.ingress && decide (a.slot = 7) && decide (a.ordinal = 0)) = true) ∧
    (chunked { testChunk true with released := true }).nextAdmission.any (fun a => a.ingress && decide (a.ordinal = 0)) = true ∧
    (let x := { testToken 1001048 with arm := some (List.replicate 16 {}) }
     (tokened x).tokens.find? (fun t => t.arm.isSome && t.armDone.isNone) = some x ∧ (tokened x).ended = false ∧
       (((setEnsembles testArmature (tokened x).armSet)[0]?).getD none ).map (fun e => e.1) = some 0) := by
  decide +kernel

theorem witness_armatureOther :
    (let s := serving (tokened (testToken 1001048))
     (s.nextAdmission).any (fun a => (s.policyFor (tokened (testToken 1001048)) a.tick).any (fun p => p.tables.armature.isSome)
       && !s.commandOwed (tokened (testToken 1001048)).handle.toNat a.tick) = true) ∧
    (let p : Policy := { fullPolicy with tables := { fullPolicy.tables with armature := some { testArmature with egressOffset := 2000 } } }
     let q : Policy := { fullPolicy with epoch := 2, instant := 995000, effective := 995000, tables := { fullPolicy.tables with armature := none } }
     let s : State := { serving (tokened { testToken 1001048 with stamp := 994000 }) with
       cast := { served.cast with active := some q, retained := some p, epoch := 2 } }
     (s.nextAdmission).any (fun a => decide (a.tick = 996000) &&
       (s.policyFor (tokened (testToken 1001048)) a.tick).all (fun p => p.tables.armature.isNone)) = true) ∧
    (let s := waitsFor (serving (tokened (testToken 1001048))) 0x0205 [(8, handle7)]
     let w := s.ctl.waiting.map (fun w => { w with due := 990000 })
     let s : State := { s with ctl := { s.ctl with waiting := w } }
     (s.nextAdmission).any (fun a => s.commandOwed (tokened (testToken 1001048)).handle.toNat a.tick) = true) ∧
    ({ boundStream true with state := .halted } : Stream).ended = true ∧
    (let c := { testChunk false with arm := some (List.replicate 16 {}), armBy := 1 }
     ((boundStream false).req.egress = false) ∧ (([c].find? (fun c => c.arm.isSome && c.armDone.isNone)).isSome = true)) ∧
    (let x := { testToken 1001048 with arm := some (List.replicate 16 {}), armBy := 1 }
     (served.policyByEpoch x.armBy).isSome = true ∧ (0 : Fin 16).val < (x.arm.getD []).length) := by
  decide +kernel

/-- A token whose cutoff has come, and its verdict's job. -/
def cutToken : Token := testToken 1000512
def job : VerdictJob := { slot := 7, ingress := false, index := 0, cutoff := 1000000 }

theorem witness_verdicts :
    (let s := serving (tokened cutToken)
     firstJob (s.streams.table.flatMap (fun e => s.waitingVerdicts e.1 e.2)) = some job ∧ cutToken.discarded = false ∧
       (fullPolicy.programOf (tokened cutToken)).isSome = true) ∧
    (let v := { segVerdict .waiting true with release := 1000512, cutoff := 1000000 }
     (firstJob ((judged v).streams.table.flatMap (fun e => (judged v).waitingVerdicts e.1 e.2))).any (fun j => j.ingress) = true) ∧
    (let x := { cutToken with inputs := some {}, verdict := .queued }
     let s := { serving (tokened x) with eng := { lanes := [((.north, 7), { queue := [job] })] } }
     (s.lane .north 7).run = none ∧ firstJob (s.lane .north 7).queue = some job ∧
       (s.jobOf job).any (fun r => ((s.policyByEpoch r.2.2).bind (fun p => p.programOf r.1)).isSome && !s.foreseenOver job r.1) = true) := by
  decide +kernel

theorem witness_verdictsOther :
    (let s := serving (tokened { cutToken with discarded := true })
     firstJob (s.streams.table.flatMap (fun e => s.waitingVerdicts e.1 e.2)) = some job) ∧
    (let s := arrive (serving (tokened cutToken)) 1 0xD2 (probeFields 0x14)
     firstJob (s.streams.table.flatMap (fun e => s.waitingVerdicts e.1 e.2)) = some job ∧
       s.contributionBefore (tokened cutToken).handle.toNat job.cutoff = true) ∧
    (let s : State := { served with eng := { lanes := [((.north, 7), { queue := [job] })] } }
     (s.lane .north 7).run = none ∧ firstJob (s.lane .north 7).queue = some job ∧ (s.jobOf job).isNone = true) ∧
    firstJob (served.lane .north 7).queue = none := by
  decide +kernel

/-- Under the free value that says which word a program meets, a start on a lane meets a poisoned one. -/
theorem witness_tablePoison (a : Nat) (h : Config.meetsWord 0 4 (boundStream true).handle 0 a = true) (ha : 0x14000000 ≤ a) :
    ({ served with rel := { served.rel with poisoned := [(0, 0, a)] } } : State).tablePoison 4 (boundStream true).handle 0 = some a := by
  simp [State.tablePoison, ha, served, under, State.loadStores, State.setStores, h]

/-- A token that is queued on its lane behind one of its own release tick that will halt the stream. -/
def behindHalt : State :=
  let x : Token := { testToken 1001048 with inputs := some {}, verdict := .ready { halt := true } }
  let y : Token := { testToken 1001048 with index := 1, inputs := some {}, verdict := .queued }
  { serving { tokened x with nextIndex := 2, appended := some 1, tokens := [x, y] } with
    eng := { lanes := [((.north, 7), { queue := [{ job with index := 1 }] })] } }

theorem witness_verdictForeseen :
    (behindHalt.lane .north 7).run = none ∧ firstJob (behindHalt.lane .north 7).queue = some { job with index := 1 } ∧
    (behindHalt.jobOf { job with index := 1 }).any (fun r => behindHalt.foreseenOver { job with index := 1 } r.1) = true := by
  decide +kernel

/-- A verdict running on lane 7 of the north half, over `code`. -/
def runOf (code : List DWord) : LaneRun :=
  { job := job, epoch := 1, inputs := {}, regs := Vector.replicate 16 0#32, pc := 0, length := code.length, first := 0, acts := {} }
def laneState (release : Nat) (code : List DWord) : State :=
  let t := { fullPolicy.tables with bridle := some { testBridle with code := code } }
  { holding (under { fullPolicy with tables := t }) (tokened { testToken release with inputs := some {}, verdict := .running }) with
    eng := { lanes := [((.north, 7), { run := some (runOf code) })] } }

theorem witness_bridleEnd :
    (laneState 1000001 [bridleWord 0x00 0 0 0 0#32]).LaneAt .north 7 (runOf [bridleWord 0x00 0 0 0 0#32]) (bridleWord 0x00 0 0 0 0#32) ∧
    (tokened (testToken 1000001)).tokens.find? (fun t => decide (t.index = 0)) = some (testToken 1000001) ∧
    (laneState 1000001 []).now < 1000001 ∧ (laneState 1000000 []).now = 1000000 := by
  decide +kernel

/-- A stream whose token's boundary has come with a verdict. -/
def atBoundary (v : VerdictStage) : Stream := tokened { testToken 1000000 with inputs := some {}, verdict := v }

theorem witness_tokenBoundaries :
    ([VerdictStage.ready {}, .ready { halt := true }, .queued].all (fun v =>
      let st := atBoundary v
      (st.dueToken 1000000).any (fun x => decide (x.verdict = v) && !x.discarded && !st.afterStop x && !st.overflows x.index x.textAfter)
        && (st.dueHalt 1000000).isNone && st.running && st.ingress.isNone && decide (st.poisoned = none))) = true ∧
    fullPolicy.failOpen 4 = false ∧ (served.policyByEpoch 1).isSome = true ∧
    (let st : Stream := { boundStream true with stepHalts := [{ due := 1000000, reason := 9 }] }
     st.dueToken 1000000 = none ∧ st.dueHalt 1000000 = some { due := 1000000, reason := 9 } ∧ st.running = true) ∧
    (boundStream true).dueToken 1000000 = none ∧ (boundStream true).dueHalt 1000000 = none ∧
    ((arrive served 6 0xD4 [(56, 1)]).takeInbox (fun a => decide (a.pkt.hdr.port = 0xD4#8))).isSome = true ∧
    (served.cast.active.bind (fun p => p.tables.bridle)).bind (fun (b : BridleTables) => b.haltQueue) = some 6 := by
  decide +kernel

theorem witness_tokenBoundariesOther :
    (let due := fun (st : Stream) (f : Token → Bool) => (st.dueToken 1000000).any f && (st.dueHalt 1000000).isNone && decide (st.poisoned = none)
     due (atBoundary (.ready { rewind := some 1 })) (fun x => !x.discarded)
       && due (tokened { testToken 1000000 with discarded := true }) (fun x => x.discarded)
       && due { atBoundary (.ready {}) with state := .halted } (fun _ => true)
       && (let st : Stream := { boundStream true with state := .halted, stepHalts := [{ due := 1000000, reason := 9 }] }
           st.ended && (st.dueHalt 1000000).isSome && (st.dueToken 1000000).isNone)
       && (let st := { atBoundary (.ready {}) with poisoned := some 5 }
           (st.dueToken 1000000).isSome && !st.ended)) = true ∧ openPolicy.failOpen 4 = true := by
  decide +kernel

/-- The gate with a message on the mesh. -/
def meshed (s : State) (m : Msg) : State := { s with grid := { s.grid with mesh := [(some 1#12, m)] } }
/-- A judge's result for token 0 of slot 7, a score of 1.0. -/
def judgeMsg (kind : Nat) : Msg :=
  { header := mkHeader kind (bridlePort .south) true 1 3 false 0 0, words := [BitVec.ofNat 64 handle7, 0#64, 0x3F800000#64] }

theorem witness_judge :
    (let s := serving (tokened (testToken 1001048))
     s.nextDispatch.any (fun d => decide (d.slot = 7) && decide (d.index = 0)) = true ∧ (s.judgeOf 1 true).isSome = true ∧
       testJudge.stages ≠ []) ∧
    (let taken := fun (m : Msg) (x : Token) =>
       let s := meshed (serving (tokened x)) m
       (s.takeMesh (fun m => hdrToEngine m.header && decide (hdrDest m.header = bridlePort .south))).any (fun r =>
         decide (hdrKind r.1.header = hdrKind m.header) && (s.streamOf ((r.1.words[0]?).getD 0#64).toNat).any (fun y => !y.2.ended && y.2.req.egress)
           && !(judgeRecord r.1 1).poison)
     taken (judgeMsg 0) (testToken 1000513) && taken (judgeMsg 0) (testToken 1000512) && taken (judgeMsg 3) (testToken 1000512)) = true ∧
    (testToken 1000513).cutoff = 1000001 ∧ (testToken 1000512).cutoff = 1000000 ∧ (testToken 1000513).inputs = none := by
  decide +kernel

theorem witness_judgeOther :
    (let s := chunked { testChunk true with released := true }
     s.nextDispatch.any (fun d => decide (d.slot = 7)) = true ∧ (s.judgeOf 1 false).isSome = true) ∧
    served.nextDispatch.isNone = true ∧
    (let taken := fun (s : State) (m : Msg) (f : Option (SlotId × Stream) → Bool) =>
       ((meshed s m).takeMesh (fun m => hdrToEngine m.header && decide (hdrDest m.header = bridlePort .south))).any (fun r =>
         decide (hdrKind r.1.header = 0) && f ((meshed s m).streamOf ((r.1.words[0]?).getD 0#64).toNat))
     taken served (judgeMsg 0) (fun e => e.isNone)
       && taken (serving { tokened (testToken 1001048) with state := .halted }) (judgeMsg 0) (fun e => e.any (fun x => x.2.ended))
       && taken (serving (boundStream true)) (judgeMsg 0) (fun e => e.any (fun x => x.2.tokens.isEmpty && x.2.req.egress))
       && taken (serving (tokened { testToken 1001048 with judge := some (judgeRecord (judgeMsg 0) 1) })) (judgeMsg 0)
            (fun e => e.any (fun x => x.2.tokens.all (fun t => t.judge.isSome && t.inputs.isNone)))
       && taken (chunked (testChunk false)) (judgeMsg 0) (fun e => e.any (fun x => !x.2.req.egress && !x.2.inp.chunks.isEmpty))
       && taken (serving (boundStream false)) (judgeMsg 0) (fun e => e.any (fun x => !x.2.req.egress && x.2.inp.chunks.isEmpty))) = true := by
  decide +kernel

/-- A callipers item of the tap's first or second probe. -/
def probeItem (probe release : Nat) : ProbeItem :=
  { tap := 0, pass := 1, stamp := 990000, row := ⟨BitVec.ofNat 64 (6 * 2 ^ 36), 4, 0, true, List.replicate 64 1#8⟩, ordinal := 0, probe := probe,
    unit := 0, south := false, release := release, epoch := 1, saturated := false }
def probed (i : ProbeItem) : State := { served with eng := { callipers := { items := [i] } } }
/-- An MLP's result for the second probe's item. -/
def mlpMsg (kind : Nat) : Msg :=
  { header := mkHeader kind (callipersPort .north) true 3 3 false 0 0, words := [BitVec.ofNat 64 (6 * 2 ^ 36), 4#64, 0#64] }

theorem witness_probes :
    (let x : Slice := { tap := 0, pass := 1, opened := 990000, due := 1000000, layoutId := 1#64, south := false, rowBytes := 96, rows := [] }
     [x].find? (fun x => decide (x.due ≤ gate.now)) = some x) ∧
    (probed (probeItem 0 1000001)).eng.callipers.items.find? (fun i => decide (halfOf i.south = .north) && !i.done && !i.mlpWait) =
      some (probeItem 0 1000001) ∧
    ((probed (probeItem 0 1000001)).probeOf (probeItem 0 1000001)).any (fun x => !x.2.2.2.mlp &&
      ((probed (probeItem 0 1000001)).weightPoison false x.1 x.2.2.2 x.2.2.1.elements).isNone) = true ∧
    (let s : State := { probed (probeItem 0 1000001) with rel := { gate.rel with poisoned := [(3, 0, 64)] } }
     (s.probeOf (probeItem 0 1000001)).any (fun x => (s.weightPoison false x.1 x.2.2.2 x.2.2.1.elements).isSome) = true) ∧
    (let i := { probeItem 1 1000001 with mlpWait := true }
     let s := meshed (probed i) (mlpMsg 0)
     (s.takeMesh (fun m => hdrToEngine m.header && decide (hdrDest m.header = callipersPort .north))).isSome = true ∧
       (s.probeOf i).any (fun x => decide ((x.2.2.2.cellList[i.ordinal % max 1 x.2.2.2.cellList.length]?).map (fun c => c.toNat) =
         some (hdrSource (mlpMsg 0).header))) = true ∧
       i.row.handle.toNat = (((mlpMsg 0).words[0]?).getD 0#64).toNat ∧ i.row.tokenIndex = (((mlpMsg 0).words[1]?).getD 0#64).toNat % 2 ^ 32) ∧
    hdrKind (mlpMsg 1).header ≠ 0 ∧ ((probed (probeItem 0 1000000)).probeOf (probeItem 0 1000000)).isSome = true ∧
    BitVec.ofNat 12 ((probeItem 0 1000000).row.handle.toNat / 2 ^ 36) ≠ served.aon.node ∧
    (probed (probeItem 0 1000001)).eng.callipers.items.filter (fun i => !i.released && decide (i.release ≤ gate.now)) = [] := by
  decide +kernel

theorem witness_probesOther :
    served.eng.callipers.slices.all (fun x => decide (gate.now < x.due)) = true ∧ (served.nextItem true).isNone = true ∧
    (let ok := fun (i : ProbeItem) => ((probed i).nextItem i.south).any (fun x => decide (x = i)) && ((probed i).probeOf i).isSome
     ok (probeItem 0 1000001) && ok (probeItem 0 1000000) && ok { probeItem 0 1000000 with released := true }
       && ok (probeItem 1 1000001) && ((probed (probeItem 1 1000001)).probeOf (probeItem 1 1000001)).any (fun x => x.2.2.2.mlp)) = true ∧
    (let s := meshed served (mlpMsg 0)
     (s.takeMesh (fun m => hdrToEngine m.header && decide (hdrDest m.header = callipersPort .north))).isSome = true ∧
       s.eng.callipers.items = []) ∧
    (probed (probeItem 0 1000000)).eng.callipers.items.all (fun i => !i.released && decide (i.release = 1000000)) = true := by
  decide +kernel

/-! ### Bridle instructions: hypotheses met -/

/-- Whether the lane stands at an instruction word. -/
def laneStands (w : DWord) : Bool := decide ((laneState 1001048 [w]).LaneAt .north 7 (runOf [w]) w)

theorem witness_bridleArithmetic :
    ([bridleWord 0x01 15 0 0 0xFFFFFF#32, bridleWord 0x02 15 0 0 0xFFFFFFFF#32].all laneStands
      && [0x10, 0x11, 0x12, 0x13, 0x18, 0x19, 0x1A].all (fun op => laneStands (bridleWord op 15 14 13 0#32))) = true := by
  decide +kernel

theorem witness_bridleBranches :
    ([0x20, 0x21, 0x28, 0x29, 0x2A, 0x2B].all (fun op => laneStands (bridleWord op 0 15 14 4095#32))
      && laneStands (bridleWord 0x22 0 15 0 1#32) && laneStands (bridleWord 0x2C 0 15 15 (BitVec.ofNat 32 (4095 + 2 ^ 16)))) = true := by
  decide +kernel

/-- A ninth tag is dropped and counted as the program runs (R334, R346). -/
theorem test_ninth_tag :
    (let r := { runOf [bridleWord 0x46 0 0 0 9#32] with acts := { tags := List.replicate 8 1#16 } }
     let s0 := laneState 1001048 [bridleWord 0x46 0 0 0 9#32]
     let s : State := { s0 with eng := { s0.eng with lanes := [((.north, 7), { run := some r })] } }
     match exec (.bridleTag .north 7 9#16) s with
     | .next u => decide ((u.counter ⟨0x0F, 0, 8⟩).count = 1) && decide ((u.lane .north 7).run.map (fun x => x.acts.tags.length) = some 8)
     | _ => false) = true := by
  decide +kernel

theorem witness_bridleActions :
    [bridleWord 0x41 0 0 0 (BitVec.ofNat 32 (1023 + 3 * 2 ^ 16)), bridleWord 0x42 0 15 14 0#32, bridleWord 0x43 0 0 0 512#32,
      bridleWord 0x44 0 0 0 0#32, bridleWord 0x45 0 15 0 0xFFFF#32, bridleWord 0x46 0 0 0 0xFFFF#32].all laneStands = true := by
  decide +kernel

/-! ### Cell instructions: hypotheses met -/

/-- The handler of slot 0 at address 0. -/
def handler : Running := { pc := 0, slot1 := false, handlerAddr := 0 }
/-- Cell 1 running it at a word, with the last 64 bytes of its local memory and a writable window at 0 in reach. -/
def cellOf (w : Word) (x : Cell) : Cell :=
  { x with run := some handler, mem := Memory.setBytes [] 0 (leBytes 4 w.toNat),
           slot0 := { loaded := true, loadBase := 0, rangeBytes := localBytes, barrierMask := 2#64, handlers := [0],
                      windows := [(0, 16384, true)] } }
def cellState (w : Word) (x : Cell) : State := gate.setCell 1#12 (cellOf w x)
/-- Whether it stands at the word. -/
def cellStands (w : Word) (x : Cell) : Bool := decide ((cellState w x).CellAt 1#12 handler w)
/-- A cell whose g31 holds a value, with tile 3 in a mode. -/
def g31 (v : DWord) (mode : Nat) : Cell := { g := Vector.ofFn (fun i => if i.val = 31 then v else 0#64), tiles := Vector.replicate 4 { mode := mode } }

theorem witness_cellRegister :
    ((List.range 13).all (fun op => cellStands (encReg 0 op 31 31 31 0#5 false) (g31 64#64 0))
      && [0, 2, 3, 4, 5, 6, 7, 9].all (fun op => cellStands (encImm 1 op 31 31 0x3FFF#14) {})
      && cellStands (encExtr 31 31 63 63) {} && cellStands (encWide 1 0xF 31 0x7FFFF#19) {}) = true := by
  decide +kernel

theorem witness_cellMemory :
    ([(0x0, 1), (0x1, 2), (0x2, 4), (0x3, 8), (0x8, 1), (0x9, 2), (0xA, 4), (0xB, 8)].all (fun x =>
        cellStands (encImm 2 x.1 31 31 0#14) (g31 0x18000#64 0)
          && (cellOf 0#32 {}).reaches handler (localBytes - x.2) x.2 x.2 && ((cellOf 0#32 {}).poisonAt (localBytes - x.2) x.2).isNone
          && !(cellOf 0#32 {}).reaches handler localBytes x.2 x.2)
      && cellStands (encImm 5 0 31 31 0#14) {} && cellStands (encImm 5 1 31 31 0#14) {}
      && (cellOf 0#32 {}).reaches handler (localBytes - 64) 64 64 && !(cellOf 0#32 {}).reaches handler localBytes 64 64) = true ∧
    ((cellState (encImm 2 0 31 31 0x3FFF#14) (g31 0x18000#64 0)).cell 1#12).addr 31 0x3FFF#14 = localBytes - 1 := by
  decide +kernel

theorem witness_cellMemoryPoison :
    ([(0x0, 1), (0x1, 2), (0x2, 4), (0x3, 8)].all (fun x =>
        cellStands (encImm 2 x.1 31 31 0#14) { poison := [0x80] } && (cellOf 0#32 { poison := [0x80] }).reaches handler 0x80 x.2 x.2
          && decide ((cellOf 0#32 { poison := [0x80] }).poisonAt 0x80 x.2 = some 0x80))
      && cellStands (encImm 5 0x0 31 31 0#14) { poison := [0x80] } && (cellOf 0#32 { poison := [0x80] }).reaches handler 0x80 64 64
      && decide ((cellOf 0#32 { poison := [0x80] }).poisonAt 0x80 64 = some 0x80)) = true ∧
    (cellStands (encWide 3 0xA 31 0#19) (g31 0x18000#64 0)
      && decide ((cellOf (encWide 3 0xA 31 0#19) (g31 0x18000#64 0)).fetch handler 0x18000 = .fault 2)
      && cellStands (encWide 3 0xA 31 0#19) { g31 0x80#64 0 with poison := [0x80] }
      && decide ((cellOf (encWide 3 0xA 31 0#19) { g31 0x80#64 0 with poison := [0x80] }).fetch handler 0x80 = .poison 0x80)) = true := by
  decide +kernel

theorem witness_cellBranches :
    ([0, 1, 2, 3, 4, 5].all (fun op => cellStands (encImm 3 op 31 30 0x2000#14) {})
      && cellStands (encWide 3 0x8 0 0x40000#19) {} && cellStands (encWide 3 0x9 31 0x3FFFF#19) {}
      && cellStands (encWide 3 0xA 31 0#19) (g31 0#64 0)) = true ∧
    encWide 3 0x8 0 0x40000#19 &&& 0xFF07FFFF#32 = encWide 3 0x8 0 0x40000#19 ∧
    encWide 3 0xA 31 0#19 &&& 0xFFF80000#32 = encWide 3 0xA 31 0#19 ∧
    (cellOf (encWide 3 0xA 31 0#19) (g31 0#64 0)).fetch handler ((cellOf (encWide 3 0xA 31 0#19) (g31 0#64 0)).get 31).toNat =
      .word (encWide 3 0xA 31 0#19) := by
  decide +kernel

theorem witness_cellVector :
    [true, false].all (fun i => [0, 1, 2, 4, 5].all (fun op => cellStands (encReg 4 op 31 30 29 0 i) {})
      && cellStands (encReg 4 3 31 30 29 28 i) {} && cellStands (encReg 4 7 31 30 0 0 i) {}) = true ∧
    cellStands (encReg 4 6 31 30 0 0 false) {} = true ∧
    encReg 4 6 31 30 0 0 false &&& 0xFFFFC000#32 = encReg 4 6 31 30 0 0 false ∧
    encReg 4 7 31 30 0 0 true &&& 0xFFFFC001#32 = encReg 4 7 31 30 0 0 true := by
  decide +kernel

/-- The word of an `mstep` on tile 3 in a format. -/
def mstepWord (fmt : Nat) : Word := cellWord 6 0x1 (3 * 2 ^ 22 + 31 * 2 ^ 17 + 30 * 2 ^ 12 + 15 * 2 ^ 8 + 3 * 2 ^ 6 + 32 + fmt * 4)

theorem witness_cellMatrix :
    (cellStands (cellWord 6 0x0 (3 * 2 ^ 22 + 2 * 2 ^ 20 + 255 * 2 ^ 12)) {} && cellStands (mstepWord 6) (g31 0#64 2)
      && cellStands (mstepWord 5) (g31 0#64 1) && cellStands (mstepWord 6) (g31 0#64 1)
      && cellStands (cellWord 6 0x2 (3 * 2 ^ 22 + 31 * 2 ^ 17 + 4 * 2 ^ 14 + 2 ^ 13 + 2 ^ 12 + 3 * 2 ^ 10 + 2 ^ 9 + 3 * 2 ^ 7 + 127)) {}
      && cellStands (cellWord 6 0x3 (3 * 2 ^ 22 + 31 * 2 ^ 17)) {}) = true ∧
    ((cellOf (mstepWord 6) (g31 0#64 2)).tile 3).mode = 2 ∧ ((cellOf (mstepWord 5) (g31 0#64 1)).tile 3).mode = 1 ∧
    cellWord 6 0x3 (3 * 2 ^ 22 + 31 * 2 ^ 17) &&& 0xFFFE0FFF#32 = cellWord 6 0x3 (3 * 2 ^ 22 + 31 * 2 ^ 17) := by
  decide +kernel

/-- A work message for handler 0 of slot 0, and one on its way to cell 1. -/
def workMsg : Msg := { header := mkHeader 1 1 false 2 15 false 0 0, words := List.replicate 15 0#64 }

/-- Header words: to cell 2 with 2 payload words, and to cell 2 with none. -/
def toCell (kind len : Nat) : DWord := mkHeader kind 2 false 0 len false 0 0

theorem witness_cellMessages :
    (cellStands (cellWord 7 0x0 (31 * 2 ^ 14)) (g31 (toCell 0 2) 0) && cellStands (cellWord 7 0x1 (31 * 2 ^ 14)) (g31 1#64 0)
      && cellStands (cellWord 7 0x2 (31 * 2 ^ 19)) {} && cellStands (cellWord 7 0x3 (31 * 2 ^ 19)) {}) = true ∧
    gate.sendable (toCell 0 2) = true ∧ hdrLength (withSource (toCell 0 0) 1#12) = 0 ∧
    (takeWord [{ header := toCell 0 0, words := [] }]).isSome = true ∧
    (let x : Cell := { sendHdr := some (toCell 0 15), sendWords := List.replicate 14 0#64 }
     gate.sendUse 1#12 x = 15 ∧ hdrLength (toCell 0 15) ≤ x.sendWords.length + 1) := by
  decide +kernel

theorem witness_cellMessagesStall :
    (takeWord [workMsg]).isNone = true ∧
    (let x : Cell := { sendHdr := some (toCell 0 15), sendWords := List.replicate 15 0#64 }
     gate.sendUse 1#12 x = 16) ∧
    (let m : Msg := { header := withSource (toCell 0 15) 1#12, words := List.replicate 15 0#64 }
     let w : Msg := { m with waits := true }
     let s : State := { gate with grid := { mesh := [(some 1#12, w), (some 1#12, m)] } }
     s.sendUse 1#12 {} = 16 ∧ s.sendable (toCell 0 2) = true) ∧
    ((cellOf 0#32 {}).reaches handler localBytes 64 64 = false ∧ localBytes < 2 ^ 17 - 64 + 64 ∧ (1 : Nat) % 64 ≠ 0) := by
  decide +kernel

theorem witness_cellTransfers :
    [0, 1, 2].all (fun op => cellStands (encBulk op 31 30 63 0) {}) = true ∧
    (cellOf 0#32 {}).reaches handler 0 16384 64 = true ∧ (64 : Nat) % 2 ^ 17 + 64 * 256 ≤ localBytes ∧ 64 % 64 = 0 := by
  decide +kernel

theorem witness_cellSync :
    [cellWord 9 0 (1 * 2 ^ 8), cellWord 9 1 (255 * 2 ^ 6), cellWord 9 2 (255 * 2 ^ 6), cellWord 9 3 (31 * 2 ^ 19 + 255 * 2 ^ 6),
      cellWord 9 4 (255 * 2 ^ 6 + 1), cellWord 0xA 0 0, cellWord 0xA 1 0, cellWord 0xA 2 (31 * 2 ^ 19 + 4),
      cellWord 0xA 4 (31 * 2 ^ 19)].all (fun w => cellStands w {}) = true ∧
    ((cellOf 0#32 {}).slot false).barrierMask.getLsbD 1 = true ∧
    (let x : Cell := { run := some { handler with atBarrier := some 1#6 }, slot0 := { barrierMask := 2#64 } }
     let s := gate.setCell 1#12 x
     s.barrierFull false 1#6 = true ∧ x.arrived false 1#6 = true ∧ s.barrierFull false 2#6 = false) := by
  decide +kernel

theorem witness_flagChange :
    (let s : State := { gate with grid := { flagOps := [(255#8, true, 9)] } }
     s.grid.flagOps = [(255#8, true, 9)]) ∧
    (∃ o ∈ [(255#8, false, 9)], o.1 = (255#8 : Byte) ∧ o.2.2 = (9 : Nat) ∧ o.2.1 ≠ true) := by
  decide +kernel

theorem witness_cellFaults' :
    (let x := cellOf 0xF0000000#32 {}
     x.run = some handler ∧ handler.atBarrier = none ∧ x.reloading = false ∧ x.fetch handler 0 = .fault 1) ∧
    ((cellOf 0#32 {}).slot false).barrierMask.getLsbD 63 = false ∧ cellStands (cellWord 9 0 (63 * 2 ^ 8)) {} = true ∧
    cellStands (cellWord 7 0x0 (31 * 2 ^ 14)) { sendHdr := some 0#64 } = true ∧
    gate.sendable (mkHeader 0 7 true 0 0 false 0 0) = false ∧ cellStands (cellWord 0xA 2 (31 * 2 ^ 19 + 5)) {} = true ∧
    ((cellOf (mstepWord 6) (g31 0#64 1)).tile 3).mode ≠ 2 := by
  decide +kernel

theorem witness_cellNotRunning :
    (({} : Cell).run = none) ∧ ({ cellOf 0#32 {} with reloading := true } : Cell).reloading = true ∧
    (({ cellOf 0#32 {} with run := some { handler with atBarrier := some 1#6 } } : Cell).run.any (fun q => decide (q.atBarrier = some 1#6))) = true ∧
    coreOf (.cellNop 1#12) = some 1#12 ∧
    (cellOf 0xA0000000#32 { poison := [0] }).fetch handler 0 = .poison 0 := by
  decide +kernel

theorem witness_cellDeliveries :
    (let x : Cell := { (cellOf 0#32 {}) with run := none, recvQ := [workMsg] }
     x.run = none ∧ x.reloading = false ∧ gate.rel.usable 1#12 = true ∧ x.recvQ.find? Msg.isWork = some workMsg ∧
       (x.slot (hdrSlot workMsg.header)).handlers[hdrHandler workMsg.header]? = some 0) ∧
    (let x : Cell := { recvQ := List.replicate 3 workMsg }
     x.queued + workMsg.size = 64) ∧
    ((meshed gate workMsg).takeMesh (fun m => !hdrToEngine m.header && decide (hdrDest m.header = 1))).isSome = true ∧
    (let f : Transfer := { from? := 2#12, kind := 3, dest := 1#12, localAddr := 0, remote := 0, bytes := 64, data := [], poison := false,
                           tag := 0#6, refused := false, issued := 0 }
     let s : State := { gate with grid := { transfers := [f] } }
     (s.cell 1#12).queued + 1 ≤ 64 ∧ (s.grid.transfers.find? (fun t => decide ((if t.kind = 0 ∨ t.kind = 3 then t.dest else t.from?) = 1#12))) = some f) := by
  decide +kernel

/-- A transfer of cell 1 of a kind. -/
def transferOf (kind : Nat) (granted : Bool) : Transfer :=
  { from? := 1#12, kind := kind, dest := 1#12, localAddr := 0, remote := 0, bytes := 64, data := [], poison := false, tag := 0#6,
    refused := false, issued := 0, granted := granted }

theorem witness_cellDeliveriesOther :
    (let x : Cell := { run := none, recvQ := [workMsg], slot0 := { handlers := [0xFFFF] } }
     x.run = none ∧ x.recvQ.find? Msg.isWork = some workMsg ∧ ((x.slot (hdrSlot workMsg.header)).handlers[hdrHandler workMsg.header]?).getD 0xFFFF = 0xFFFF) ∧
    (cellOf 0#32 {}).run.isSome = true ∧ (gate.takeMesh (fun m => decide (hdrDest m.header = 1))).isNone = true ∧
    (let s : State := { meshed gate workMsg with rel := { gate.rel with benches := [(benchOf 1#12, 0x01#8)] } }
     s.rel.usable 1#12 = false ∧ (s.takeMesh (fun m => decide (hdrDest m.header = 1))).isSome = true) ∧
    (let x : Cell := { reloading := true, recvQ := List.replicate 4 workMsg }
     x.reloading = true ∧ workMsg.isWork = true ∧ 64 < x.queued + workMsg.size) ∧
    (let next := fun (s : State) => (s.arbitrate (benchOf 1#12) s.now).grid.transfers.find? (fun t =>
       decide ((if t.kind = 0 ∨ t.kind = 3 then t.dest else t.from?) = 1#12))
     (next gate).isNone = true ∧
     (next { gate with grid := { transfers := [transferOf 1 false] } }).any (fun f => f.granted) = true ∧
     (next { gate with grid := { transfers := [{ transferOf 1 false with issued := 2000000 }] } }).any (fun f =>
       decide (f.kind = 1) && !f.refused && !f.granted) = true ∧
     (next { gate with grid := { transfers := [transferOf 2 true] } }).any (fun f => f.granted) = true) := by
  decide +kernel

/-! ### Worked examples of the manual -/

theorem test_instruction_words :
    cellWord 6 0x1 (1 * 2 ^ 22 + 1 * 2 ^ 17 + 9 * 2 ^ 12 + 2 * 2 ^ 8 + 2 * 2 ^ 6 + 32 + 0 * 4) = 0x614292A0#32 ∧
    encExtr 6 3 32 19 = 0x1E30E04C#32 ∧ cellLegal 0x614292A0#32 = true ∧ cellLegal 0x1E30E04C#32 = true ∧ cellLegal 0xB0000000#32 = false ∧
    bridleWord 0x2C 0 5 4 0x00010003#32 = 0x2C05400000010003#64 ∧ bridleWord 0x01 1 0 0 0x00400000#32 = 0x0110000000400000#64 ∧
    bridleWord 0x20 0 1 2 2#32 = 0x2001200000000002#64 ∧ bridleWord 0x41 0 0 0 (BitVec.ofNat 32 (4 + 1 * 2 ^ 16)) = 0x4100000000010004#64 ∧
    bridleWord 0x42 0 7 8 0#32 = 0x4207800000000000#64 := by
  decide +kernel

/-- The E4M3 step worked in the manual after R227. -/
def exampleTile : Tile :=
  ({ mode := 1, steps := 0 } : Tile).stepLong 0
    (vectorOf (padTo 64 [0x7E, 0x01, 0xFE, 0x00, 0x38, 0x38, 0x38, 0x38, 0x30, 0xBC, 0x40, 0x00, 0x00, 0x00, 0x00, 0x44]))
    (vectorOf (padTo 64 [0x7E, 0x01, 0x7E, 0x38, 0x38, 0x40, 0x44, 0x30, 0x00, 0x00, 0x00, 0x00, 0xB8, 0x20, 0x00, 0x40]))
    0 0 false 0#64

theorem test_long_step :
    exampleTile.elems[0] = 0x00000000000000000000400000000000#128 ∧ exampleTile.elems[1] = 0xFFFFFFFFFFFFFC800100000000000000#128 ∧
    exampleTile.elems[3] = 0xFFFFFFFFFFFFFE400010000000000000#128 ∧ exampleTile.elems[5] = 0x00000000000000068000000000000000#128 ∧
    exampleTile.overflow = false ∧ exampleTile.rangeLow = false := by
  decide +kernel

theorem test_readouts :
    exampleTile.convert 0 false 0 0 = leBytes 4 0x36800000 ∧ exampleTile.convert 0 false 0 1 = leBytes 4 0xC45FFFC0 ∧
    exampleTile.convert 0 false 0 3 = leBytes 4 0xC3DFFFF8 ∧ exampleTile.convert 0 false 0 5 = leBytes 4 0x40D00000 ∧
    exampleTile.convert 1 false 0 1 = leBytes 2 0xC460 := by
  decide +kernel

/-- The automaton worked in the manual after R183: `pin` and four digits. -/
def exampleAutomaton : Automaton :=
  { automaton 0 1 with
    classes := 5, firstLane := 0x2C, base := 0x0100, start := 0x0100, entries := 35
    classMap := (List.range 256).map (fun b => if 0x30 ≤ b ∧ b ≤ 0x39 then 1 else if b = 0x70 then 2 else if b = 0x69 then 3
      else if b = 0x6E then 4 else 0)
    reports := [⟨0x00000008#32, 4, 0⟩, ⟨0x00000020#32, 3, 0⟩] }
def exampleAwl : AwlTables :=
  { testAwl with
    automata := [exampleAutomaton]
    words := ([0x00000100, 0x00000105, 0x40000119, 0x00000100, 0x00000100, 0x00000100, 0x4000010A, 0x40000119, 0x00000100, 0x00000100,
      0x00000100, 0x4000010F, 0x40000119, 0x00000100, 0x00000100, 0x00000100, 0x00010114, 0x40000119, 0x00000100, 0x00000100,
      0x00000100, 0x00000114, 0x40000119, 0x00000100, 0x00000100, 0x00000100, 0x00000105, 0x40000119, 0x4000011E, 0x00000100,
      0x00000100, 0x00000105, 0x40000119, 0x00000100, 0x00050100].zipIdx).map (fun x => ((0x2C, 0x0100 + x.2), BitVec.ofNat 32 x.1)) }
/-- The scan of a token's bytes from a position, by the instance before. -/
def exampleScan (i : AwlInst) (pos : Nat) (bs : List Byte) : Scan := scanBytes exampleAutomaton exampleAwl i (bs.zipIdx.map (fun b => (b.1, pos + b.2)))
def afterScan (c : Scan) : AwlInst := ⟨c.value, c.lastEnd, c.pending⟩

theorem test_awl_example :
    (let a := exampleScan ⟨0x2C0100#24, 0, false⟩ 900 [0x20, 0x70, 0x69]
     let b := exampleScan (afterScan a) 903 [0x6E, 0x20, 0x32, 0x30]
     let c := exampleScan (afterScan b) 907 [0x32, 0x35]
     a.result false = ⟨0, 0xFFFF, 0#32, 0, 0, true, false, false⟩ ∧ a.value = 0x2C011E#24 ∧
     b.result false = ⟨1, 1, 0x20#32, 904, 3, true, false, false⟩ ∧ b.value = 0x2C010A#24 ∧
     c.result false = ⟨1, 0, 0x08#32, 909, 4, false, false, false⟩ ∧ c.value = 0x2C0114#24) := by
  decide +kernel

/-- The armature example after R210: five features, three trees, the logistic link. -/
def exampleArmature : ArmatureTables :=
  let node := fun (left right kind feature : Nat) (w : Word) => (⟨right, left, false, kind, feature, w⟩ : TreeNode)
  { testArmature with
    bitmaps := [BitVec.ofNat 256 0x0C]
    edges := [[0xC1800000#32, 0xC2800000#32, 0xC3800000#32]]
    nodes := [(0, node 1 2 0 0 0x80000000#32), (1, node 0 0 2 0 0xBF000000#32), (2, node 3 4 0 1 0xBF000000#32),
      (3, node 0 0 2 0 0x3E000000#32), (4, node 0 0 2 0 0x3F400000#32), (5, node 6 7 1 2 0#32), (6, node 0 0 2 0 0xBF000000#32),
      (7, node 0 0 2 0 0x3FA00000#32), (8, node 9 12 0 4 0xBF4CCCCD#32), (9, node 10 11 0 3 0x80000000#32),
      (10, node 0 0 2 0 0xBE800000#32), (11, node 0 0 2 0 0x3F000000#32), (12, node 0 0 2 0 0x3F800000#32)]
    trees := [⟨0, 2, 0⟩, ⟨1, 1, 5⟩, ⟨0, 2, 8⟩]
    ensembles := [{ firstTree := 0, trees := 3, link := 1, base := 0xBFC00000#32, errorValue := 0#32, worst := 0#32, neutral := 0#32 }] }
def exampleInput : SampleInput :=
  { ids := [], bytes := 0, committed := 0, counters := [(3, ⟨6, false⟩)], acc := [(3, 0x80000000#32)],
    awl := [some ({}, 64)], segment := none, ingressMissed := false, probes := [⟨0x31, 0#12, 0, false, 0#8, [0xBF200000#32]⟩],
    probeDefault := fun _ => 0#32, ingress := none }
def examplePlan : List FeatureEntry :=
  let e := fun (kind index op : Nat) (cat : Bool) (a b : Word) => (⟨kind, index, op, cat, false, a, b, 0xFF, 0⟩ : FeatureEntry)
  [e 2 3 0 false 0 0, e 1 3 1 false 0x3E800000#32 0xBF800000#32, e 3 2 2 true 0 3, e 6 0x31 0 false 0 0, e 4 0 0 false 0 0]

theorem test_armature_example :
    (let f := evalPlan exampleArmature.edges exampleInput examplePlan
     let r := (sampleResults exampleArmature 0 f false false).1.head?
     f.feats.map (fun x => x.1) = [0x80000000#32, 0x3F000000#32, 2#32, 0xBF200000#32, missingNum] ∧
     r.map (fun x => (x.value, x.nanPaths, x.error)) = some (0x3F0FEACD#32, 1, false)) := by
  decide +kernel

/-- The probe worked in the manual after R293: E4M3 weights, a BF16 row, bias 27.5. -/
def exampleProbe : ProbeDecl := { testProbe with contributionId := 0x31 }
def exampleWeights : List Byte := [0x30, 0, 0, 0, 0, 0x28, 0, 0, 0, 0x98] ++ List.replicate 54 0 ++ leBytes 4 0x41DC0000
def exampleRow : List (FpVal × Bool) :=
  convertRow { testTap with inFormat := 3 } 0
    (List.replicate 16 0 ++ [0xA6, 0x3F] ++ List.replicate 8 0 ++ [0x40, 0xC0] ++ List.replicate 6 0 ++ [0x16, 0x44] ++ List.replicate 108 0)

theorem test_probe_example :
    firstLayer exampleWeights exampleProbe (exampleRow.map (fun x => x.1)) = [0xBF200000#32] ∧
    exampleRow.any (fun x => x.2) = true := by
  decide +kernel

/-- The vocabulary worked in the manual after R122: each token's bytes, and the merges. -/
def exampleVocab : List (List Byte × Nat) :=
  [([0x68, 0x69], 300), ([0x3C, 0x7C], 306), ([0x7C, 0x3E], 307), ([0x65, 0x6E, 0x64], 309), ([0x20, 0x3C, 0x7C], 310)]
def exampleMerges : List (Nat × Nat × Nat) :=
  [(0x68, 0x69, 300), (0x20, 0x63, 301), (0x61, 0x66, 302), (0xC3, 0xA9, 303), (302, 303, 304), (301, 304, 305), (0x3C, 0x7C, 306),
    (0x7C, 0x3E, 307), (0x65, 0x6E, 308), (308, 0x64, 309), (0x20, 306, 310)]
def exampleSkiver : SkiverTables :=
  { testSkiver with
    specials := [(1, ⟨0x3FF01, [], true⟩), (2, ⟨0x3FF02, [0x3C, 0x7C, 0x65, 0x6E, 0x64, 0x7C, 0x3E], true⟩)]
    byteMap := (List.range 256).map (fun b => (b, b))
    pool := exampleVocab.flatMap (fun v => v.1)
    vocab := (exampleVocab.zipIdx).map (fun x =>
      let h := (crc32c x.1.1).toNat
      (h % 4194304, ⟨((exampleVocab.take x.2).flatMap (fun v => v.1)).length, x.1.1.length, x.1.2 ≠ 306, h / 4194304, x.1.2⟩))
    merges := (exampleMerges.zipIdx).map (fun x =>
      ((crc32c (leBytes 4 x.1.1 ++ leBytes 4 x.1.2.1)).toNat % 4194304, ⟨x.2, x.1.2.2, x.1.2.1, x.1.1⟩)) }
/-- Its pre-tokenizer: states by what came last (other, letter, space); boundaries before a space after a non-space and between
letters and others. Classes: 0 other, 1 letter, 2 space. -/
def exampleSplitter : Automaton × AwlTables :=
  let a : Automaton := { automaton 2 0 with
    classes := 3, base := 0, start := 6, entries := 9
    classMap := (List.range 256).map (fun b => if b = 0x20 then 2 else if (0x61 ≤ b ∧ b ≤ 0x7A) ∨ 0x80 ≤ b then 1 else 0) }
  (a, { testAwl with automata := [a], words := ([0, 0x20003, 0x20006, 0x20000, 3, 0x20006, 0, 3, 6].zipIdx).map (fun x => ((0, x.2), BitVec.ofNat 32 x.1)) })

theorem test_skiver_example :
    (let bs : List Byte := [0x68, 0x69, 0x20, 0x63, 0x61, 0x66, 0xC3, 0xA9, 0x73, 0x20, 0x3C, 0x7C, 0x65, 0x6E, 0x64, 0x7C, 0x3E]
     let e := encodeChunk exampleSkiver (some exampleSplitter) 1 true none (bs.zipIdx.map (fun b => (b.1, 4 + b.2)))
     e.code.ids = [300, 305, 115, 310, 309, 307] ∧ e.code.fast = 4 ∧ e.code.rounds = 6 ∧ e.code.forged = false) ∧
    (encodeChunk exampleSkiver (some exampleSplitter) 0 true none [(0xF3, 0), (0xB0, 1), (0x80, 2), (0x81, 3)]).code.ids = [0x3FF01] := by
  decide +kernel

/-! ### The queue example of the manual -/

/-- Queue 9 before the example: empty, `level` 2, next `sequence` 0x100. -/
def exampleQueue : State :=
  let q := gate.queue 9
  gate.setQueue 9 { q with cfg := { q.cfg with level := 2 }, sequence := 0x100 }
/-- Cycles 1 to 4: event A, the AUDIT packet P1 and P2, and a read. -/
def exampleQueueRead : Item × State :=
  (exampleQueue.effects [.packet 9 0x0001#16 (some 2) [[]], .packet 9 0x0002#16 (some 5) [[], []]]).takeItem 9
/-- Cycle 5: the HALT item B. -/
def exampleQueueB : State := exampleQueueRead.2.effects [.packet 9 0x0005#16 (some 7) [[]]]
/-- Cycle 6: the packet is dropped. -/
def exampleQueueDropped : State := exampleQueueB.setQueue 9 ((exampleQueueB.queue 9).drop).2
/-- Cycles 7 and 8. -/
def exampleQueueReadB : Item × State := exampleQueueDropped.takeItem 9
def exampleQueueReadA : Item × State := exampleQueueReadB.2.takeItem 9

theorem test_queue_example :
    exampleQueueRead.1.header = 0x00000101020D0002 ∧ exampleQueueReadB.1.header = 0x00000103011F0005 ∧
    exampleQueueReadA.1.header = 0x00000100011A0001 ∧ (exampleQueueReadA.2.takeItem 9).1.header = 0x0000010400000000 ∧
    (exampleQueueReadA.2.takeItem 9).1.body[0]? = some 0#8 ∧ (exampleQueueB.takeItem 9).1.header = 0x0000010200150002 ∧
    (exampleQueueReadA.2.queue 9).qstatus = 0x10000000#32 ∧ (exampleQueueReadA.2.queue 9).qpeak = 0x02000003#32 ∧
    (exampleQueueReadA.2.queue 9).ackLatched.qpeak = 0#32 := by
  decide +kernel

/-! ### Ill-formed commands, one for each check -/

/-- A packet whose header gives `length` n and whose payload holds m bytes. -/
def smokePacket (n : Byte) (m : Nat) : Packet :=
  { hdr := { handle := 0, seq := 0, length := n, multicast := false, echo := false, mark := false, fence := false, cls := 1,
             source := 0, port := 0, dest := 0, gap := false }, payload := List.replicate m 0#8 }
def smokeStraps (n : Nat) : Straps :=
  { nodeStrap := false, nodeId := 0, plumbMaster := false, keyHash := List.replicate n 0#8, minSecurity := 0, findings := [] }
def smokeLoc (addr : Nat) : MemLoc := { kind := 0, unit := 0, macro16 := 0, row := 0, addr := addr }

theorem test_illFormed :
    (Instr.thermalSensorRead (List.replicate 20 30)).wellFormed = false ∧
    (Instr.coldResetRelease (smokeStraps 47)).wellFormed = false ∧
    (Instr.queueItemWrite 0 (List.replicate 63 0#8)).wellFormed = false ∧
    (Instr.registerWrite .mgtb 0 (List.replicate 8 0#8)).wellFormed = false ∧
    (Instr.registerWrite .ctl1 0 (List.replicate 5 0#8)).wellFormed = false ∧
    (Instr.linkPacketReceive 0 ⟨smokePacket 1 63, 0⟩ 0).wellFormed = false ∧
    (Instr.linkPacketReceive 0 ⟨smokePacket 1 64, 0⟩ 16).wellFormed = false ∧
    (Instr.hostPacketReceive 0 ⟨smokePacket 1 63, 0, 1, true⟩).wellFormed = false ∧
    (Instr.linkOutputSelect 0 16).wellFormed = false ∧
    (Instr.bridleBnan .north 0 0 0).wellFormed = false ∧ (Instr.bridleBeq .north 0 0 0 4096).wellFormed = false ∧
    (Instr.bridleRewind .north 0 0).wellFormed = false ∧ (Instr.bridleRewind .north 0 513).wellFormed = false ∧
    (Instr.patrolScrub (smokeLoc 4) 0).wellFormed = false ∧ (Instr.cellImageRewrite 0 4).wellFormed = false := by
  decide +kernel

theorem test_wellFormed :
    (Instr.thermalSensorRead (List.replicate 21 30)).wellFormed ∧ (Instr.coldResetRelease (smokeStraps 48)).wellFormed ∧
    (Instr.queueItemWrite 0 (List.replicate 64 0#8)).wellFormed ∧ (Instr.registerWrite .mgtb 0 (List.replicate 4 0#8)).wellFormed ∧
    (Instr.registerWrite .ctl1 0 (List.replicate 64 0#8)).wellFormed ∧ (Instr.linkPacketReceive 0 ⟨smokePacket 1 64, 0⟩ 15).wellFormed ∧
    (Instr.hostPacketReceive 0 ⟨smokePacket 1 64, 0, 1, true⟩).wellFormed ∧ (Instr.linkOutputSelect 0 15).wellFormed ∧
    (Instr.bridleBeq .north 0 0 0 4095).wellFormed ∧ (Instr.bridleRewind .north 0 512).wellFormed ∧
    (Instr.patrolScrub (smokeLoc 8) 0).wellFormed ∧ (Instr.cellImageRewrite 0 8).wellFormed ∧ Instr.plumbTick.wellFormed := by
  decide +kernel

end Sys2Proof.Tests
end

section
/-! SUPPORT. Register writes by address, and the fields that a written 1 clears (R11, R35, R398, R415, R420, R422, R429,
R512 to R514): what each address range does with a write, then each command that clears fields, then the statement. -/

namespace Sys2Proof.Machine

variable {s : State} {p : MPort} {q : QueueId} {n : Fin 32} {addr bits v : Word} {data : List Byte} {off : Nat}

/-! ### One word written -/

theorem writeDirects_word (h : data.length = 4) :
    writeDirects p off data s = writeDirect p off (BitVec.ofNat 32 (ofLe data)) s := by
  obtain ⟨b0, b1, b2, b3, rfl⟩ := List.length_eq_four.1 h
  rfl

theorem writeQueueRegs_word (h : data.length = 4) :
    writeQueueRegs off data s = writeQueueReg off (BitVec.ofNat 32 (ofLe data)) s := by
  obtain ⟨b0, b1, b2, b3, rfl⟩ := List.length_eq_four.1 h
  rfl

/-- A word written at a queue's QLEVEL stores its low 24 bits (R415). -/
theorem writeQueueReg_qlevel : writeQueueReg (16 * q.val + 4) v s = setLevel q v.toNat s := by
  have hq : (16 * q.val + 4) / 16 % 512 = q.val := by omega
  have hr : (16 * q.val + 4) % 16 = 4 := by omega
  simp only [writeQueueReg, hq, hr, Fin.eta]

theorem setLevel_ofNat (l : Nat) : setLevel q (BitVec.ofNat 32 l).toNat s = setLevel q l s := by
  have hl : l % 2 ^ 32 % 2 ^ 24 = l % 2 ^ 24 := by omega
  simp only [setLevel, BitVec.toNat_ofNat, hl]

/-! ### The bytes of a mailbox slot (R422) -/

theorem writeSlot_owned (hoff : off < 512) (h : (s.slot p n).owned = true) : writeSlot p (512 * n.val + off) data s = (2, s) := by
  have hn : (512 * n.val + off) / 0x200 % 32 = n.val := by omega
  simp only [writeSlot, hn, Fin.eta, h, if_true]

theorem writeSlot_free (hoff : off < 512) (h : (s.slot p n).owned = false) :
    writeSlot p (512 * n.val + off) data s
      = (0, s.setSlot p n { s.slot p n with mem := Memory.setBytes (s.slot p n).mem off data }) := by
  have hn : (512 * n.val + off) / 0x200 % 32 = n.val := by omega
  have hr : (512 * n.val + off) % 0x200 = off := by omega
  simp only [writeSlot, hn, hr, Fin.eta, h, Bool.false_eq_true, if_false]

/-! ### The address ranges of each bus -/

theorem exec_registerWrite (b : Bus) (addr : Word) (data : List Byte) (s : State) :
    exec (.registerWrite b addr data) s = .next (writeRegister b addr data s) := rfl

theorem writeRegister_ctl0_misaligned (h : addr.toNat % data.length ≠ 0) :
    writeRegister .ctl0 addr data s = s.reply .ctl0 1 [] := by
  simp [writeRegister, h]

theorem writeRegister_ctl1_misaligned (h : addr.toNat % data.length ≠ 0) :
    writeRegister .ctl1 addr data s = s.reply .ctl1 1 [] := by
  simp [writeRegister, h]

theorem writeRegister_mgtb_misaligned (h : addr.toNat % 4 ≠ 0) :
    writeRegister .mgtb addr data s = s.countN 0x11 0 4 1 := by
  simp [writeRegister, h]

theorem writeRegister_ctl0_slot (hlen : data.length ∈ [4, 8, 64]) (hal : addr.toNat % data.length = 0)
    (hoff : off < 0x4000) (ha : addr.toNat = 0x10000 + off) :
    writeRegister .ctl0 addr data s = (writeSlot .a off data s).2.reply .ctl0 (writeSlot .a off data s).1 [] := by
  have hsize : (decide (data.length = 4) || decide (data.length = 8) || decide (data.length = 64)) = true := by
    simpa [or_assoc] using hlen
  have hdirect : ¬ addr.toNat < 0x1000 := by omega
  have hslots : 0x10000 ≤ addr.toNat ∧ addr.toNat < 0x14000 := by omega
  have hsub : addr.toNat - 0x10000 = off := by omega
  simp [writeRegister, hal, hsize, hdirect, hslots, hsub, -Bool.or_eq_true]

theorem writeRegister_mgtb_slot (hlen : data.length = 4) (hal : addr.toNat % 4 = 0)
    (hoff : off < 0x4000) (ha : addr.toNat = 0x10000 + off) :
    writeRegister .mgtb addr data s = (writeSlot .b off data s).2 := by
  have hdirect : ¬ addr.toNat < 0x1000 := by omega
  have hslots : 0x10000 ≤ addr.toNat ∧ addr.toNat < 0x14000 := by omega
  have hsub : addr.toNat - 0x10000 = off := by omega
  simp [writeRegister, hal, hlen, hdirect, hslots, hsub]

theorem writeRegister_mgtb_direct (hlen : data.length = 4) (hal : addr.toNat % 4 = 0) (ha : addr.toNat < 0x1000) :
    writeRegister .mgtb addr data s = writeDirect .b addr.toNat (BitVec.ofNat 32 (ofLe data)) s := by
  simp [writeRegister, hal, hlen, ha, writeDirects_word hlen]

theorem writeRegister_ctl1_queueReg (hlen : data.length = 4) (hal : addr.toNat % 4 = 0)
    (hoff : off < 0x2000) (ha : addr.toNat = 0x10000 + off) :
    writeRegister .ctl1 addr data s = (writeQueueReg off (BitVec.ofNat 32 (ofLe data)) s).reply .ctl1 0 [] := by
  have hitems : ¬ addr.toNat < 0x8000 := by omega
  have hregs : 0x10000 ≤ addr.toNat ∧ addr.toNat < 0x12000 := by omega
  have hsub : addr.toNat - 0x10000 = off := by omega
  simp [writeRegister, hal, hlen, hitems, hregs, hsub, writeQueueRegs_word hlen]

/-! ### Notices and the interrupt condition -/

/-- The notice flag's event changes the sync port's output alone (R402). -/
theorem State.signalIrq_eq (s : State) (before : Bool) :
    ∃ l, s.signalIrq before = { s with ctl := { s.ctl with syncOut := l } } := by
  unfold State.signalIrq
  split
  · exact ⟨_, rfl⟩
  · exact ⟨s.ctl.syncOut, rfl⟩

/-- An acknowledgement keeps the notices of the other bits, and the sync port's output may grow (R514). -/
theorem State.acknowledge_eq (s : State) (bits : Word) :
    ∃ l, s.acknowledge bits = { s with ctl := { s.ctl with
      notices := s.ctl.notices.filter (fun n => !bits.getLsbD (n.code - 1)), syncOut := l } } :=
  State.signalIrq_eq _ _

theorem any_code_filter (ns : List Notice) (keep : Nat → Bool) (code : Nat) :
    (ns.filter (fun n => keep n.code)).any (fun n => decide (n.code = code))
      = (ns.any (fun n => decide (n.code = code)) && keep code) := by
  induction ns with
  | nil => rfl
  | cons n ns ih =>
    by_cases hc : n.code = code
    · subst hc
      cases hk : keep n.code <;> simp [hk, ih]
    · cases hk : keep n.code <;> simp [hk, hc, ih]

theorem State.acknowledge_latched (s : State) (bits : Word) (code : Nat) :
    (s.acknowledge bits).latched code = (s.latched code && !bits.getLsbD (code - 1)) := by
  obtain ⟨l, h⟩ := s.acknowledge_eq bits
  rw [State.latched_any, State.latched_any, h]
  exact any_code_filter s.ctl.notices (fun c => !bits.getLsbD (c - 1)) code

/-! ### The clauses on writes by address -/

/-- A slot's bytes are written while the port owns it; a slot that the firmware owns answers result 2 (R422). -/
theorem exec_registerWrite_slot (hend : off + data.length ≤ 512) (hal : off % data.length = 0) (hlen : data.length ∈ [4, 8, 64])
    (ha : addr.toNat = 0x10000 + 512 * n.val + off) :
    ((s.slot .a n).owned = true → exec (.registerWrite .ctl0 addr data) s = .next (s.reply .ctl0 2 [])) ∧
    ((s.slot .a n).owned = false → exec (.registerWrite .ctl0 addr data) s
      = .next ((s.setSlot .a n { s.slot .a n with mem := Memory.setBytes (s.slot .a n).mem off data }).reply .ctl0 0 [])) ∧
    (data.length = 4 → (s.slot .b n).owned = false → exec (.registerWrite .mgtb addr data) s
      = .next (s.setSlot .b n { s.slot .b n with mem := Memory.setBytes (s.slot .b n).mem off data })) := by
  have hlen' : data.length = 4 ∨ data.length = 8 ∨ data.length = 64 := by simpa using hlen
  have hoff : off < 512 := by omega
  have hrange : 512 * n.val + off < 0x4000 := by omega
  have ha' : addr.toNat = 0x10000 + (512 * n.val + off) := by omega
  have hal' : addr.toNat % data.length = 0 := by
    rcases hlen' with h | h | h <;> rw [h] at hal ⊢ <;> omega
  have hctl0 := writeRegister_ctl0_slot (s := s) hlen hal' hrange ha'
  refine ⟨fun ho => ?_, fun hf => ?_, fun h4 hf => ?_⟩
  · rw [exec_registerWrite, hctl0, writeSlot_owned hoff ho]
  · rw [exec_registerWrite, hctl0, writeSlot_free hoff hf]
  · rw [exec_registerWrite, writeRegister_mgtb_slot h4 (h4 ▸ hal') hrange ha', writeSlot_free hoff hf]

/-- A misaligned address answers result 1 on the control ports and is counted on port B (R398, R420). -/
theorem exec_registerWrite_misaligned (h : addr.toNat % data.length ≠ 0) :
    exec (.registerWrite .ctl0 addr data) s = .next (s.reply .ctl0 1 []) ∧
    exec (.registerWrite .ctl1 addr data) s = .next (s.reply .ctl1 1 []) ∧
    (data.length = 4 → exec (.registerWrite .mgtb addr data) s = .next (s.countN 0x11 0 4 1)) :=
  ⟨congrArg Host.Outcome.next (writeRegister_ctl0_misaligned h), congrArg Host.Outcome.next (writeRegister_ctl1_misaligned h),
    fun h4 => congrArg Host.Outcome.next (writeRegister_mgtb_misaligned (h4 ▸ h))⟩

/-- Port B's write to NTC_ENABLE stores bits 0 to 22 in its own mask (R512). -/
theorem exec_registerWrite_enableB (ha : addr.toNat = 0x14) (hlen : data.length = 4) :
    ∃ t, exec (.registerWrite .mgtb addr data) s = .next t ∧ t.ctl.enableB = BitVec.ofNat 32 (ofLe data) &&& 0x7FFFFF#32 ∧
      { t with ctl := { t.ctl with enableB := s.ctl.enableB, syncOut := s.ctl.syncOut } } = s := by
  have hw : writeRegister .mgtb addr data s
      = ({ s with ctl := { s.ctl with enableB := BitVec.ofNat 32 (ofLe data) &&& 0x7FFFFF#32 } }).signalIrq s.hostIrq := by
    rw [writeRegister_mgtb_direct hlen (by omega) (by omega), ha]
    rfl
  obtain ⟨l, hl⟩ := State.signalIrq_eq
    { s with ctl := { s.ctl with enableB := BitVec.ofNat 32 (ofLe data) &&& 0x7FFFFF#32 } } s.hostIrq
  exact ⟨_, congrArg Host.Outcome.next (hw.trans hl), rfl, rfl⟩

/-- A word written at QLEVEL sets the queue's watermark (R415). -/
theorem exec_registerWrite_qlevel (ha : addr.toNat = 0x10004 + 16 * q.val) (hlen : data.length = 4) :
    exec (.registerWrite .ctl1 addr data) s = .next ((s.setQueue q
      { s.queue q with cfg := { (s.queue q).cfg with level := ofLe data % 2 ^ 24 } }).reply .ctl1 0 []) := by
  rw [exec_registerWrite, writeRegister_ctl1_queueReg hlen (by omega) (off := 16 * q.val + 4) (by omega) (by omega),
    writeQueueReg_qlevel, setLevel_ofNat]
  rfl

/-! ### The clauses on fields that a written 1 clears -/

/-- NODE_ID takes a value only while `valid` is 0 and the writing port holds semaphore 0 (R513). -/
theorem exec_nodeIdWrite (s : State) (p : MPort) (v : Word) :
    ∃ t, exec (.nodeIdWrite p v) s = .next t ∧
      t.aon = (if s.aon.nodeValid = false ∧ s.semOwner 0 = portOwner p then
        { s.aon with node := v.setWidth 12, nodeValid := true } else s.aon) ∧
      { t with aon := s.aon, ctl := { t.ctl with rsp := s.ctl.rsp } } = s := by
  refine ⟨(writeNodeId p v s).reply (portBus p) 0 [], rfl, ?_⟩
  unfold writeNodeId
  split <;> exact ⟨rfl, rfl⟩

theorem exec_noticeAcknowledge (s : State) (p : MPort) (bits : Word) :
    ∃ t, exec (.noticeAcknowledge p bits) s = .next t ∧
      t.ctl.notices = s.ctl.notices.filter (fun n => !bits.getLsbD (n.code - 1)) ∧
      (∀ code, t.latched code = (s.latched code && !bits.getLsbD (code - 1))) ∧
      { t with ctl := { t.ctl with notices := s.ctl.notices, rsp := s.ctl.rsp, syncOut := s.ctl.syncOut } } = s := by
  refine ⟨(s.acknowledge bits).reply (portBus p) 0 [], rfl, ?_, fun code => s.acknowledge_latched bits code, ?_⟩ <;>
  · obtain ⟨l, h⟩ := s.acknowledge_eq bits
    rw [h]
    rfl

/-- Settles O7, address range by address range and command by command. -/
theorem registerWritesAndClears : Obligations.RegisterWritesAndClears :=
  ⟨fun _ _ _ => ⟨fun _ _ hend hal hlen ha => exec_registerWrite_slot hend hal hlen ha,
      fun _ h => exec_registerWrite_misaligned h,
      exec_registerWrite_enableB,
      fun _ => exec_registerWrite_qlevel⟩,
    fun s p => ⟨⟨(clearStepped s).reply (portBus p) 0 [], rfl, rfl, rfl⟩,
      ⟨(clearFwFailed s).reply (portBus p) 0 [], rfl, rfl, rfl⟩,
      exec_nodeIdWrite s p,
      exec_noticeAcknowledge s p⟩⟩

end Sys2Proof.Machine
end

section
/-! SUPPORT. A latched notice stays latched while packets are sent, as an event's packet is (R368, R404). -/

namespace Sys2Proof.Machine

variable {s : State} {code : Nat}

@[simp] theorem State.count1_latched (h : s.latched code = true) (g i p : Nat) : (s.count1 g i p).latched code = true :=
  s.effects_latched _ code h

@[simp] theorem State.writeItem_latched (h : s.latched code = true) (q : QueueId) (tag : Half) (b : List Byte) :
    (s.writeItem q tag b).latched code = true :=
  s.effects_latched _ code h

@[simp] theorem State.setLink_latched (s : State) (k : LinkId) (l : Link) (code : Nat) : (s.setLink k l).latched code = s.latched code := rfl

@[simp] theorem State.setBulk_latched (s : State) (b : BulkId) (v : Bulk) (code : Nat) : (s.setBulk b v).latched code = s.latched code := rfl

@[simp] theorem State.enqueueLink_latched (h : s.latched code = true) (k : LinkId) (p : Packet) (start : Nat) :
    (s.enqueueLink k p start).latched code = true := by
  unfold State.enqueueLink
  dsimp only
  split <;> simp [h]

@[simp] theorem State.offerLink_latched (h : s.latched code = true) (k : LinkId) (p : Packet) (start : Nat) :
    (s.offerLink k p start).latched code = true := by
  unfold State.offerLink
  split <;> simp [h]

@[simp] theorem State.offerBulk_latched (h : s.latched code = true) (b : BulkId) (p : Packet) (start : Nat) :
    (s.offerBulk b p start).latched code = true := by
  unfold State.offerBulk
  dsimp only
  repeat' split
  all_goals simp [h]

@[simp] theorem State.forward_latched (h : s.latched code = true) (p : Packet) (stamp start : Nat) :
    (s.forward p stamp start).latched code = true := by
  unfold State.forward
  repeat' split
  all_goals simp [h]

@[simp] theorem State.deliver_latched (h : s.latched code = true) (a : Arrival) : (s.deliver a).latched code = true := by
  have hgap : (if a.pkt.hdr.gap then s.count1 0x02 0 11 else s).latched code = true := by split <;> simp [h]
  unfold State.deliver
  dsimp only
  generalize (if a.pkt.hdr.gap then s.count1 0x02 0 11 else s) = u at hgap
  split
  · exact hgap
  · exact State.offerBulk_latched hgap _ _ _

@[simp] theorem State.returnCredit_latched (s : State) (e : Edge) (p : Packet) (code : Nat) :
    (s.returnCredit e p).latched code = s.latched code := by
  unfold State.returnCredit
  split <;> rfl

@[simp] theorem State.windowSend_latched (h : s.latched code = true) (a : Arrival) : (s.windowSend a).latched code = true := by
  unfold State.windowSend
  apply State.forward_latched
  exact h

theorem pumpEdge_latched (as : List Arrival) (blocked : List NodeId) (h : s.latched code = true) :
    (pumpEdge as blocked s).latched code = true := by
  induction as generalizing blocked s with
  | nil => exact h
  | cons a as ih =>
    unfold pumpEdge
    split
    · exact ih _ (s := { s with plane := _ }) h
    · exact ih _ (by simp [h])

@[simp] theorem State.enterWindow_latched (h : s.latched code = true) (a : Arrival) : (s.enterWindow a).latched code = true := by
  unfold State.enterWindow
  repeat' split
  · exact State.deliver_latched h a
  · simp [h]
  · exact pumpEdge_latched _ _ h

/-- An event sent leaves every latched notice latched (R69, R404). -/
@[simp] theorem State.sendEvent_latched (h : s.latched code = true) (node : NodeId) (port : Byte) (hd : BitVec 48) (body : List Byte) :
    (s.sendEvent node port hd body).latched code = true := by
  have hsent := State.enterWindow_latched h
  unfold State.sendEvent
  dsimp only
  split
  · exact State.writeItem_latched (hsent _) _ _ _
  · exact hsent _

end Sys2Proof.Machine
end

section
/-! SUPPORT. Text packets up to their acceptance (R27, R29, R60, R89 to R95): what the checks, the baseline screen and a drop
leave unchanged, and one equation per way that a text packet takes. -/

namespace Sys2Proof.Machine

variable {s t u : State} {a : Arrival} {f : TextFate}

/-! ### Frames -/

theorem State.table_of_inside (h : t.inside = s.inside) : t.streams.table = s.streams.table :=
  congrArg (fun v => v.streams.table) h

theorem State.textWait_of_inside (h : t.inside = s.inside) : t.streams.textWait = s.streams.textWait :=
  congrArg (fun v => v.streams.textWait) h

theorem State.offStreams_of_inside (h : t.inside = s.inside) : t.offStreams = s.offStreams :=
  congrArg (fun v : State => { v with ctl := { v.ctl with mbox := [], waiting := [] }, streams := {} }) h

theorem State.streams_of_quiet (h : t.quiet = s.quiet) : t.streams = s.streams := congrArg (fun v => v.streams) h

theorem State.plane_of_quiet (h : t.quiet = s.quiet) : t.plane = s.plane := congrArg (fun v => v.plane) h

theorem State.bulk_of_quiet (h : t.quiet = s.quiet) : t.bulk = s.bulk := congrArg (fun v => v.bulk) h

/-- A state whose inside differs in the runs of the baseline screen alone has the same streams. -/
theorem State.table_of_screened {l : List BaselineRun}
    (h : t.inside = { s.inside with streams := { s.inside.streams with baseline := l } }) : t.streams.table = s.streams.table :=
  congrArg (fun v => v.streams.table) h

theorem State.offStreams_of_screened {l : List BaselineRun}
    (h : t.inside = { s.inside with streams := { s.inside.streams with baseline := l } }) : t.offStreams = s.offStreams :=
  congrArg (fun v : State => { v with ctl := { v.ctl with mbox := [], waiting := [] }, streams := {} }) h

/-- Taking a packet from the inbox changes the inbox alone. -/
theorem State.takeInbox_eq {test : Arrival → Bool} (h : s.takeInbox test = some (a, u)) :
    ∃ r, u = { s with plane := { s.plane with inbox := r } } := by
  unfold State.takeInbox at h
  split at h
  · obtain ⟨-, rfl⟩ := Prod.mk.inj (Option.some.inj h)
    exact ⟨_, rfl⟩
  · cases h

/-- The default state is the cast's, which taking a packet leaves. -/
theorem State.takeInbox_inDefault {test : Arrival → Bool} (h : s.takeInbox test = some (a, u)) (stamp : Nat) :
    u.inDefault stamp = s.inDefault stamp := by
  obtain ⟨r, rfl⟩ := State.takeInbox_eq h
  rfl

@[simp] theorem State.offerBulk_plane (s : State) (b : BulkId) (p : Packet) (start : Nat) :
    (s.offerBulk b p start).plane = s.plane := by
  unfold State.offerBulk
  dsimp only
  repeat' split
  all_goals simp [State.count1]

@[simp] theorem State.returnCredit_plane (s : State) (e : Edge) (p : Packet) : (s.returnCredit e p).plane = s.plane := by
  unfold State.returnCredit
  split <;> rfl

@[simp] theorem State.freeText_inside (s : State) (a : Arrival) : (s.freeText a).inside = s.inside := by
  unfold State.freeText
  split <;> simp

@[simp] theorem State.freeText_plane (s : State) (a : Arrival) : (s.freeText a).plane = s.plane := by
  unfold State.freeText
  split <;> simp

/-! ### Drops (R60, R93, R94) -/

theorem notice_mem_ingressEvent (pos handle position : Nat) : ∃ d, Effect.notice 4 d ∈ ingressEvent pos handle position :=
  ⟨_, List.mem_cons_of_mem _ (List.mem_singleton.2 rfl)⟩

/-- An ingress event latches NTC_INGRESS (R123). -/
theorem State.ingressEvent_latched (s : State) (pos handle position : Nat) :
    (s.effects (ingressEvent pos handle position)).latched 4 = true :=
  let ⟨d, hd⟩ := notice_mem_ingressEvent pos handle position
  s.effects_raises _ 4 d hd

@[simp] theorem State.dropText_inside (s : State) (a : Arrival) (f : TextFate) : (s.dropText a f).inside = s.inside := by
  cases f <;> simp [State.dropText]

/-- A drop without a TEXT_GAP event only counts and raises notices. -/
theorem State.dropText_quiet (hf : ∀ k st, f ≠ .gap k st) : (s.dropText a f).quiet = s.quiet := by
  cases f with
  | gap k st => exact absurd rfl (hf k st)
  | _ => simp [State.dropText]

theorem State.dropText_latched {code : Nat} (h : s.latched code = true) (a : Arrival) (f : TextFate) :
    (s.dropText a f).latched code = true := by
  cases f with
  | stale | duplicate => exact State.count1_latched h _ _ _
  | malformed => exact s.effects_latched _ code h
  | gap k st => exact State.sendEvent_latched (s.effects_latched _ code h) _ _ _ _
  | candidate => exact h

theorem State.dropText_malformed_latched (s : State) (a : Arrival) : (s.dropText a .malformed).latched 4 = true :=
  s.ingressEvent_latched _ _ _

theorem State.dropText_gap_latched (s : State) (a : Arrival) (k : SlotId) (st : Stream) :
    (s.dropText a (.gap k st)).latched 4 = true :=
  State.sendEvent_latched (s.ingressEvent_latched _ _ _) _ _ _ _

/-- The count of a template packet that is demoted (R90). -/
def State.countDemoted (s : State) (a : Arrival) (demoted : Bool) : State :=
  if demoted then s.effects (ingressEvent 2 a.pkt.hdr.handle.toNat (field a.pkt.payload 0 4)) else s

@[simp] theorem State.countDemoted_quiet (s : State) (a : Arrival) (d : Bool) : (s.countDemoted a d).quiet = s.quiet := by
  cases d <;> simp [State.countDemoted]

@[simp] theorem State.countDemoted_inside (s : State) (a : Arrival) (d : Bool) : (s.countDemoted a d).inside = s.inside :=
  State.inside_of_quiet (s.countDemoted_quiet a d)

theorem State.countDemoted_latched (s : State) (a : Arrival) {d : Bool} (h : d = true) : (s.countDemoted a d).latched 4 = true := by
  subst h
  exact s.ingressEvent_latched _ _ _

/-! ### The baseline screen (R27) -/

@[simp] theorem State.screenHits_inside (s : State) (rule n : Nat) : (s.screenHits rule n).inside = s.inside := by
  unfold State.screenHits
  split <;> simp

/-- The screen changes its runs, and otherwise counts. -/
theorem State.baselineScreen_inside (s : State) (p : Packet) :
    ∃ l, (s.baselineScreen p).2.inside = { s.inside with streams := { s.inside.streams with baseline := l } } := by
  unfold State.baselineScreen
  dsimp only
  repeat' split
  all_goals simp only [State.screenHits_inside]
  all_goals exact ⟨_, rfl⟩

/-- A text packet of no bytes, or of more than 240, is dropped by the screen and counted under its length rule. -/
theorem State.baselineScreen_length {p : Packet} (h : field p.payload 4 2 = 0 ∨ 240 < field p.payload 4 2) :
    s.baselineScreen p = (none, s.countN 0x17 0 4 1) := by
  have hlen : field p.payload 4 2 = 0 ∨ 240 < field p.payload 4 2 ∨ p.payload.length < 16 + field p.payload 4 2 := by tauto
  unfold State.baselineScreen
  exact if_pos hlen

/-! ### The ways of a text packet -/

/-- A text packet goes to the host as a packet `p` (R24). -/
def State.textToHost (s : State) (a : Arrival) (p : Packet) : State := s.offerBulk (s.deliveryPort p.hdr.port) p a.toBulk

/-- A candidate waits at its edge (R95). -/
def State.awaitText (s : State) (a : Arrival) : State := { s with streams := { s.streams with textWait := s.streams.textWait ++ [a] } }

@[simp] theorem State.awaitText_offStreams (s : State) (a : Arrival) : (s.awaitText a).offStreams = s.offStreams := rfl
@[simp] theorem State.awaitText_plane (s : State) (a : Arrival) : (s.awaitText a).plane = s.plane := rfl
@[simp] theorem State.awaitText_bulk (s : State) (a : Arrival) : (s.awaitText a).bulk = s.bulk := rfl

@[simp] theorem State.textToHost_inside (s : State) (a : Arrival) (p : Packet) : (s.textToHost a p).inside = s.inside :=
  State.offerBulk_inside ..

@[simp] theorem State.textToHost_plane (s : State) (a : Arrival) (p : Packet) : (s.textToHost a p).plane = s.plane :=
  State.offerBulk_plane ..

section
variable (hin : s.takeInbox (fun a => isText a.pkt && !s.textWaits a.pkt.hdr.handle) = some (a, u))
include hin

/-- Text screened as it entered goes on to the host as it is. -/
theorem textPacket_screenedBefore (hd : s.inDefault a.stamp = true) (hs : a.pkt.hdr.multicast = true ∨ a.pkt.hdr.cls = 0#3) :
    textPacket s = (u.freeText a).textToHost a a.pkt := by
  have hs' : (a.pkt.hdr.multicast || decide (a.pkt.hdr.cls = 0#3)) = true := by simpa using hs
  unfold textPacket
  rw [hin]
  simp only [State.takeInbox_inDefault hin, hd, hs', Bool.and_self, if_true]
  rfl

theorem textPacket_screenDrops (hd : s.inDefault a.stamp = true) (hm : a.pkt.hdr.multicast = false) (hc : a.pkt.hdr.cls ≠ 0#3)
    {v : State} (hv : (u.freeText a).baselineScreen a.pkt = (none, v)) : textPacket s = v := by
  unfold textPacket
  rw [hin]
  simp only [State.takeInbox_inDefault hin, hd, hm, hc, hv, decide_false, Bool.or_self, Bool.and_false, Bool.false_eq_true,
    if_false, if_true]

theorem textPacket_screenSends (hd : s.inDefault a.stamp = true) (hm : a.pkt.hdr.multicast = false) (hc : a.pkt.hdr.cls ≠ 0#3)
    {p : Packet} {v : State} (hv : (u.freeText a).baselineScreen a.pkt = (some p, v)) : textPacket s = v.textToHost a p := by
  unfold textPacket
  rw [hin]
  simp only [State.takeInbox_inDefault hin, hd, hm, hc, hv, decide_false, Bool.or_self, Bool.and_false, Bool.false_eq_true,
    if_false, if_true]
  rfl

theorem textPacket_noFront (hd : s.inDefault a.stamp = false) (hf : u.front = false) :
    textPacket s = (u.freeText a).textToHost a a.pkt := by
  unfold textPacket
  rw [hin]
  simp only [State.takeInbox_inDefault hin, hd, hf, Bool.false_and, Bool.false_eq_true, if_false, Bool.not_false, if_true]
  rfl

theorem textPacket_candidate (hd : s.inDefault a.stamp = false) (hf : u.front = true) {k st p b c d}
    (hc : u.textFate a = .candidate k st p b c d) : textPacket s = (u.countDemoted a (u.demotes a)).awaitText a := by
  unfold textPacket
  rw [hin]
  simp only [State.takeInbox_inDefault hin, hd, hf, hc, Bool.false_and, Bool.false_eq_true, if_false, Bool.not_true]
  rfl

theorem textPacket_dropped (hd : s.inDefault a.stamp = false) (hf : u.front = true)
    (hc : ∀ k st p b c d, u.textFate a ≠ .candidate k st p b c d) :
    textPacket s = ((u.freeText a).countDemoted a (u.demotes a)).dropText a (u.textFate a) := by
  unfold textPacket
  rw [hin]
  simp only [State.takeInbox_inDefault hin, hd, hf, Bool.false_and, Bool.false_eq_true, if_false, Bool.not_true]
  cases hfate : u.textFate a with
  | candidate k st p b c d => exact absurd hfate (hc k st p b c d)
  | _ => rfl

/-! ### The clauses on TEXT_PACKET -/

theorem exec_textPacket_noFront (hd : s.inDefault a.stamp = false) (hf : u.front = false) :
    ∃ t, exec .textPacket s = .next t ∧ t.inside = s.inside ∧ t.plane = u.plane := by
  refine ⟨_, congrArg Host.Outcome.next (textPacket_noFront hin hd hf), ?_, ?_⟩
  · simp [takeInbox_inside hin]
  · simp

theorem exec_textPacket_candidate (hd : s.inDefault a.stamp = false) (hf : u.front = true) {k st p b c d}
    (hc : u.textFate a = .candidate k st p b c d) :
    ∃ t, exec .textPacket s = .next t ∧ t.streams = { s.streams with textWait := s.streams.textWait ++ [a] } ∧
      t.offStreams = s.offStreams ∧ t.plane = u.plane ∧ t.bulk = s.bulk ∧ (u.demotes a = true → t.latched 4 = true) := by
  have hq : (u.countDemoted a (u.demotes a)).quiet = u.quiet := State.countDemoted_quiet ..
  have hi : (u.countDemoted a (u.demotes a)).inside = s.inside := by simp [takeInbox_inside hin]
  obtain ⟨r, hr⟩ := State.takeInbox_eq hin
  refine ⟨_, congrArg Host.Outcome.next (textPacket_candidate hin hd hf hc), ?_, ?_, ?_, ?_, State.countDemoted_latched u a⟩
  · rw [State.awaitText, State.streams_of_quiet hq, hr]
  · rw [State.awaitText_offStreams, State.offStreams_of_inside hi]
  · rw [State.awaitText_plane, State.plane_of_quiet hq]
  · rw [State.awaitText_bulk, State.bulk_of_quiet hq, hr]

theorem exec_textPacket_malformed (hd : s.inDefault a.stamp = false) (hf : u.front = true) (hm : u.textFate a = .malformed) :
    ∃ t, exec .textPacket s = .next t ∧ t.quiet = (u.freeText a).quiet ∧ t.latched 4 = true := by
  have h := textPacket_dropped hin hd hf (by simp [hm])
  rw [hm] at h
  exact ⟨_, congrArg Host.Outcome.next h, by simp [State.dropText_quiet], State.dropText_malformed_latched _ _⟩

theorem exec_textPacket_gap (hd : s.inDefault a.stamp = false) (hf : u.front = true) {k st} (hg : u.textFate a = .gap k st) :
    ∃ t, exec .textPacket s = .next t ∧ t.streams.table = s.streams.table ∧ t.offStreams = s.offStreams ∧ t.latched 4 = true := by
  have h := textPacket_dropped hin hd hf (by simp [hg])
  rw [hg] at h
  have hi : (((u.freeText a).countDemoted a (u.demotes a)).dropText a (.gap k st)).inside = s.inside := by
    simp [takeInbox_inside hin]
  exact ⟨_, congrArg Host.Outcome.next h, State.table_of_inside hi, State.offStreams_of_inside hi, State.dropText_gap_latched _ _ _ _⟩

theorem exec_textPacket_staleOrDuplicate (hd : s.inDefault a.stamp = false) (hf : u.front = true)
    (hs : u.textFate a = .stale ∨ u.textFate a = .duplicate) :
    ∃ t, exec .textPacket s = .next t ∧ t.quiet = (u.freeText a).quiet ∧ (u.demotes a = true → t.latched 4 = true) := by
  have h := textPacket_dropped hin hd hf (by rcases hs with hs | hs <;> simp [hs])
  refine ⟨_, congrArg Host.Outcome.next h, ?_, fun hdem => State.dropText_latched (State.countDemoted_latched _ _ hdem) _ _⟩
  rw [State.dropText_quiet (by rcases hs with hs | hs <;> simp [hs]), State.countDemoted_quiet]

theorem exec_textPacket_default (hd : s.inDefault a.stamp = true) :
    ∃ t, exec .textPacket s = .next t ∧ t.streams.table = s.streams.table ∧ t.offStreams = s.offStreams := by
  by_cases hs : a.pkt.hdr.multicast = true ∨ a.pkt.hdr.cls = 0#3
  · have hi : ((u.freeText a).textToHost a a.pkt).inside = s.inside := by simp [takeInbox_inside hin]
    exact ⟨_, congrArg Host.Outcome.next (textPacket_screenedBefore hin hd hs), State.table_of_inside hi, State.offStreams_of_inside hi⟩
  · obtain ⟨hm, hc⟩ : a.pkt.hdr.multicast = false ∧ a.pkt.hdr.cls ≠ 0#3 := by simpa using hs
    obtain ⟨l, hl⟩ := (u.freeText a).baselineScreen_inside a.pkt
    rw [State.freeText_inside, takeInbox_inside hin] at hl
    rcases hv : (u.freeText a).baselineScreen a.pkt with ⟨_ | p, v⟩ <;> rw [hv] at hl
    · exact ⟨_, congrArg Host.Outcome.next (textPacket_screenDrops hin hd hm hc hv), State.table_of_screened hl, State.offStreams_of_screened hl⟩
    · have hl' := (v.textToHost_inside a p).trans hl
      exact ⟨_, congrArg Host.Outcome.next (textPacket_screenSends hin hd hm hc hv), State.table_of_screened hl', State.offStreams_of_screened hl'⟩

theorem exec_textPacket_length (hd : s.inDefault a.stamp = true) (hm : a.pkt.hdr.multicast = false) (hc : a.pkt.hdr.cls ≠ 0#3)
    (hlen : field a.pkt.payload 4 2 = 0 ∨ 240 < field a.pkt.payload 4 2) :
    exec .textPacket s = .next ((u.freeText a).countN 0x17 0 4 1) :=
  congrArg Host.Outcome.next (textPacket_screenDrops hin hd hm hc (State.baselineScreen_length hlen))

theorem exec_textPacket_screenedBefore (hd : s.inDefault a.stamp = true) (hs : a.pkt.hdr.multicast = true ∨ a.pkt.hdr.cls = 0#3) :
    ∃ t, exec .textPacket s = .next t ∧ t.inside = s.inside ∧ t.plane = u.plane :=
  ⟨_, congrArg Host.Outcome.next (textPacket_screenedBefore hin hd hs), by simp [takeInbox_inside hin], by simp⟩

end

end Sys2Proof.Machine
end

section
/-! SUPPORT. The acceptance of a text packet (R36, R94, R95, R110, R118): what its bytes, the close of a chunk and the end of a
segment do to a stream's ingress, then the two clauses on TEXT_PACKET_ACCEPT. -/

namespace Sys2Proof.Machine

variable {s : State} {a : Arrival} {inp : Ingress} {k : SlotId} {st : Stream} {p : Policy} {b : SkiverTables} {c stamp : Nat}
  {d ends promptEnd : Bool} {body : List Byte}

/-! ### A packet's bytes (R94) -/

@[simp] theorem Ingress.take_textWrite : (inp.take b c d body).1.textWrite = inp.textWrite + field body 4 2 := rfl
@[simp] theorem Ingress.take_segment : (inp.take b c d body).1.segment = inp.segment := rfl
@[simp] theorem Ingress.take_segmentOpen : (inp.take b c d body).1.segmentOpen = true := rfl
@[simp] theorem Ingress.take_chunks : (inp.take b c d body).1.chunks = inp.chunks := rfl
@[simp] theorem Ingress.take_nextChunk : (inp.take b c d body).1.nextChunk = inp.nextChunk := rfl
@[simp] theorem Ingress.take_verdicts : (inp.take b c d body).1.verdicts = inp.verdicts := rfl

/-! ### A chunk closes (R110) -/

@[simp] theorem Ingress.close_textWrite : (inp.close k p b stamp ends promptEnd).textWrite = inp.textWrite := rfl
@[simp] theorem Ingress.close_segment : (inp.close k p b stamp ends promptEnd).segment = inp.segment := rfl
@[simp] theorem Ingress.close_segmentOpen : (inp.close k p b stamp ends promptEnd).segmentOpen = inp.segmentOpen := rfl
@[simp] theorem Ingress.close_nextChunk : (inp.close k p b stamp ends promptEnd).nextChunk = inp.nextChunk + 1 := rfl
@[simp] theorem Ingress.close_verdicts : (inp.close k p b stamp ends promptEnd).verdicts = inp.verdicts := rfl
@[simp] theorem Ingress.close_chunks_length : (inp.close k p b stamp ends promptEnd).chunks.length = inp.chunks.length + 1 := by
  simp [Ingress.close]

/-! ### A segment ends (R118) -/

@[simp] theorem Ingress.endSegment_textWrite : (inp.endSegment p stamp body promptEnd).textWrite = inp.textWrite := rfl
@[simp] theorem Ingress.endSegment_segment : (inp.endSegment p stamp body promptEnd).segment = (inp.segment + 1) % 65536 := rfl
@[simp] theorem Ingress.endSegment_segmentOpen : (inp.endSegment p stamp body promptEnd).segmentOpen = false := rfl
@[simp] theorem Ingress.endSegment_chunks : (inp.endSegment p stamp body promptEnd).chunks = inp.chunks := rfl
@[simp] theorem Ingress.endSegment_nextChunk : (inp.endSegment p stamp body promptEnd).nextChunk = inp.nextChunk := rfl

@[simp] theorem Ingress.endSegment_verdicts_length :
    (inp.endSegment p stamp body promptEnd).verdicts.length = inp.verdicts.length + 1 := by
  simp [Ingress.endSegment]

theorem Ingress.mem_endSegment_verdicts {v : SegVerdict} (h : v ∈ (inp.endSegment p stamp body promptEnd).verdicts) :
    v ∈ inp.verdicts ∨ v.release = stamp + p.delay 2 ∧ v.cutoff = v.release - p.cb ∧ v.segment = inp.segment ∧ v.epoch = p.epoch := by
  rcases List.mem_append.1 h with h | h
  · exact .inl h
  · rw [List.mem_singleton.1 h]
    exact .inr ⟨rfl, rfl, rfl, rfl⟩

/-! ### The packet as a whole (R94, R95) -/

/-- The ingress once its chunk has closed, when the packet closes one. -/
def Ingress.chunked (inp : Ingress) (closes : Bool) (k : SlotId) (p : Policy) (b : SkiverTables) (stamp : Nat)
    (ends promptEnd : Bool) : Ingress :=
  if closes then inp.close k p b stamp ends promptEnd else inp

/-- The ingress once its segment has ended, when the packet ends it. -/
def Ingress.segmented (inp : Ingress) (p : Policy) (stamp : Nat) (body : List Byte) (ends promptEnd : Bool) : Ingress :=
  if ends then inp.endSegment p stamp body promptEnd else inp

/-- The ingress that an accepted packet leaves: its bytes, then its chunk, then its segment. -/
def Ingress.accept (inp : Ingress) (a : Arrival) (k : SlotId) (p : Policy) (b : SkiverTables) (stamp c : Nat) (d : Bool) : Ingress :=
  let ends := fieldBit a.pkt.payload 8 2 0
  let promptEnd := ends && fieldBit a.pkt.payload 8 2 1
  (((inp.take b c d a.pkt.payload).1.chunked (closesChunk inp b a) k p b stamp ends promptEnd).segmented
    p stamp a.pkt.payload ends promptEnd)

/-- The positions and counts after an accepted packet: its bytes are read, a chunk it completes is listed, and with its end the
segment has its verdict and the next one follows (R94, R110, R118). -/
theorem Ingress.accept_counts (inp : Ingress) (a : Arrival) (k : SlotId) (p : Policy) (b : SkiverTables) (stamp c : Nat) (d : Bool) :
    let ends := fieldBit a.pkt.payload 8 2 0
    let x := inp.accept a k p b stamp c d
    x.textWrite = inp.textWrite + field a.pkt.payload 4 2 ∧
    x.segment = (if ends then (inp.segment + 1) % 65536 else inp.segment) ∧
    x.segmentOpen = !ends ∧
    x.chunks.length = inp.chunks.length + (if closesChunk inp b a then 1 else 0) ∧
    x.nextChunk = inp.nextChunk + (if closesChunk inp b a then 1 else 0) ∧
    x.verdicts.length = inp.verdicts.length + (if ends then 1 else 0) := by
  cases hc : closesChunk inp b a <;> cases he : fieldBit a.pkt.payload 8 2 0 <;>
    simp [Ingress.accept, Ingress.chunked, Ingress.segmented, hc, he]

@[simp] theorem Ingress.chunked_segment {closes : Bool} : (inp.chunked closes k p b stamp ends promptEnd).segment = inp.segment := by
  unfold Ingress.chunked
  split <;> simp

@[simp] theorem Ingress.chunked_verdicts {closes : Bool} : (inp.chunked closes k p b stamp ends promptEnd).verdicts = inp.verdicts := by
  unfold Ingress.chunked
  split <;> simp

/-- A verdict that an accepted packet adds is its segment's, due after the verdict stage's delay (R46, R118). -/
theorem Ingress.mem_accept_verdicts {v : SegVerdict} (h : v ∈ (inp.accept a k p b stamp c d).verdicts) :
    v ∈ inp.verdicts ∨ v.release = stamp + p.delay 2 ∧ v.cutoff = v.release - p.cb ∧ v.segment = inp.segment ∧ v.epoch = p.epoch := by
  unfold Ingress.accept Ingress.segmented at h
  dsimp only at h
  split at h
  · simpa using Ingress.mem_endSegment_verdicts h
  · exact .inl (by simpa using h)

/-- An accepted packet changes its stream's ingress and the engines' queues; what it frees and counts is besides. -/
theorem State.acceptText_inside (s : State) (a : Arrival) (k : SlotId) (st : Stream) (p : Policy) (b : SkiverTables) (c : Nat)
    (d : Bool) : ∃ e, (s.acceptText a k st p b c d).inside =
      (({ s with eng := e } : State).setStream k { st with inp := st.inp.accept a k p b (s.effStamp s.now) c d }).inside :=
  ⟨_, (State.effects_inside _ _).trans (State.freeText_inside _ _)⟩

/-! ### The clauses on TEXT_PACKET_ACCEPT -/

/-- The gate without a packet that waited at its edge. -/
def State.withoutText (s : State) (a : Arrival) : State :=
  { s with streams := { s.streams with textWait := s.streams.textWait.erase a } }

theorem textAccept_candidate (hn : s.nextText = some a) (hf : (s.withoutText a).textFate a = .candidate k st p b c d) :
    textAccept s = (s.withoutText a).acceptText a k st p b c d := by
  unfold textAccept
  simp only [hn]
  unfold State.withoutText at hf ⊢
  simp only [hf]

theorem textAccept_dropped (hn : s.nextText = some a) (hf : ∀ k st p b c d, (s.withoutText a).textFate a ≠ .candidate k st p b c d) :
    textAccept s = ((s.withoutText a).freeText a).dropText a ((s.withoutText a).textFate a) := by
  unfold textAccept
  simp only [hn]
  cases hfate : (s.withoutText a).textFate a with
  | candidate k st p b c d => exact absurd hfate (hf k st p b c d)
  | _ => unfold State.withoutText at hfate ⊢; simp only [hfate]

theorem exec_textPacketAccept_dropped (hn : s.nextText = some a)
    (hf : ∀ k st p b c d, (s.withoutText a).textFate a ≠ .candidate k st p b c d) :
    ∃ t, exec .textPacketAccept s = .next t ∧ t.streams.table = s.streams.table ∧
      t.streams.textWait = s.streams.textWait.erase a ∧ t.offStreams = s.offStreams := by
  have hi : (((s.withoutText a).freeText a).dropText a ((s.withoutText a).textFate a)).inside = (s.withoutText a).inside := by simp
  exact ⟨_, congrArg Host.Outcome.next (textAccept_dropped hn hf), (State.table_of_inside hi).trans rfl, State.textWait_of_inside hi,
    (State.offStreams_of_inside hi).trans rfl⟩

theorem exec_textPacketAccept_none (hn : s.nextText = none) : exec .textPacketAccept s = .next s := by
  have h : textAccept s = s := by
    unfold textAccept
    simp only [hn]
  exact congrArg Host.Outcome.next h

theorem exec_textPacketAccept_candidate (hn : s.nextText = some a) (hf : (s.withoutText a).textFate a = .candidate k st p b c d) :
    let len := field a.pkt.payload 4 2
    let ends := fieldBit a.pkt.payload 8 2 0
    ∃ t st', exec .textPacketAccept s = .next t ∧ t.streams.table = aset k st' s.streams.table ∧
      t.streams.textWait = s.streams.textWait.erase a ∧ st'.inp.textWrite = st.inp.textWrite + len ∧
      st'.inp.segment = (if ends then (st.inp.segment + 1) % 65536 else st.inp.segment) ∧
      st'.inp.segmentOpen = !ends ∧
      st'.inp.chunks.length = st.inp.chunks.length + (if closesChunk st.inp b a then 1 else 0) ∧
      st'.inp.nextChunk = st.inp.nextChunk + (if closesChunk st.inp b a then 1 else 0) ∧
      st'.inp.verdicts.length = st.inp.verdicts.length + (if ends then 1 else 0) ∧
      (∀ v ∈ st'.inp.verdicts, v ∈ st.inp.verdicts ∨ v.release = s.effStamp s.now + p.delay 2 ∧
        v.cutoff = v.release - p.cb ∧ v.segment = st.inp.segment ∧ v.epoch = p.epoch) ∧
      { st' with inp := st.inp } = st ∧ { t.offStreams with eng := s.eng } = s.offStreams := by
  obtain ⟨e, hi⟩ := (s.withoutText a).acceptText_inside a k st p b c d
  obtain ⟨hwrite, hseg, hopen, hchunks, hnext, hverdicts⟩ := st.inp.accept_counts a k p b (s.effStamp s.now) c d
  refine ⟨_, { st with inp := st.inp.accept a k p b (s.effStamp s.now) c d },
    congrArg Host.Outcome.next (textAccept_candidate hn hf), (State.table_of_inside hi).trans rfl,
    (State.textWait_of_inside hi).trans rfl, hwrite, hseg, hopen, hchunks, hnext, hverdicts,
    fun v hv => Ingress.mem_accept_verdicts hv, rfl, ?_⟩
  rw [State.offStreams_of_inside hi]
  rfl

end Sys2Proof.Machine
end

section
/-! SUPPORT. A chunk that its unit has encoded (R40, R41, R111, R470), and a counter among effects (R493). -/

namespace Sys2Proof.Machine

variable {s : State} {c : CtrKey} {n : Nat}

/-! ### A counter among effects -/

theorem Effect.steps_le (s : State) (e : Effect) : e.steps s ≤ 61 := by
  have h3 : noticeSteps s.toLatch ≤ 29 := noticeSteps_mono (n := 3) (by unfold State.toLatch; split <;> split <;> split <;> omega)
  unfold Effect.steps
  repeat' split
  all_goals omega

theorem effectSteps_le (s : State) (es : List Effect) : effectSteps s es ≤ 61 * es.length := by
  induction es with
  | nil => simp [effectSteps]
  | cons e es ih =>
    have := e.steps_le s
    simp only [effectSteps, List.map_cons, List.sum_cons, List.length_cons] at ih ⊢
    omega

theorem runEffects_count (f : Nat) (l r : List Effect) (s : State) (hf : effectSteps s (l ++ .count c n :: r) ≤ f)
    (hc : c.group ≠ 5) (hl : l.all (Effect.skips c) = true) (hr : r.all (Effect.skips c) = true) :
    (runEffects f (l ++ .count c n :: r) s).counter c = (s.counter c).add n := by
  induction f generalizing l s with
  | zero =>
    have : 0 < effectSteps s (l ++ .count c n :: r) := by
      simp only [effectSteps, List.map_append, List.map_cons, List.sum_append, List.sum_cons, Effect.steps]
      omega
    omega
  | succ f ih =>
    cases l with
    | nil =>
      have hcauses := oneEffect_causes_skip (.count c n) s c hc
      rw [List.nil_append, runEffects, runEffects_counter _ _ _ _ hc (by rw [List.all_append, hcauses, hr]; rfl)]
      simp only [oneEffect]
      split <;> simp [State.counter]
    | cons e l =>
      rw [List.all_cons, Bool.and_eq_true] at hl
      obtain ⟨he, hl⟩ := hl
      rw [List.cons_append, runEffects, ← List.append_assoc, ih, oneEffect_counter e s c he]
      · have hone := effectSteps_one e s
        have hrest := effectSteps_mono (fun k => oneEffect_latched e s k) (l ++ .count c n :: r)
        simp only [effectSteps, List.cons_append, List.append_assoc, List.map_cons, List.map_append, List.sum_cons,
          List.sum_append] at *
        omega
      · rw [List.all_append, oneEffect_causes_skip e s c hc, hl]
        rfl

/-- A counter outside the queues' group that one of the effects counts rises once, saturating (R493). -/
theorem State.effects_count_among (s : State) (l r : List Effect) (hc : c.group ≠ 5) (hl : l.all (Effect.skips c) = true)
    (hr : r.all (Effect.skips c) = true) : (s.effects (l ++ .count c n :: r)).counter c = (s.counter c).add n :=
  runEffects_count _ _ _ _ ((effectSteps_le s _).trans (by omega)) hc hl hr

/-! ### The encoding of a chunk -/

/-- The mark that a chunk's encoding leaves: ready, or late (R40, R41). -/
def Chunk.encoded (n : Nat) (ok : Bool) (x : Chunk) : Chunk := if x.ordinal = n then { x with ready := ok, late := !ok } else x

/-- The stream with that mark on its chunk `n`. -/
def Stream.encoded (st : Stream) (n : Nat) (ok : Bool) : Stream :=
  { st with inp := { st.inp with chunks := st.inp.chunks.map (Chunk.encoded n ok) } }

/-- The gate with a unit's first chunk off its queue (R111). -/
def State.unitDone (s : State) (u : Fin 8) (rest : List (SlotId × Nat)) : State :=
  { s with eng := { s.eng with skiverQueues := aset u rest s.eng.skiverQueues } }

theorem tableEffects_skips (s : State) (x : Option Nat) : (s.tableEffects x).all (Effect.skips ⟨0x10, 1, 1⟩) = true := by
  cases x <;> simp [State.tableEffects, poisonRead, Effect.skips]

variable {u : Fin 8} {k : SlotId} {rest : List (SlotId × Nat)} {st : Stream} {x : Chunk}

theorem encodeDone_eq (hq : s.unitQueue u = (k, n) :: rest) (hst : aget k s.streams.table = some st)
    (hx : st.inp.chunks.find? (fun c => decide (c.ordinal = n)) = some x) :
    let before := !x.released && decide (s.now < x.release)
    let ok := before && (s.tablePoison 1 st.handle n).isNone
    encodeDone u s =
      ((s.unitDone u rest).setStream k (st.encoded n ok)).effects
        (s.tableEffects (s.tablePoison 1 st.handle n) ++ if before then [] else lateDiscard 1) := by
  unfold encodeDone
  simp only [hq, hst, hx]
  rfl

theorem exec_chunkEncodeDone (hq : s.unitQueue u = (k, n) :: rest) (hst : aget k s.streams.table = some st)
    (hx : st.inp.chunks.find? (fun c => decide (c.ordinal = n)) = some x) :
    let ok := !x.released && decide (s.now < x.release) && (s.tablePoison 1 st.handle n).isNone
    ∃ t st', exec (.chunkEncodeDone u) s = .next t ∧ t.streams.table = aset k st' s.streams.table ∧ t.unitQueue u = rest ∧
      st'.inp.chunks = st.inp.chunks.map (fun x => if x.ordinal = n then { x with ready := ok, late := !ok } else x) ∧
      (x.released = true ∨ x.release ≤ s.now →
        (t.counter ⟨0x10, 1, 1⟩).count = min (2 ^ 48 - 1) ((s.counter ⟨0x10, 1, 1⟩).count + 1)) ∧
      { st' with inp := { st'.inp with chunks := st.inp.chunks } } = st ∧ { t.offStreams with eng := s.eng } = s.offStreams := by
  intro ok
  refine ⟨_, st.encoded n ok, congrArg Host.Outcome.next (encodeDone_eq hq hst hx), ?_, ?_, rfl, fun hlate => ?_, rfl, ?_⟩
  · rw [State.effects_streams]
    rfl
  · rw [State.unitQueue, State.effects_eng]
    simp [State.unitDone, State.setStream]
  · have hbefore : (!x.released && decide (s.now < x.release)) = false := by
      rcases hlate with h | h
      · simp [h]
      · simp [Nat.not_lt.2 h]
    rw [hbefore, if_neg Bool.false_ne_true, lateDiscard,
      State.effects_count_among _ _ [] (by decide) (tableEffects_skips s _) rfl, Counter.add_count]
    rfl
  · rw [State.offStreams_of_inside (State.effects_inside _ _)]
    rfl

end Sys2Proof.Machine
end

section
/-! SUPPORT. The statement on ingress text, from its clauses. -/

namespace Sys2Proof.Machine

/-- Settles O40, command by command: TEXT_PACKET by its stamp and its fate, TEXT_PACKET_ACCEPT, CHUNK_ENCODE_DONE. -/
theorem ingressText : Obligations.IngressText := fun _ =>
  ⟨fun _ _ hin hd => ⟨fun hf => exec_textPacket_noFront hin hd hf, fun hf =>
      ⟨fun _ _ _ _ _ _ hc => exec_textPacket_candidate hin hd hf hc, fun hm => exec_textPacket_malformed hin hd hf hm,
        fun _ _ hg => exec_textPacket_gap hin hd hf hg, fun hs => exec_textPacket_staleOrDuplicate hin hd hf hs⟩⟩,
    fun _ _ hin hd => ⟨fun hm hc hlen => exec_textPacket_length hin hd hm hc hlen,
      fun hs => exec_textPacket_screenedBefore hin hd hs, exec_textPacket_default hin hd⟩,
    fun _ hn hf => exec_textPacketAccept_dropped hn hf,
    exec_textPacketAccept_none,
    fun _ _ _ _ _ _ _ hn hf => exec_textPacketAccept_candidate hn hf,
    fun _ _ _ _ _ _ hq hst hx => exec_chunkEncodeDone hq hst hx⟩

end Sys2Proof.Machine
end

section
/-! SUPPORT. Packets that come on a link (R95, R366, R367, R372): a gate at which the acknowledgement owed for a packet echoes a
mark that the packet got at its edge and did not come with. -/

namespace Sys2Proof.Machine

/-- An unmarked text packet of class 1 for node 5, with `len` bytes of text in `units` payload units. -/
def unmarkedText (handle : BitVec 48) (units len : Nat) : Packet :=
  { hdr := { handle := handle, seq := 0#24, length := BitVec.ofNat 8 units, multicast := false, echo := false, mark := false,
             fence := false, cls := 1#3, source := 7#12, port := 0xE1#8, dest := 5#12, gap := false },
    payload := padTo (64 * units) (leBytes 4 0 ++ leBytes 2 len) }

/-- A packet as a link brings it whole, its trailer right (R354). -/
def wirePacket (p : Packet) : WirePacket := { pkt := p, trailer := p.trailer }

theorem wirePacket_trailer (p : Packet) : (wirePacket p).trailer = (wirePacket p).pkt.trailer := rfl

/-- The text packet that link 0 brings: 48 bytes in one unit. -/
def arrivingText : WirePacket := wirePacket (unmarkedText 9#48 1 48)

/-- Node 5 with link 0 UP and nine text packets of 16,320 bytes, one for each of nine handles, waiting at that edge. -/
def congestedGate : State :=
  { State.reset with
    aon := { node := 5#12, nodeValid := true }
    plane := { links := [(0, { state := .up, inSync := true })] }
    streams := { textWait := (List.range 9).map (fun h =>
      { pkt := unmarkedText (BitVec.ofNat 48 h) 255 240, edge := .link 0, stamp := 0, at16 := 0 }) } }

/-- The acknowledgement owed for the unmarked packet echoes the mark (R367). -/
theorem congestedGate_echoes : (linkReceive 0 arrivingText 0 congestedGate).plane.acks =
    [(7#12, [{ seq := 0, length := 1, echo := true, received := 0 }])] := by
  decide +kernel

/-- Refutes O36: the clause on the first unit expected from a source has the acknowledgement echo the mark that the packet came
with (`echo := w.pkt.hdr.mark`). Text that joins more than `mark_bytes` of its class waiting at its edge is marked there (R95, R372;
log 34), and the acknowledgement echoes that mark (R367): `congestedGate` answers the unmarked `arrivingText` with `echo` true. -/
theorem not_linkPackets : ¬ Obligations.LinkPackets := by
  intro h
  obtain ⟨-, htaken⟩ := h congestedGate 0 arrivingText 0
  obtain ⟨-, -, -, hfirst⟩ := htaken (.inl rfl) rfl
  obtain ⟨t, r, hexec, -, -, -, -, -, hacks, -⟩ :=
    hfirst (wirePacket_trailer _) rfl (by decide) (by decide) rfl rfl (by decide) (.inl ⟨by decide, rfl, .inr rfl⟩)
  obtain rfl : linkReceive 0 arrivingText 0 congestedGate = t := Host.Outcome.next.inj hexec
  rw [congestedGate_echoes] at hacks
  revert hacks
  decide

end Sys2Proof.Machine
end

section
/-! SUPPORT. The state after a cold reset, and the plumb tick with the reads of the plumb registers (R31, R32, R35, R452). -/

namespace Sys2Proof.Machine

/-- Settles O3: every part of the reset state is a literal of the model, so each conjunct is its evaluation. -/
theorem resetState : Obligations.ResetState := by
  have hpower : State.reset.power.Legal := by decide
  have hmemory : State.reset.MemoryCanonical := ⟨rfl, rfl, rfl⟩
  exact ⟨rfl, rfl, rfl, rfl, rfl, rfl, rfl, rfl, rfl, fun _ => ⟨rfl, rfl⟩, fun _ => ⟨rfl, rfl⟩, fun _ => rfl, fun _ => rfl,
    fun _ => rfl, fun _ _ => rfl, rfl, rfl, rfl, rfl, fun _ => ⟨rfl, rfl⟩, hpower, hmemory⟩

/-- What an access answers stands on its bus. -/
@[simp] theorem State.reply_rsp (s : State) (b : Bus) (r : Nat) (d : List Byte) : aget b (s.reply b r d).ctl.rsp = some (r, d) :=
  aget_aset_self ..

/-- Settles O6: the tick is one record update, and each read is one besides the answer on its port's bus. -/
theorem plumbAndItsReads : Obligations.PlumbAndItsReads :=
  ⟨fun _ => rfl, fun _ =>
    ⟨⟨_, rfl, State.reply_rsp .., rfl, rfl⟩, ⟨_, rfl, State.reply_rsp .., rfl, rfl⟩,
      fun p => by cases p <;> rfl,
      fun _ => ⟨_, rfl, State.reply_rsp .., rfl, rfl⟩⟩⟩

end Sys2Proof.Machine
end

section
/-! SUPPORT. The mailbox commands that set configuration, roles, clocks and the cold reset (R52, R427, R454, R484, R506, R508,
R515, R517, R518): a changed master role commutes with the slot's mark, and a clock change leaves the mailbox slots. -/

namespace Sys2Proof.Machine

variable {s u : State} {p : MPort} {n : Fin 32}

/-! ### Configuration fields -/

theorem signedOf_eq_toInt (v : Nat) : signedOf 16 v = (BitVec.ofNat 16 v).toInt := by
  unfold signedOf
  rw [BitVec.toInt_eq_toNat_cond, BitVec.toNat_ofNat]
  split <;> split <;> omega

theorem castConfig_answers (h : s.Ready p n 0x0122 4) (he : s.arg p n 0 1 ≤ 1) :
    s.AnswersWith (exec (.castConfig p n) s) p n Status.ok []
      { s with ctl := { s.ctl with castEnable := decide (s.arg p n 0 1 = 1), castController := BitVec.ofNat 12 (s.arg p n 2 2) } } := by
  refine State.answersWith h rfl ?_
  have he' : ¬ 1 < s.arg p n 0 1 := by omega
  exact if_neg he'

theorem syncConfig_answers (h : s.Ready p n 0x0404 4) :
    s.AnswersWith (exec (.syncConfig p n) s) p n Status.ok []
      { s with ctl := { s.ctl with noticeFlag := BitVec.ofNat 16 (s.arg p n 0 2), castBarrier := BitVec.ofNat 16 (s.arg p n 2 2) } } :=
  State.answersWith h rfl rfl

theorem linkConfig_answers (k : LinkId) (h : s.Ready p n 0x0402 4) (hk : s.arg p n 0 1 = k.val) :
    s.AnswersWith (exec (.linkConfig p n) s) p n Status.ok []
      (s.setLink k { s.link k with skew16 := (BitVec.ofNat 16 (s.arg p n 2 2)).toInt }) := by
  refine State.answersWith h rfl ?_
  have hbody : field (s.cmdOf p n 0x0402).body 0 1 = k.val := hk
  simp only [runLinkConfig, hbody, dif_pos k.isLt, Fin.eta, signedOf_eq_toInt]
  rfl

theorem powerCap_answers (h : s.Ready p n 0x0502 2) (hlo : 80 ≤ s.arg p n 0 2) (hhi : s.arg p n 0 2 ≤ 240) :
    s.AnswersWith (exec (.powerCap p n) s) p n Status.ok [] { s with power := { s.power with cap := 10 * s.arg p n 0 2 } } := by
  refine State.answersWith h rfl ?_
  have hrange : ¬ (s.arg p n 0 2 < 80 ∨ 240 < s.arg p n 0 2) := by omega
  exact if_neg hrange

theorem thermalConfig_answers (h : s.Ready p n 0x0503 2) (hlo : 85 ≤ s.arg p n 0 1) (hhi : s.arg p n 0 1 ≤ 110)
    (hrel : s.arg p n 1 1 + 5 ≤ s.arg p n 0 1) :
    s.AnswersWith (exec (.thermalConfig p n) s) p n Status.ok []
      { s with power := { s.power with emergencyC := s.arg p n 0 1, releaseC := s.arg p n 1 1 } } := by
  refine State.answersWith h rfl ?_
  have hrange : ¬ (s.arg p n 0 1 < 85 ∨ 110 < s.arg p n 0 1 ∨ s.arg p n 0 1 < s.arg p n 1 1 + 5) := by omega
  exact if_neg hrange

/-! ### The master role (R52) -/

theorem State.setSync_setSlot (m : MSlot) (new : SyncState) : (s.setSlot p n m).setSync new = (s.setSync new).setSlot p n m :=
  State.effects_setSlot { s with aon := { s.aon with sync := new } } _ p n m

theorem State.becomeMaster_startedAt :
    (s.startedAt p n).becomeMaster = s.becomeMaster.setSlot p n { s.slot p n with started := true } :=
  State.setSync_setSlot (s := { s with aon := { s.aon with
    master := true, rateTrim := 0#8, maxOffset := 0#8, syncLink := 0xFF#8, depth := 0, masterNode := s.aon.node, lower := none } }) ..

theorem State.endMaster_startedAt :
    (s.startedAt p n).endMaster = s.endMaster.setSlot p n { s.slot p n with started := true } :=
  State.setSync_setSlot (s := { s with aon := { s.aon with master := false, lastSync := s.now, beyond := 0, within := 0 } }) ..

theorem plumbMaster_takes (h : s.Ready p n 0x0403 1) (he : s.arg p n 0 1 = 1) (hm : s.aon.master = false) :
    s.AnswersWith (exec (.plumbMaster p n) s) p n Status.ok [] s.becomeMaster := by
  refine State.answersWith h (State.effects_mbox ..) ?_
  have hbody : field (s.cmdOf p n 0x0403).body 0 1 = 1 := he
  simp only [runPlumbMaster, hbody, State.startedAt_aon, hm, State.becomeMaster_startedAt, State.answer, if_true,
    Bool.false_eq_true, if_false]
  rfl

theorem plumbMaster_gives (h : s.Ready p n 0x0403 1) (he : s.arg p n 0 1 = 0) (hm : s.aon.master = true)
    (hs : s.aon.masterStrap = false) :
    s.AnswersWith (exec (.plumbMaster p n) s) p n Status.ok [] s.endMaster := by
  refine State.answersWith h (State.effects_mbox ..) ?_
  have hbody : field (s.cmdOf p n 0x0403).body 0 1 = 0 := he
  simp only [runPlumbMaster, hbody, State.startedAt_aon, hm, hs, State.endMaster_startedAt, State.answer, zero_ne_one, if_false,
    Bool.not_false, and_self, if_true]
  rfl

/-! ### The clock of a half (R484, R506) -/

@[simp] theorem State.recheck_mbox (s : State) : s.recheck.ctl.mbox = s.ctl.mbox := by
  have hdropped (u : State) : u.dropStaged.ctl.mbox = u.ctl.mbox := by
    unfold State.dropStaged
    dsimp only
    repeat' split
    all_goals rfl
  have hcancelled (u : State) : u.cancelArmed.ctl.mbox = u.ctl.mbox := by
    unfold State.cancelArmed
    split
    · exact State.effects_mbox ..
    · rfl
  unfold State.recheck
  dsimp only
  repeat' split
  all_goals simp [State.noteCast, State.raise, State.count1, hdropped, hcancelled]

theorem State.driveVid_ctl (s : State) (h : HalfId) : (s.driveVid h).ctl = s.ctl := by
  cases h <;> rfl

theorem State.repoint_mbox (s : State) (h : HalfId) (v : HalfPower) : (s.repoint h v).ctl.mbox = s.ctl.mbox := by
  unfold State.repoint
  dsimp only
  split <;> simp [State.newDistance, State.formPending, State.driveVid_ctl]

theorem State.recheck_power (s : State) : s.recheck.power = s.power := congrArg (fun x => x.2.2) s.recheck_kept

/-- The half's power state once its set points are formed again: the pending one is the lower of operator set point and throttle. -/
theorem State.repoint_half (s : State) (h : HalfId) (v : HalfPower) :
    (s.repoint h v).power.half h =
      { v with pending := if min v.opSet v.throttle = v.setPoint then none else some (min v.opSet v.throttle) } := by
  have hpower : (s.repoint h v).power = ((s.setHalf h v).formPending h).power := by
    unfold State.repoint
    dsimp only
    split
    · rfl
    · exact State.recheck_power _
  rw [hpower]
  cases h <;> rfl

/-- A slot is answered when the mailbox slots are those with its command started. -/
theorem State.answered_of_mbox (st : Nat) (b : List Byte) (hm : u.ctl.mbox = (s.startedAt p n).ctl.mbox) :
    s.Answered (u.respond p n st b) p n st b := by
  have hslot (q : MPort) (m : Fin 32) : u.slot q m = (s.startedAt p n).slot q m := by simp only [State.slot, hm]
  have hown : (s.startedAt p n).slot p n = { s.slot p n with started := true } := State.slot_setSlot ..
  refine State.respond_answered st b ?_ ?_ fun q m hq => ?_
  · rw [hslot, hown]
  · rw [hslot, hown]
  · rw [hslot, State.startedAt, State.slot_setSlot_ne _ _ _ _ _ _ hq]

theorem State.power_respond (u : State) (st : Nat) (b : List Byte) : (u.respond p n st b).power = u.power :=
  congrArg State.power (a₁ := State.apart _) (a₂ := State.apart _) (u.respond_apart p n st b)

theorem halfClock_sets (h : HalfId) (hr : s.Ready p n 0x0501 4) (hh : s.arg p n 0 1 = halfCode h) (hc : legalClock (s.arg p n 2 2))
    (ha : s.cast.armed = none) :
    ∃ t b, exec (.halfClock p n) s = .next t ∧ s.Answered t p n Status.ok b ∧
      (t.power.half h).opSet = s.arg p n 2 2 ∧
      (t.power.half h).point = min (s.arg p n 2 2) (s.power.half h).throttle ∧
      (t.power.half h).setPoint = (s.power.half h).setPoint ∧ (t.power.half h).run = (s.power.half h).run := by
  obtain ⟨hlo, hhi, hstep⟩ := hc
  let v : HalfPower := { s.power.half h with opSet := s.arg p n 2 2 }
  let u := (s.startedAt p n).repoint h v
  have hcode : s.arg p n 0 1 ≤ 1 ∧ (if s.arg p n 0 1 = 0 then HalfId.north else HalfId.south) = h := by
    rw [hh]; cases h <;> decide
  have hrun : runHalfClock (s.cmdOf p n 0x0501) (s.startedAt p n) = u.respond p n Status.ok u.distanceId := by
    have hok : ¬ (1 < s.arg p n 0 1 ∨ s.arg p n 2 2 < 200 ∨ 800 < s.arg p n 2 2 ∨ s.arg p n 2 2 % 100 ≠ 0) := by omega
    have hbody : (s.cmdOf p n 0x0501).body = (s.slot p n).body := rfl
    simp only [runHalfClock, hbody, if_neg hok, State.startedAt_cast, ha, hcode.2, Option.isSome_none, Bool.false_eq_true, if_false]
    rfl
  have hhalf : ((u.respond p n Status.ok u.distanceId).power.half h) =
      { v with pending := if min v.opSet v.throttle = v.setPoint then none else some (min v.opSet v.throttle) } := by
    rw [State.power_respond, State.repoint_half]
  refine ⟨_, _, congrArg Host.Outcome.next ((State.startCmd_ready hr _).trans hrun),
    State.answered_of_mbox _ _ (State.repoint_mbox ..), ?_⟩
  rw [hhalf]
  refine ⟨rfl, ?_, rfl, rfl⟩
  unfold HalfPower.point
  split
  · next heq => exact heq.symm
  · rfl

/-! ### The cold reset by command (R454) -/

theorem resetCold_arms (h : s.Ready p n 0x0701 4) (hc : s.arg p n 0 4 = 0x54455352) :
    ∃ t, exec (.resetCold p n) s = .next t ∧ s.Answered t p n Status.ok [] ∧
      t.aon = { s.aon with resetColdAt := some (s.aon.resetColdAt.getD (s.now + 1600)) } ∧ { t.apart with aon := s.aon } = s.apart := by
  let u := (s.startedAt p n).respond p n Status.ok []
  have happart : u.apart = s.apart := State.respond_apart ..
  have haon : u.aon = s.aon := congrArg State.aon (a₁ := u.apart) (a₂ := s.apart) happart
  have hrun : runResetCold (s.cmdOf p n 0x0701) (s.startedAt p n) =
      { u with aon := { u.aon with resetColdAt := some (u.aon.resetColdAt.getD (u.now + 1600)) } } :=
    if_pos (decide_eq_true hc)
  refine ⟨_, congrArg Host.Outcome.next ((State.startCmd_ready h _).trans hrun), State.answered_of_mbox _ _ rfl, ?_, ?_⟩
  · rw [State.now, haon]
    rfl
  · rw [← happart, ← haon]
    rfl

/-- Settles O14, command by command. -/
theorem settingsAndRoles : Obligations.SettingsAndRoles :=
  ⟨fun _ _ _ => ⟨castConfig_answers, syncConfig_answers, linkConfig_answers, powerCap_answers, thermalConfig_answers⟩,
    fun _ _ _ => ⟨plumbMaster_takes, plumbMaster_gives, halfClock_sets, resetCold_arms⟩⟩

end Sys2Proof.Machine
end

section
/-! SUPPORT. A cell's synchronization (R34, R231, R242, R255, R256): the instruction at the pc, then what a barrier's completion
does to each cell, then a change of a flag at the root. -/

namespace Sys2Proof.Machine

variable {s : State} {c : CellId} {r : Running} {w : Word} {x : Cell} {ch : BitVec 6} {one : Bool}

/-! ### Instructions at the pc (R242, R255, R256) -/

theorem execCellBar_member (h : s.CellAt c r w) (hw : w &&& 0xFF003F00#32 = cellWord 9 0 (ch.toNat * 2 ^ 8))
    (hm : ((s.cell c).slot r.slot1).barrierMask.getLsbD ch.toNat = true) :
    exec (.cellBar c ch) s = .next (s.setCell c { s.cell c with run := some { r with atBarrier := some ch } }) := by
  refine congrArg Host.Outcome.next ((State.onCell_at h hw _).trans ?_)
  simp [hm, State.retire]

theorem execCellFset_at (h : s.CellAt c r w) {f : Byte} (hw : w &&& 0xFF003FC0#32 = cellWord 9 1 (f.toNat * 2 ^ 6)) :
    exec (.cellFset c f) s = .next ((s.askFlag f true).cellNext c r (s.cell c) (r.pc + 4)) :=
  congrArg Host.Outcome.next (State.onCell_at h hw _)

theorem execCellFclr_at (h : s.CellAt c r w) {f : Byte} (hw : w &&& 0xFF003FC0#32 = cellWord 9 2 (f.toNat * 2 ^ 6)) :
    exec (.cellFclr c f) s = .next ((s.askFlag f false).cellNext c r (s.cell c) (r.pc + 4)) :=
  congrArg Host.Outcome.next (State.onCell_at h hw _)

theorem execCellFrd_at (h : s.CellAt c r w) {d : CellReg} {f : Byte}
    (hw : w &&& 0xFFF83FC0#32 = cellWord 9 3 (d.toNat * 2 ^ 19 + f.toNat * 2 ^ 6)) :
    exec (.cellFrd c d f) s = .next (s.cellNext c r ((s.cell c).put d (if s.flag f = true then 1#64 else 0#64)) (r.pc + 4)) :=
  congrArg Host.Outcome.next (State.onCell_at h hw _)

/-- `fwait` goes on while the flag holds its value, and else stalls. -/
theorem execCellFwait_at (h : s.CellAt c r w) {f : Byte} {v : Bool}
    (hw : w &&& 0xFF003FC1#32 = cellWord 9 4 (f.toNat * 2 ^ 6 + (if v then 1 else 0))) :
    exec (.cellFwait c f v) s = if s.flag f = v then .next (s.cellNext c r (s.cell c) (r.pc + 4)) else .next s := by
  refine (congrArg Host.Outcome.next (State.onCell_at h hw _)).trans ?_
  by_cases hf : s.flag f = v
  · simp only [if_pos hf]; rfl
  · simp only [if_neg hf]; rfl

theorem execCellNop_at (h : s.CellAt c r w) (hw : w &&& 0xFF000000#32 = cellWord 0xA 0 0) :
    exec (.cellNop c) s = .next (s.cellNext c r (s.cell c) (r.pc + 4)) :=
  congrArg Host.Outcome.next (State.cellOp_go h hw rfl)

theorem execCellEnd_at (h : s.CellAt c r w) (hw : w &&& 0xFF000000#32 = cellWord 0xA 1 0) :
    exec (.cellEnd c) s = .next (s.setCell c { s.cell c with run := none }) :=
  congrArg Host.Outcome.next (State.onCell_at h hw _)

/-- The control registers by number (R256). -/
theorem State.controlReg_eq (k : Nat) :
    s.controlReg c x r k = [c.setWidth 64, if r.slot1 then 1#64 else 0#64, BitVec.ofNat 64 (s.power.half (cellHalf c)).run,
      BitVec.ofNat 64 x.faultCause, BitVec.ofNat 64 x.workItems][k]? := by
  match k with
  | 0 | 1 | 2 | 3 | 4 => rfl
  | k + 5 => simp [State.controlReg]

theorem execCellCsrr_at (h : s.CellAt c r w) {d : CellReg} {k : BitVec 14} {v : DWord}
    (hw : w &&& 0xFFF83FFF#32 = cellWord 0xA 2 (d.toNat * 2 ^ 19 + k.toNat))
    (hv : s.controlReg c (s.cell c) r k.toNat = some v) :
    exec (.cellCsrr c d k) s = .next (s.cellNext c r ((s.cell c).put d v) (r.pc + 4)) := by
  refine congrArg Host.Outcome.next ((State.onCell_at h hw _).trans ?_)
  simp only [hv]
  rfl

theorem execCellPlumb_at (h : s.CellAt c r w) {d : CellReg} (hw : w &&& 0xFFF80000#32 = cellWord 0xA 4 (d.toNat * 2 ^ 19)) :
    ∃ old : Nat, old ≤ 1 ∧ exec (.cellPlumb c d) s =
      .next (({ s with freeUse := s.freeUse + 1 }).cellNext c r ((s.cell c).put d (s.aon.plumb - BitVec.ofNat 64 old)) (r.pc + 4)) :=
  ⟨(Config.freeWord s.freeUse).toNat % 2, by omega, congrArg Host.Outcome.next (State.onCell_at h hw _)⟩

/-! ### Barriers (R231) -/

/-- A cell after the completion of a channel under one policy slot: released when the channel is full and it has arrived. -/
def Cell.afterBarrier (full one : Bool) (ch : BitVec 6) (x : Cell) : Cell := if full && x.arrived one ch then x.release else x

theorem Cell.release_arrived : x.release.arrived one ch = false := by
  unfold Cell.release Cell.arrived
  cases x.run <;> simp

/-- A core has arrived with the handler of one policy slot alone. -/
theorem Cell.arrived_unique (h : x.arrived one ch = true) : x.arrived (!one) ch = false := by
  unfold Cell.arrived at h ⊢
  cases hr : x.run with
  | none => rfl
  | some r => simp only [hr, Bool.and_eq_true, decide_eq_true_eq] at h; simp [h.2]

/-- The other policy slot's completion leaves who has arrived. -/
theorem Cell.afterBarrier_arrived (full : Bool) : (x.afterBarrier full one ch).arrived (!one) ch = x.arrived (!one) ch := by
  unfold Cell.afterBarrier
  split
  · next h => rw [Cell.release_arrived, Cell.arrived_unique (Bool.and_eq_true_iff.1 h).2]
  · rfl

theorem Cell.afterBarrier_member (full other : Bool) (n : Nat) : (x.afterBarrier full one ch).member other n = x.member other n := by
  unfold Cell.afterBarrier
  split <;> rfl

theorem aget_mapValues {α β : Type} [DecidableEq α] (f : β → β) (k : α) (m : List (α × β)) :
    aget k (m.map (fun e => (e.1, f e.2))) = (aget k m).map f := by
  induction m with
  | nil => rfl
  | cons e m ih =>
    by_cases h : e.1 = k
    · simp [aget, h]
    · simp [aget, h, ih]

/-- The gate with every cell changed. -/
def State.mapCells (s : State) (f : Cell → Cell) : State :=
  { s with grid := { s.grid with cells := s.grid.cells.map (fun e => (e.1, f e.2)) } }

theorem State.barrierFull_mapCells {f : Cell → Cell} (ha : ∀ y : Cell, (f y).arrived one ch = y.arrived one ch)
    (hm : ∀ y : Cell, (f y).member one ch.toNat = y.member one ch.toNat) :
    (s.mapCells f).barrierFull one ch = s.barrierFull one ch := by
  unfold State.barrierFull State.mapCells
  simp only [List.filter_map, List.any_map, List.all_map, Function.comp_def, ha, hm]

/-- A channel's completion under one policy slot. -/
def State.barrierRelease (s : State) (one : Bool) (ch : BitVec 6) : State :=
  if s.barrierFull one ch then
    { s with grid := { s.grid with cells := s.grid.cells.map (fun (e : CellId × Cell) =>
      if e.2.arrived one ch then (e.1, e.2.release) else e) } }
  else s

theorem State.barrierRelease_eq (s : State) (one : Bool) (ch : BitVec 6) :
    s.barrierRelease one ch = s.mapCells (Cell.afterBarrier (s.barrierFull one ch) one ch) := by
  unfold State.barrierRelease State.mapCells Cell.afterBarrier
  cases s.barrierFull one ch with
  | false => simp
  | true =>
    simp only [if_true, Bool.true_and]
    congr 3
    funext e
    split <;> rfl

/-- A completion under one policy slot, then the other one: the second does not see the first. -/
theorem barrierComplete_eq (ch : BitVec 6) (s : State) :
    barrierComplete ch s = (s.mapCells (Cell.afterBarrier (s.barrierFull false ch) false ch)).mapCells
      (Cell.afterBarrier (s.barrierFull true ch) true ch) := by
  have hfull : (s.mapCells (Cell.afterBarrier (s.barrierFull false ch) false ch)).barrierFull true ch = s.barrierFull true ch :=
    State.barrierFull_mapCells (fun _ => Cell.afterBarrier_arrived (one := false) _) fun _ => Cell.afterBarrier_member ..
  calc barrierComplete ch s
    _ = (s.barrierRelease false ch).barrierRelease true ch := rfl
    _ = _ := by rw [State.barrierRelease_eq, State.barrierRelease_eq s, hfull]

/-- A cell after a channel's completion under both policy slots. -/
theorem barrierComplete_cell (h : aget c s.grid.cells = some x) :
    aget c (barrierComplete ch s).grid.cells =
      some ((x.afterBarrier (s.barrierFull false ch) false ch).afterBarrier (s.barrierFull true ch) true ch) := by
  rw [barrierComplete_eq]
  simp only [State.mapCells, aget_mapValues, h, Option.map_some]

theorem Cell.afterBarriers_released {full : Bool → Bool} (hf : full one = true) (ha : x.arrived one ch = true) :
    (x.afterBarrier (full false) false ch).afterBarrier (full true) true ch = x.release := by
  have hother := Cell.arrived_unique ha
  cases one with
  | false => simp [Cell.afterBarrier, hf, ha, Cell.release_arrived]
  | true => simp only [Bool.not_true] at hother; simp [Cell.afterBarrier, hf, ha, hother]

theorem Cell.afterBarriers_kept {full : Bool → Bool} (h : ∀ one, full one = false ∨ x.arrived one ch = false) :
    (x.afterBarrier (full false) false ch).afterBarrier (full true) true ch = x := by
  have hkept (one : Bool) : x.afterBarrier (full one) one ch = x :=
    if_neg (by rcases h one with h | h <;> simp [h])
  rw [hkept false, hkept true]

theorem execBarrierComplete_cells (s : State) (ch : Fin 64) :
    ∃ t, exec (.barrierComplete ch) s = .next t ∧ { t with grid := { t.grid with cells := s.grid.cells } } = s ∧
      ∀ c x, aget c s.grid.cells = some x →
        (∀ one, s.barrierFull one (BitVec.ofNat 6 ch.val) = true → x.arrived one (BitVec.ofNat 6 ch.val) = true →
          aget c t.grid.cells = some { x with run := x.run.map (fun (r : Running) => { r with pc := r.pc + 4, atBarrier := none }) }) ∧
        ((∀ one, s.barrierFull one (BitVec.ofNat 6 ch.val) = false ∨ x.arrived one (BitVec.ofNat 6 ch.val) = false) →
          aget c t.grid.cells = some x) := by
  refine ⟨_, rfl, ?_, fun c x hx => ⟨fun one hf ha => ?_, fun hnot => ?_⟩⟩
  · rw [barrierComplete_eq]
    rfl
  · rw [barrierComplete_cell hx, Cell.afterBarriers_released (full := fun one => s.barrierFull one _) hf ha]
    rfl
  · rw [barrierComplete_cell hx, Cell.afterBarriers_kept (full := fun one => s.barrierFull one _) hnot]

/-! ### Flags (R231) -/

/-- The root's flags with one of them given a value. -/
def setFlag (f : Byte) (v : Bool) (flags : List Byte) : List Byte :=
  if v then flags.filter (fun g => g ≠ f) ++ [f] else flags.filter (fun g => g ≠ f)

theorem setFlag_contains (f g : Byte) (v : Bool) (flags : List Byte) :
    (setFlag f v flags).contains g = if g = f then v else flags.contains g := by
  rw [Bool.eq_iff_iff]
  unfold setFlag
  cases v <;> by_cases h : g = f <;> simp [h]

/-- The oldest change of a flag, and whether another one of its cycle clashes with it. -/
theorem flagChange_eq {f : Byte} {v : Bool} {k : Nat} {rest : List (Byte × Bool × Nat)} (h : s.grid.flagOps = (f, v, k) :: rest) :
    let same := fun (o : Byte × Bool × Nat) => decide (o.1 = f) && decide (o.2.2 = k)
    let clash := rest.any (fun o => same o && decide (o.2.1 ≠ v))
    let u := { s with grid := { s.grid with flags := setFlag f (v || clash) s.grid.flags,
                                            flagOps := if clash then rest.filter (fun o => !same o) else rest } }
    flagChange s = if clash then u.count1 0x0B 0 4 else u := by
  unfold flagChange setFlag
  simp only [h]

theorem execFlagChange_alone {f : Byte} {v : Bool} {k : Nat} {rest : List (Byte × Bool × Nat)}
    (h : s.grid.flagOps = (f, v, k) :: rest) (hno : ∀ o ∈ rest, ¬ (o.1 = f ∧ o.2.2 = k ∧ o.2.1 ≠ v)) :
    ∃ t, exec .flagChange s = .next t ∧ t.flag f = v ∧ (∀ g, g ≠ f → t.flag g = s.flag g) ∧ t.grid.flagOps = rest ∧
      { t with grid := { t.grid with flags := s.grid.flags, flagOps := s.grid.flagOps } } = s := by
  have hclash : rest.any (fun o => (decide (o.1 = f) && decide (o.2.2 = k)) && decide (o.2.1 ≠ v)) = false := by
    simpa [and_assoc] using hno
  have he := flagChange_eq h
  simp only [hclash, Bool.or_false, Bool.false_eq_true, if_false] at he
  refine ⟨_, congrArg Host.Outcome.next he, ?_, fun g hg => ?_, rfl, rfl⟩
  · simp only [State.flag, setFlag_contains, if_true]
  · simp only [State.flag, setFlag_contains, if_neg hg]

theorem execFlagChange_clash {f : Byte} {v : Bool} {k : Nat} {rest : List (Byte × Bool × Nat)}
    (h : s.grid.flagOps = (f, v, k) :: rest) (hsome : ∃ o ∈ rest, o.1 = f ∧ o.2.2 = k ∧ o.2.1 ≠ v) :
    ∃ t, exec .flagChange s = .next t ∧ t.flag f = true ∧ (∀ g, g ≠ f → t.flag g = s.flag g) ∧
      t.grid.flagOps = rest.filter (fun o => !(decide (o.1 = f) && decide (o.2.2 = k))) ∧
      { t.quiet with grid := { t.grid with flags := s.grid.flags, flagOps := s.grid.flagOps } } = s.quiet := by
  have hclash : rest.any (fun o => (decide (o.1 = f) && decide (o.2.2 = k)) && decide (o.2.1 ≠ v)) = true := by
    simpa [and_assoc] using hsome
  have he := flagChange_eq h
  simp only [hclash, Bool.or_true, if_true] at he
  refine ⟨_, congrArg Host.Outcome.next he, ?_, fun g hg => ?_, ?_, ?_⟩
  · simp only [State.flag, State.count1, State.effects_grid, setFlag_contains, if_true]
  · simp only [State.flag, State.count1, State.effects_grid, setFlag_contains, if_neg hg]
  · simp only [State.count1, State.effects_grid]
  · rw [State.count1_quiet]
    simp only [State.count1, State.effects_grid]
    rfl

/-- Settles O57, instruction by instruction, then the barrier's completion and the flag's change. -/
theorem cellSynchronization : Obligations.CellSynchronization :=
  ⟨fun _ _ _ _ _ h =>
      ⟨fun _ hw hm => execCellBar_member h hw hm, fun _ hw => execCellFset_at h hw, fun _ hw => execCellFclr_at h hw,
        fun _ hw => execCellFrd_at h hw, fun _ _ hw => execCellFwait_at h hw, execCellNop_at h, execCellEnd_at h,
        fun _ _ hw hv => execCellCsrr_at h hw ((State.controlReg_eq _).trans hv), execCellPlumb_at h⟩,
    fun s => ⟨execBarrierComplete_cells s,
      fun _ _ _ _ h => ⟨execFlagChange_alone h, execFlagChange_clash h⟩⟩⟩

end Sys2Proof.Machine
end

section
/-! SUPPORT. What the fabric's operations leave of every link: its state and its peer. What sending on a link leaves of every
other link: all of it. -/

namespace Sys2Proof.Machine

variable (s : State) {j k : LinkId}

/-! ### A link under updates -/

@[simp] theorem State.setLink_link (k j : LinkId) (l : Link) : (s.setLink k l).link j = if k = j then l else s.link j := by
  unfold State.setLink State.link
  by_cases h : k = j
  · subst h; simp
  · simp [h, aget_aset_ne (Ne.symm h)]

theorem State.link_of_plane {s t : State} (h : t.plane = s.plane) (j : LinkId) : t.link j = s.link j := by
  unfold State.link; rw [h]

@[simp] theorem State.effects_link (es : List Effect) (j : LinkId) : (s.effects es).link j = s.link j :=
  State.link_of_plane (s.effects_plane es) j

@[simp] theorem State.count1_link (g i p : Nat) (j : LinkId) : (s.count1 g i p).link j = s.link j := s.effects_link _ j
@[simp] theorem State.countN_link (g i p n : Nat) (j : LinkId) : (s.countN g i p n).link j = s.link j := s.effects_link _ j
@[simp] theorem State.raise_link (c : Nat) (d : List Byte) (j : LinkId) : (s.raise c d).link j = s.link j := s.effects_link _ j

/-! ### State and peer of a link -/

/-- What a link's far side has made of it: its state and its peer. -/
def State.face (s : State) (j : LinkId) : LinkState × NodeId := ((s.link j).state, (s.link j).peer)

theorem State.face_of_link {s t : State} (h : t.link j = s.link j) : t.face j = s.face j := by unfold State.face; rw [h]

@[simp] theorem State.effects_face (es : List Effect) (j : LinkId) : (s.effects es).face j = s.face j :=
  State.face_of_link (s.effects_link es j)

@[simp] theorem State.count1_face (g i p : Nat) (j : LinkId) : (s.count1 g i p).face j = s.face j := s.effects_face _ j
@[simp] theorem State.countN_face (g i p n : Nat) (j : LinkId) : (s.countN g i p n).face j = s.face j := s.effects_face _ j

/-- A link replaced by one of the same state and peer. -/
theorem State.setLink_face {l : Link} (h : (l.state, l.peer) = s.face k) (j : LinkId) : (s.setLink k l).face j = s.face j := by
  by_cases hk : k = j
  · subst hk; simpa [State.face] using h
  · exact State.face_of_link (by rw [State.setLink_link, if_neg hk])

@[simp] theorem State.enqueueLink_face (k : LinkId) (p : Packet) (start : Nat) (j : LinkId) :
    (s.enqueueLink k p start).face j = s.face j := by
  have hset := s.setLink_face (l := { s.link k with out := (s.pushOutput (s.link k).out p start).1 }) (k := k) rfl j
  unfold State.enqueueLink
  dsimp only
  split
  · rw [State.count1_face, hset]
  · exact hset

@[simp] theorem State.offerLink_face (k : LinkId) (p : Packet) (start : Nat) (j : LinkId) :
    (s.offerLink k p start).face j = s.face j := by
  unfold State.offerLink
  split <;> simp

@[simp] theorem State.offerBulk_face (b : BulkId) (p : Packet) (start : Nat) (j : LinkId) :
    (s.offerBulk b p start).face j = s.face j :=
  State.face_of_link (State.link_of_plane (s.offerBulk_plane b p start) j)

@[simp] theorem State.forward_face (p : Packet) (stamp start : Nat) (j : LinkId) : (s.forward p stamp start).face j = s.face j := by
  unfold State.forward
  repeat' split
  all_goals simp

@[simp] theorem State.deliver_face (a : Arrival) (j : LinkId) : (s.deliver a).face j = s.face j := by
  have hgap : (if a.pkt.hdr.gap then s.count1 0x02 0 11 else s).face j = s.face j := by split <;> simp
  unfold State.deliver
  dsimp only
  generalize (if a.pkt.hdr.gap then s.count1 0x02 0 11 else s) = u at hgap
  split
  · exact hgap
  · rw [State.offerBulk_face, hgap]

@[simp] theorem State.sendRouted_face (dest : NodeId) (port : Byte) (h : BitVec 48) (b : List Byte) (j : LinkId) :
    (s.sendRouted dest port h b).face j = s.face j := by
  unfold State.sendRouted
  split <;> simp

@[simp] theorem State.branchGap_face (g : Nat) (k j : LinkId) : (s.branchGap g k).face j = s.face j := by
  unfold State.branchGap
  split <;> rfl

@[simp] theorem State.reportMiss_face (g : Nat) (p : Packet) (reason : Nat) (m : BitVec 256) (j : LinkId) :
    (s.reportMiss g p reason m).face j = s.face j := by
  unfold State.reportMiss
  split
  · split
    · simp
    · rfl
  · simp

@[simp] theorem State.branchMiss_face (g : Nat) (k : LinkId) (p : Packet) (m : BitVec 256) (j : LinkId) :
    (s.branchMiss g k p m).face j = s.face j := by
  simp [State.branchMiss]

@[simp] theorem missRetained_face (k : LinkId) (rs : List Retained) (j : LinkId) : (missRetained k rs s).face j = s.face j := by
  unfold missRetained
  induction rs generalizing s with
  | nil => rfl
  | cons r rs ih => rw [List.foldl_cons, ih, State.branchMiss_face]

@[simp] theorem State.linkRecord_face (kind : Nat) (link : Byte) (peer : NodeId) (slot lane : Nat) (j : LinkId) :
    (s.linkRecord kind link peer slot lane).face j = s.face j := s.effects_face _ j

/-! ### Every link changed alike -/

/-- A change of every link that leaves an unused one as it is does so to the link read. -/
theorem State.link_map (f : Link → Link) (p : Plane) (hp : p.links = s.plane.links.map (fun e => (e.1, f e.2))) (j : LinkId) :
    State.link { s with plane := p } j = ((aget j s.plane.links).map f).getD {} := by
  show (aget j p.links).getD {} = _
  rw [hp, aget_mapValues]

theorem State.face_map (f : Link → Link) (hf : ∀ l, ((f l).state, (f l).peer) = (l.state, l.peer)) (p : Plane)
    (hp : p.links = s.plane.links.map (fun e => (e.1, f e.2))) (j : LinkId) : State.face { s with plane := p } j = s.face j := by
  unfold State.face
  rw [s.link_map f p hp j, State.link]
  cases aget j s.plane.links with
  | none => rfl
  | some l => exact hf l

@[simp] theorem State.routesChanged_face (j : LinkId) : s.routesChanged.face j = s.face j :=
  s.face_map (fun l => { l with routeDirty := true }) (fun _ => rfl) _ rfl j

@[simp] theorem State.routesChanged_learned (j : LinkId) : (s.routesChanged.link j).learned = (s.link j).learned := by
  rw [State.routesChanged, s.link_map (fun l => { l with routeDirty := true }) _ rfl j, State.link]
  cases aget j s.plane.links <;> rfl

@[simp] theorem State.routesChanged_inside : s.routesChanged.inside = s.inside := rfl

/-! ### A message on one link -/

/-- Queueing on a link leaves every other one, and of the link all but its output. -/
theorem State.offerLink_link (k : LinkId) (p : Packet) (start : Nat) :
    (∃ o, (s.offerLink k p start).link k = { s.link k with out := o }) ∧
      ∀ j, j ≠ k → (s.offerLink k p start).link j = s.link j := by
  unfold State.offerLink State.enqueueLink
  dsimp only
  split
  · split
    · exact ⟨⟨_, by rw [State.count1_link, State.setLink_link, if_pos rfl]⟩, fun j hj => by
        rw [State.count1_link, State.setLink_link, if_neg (Ne.symm hj)]⟩
    · exact ⟨⟨_, by rw [State.setLink_link, if_pos rfl]⟩, fun j hj => by rw [State.setLink_link, if_neg (Ne.symm hj)]⟩
  · exact ⟨⟨(s.link k).out, s.count1_link ..⟩, fun j _ => s.count1_link ..⟩

@[simp] theorem State.offerLink_aon (k : LinkId) (p : Packet) (start : Nat) : (s.offerLink k p start).aon = s.aon :=
  congrArg State.aon (a₁ := State.inside _) (a₂ := State.inside _) (s.offerLink_inside k p start)

@[simp] theorem State.sendLocal_face (k : LinkId) (port : Byte) (b : List Byte) (j : LinkId) :
    (s.sendLocal k port b).face j = s.face j := s.offerLink_face ..

@[simp] theorem State.sendLocal_aon (k : LinkId) (port : Byte) (b : List Byte) : (s.sendLocal k port b).aon = s.aon :=
  s.offerLink_aon ..

end Sys2Proof.Machine
end

section
/-! SUPPORT. A command that waited is answered: what that leaves unchanged, and when it is finished (R80, R421). -/

namespace Sys2Proof.Machine

variable {s u : State} {w : Waiting} {p : MPort} {n : Fin 32}

/-- A slot is answered from a state whose slots are unchanged. -/
theorem State.respond_answered_of_mbox (hm : u.ctl.mbox = s.ctl.mbox) (st : Nat) (b : List Byte) :
    s.Answered (u.respond p n st b) p n st b := by
  have hslot (q : MPort) (m : Fin 32) : u.slot q m = s.slot q m := by simp only [State.slot, hm]
  exact State.respond_answered st b (by rw [hslot]) (by rw [hslot]) fun q m _ => hslot q m

@[simp] theorem State.answerFrom_apart (u : State) (src : Option (MPort × Fin 32)) (st : Nat) (b : List Byte) :
    (u.answerFrom src st b).apart = u.apart := by
  unfold State.answerFrom
  split <;> simp

/-- What a reading of the state sees alone of the part that an answer leaves, two states that agree on that part agree on. -/
theorem State.of_apart {α : Type} {t : State} (f : State → α) (hf : ∀ v : State, f v = f v.apart) (h : t.apart = u.apart) :
    f t = f u := by
  rw [hf, h, ← hf]

/-- The same for the part that counting and raising notices leave. -/
theorem State.of_quiet {α : Type} {t : State} (f : State → α) (hf : ∀ v : State, f v = f v.quiet) (h : t.quiet = u.quiet) :
    f t = f u := by
  rw [hf, h, ← hf]

/-- The same for the part that sending packets leaves. -/
theorem State.of_inside {α : Type} {t : State} (f : State → α) (hf : ∀ v : State, f v = f v.inside) (h : t.inside = u.inside) :
    f t = f u := by
  rw [hf, h, ← hf]

@[simp] theorem State.answerFrom_plane (u : State) (src : Option (MPort × Fin 32)) (st : Nat) (b : List Byte) :
    (u.answerFrom src st b).plane = u.plane :=
  State.of_apart State.plane (fun _ => rfl) (u.answerFrom_apart src st b)

@[simp] theorem State.answerFrom_waiting (u : State) (src : Option (MPort × Fin 32)) (st : Nat) (b : List Byte) :
    (u.answerFrom src st b).ctl.waiting = u.ctl.waiting :=
  State.of_apart (fun v => v.ctl.waiting) (fun _ => rfl) (u.answerFrom_apart src st b)

@[simp] theorem State.answerFrom_besides (u : State) (src : Option (MPort × Fin 32)) (st : Nat) (b : List Byte) :
    (u.answerFrom src st b).besides = u.besides := 
  State.of_apart State.besides (fun _ => rfl) (u.answerFrom_apart src st b)

theorem State.answerFrom_latched {code : Nat} (h : u.latched code = true) (src : Option (MPort × Fin 32)) (st : Nat) (b : List Byte) :
    (u.answerFrom src st b).latched code = true := by
  unfold State.answerFrom State.respond
  dsimp only
  split
  · split
    · exact State.effects_latched _ _ code h
    · exact h
  · exact h

/-- A command at its boundary is finished by the answer to its slot. -/
theorem State.finished_answerFrom (hw : u.ctl.waiting = s.ctl.waiting.eraseP Waiting.atBoundary) (hm : u.ctl.mbox = s.ctl.mbox)
    (st : Nat) (b : List Byte) : s.Finished (u.answerFrom w.from? st b) w st b := by
  refine ⟨by rw [State.answerFrom_waiting, hw], fun p n hf => ?_, fun hf => ?_⟩
  · rw [hf]
    exact State.respond_answered_of_mbox hm st b
  · rw [hf]
    exact hm

end Sys2Proof.Machine
end

section
/-! SUPPORT. The plane reset, the training after it, its completion and PLANE_RESTORE (R33, R452, R458, R459, R467). -/

namespace Sys2Proof.Machine

variable {s : State} {w : Waiting} {j k : LinkId}

/-! ### Every link stops (R33, R383) -/

@[simp] theorem missRetained_inside (k : LinkId) (rs : List Retained) (s : State) : (missRetained k rs s).inside = s.inside :=
  foldl_inside _ (fun _ _ => State.branchMiss_inside ..) rs s

/-- A link that stops without a new synchronization link leaves all but the plane. -/
@[simp] theorem State.linkStops_inside (s : State) (k : LinkId) : (s.linkStops k false).inside = s.inside := by
  unfold State.linkStops
  simp only [Bool.false_eq_true, if_false]
  repeat' split
  all_goals simp

/-- A link as it stops: what it holds and what it has learned are lost. -/
def Link.stopped (l : Link) : Link :=
  { l with state := .down, inSync := false, good := 0, bad := 0, learned := [], sparing := none, out := {}, retention := [],
           faulted := [], trailerFails := [], syncDepth := none, delayT1 := none }

theorem State.linkStops_face (s : State) (k j : LinkId) (hd : (s.link k).state ≠ .down) :
    (s.linkStops k false).face j = (s.setLink k (s.link k).stopped).face j := by
  unfold State.linkStops
  simp only [if_neg hd, Bool.false_eq_true, if_false]
  repeat' split
  all_goals simp only [State.routesChanged_face, State.linkRecord_face, missRetained_face, State.countN_face]
  all_goals rfl

/-- Stopping takes the link DOWN and leaves the state of every other one. -/
theorem State.linkStops_state (s : State) (k j : LinkId) :
    ((s.linkStops k false).link j).state = if k = j then .down else (s.link j).state := by
  by_cases hd : (s.link k).state = .down
  · have hs : s.linkStops k false = s := if_pos hd
    rw [hs]
    split
    · next h => rw [← h, hd]
    · rfl
  · have hf : ((s.linkStops k false).link j).state = ((s.setLink k (s.link k).stopped).link j).state :=
      congrArg Prod.fst (s.linkStops_face k j hd)
    rw [hf, State.setLink_link]
    split <;> rfl

theorem State.linksStop_inside (ks : List LinkId) (s : State) :
    (ks.foldl (fun t k => t.linkStops k false) s).inside = s.inside :=
  foldl_inside _ (fun _ _ => State.linkStops_inside ..) ks s

theorem State.linksStop_down (ks : List LinkId) (s : State) (h : j ∈ ks ∨ (s.link j).state = .down) :
    ((ks.foldl (fun t k => t.linkStops k false) s).link j).state = .down := by
  induction ks generalizing s with
  | nil => exact h.resolve_left (List.not_mem_nil)
  | cons k ks ih =>
    refine ih _ ?_
    rw [State.linkStops_state s k j]
    rcases h with h | h
    · rcases List.mem_cons.1 h with h | h
      · exact .inr (if_pos h.symm)
      · exact .inl h
    · exact .inr (by split <;> simp [h])

theorem State.creditsReturn_inside (as : List Arrival) (s : State) :
    (as.foldl (fun t a => t.returnCredit a.edge a.pkt) s).inside = s.inside :=
  foldl_inside _ (fun _ _ => State.returnCredit_inside ..) as s

theorem State.creditsReturn_plane (as : List Arrival) (s : State) :
    (as.foldl (fun t a => t.returnCredit a.edge a.pkt) s).plane = s.plane := by
  induction as generalizing s with
  | nil => rfl
  | cons a as ih => rw [List.foldl_cons, ih, State.returnCredit_plane]

/-! ### The reset's boundary (R452) -/

/-- The gate at the boundary with every link stopped and the packets at its edges discarded. -/
@[irreducible] def State.planeStopped (s : State) : State :=
  let s0 := (List.finRange 64).foldl (fun t k => t.linkStops k false) s.popWaiting
  s0.plane.edgeWait.foldl (fun t a => t.returnCredit a.edge a.pkt) s0

theorem State.planeStopped_inside (s : State) : s.planeStopped.inside = s.popWaiting.inside := by
  unfold State.planeStopped
  dsimp only
  rw [State.creditsReturn_inside, State.linksStop_inside]

theorem State.planeStopped_down (s : State) (k : LinkId) : (s.planeStopped.link k).state = .down := by
  unfold State.planeStopped
  dsimp only
  rw [State.link_of_plane (State.creditsReturn_plane _ _)]
  exact State.linksStop_down (List.finRange 64) s.popWaiting (.inl (List.mem_finRange k))

theorem State.dueWaiting_code {code : Nat} (h : s.dueWaiting code = some w) : w.code = code := by
  unfold State.dueWaiting at h
  split at h
  · split at h
    · next hc => exact Option.some.inj h ▸ hc.1
    · cases h
  · cases h

/-- The gate at the boundary: the default tables, empty windows, records and outputs, and the command that waits on. -/
theorem planeReset_eq (h : s.dueWaiting 0x0702 = some w) :
    ∃ u : State, u.inside = s.popWaiting.inside ∧ (∀ k, (u.link k).state = .down) ∧ planeReset s = State.waitCompletion
      { u with
        plane := { u.plane with
          policyRoutes := none, formerRoutes := none, slots := none, groups := [], delivery := none, tablesLost := true,
          windows := [], records := [], acks := [], edgeWait := [], groupLast := [], retrainAt := some (w.due + 4800),
          resetBoundary := some w.due, lanes := u.plane.lanes.map (fun e => (e.1, { e.2 with train := [] })) },
        bulk := u.bulk.map (fun e => (e.1, { e.2 with out := {} })) } w := by
  refine ⟨s.planeStopped, s.planeStopped_inside, s.planeStopped_down, ?_⟩
  unfold planeReset State.planeStopped
  simp only [h]

theorem execPlaneResetBoundary_due (h : s.dueWaiting 0x0702 = some w) :
    ∃ t, exec .planeResetBoundary s = .next t ∧ t.plane.policyRoutes = none ∧ t.plane.formerRoutes = none ∧ t.plane.slots = none ∧
      t.plane.groups = [] ∧ t.plane.delivery = none ∧ t.plane.tablesLost = true ∧ t.plane.windows = [] ∧ t.plane.records = [] ∧
      t.plane.acks = [] ∧ t.plane.edgeWait = [] ∧ t.plane.retrainAt = some (w.due + 4800) ∧ t.plane.resetBoundary = some w.due ∧
      (∀ k : LinkId, (t.link k).state = .down) ∧ (∀ b k, aget b t.bulk = some k → k.out = {}) ∧
      (∀ g v, aget g t.plane.lanes = some v → v.train = []) ∧ t.aon = s.aon ∧
      { w with code := 0x10702 } ∈ t.ctl.waiting ∧
      t.streams.table = s.streams.table ∧ t.cast = s.cast ∧ t.power = s.power ∧ t.boot = s.boot := by
  obtain ⟨u, hinside, hdown, hu⟩ := planeReset_eq h
  have hkeeps {α : Type} (f : State → α) (hf : ∀ v : State, f v = f v.inside) : f u = f s.popWaiting := State.of_inside f hf hinside
  refine ⟨_, congrArg Host.Outcome.next hu, rfl, rfl, rfl, rfl, rfl, rfl, rfl, rfl, rfl, rfl, rfl, rfl,
    hdown, fun b k hb => ?_, fun g v hg => ?_, hkeeps State.aon fun _ => rfl, ?_, hkeeps (fun v => v.streams.table) fun _ => rfl,
    hkeeps State.cast fun _ => rfl, hkeeps State.power fun _ => rfl, hkeeps State.boot fun _ => rfl⟩
  · obtain ⟨v, -, rfl⟩ := Option.map_eq_some_iff.1 ((aget_mapValues (fun v : Bulk => { v with out := {} }) b _).symm.trans hb)
    rfl
  · obtain ⟨v, -, rfl⟩ := Option.map_eq_some_iff.1 ((aget_mapValues (fun v : LaneGroup => { v with train := [] }) g _).symm.trans hg)
    rfl
  · refine List.mem_append_right _ (List.mem_singleton.2 ?_)
    rw [State.dueWaiting_code h]

/-! ### Training again (R458) -/

theorem aget_foldl_aset {α β : Type} [DecidableEq α] (f : α → β) (ks : List α) (m : List (α × β)) (k : α) :
    aget k (ks.foldl (fun m i => aset i (f i) m) m) = if k ∈ ks then some (f k) else aget k m := by
  induction ks generalizing m with
  | nil => rfl
  | cons i ks ih =>
    rw [List.foldl_cons, ih, aget_aset]
    by_cases hk : k ∈ ks
    · simp [hk]
    · by_cases hi : k = i
      · subst hi; simp
      · simp [hk, hi]

theorem execPlaneRetrain_early {n : Nat} (h : s.plane.retrainAt = some n) (hn : s.now < n) : exec .planeRetrain s = .next s := by
  refine congrArg Host.Outcome.next (?_ : retrain s = s)
  unfold retrain
  simp only [h, if_neg (Nat.not_le.2 hn)]

theorem execPlaneRetrain_due {n : Nat} (h : s.plane.retrainAt = some n) (hn : n ≤ s.now) :
    ∃ t, exec .planeRetrain s = .next t ∧ t.plane.retrainAt = none ∧
      (∀ g : Fin 8, (t.laneGroup g).train = (List.finRange 8).map (fun i => s.physLane (laneLink g i))) ∧
      { t with plane := s.plane } = s := by
  have hr : retrain s = { s with plane := { s.plane with
      retrainAt := none
      lanes := (List.finRange 8).foldl (fun m g => aset g
        { s.laneGroup g with train := (List.finRange 8).map (fun i => s.physLane (laneLink g i)) } m) s.plane.lanes } } := by
    unfold retrain
    simp only [h, if_pos hn]
  refine ⟨_, congrArg Host.Outcome.next hr, rfl, fun g => ?_, rfl⟩
  simp only [State.laneGroup, aget_foldl_aset, List.mem_finRange, if_true, Option.getD_some]

/-! ### The completion (R458, R467) -/

theorem execPlaneResetComplete_due (h : s.completing 0x0702 = some w) :
    ∃ t, exec .planeResetComplete s = .next t ∧ t.plane = { s.plane with resetBoundary := none } ∧
      t.ctl.waiting = s.ctl.waiting.erase w ∧ (∀ p n, w.from? = some (p, n) → s.Answered t p n Status.ok []) ∧
      t.latched 18 = true ∧ t.besides = s.besides := by
  let u := ({ s with plane := { s.plane with resetBoundary := none } } : State).dropCompleting w
  let v := (u.count1 0x12 0 0).noteReset 1 w.accept w.due w.from? 0
  have hquiet : v.quiet = u.quiet := (State.raise_quiet ..).trans (State.count1_quiet ..)
  have hr : planeResetDone s = v.answerFrom w.from? Status.ok [] := by
    unfold planeResetDone
    simp only [h]
    rfl
  refine ⟨_, congrArg Host.Outcome.next hr, ?_, ?_, fun p n hf => ?_, State.answerFrom_latched (State.raise_latched ..) _ _ _, ?_⟩
  · rw [State.answerFrom_plane, State.plane_of_quiet hquiet]
    rfl
  · rw [State.answerFrom_waiting, State.of_quiet (fun x => x.ctl.waiting) (fun _ => rfl) hquiet]
    rfl
  · rw [hf]
    exact State.respond_answered_of_mbox (State.of_quiet (fun x => x.ctl.mbox) (fun _ => rfl) hquiet) _ _
  · rw [State.answerFrom_besides, State.of_quiet State.besides (fun _ => rfl) hquiet]
    rfl

/-! ### PLANE_RESTORE (R459) -/

theorem execPlaneRestoreBoundary_installs {p : Policy} (h : s.dueWaiting 0x0704 = some w) (hl : s.plane.tablesLost = true)
    (hp : s.cast.active = some p) :
    ∃ t, exec .planeRestoreBoundary s = .next t ∧ s.Finished t w Status.ok [] ∧
      t.plane = { s.plane with policyRoutes := some p.tables.routes, slots := some p.tables.slots, groups := p.tables.groups,
                               delivery := some p.tables.delivery, tablesLost := false,
                               links := s.plane.links.map (fun e => (e.1, { e.2 with routeDirty := true })) } ∧
      t.besides = s.besides := by
  have hr : planeRestore s = (s.popWaiting.installTables p.tables).answerFrom w.from? Status.ok [] := by
    unfold planeRestore
    simp only [h, hl, hp]
  have hfin := State.finished_answerFrom (s := s) (u := s.popWaiting.installTables p.tables) (w := w) rfl rfl Status.ok []
  exact ⟨_, congrArg Host.Outcome.next hr, hfin, (State.answerFrom_plane ..).trans rfl, (State.answerFrom_besides ..).trans rfl⟩

theorem execPlaneRestoreBoundary_done (h : s.dueWaiting 0x0704 = some w) (hn : s.plane.tablesLost = false ∨ s.cast.active = none) :
    ∃ t, exec .planeRestoreBoundary s = .next t ∧ s.Finished t w Status.alreadyDone [] ∧ t.plane = s.plane ∧ t.besides = s.besides := by
  have hr : planeRestore s = s.popWaiting.answerFrom w.from? Status.alreadyDone [] := by
    unfold planeRestore
    simp only [h]
    rcases hn with hn | hn
    · simp only [hn]
    · cases hl : s.plane.tablesLost <;> simp only [hn]
  have hfin := State.finished_answerFrom (s := s) (u := s.popWaiting) (w := w) rfl rfl Status.alreadyDone []
  exact ⟨_, congrArg Host.Outcome.next hr, hfin, (State.answerFrom_plane ..).trans rfl, (State.answerFrom_besides ..).trans rfl⟩

/-- Settles O25, command by command. -/
theorem planeResets : Obligations.PlaneResets := fun _ _ =>
  ⟨execPlaneResetBoundary_due, fun _ h => ⟨execPlaneRetrain_early h, execPlaneRetrain_due h⟩, execPlaneResetComplete_due,
    fun _ => execPlaneRestoreBoundary_installs, execPlaneRestoreBoundary_done⟩

end Sys2Proof.Machine
end

section
/-! SUPPORT. A change of the synchronization state, and what the offset of a SYNC makes of it (R33, R52, R380). -/

namespace Sys2Proof.Machine

variable {s : State} {o16 : Int} {new : SyncState} {j : LinkId}

/-! ### The synchronization state (R52) -/

@[simp] theorem State.setSync_aon (s : State) (new : SyncState) : (s.setSync new).aon = { s.aon with sync := new } :=
  State.effects_aon ..

@[simp] theorem State.setSync_quiet (s : State) (new : SyncState) :
    (s.setSync new).quiet = { s.quiet with aon := { s.aon with sync := new } } := State.effects_quiet ..

@[simp] theorem State.setSync_link (s : State) (new : SyncState) (j : LinkId) : (s.setSync new).link j = s.link j :=
  State.effects_link { s with aon := { s.aon with sync := new } } _ j

theorem State.setSync_latched (s : State) (new : SyncState) : (s.setSync new).latched 1 = true := State.raise_latched ..

theorem State.holdover_quiet (s : State) : { s.holdover.quiet with aon := s.aon } = s.quiet := by
  rw [State.holdover, State.setSync_quiet]
  rfl

/-- The state changes, with its notice, only when it is another one. -/
def State.stepSync (s : State) (new : SyncState) : State := if new = s.aon.sync then s else s.setSync new

theorem State.stepSync_aon (s : State) (new : SyncState) : (s.stepSync new).aon = { s.aon with sync := new } := by
  unfold State.stepSync
  split
  · next h => rw [h]
  · exact s.setSync_aon new

theorem State.stepSync_latched (h : new ≠ s.aon.sync) : (s.stepSync new).latched 1 = true := by
  rw [State.stepSync, if_neg h]
  exact s.setSync_latched new

@[simp] theorem State.stepSync_link (s : State) (new : SyncState) (j : LinkId) : (s.stepSync new).link j = s.link j := by
  unfold State.stepSync
  split
  · rfl
  · exact s.setSync_link new j

/-- A state's inside besides its synchronization. -/
theorem State.stepSync_inside (s : State) (new : SyncState) (a : Aon) :
    { (s.stepSync new).inside with aon := a } = { s.inside with aon := a } := by
  unfold State.stepSync
  split
  · rfl
  · exact congrArg (fun v : State => { v.inside with aon := a }) (s.setSync_quiet new)

/-! ### An offset (R32, R33, R52) -/

/-- The measured offset as the status shows it: in ticks, and its size in `max_offset`. -/
def State.measured (s : State) (o16 : Int) : Aon :=
  { s.aon with lastOffset := o16 / 16, lastSync := s.now, maxOffset := BitVec.ofNat 8 (max s.aon.maxOffset.toNat (min 255 (o16.natAbs / 16))) }

/-- With a trim for the offset, and the counts of offsets beyond and within the bound. -/
def State.trimmed (s : State) (o16 : Int) (b w : Nat) : Aon :=
  { s.measured o16 with rateTrim := trimFor o16, beyond := b, within := w }

/-- The state after an offset, by R52's table: near is within 4 ticks. -/
def Aon.syncAfter (a : Aon) (o16 : Int) : SyncState :=
  match a.sync with
  | .freeRun => .locked
  | .locked => if o16.natAbs ≤ 64 ∨ a.beyond = 0 then .locked else .unlocked
  | .holdover => if o16.natAbs ≤ 64 then .locked else .unlocked
  | .unlocked => if o16.natAbs ≤ 64 ∧ 1 ≤ a.within then .locked else .unlocked

theorem applyOffset_freeRun (h : s.aon.sync = .freeRun) :
    applyOffset o16 s = ({ s with aon := s.measured o16 } : State).loadPlumb (o16 / 16) := by
  unfold applyOffset
  split
  · rfl
  all_goals
    next hs =>
      rw [h] at hs
      cases hs

/-- After the load the offset sets the trim and moves the state, and changes the counts that R52 keeps. -/
theorem applyOffset_loaded (h : s.aon.sync ≠ .freeRun) :
    ∃ b w, applyOffset o16 s = State.stepSync { s with aon := s.trimmed o16 b w } (s.aon.syncAfter o16) := by
  have same (b w : Nat) {x : SyncState} (hx : s.aon.syncAfter o16 = x) (hs : s.aon.sync = x) :
      State.stepSync { s with aon := s.trimmed o16 b w } (s.aon.syncAfter o16) = { s with aon := s.trimmed o16 b w } :=
    if_pos (hx.trans hs.symm)
  have other (b w : Nat) {x y : SyncState} (hx : s.aon.syncAfter o16 = x) (hs : s.aon.sync = y) (hxy : x ≠ y) :
      State.stepSync { s with aon := s.trimmed o16 b w } (s.aon.syncAfter o16) = State.setSync { s with aon := s.trimmed o16 b w } x :=
    (if_neg fun he => hxy (hx.symm.trans (he.trans hs))).trans (congrArg _ hx)
  unfold applyOffset
  split
  · next hs => exact absurd hs h
  · next hs =>
    refine ⟨if o16.natAbs ≤ 64 then 0 else s.aon.beyond + 1, 0, ?_⟩
    by_cases hn : o16.natAbs ≤ 64
    · refine Eq.trans ?_ (same _ _ (x := .locked) (by simp [Aon.syncAfter, hs, hn]) hs).symm
      simp only [decide_eq_true hn, if_pos hn, if_true]
      rfl
    · by_cases hb : s.aon.beyond = 0
      · refine Eq.trans ?_ (same _ _ (x := .locked) (by simp [Aon.syncAfter, hs, hb]) hs).symm
        simp only [decide_eq_false hn, if_neg hn, hb]
        rfl
      · refine Eq.trans ?_ (other _ _ (x := .unlocked) (by simp [Aon.syncAfter, hs, hn, hb]) hs (by decide)).symm
        simp only [decide_eq_false hn, if_neg hn, Bool.false_eq_true, if_false]
        exact if_pos (by omega)
  · next hs =>
    refine ⟨0, 0, ?_⟩
    by_cases hn : o16.natAbs ≤ 64
    · exact Eq.trans (if_pos (decide_eq_true hn)) (other _ _ (x := .locked) (by simp [Aon.syncAfter, hs, hn]) hs (by decide)).symm
    · exact Eq.trans (if_neg (by simp [hn])) (other _ _ (x := .unlocked) (by simp [Aon.syncAfter, hs, hn]) hs (by decide)).symm
  · next hs =>
    refine ⟨0, if o16.natAbs ≤ 64 then s.aon.within + 1 else 0, ?_⟩
    by_cases hn : o16.natAbs ≤ 64
    · by_cases hb : 1 ≤ s.aon.within
      · refine Eq.trans ?_ (other _ _ (x := .locked) (by simp [Aon.syncAfter, hs, hn, hb]) hs (by decide)).symm
        simp only [decide_eq_true hn, if_pos hn, if_true]
        exact if_pos (by omega)
      · refine Eq.trans ?_ (same _ _ (x := .unlocked) (by simp [Aon.syncAfter, hs, hb]) hs).symm
        simp only [decide_eq_true hn, if_pos hn, if_true]
        exact if_neg (by omega)
    · refine Eq.trans ?_ (same _ _ (x := .unlocked) (by simp [Aon.syncAfter, hs, hn]) hs).symm
      simp only [decide_eq_false hn, if_neg hn]
      rfl

/-! ### The single load (R33) -/

/-- The gate with plumb loaded and every wait of the link plane moved along, before the state changes. -/
def State.loadedPlumb (s : State) (ticks : Int) : State :=
  { s with
    aon := { s.aon with plumb := BitVec.ofInt 64 ((s.now : Int) + ticks), stepped := true, loaded := true, beyond := 0, within := 0,
                        lastSync := (BitVec.ofInt 64 ((s.now : Int) + ticks)).toNat }
    plane := { s.plane with
      links := s.plane.links.map (fun e => (e.1, shiftLink ticks e.2))
      windows := s.plane.windows.map (fun e => (e.1, shiftWindow ticks e.2))
      records := s.plane.records.map (fun e => (e.1, shiftRecord ticks e.2)) } }

theorem State.loadPlumb_eq (s : State) (ticks : Int) : s.loadPlumb ticks = (s.loadedPlumb ticks).setSync .locked := rfl

theorem State.loadPlumb_face (s : State) (ticks : Int) (j : LinkId) : (s.loadPlumb ticks).face j = s.face j := by
  rw [State.loadPlumb_eq, State.face_of_link (State.setSync_link ..)]
  exact State.face_map s (shiftLink ticks) (fun _ => rfl) (s.loadedPlumb ticks).plane rfl j

theorem State.loadPlumb_syncSeq (s : State) (ticks : Int) (j : LinkId) :
    ((s.loadPlumb ticks).link j).syncSeq = (s.link j).syncSeq := by
  have hlink : (s.loadedPlumb ticks).link j = ((aget j s.plane.links).map (shiftLink ticks)).getD {} :=
    s.link_map (shiftLink ticks) (s.loadedPlumb ticks).plane rfl j
  rw [State.loadPlumb_eq, State.setSync_link, hlink, State.link]
  cases aget j s.plane.links <;> rfl

end Sys2Proof.Machine
end

section
/-! Routes, SYNC and delay messages (R52, R360, R379, R380). -/

namespace Sys2Proof.Machine

variable {s u : State} {k : LinkId} {a : Arrival} {o16 : Int}

/-! ### A link-local message -/

/-- Taking a link-local message changes the inbox alone. -/
theorem State.takeLocal_eq {port : Byte} (h : s.takeLocal port = some (a, k, u)) :
    ∃ r, u = { s with plane := { s.plane with inbox := r } } := by
  unfold State.takeLocal at h
  split at h
  · next b v hin =>
    split at h
    · next j _ =>
      obtain ⟨-, hr⟩ := Prod.mk.inj (Option.some.inj h)
      obtain ⟨-, rfl⟩ := Prod.mk.inj hr
      exact State.takeInbox_eq hin
    · cases h
  · cases h

/-- A message sent on a link whose record was replaced first: the record stands, but for its output. -/
theorem sendLocal_setLink_link (s : State) (k : LinkId) (l : Link) (port : Byte) (b : List Byte) :
    (∃ o, ((s.setLink k l).sendLocal k port b).link k = { l with out := o }) ∧
      ∀ j, j ≠ k → ((s.setLink k l).sendLocal k port b).link j = s.link j := by
  obtain ⟨⟨o, ho⟩, hne⟩ := State.offerLink_link (s.setLink k l) k
    (mkPacket (s.setLink k l).aon.node 7#3 ((s.setLink k l).link k).peer port false false 0#48 b) (s.setLink k l).now
  refine ⟨⟨o, ho.trans ?_⟩, fun j hj => (hne j hj).trans ?_⟩
  · rw [State.setLink_link, if_pos rfl]
  · rw [State.setLink_link, if_neg (Ne.symm hj)]

/-- A packet that fits its link's output is one more there. -/
theorem State.sendLocal_queued {port : Byte} {b : List Byte}
    (h : (s.link k).out.fits (mkPacket s.aon.node 7#3 (s.link k).peer port false false 0#48 b) = true) :
    ((s.sendLocal k port b).link k).out.queue.length = (s.link k).out.queue.length + 1 := by
  have hlen : ∀ p n, ((s.pushOutput (s.link k).out p n).1).queue.length = (s.link k).out.queue.length + 1 := by
    intro p n
    simp [State.pushOutput]
  rw [State.sendLocal, State.offerLink, if_pos h, State.enqueueLink]
  split
  · rw [State.count1_link, State.setLink_link, if_pos rfl, hlen]
  · rw [State.setLink_link, if_pos rfl, hlen]

/-! ### What an offset does (R33, R52) -/

theorem applyOffset_aon (h : s.aon.sync ≠ .freeRun) :
    ∃ b w, (applyOffset o16 s).aon = { s.trimmed o16 b w with sync := s.aon.syncAfter o16 } := by
  obtain ⟨b, w, he⟩ := applyOffset_loaded (o16 := o16) h
  exact ⟨b, w, he ▸ State.stepSync_aon _ _⟩

theorem applyOffset_link (h : s.aon.sync ≠ .freeRun) (j : LinkId) : (applyOffset o16 s).link j = s.link j := by
  obtain ⟨b, w, he⟩ := applyOffset_loaded (o16 := o16) h
  rw [he, State.stepSync_link]
  rfl

theorem applyOffset_loadedAon (h : s.aon.sync = .freeRun) :
    (applyOffset o16 s).aon =
      { s.measured o16 with
        plumb := BitVec.ofInt 64 ((s.now : Int) + o16 / 16), stepped := true, loaded := true, beyond := 0, within := 0,
        lastSync := (BitVec.ofInt 64 ((s.now : Int) + o16 / 16)).toNat, sync := .locked } := by
  rw [applyOffset_freeRun h, State.loadPlumb_eq, State.setSync_aon]
  rfl

theorem applyOffset_sync (s : State) (o16 : Int) : (applyOffset o16 s).aon.sync = s.aon.syncAfter o16 := by
  by_cases h : s.aon.sync = .freeRun
  · rw [applyOffset_loadedAon h, Aon.syncAfter, h]
  · obtain ⟨b, w, he⟩ := applyOffset_aon (o16 := o16) h
    rw [he]

theorem applyOffset_depth (s : State) (o16 : Int) : (applyOffset o16 s).aon.depth = s.aon.depth := by
  by_cases h : s.aon.sync = .freeRun
  · rw [applyOffset_loadedAon h]; rfl
  · obtain ⟨b, w, he⟩ := applyOffset_aon (o16 := o16) h
    rw [he]; rfl

theorem applyOffset_lastOffset (s : State) (o16 : Int) : (applyOffset o16 s).aon.lastOffset = o16 / 16 := by
  by_cases h : s.aon.sync = .freeRun
  · rw [applyOffset_loadedAon h]; rfl
  · obtain ⟨b, w, he⟩ := applyOffset_aon (o16 := o16) h
    rw [he]; rfl

/-- A change of the state raises NTC_PLUMB. -/
theorem applyOffset_latched (h : (applyOffset o16 s).aon.sync ≠ s.aon.sync) : (applyOffset o16 s).latched 1 = true := by
  by_cases hf : s.aon.sync = .freeRun
  · rw [applyOffset_freeRun hf, State.loadPlumb_eq]
    exact State.setSync_latched ..
  · obtain ⟨b, w, he⟩ := applyOffset_loaded (o16 := o16) hf
    rw [applyOffset_sync] at h
    rw [he]
    exact State.stepSync_latched h

theorem applyOffset_face (s : State) (o16 : Int) (j : LinkId) : (applyOffset o16 s).face j = s.face j := by
  by_cases h : s.aon.sync = .freeRun
  · rw [applyOffset_freeRun h, State.loadPlumb_face]
    rfl
  · exact State.face_of_link (applyOffset_link h j)

theorem applyOffset_syncSeq (s : State) (o16 : Int) (j : LinkId) : ((applyOffset o16 s).link j).syncSeq = (s.link j).syncSeq := by
  by_cases h : s.aon.sync = .freeRun
  · rw [applyOffset_freeRun h, State.loadPlumb_syncSeq]
    rfl
  · rw [applyOffset_link h]

/-- Beside the synchronization an offset changes the link plane alone. -/
theorem applyOffset_inside (s : State) (o16 : Int) (x : Aon) :
    { (applyOffset o16 s).inside with aon := x } = { s.inside with aon := x } := by
  by_cases h : s.aon.sync = .freeRun
  · rw [applyOffset_freeRun h, State.loadPlumb_eq]
    exact congrArg (fun v : State => { v.inside with aon := x }) (State.setSync_quiet ..)
  · obtain ⟨b, w, he⟩ := applyOffset_loaded (o16 := o16) h
    rw [he, State.stepSync_inside]
    rfl

/-! ### A SYNC of the followed link (R380) -/

/-- The offset a SYNC gives, in sixteenths of a tick: its sending time and the link's delay, less its arrival time. -/
def Arrival.offset16 (a : Arrival) (l : Link) : Int :=
  (field a.pkt.payload 8 8 : Int) * 16 + field a.pkt.payload 16 1 + l.delay16.getD 0 - ((a.stamp : Int) * 16 + a.at16)

/-- A gate with the SYNC of the link it follows noted. -/
def State.noteSync (s : State) (a : Arrival) (k : LinkId) : State :=
  { s.setLink k { s.link k with syncSeq := some (field a.pkt.payload 4 4), syncDepth := some (field a.pkt.payload 2 1) } with
    aon := { s.aon with depth := field a.pkt.payload 2 1 + 1, masterNode := nodeField a.pkt.payload 0 } }

theorem State.noteSync_link (s : State) (a : Arrival) (k j : LinkId) : (s.noteSync a k).link j =
    if k = j then { s.link k with syncSeq := some (field a.pkt.payload 4 4), syncDepth := some (field a.pkt.payload 2 1) }
    else s.link j := s.setLink_link k j _

theorem State.noteSync_face (s : State) (a : Arrival) (k j : LinkId) : (s.noteSync a k).face j = s.face j :=
  s.setLink_face (k := k) (l := { s.link k with
    syncSeq := some (field a.pkt.payload 4 4), syncDepth := some (field a.pkt.payload 2 1) }) rfl j

/-- No link's number is the one of no link. -/
theorem linkByte_ne_none (k : LinkId) : BitVec.ofNat 8 k.val ≠ 0xFF#8 := by
  intro h
  have := congrArg BitVec.toNat h
  simp only [BitVec.toNat_ofNat] at this
  omega

theorem receiveSync_followed (hm : s.aon.master = false) (hf : s.aon.syncLink = BitVec.ofNat 8 k.val)
    (hv : fieldBit a.pkt.payload 3 1 0 = true)
    (hn : ∀ q, (s.link k).syncSeq = some q → laterSeq 32 (field a.pkt.payload 4 4) q = true)
    (hd : field a.pkt.payload 2 1 ≤ 7) : receiveSync a k s = applyOffset (a.offset16 (s.link k)) (s.noteSync a k) := by
  unfold receiveSync
  dsimp only
  rw [if_neg, if_neg (by omega), if_neg (hf ▸ linkByte_ne_none k), if_pos hf]
  · rfl
  · rw [hm, hv]
    cases hq : (s.link k).syncSeq with
    | none => simp
    | some q => simp [hn q hq]

/-! ### The commands -/

theorem receiveRoute_spec (hup : (s.link k).state = .up) :
    ((receiveRoute a k s).link k).learned =
        (a.pkt.payload.zipIdx).filterMap (fun (b, n) => if b.toNat < 0xFF then some (n, b.toNat) else none) ∧
      (∀ j, (receiveRoute a k s).face j = s.face j ∧ (j ≠ k → ((receiveRoute a k s).link j).learned = (s.link j).learned)) ∧
      (receiveRoute a k s).inside = s.inside := by
  unfold receiveRoute
  dsimp only
  split
  · next h => exact ⟨h.resolve_left (not_not_intro hup), fun j => ⟨rfl, fun _ => rfl⟩, rfl⟩
  · refine ⟨?_, fun j => ⟨?_, fun hj => ?_⟩, ?_⟩
    · rw [State.routesChanged_learned, State.setLink_link, if_pos rfl]
    · rw [State.routesChanged_face, State.setLink_face]
      rfl
    · rw [State.routesChanged_learned, State.setLink_link, if_neg (Ne.symm hj)]
    · rw [State.routesChanged_inside, State.setLink_inside]

theorem routeClause (h : s.takeLocal 0xC8#8 = some (a, k, u)) (hup : (s.link k).state = .up) :
    ∃ t, exec .route s = .next t ∧
      (t.link k).learned =
        (a.pkt.payload.zipIdx).filterMap (fun (b, n) => if b.toNat < 0xFF then some (n, b.toNat) else none) ∧
      (∀ j, (t.link j).state = (s.link j).state ∧ (j ≠ k → (t.link j).learned = (s.link j).learned)) ∧ t.inside = s.inside := by
  have hrun : exec .route s = .next (receiveRoute a k u) := congrArg Host.Outcome.next (by rw [h])
  obtain ⟨r, rfl⟩ := State.takeLocal_eq h
  obtain ⟨hlearned, hother, hin⟩ := receiveRoute_spec (a := a) (s := { s with plane := { s.plane with inbox := r } }) hup
  exact ⟨_, hrun, hlearned, fun j => ⟨congrArg Prod.fst (hother j).1, (hother j).2⟩, hin⟩

theorem routeSendClause (hup : (s.link k).state = .up) (hv : s.aon.nodeValid = true)
    (hdue : (s.link k).routeAt ≤ s.now ∨ (s.link k).routeDirty = true) :
    ∃ t, exec (.routeSendTimer k) s = .next t ∧ (t.link k).routeAt = s.now + 1048576 ∧ (t.link k).routeDirty = false ∧
      (∀ j, j ≠ k → t.link j = s.link j) ∧ t.inside = s.inside := by
  obtain ⟨⟨o, ho⟩, hne⟩ :=
    sendLocal_setLink_link s k { s.link k with routeAt := s.now + 1048576, routeDirty := false } 0xC8#8 s.hopBytes
  exact ⟨_, congrArg Host.Outcome.next (if_pos ⟨hup, hv, hdue⟩), by rw [ho], by rw [ho], hne, State.sendLocal_inside ..⟩

/-- A master leaves every SYNC aside. -/
theorem masterSyncClause (h : s.takeLocal 0xC0#8 = some (a, k, u)) (hm : s.aon.master = true) :
    exec .sync s = .next u ∧ u.aon = s.aon := by
  have hrun : exec .sync s = .next (receiveSync a k u) := congrArg Host.Outcome.next (by rw [h])
  obtain ⟨r, rfl⟩ := State.takeLocal_eq h
  exact ⟨hrun.trans (congrArg Host.Outcome.next (if_pos (by simp [hm]))), rfl⟩

theorem syncSendClause (hup : (s.link k).state = .up) (hv : s.aon.nodeValid = true)
    (hl : s.aon.sync = .locked ∨ s.aon.master = true) (hdue : (s.link k).syncAt ≤ s.now) :
    ∃ t, exec (.syncSendTimer k) s = .next t ∧ (t.link k).syncAt = s.now + 8192 ∧
      t.aon = { s.aon with syncSeq := (s.aon.syncSeq + 1) % 2 ^ 32 } ∧ (∀ j, j ≠ k → t.link j = s.link j) ∧
      { t.inside with aon := s.aon } = s.inside := by
  obtain ⟨⟨o, ho⟩, hne⟩ := sendLocal_setLink_link { s with aon := { s.aon with syncSeq := (s.aon.syncSeq + 1) % 2 ^ 32 } } k
    { s.link k with syncAt := s.now + 8192 } 0xC0#8
    (padTo 64 (leBytes 2 (if s.aon.master then s.aon.node else s.aon.masterNode).toNat
      ++ leBytes 1 (if s.aon.master then 0 else s.aon.depth) ++ leBytes 1 1 ++ leBytes 4 s.aon.syncSeq))
  exact ⟨_, congrArg Host.Outcome.next (if_pos ⟨hup, hv, hl, hdue⟩), by rw [ho], State.sendLocal_aon .., hne,
    congrArg (fun v : State => { v with aon := s.aon }) (State.sendLocal_inside ..)⟩

theorem delayMeasureClause (hup : (s.link k).state = .up) (hdue : (s.link k).delayAt ≤ s.now) :
    ∃ t, exec (.delayMeasureTimer k) s = .next t ∧ (t.link k).delayAt = s.now + 1048576 ∧
      (t.link k).delaySeq = ((s.link k).delaySeq + 1) % 2 ^ 32 ∧ (t.link k).delayT1 = none ∧
      (∀ j, j ≠ k → t.link j = s.link j) ∧ t.inside = s.inside := by
  obtain ⟨⟨o, ho⟩, hne⟩ := sendLocal_setLink_link s k
    { s.link k with delayAt := s.now + 1048576, delaySeq := ((s.link k).delaySeq + 1) % 2 ^ 32, delayT1 := none } 0xC1#8
    (padTo 64 (leBytes 4 (((s.link k).delaySeq + 1) % 2 ^ 32)))
  exact ⟨_, congrArg Host.Outcome.next (if_pos ⟨hup, hdue⟩), by rw [ho], by rw [ho], by rw [ho], hne, State.sendLocal_inside ..⟩

/-- The body of the answer to a DELAY_REQ (R379). -/
def Arrival.delayBody (a : Arrival) : List Byte :=
  padTo 64 (leBytes 4 (field a.pkt.payload 0 4) ++ List.replicate 4 0#8 ++ leBytes 8 (field a.pkt.payload 8 8)
    ++ leBytes 1 (field a.pkt.payload 16 1) ++ List.replicate 7 0#8 ++ leBytes 8 a.stamp ++ leBytes 1 a.at16)

theorem delayAnswerClause (h : s.takeLocal 0xC1#8 = some (a, k, u)) :
    ∃ t, exec .delayReq s = .next t ∧ t.inside = s.inside ∧
      (∀ j, (t.link j).state = (s.link j).state ∧ (j ≠ k → t.link j = s.link j)) ∧
      ((s.link k).out.fits (mkPacket s.aon.node 7#3 (s.link k).peer 0xC2#8 false false 0#48 a.delayBody) = true →
        (s.link k).state = .up → (t.link k).out.queue.length = (s.link k).out.queue.length + 1) := by
  have hrun : exec .delayReq s = .next (u.sendLocal k 0xC2#8 a.delayBody) :=
    congrArg Host.Outcome.next (by unfold answerDelay; rw [h]; rfl)
  obtain ⟨r, rfl⟩ := State.takeLocal_eq h
  exact ⟨_, hrun, State.sendLocal_inside .., fun j => ⟨congrArg Prod.fst (State.sendLocal_face _ k _ _ j),
    (State.offerLink_link _ k _ _).2 j⟩, fun hfit _ => State.sendLocal_queued (s := { s with plane := { s.plane with inbox := r } }) hfit⟩

/-- Half of a DELAY exchange's round trip, less the registered skew (R380). -/
def Arrival.delay16 (a : Arrival) (skew : Int) : Int :=
  ((16 * (a.stamp : Int) + a.at16 - (16 * (field a.pkt.payload 8 8 : Int) + field a.pkt.payload 16 1))
    - (16 * (field a.pkt.payload 40 8 : Int) + field a.pkt.payload 48 1
      - (16 * (field a.pkt.payload 24 8 : Int) + field a.pkt.payload 32 1)) - skew) / 2

theorem delayReceiveClause (h : s.takeLocal 0xC2#8 = some (a, k, u)) (hq : field a.pkt.payload 0 4 = (s.link k).delaySeq)
    (ht : (s.link k).delayT1.isSome = true) :
    ∃ t, exec .delayResp s = .next t ∧
      t.link k = { s.link k with delay16 := some (a.delay16 (s.link k).skew16), delayT1 := none } ∧
      (∀ j, j ≠ k → t.link j = s.link j) ∧ t.inside = s.inside := by
  obtain ⟨r, rfl⟩ := State.takeLocal_eq h
  refine ⟨State.setLink { s with plane := { s.plane with inbox := r } } k
      { s.link k with delay16 := some (a.delay16 (s.link k).skew16), delayT1 := none }, congrArg Host.Outcome.next ?_,
    by rw [State.setLink_link, if_pos rfl], fun j hj => ?_, rfl⟩
  · unfold receiveDelay
    rw [h]
    exact if_pos ⟨hq, ht⟩
  · rw [State.setLink_link, if_neg (Ne.symm hj)]
    rfl

theorem holdoverClause (hs : s.aon.sync = .locked) (hm : s.aon.master = false) (hdue : s.aon.lastSync + 65536 ≤ s.now) :
    ∃ t, exec .holdoverTimeout s = .next t ∧
      t.aon = { s.aon with sync := .holdover, holdoverAt := s.now, beyond := 0, within := 0 } ∧ t.latched 1 = true ∧
      { t.quiet with aon := s.aon } = s.quiet :=
  ⟨s.holdover, congrArg Host.Outcome.next (if_pos ⟨hs, by simp [hm], hdue⟩), State.setSync_aon .., State.setSync_latched ..,
    s.holdover_quiet⟩

theorem holdoverEndClause (hs : s.aon.sync = .holdover) (hdue : s.aon.holdoverAt + 1600000 ≤ s.now) :
    ∃ t, exec .holdoverExpiry s = .next t ∧ t.aon = { s.aon with sync := .unlocked, beyond := 0, within := 0 } ∧
      t.latched 1 = true ∧ { t.quiet with aon := s.aon } = s.quiet :=
  ⟨State.setSync { s with aon := { s.aon with within := 0, beyond := 0 } } .unlocked,
    congrArg Host.Outcome.next (if_pos ⟨hs, hdue⟩), State.setSync_aon .., State.setSync_latched ..,
    congrArg (fun v : State => { v with aon := s.aon }) (State.setSync_quiet ..)⟩

/-- A SYNC of the followed link is noted, and its offset applied to what that makes. -/
theorem followedSync (h : s.takeLocal 0xC0#8 = some (a, k, u)) (hm : s.aon.master = false)
    (hf : s.aon.syncLink = BitVec.ofNat 8 k.val) (hv : fieldBit a.pkt.payload 3 1 0 = true)
    (hn : ∀ q, (s.link k).syncSeq = some q → laterSeq 32 (field a.pkt.payload 4 4) q = true)
    (hd : field a.pkt.payload 2 1 ≤ 7) :
    ∃ v, exec .sync s = .next (applyOffset (a.offset16 (s.link k)) v) ∧
      v.aon = { s.aon with depth := field a.pkt.payload 2 1 + 1, masterNode := nodeField a.pkt.payload 0 } ∧
      (v.link k).syncSeq = some (field a.pkt.payload 4 4) ∧ (∀ j, j ≠ k → v.link j = s.link j) ∧
      (∀ j, v.face j = s.face j) ∧ { v.inside with aon := s.aon } = s.inside := by
  have hrun : exec .sync s = .next (receiveSync a k u) := congrArg Host.Outcome.next (by rw [h])
  obtain ⟨r, rfl⟩ := State.takeLocal_eq h
  refine ⟨State.noteSync { s with plane := { s.plane with inbox := r } } a k, ?_, rfl, ?_, fun j hj => ?_,
    State.noteSync_face _ a k, rfl⟩
  · exact hrun.trans (congrArg Host.Outcome.next
      (receiveSync_followed (s := { s with plane := { s.plane with inbox := r } }) hm hf hv hn hd))
  · rw [State.noteSync_link, if_pos rfl]
  · rw [State.noteSync_link, if_neg (Ne.symm hj)]
    rfl

end Sys2Proof.Machine
end

section
open Sys2Proof.Machine

/-- Settles O33: taking the message changes the inbox alone; a SYNC of the followed link is noted and its offset applied. -/
theorem routeAndSync : Obligations.RouteAndSync := by
  unfold Obligations.RouteAndSync
  intro s k
  refine ⟨?_, ?_, ?_, ?_, ?_, ?_, ?_, ?_, ?_, ?_, ?_, ?_, ?_, ?_⟩
  · exact fun a u h hup => routeClause h hup
  · refine fun hup hv => ⟨routeSendClause hup hv, fun hlt hc => congrArg Host.Outcome.next (if_neg ?_)⟩
    rintro ⟨-, -, hle | hdirty⟩
    · omega
    · simp [hc] at hdirty
  · intro a u h hm hf hv hn hd
    obtain ⟨v, hrun, hv, hseq, hother, hface, hin⟩ := followedSync h hm hf hv hn hd
    have hsync : v.aon.sync = s.aon.sync := by rw [hv]
    have hnow : v.now = s.now := by rw [State.now, hv]; rfl
    refine ⟨_, hrun, ?_, applyOffset_lastOffset .., ?_, fun hne => applyOffset_latched (hsync ▸ hne), ?_, fun hs => ?_,
      fun hs => ?_, fun j => ?_, (applyOffset_inside ..).trans hin⟩
    · rw [applyOffset_depth, hv]
    · rw [applyOffset_sync, hv]; rfl
    · rw [applyOffset_syncSeq, hseq]
    · rw [applyOffset_loadedAon (hsync.trans hs), hnow, State.measured, hv]
      exact ⟨rfl, rfl, rfl⟩
    · rw [← hsync] at hs
      obtain ⟨b, w, he⟩ := applyOffset_aon (o16 := a.offset16 (s.link k)) hs
      refine ⟨?_, ?_, ?_, fun j hj => (applyOffset_link hs j).trans (hother j hj)⟩
      · exact (congrArg Aon.plumb he).trans ((congrArg Aon.plumb hv).trans rfl)
      · exact (congrArg Aon.lastSync he).trans hnow
      · exact congrArg Aon.rateTrim he
    · have hj := (applyOffset_face v (a.offset16 (s.link k)) j).trans (hface j)
      exact ⟨congrArg Prod.fst hj, congrArg Prod.snd hj⟩
  · exact fun a u h hm => masterSyncClause h hm
  · exact syncSendClause
  · refine fun h => congrArg Host.Outcome.next (if_neg ?_)
    rintro ⟨hup, hv, hl, hle⟩
    rcases h with h | h | ⟨hs, hm⟩ | h
    · exact h hup
    · simp [h] at hv
    · exact hl.elim hs (by simp [hm])
    · omega
  · exact fun h => congrArg Host.Outcome.next (if_neg (by rintro ⟨hup, hle⟩; exact h.elim (absurd hup) (by omega)))
  · exact delayMeasureClause
  · exact fun a u h => delayAnswerClause h
  · exact fun a u h hq ht => delayReceiveClause h hq ht
  · exact holdoverClause
  · exact holdoverEndClause
  · refine fun h => congrArg Host.Outcome.next (if_neg ?_)
    rintro ⟨hl, hm, hle⟩
    rcases h with h | h | h
    · exact h hl
    · simp [h] at hm
    · omega
  · exact fun h => congrArg Host.Outcome.next (if_neg (by rintro ⟨hl, hle⟩; exact h.elim (absurd hl) (by omega)))

end

section
/-! Contributions from other gates and host feature records (R83, R84, R191, R285). -/

namespace Sys2Proof.Machine

variable {s t u : State} {k : SlotId} {st x : Stream} {a : Arrival}

/-! ### One stream changed -/

/-- Counting and raising notices after a change of one stream. -/
theorem State.onlyStream_effects (es : List Effect) (h : s.OnlyStream u k x) : s.OnlyStream (u.effects es) k x := by
  obtain ⟨htable, hoff, heng⟩ := h
  unfold State.OnlyStream State.EnginesKeep
  rw [State.effects_streams, State.effects_eng, State.offStreams_of_inside (State.effects_inside ..)]
  exact ⟨htable, hoff, heng⟩

theorem State.streamWord_eq (h : aget k s.streams.table = some st) (i : Nat) :
    s.streamWord k i 1 = s.setStream k { st with owed := st.owed ++ [(i, 1)] } := by
  rw [State.streamWord, h]
  rfl

@[simp] theorem State.streamWord_offStreams (s : State) (k : SlotId) (i n : Nat) : (s.streamWord k i n).offStreams = s.offStreams := by
  unfold State.streamWord
  split <;> rfl

@[simp] theorem State.streamWord_ingressWaits (s : State) (k : SlotId) (i n : Nat) :
    (s.streamWord k i n).streams.ingressWaits = s.streams.ingressWaits := by
  unfold State.streamWord
  split <;> rfl

@[simp] theorem State.streamWord_eng (s : State) (k : SlotId) (i n : Nat) : (s.streamWord k i n).eng = s.eng := by
  unfold State.streamWord
  split <;> rfl

@[simp] theorem State.streamWord_counter (s : State) (k : SlotId) (i n : Nat) (c : CtrKey) :
    (s.streamWord k i n).counter c = s.counter c := by
  unfold State.streamWord
  split <;> rfl

/-- What a late result counts (R41, R57). -/
theorem State.lateDiscard_count (s : State) (stage : Nat) :
    ((s.effects (lateDiscard stage)).counter ⟨0x10, stage, 1⟩).count = min (2 ^ 48 - 1) ((s.counter ⟨0x10, stage, 1⟩).count + 1) := by
  rw [lateDiscard, State.effects_count s [] ⟨0x10, stage, 1⟩ 1 (show 0x10 ≠ 5 by decide) rfl, Counter.add_count]
  rfl

/-- A late result counts in its stage and at its stream's next boundary. -/
theorem State.lateDiscard_owed (hst : aget k s.streams.table = some st) (stage : Nat) :
    s.OnlyStream ((s.effects (lateDiscard stage)).streamWord k 8 1) k { st with owed := st.owed ++ [(8, 1)] } ∧
      (((s.effects (lateDiscard stage)).streamWord k 8 1).counter ⟨0x10, stage, 1⟩).count
        = min (2 ^ 48 - 1) ((s.counter ⟨0x10, stage, 1⟩).count + 1) ∧
      ((s.effects (lateDiscard stage)).streamWord k 8 1).streams.buffer = s.streams.buffer := by
  have hat : aget k (s.effects (lateDiscard stage)).streams.table = some st := by rw [State.effects_streams, hst]
  rw [State.streamWord_counter, State.lateDiscard_count, State.streamWord_eq hat]
  refine ⟨⟨?_, ?_, .inl ?_⟩, rfl, ?_⟩
  · exact congrArg (fun v : Streams => aset k _ v.table) (State.effects_streams ..)
  · exact congrArg (fun v : State => { v with eng := s.eng }) (State.offStreams_of_inside (State.effects_inside s (lateDiscard stage)))
  · exact State.effects_eng ..
  · show (s.effects (lateDiscard stage)).streams.buffer = _
    rw [State.effects_streams]

/-- Taking a packet leaves the streams and all that does not wait for one. -/
theorem State.takeInbox_same {test : Arrival → Bool} (h : s.takeInbox test = some (a, u)) :
    u.streams = s.streams ∧ u.offStreams = s.offStreams ∧ u.eng = s.eng := by
  obtain ⟨r, rfl⟩ := State.takeInbox_eq h
  exact ⟨rfl, rfl, rfl⟩

theorem State.takeInbox_counter {test : Arrival → Bool} (h : s.takeInbox test = some (a, u)) (c : CtrKey) :
    u.counter c = s.counter c := by
  obtain ⟨r, rfl⟩ := State.takeInbox_eq h
  rfl

theorem State.bufferUse_of_streams (h : u.streams = s.streams) : u.bufferUse = s.bufferUse := by
  rw [State.bufferUse, h, State.bufferUse]

theorem State.dropItems_eng (s : State) (k : SlotId) : (s.dropItems k).eng = (State.dropItems { ({} : State) with eng := s.eng } k).eng :=
  rfl

/-- A stream changed alone, counted from a state of the same streams. -/
theorem State.onlyStream_of_same (hu : u.streams = s.streams ∧ u.offStreams = s.offStreams ∧ u.eng = s.eng)
    (h : u.OnlyStream t k x) : s.OnlyStream t k x := by
  obtain ⟨hstreams, hoff, heng⟩ := hu
  obtain ⟨htable, hrest, hkeep⟩ := h
  unfold State.OnlyStream State.EnginesKeep at *
  rw [State.dropItems_eng] at hkeep ⊢
  rw [← hstreams, ← hoff, ← heng]
  exact ⟨htable, hrest, hkeep⟩

/-! ### Host feature records (R191) -/

/-- A host feature record that waits for its boundary. -/
def Arrival.featureWait (a : Arrival) : Waiting :=
  { code := 0x0205, from? := none, accept := a.stamp, order := edgeOrder a.edge, due := boundaryOf a.stamp, body := a.pkt.payload }

theorem featurePacketClause (h : s.takeInbox (fun a => decide (a.pkt.hdr.port = 0xD1#8)) = some (a, u))
    (h1 : 1 ≤ a.pkt.hdr.cls.toNat) (h6 : a.pkt.hdr.cls.toNat ≤ 6) (hst : s.streamOf (field a.pkt.payload 0 8) = some (k, st))
    (hn1 : 1 ≤ field a.pkt.payload 8 2) (hn60 : field a.pkt.payload 8 2 ≤ 60)
    (hlen : 16 + 8 * field a.pkt.payload 8 2 ≤ a.pkt.payload.length) :
    ∃ t w, exec .hostFeaturePacket s = .next t ∧ w.code = 0x0205 ∧ w.from? = none ∧ w.accept = a.stamp ∧
      w.due = a.stamp + 1024 ∧ w.body = a.pkt.payload ∧ t.ctl.waiting = insertWaiting w s.ctl.waiting ∧
      { t with ctl := { t.ctl with waiting := s.ctl.waiting } } = u := by
  have hrun : takeFeaturePacket s = { u with ctl := { u.ctl with waiting := insertWaiting a.featureWait u.ctl.waiting } } := by
    have hu : u.streamOf (field a.pkt.payload 0 8) = some (k, st) := by
      obtain ⟨r, rfl⟩ := State.takeInbox_eq h
      exact hst
    unfold takeFeaturePacket
    simp only [h, hu]
    rw [if_neg (by omega), if_neg (by omega)]
    rfl
  refine ⟨_, a.featureWait, congrArg Host.Outcome.next hrun, rfl, rfl, rfl, rfl, rfl, ?_, ?_⟩
  · obtain ⟨r, rfl⟩ := State.takeInbox_eq h
    rfl
  · obtain ⟨r, rfl⟩ := State.takeInbox_eq h
    rfl

theorem featureRefusedClause (h : s.takeInbox (fun a => decide (a.pkt.hdr.port = 0xD1#8)) = some (a, u)) :
    (a.pkt.hdr.cls.toNat < 1 ∨ 6 < a.pkt.hdr.cls.toNat → exec .hostFeaturePacket s = .next u) ∧
    (1 ≤ a.pkt.hdr.cls.toNat → a.pkt.hdr.cls.toNat ≤ 6 → s.streamOf (field a.pkt.payload 0 8) = none →
      exec .hostFeaturePacket s = .next (u.count1 0x14 0 0)) ∧
    (∀ k st, 1 ≤ a.pkt.hdr.cls.toNat → a.pkt.hdr.cls.toNat ≤ 6 → s.streamOf (field a.pkt.payload 0 8) = some (k, st) →
      field a.pkt.payload 8 2 < 1 ∨ 60 < field a.pkt.payload 8 2 ∨ a.pkt.payload.length < 16 + 8 * field a.pkt.payload 8 2 →
      ∃ t, exec .hostFeaturePacket s = .next t ∧ t.quiet = u.quiet ∧ t.latched 7 = true) := by
  have hu : u.streamOf (field a.pkt.payload 0 8) = s.streamOf (field a.pkt.payload 0 8) := by
    obtain ⟨r, rfl⟩ := State.takeInbox_eq h
    rfl
  refine ⟨fun hc => congrArg Host.Outcome.next ?_, fun h1 h6 hst => congrArg Host.Outcome.next ?_, fun k st h1 h6 hst hn =>
    ⟨u.effects (armatureEvent 7 st.handle st.lastIndex), congrArg Host.Outcome.next ?_, State.effects_quiet ..,
      State.effects_raises _ _ 7 _ (List.mem_cons_of_mem _ List.mem_cons_self)⟩⟩
  all_goals
    unfold takeFeaturePacket
    simp only [h, hu]
  · exact if_pos hc
  · rw [if_neg (by omega), hst]
  · rw [if_neg (by omega), hst]
    exact if_pos hn

/-! ### Ingress contributions (R84) -/

theorem State.giveIngress_taken {n : Nat} (h : aget k s.streams.table = some st) (hi : st.ingress = none)
    (hc : ∀ c, s.ingressCutoff st = some c → n < c) (r : IngressRecord) :
    s.giveIngress k n r = s.setStream k { st with ingress := some r, ingressArrival := some n } := by
  unfold State.giveIngress
  simp only [h]
  refine if_pos ?_
  rw [hi]
  cases hq : s.ingressCutoff st with
  | none => rfl
  | some c => simp [hc c hq]

theorem State.giveIngress_late {n : Nat} (h : aget k s.streams.table = some st)
    (hl : st.ingress ≠ none ∨ ∃ c, s.ingressCutoff st = some c ∧ c ≤ n) (r : IngressRecord) :
    s.giveIngress k n r = (s.effects (lateDiscard 0x15)).streamWord k 8 1 := by
  unfold State.giveIngress
  simp only [h]
  refine if_neg ?_
  rcases hl with hi | ⟨c, hq, hc⟩
  · simp [hi]
  · rw [hq]
    simp [hc]

theorem State.giveIngress_cases (s : State) (k : SlotId) (n : Nat) (r : IngressRecord) :
    s.giveIngress k n r = s ∨ (∃ x, s.giveIngress k n r = s.setStream k x) ∨
      s.giveIngress k n r = (s.effects (lateDiscard 0x15)).streamWord k 8 1 := by
  cases h : aget k s.streams.table with
  | none => exact .inl (by rw [State.giveIngress, h])
  | some st =>
    by_cases hl : st.ingress ≠ none ∨ ∃ c, s.ingressCutoff st = some c ∧ c ≤ n
    · exact .inr (.inr (State.giveIngress_late h hl r))
    · rw [not_or, not_not] at hl
      exact .inr (.inl ⟨_, State.giveIngress_taken h hl.1 (fun c hc => Nat.lt_of_not_le fun hle => hl.2 ⟨c, hc, hle⟩) r⟩)

@[simp] theorem State.giveIngress_offStreams (s : State) (k : SlotId) (n : Nat) (r : IngressRecord) :
    (s.giveIngress k n r).offStreams = s.offStreams := by
  rcases s.giveIngress_cases k n r with h | ⟨x, h⟩ | h
  · rw [h]
  · rw [h]; rfl
  · rw [h, State.streamWord_offStreams, State.offStreams_of_inside (State.effects_inside ..)]

@[simp] theorem State.giveIngress_ingressWaits (s : State) (k : SlotId) (n : Nat) (r : IngressRecord) :
    (s.giveIngress k n r).streams.ingressWaits = s.streams.ingressWaits := by
  rcases s.giveIngress_cases k n r with h | ⟨x, h⟩ | h
  · rw [h]
  · rw [h]; rfl
  · rw [h, State.streamWord_ingressWaits, State.effects_streams]

theorem foldl_giveIngress (ks : List SlotId) (n : Nat) (r : IngressRecord) (s : State) :
    (ks.foldl (fun t k => t.giveIngress k n r) s).offStreams = s.offStreams ∧
      (ks.foldl (fun t k => t.giveIngress k n r) s).streams.ingressWaits = s.streams.ingressWaits := by
  induction ks generalizing s with
  | nil => exact ⟨rfl, rfl⟩
  | cons k ks ih =>
    rw [List.foldl_cons, (ih _).1, (ih _).2]
    exact ⟨s.giveIngress_offStreams k n r, s.giveIngress_ingressWaits k n r⟩

/-- The slots whose streams claim an ingress handle. -/
def State.claimers (s : State) (h : Nat) : List SlotId := (s.streams.table.filter (fun e => e.2.claims h)).map (fun e => e.1)

theorem State.claimers_isEmpty (s : State) (h : Nat) : (!(s.claimers h).isEmpty) = s.streams.table.any (fun e => e.2.claims h) := by
  unfold State.claimers
  induction s.streams.table with
  | nil => rfl
  | cons e es ih =>
    cases he : e.2.claims h <;> simp_all

/-- A contribution kept for later opens. -/
def State.ingressWait (s : State) (n : Nat) (b : List Byte) : IngressWait :=
  { handle := BitVec.ofNat 48 (field b 0 8), arrival := n, claimed := !(s.claimers (field b 0 8)).isEmpty, body := parseIngress b }

def State.keepIngress (s : State) (w : IngressWait) : State :=
  { s with streams := { s.streams with ingressWaits := s.streams.ingressWaits ++ [w] } }

theorem State.takeIngress_fresh {n : Nat} {b : List Byte}
    (hw : s.streams.ingressWaits.any (fun w => decide (w.handle.toNat = field b 0 8)) = false) (hb : s.bufferUse < 65536) :
    s.takeIngress n b =
      (s.claimers (field b 0 8)).foldl (fun t k => t.giveIngress k n (parseIngress b)) (s.keepIngress (s.ingressWait n b)) := by
  unfold State.takeIngress
  dsimp only
  rw [if_neg (by simp [hw]; omega)]
  rfl

theorem State.takeIngress_again {n : Nat} {b : List Byte}
    (h : s.streams.ingressWaits.any (fun w => decide (w.handle.toNat = field b 0 8)) = true ∨ 65536 ≤ s.bufferUse) :
    s.takeIngress n b = (s.claimers (field b 0 8)).foldl (fun t k => t.streamWord k 8 1) s := by
  unfold State.takeIngress
  dsimp only
  rw [if_pos (by simpa using h)]
  rfl

theorem State.claimers_one {n : Nat} (h : s.streams.table.filter (fun e => e.2.claims n) = [(k, st)]) : s.claimers n = [k] := by
  rw [State.claimers, h]
  rfl

theorem State.claimers_none {n : Nat} (h : s.streams.table.any (fun e => e.2.claims n) = false) : s.claimers n = [] := by
  rw [← State.claimers_isEmpty] at h
  simpa using h

/-- The contribution kept, with all that claim it given it, and nothing else. -/
theorem State.takeIngress_fresh_rest {n : Nat} {b : List Byte}
    (hw : s.streams.ingressWaits.any (fun w => decide (w.handle.toNat = field b 0 8)) = false) (hb : s.bufferUse < 65536) :
    (s.takeIngress n b).streams.ingressWaits = s.streams.ingressWaits ++ [s.ingressWait n b] ∧
      (s.takeIngress n b).offStreams = s.offStreams := by
  rw [State.takeIngress_fresh hw hb]
  obtain ⟨hoff, hwaits⟩ := foldl_giveIngress (s.claimers (field b 0 8)) n (parseIngress b) (s.keepIngress (s.ingressWait n b))
  exact ⟨hwaits, hoff⟩

/-- One before its cutoff is its stream's. -/
theorem State.takeIngress_given {n : Nat} {b : List Byte}
    (hw : s.streams.ingressWaits.any (fun w => decide (w.handle.toNat = field b 0 8)) = false) (hb : s.bufferUse < 65536)
    (hc : s.claimers (field b 0 8) = [k]) (hst : aget k s.streams.table = some st) (hi : st.ingress = none)
    (hcut : ∀ c, s.ingressCutoff st = some c → n < c) :
    s.takeIngress n b = (s.keepIngress (s.ingressWait n b)).setStream k
      { st with ingress := some (parseIngress b), ingressArrival := some n } := by
  rw [State.takeIngress_fresh hw hb, hc]
  exact State.giveIngress_taken (s := s.keepIngress (s.ingressWait n b)) hst hi hcut _

/-- A late one counts at its stream and in its stage. -/
theorem State.takeIngress_late {n : Nat} {b : List Byte}
    (hw : s.streams.ingressWaits.any (fun w => decide (w.handle.toNat = field b 0 8)) = false) (hb : s.bufferUse < 65536)
    (hc : s.claimers (field b 0 8) = [k]) (hst : aget k s.streams.table = some st)
    (hl : st.ingress ≠ none ∨ ∃ c, s.ingressCutoff st = some c ∧ c ≤ n) :
    s.OnlyStream (s.takeIngress n b) k { st with owed := st.owed ++ [(8, 1)] } ∧
      ((s.takeIngress n b).counter ⟨0x10, 0x15, 1⟩).count = min (2 ^ 48 - 1) ((s.counter ⟨0x10, 0x15, 1⟩).count + 1) := by
  have hgive := State.giveIngress_late (s := s.keepIngress (s.ingressWait n b)) hst hl (parseIngress b)
  have hrun : s.takeIngress n b = ((s.keepIngress (s.ingressWait n b)).effects (lateDiscard 0x15)).streamWord k 8 1 := by
    rw [State.takeIngress_fresh hw hb, hc]
    exact hgive
  obtain ⟨⟨htable, hoff, hkeep⟩, hcount, -⟩ :=
    State.lateDiscard_owed (s := s.keepIngress (s.ingressWait n b)) hst 0x15
  rw [hrun]
  exact ⟨⟨htable, hoff, hkeep⟩, hcount⟩

/-- An ingress contribution at a contribution port is taken by what claims its handle. -/
theorem contributionArrive_ingress (h : s.takeInbox (fun a => s.contributionPort a.pkt.hdr.port) = some (a, u))
    (hi : u.isIngress a.pkt.payload = true) : exec .contributionArrive s = .next (u.takeIngress a.stamp a.pkt.payload) := by
  refine congrArg Host.Outcome.next ?_
  unfold contributionArrive
  rw [h]
  exact if_pos hi

theorem ingressKeptClause (h : s.takeInbox (fun a => s.contributionPort a.pkt.hdr.port) = some (a, u))
    (hi : u.isIngress a.pkt.payload = true)
    (hw : s.streams.ingressWaits.any (fun w => decide (w.handle.toNat = field a.pkt.payload 0 8)) = false)
    (hb : s.bufferUse < 65536) :
    ∃ t w, exec .contributionArrive s = .next t ∧ t.streams.ingressWaits = s.streams.ingressWaits ++ [w] ∧
      w.handle = BitVec.ofNat 48 (field a.pkt.payload 0 8) ∧ w.arrival = a.stamp ∧
      (w.claimed = true ↔ ∃ e ∈ s.streams.table, e.2.claims (field a.pkt.payload 0 8) = true) ∧
      w.body = parseIngress a.pkt.payload ∧ { t.offStreams with eng := s.eng } = s.offStreams := by
  obtain ⟨hstreams, hoff, -⟩ := State.takeInbox_same h
  rw [← hstreams] at hw ⊢
  obtain ⟨hwaits, hrest⟩ := State.takeIngress_fresh_rest (n := a.stamp) hw ((State.bufferUse_of_streams hstreams).trans_lt hb)
  refine ⟨_, u.ingressWait a.stamp a.pkt.payload, contributionArrive_ingress h hi, hwaits, rfl, rfl, ?_, rfl, ?_⟩
  · show (!(u.claimers (field a.pkt.payload 0 8)).isEmpty) = true ↔ _
    rw [State.claimers_isEmpty, List.any_eq_true]
  · rw [hrest, hoff]
    rfl

theorem ingressAgainClause (h : s.takeInbox (fun a => s.contributionPort a.pkt.hdr.port) = some (a, u))
    (hi : u.isIngress a.pkt.payload = true)
    (hw : s.streams.ingressWaits.any (fun w => decide (w.handle.toNat = field a.pkt.payload 0 8)) = true ∨ 65536 ≤ s.bufferUse) :
    (s.streams.table.any (fun e => e.2.claims (field a.pkt.payload 0 8)) = false → exec .contributionArrive s = .next u) ∧
    (∀ k st, s.streams.table.filter (fun e => e.2.claims (field a.pkt.payload 0 8)) = [(k, st)] → aget k s.streams.table = some st →
      ∃ t, exec .contributionArrive s = .next t ∧ t.streams.ingressWaits = s.streams.ingressWaits ∧
        s.OnlyStream t k { st with owed := st.owed ++ [(8, 1)] }) := by
  have hsame := State.takeInbox_same h
  rw [← hsame.1, ← State.bufferUse_of_streams hsame.1] at hw
  rw [← hsame.1, contributionArrive_ingress h hi, State.takeIngress_again hw]
  refine ⟨fun hc => by rw [State.claimers_none hc]; rfl, fun k st hc hst => ?_⟩
  rw [State.claimers_one hc, List.foldl_cons, List.foldl_nil, State.streamWord_eq hst]
  exact ⟨_, rfl, rfl, State.onlyStream_of_same hsame ⟨rfl, rfl, .inl rfl⟩⟩

theorem ingressGivenClause (h : s.takeInbox (fun a => s.contributionPort a.pkt.hdr.port) = some (a, u))
    (hi : u.isIngress a.pkt.payload = true)
    (hw : s.streams.ingressWaits.any (fun w => decide (w.handle.toNat = field a.pkt.payload 0 8)) = false)
    (hb : s.bufferUse < 65536) :
    (s.streams.table.any (fun e => e.2.claims (field a.pkt.payload 0 8)) = false →
      ∃ t w, exec .contributionArrive s = .next t ∧ t.streams.ingressWaits = s.streams.ingressWaits ++ [w] ∧
        w.handle = BitVec.ofNat 48 (field a.pkt.payload 0 8) ∧ w.arrival = a.stamp ∧ w.claimed = false ∧
        w.body = parseIngress a.pkt.payload ∧ { t with streams := { t.streams with ingressWaits := s.streams.ingressWaits } } = u) ∧
    (∀ k st, s.streams.table.filter (fun e => e.2.claims (field a.pkt.payload 0 8)) = [(k, st)] → aget k s.streams.table = some st →
      st.ingress = none → (∀ c, u.ingressCutoff st = some c → a.stamp < c) →
      ∃ t, exec .contributionArrive s = .next t ∧
        t.streams.table = aset k { st with ingress := some (parseIngress a.pkt.payload), ingressArrival := some a.stamp }
          s.streams.table ∧
        { t with streams := s.streams } = u) ∧
    (∀ k st, s.streams.table.filter (fun e => e.2.claims (field a.pkt.payload 0 8)) = [(k, st)] → aget k s.streams.table = some st →
      st.ingress ≠ none ∨ (∃ c, u.ingressCutoff st = some c ∧ c ≤ a.stamp) →
      ∃ t, exec .contributionArrive s = .next t ∧ s.OnlyStream t k { st with owed := st.owed ++ [(8, 1)] } ∧
        (t.counter ⟨0x10, 0x15, 1⟩).count = min (2 ^ 48 - 1) ((s.counter ⟨0x10, 0x15, 1⟩).count + 1)) := by
  have hsame := State.takeInbox_same h
  have hcounter := State.takeInbox_counter h ⟨0x10, 0x15, 1⟩
  rw [← hsame.1] at hw
  rw [← State.bufferUse_of_streams hsame.1] at hb
  rw [← hsame.1, ← hcounter, contributionArrive_ingress h hi]
  refine ⟨fun hc => ?_, fun k st hc hst hi hcut => ?_, fun k st hc hst hl =>
    ⟨_, rfl, ?_, (State.takeIngress_late hw hb (State.claimers_one hc) hst hl).2⟩⟩
  · refine ⟨_, u.ingressWait a.stamp a.pkt.payload, congrArg Host.Outcome.next (State.takeIngress_fresh hw hb), ?_⟩
    rw [State.claimers_none hc]
    refine ⟨rfl, rfl, rfl, ?_, rfl, rfl⟩
    rw [State.ingressWait, State.claimers_none hc]
    rfl
  · exact ⟨_, congrArg Host.Outcome.next (State.takeIngress_given hw hb (State.claimers_one hc) hst hi hcut), rfl, rfl⟩
  · exact State.onlyStream_of_same hsame (State.takeIngress_late hw hb (State.claimers_one hc) hst hl).1

/-! ### Probe records (R83, R285) -/

theorem State.aget_of_streamOf {n : Nat} (h : s.streamOf n = some (k, st)) : aget k s.streams.table = some st := by
  unfold State.streamOf State.named at h
  dsimp only at h
  split at h
  · next hn =>
    split at hn
    · cases hn
    · split at hn
      · cases hn
      · split at hn
        · cases hn
        · next hk =>
          obtain ⟨rfl, rfl⟩ := hn
          obtain ⟨rfl, rfl⟩ := h
          exact hk
  · cases h

/-- A payload of 128 bytes is one record. -/
theorem recordsOf_one {b : List Byte} (h : b.length = 128) : recordsOf b = [b] := by
  have : b.take 128 = b := List.take_of_length_le (by omega)
  simp [recordsOf, h, List.range_succ, this]

theorem takeProbePacket_one (hlen : a.pkt.payload.length = 128) (h0 : field a.pkt.payload 0 8 ≠ 0) (s : State) :
    takeProbePacket a s = s.takeProbe a.stamp a.pkt.hdr.source a.pkt.payload := by
  rw [takeProbePacket, recordsOf_one hlen, List.filter_cons_of_pos (by simpa using h0)]
  rfl

/-- Both commands that bring probe records take them from the packet. -/
theorem exec_probePacket {c : Instr}
    (h : (c = .probeRecordPacket ∧
        s.takeInbox (fun a => decide (a.pkt.hdr.port = 0xD2#8) && !s.isIngress a.pkt.payload) = some (a, u)) ∨
      (c = .contributionArrive ∧ s.takeInbox (fun a => s.contributionPort a.pkt.hdr.port) = some (a, u) ∧
        u.isIngress a.pkt.payload = false)) :
    exec c s = .next (takeProbePacket a u) ∧ ∃ r, u = { s with plane := { s.plane with inbox := r } } := by
  rcases h with ⟨rfl, h⟩ | ⟨rfl, h, hi⟩
  · exact ⟨congrArg Host.Outcome.next (by rw [h]), State.takeInbox_eq h⟩
  · refine ⟨congrArg Host.Outcome.next ?_, State.takeInbox_eq h⟩
    unfold contributionArrive
    rw [h]
    exact if_neg (by simp [hi])

section
variable (hst : s.streamOf (field a.pkt.payload 0 8) = some (k, st))
include hst

theorem State.takeProbe_keep
    (hf : s.probeFate st (field a.pkt.payload 8 4) a.stamp (parseProbe a.pkt.payload a.pkt.hdr.source) = .keep) :
    s.takeProbe a.stamp a.pkt.hdr.source a.pkt.payload = { s with streams := { s.streams with buffer := s.streams.buffer ++
      [{ handle := st.handle, index := field a.pkt.payload 8 4, arrival := a.stamp,
         probe := parseProbe a.pkt.payload a.pkt.hdr.source }] } } := by
  unfold State.takeProbe
  simp only [hst, hf]

theorem State.takeProbe_discard
    (hf : s.probeFate st (field a.pkt.payload 8 4) a.stamp (parseProbe a.pkt.payload a.pkt.hdr.source) = .discard) :
    s.takeProbe a.stamp a.pkt.hdr.source a.pkt.payload = s.setStream k { st with owed := st.owed ++ [(8, 1)] } := by
  unfold State.takeProbe
  simp only [hst, hf]
  exact State.streamWord_eq (State.aget_of_streamOf hst) 8

theorem State.takeProbe_late
    (hf : s.probeFate st (field a.pkt.payload 8 4) a.stamp (parseProbe a.pkt.payload a.pkt.hdr.source) = .late) :
    s.takeProbe a.stamp a.pkt.hdr.source a.pkt.payload = (s.effects (lateDiscard 0x14)).streamWord k 8 1 := by
  unfold State.takeProbe
  simp only [hst, hf]

end

theorem probeClause {c : Instr}
    (h : (c = .probeRecordPacket ∧
        s.takeInbox (fun a => decide (a.pkt.hdr.port = 0xD2#8) && !s.isIngress a.pkt.payload) = some (a, u)) ∨
      (c = .contributionArrive ∧ s.takeInbox (fun a => s.contributionPort a.pkt.hdr.port) = some (a, u) ∧
        u.isIngress a.pkt.payload = false))
    (hlen : a.pkt.payload.length = 128) (h0 : field a.pkt.payload 0 8 ≠ 0)
    (hst : s.streamOf (field a.pkt.payload 0 8) = some (k, st)) :
    let r := parseProbe a.pkt.payload a.pkt.hdr.source
    let n := field a.pkt.payload 8 4
    (s.probeFate st n a.stamp r = .keep →
      ∃ t, exec c s = .next t ∧
        t.streams.buffer = s.streams.buffer ++ [{ handle := st.handle, index := n, arrival := a.stamp, probe := r }] ∧
        { t with streams := { t.streams with buffer := s.streams.buffer } } = u) ∧
    (s.probeFate st n a.stamp r ≠ .keep →
      ∃ t, exec c s = .next t ∧ t.streams.buffer = s.streams.buffer ∧
        s.OnlyStream t k { st with owed := st.owed ++ [(8, 1)] } ∧
        (s.probeFate st n a.stamp r = .late →
          (t.counter ⟨0x10, 0x14, 1⟩).count = min (2 ^ 48 - 1) ((s.counter ⟨0x10, 0x14, 1⟩).count + 1))) := by
  obtain ⟨hrun, r, rfl⟩ := exec_probePacket h
  rw [takeProbePacket_one hlen h0] at hrun
  intro _ _
  refine ⟨fun hf => ⟨_, hrun.trans (congrArg Host.Outcome.next (State.takeProbe_keep hst hf)), rfl, rfl⟩, fun hf => ?_⟩
  cases hfate : s.probeFate st (field a.pkt.payload 8 4) a.stamp (parseProbe a.pkt.payload a.pkt.hdr.source) with
  | keep => exact absurd hfate hf
  | discard =>
    exact ⟨_, hrun.trans (congrArg Host.Outcome.next (State.takeProbe_discard hst hfate)), rfl, ⟨rfl, rfl, .inl rfl⟩, nofun⟩
  | late =>
    obtain ⟨honly, hcount, hbuf⟩ :=
      State.lateDiscard_owed (s := { s with plane := { s.plane with inbox := r } }) (State.aget_of_streamOf hst) 0x14
    exact ⟨_, hrun.trans (congrArg Host.Outcome.next (State.takeProbe_late hst hfate)), hbuf,
      State.onlyStream_of_same ⟨rfl, rfl, rfl⟩ honly, fun _ => hcount⟩

/-! ### Cutoffs (R55, R84) -/

theorem ingressCutoffClause (h : s.streams.table.find? (fun e => s.ingressOverdue e.2) = some (k, st)) :
    ∃ t r, exec .ingressContributionCutoff s = .next t ∧
      s.OnlyStream t k { st with ingress := some r, owed := st.owed ++ [(7, 1)] } ∧ r.late = true ∧
      r.verdict = (if ((s.policyOf st).map (fun p => p.failOpenFor 0x15 true)).getD false then 0 else 1) ∧ t.latched 2 = true := by
  have hrun : ingressContributionCutoff s =
      (s.setStream k { st with
          ingress := some (ingressDefault (((s.policyOf st).map (fun p => p.failOpenFor 0x15 true)).getD false)),
          owed := st.owed ++ [(7, 1)] }).effects (lateEvent 0x15 st.handle 0) := by
    unfold ingressContributionCutoff
    rw [h]
    rfl
  exact ⟨_, _, congrArg Host.Outcome.next hrun, State.onlyStream_effects _ ⟨rfl, rfl, .inl rfl⟩, rfl, rfl,
    State.effects_raises _ _ 2 _ (List.mem_cons_of_mem _ List.mem_cons_self)⟩

theorem ingressCutoffIdle (h : ∀ e ∈ s.streams.table, s.ingressOverdue e.2 = false) :
    exec .ingressContributionCutoff s = .next s := by
  have hnone : s.streams.table.find? (fun e => s.ingressOverdue e.2) = none :=
    List.find?_eq_none.2 fun e he => by simp [h e he]
  refine congrArg Host.Outcome.next ?_
  unfold ingressContributionCutoff
  rw [hnone]

theorem ingressTimeoutClause (s : State) : ∃ t, exec .ingressUnclaimedTimeout s = .next t ∧
    (∀ w, w ∈ t.streams.ingressWaits ↔ w ∈ s.streams.ingressWaits ∧ s.now < w.arrival + 16777216) ∧
    { t.quiet with streams := s.streams } = s.quiet := by
  refine ⟨ingressUnclaimed s, rfl, fun w => ?_, ?_⟩
  · have hwaits : (ingressUnclaimed s).streams.ingressWaits =
        s.streams.ingressWaits.filter (fun w => !decide (w.arrival + 16777216 ≤ s.now)) := by
      unfold ingressUnclaimed
      dsimp only
      split
      · rfl
      · rw [State.countN, State.effects_streams]
    rw [hwaits, List.mem_filter]
    simp
  · unfold ingressUnclaimed
    dsimp only
    split
    · rfl
    · rw [State.countN, State.effects_quiet]
      rfl

end Sys2Proof.Machine
end

section
open Sys2Proof.Machine

/-- Settles O39: a contribution is taken by the streams that claim it, a probe record by its stream's fate, and what misses its
cutoff by the late default. -/
theorem contributions : Obligations.Contributions := by
  unfold Obligations.Contributions
  intro s
  refine ⟨?_, ?_, ?_, ?_, ?_, ?_, ?_⟩
  · exact fun a u k st h h1 h6 hst hn1 hn60 hlen => featurePacketClause h h1 h6 hst hn1 hn60 hlen
  · exact fun a u h => featureRefusedClause h
  · exact fun a u h hi => ⟨ingressKeptClause h hi, ingressAgainClause h hi, ingressGivenClause h hi⟩
  · exact fun c a u k st h hlen h0 hst => probeClause h hlen h0 hst
  · exact fun k st h => ingressCutoffClause h
  · exact ingressCutoffIdle
  · exact ingressTimeoutClause s

end

section
/-! Verdicts: the cutoff, a lane's start and a program's end (R46, R326 to R328, R335). -/

namespace Sys2Proof.Machine

variable {s u : State} {h g : HalfId} {l m : Fin 16} {j : VerdictJob} {st : Stream} {p : Policy}

/-! ### Lanes -/

theorem State.setLane_lane (s : State) (h g : HalfId) (l m : Fin 16) (v : Lane) :
    (s.setLane h l v).lane g m = if (g, m) = (h, l) then v else s.lane g m := by
  unfold State.setLane State.lane
  split
  · next he => rw [he, aget_aset, if_pos rfl]; rfl
  · next he => rw [aget_aset_ne he]

@[simp] theorem State.setLane_lane_same (s : State) (h : HalfId) (l : Fin 16) (v : Lane) : (s.setLane h l v).lane h l = v := by
  rw [State.setLane_lane, if_pos rfl]

theorem State.lane_of_eng (he : u.eng = s.eng) (h : HalfId) (l : Fin 16) : u.lane h l = s.lane h l := by
  unfold State.lane
  rw [he]

@[simp] theorem State.effects_lane (s : State) (es : List Effect) (h : HalfId) (l : Fin 16) : (s.effects es).lane h l = s.lane h l :=
  State.lane_of_eng (s.effects_eng es) h l

@[simp] theorem State.setStream_lane (s : State) (k : SlotId) (x : Stream) (h : HalfId) (l : Fin 16) :
    (s.setStream k x).lane h l = s.lane h l := rfl

@[simp] theorem State.effects_offStreams (s : State) (es : List Effect) : (s.effects es).offStreams = s.offStreams :=
  State.offStreams_of_inside (State.effects_inside ..)

/-! ### The cutoff (R46, R326, R332, R333) -/

/-- A verdict with its inputs fixed: its stream changed, its late contributions counted, and queued where a program runs. -/
def State.fixVerdict (s : State) (p : Policy) (j : VerdictJob) (st : Stream) (es : List Effect) (runs : Bool) : State :=
  if runs then ((s.setStream j.slot st).effects es).queueJob p j else (s.setStream j.slot st).effects es

section
variable {es : List Effect} {runs : Bool}

theorem State.fixVerdict_table (s : State) : (s.fixVerdict p j st es runs).streams.table = aset j.slot st s.streams.table := by
  have : ((s.setStream j.slot st).effects es).streams.table = aset j.slot st s.streams.table := by
    rw [State.effects_streams]
    rfl
  unfold State.fixVerdict
  split <;> exact this

theorem State.fixVerdict_offStreams (s : State) :
    { (s.fixVerdict p j st es runs).offStreams with eng := s.eng } = s.offStreams := by
  have : { ((s.setStream j.slot st).effects es).offStreams with eng := s.eng } = s.offStreams := by
    rw [State.effects_offStreams]
    rfl
  unfold State.fixVerdict
  split <;> exact this

theorem State.fixVerdict_queue (s : State) (hr : runs = true) :
    ((s.fixVerdict p j st es runs).lane (p.bridleHalf j.slot) (p.bridleLane j.slot)).queue =
      (s.lane (p.bridleHalf j.slot) (p.bridleLane j.slot)).queue ++ [j] := by
  rw [State.fixVerdict, if_pos hr, State.queueJob]
  simp

theorem State.fixVerdict_eng (s : State) (hr : runs = false) : (s.fixVerdict p j st es runs).eng = s.eng := by
  rw [State.fixVerdict, if_neg (by simp [hr]), State.effects_eng]
  rfl

theorem State.fixVerdict_latched (s : State) {c : Nat} {d : List Byte} (hd : Effect.notice c d ∈ es) :
    (s.fixVerdict p j st es runs).latched c = true := by
  have : ((s.setStream j.slot st).effects es).latched c = true := State.effects_raises _ _ c d hd
  unfold State.fixVerdict
  split <;> exact this

end

/-- Each late contribution raises NTC_LATE (R57). -/
theorem notice_mem_lateStages {handle : BitVec 48} {n : Nat} {stages : List Nat} (hs : stages ≠ []) :
    ∃ d, Effect.notice 2 d ∈ lateStages handle n stages := by
  obtain ⟨g, rest, rfl⟩ := List.exists_cons_of_ne_nil hs
  exact ⟨_, List.mem_append_left _ (List.mem_cons_of_mem _ List.mem_cons_self)⟩

/-- A stream with a token's verdict inputs fixed. -/
def Stream.fixToken (st : Stream) (n : Nat) (i : VerdictInputs) (v : VerdictStage) : Stream :=
  { st with tokens := st.tokens.map (fun x => if x.index = n then { x with inputs := some i, verdict := v } else x) }

theorem Stream.mem_fixToken {n : Nat} {x : Token} (hx : st.tokens.find? (fun t => decide (t.index = n)) = some x)
    (i : VerdictInputs) (v : VerdictStage) :
    ∃ y ∈ (st.fixToken n i v).tokens, y.index = x.index ∧ y.inputs = some i ∧ y.verdict = v := by
  have hn : x.index = n := by simpa using List.find?_some hx
  exact ⟨_, List.mem_map_of_mem (List.mem_of_find?_eq_some hx), by rw [if_pos hn], by rw [if_pos hn], by rw [if_pos hn]⟩

/-- A stream with a segment's verdict inputs fixed. -/
def Stream.fixSegment (st : Stream) (n : Nat) (i : VerdictInputs) (v : VerdictStage) : Stream :=
  { st with inp := { st.inp with
      verdicts := st.inp.verdicts.map (fun x => if x.segment = n then { x with inputs := some i, verdict := v } else x) } }

theorem Stream.mem_fixSegment {n : Nat} {x : SegVerdict} (hx : st.inp.verdicts.find? (fun t => decide (t.segment = n)) = some x)
    (i : VerdictInputs) (v : VerdictStage) :
    ∃ y ∈ (st.fixSegment n i v).inp.verdicts, y.segment = x.segment ∧ y.inputs = some i ∧ y.verdict = v := by
  have hn : x.segment = n := by simpa using List.find?_some hx
  exact ⟨_, List.mem_map_of_mem (List.mem_of_find?_eq_some hx), by rw [if_pos hn], by rw [if_pos hn], by rw [if_pos hn]⟩

/-- The contribution buffer without a token's probe records: its verdict has taken them. -/
def State.withoutProbes (s : State) (handle : BitVec 48) (n : Nat) : State :=
  { s with streams := { s.streams with
      buffer := s.streams.buffer.filter (fun c => !(decide (c.handle = handle) && decide (c.index = n))) } }

theorem State.cutoff_token {x : Token} (hj : j.ingress = false)
    (hx : st.tokens.find? (fun t => decide (t.index = j.index)) = some x) (hp : s.policyByEpoch x.epoch = some p) :
    s.cutoff j st = (s.withoutProbes st.handle x.index).fixVerdict p j
      (st.fixToken j.index (s.tokenInputs st p x).1 (if (p.programOf st).isSome && !x.discarded then .queued else .ready {}))
      (lateStages st.handle x.index (s.tokenInputs st p x).2) ((p.programOf st).isSome && !x.discarded) := by
  unfold State.cutoff
  simp only [hj, hx, hp]
  rfl

theorem State.cutoff_segment {x : SegVerdict} (hj : j.ingress = true)
    (hx : st.inp.verdicts.find? (fun t => decide (t.segment = j.index)) = some x) (hp : s.policyByEpoch x.epoch = some p) :
    s.cutoff j st = State.fixVerdict { s with freeUse := s.freeUse + 12 } p j
      (st.fixSegment j.index (s.segmentInputs st p x).1 (stageAfter (p.programOf st)))
      (lateStages st.handle x.segment (s.segmentInputs st p x).2) (p.programOf st).isSome := by
  unfold State.cutoff
  simp only [hj, hx, hp]
  rfl

section
variable (hf : firstJob (s.streams.table.flatMap (fun e => s.waitingVerdicts e.1 e.2)) = some j)
  (hst : aget j.slot s.streams.table = some st)
include hf hst

theorem exec_verdictCutoff : exec .verdictCutoff s =
    .next (if s.contributionBefore st.handle.toNat j.cutoff then s else s.cutoff j st) := by
  refine congrArg Host.Outcome.next ?_
  unfold verdictCutoff
  simp only [hf, hst]

theorem tokenCutoffClause {x : Token} (hc : s.contributionBefore st.handle.toNat j.cutoff = false) (hj : j.ingress = false)
    (hx : st.tokens.find? (fun t => decide (t.index = j.index)) = some x) (hp : s.policyByEpoch x.epoch = some p) :
    let runs := (p.programOf st).isSome && !x.discarded
    ∃ t st', exec .verdictCutoff s = .next t ∧ t.streams.table = aset j.slot st' s.streams.table ∧
      { st' with tokens := st.tokens } = st ∧
      (∃ y ∈ st'.tokens, y.index = x.index ∧ y.inputs = some (s.tokenInputs st p x).1 ∧
        y.verdict = (if runs then .queued else .ready {})) ∧
      (runs = true → (t.lane (p.bridleHalf j.slot) (p.bridleLane j.slot)).queue =
        (s.lane (p.bridleHalf j.slot) (p.bridleLane j.slot)).queue ++ [j]) ∧
      (runs = false → t.eng = s.eng) ∧
      ((s.tokenInputs st p x).2 ≠ [] → t.latched 2 = true) ∧ { t.offStreams with eng := s.eng } = s.offStreams := by
  have hrun := exec_verdictCutoff hf hst
  rw [hc, if_neg Bool.false_ne_true, State.cutoff_token hj hx hp] at hrun
  intro runs
  exact ⟨_, _, hrun, State.fixVerdict_table _, rfl, Stream.mem_fixToken hx _ _, State.fixVerdict_queue _, State.fixVerdict_eng _,
    fun hl => State.fixVerdict_latched _ (notice_mem_lateStages hl).choose_spec, State.fixVerdict_offStreams _⟩

theorem segmentCutoffClause {v : SegVerdict} (hc : s.contributionBefore st.handle.toNat j.cutoff = false) (hj : j.ingress = true)
    (hv : st.inp.verdicts.find? (fun t => decide (t.segment = j.index)) = some v) (hp : s.policyByEpoch v.epoch = some p) :
    ∃ t st', exec .verdictCutoff s = .next t ∧ t.streams.table = aset j.slot st' s.streams.table ∧
      { st' with inp := st.inp } = st ∧
      (∃ y ∈ st'.inp.verdicts, y.segment = v.segment ∧ y.inputs = some (s.segmentInputs st p v).1 ∧
        y.verdict = (if (p.programOf st).isSome then .queued else .ready {})) ∧
      ((p.programOf st).isSome = true → (t.lane (p.bridleHalf j.slot) (p.bridleLane j.slot)).queue =
        (s.lane (p.bridleHalf j.slot) (p.bridleLane j.slot)).queue ++ [j]) ∧
      ((s.segmentInputs st p v).2 ≠ [] → t.latched 2 = true) ∧ { t.offStreams with eng := s.eng } = s.offStreams := by
  have hrun := exec_verdictCutoff hf hst
  rw [hc, if_neg Bool.false_ne_true, State.cutoff_segment hj hv hp] at hrun
  exact ⟨_, _, hrun, State.fixVerdict_table _, rfl, Stream.mem_fixSegment hv _ _, State.fixVerdict_queue _,
    fun hl => State.fixVerdict_latched _ (notice_mem_lateStages hl).choose_spec, State.fixVerdict_offStreams _⟩

end

/-! ### A lane's start (R327, R328, R335) -/

/-- A verdict's first step on a lane: its registers 0, at its program's first instruction. -/
def LaneRun.begin (j : VerdictJob) (epoch : Nat) (i : VerdictInputs) (b : VerdictProgram) : LaneRun :=
  { job := j, epoch := epoch, inputs := i, regs := Vector.replicate 16 0#32, pc := 0, length := b.length, first := b.first, acts := {} }

theorem laneStart_idle (hl : (s.lane h l).run.isSome = true ∨ firstJob (s.lane h l).queue = none) :
    exec (.bridleLaneStart h l) s = .next s := by
  refine congrArg Host.Outcome.next ?_
  unfold laneStart
  dsimp only
  split
  · next hr hq =>
    rcases hl with hl | hl
    · simp [hr] at hl
    · simp [hl] at hq
  · rfl

/-- An idle lane without a verdict that it has taken off its queue. -/
def State.dequeued (s : State) (h : HalfId) (l : Fin 16) (j : VerdictJob) : State :=
  s.setLane h l { queue := (s.lane h l).queue.erase j, run := none }

theorem State.dequeued_at (s : State) (h : HalfId) (l : Fin 16) (j : VerdictJob) :
    ((s.dequeued h l j).lane h l).run = none ∧ ((s.dequeued h l j).lane h l).queue = (s.lane h l).queue.erase j ∧
      ∀ g m, (g, m) ≠ (h, l) → (s.dequeued h l j).lane g m = s.lane g m := by
  unfold State.dequeued
  rw [State.setLane_lane_same]
  exact ⟨rfl, rfl, fun g m hne => by rw [State.setLane_lane, if_neg hne]⟩

section
variable (hr : (s.lane h l).run = none) (hq : firstJob (s.lane h l).queue = some j)
include hr hq

theorem laneStart_runs {i : VerdictInputs} {e : Nat} {b : VerdictProgram} (hj : s.jobOf j = some (st, i, e))
    (hb : (s.policyByEpoch e).bind (fun p => p.programOf st) = some b) (hf : s.foreseenOver j st = false)
    (hp : s.tablePoison j.stage st.handle j.index = none) :
    laneStart h l s = (((s.dequeued h l j).setLane h l
      { queue := (s.lane h l).queue.erase j, run := some (.begin j e i b) }).setStream j.slot (st.setVerdict j .running)).count1
        0x0F 0 0 := by
  have hj' : (s.dequeued h l j).jobOf j = some (st, i, e) := hj
  have hb' : ((s.dequeued h l j).policyByEpoch e).bind (fun p => p.programOf st) = some b := hb
  have hp' : (s.dequeued h l j).tablePoison j.stage st.handle j.index = none := hp
  unfold State.dequeued at *
  unfold laneStart
  simp only [hr, hq, hj', hf, hb', hp']
  rfl

theorem laneStart_poisoned {i : VerdictInputs} {e w : Nat} {b : VerdictProgram} (hj : s.jobOf j = some (st, i, e))
    (hb : (s.policyByEpoch e).bind (fun p => p.programOf st) = some b) (hf : s.foreseenOver j st = false)
    (hp : s.tablePoison j.stage st.handle j.index = some w) :
    laneStart h l s = (s.dequeued h l j).effects (poisonRead 0 (bankOf w) w s.now) := by
  have hj' : (s.dequeued h l j).jobOf j = some (st, i, e) := hj
  have hb' : ((s.dequeued h l j).policyByEpoch e).bind (fun p => p.programOf st) = some b := hb
  have hp' : (s.dequeued h l j).tablePoison j.stage st.handle j.index = some w := hp
  unfold State.dequeued at *
  unfold laneStart
  simp only [hr, hq, hj', hf, hb', hp']
  rfl

theorem laneStart_passes {i : VerdictInputs} {e : Nat} (hj : s.jobOf j = some (st, i, e))
    (hb : s.foreseenOver j st = true ∨ (s.policyByEpoch e).bind (fun p => p.programOf st) = none) :
    laneStart h l s = (s.dequeued h l j).setStream j.slot (st.setVerdict j (.ready {})) := by
  have hj' : (s.dequeued h l j).jobOf j = some (st, i, e) := hj
  have hb' : (if s.foreseenOver j st then none
      else ((s.dequeued h l j).policyByEpoch e).bind (fun p => p.programOf st)) = none := by
    rcases hb with hb | hb
    · exact if_pos hb
    · exact (ite_eq_left_iff.2 fun _ => hb)
  unfold State.dequeued at *
  unfold laneStart
  simp only [hr, hq, hj', hb']

/-- A verdict that is no longer in flight is a late result; one of a token that is discarded passes. -/
theorem laneStart_gone (hj : s.jobOf j = none) :
    (∃ x, laneStart h l s = (s.dequeued h l j).setStream j.slot x) ∨
      laneStart h l s = (s.dequeued h l j).effects (lateDiscard j.stage) := by
  have hj' : (s.dequeued h l j).jobOf j = none := hj
  unfold State.dequeued at *
  unfold laneStart
  simp only [hr, hq, hj']
  split
  · split
    · exact .inl ⟨_, rfl⟩
    · exact .inr rfl
  · exact .inr rfl

theorem laneStart_late (hj : s.jobOf j = none) (hst : aget j.slot s.streams.table = some st) (hf : st.inFlight j = false) :
    laneStart h l s = (s.dequeued h l j).effects (lateDiscard j.stage) := by
  have hj' : (s.dequeued h l j).jobOf j = none := hj
  have hst' : aget j.slot (s.dequeued h l j).streams.table = some st := hst
  unfold State.dequeued at *
  unfold laneStart
  simp only [hr, hq, hj', hst', hf, Bool.false_eq_true, if_false]

theorem laneStartClauses :
    (∀ st i e b, s.jobOf j = some (st, i, e) → (s.policyByEpoch e).bind (fun p => p.programOf st) = some b →
      s.foreseenOver j st = false →
      (s.tablePoison j.stage st.handle j.index = none →
        ∃ t r, exec (.bridleLaneStart h l) s = .next t ∧ (t.lane h l).run = some r ∧ r.job = j ∧ r.epoch = e ∧ r.inputs = i ∧
          r.regs = Vector.replicate 16 0#32 ∧ r.pc = 0 ∧ r.acts = {} ∧ (t.lane h l).queue = (s.lane h l).queue.erase j ∧
          (∀ g m, (g, m) ≠ (h, l) → t.lane g m = s.lane g m) ∧
          t.streams.table = aset j.slot (st.setVerdict j .running) s.streams.table ∧
          { t.offStreams with eng := s.eng } = s.offStreams) ∧
      (∀ w, s.tablePoison j.stage st.handle j.index = some w →
        ∃ t, exec (.bridleLaneStart h l) s = .next t ∧ (t.lane h l).run = none ∧
          (t.lane h l).queue = (s.lane h l).queue.erase j ∧ t.streams = s.streams ∧ t.latched 19 = true ∧
          { t.offStreams with eng := s.eng } = s.offStreams)) ∧
    (∀ st i e, s.jobOf j = some (st, i, e) →
      s.foreseenOver j st = true ∨ (s.policyByEpoch e).bind (fun p => p.programOf st) = none →
      ∃ t, exec (.bridleLaneStart h l) s = .next t ∧ (t.lane h l).run = none ∧
        (t.lane h l).queue = (s.lane h l).queue.erase j ∧ (∀ g m, (g, m) ≠ (h, l) → t.lane g m = s.lane g m) ∧
        t.streams.table = aset j.slot (st.setVerdict j (.ready {})) s.streams.table ∧
        { t.offStreams with eng := s.eng } = s.offStreams) ∧
    (s.jobOf j = none →
      ∃ t, exec (.bridleLaneStart h l) s = .next t ∧ (t.lane h l).run = none ∧
        (t.lane h l).queue = (s.lane h l).queue.erase j ∧ (∀ g m, (g, m) ≠ (h, l) → t.lane g m = s.lane g m) ∧
        (∀ st, aget j.slot s.streams.table = some st → st.inFlight j = false → t.streams = s.streams ∧
          (t.counter ⟨0x10, j.stage, 1⟩).count = min (2 ^ 48 - 1) ((s.counter ⟨0x10, j.stage, 1⟩).count + 1)) ∧
        { t.offStreams with eng := s.eng } = s.offStreams) := by
  obtain ⟨hnone, hqueue, hother⟩ := s.dequeued_at h l j
  refine ⟨fun st i e b hj hb hf => ⟨fun hp => ?_, fun w hp => ?_⟩, fun st i e hj hb => ?_, fun hj => ?_⟩
  · refine ⟨_, .begin j e i b, congrArg Host.Outcome.next (laneStart_runs hr hq hj hb hf hp), ?_, rfl, rfl, rfl, rfl, rfl, rfl,
      ?_, fun g m hne => ?_, ?_, ?_⟩
    · rw [State.count1, State.effects_lane, State.setStream_lane, State.setLane_lane_same]
    · rw [State.count1, State.effects_lane, State.setStream_lane, State.setLane_lane_same]
    · rw [State.count1, State.effects_lane, State.setStream_lane, State.setLane_lane, if_neg hne, hother g m hne]
    · rw [State.count1, State.effects_streams]
      rfl
    · rw [State.count1, State.effects_offStreams]
      rfl
  · refine ⟨_, congrArg Host.Outcome.next (laneStart_poisoned hr hq hj hb hf hp), ?_, ?_, ?_, ?_, ?_⟩
    · rw [State.effects_lane, hnone]
    · rw [State.effects_lane, hqueue]
    · rw [State.effects_streams]
      rfl
    · exact State.effects_raises _ _ 19 _ (List.mem_cons_of_mem _ List.mem_cons_self)
    · rw [State.effects_offStreams]
      rfl
  · exact ⟨_, congrArg Host.Outcome.next (laneStart_passes hr hq hj hb), hnone, hqueue, hother, rfl, rfl⟩
  · have hlate : ∀ st, aget j.slot s.streams.table = some st → st.inFlight j = false →
        (laneStart h l s).streams = s.streams ∧
        ((laneStart h l s).counter ⟨0x10, j.stage, 1⟩).count = min (2 ^ 48 - 1) ((s.counter ⟨0x10, j.stage, 1⟩).count + 1) := by
      intro st hst hf
      rw [laneStart_late hr hq hj hst hf, State.effects_streams, State.lateDiscard_count]
      exact ⟨rfl, rfl⟩
    rcases laneStart_gone hr hq hj with ⟨x, hx⟩ | hx
    · refine ⟨_, rfl, ?_, ?_, ?_, hlate, ?_⟩
      all_goals rw [hx]
      · exact hnone
      · exact hqueue
      · exact hother
      · rfl
    · refine ⟨_, rfl, ?_, ?_, fun g m hne => ?_, hlate, ?_⟩
      all_goals rw [hx]
      · rw [State.effects_lane, hnone]
      · rw [State.effects_lane, hqueue]
      · rw [State.effects_lane, hother g m hne]
      · rw [State.effects_offStreams]
        rfl

end

/-! ### A program's end (R40, R41, R329) -/

/-- The release tick of a verdict's token or segment, while it is in flight. -/
def Stream.releaseOf (st : Stream) (j : VerdictJob) : Option Nat :=
  if j.ingress then (st.inp.verdicts.find? (fun v => decide (v.segment = j.index))).map (fun v => v.release)
  else (st.tokens.find? (fun t => decide (t.index = j.index))).map (fun t => t.release)

/-- A lane whose program has ended: idle, its last step counted. -/
def State.laneEnded (s : State) (h : HalfId) (l : Fin 16) : State := (s.setLane h l { s.lane h l with run := none }).count1 0x0F 0 1

theorem State.endVerdict_inTime {r : LaneRun} {n : Nat} (hst : aget r.job.slot s.streams.table = some st)
    (hn : st.releaseOf r.job = some n) (ht : s.now < n) :
    s.endVerdict r = s.setStream r.job.slot (st.setVerdict r.job (.ready r.acts)) := by
  unfold Stream.releaseOf at hn
  unfold State.endVerdict
  simp only [hst, hn]
  exact if_pos ht

theorem State.endVerdict_late {r : LaneRun} (hst : aget r.job.slot s.streams.table = some st)
    (hl : ∀ n, st.releaseOf r.job = some n → n ≤ s.now) : s.endVerdict r = s.effects (lateDiscard r.job.stage) := by
  cases hn : st.releaseOf r.job with
  | none =>
    unfold Stream.releaseOf at hn
    unfold State.endVerdict
    simp only [hst, hn]
  | some n =>
    have hle := hl n hn
    unfold Stream.releaseOf at hn
    unfold State.endVerdict
    simp only [hst, hn]
    exact if_neg (Nat.not_lt.2 hle)

theorem State.endVerdict_cases (s : State) (r : LaneRun) :
    (∃ x, s.endVerdict r = s.setStream r.job.slot x) ∨ s.endVerdict r = s.effects (lateDiscard r.job.stage) := by
  cases hst : aget r.job.slot s.streams.table with
  | none => exact .inr (by rw [State.endVerdict, hst])
  | some st =>
    by_cases hl : ∀ n, st.releaseOf r.job = some n → n ≤ s.now
    · exact .inr (State.endVerdict_late hst hl)
    · push Not at hl
      obtain ⟨n, hn, ht⟩ := hl
      exact .inl ⟨_, State.endVerdict_inTime hst hn ht⟩

theorem exec_bridleEnd_at {r : LaneRun} (hat : s.LaneAt h l r (bridleWord 0x00 0 0 0 0#32)) :
    exec (.bridleEnd h l) s = .next ((s.laneEnded h l).endVerdict r) := by
  obtain ⟨hrun, hcode⟩ := hat
  refine congrArg Host.Outcome.next ?_
  unfold State.laneEnd
  simp only [hrun]
  exact if_pos hcode

theorem State.laneEnded_streams (s : State) (h : HalfId) (l : Fin 16) : (s.laneEnded h l).streams = s.streams :=
  State.effects_streams ..

theorem State.laneEnded_now (s : State) (h : HalfId) (l : Fin 16) : (s.laneEnded h l).now = s.now :=
  State.effects_now ..

theorem State.laneEnded_lane (s : State) (h g : HalfId) (l m : Fin 16) :
    (s.laneEnded h l).lane g m = if (g, m) = (h, l) then { s.lane h l with run := none } else s.lane g m := by
  rw [State.laneEnded, State.count1, State.effects_lane, State.setLane_lane]

theorem bridleEndClause {r : LaneRun} (hat : s.LaneAt h l r (bridleWord 0x00 0 0 0 0#32)) :
    (∃ t, exec (.bridleEnd h l) s = .next t ∧ (t.lane h l).run = none ∧ (t.lane h l).queue = (s.lane h l).queue ∧
      (∀ g m, (g, m) ≠ (h, l) → t.lane g m = s.lane g m) ∧ { t.offStreams with eng := s.eng } = s.offStreams) ∧
    (∀ st, aget r.job.slot s.streams.table = some st →
      (∀ n, st.releaseOf r.job = some n → s.now < n → ∃ t, exec (.bridleEnd h l) s = .next t ∧
        t.streams.table = aset r.job.slot (st.setVerdict r.job (.ready r.acts)) s.streams.table) ∧
      ((∀ n, st.releaseOf r.job = some n → n ≤ s.now) → ∃ t, exec (.bridleEnd h l) s = .next t ∧ t.streams = s.streams ∧
        (t.counter ⟨0x10, r.job.stage, 1⟩).count = min (2 ^ 48 - 1) ((s.counter ⟨0x10, r.job.stage, 1⟩).count + 1))) := by
  rw [exec_bridleEnd_at hat]
  refine ⟨⟨_, rfl, ?_⟩, fun st hst => ⟨fun n hn ht => ⟨_, rfl, ?_⟩, fun hl => ⟨_, rfl, ?_⟩⟩⟩
  · have hlane : ∀ g m, ((s.laneEnded h l).endVerdict r).lane g m = (s.laneEnded h l).lane g m := by
      intro g m
      rcases (s.laneEnded h l).endVerdict_cases r with ⟨x, hx⟩ | hx
      · rw [hx, State.setStream_lane]
      · rw [hx, State.effects_lane]
    have hoff : ((s.laneEnded h l).endVerdict r).offStreams = (s.laneEnded h l).offStreams := by
      rcases (s.laneEnded h l).endVerdict_cases r with ⟨x, hx⟩ | hx
      · rw [hx]
        rfl
      · rw [hx, State.effects_offStreams]
    refine ⟨?_, ?_, fun g m hne => ?_, ?_⟩
    · rw [hlane, State.laneEnded_lane, if_pos rfl]
    · rw [hlane, State.laneEnded_lane, if_pos rfl]
    · rw [hlane, State.laneEnded_lane, if_neg hne]
    · rw [hoff, State.laneEnded, State.count1, State.effects_offStreams]
      rfl
  · rw [State.endVerdict_inTime (by rw [State.laneEnded_streams, hst]) hn (by rwa [State.laneEnded_now])]
    exact congrArg (fun v : Streams => aset _ _ v.table) (s.laneEnded_streams h l)
  · rw [State.endVerdict_late (by rw [State.laneEnded_streams, hst]) (by rwa [State.laneEnded_now]), State.effects_streams,
      State.lateDiscard_count, State.laneEnded_streams, State.laneEnded, State.count1,
      State.effects_counter _ _ _ (show 0x10 ≠ 5 by decide) rfl]
    exact ⟨rfl, rfl⟩

end Sys2Proof.Machine
end

section
open Sys2Proof.Machine

/-- Settles O45: the cutoff fixes a verdict's inputs, the lane's start takes it, and its program's end stands or is late. -/
theorem verdicts : Obligations.Verdicts := by
  unfold Obligations.Verdicts
  intro s
  refine ⟨fun j st hf hst => ⟨fun hc => ?_, fun x p hc hj hx hp => tokenCutoffClause hf hst hc hj hx hp,
    fun v p hc hj hv hp => segmentCutoffClause hf hst hc hj hv hp⟩, fun h l hl => laneStart_idle hl,
    fun h l j hr hq => laneStartClauses hr hq, fun h l r hat => bridleEndClause hat⟩
  rw [exec_verdictCutoff hf hst, if_pos hc]

end

section
/-! SUPPORT. Sending a packet leaves every latched notice latched (R404). -/

namespace Sys2Proof.Machine

variable {s : State} {code : Nat}

theorem foldl_latched {α : Type} (f : State → α → State) (hf : ∀ s a, s.latched code = true → (f s a).latched code = true)
    (l : List α) (h : s.latched code = true) : (l.foldl f s).latched code = true := by
  induction l generalizing s with
  | nil => exact h
  | cons a l ih => exact ih (hf s a h)

@[simp] theorem State.countN_latched (h : s.latched code = true) (g i p n : Nat) : (s.countN g i p n).latched code = true :=
  s.effects_latched _ code h

@[simp] theorem State.violation_latched (h : s.latched code = true) (slot : BitVec 24) (edge : Byte) :
    (s.violation slot edge).latched code = true := s.effects_latched _ code h

@[simp] theorem State.linkRecord_latched (h : s.latched code = true) (kind : Nat) (link : Byte) (peer : NodeId) (slot lane : Nat) :
    (s.linkRecord kind link peer slot lane).latched code = true := s.effects_latched _ code h

@[simp] theorem State.sendRouted_latched (h : s.latched code = true) (dest : NodeId) (port : Byte) (hd : BitVec 48) (b : List Byte) :
    (s.sendRouted dest port hd b).latched code = true := by
  unfold State.sendRouted
  split <;> simp [h]

@[simp] theorem State.branchGap_latched (h : s.latched code = true) (g : Nat) (k : LinkId) : (s.branchGap g k).latched code = true := by
  unfold State.branchGap
  split <;> exact h

@[simp] theorem State.reportMiss_latched (h : s.latched code = true) (g : Nat) (p : Packet) (reason : Nat) (m : BitVec 256) :
    (s.reportMiss g p reason m).latched code = true := by
  unfold State.reportMiss
  split
  · split
    · exact State.count1_latched h _ _ _
    · exact h
  · exact State.sendRouted_latched h _ _ _ _

@[simp] theorem State.branchMiss_latched (h : s.latched code = true) (g : Nat) (k : LinkId) (p : Packet) (m : BitVec 256) :
    (s.branchMiss g k p m).latched code = true :=
  State.reportMiss_latched (State.branchGap_latched (State.count1_latched h ..) ..) ..

@[simp] theorem State.copyTo_latched (h : s.latched code = true) (g : Nat) (p : Packet) (b : GroupBranch) (start : Nat) :
    (s.copyTo g p b start).latched code = true := by
  unfold State.copyTo
  dsimp only
  split
  · exact State.reportMiss_latched (State.branchGap_latched (State.count1_latched h ..) ..) ..
  split
  · repeat' split
    all_goals simp [h]
  split
  · simp [h]
  split
  · exact State.enqueueLink_latched (s := { s with plane := { s.plane with gapBranch := s.plane.gapBranch.filter (fun x => x ≠ (g, b.out)) } }) h ..
  split <;> simp [h]

@[simp] theorem State.localCopy_latched (h : s.latched code = true) (g : Nat) (a : Arrival) : (s.localCopy g a).latched code = true := by
  unfold State.localCopy
  exact State.deliver_latched (s := { s with plane := { s.plane with groupLast := aset g _ s.plane.groupLast } }) h _

@[simp] theorem State.toFunction_latched (s : State) (a : Arrival) (code : Nat) : (s.toFunction a).latched code = s.latched code := rfl

@[simp] theorem State.replicate_latched (h : s.latched code = true) (a : Arrival) (start : Nat) :
    (s.replicate a start).latched code = true := by
  unfold State.replicate
  dsimp only
  split
  · exact State.count1_latched h _ _ _
  · next e _ =>
    have hcopies := foldl_latched _ (fun t b ht => State.copyTo_latched ht a.pkt.hdr.dest.toNat a.pkt b start) e.branches h
    repeat' split
    · exact hcopies
    · exact State.localCopy_latched hcopies _ _
    · exact hcopies

@[simp] theorem State.oweCompletion_latched (h : s.latched code = true) (a : Arrival) : (s.oweCompletion a).latched code = true := by
  unfold State.oweCompletion
  dsimp only
  repeat' split
  all_goals exact h

@[simp] theorem State.class0Out_latched (h : s.latched code = true) (e : SlotEntry) (a : Arrival) :
    (s.class0Out e a).latched code = true := by
  unfold State.class0Out
  dsimp only
  repeat' split
  all_goals simp [h]

@[simp] theorem State.sendClass0_latched (h : s.latched code = true) (dest : NodeId) (port : Byte) (mc : Bool) (hd : BitVec 48)
    (b : List Byte) (lat : Nat) : (s.sendClass0 dest port mc hd b lat).latched code = true := by
  unfold State.sendClass0
  dsimp only
  repeat' split
  all_goals simp [h]

end Sys2Proof.Machine
end

section
/-! The callipers: slices, probe items, MLP results and probe records (R274, R278 to R284, R288, R293). -/

namespace Sys2Proof.Machine

variable {s t u : State} {h : HalfId} {i : ProbeItem} {p : Policy} {b : CallipersTables} {tp : TapDecl} {d : ProbeDecl}

/-! ### Slices (R274, R293) -/

theorem State.discardSlice_callipers (s : State) (tap pass tick : Nat) :
    (s.discardSlice tap pass tick).eng = { s.eng with callipers := s.eng.callipers.finish tap pass } := State.effects_eng ..

theorem State.discardSlice_quiet (s : State) (tap pass tick : Nat) :
    { (s.discardSlice tap pass tick).quiet with eng := s.eng } = s.quiet := by
  rw [State.discardSlice, State.effects_quiet]
  rfl

theorem sliceTimeoutClause {x : Slice} (hx : s.eng.callipers.slices.find? (fun x => decide (x.due ≤ s.now)) = some x) :
    ∃ t, exec .tapSliceTimeout s = .next t ∧ t.eng.callipers = s.eng.callipers.finish x.tap x.pass ∧ t.latched 9 = true ∧
      (∀ y ∈ t.eng.callipers.slices, y ∈ s.eng.callipers.slices ∧ ¬ (y.tap = x.tap ∧ y.pass = x.pass)) ∧
      t.eng.callipers.items = s.eng.callipers.items ∧ { t.quiet with eng := s.eng } = s.quiet := by
  have hrun : sliceTimeout s = s.discardSlice x.tap x.pass x.due := by
    unfold sliceTimeout
    rw [hx]
  refine ⟨_, congrArg Host.Outcome.next hrun, by rw [State.discardSlice_callipers],
    State.effects_raises _ _ 9 _ (List.mem_cons_of_mem _ List.mem_cons_self), ?_, ?_, State.discardSlice_quiet ..⟩
  · rw [State.discardSlice_callipers]
    intro y hy
    obtain ⟨hmem, hkept⟩ := List.mem_filter.1 hy
    exact ⟨hmem, fun ⟨htap, hpass⟩ => by simp [htap, hpass] at hkept⟩
  · rw [State.discardSlice_callipers]
    rfl

theorem sliceTimeout_idle (hn : ∀ x ∈ s.eng.callipers.slices, s.now < x.due) : exec .tapSliceTimeout s = .next s := by
  have hnone : s.eng.callipers.slices.find? (fun x => decide (x.due ≤ s.now)) = none :=
    List.find?_eq_none.2 fun x hx => by simpa using hn x hx
  refine congrArg Host.Outcome.next ?_
  unfold sliceTimeout
  rw [hnone]

/-! ### A result (R40, R41) -/

section
variable (s i) (ws : Option (List Word)) (late poison : Bool)

/-- A result counts at most, beside the engines. -/
theorem State.itemDone_quiet (e : Engines) : { (s.itemDone i ws late poison).quiet with eng := e } = { s.quiet with eng := e } := by
  unfold State.itemDone
  split
  · rw [State.effects_quiet]
    rfl
  · split
    · rw [State.effects_quiet]
      rfl
    · rfl

theorem State.itemDone_grid : (s.itemDone i ws late poison).grid = s.grid := by
  have := congrArg State.grid (s.itemDone_quiet i ws late poison {})
  exact this

theorem State.itemDone_streams : (s.itemDone i ws late poison).streams = s.streams := by
  have := congrArg State.streams (s.itemDone_quiet i ws late poison {})
  exact this

theorem State.itemDone_latched {code : Nat} (h : s.latched code = true) : (s.itemDone i ws late poison).latched code = true := by
  unfold State.itemDone
  split
  · exact State.effects_latched _ _ _ h
  · split
    · exact State.effects_latched _ _ _ h
    · exact h

/-- The items after a result: of one already released the item is gone, at its release tick or later it is done without scores, and
in time it holds them. -/
theorem State.itemDone_items :
    (i.released = true → (s.itemDone i ws late poison).eng.callipers.items = s.eng.callipers.items.filter (fun x => x ≠ i)) ∧
    (i.released = false → i.release ≤ s.now → (s.itemDone i ws late poison).eng.callipers.items =
      s.eng.callipers.items.map (fun x => if x = i then { x with done := true, mlpWait := false } else x)) ∧
    (i.released = false → s.now < i.release → (s.itemDone i ws late poison).eng.callipers.items =
      s.eng.callipers.items.map (fun x => if x = i then
        { x with done := true, mlpWait := false, scores := if poison then none else ws, late := late, poison := poison } else x)) := by
  unfold State.itemDone
  refine ⟨fun hr => ?_, fun hr hl => ?_, fun hr hl => ?_⟩
  · rw [if_pos hr, State.effects_eng]
    rfl
  · rw [if_neg (by simp [hr]), if_pos hl, State.effects_eng]
    rfl
  · rw [if_neg (by simp [hr]), if_neg (Nat.not_le.2 hl)]
    rfl

end

/-! ### The item whose unit is done first (R278 to R281) -/

/-- The first-layer outputs of an item's probe on its row. -/
def State.firstOutputs (s : State) (i : ProbeItem) (p : Policy) (tp : TapDecl) (d : ProbeDecl) : List Word :=
  firstLayer (s.storeSlot (halfOf i.south) p.cellSlot).weights d ((convertRow tp d.actFmt i.row.data).map (fun x => x.1))

theorem probeItemDone_none (hn : s.nextItem (decide (h = .south)) = none) : exec (.probeItemDone h) s = .next s := by
  refine congrArg Host.Outcome.next ?_
  unfold probeItemDone
  rw [hn]

section
variable (hi : s.nextItem (decide (h = .south)) = some i) (hp : s.probeOf i = some (p, b, tp, d))
include hi hp

theorem probeItemDone_poisoned {w : Nat} (hw : s.weightPoison i.south p d tp.elements = some w) :
    probeItemDone h s = ((s.count1 0x0D 0 7).effects (poisonRead 3 0 w s.now)).itemDone i none false true := by
  have hw' : (s.count1 0x0D 0 7).weightPoison i.south p d tp.elements = some w := by
    rw [State.weightPoison, State.count1, State.effects_rel]
    exact hw
  unfold probeItemDone
  simp only [hi, hp, hw']

theorem probeItemDone_clean (hw : s.weightPoison i.south p d tp.elements = none) :
    probeItemDone h s =
      if d.mlp then (s.count1 0x0D 0 7).sendMlp i p d (s.firstOutputs i p tp d)
      else (s.count1 0x0D 0 7).itemDone i (some ((s.firstOutputs i p tp d).map (linkApply d.link))) false false := by
  have hw' : (s.count1 0x0D 0 7).weightPoison i.south p d tp.elements = none := by
    rw [State.weightPoison, State.count1, State.effects_rel]
    exact hw
  unfold probeItemDone
  simp only [hi, hp, hw']
  rfl

end

/-- The destination of a header's cell or engine. -/
theorem hdrDest_mkHeader {kind source length handler tag : Nat} {slot : Bool} (c : BitVec 12) :
    hdrDest (mkHeader kind c.toNat false source length slot handler tag) = c.toNat := by
  have hc := c.isLt
  have hm : source % 4096 < 4096 := Nat.mod_lt _ (by decide)
  have hl : length % 16 < 16 := Nat.mod_lt _ (by decide)
  have hh : handler % 16 < 16 := Nat.mod_lt _ (by decide)
  have ht : tag % 64 < 64 := Nat.mod_lt _ (by decide)
  unfold hdrDest mkHeader
  rw [BitVec.toNat_ofNat, Nat.mod_eq_of_lt hc]
  cases slot <;> simp only [if_true, if_false, Bool.false_eq_true] <;> omega

/-- The first-layer results of an MLP's item: the item waits, and its work message is on the mesh (R280). -/
theorem State.sendMlp_spec (s : State) (i : ProbeItem) (p : Policy) (d : ProbeDecl) (ws : List Word) :
    (s.sendMlp i p d ws).eng.callipers.items = s.eng.callipers.items.map (fun x => if x = i then { x with mlpWait := true } else x) ∧
      (∃ m, (none, m) ∈ (s.sendMlp i p d ws).grid.mesh ∧ hdrDest m.header =
        ((d.cellList[i.ordinal % max 1 d.cellList.length]?).getD 0#12).toNat ∧ m.words.head? = some i.row.handle) ∧
      (s.sendMlp i p d ws).streams = s.streams :=
  ⟨rfl, ⟨_, List.mem_append_right _ (List.mem_singleton.2 rfl), hdrDest_mkHeader _, rfl⟩, rfl⟩

/-! ### The item whose unit is done -/

section
variable (hi : s.nextItem (decide (h = .south)) = some i) (hp : s.probeOf i = some (p, b, tp, d))
include hi hp

theorem probeItemMlpClause (hw : s.weightPoison i.south p d tp.elements = none) (hm : d.mlp = true) :
    ∃ t, exec (.probeItemDone h) s = .next t ∧
      t.eng.callipers.items = s.eng.callipers.items.map (fun x => if x = i then { x with mlpWait := true } else x) ∧
      (∃ m, (none, m) ∈ t.grid.mesh ∧ hdrDest m.header =
        ((d.cellList[i.ordinal % max 1 d.cellList.length]?).getD 0#12).toNat ∧ m.words.head? = some i.row.handle) ∧
      t.streams = s.streams := by
  have hrun := (probeItemDone_clean hi hp hw).trans (if_pos hm)
  obtain ⟨hitems, hmesh, hstreams⟩ := (s.count1 0x0D 0 7).sendMlp_spec i p d (s.firstOutputs i p tp d)
  refine ⟨_, congrArg Host.Outcome.next hrun, hitems.trans ?_, hmesh, hstreams.trans (State.effects_streams ..)⟩
  rw [State.count1, State.effects_eng]

/-- An item whose scores are there, or whose weights are poisoned. -/
theorem probeItemDone_result (hw : s.weightPoison i.south p d tp.elements ≠ none ∨ d.mlp = false) :
    ∃ u, probeItemDone h s = State.itemDone u i
        (if (s.weightPoison i.south p d tp.elements).isSome then none else some ((s.firstOutputs i p tp d).map (linkApply d.link)))
        false (s.weightPoison i.south p d tp.elements).isSome ∧
      u.quiet = s.quiet ∧ (s.weightPoison i.south p d tp.elements ≠ none → u.latched 19 = true) := by
  cases hq : s.weightPoison i.south p d tp.elements with
  | some w =>
    refine ⟨_, probeItemDone_poisoned hi hp hq, ?_, fun _ =>
      State.effects_raises _ _ 19 _ (List.mem_cons_of_mem _ List.mem_cons_self)⟩
    rw [State.effects_quiet, State.count1, State.effects_quiet]
  | none =>
    have hm : d.mlp = false := hw.resolve_left (not_not_intro hq)
    exact ⟨_, (probeItemDone_clean hi hp hq).trans (if_neg (by simp [hm])), State.effects_quiet .., fun hne => absurd rfl hne⟩

theorem probeItemResultClause (hw : s.weightPoison i.south p d tp.elements ≠ none ∨ d.mlp = false) :
    ∃ t, exec (.probeItemDone h) s = .next t ∧ { t.quiet with eng := s.eng } = s.quiet ∧
      (s.weightPoison i.south p d tp.elements ≠ none → t.latched 19 = true) ∧
      (i.released = true → t.eng.callipers.items = s.eng.callipers.items.filter (fun x => x ≠ i)) ∧
      (i.released = false → i.release ≤ s.now →
        t.eng.callipers.items = s.eng.callipers.items.map (fun x => if x = i then { x with done := true, mlpWait := false } else x)) ∧
      (i.released = false → s.now < i.release → s.weightPoison i.south p d tp.elements ≠ none → t.eng.callipers.items =
        s.eng.callipers.items.map (fun x => if x = i then
          { x with done := true, mlpWait := false, scores := none, late := false, poison := true } else x)) ∧
      (i.released = false → s.now < i.release → s.weightPoison i.south p d tp.elements = none → t.eng.callipers.items =
        s.eng.callipers.items.map (fun x => if x = i then
          { x with done := true, mlpWait := false, scores := some ((s.firstOutputs i p tp d).map (linkApply d.link)),
                   late := false, poison := false } else x)) := by
  obtain ⟨u, hrun, hquiet, hlatched⟩ := probeItemDone_result hi hp hw
  have heng : u.eng = s.eng := State.of_quiet State.eng (fun _ => rfl) hquiet
  have hnow : u.now = s.now := State.of_quiet State.now (fun _ => rfl) hquiet
  obtain ⟨hgone, hlate, htime⟩ := u.itemDone_items i
    (if (s.weightPoison i.south p d tp.elements).isSome then none else some ((s.firstOutputs i p tp d).map (linkApply d.link)))
    false (s.weightPoison i.south p d tp.elements).isSome
  rw [heng, hnow] at *
  refine ⟨_, congrArg Host.Outcome.next hrun, ?_, fun hne => State.itemDone_latched _ _ _ _ _ (hlatched hne), hgone, hlate,
    fun hr hl hne => ?_, fun hr hl hn => ?_⟩
  · rw [State.itemDone_quiet, hquiet]
    rfl
  · have hs : (s.weightPoison i.south p d tp.elements).isSome = true := Option.isSome_iff_ne_none.2 hne
    rw [htime hr hl]
    simp only [hs, if_true]
  · rw [htime hr hl]
    simp only [hn, Option.isSome_none, Bool.false_eq_true, if_false]

end

/-! ### MLP results (R280) -/

theorem State.takeMesh_eq {f : Msg → Bool} {m : Msg} (hm : s.takeMesh f = some (m, u)) :
    ∃ l, u = { s with grid := { s.grid with mesh := l } } := by
  unfold State.takeMesh at hm
  split at hm
  · obtain ⟨-, rfl⟩ := Prod.mk.inj (Option.some.inj hm)
    exact ⟨_, rfl⟩
  · cases hm

/-- Whether an item waits for the result that a message brings. -/
def State.awaits (s : State) (h : HalfId) (m : Msg) (x : ProbeItem) : Bool :=
  x.mlpWait && decide (halfOf x.south = h) && decide (x.row.handle.toNat = ((m.words[0]?).getD 0#64).toNat)
    && decide (x.row.tokenIndex = ((m.words[1]?).getD 0#64).toNat % 2 ^ 32) && (s.probeOf x).any (fun e =>
      decide ((e.2.2.2.cellList[x.ordinal % max 1 e.2.2.2.cellList.length]?).map (fun c => c.toNat) = some (hdrSource m.header)))

/-- The scores that a message brings, with free words where it has fewer. -/
def State.givenScores (s : State) (m : Msg) (d : ProbeDecl) : List Word × State :=
  s.fillFree d.scores ((List.range (min d.scores (2 * (m.words.length - 2)))).map (fun n =>
    BitVec.ofNat 32 (((m.words[2 + n / 2]?).getD 0#64).toNat / 2 ^ (32 * (n % 2)))))

theorem State.givenScores_length (s : State) (m : Msg) (d : ProbeDecl) : d.scores ≤ (s.givenScores m d).1.length := by
  simp [State.givenScores, State.fillFree]

section
variable {m : Msg}
  (hm : s.takeMesh (fun m => hdrToEngine m.header && decide (hdrDest m.header = callipersPort h)) = some (m, u))
include hm

theorem mlpResult_other (hk : hdrKind m.header ≠ 0) : mlpResult h s = u := by
  unfold mlpResult
  simp only [hm]
  exact if_pos hk

/-- The item that a result is for, as the command finds it. -/
theorem mlpResult_find (hk : hdrKind m.header = 0) :
    (u.eng.callipers.items.find? (u.awaits h m) = none → mlpResult h s = u) ∧
    (∀ i p b tp d, u.eng.callipers.items.find? (u.awaits h m) = some i → u.probeOf i = some (p, b, tp, d) →
      mlpResult h s = State.itemDone (u.givenScores m d).2 i (some ((u.givenScores m d).1.map (linkApply d.link)))
        (((m.words[1]?).getD 0#64).toNat.testBit 32) (((m.words[1]?).getD 0#64).toNat.testBit 33)) := by
  refine ⟨fun hn => ?_, fun i p b tp d hi hp => ?_⟩
  all_goals
    unfold mlpResult
    simp only [hm]
    rw [if_neg (not_not_intro hk), List.find?_congr (p₂ := u.awaits h m) fun x _ => ?_]
  · rw [hn]
  · unfold State.awaits
    cases u.probeOf x <;> rfl
  · simp only [hi, hp]
    rfl
  · unfold State.awaits
    cases u.probeOf x <;> rfl

end

/-- What an MLP's result makes of the item that waits for it. -/
theorem mlpResultClause {m : Msg}
    (hm : s.takeMesh (fun m => hdrToEngine m.header && decide (hdrDest m.header = callipersPort h)) = some (m, u))
    (hk : hdrKind m.header = 0) (hi : s.eng.callipers.items.find? (s.awaits h m) = some i) (hp : s.probeOf i = some (p, b, tp, d)) :
    ∃ t ws, exec (.mlpResult h) s = .next t ∧ t.grid = u.grid ∧ t.streams = s.streams ∧ d.scores ≤ ws.length ∧
      (i.released = true → t.eng.callipers.items = s.eng.callipers.items.filter (fun x => x ≠ i)) ∧
      (i.released = false → s.now < i.release → t.eng.callipers.items = s.eng.callipers.items.map (fun x => if x = i then
        { x with done := true, mlpWait := false, scores := if ((m.words[1]?).getD 0#64).toNat.testBit 33 then none else some ws,
                 late := ((m.words[1]?).getD 0#64).toNat.testBit 32, poison := ((m.words[1]?).getD 0#64).toNat.testBit 33 } else x)) ∧
      (i.released = false → i.release ≤ s.now → t.eng.callipers.items =
        s.eng.callipers.items.map (fun x => if x = i then { x with done := true, mlpWait := false } else x)) := by
  obtain ⟨l, rfl⟩ := State.takeMesh_eq hm
  have hrun := (mlpResult_find hm hk).2 i p b tp d hi hp
  obtain ⟨hgone, hlate, htime⟩ := State.itemDone_items (State.givenScores { s with grid := { s.grid with mesh := l } } m d).2 i
    (some ((State.givenScores { s with grid := { s.grid with mesh := l } } m d).1.map (linkApply d.link)))
    (((m.words[1]?).getD 0#64).toNat.testBit 32) (((m.words[1]?).getD 0#64).toNat.testBit 33)
  refine ⟨_, _, congrArg Host.Outcome.next hrun, ?_, ?_, ?_, hgone, htime, hlate⟩
  · rw [State.itemDone_grid]
    rfl
  · rw [State.itemDone_streams]
    rfl
  · rw [List.length_map]
    exact State.givenScores_length ..

/-! ### The release of probe records (R283, R284, R288) -/

/-- The items that leave at a release tick. -/
def ProbeItem.dueAt (n : Nat) (i : ProbeItem) : Bool := !i.released && decide (i.release = n)

def State.dueItems (s : State) (n : Nat) : List ProbeItem := s.eng.callipers.items.filter (ProbeItem.dueAt n)

/-- The callipers with the items of a release tick marked released. -/
def State.markReleased (s : State) (n : Nat) : State :=
  s.mapItems (fun i => if i.dueAt n then { i with released := true } else i)

/-- The callipers without the released items that are done. -/
def State.dropReleased (s : State) : State :=
  s.setCal { s.eng.callipers with items := s.eng.callipers.items.filter (fun i => !(i.released && i.done)) }

/-- The records of a release tick with their home gates. -/
def State.dueRecords (s : State) (n : Nat) : List (NodeId × List Byte) := ((s.dueItems n).map s.releaseItem).flatMap (fun x => x.1)

/-- What the release of a tick's items counts. -/
def State.dueEffects (s : State) (n : Nat) : List Effect := ((s.dueItems n).map s.releaseItem).flatMap (fun x => x.2)

theorem foldl_min_release {n a : Nat} (l : List ProbeItem) (hle : n ≤ a) (hall : ∀ i ∈ l, n ≤ i.release)
    (hat : a = n ∨ ∃ i ∈ l, i.release = n) : l.foldl (fun m i => min m i.release) a = n := by
  induction l generalizing a with
  | nil => simpa using hat
  | cons x l ih =>
    have hx := hall x List.mem_cons_self
    refine ih (Nat.le_min.2 ⟨hle, hx⟩) (fun i hi => hall i (List.mem_cons_of_mem _ hi)) ?_
    rcases hat with rfl | ⟨i, hi, rfl⟩
    · exact .inl (Nat.min_eq_left hx)
    · rcases List.mem_cons.1 hi with rfl | hi
      · exact .inl (Nat.min_eq_right hle)
      · exact .inr ⟨i, hi, rfl⟩

/-- A tick's items leave: the records by home gate, after what they count. -/
def State.releaseTick (s : State) (n lat : Nat) : State :=
  ((s.dueRecords n).map (fun x => x.1)).eraseDups.foldl (fun t h =>
      t.sendRecords n h (((s.dueRecords n).filter (fun x => x.1 = h)).map (fun x => x.2)) lat)
    ((s.markReleased n).dropReleased.effects (s.dueEffects n))

theorem probeRelease_due {n : Nat} (hex : ∃ i ∈ s.eng.callipers.items, i.released = false ∧ i.release = n)
    (hmin : ∀ i ∈ s.eng.callipers.items, i.released = false → n ≤ i.release) (hn : n ≤ s.now) :
    ∃ lat, probeRelease s = s.releaseTick n lat := by
  unfold probeRelease
  dsimp only
  have hdue : (s.eng.callipers.items.filter (fun i => !i.released && decide (i.release ≤ s.now))).filter
      (fun i => decide (i.release = n)) = s.dueItems n := by
    rw [List.filter_filter]
    refine List.filter_congr fun i _ => ?_
    unfold ProbeItem.dueAt
    by_cases h : i.release = n
    · simp [h, hn]
    · simp [h]
  split
  · next hw =>
    obtain ⟨i, hi, hr, hin⟩ := hex
    have := List.filter_eq_nil_iff.1 hw i hi
    simp [hr, hin, hn] at this
  · next w ws hw =>
    have hwait : ∀ i ∈ w :: ws, i ∈ s.eng.callipers.items ∧ i.released = false := fun i hi => by
      rw [← hw] at hi
      have := List.mem_filter.1 hi
      simp_all
    have htick : ws.foldl (fun m i => min m i.release) w.release = n := by
      refine foldl_min_release ws (hmin w (hwait w List.mem_cons_self).1 (hwait w List.mem_cons_self).2)
        (fun i hi => hmin i (hwait i (List.mem_cons_of_mem _ hi)).1 (hwait i (List.mem_cons_of_mem _ hi)).2) ?_
      obtain ⟨i, hi, hr, hin⟩ := hex
      have hmem : i ∈ w :: ws := hw ▸ List.mem_filter.2 ⟨hi, by simp [hr, hin, hn]⟩
      rcases List.mem_cons.1 hmem with rfl | hmem
      · exact .inl hin
      · exact .inr ⟨i, hmem, hin⟩
    have hmark : (s.mapItems fun i => if (s.dueItems n).contains i then { i with released := true } else i) = s.markReleased n := by
      refine congrArg (fun l => s.setCal { s.eng.callipers with items := l }) (List.map_congr_left fun i hi => ?_)
      have hiff : (s.dueItems n).contains i = i.dueAt n := by
        rw [Bool.eq_iff_iff, List.contains_iff_mem, State.dueItems, List.mem_filter]
        exact and_iff_right hi
      rw [hiff]
    rw [htick, hdue, hmark]
    exact ⟨_, rfl⟩

/-! ### Sending the records (R284) -/

section
variable (s) (n : Nat) (r : List Byte)

@[simp] theorem State.takeProbe_offStreams (node : NodeId) : (s.takeProbe n node r).offStreams = s.offStreams := by
  unfold State.takeProbe
  dsimp only
  split
  · exact State.effects_offStreams ..
  · split
    · rfl
    · exact State.streamWord_offStreams ..
    · rw [State.streamWord_offStreams, State.effects_offStreams]

@[simp] theorem State.takeProbe_eng (node : NodeId) : (s.takeProbe n node r).eng = s.eng := by
  unfold State.takeProbe
  dsimp only
  split
  · exact State.effects_eng ..
  · split
    · rfl
    · exact State.streamWord_eng ..
    · rw [State.streamWord_eng, State.effects_eng]

end

theorem State.streamWord_latched (s : State) (k : SlotId) (i n code : Nat) : (s.streamWord k i n).latched code = s.latched code := by
  unfold State.streamWord
  split <;> rfl

theorem State.takeProbe_latched {code : Nat} (hl : s.latched code = true) (n : Nat) (node : NodeId) (r : List Byte) :
    (s.takeProbe n node r).latched code = true := by
  unfold State.takeProbe
  dsimp only
  split
  · exact State.count1_latched hl ..
  · split
    · exact hl
    · rwa [State.streamWord_latched]
    · rw [State.streamWord_latched]
      exact State.effects_latched _ _ _ hl

@[simp] theorem State.sendClass0_offStreams (s : State) (dest : NodeId) (port : Byte) (mc : Bool) (hd : BitVec 48) (b : List Byte)
    (lat : Nat) : (s.sendClass0 dest port mc hd b lat).offStreams = s.offStreams :=
  State.offStreams_of_inside (State.sendClass0_inside ..)

@[simp] theorem State.sendClass0_eng (s : State) (dest : NodeId) (port : Byte) (mc : Bool) (hd : BitVec 48) (b : List Byte) (lat : Nat) :
    (s.sendClass0 dest port mc hd b lat).eng = s.eng :=
  State.of_inside State.eng (fun _ => rfl) (State.sendClass0_inside ..)

/-- What every step of a fold keeps, the fold keeps. -/
theorem foldl_keeps {α β : Type} (f : State → α → State) (g : State → β) (hf : ∀ s a, g (f s a) = g s) (l : List α) (s : State) :
    g (l.foldl f s) = g s := by
  induction l generalizing s with
  | nil => rfl
  | cons a l ih => rw [List.foldl_cons, ih, hf]

section
variable (s) (n : Nat) (home : NodeId) (rs : List (List Byte)) (lat : Nat)

@[simp] theorem State.sendRecords_offStreams : (s.sendRecords n home rs lat).offStreams = s.offStreams := by
  unfold State.sendRecords
  split
  · exact foldl_keeps _ State.offStreams (fun t r => t.takeProbe_offStreams n r s.aon.node) rs s
  · exact foldl_keeps _ State.offStreams (fun t g => t.sendClass0_offStreams ..) _ s

@[simp] theorem State.sendRecords_eng : (s.sendRecords n home rs lat).eng = s.eng := by
  unfold State.sendRecords
  split
  · exact foldl_keeps _ State.eng (fun t r => t.takeProbe_eng n r s.aon.node) rs s
  · exact foldl_keeps _ State.eng (fun t g => t.sendClass0_eng ..) _ s

theorem State.sendRecords_latched {code : Nat} (hl : s.latched code = true) : (s.sendRecords n home rs lat).latched code = true := by
  unfold State.sendRecords
  split
  · exact foldl_latched _ (fun t r ht => State.takeProbe_latched ht n s.aon.node r) rs hl
  · exact foldl_latched _ (fun t g ht => State.sendClass0_latched ht ..) _ hl

/-- Records of another gate's streams leave in packets. -/
theorem State.sendRecords_inside (hne : home ≠ s.aon.node) : (s.sendRecords n home rs lat).inside = s.inside := by
  unfold State.sendRecords
  rw [if_neg hne]
  exact foldl_inside _ (fun t g => t.sendClass0_inside ..) _ s

end

theorem State.releaseTick_eng (s : State) (n lat : Nat) : (s.releaseTick n lat).eng = (s.markReleased n).dropReleased.eng := by
  unfold State.releaseTick
  rw [foldl_keeps _ State.eng fun t h => t.sendRecords_eng n h _ lat, State.effects_eng]

theorem State.releaseTick_offStreams (s : State) (n lat : Nat) :
    { (s.releaseTick n lat).offStreams with eng := s.eng } = s.offStreams := by
  unfold State.releaseTick
  rw [foldl_keeps _ State.offStreams fun t h => t.sendRecords_offStreams n h _ lat, State.effects_offStreams]
  rfl

/-- A missing result of a known probe is a late default (R57, R288). -/
theorem State.releaseTick_latched {n : Nat} {lat : Nat}
    (hx : ∃ i ∈ s.eng.callipers.items, i.dueAt n = true ∧ i.scores = none ∧ (s.probeOf i).isSome = true) :
    (s.releaseTick n lat).latched 2 = true := by
  obtain ⟨i, hi, hdue, hscores, hprobe⟩ := hx
  obtain ⟨⟨p, b, tp, d⟩, hp⟩ := Option.isSome_iff_exists.1 hprobe
  have hlate : ∃ x, Effect.notice 2 x ∈ (s.releaseItem i).2 := by
    unfold State.releaseItem
    simp only [hp, hscores]
    exact ⟨_, List.mem_append_right _ (List.mem_cons_of_mem _ List.mem_cons_self)⟩
  obtain ⟨x, hx⟩ := hlate
  have hmem : Effect.notice 2 x ∈ s.dueEffects n :=
    List.mem_flatMap.2 ⟨_, List.mem_map_of_mem (List.mem_filter.2 ⟨hi, hdue⟩), hx⟩
  unfold State.releaseTick
  exact foldl_latched _ (fun t h ht => State.sendRecords_latched _ _ _ _ _ ht) _ (State.effects_raises _ _ 2 x hmem)

/-- A record goes to the gate that its handle names. -/
theorem State.releaseItem_home (s : State) (i : ProbeItem) :
    ∀ x ∈ (s.releaseItem i).1, x.1 = BitVec.ofNat 12 (i.row.handle.toNat / 2 ^ 36) := by
  unfold State.releaseItem
  split
  · nofun
  · dsimp only
    split
    all_goals
      intro x hx
      rw [List.mem_singleton.1 hx]

/-- Records for other gates alone leave no contribution here. -/
theorem foldl_sendRecords_inside (rs : NodeId → List (List Byte)) (n lat : Nat) {homes : List NodeId} (haon : t.aon = s.aon)
    (hne : ∀ h ∈ homes, h ≠ s.aon.node) : (homes.foldl (fun t h => t.sendRecords n h (rs h) lat) t).inside = t.inside := by
  induction homes generalizing t with
  | nil => rfl
  | cons h hs ih =>
    have hstep := State.sendRecords_inside t n h (rs h) lat (haon ▸ hne h List.mem_cons_self)
    rw [List.foldl_cons, ih ((State.of_inside State.aon (fun _ => rfl) hstep).trans haon)
      (fun x hx => hne x (List.mem_cons_of_mem _ hx)), hstep]

/-- Records that all belong to other gates leave the contributions here as they are. -/
theorem State.releaseTick_inside {n : Nat} {lat : Nat}
    (hne : ∀ i ∈ s.eng.callipers.items, i.dueAt n = true → BitVec.ofNat 12 (i.row.handle.toNat / 2 ^ 36) ≠ s.aon.node) :
    { (s.releaseTick n lat).inside with eng := s.eng } = s.inside := by
  have hhomes : ∀ h ∈ ((s.dueRecords n).map (fun x => x.1)).eraseDups, h ≠ s.aon.node := by
    intro h hh
    obtain ⟨x, hx, rfl⟩ := List.mem_map.1 (List.mem_eraseDups.1 hh)
    obtain ⟨o, ho, hxo⟩ := List.mem_flatMap.1 hx
    obtain ⟨i, hi, rfl⟩ := List.mem_map.1 ho
    obtain ⟨hmem, hdue⟩ := List.mem_filter.1 hi
    rw [s.releaseItem_home i x hxo]
    exact hne i hmem hdue
  unfold State.releaseTick
  rw [foldl_sendRecords_inside (fun h => ((s.dueRecords n).filter (fun x => x.1 = h)).map (fun x => x.2)) n lat
    (t := (s.markReleased n).dropReleased.effects (s.dueEffects n)) ((State.effects_aon ..).trans rfl) hhomes, State.effects_inside]
  rfl

theorem probeRelease_idle (hn : ∀ i ∈ s.eng.callipers.items, i.released = true ∨ s.now < i.release) :
    exec .probeRelease s = .next s := by
  have hnone : s.eng.callipers.items.filter (fun i => !i.released && decide (i.release ≤ s.now)) = [] :=
    List.filter_eq_nil_iff.2 fun i hi => by
      rcases hn i hi with h | h
      · simp [h]
      · simp [h]
  refine congrArg Host.Outcome.next ?_
  unfold probeRelease
  simp only [hnone]

end Sys2Proof.Machine
end

section
open Sys2Proof.Machine

/-- Settles O48: slices whose windows run out, units that are done, MLP results, and the release of a tick's items. -/
theorem probeItems : Obligations.ProbeItems := by
  unfold Obligations.ProbeItems
  intro s
  refine ⟨fun x hx => sliceTimeoutClause hx, sliceTimeout_idle, fun h hn => probeItemDone_none hn, ?_, ?_, ?_, probeRelease_idle⟩
  · exact fun h i p b tp d hi hp => ⟨probeItemMlpClause hi hp, probeItemResultClause hi hp⟩
  · intro h m u hm
    obtain ⟨l, hu⟩ := State.takeMesh_eq hm
    refine ⟨fun hk => congrArg Host.Outcome.next (mlpResult_other hm hk), fun hk hn => congrArg Host.Outcome.next ?_,
      fun i p b tp d hk hi hp => mlpResultClause hm hk hi hp⟩
    exact (mlpResult_find hm hk).1 (hu ▸ hn)
  · intro n hex hmin hn
    obtain ⟨lat, hrun⟩ := probeRelease_due hex hmin hn
    refine ⟨_, congrArg Host.Outcome.next hrun, ?_, State.releaseTick_latched, State.releaseTick_offStreams .., State.releaseTick_inside⟩
    rw [State.releaseTick_eng]
    rfl

end

section
/-! SUPPORT. What the work on a stream sends: nothing that left before is lost, and a notice among its effects is latched (R404). -/

namespace Sys2Proof.Machine

variable {s : State} {w : Work} {o : Out} {code : Nat}

/-! ### Kept in order -/

theorem Work.mem_put (h : o ∈ w.outs) (x : Out) : o ∈ (w.put x).outs := List.mem_append_left _ h

theorem Work.mem_putIf (h : o ∈ w.outs) (c : Prop) [Decidable c] (x : Out) : o ∈ (if c then w.put x else w).outs := by
  split
  · exact Work.mem_put h x
  · exact h

theorem Work.mem_effect (h : o ∈ w.outs) (es : List Effect) : o ∈ (w.effect es).outs := Work.mem_put h _

theorem Work.mem_effect_self (w : Work) (es : List Effect) : Out.effects es ∈ (w.effect es).outs :=
  List.mem_append_right _ (List.mem_singleton.2 rfl)

theorem Work.mem_glob (h : o ∈ w.outs) (group index pos n : Nat) : o ∈ (w.glob group index pos n).outs := by
  unfold Work.glob
  split
  · exact h
  · exact Work.mem_effect h _

theorem Work.mem_word (h : o ∈ w.outs) (i n : Nat) : o ∈ (w.word i n).outs := by
  unfold Work.word
  dsimp only
  split
  · exact h
  · split
    · refine Work.mem_effect ?_ _
      exact h
    · exact h

theorem Work.mem_audit (h : o ∈ w.outs) (r : AuditRec) : o ∈ (w.audit r).outs := by
  unfold Work.audit
  dsimp only
  generalize hx : Work.glob _ 0x0F 0 12 1 = x
  have hmem : o ∈ x.outs := by
    rw [← hx]
    refine Work.mem_glob ?_ ..
    exact h
  split
  · exact hmem
  · exact Work.mem_putIf hmem _ _

theorem Work.mem_atBoundary (h : o ∈ w.outs) : o ∈ w.atBoundary.outs := by
  have hfold : ∀ (l : List (Nat × Nat)) (v : Work), o ∈ v.outs → o ∈ (l.foldl (fun v e => v.word e.1 e.2) v).outs := by
    intro l
    induction l with
    | nil => exact fun v hv => hv
    | cons e l ih => exact fun v hv => ih _ (Work.mem_word hv ..)
  exact hfold _ _ h

theorem Work.mem_sendEnd (h : o ∈ w.outs) (n : Nat) : o ∈ (w.sendEnd n).outs := by
  unfold Work.sendEnd
  dsimp only
  split
  · exact h
  · exact Work.mem_put h _

theorem Work.mem_halt (h : o ∈ w.outs) (r : Nat) : o ∈ (w.halt r).outs := by
  unfold Work.halt
  dsimp only
  split
  · exact h
  · refine Work.mem_sendEnd (Work.mem_put (Work.mem_put ?_ _) _) _
    exact Work.mem_atBoundary h

theorem Work.mem_close (h : o ∈ w.outs) : o ∈ w.close.outs := by
  unfold Work.close
  refine Work.mem_put (Work.mem_audit (Work.mem_put (Work.mem_word ?_ ..) _) _) _
  exact Work.mem_atBoundary h

theorem Work.closeHalted_cases (w : Work) : w.closeHalted = w ∨ w.st.state = .halted ∧ w.closeHalted = w.close := by
  unfold Work.closeHalted
  split
  · next hs =>
    split
    · exact .inr ⟨hs, rfl⟩
    · exact .inl rfl
  · exact .inl rfl

theorem Work.mem_closeHalted (h : o ∈ w.outs) : o ∈ w.closeHalted.outs := by
  rcases w.closeHalted_cases with hc | ⟨-, hc⟩
  · rwa [hc]
  · rw [hc]
    exact Work.mem_close h

/-! ### Sent -/

@[simp] theorem State.enterGroup_latched (h : s.latched code = true) (a : Arrival) : (s.enterGroup a).latched code = true := by
  unfold State.enterGroup
  dsimp only
  split
  · exact State.count1_latched h ..
  · refine State.replicate_latched (State.oweCompletion_latched ?_ _) ..
    exact h

@[simp] theorem State.commitToken_latched (h : s.latched code = true) (tenant bytes : Nat) :
    (s.commitToken tenant bytes).latched code = true := by
  unfold State.commitToken
  dsimp only
  split
  · exact State.effects_latched _ _ _ h
  · exact State.count1_latched (State.effects_latched _ _ _ h) ..
  · exact State.effects_latched _ _ _ h

theorem State.sendOut_latched (h : s.latched code = true) (k : SlotId) (p : Option Policy) (st : Stream) (o : Out) :
    (s.sendOut k p st o).latched code = true := by
  unfold State.sendOut
  cases o with
  | effects es => exact State.effects_latched _ _ _ h
  | record b => exact State.enterWindow_latched h _
  | event b => exact State.sendEvent_latched h ..
  | halt g q b =>
    have hgroup : ∀ n, ((s.sendGroup n 7#3 0xD4#8 st.handle b).count1 0x0F 0 10).latched code = true := fun n =>
      State.count1_latched (State.enterGroup_latched h _) ..
    cases g <;> cases q
    · exact h
    · exact State.writeItem_latched h ..
    · exact hgroup _
    · exact State.writeItem_latched (hgroup _) ..
  | notice g port b => exact State.count1_latched (State.sendClass0_latched h ..) ..
  | audit q bodies index =>
    dsimp only
    split
    · exact State.effects_latched _ _ _ h
    · exact State.effects_latched _ _ _ h
  | commit n => exact State.commitToken_latched h ..
  | purge => exact h
  | dropItems => exact h

/-- A notice among what a boundary sends is latched. -/
theorem Work.run_latched {es : List Effect} {d : List Byte} (ho : Out.effects es ∈ w.outs) (hn : Effect.notice code d ∈ es)
    (s : State) : (w.run s).latched code = true := by
  have hmono : ∀ (l : List Out) (t : State), t.latched code = true →
      (l.foldl (fun t o => t.sendOut w.env.slot w.env.policy w.st o) t).latched code = true := fun l t ht =>
    foldl_latched _ (fun t o ht => State.sendOut_latched ht ..) l ht
  obtain ⟨before, after, hl⟩ := List.append_of_mem ho
  unfold Work.run
  rw [hl, List.foldl_append, List.foldl_cons]
  exact hmono _ _ (State.effects_raises _ es code d hn)

/-! ### What stands after -/

theorem Work.run_table (w : Work) (s : State) : (w.run s).streams.table = aset w.env.slot w.st s.streams.table := by
  have h := congrArg (fun v : State => v.streams.table) (w.run_inside s).1
  exact h

theorem Work.run_offStreams (w : Work) (s : State) : { (w.run s).offStreams with eng := s.eng } = s.offStreams := by
  have h := congrArg State.offStreams (w.run_inside s).1
  exact h

end Sys2Proof.Machine
end

section
/-! The boundaries of an ingress stream: chunks and segment verdicts (R55, R102, R114 to R121). -/

namespace Sys2Proof.Machine

variable {s : State} {k : SlotId} {st : Stream} {p : Policy} {c : Chunk} {w : Work}

/-! ### Ends of a boundary -/

theorem Stream.ended_of_state {x : Stream} (h : x.state = st.state) : x.ended = st.ended := by
  unfold Stream.ended
  rw [h]

theorem Stream.running_of_state {x : Stream} (h : x.state = st.state) : x.running = st.running := by
  unfold Stream.running
  rw [h]

theorem Stream.running_state (h : st.running = true) : st.state = .live ∨ st.state = .holding := by
  unfold Stream.running at h
  split at h
  · next hs => exact .inl hs
  · next hs => exact .inr hs
  · cases h

theorem Work.atBoundary_state (w : Work) :
    w.atBoundary.st.state = w.st.state ∧ w.atBoundary.st.stopReason = w.st.stopReason ∧
      w.atBoundary.st.inp = { w.st.inp with seen := w.atBoundary.st.inp.seen } ∧ w.atBoundary.st.boundary = w.env.now := by
  obtain ⟨_, _, _, _, h, -⟩ := w.atBoundary_st
  rw [h]
  exact ⟨rfl, rfl, rfl, rfl⟩

/-- A HALTED stream stays so or closes; nothing else that a statement reads changes. -/
theorem Work.closeHalted_st (w : Work) :
    (w.closeHalted.st.state = w.st.state ∨ w.st.state = .halted ∧ w.closeHalted.st.state = .closed) ∧
      w.closeHalted.st.stopReason = w.st.stopReason ∧
      w.closeHalted.st.inp = { w.st.inp with seen := w.closeHalted.st.inp.seen } := by
  rcases w.closeHalted_cases with h | ⟨hs, h⟩
  · rw [h]
    exact ⟨.inl rfl, rfl, rfl⟩
  · obtain ⟨_, _, _, _, _, hc, -⟩ := w.close_st
    rw [h, hc]
    exact ⟨.inr ⟨hs, rfl⟩, rfl, rfl⟩

/-- A halt at a boundary (R73, R75, R337). -/
theorem Work.haltedAt_st (w : Work) (r : Nat) (hw : w.st.ended = false) :
    let v := (w.halt r).closeHalted
    (v.st.state = .halted ∨ v.st.state = .closed) ∧ v.st.stopReason = (if w.st.stopReason = 0 then r else w.st.stopReason) ∧
      v.st.inp.verdicts = [] ∧ v.st.inp.contributed = w.st.inp.contributed ∧ v.st.core = w.st.core ∧ v.env = w.env := by
  intro v
  obtain ⟨_, _, _, _, _, _, _, hhalt, henv⟩ := w.halt_st r hw
  obtain ⟨hstate, hreason, hinp⟩ := (w.halt r).closeHalted_st
  refine ⟨?_, ?_, ?_, ?_, (w.halt r).closeHalted_core.1.trans (w.halt_core r).1, (w.halt r).closeHalted_core.2.trans henv⟩
  · rcases hstate with h | ⟨-, h⟩
    · exact .inl (h.trans (by rw [hhalt]))
    · exact .inr h
  · rw [hreason, hhalt]
  · rw [hinp, hhalt]
  · rw [hinp, hhalt]

/-- What the end of an ingress boundary leaves alone. -/
theorem Work.ingressEnd_st (w : Work) (e : Bool) :
    (w.ingressEnd e).st.inp = { w.st.inp with seen := (w.ingressEnd e).st.inp.seen } ∧ (w.ingressEnd e).st.core = w.st.core ∧
      (w.ingressEnd e).env = w.env ∧ (e = false → (w.ingressEnd e).st.stopReason = w.st.stopReason) := by
  have hdrain : (w.drain 0).st.inp = w.st.inp := by
    unfold Work.drain
    split <;> rfl
  have hfirst : (if e then w.drain 0 else w).st.inp = w.st.inp ∧ (if e then w.drain 0 else w).st.core = w.st.core ∧
      (if e then w.drain 0 else w).env = w.env ∧ (e = false → (if e then w.drain 0 else w).st.stopReason = w.st.stopReason) := by
    cases e
    · exact ⟨rfl, rfl, rfl, fun _ => rfl⟩
    · exact ⟨hdrain, w.drain_core 0, w.drain_env 0, nofun⟩
  unfold Work.ingressEnd
  dsimp only
  generalize (if e then w.drain 0 else w) = v at hfirst ⊢
  obtain ⟨hinp, hcore, henv, hreason⟩ := hfirst
  split
  · obtain ⟨_, _, _, _, _, hc, -⟩ := v.close_st
    exact ⟨by rw [hc, hinp], v.close_core.1.trans hcore, v.close_core.2.trans henv, fun h => by rw [hc]; exact hreason h⟩
  · obtain ⟨-, hr, hi⟩ := v.closeHalted_st
    exact ⟨hi.trans (by rw [hinp]), v.closeHalted_core.1.trans hcore, v.closeHalted_core.2.trans henv, fun h => hr.trans (hreason h)⟩

theorem Work.ingressEnd_drains (w : Work) (hr : w.st.running = true) : w.ingressEnd true = w.drain 0 := by
  have hd : (w.drain 0).st = { w.st with state := .draining, stopReason := 0 } := by
    rw [Work.drain, if_pos hr]
  have hc : (w.drain 0).closeHalted = w.drain 0 :=
    (w.drain 0).closeHalted_cases.resolve_right fun h => by simp [hd] at h
  have h4 : decide ((w.drain 0).st.stopReason = 4) = false := by
    rw [hd]
    rfl
  unfold Work.ingressEnd
  simp only [if_true, h4, Bool.and_false, Bool.false_and, Bool.false_eq_true, if_false, hc]

theorem Work.ingressEnd_goesOn (w : Work) (hr : w.st.running = true) : w.ingressEnd false = w := by
  have hs := Stream.running_state hr
  have hc : w.closeHalted = w := w.closeHalted_cases.resolve_right fun h => by
    rcases hs with hs | hs <;> rw [hs] at h <;> cases h.1
  have hn : w.st.draining = false := by
    unfold Stream.draining
    rcases hs with hs | hs <;> rw [hs] <;> rfl
  unfold Work.ingressEnd
  simp only [hn, Bool.false_and, Bool.false_eq_true, if_false, hc]

/-- A running stream drains at the prompt's end, and goes on else (R121). -/
theorem Work.ingressEnd_running (w : Work) (e : Bool) (hr : w.st.running = true) :
    (w.ingressEnd e).st.state = (if e then .draining else w.st.state) ∧ (w.ingressEnd e).st.boundary = w.st.boundary := by
  cases e with
  | true =>
    rw [w.ingressEnd_drains hr, Work.drain, if_pos hr]
    exact ⟨rfl, rfl⟩
  | false =>
    rw [w.ingressEnd_goesOn hr]
    exact ⟨rfl, rfl⟩

/-! ### A boundary in a state -/

/-- The stream after a boundary's work, in the table, with what it sent sent. -/
theorem Work.run_spec (w : Work) {u : State} (hu : u.inside = s.inside) (hk : w.env.slot = k) :
    (w.run u).streams.table = aset k w.st s.streams.table ∧ { (w.run u).offStreams with eng := s.eng } = s.offStreams := by
  have heng : u.eng = s.eng := State.of_inside State.eng (fun _ => rfl) hu
  rw [← heng, ← State.offStreams_of_inside hu, ← State.table_of_inside hu, ← hk]
  exact ⟨w.run_table u, w.run_offStreams u⟩

/-- Queueing items changes the engines alone. -/
theorem State.pushItems_rest (s : State) (p : Policy) (k : SlotId) (l : List (Nat × AwlItem)) :
    (s.pushItems p k l).streams = s.streams ∧ { (s.pushItems p k l).offStreams with eng := s.eng } = s.offStreams ∧
      ∀ code, (s.pushItems p k l).latched code = s.latched code := by
  unfold State.pushItems
  induction l generalizing s with
  | nil => exact ⟨rfl, rfl, fun _ => rfl⟩
  | cons x l ih =>
    obtain ⟨hstreams, hoff, hlatched⟩ := ih (s.pushItem (p.awlHalf k) x.1 x.2)
    refine ⟨hstreams, ?_, hlatched⟩
    have := congrArg (fun v : State => { v with eng := s.eng }) hoff
    exact this

/-! ### The boundary of a chunk (R55, R115, R116) -/

/-- A chunk that leaves void. -/
def Ingress.markVoid (inp : Ingress) (c : Chunk) (first : Nat) : Ingress :=
  { inp with chunks := inp.chunks.map (fun x => if x.ordinal = c.ordinal then { x with released := true, void := true, firstIndex := first } else x) }

theorem State.mem_voidChunk (s : State) {inp : Ingress} (hc : c ∈ inp.chunks) (first : Nat) :
    ∃ x ∈ (s.voidChunk (inp.markVoid c first) c).chunks, x.ordinal = c.ordinal ∧ x.released = true ∧ x.void = true := by
  refine ⟨{ c with released := true, void := true, firstIndex := first }, List.mem_append_left _ (List.mem_filter.2 ⟨?_, ?_⟩), rfl, rfl, rfl⟩
  · exact List.mem_map.2 ⟨c, hc, if_pos rfl⟩
  · simp

/-- The end of a chunk's boundary: a halt with its reason, or what its commit ends. -/
def Work.chunkEnd (w : Work) (halt : Option Nat) (e : Bool) : Work :=
  match halt with
  | some x => (w.atBoundary.halt x).closeHalted
  | none => w.atBoundary.ingressEnd e

/-- The stop reason of a chunk that is not ready, or whose text is forged. -/
def Policy.chunkHalt (p : Policy) (late forged : Bool) : Option Nat :=
  if forged then some 14 else if late && !p.failOpen 1 then some 9 else none

/-- The work of a chunk's boundary as it begins: what is late or forged is counted (R55, R102, R116). -/
def State.chunkStart (s : State) (k : SlotId) (st : Stream) (p : Policy) (late forged : Bool) : Work :=
  let w0 : Work := { env := s.env k st (some p), st := { st with epoch := p.epoch, acc := st.ingressAcc (p.chunkHalt late forged).isSome } }
  let w1 := if late then (w0.effect (lateEvent 1 st.handle st.inp.nextIndex)).word 7 1 else w0
  if forged then w1.effect (ingressEvent 16 st.handle.toNat (st.inp.freeFrom % 2 ^ 32)) else w1

theorem State.chunkStart_spec (s : State) (k : SlotId) (st : Stream) (p : Policy) (late forged : Bool) :
    (s.chunkStart k st p late forged).env = s.env k st (some p) ∧
      (∃ cs, (s.chunkStart k st p late forged).st =
        { st with epoch := p.epoch, acc := st.ingressAcc (p.chunkHalt late forged).isSome, counters := cs }) ∧
      (late = true → .effects (lateEvent 1 st.handle st.inp.nextIndex) ∈ (s.chunkStart k st p late forged).outs) ∧
      (forged = true → .effects (ingressEvent 16 st.handle.toNat (st.inp.freeFrom % 2 ^ 32)) ∈ (s.chunkStart k st p late forged).outs) := by
  unfold State.chunkStart
  generalize hw : Work.mk (s.env k st (some p)) _ [] = w0
  have hst : w0.st = { st with epoch := p.epoch, acc := st.ingressAcc (p.chunkHalt late forged).isSome } := by rw [← hw]
  have henv : w0.env = s.env k st (some p) := by rw [← hw]
  obtain ⟨cs, hword⟩ := (w0.effect (lateEvent 1 st.handle st.inp.nextIndex)).word_st 7 1
  have hlate := Work.mem_word (w0.mem_effect_self (lateEvent 1 st.handle st.inp.nextIndex)) 7 1
  have hwenv := (w0.effect (lateEvent 1 st.handle st.inp.nextIndex)).word_env 7 1
  dsimp only
  generalize Work.word _ 7 1 = w1 at hword hlate hwenv ⊢
  have hst1 : w1.st = { st with epoch := p.epoch, acc := st.ingressAcc (p.chunkHalt late forged).isSome, counters := cs } := by
    rw [hword, Work.effect_st, hst]
  have henv1 : w1.env = s.env k st (some p) := by
    rw [hwenv, Work.effect_env, henv]
  cases late <;> cases forged
  · exact ⟨henv, ⟨_, hst⟩, nofun, nofun⟩
  · exact ⟨henv, ⟨_, hst⟩, nofun, fun _ => w0.mem_effect_self _⟩
  · exact ⟨henv1, ⟨_, hst1⟩, fun _ => hlate, nofun⟩
  · exact ⟨henv1, ⟨_, hst1⟩, fun _ => Work.mem_effect hlate _, fun _ => w1.mem_effect_self _⟩

/-- A work with its stream's ingress state replaced. -/
def Work.withInp (w : Work) (i : Ingress) : Work := { w with st := { w.st with inp := i } }

theorem Work.mem_withInp {o : Out} (h : o ∈ w.outs) (i : Ingress) : o ∈ (w.withInp i).outs := h

/-- The record of a chunk's boundary (R343). -/
def chunkRecord (st : Stream) (p : Policy) (c : Chunk) (void halts : Bool) : AuditRec :=
  { kind := 2, index := st.inp.nextIndex % 2 ^ 32, subject := if void then 0 else c.code.ids.length,
    outcome := (if void then 1 else 0) + (if halts then 16 else 0), epoch := p.epoch }

/-- The ingress state after a chunk that leaves void; the segment's counts end with it. -/
def State.afterVoid (s : State) (inp : Ingress) (c : Chunk) (first : Nat) : Ingress :=
  if c.endsSegment then { s.voidChunk (inp.markVoid c first) c with counts := {} } else s.voidChunk (inp.markVoid c first) c

theorem State.mem_afterVoid (s : State) {inp : Ingress} (hc : c ∈ inp.chunks) (first : Nat) :
    ∃ x ∈ (s.afterVoid inp c first).chunks, x.ordinal = c.ordinal ∧ x.released = true ∧ x.void = true := by
  have h := s.mem_voidChunk hc first
  unfold State.afterVoid
  split <;> exact h

theorem State.chunkBoundary_eq_void {late forged : Bool} (hv : (late || forged || c.void) = true) :
    s.chunkBoundary k st p c late forged =
      ((((s.chunkStart k st p late forged).withInp
          (s.afterVoid (s.chunkStart k st p late forged).st.inp c st.inp.nextIndex)).audit
        (chunkRecord st p c true (p.chunkHalt late forged).isSome)).chunkEnd (p.chunkHalt late forged) c.promptEnd).run s := by
  unfold State.chunkBoundary
  simp only [hv, if_true]
  rfl

/-- The boundary of a chunk that leaves void: of the stream only its counters, its digest, and its chunks and carries change before
the boundary ends. -/
theorem State.chunkBoundary_void {late forged : Bool} (hv : (late || forged || c.void) = true) (hc : c ∈ st.inp.chunks) :
    ∃ w : Work, s.chunkBoundary k st p c late forged = (w.chunkEnd (p.chunkHalt late forged) c.promptEnd).run s ∧
      w.env = s.env k st (some p) ∧
      (∃ cs d i, w.st = { st with epoch := p.epoch, acc := st.ingressAcc (p.chunkHalt late forged).isSome, counters := cs, audit := d, inp := i } ∧
        ∃ x ∈ i.chunks, x.ordinal = c.ordinal ∧ x.released = true ∧ x.void = true) ∧
      (late = true → .effects (lateEvent 1 st.handle st.inp.nextIndex) ∈ w.outs) ∧
      (forged = true → .effects (ingressEvent 16 st.handle.toNat (st.inp.freeFrom % 2 ^ 32)) ∈ w.outs) := by
  obtain ⟨henv, ⟨cs, hst⟩, hlate, hforged⟩ := s.chunkStart_spec k st p late forged
  refine ⟨_, State.chunkBoundary_eq_void hv, (Work.audit_env ..).trans henv, ?_,
    fun h => Work.mem_audit (Work.mem_withInp (hlate h) _) _, fun h => Work.mem_audit (Work.mem_withInp (hforged h) _) _⟩
  obtain ⟨d, haudit⟩ := Work.audit_st ((s.chunkStart k st p late forged).withInp
    (s.afterVoid (s.chunkStart k st p late forged).st.inp c st.inp.nextIndex)) (chunkRecord st p c true (p.chunkHalt late forged).isSome)
  rw [haudit, Work.withInp, hst]
  exact ⟨cs, d, _, rfl, s.mem_afterVoid hc _⟩

/-! ### The commit of a chunk (R77, R115) -/

/-- A scan changes the awl instances of the stream alone. -/
theorem Stream.scanAwl_stream (st : Stream) (p : Policy) (k : SlotId) (place : Option ChunkPlace) (b : List PosByte) :
    ∃ e i l, (st.scanAwl p k place b).stream = { st with laneEpoch := e, workAwl := i, awlBound := l } := by
  have hcut : ∃ e i l, (st.awlCut p k).1 = { st with laneEpoch := e, workAwl := i, awlBound := l } := by
    unfold Stream.awlCut
    split
    · exact ⟨st.laneEpoch, st.workAwl, st.awlBound, rfl⟩
    · split <;> exact ⟨_, _, _, rfl⟩
  obtain ⟨e, i, l, h⟩ := hcut
  unfold Stream.scanAwl
  dsimp only
  split
  · exact ⟨e, i, l, h⟩
  · exact ⟨e, _, l, by rw [h]⟩

/-- Counting a chunk's tokens changes the stream's counters alone. -/
theorem Work.counted_st (w : Work) (n r b : Nat) (x : ChunkCode) :
    (∃ cs, ((List.range n).foldl (fun (v : Work) i => v.put (.commit (if i = 0 then b else 0)))
        (((w.word 0 n).chunkCounts x).glob 0x08 0 3 r)).st = { w.st with counters := cs }) ∧
      ((List.range n).foldl (fun (v : Work) i => v.put (.commit (if i = 0 then b else 0)))
        (((w.word 0 n).chunkCounts x).glob 0x08 0 3 r)).env = w.env := by
  have hfold : ∀ (l : List Nat) (v : Work), (l.foldl (fun (v : Work) i => v.put (.commit (if i = 0 then b else 0))) v).st = v.st ∧
      (l.foldl (fun (v : Work) i => v.put (.commit (if i = 0 then b else 0))) v).env = v.env := by
    intro l
    induction l with
    | nil => exact fun v => ⟨rfl, rfl⟩
    | cons i l ih => exact fun v => ⟨(ih _).1, (ih _).2⟩
  rw [(hfold _ _).1, (hfold _ _).2, Work.glob_st, Work.glob_env]
  unfold Work.chunkCounts
  generalize hy : Work.glob _ 0x06 0 13 x.rounds = y
  obtain ⟨c1, h1⟩ := w.word_st 0 n
  obtain ⟨c2, h2⟩ := y.word_st 3 x.replaced
  have hst : y.st = (w.word 0 n).st := by
    rw [← hy]
    simp only [Work.glob_st]
  have henv : y.env = w.env := by
    rw [← hy]
    simp only [Work.glob_env, Work.word_env]
  exact ⟨⟨c2, by rw [h2, hst, h1]⟩, (Work.word_env ..).trans henv⟩

/-- The stream after a chunk's commit. -/
theorem Work.commitChunk_spec (w : Work) (p : Policy) (hc : c ∈ w.st.inp.chunks) :
    let n := c.code.ids.length
    let v := (w.commitChunk p c).1
    v.env = w.env ∧ v.st.state = w.st.state ∧ v.st.epoch = w.st.epoch ∧ v.st.nextIndex = w.st.inp.nextIndex + n ∧
      v.st.inp.nextIndex = w.st.inp.nextIndex + n ∧
      (c.code.ids ≠ [] → v.st.committed = w.st.inp.nextIndex + n - 1 ∧ v.st.empty = false) ∧
      (∃ x ∈ v.st.inp.chunks, x.ordinal = c.ordinal ∧ x.released = true ∧ x.void = c.void ∧ x.firstIndex = w.st.inp.nextIndex) := by
  obtain ⟨_, _, _, hscan⟩ := w.st.scanAwl_stream p w.env.slot (some (w.st.inp.place c)) c.code.bytes
  unfold Work.commitChunk
  dsimp only
  rw [(Work.counted_st _ _ _ _ _).2, (Work.counted_st _ _ _ _ _).1.choose_spec]
  dsimp only
  rw [hscan]
  refine ⟨rfl, rfl, rfl, rfl, rfl, fun hne => ?_, ⟨_, List.mem_map.2 ⟨c, hc, if_pos rfl⟩, rfl, rfl, rfl, rfl⟩⟩
  have hn : c.code.ids.length ≠ 0 := by simpa using hne
  exact ⟨if_neg hn, by simp [hn]⟩

theorem State.chunkBoundary_eq_commit (hv : c.void = false) :
    s.chunkBoundary k st p c false false =
      ((((((s.chunkStart k st p false false).commitChunk p c).1.audit (chunkRecord st p c false false)).chunkEnd none c.promptEnd).run s).pushItems
        p k ((s.chunkStart k st p false false).commitChunk p c).2) := by
  unfold State.chunkBoundary
  simp only [hv, Bool.or_false, Bool.false_eq_true, if_false]
  rfl

/-! ### The release of a chunk (R102, R114) -/

/-- The packets and counts of a list leave the inside as it is. -/
theorem State.sendLists_inside (s : State) (route : NodeId × Byte) (h : BitVec 48) (lists : List (List Byte)) (lat : Nat) :
    (s.sendLists route h lists lat).inside = s.inside :=
  foldl_inside _ (fun t _ => t.sendClass0_inside ..) lists s

/-- A chunk's list goes out, and its boundary follows. -/
theorem State.releaseChunk_open (hp : s.policyByEpoch c.epoch = some p) (he : st.ended = false) :
    ∃ u : State, u.inside = s.inside ∧
      s.releaseChunk k st c = u.chunkBoundary k st p c (!c.ready && !c.void) (c.ready && !c.void && c.code.forged) := by
  unfold State.releaseChunk
  simp only [hp, he, Bool.not_false, Bool.and_true, Bool.or_false, Bool.false_eq_true, if_false]
  exact ⟨_, (State.effects_inside ..).trans (State.sendLists_inside ..), rfl⟩

/-- A stream that has ended, with a chunk left void. -/
def Stream.leftVoid (st : Stream) (c : Chunk) : Stream :=
  { st with inp := { st.inp with
      chunks := st.inp.chunks.map (fun x => if x.ordinal = c.ordinal then { x with released := true, void := true } else x) } }

theorem State.releaseChunk_ended (hp : s.policyByEpoch c.epoch = some p) (he : st.ended = true) :
    ∃ u : State, u.inside = s.inside ∧ s.releaseChunk k st c = ((u.work k (st.leftVoid c)).closeHalted).run u := by
  unfold State.releaseChunk
  simp only [hp, he, if_true]
  exact ⟨_, (State.effects_inside ..).trans (State.sendLists_inside ..), rfl⟩

/-- What every choice of a fold satisfies, its result satisfies. -/
theorem foldl_chosen {α β : Type} (f : Option β → α → Option β) (P : β → Prop)
    (hf : ∀ b a r, (∀ r, b = some r → P r) → f b a = some r → P r) (l : List α) (b : Option β) (hb : ∀ r, b = some r → P r) :
    ∀ r, l.foldl f b = some r → P r := by
  induction l generalizing b with
  | nil => exact hb
  | cons a l ih => exact ih _ fun r hr => hf b a r hb hr

/-- The chunk that is due is its stream's next. -/
theorem State.dueChunk_next (h : s.dueChunk = some (k, st, c)) : st.nextRelease = some c := by
  unfold State.dueChunk at h
  refine foldl_chosen (P := fun r : SlotId × Stream × Chunk => r.2.1.nextRelease = some r.2.2) _ ?_ _ none (fun r hr => by cases hr) _ h
  intro b e r hb hr
  split at hr
  · exact hb r hr
  · next x hx =>
    split at hr
    · exact hb r hr
    · split at hr
      · obtain rfl := Option.some.inj hr
        exact hx
      · split at hr
        · obtain rfl := Option.some.inj hr
          exact hx
        · exact hb r hr

theorem exec_chunkRelease (ho : s.dueOrphan (fun o => !o.sample) = none) (hd : s.dueChunk = some (k, st, c))
    (hq : st.poisoned = none) : exec .chunkRelease s = .next (s.releaseChunk k st c) := by
  have hat : s.atContext k st = (s, st) := by
    rw [State.atContext, hq]
  refine congrArg Host.Outcome.next ?_
  unfold chunkRelease
  simp only [ho, hd, hat, State.dueChunk_next hd, if_true]

theorem State.dueOrphan_eq {f : Orphan → Bool} {o : Orphan} {u : State} (h : s.dueOrphan f = some (o, u)) :
    u = { s with streams := { s.streams with orphans := s.streams.orphans.erase o } } := by
  unfold State.dueOrphan at h
  split at h
  · obtain ⟨rfl, rfl⟩ := Prod.mk.inj (Option.some.inj h)
    rfl
  · cases h

theorem orphanChunkClause {o : Orphan} {u : State} (h : s.dueOrphan (fun o => !o.sample) = some (o, u)) :
    ∃ t, exec .chunkRelease s = .next t ∧ t.streams.table = s.streams.table ∧
      t.streams.orphans = s.streams.orphans.erase o ∧ t.offStreams = s.offStreams := by
  have hrun : chunkRelease s = (u.effects [.count ⟨0x06, 0, 14⟩ 1, .count ⟨0x06, 0, 15⟩ 1]).sendClass0
      (BitVec.ofNat 12 o.dest) o.port false o.handle o.payload o.lat := by
    unfold chunkRelease
    rw [h]
  have hin : (chunkRelease s).inside = u.inside := by
    rw [hrun, State.sendClass0_inside, State.effects_inside]
  have hu := State.dueOrphan_eq h
  refine ⟨_, rfl, (State.table_of_inside hin).trans (by rw [hu]),
    (State.of_inside (fun v => v.streams.orphans) (fun _ => rfl) hin).trans (by rw [hu]), (State.offStreams_of_inside hin).trans ?_⟩
  rw [hu]
  rfl

/-! ### How a chunk's boundary ends -/

/-- A boundary that goes on: the stream is as the work left it but for its ends. -/
theorem Work.chunkEnd_none (w : Work) (e : Bool) :
    (w.chunkEnd none e).st.core = w.st.core ∧ (∃ b, (w.chunkEnd none e).st.inp = { w.st.inp with seen := b }) ∧
      (w.chunkEnd none e).env = w.env ∧
      (w.st.running = true → (w.chunkEnd none e).st.state = (if e then .draining else w.st.state) ∧
        (w.chunkEnd none e).st.boundary = w.env.now) := by
  obtain ⟨hstate, -, hinp, hnow⟩ := w.atBoundary_state
  obtain ⟨hend, hcore, henv, -⟩ := w.atBoundary.ingressEnd_st e
  refine ⟨hcore.trans w.atBoundary_core, ⟨_, hend.trans (by rw [hinp])⟩, henv.trans w.atBoundary_env, fun hr => ?_⟩
  obtain ⟨hs, hb⟩ := w.atBoundary.ingressEnd_running e (by rwa [Stream.running_of_state hstate])
  exact ⟨hs.trans (by rw [hstate]), hb.trans hnow⟩

/-- A boundary that halts the stream. -/
theorem Work.chunkEnd_some (w : Work) (r : Nat) (e : Bool) (hw : w.st.ended = false) :
    ((w.chunkEnd (some r) e).st.state = .halted ∨ (w.chunkEnd (some r) e).st.state = .closed) ∧
      (w.chunkEnd (some r) e).st.stopReason = (if w.st.stopReason = 0 then r else w.st.stopReason) ∧
      (w.chunkEnd (some r) e).st.core = w.st.core ∧ (w.chunkEnd (some r) e).env = w.env := by
  obtain ⟨hstate, hreason, -, -⟩ := w.atBoundary_state
  obtain ⟨hs, hr, -, -, hcore, henv⟩ := w.atBoundary.haltedAt_st r (by rwa [Stream.ended_of_state hstate])
  exact ⟨hs, hr.trans (by rw [hreason]), hcore.trans w.atBoundary_core, henv.trans w.atBoundary_env⟩

theorem Stream.nextIndex_of_core {x : Stream} (h : x.core = st.core) : x.nextIndex = st.nextIndex := by
  have := congrArg Stream.nextIndex h
  exact this

theorem Stream.committed_of_core {x : Stream} (h : x.core = st.core) : x.committed = st.committed := by
  have := congrArg Stream.committed h
  exact this

theorem Stream.empty_of_core {x : Stream} (h : x.core = st.core) : x.empty = st.empty := by
  have := congrArg Stream.empty h
  exact this

theorem Stream.epoch_of_core {x : Stream} (h : x.core = st.core) : x.epoch = st.epoch := by
  have := congrArg Stream.epoch h
  exact this

theorem Work.mem_ingressEnd {o : Out} (h : o ∈ w.outs) (e : Bool) : o ∈ (w.ingressEnd e).outs := by
  have hdrain : o ∈ (if e then w.drain 0 else w).outs := by
    unfold Work.drain
    repeat' split
    all_goals exact h
  unfold Work.ingressEnd
  dsimp only
  generalize (if e then w.drain 0 else w) = v at hdrain ⊢
  split
  · exact Work.mem_close hdrain
  · exact Work.mem_closeHalted hdrain

/-- What left before the end of a chunk's boundary still leaves. -/
theorem Work.mem_chunkEnd {o : Out} (h : o ∈ w.outs) (halt : Option Nat) (e : Bool) : o ∈ (w.chunkEnd halt e).outs := by
  cases halt with
  | some r => exact Work.mem_closeHalted (Work.mem_halt (Work.mem_atBoundary h) r)
  | none => exact Work.mem_ingressEnd (Work.mem_atBoundary h) e

/-! ### The clauses on a chunk -/

section
variable (ho : s.dueOrphan (fun o => !o.sample) = none) (hd : s.dueChunk = some (k, st, c)) (hq : st.poisoned = none)
  (hp : s.policyByEpoch c.epoch = some p)
include ho hd hq hp

theorem chunkCommitClause (he : st.ended = false) (hv : c.void = false) (hr : c.ready = true) (hf : c.code.forged = false)
    (hrun : st.running = true) :
    ∃ t st', exec .chunkRelease s = .next t ∧ t.streams.table = aset k st' s.streams.table ∧
      st'.nextIndex = st.inp.nextIndex + c.code.ids.length ∧ st'.inp.nextIndex = st.inp.nextIndex + c.code.ids.length ∧
      (c.code.ids ≠ [] → st'.committed = st.inp.nextIndex + c.code.ids.length - 1 ∧ st'.empty = false) ∧
      st'.state = (if c.promptEnd then .draining else st.state) ∧ st'.boundary = s.now ∧ st'.epoch = p.epoch ∧
      (∃ x ∈ st'.inp.chunks, x.ordinal = c.ordinal ∧ x.released = true ∧ x.void = false ∧ x.firstIndex = st.inp.nextIndex) ∧
      { t.offStreams with eng := s.eng } = s.offStreams := by
  obtain ⟨u, hu, hrel⟩ := State.releaseChunk_open (k := k) hp he
  have hmem : c ∈ st.inp.chunks := List.mem_of_find?_eq_some (State.dueChunk_next hd)
  obtain ⟨henv, ⟨cs, hst⟩, -, -⟩ := u.chunkStart_spec k st p false false
  obtain ⟨hcenv, hstate, hepoch, hnext, hinext, hcommit, hchunk⟩ :=
    (u.chunkStart k st p false false).commitChunk_spec (c := c) p (by rw [hst]; exact hmem)
  have hout := State.chunkBoundary_eq_commit (s := u) (k := k) (st := st) (p := p) hv
  simp only [hr, hv, hf, Bool.not_true, Bool.not_false, Bool.and_false, Bool.and_true] at hrel
  rw [hout] at hrel
  generalize (u.chunkStart k st p false false).commitChunk p c = r at *
  obtain ⟨w, items⟩ := r
  dsimp only at *
  rw [hst] at hstate hepoch hnext hinext hcommit hchunk
  obtain ⟨d, haudit⟩ := w.audit_st (chunkRecord st p c false false)
  obtain ⟨hcore, ⟨b, hinp⟩, hend, hgo⟩ := (w.audit (chunkRecord st p c false false)).chunkEnd_none c.promptEnd
  have hwcore := hcore.trans (w.audit_core _)
  have hwinp : (w.audit (chunkRecord st p c false false)).st.inp = w.st.inp := by rw [haudit]
  have hwstate : (w.audit (chunkRecord st p c false false)).st.state = st.state := by rw [haudit]; exact hstate
  have hwenv : (w.audit (chunkRecord st p c false false)).env = u.env k st (some p) := by rw [Work.audit_env, hcenv, henv]
  obtain ⟨hs, hb⟩ := hgo (by rwa [Stream.running_of_state hwstate])
  rw [hwinp] at hinp
  rw [hwstate] at hs
  rw [hwenv] at hend hb
  obtain ⟨htable, hoff⟩ := Work.run_spec _ hu (k := k) (congrArg Env.slot hend)
  obtain ⟨hpstreams, hpoff, -⟩ := State.pushItems_rest
    (((w.audit (chunkRecord st p c false false)).chunkEnd none c.promptEnd).run u) p k items
  refine ⟨_, _, (exec_chunkRelease ho hd hq).trans (congrArg Host.Outcome.next hrel), ?_, ?_, ?_, fun hne => ⟨?_, ?_⟩, hs, ?_, ?_, ?_, ?_⟩
  · rw [hpstreams, htable]
  · rw [Stream.nextIndex_of_core hwcore, hnext]
  · rw [hinp, hinext]
  · rw [Stream.committed_of_core hwcore, (hcommit hne).1]
  · rw [Stream.empty_of_core hwcore, (hcommit hne).2]
  · exact hb.trans (State.of_inside State.now (fun _ => rfl) hu)
  · rw [Stream.epoch_of_core hwcore, hepoch]
  · obtain ⟨x, hx, h1, h2, h3, h4⟩ := hchunk
    exact ⟨x, by rw [hinp]; exact hx, h1, h2, h3.trans hv, h4⟩
  · have := congrArg (fun v : State => { v with eng := s.eng }) hpoff
    exact this.trans hoff

/-- A chunk that leaves void: its boundary ends at work whose stream differs from the one of before in nothing a clause reads. -/
theorem chunkRelease_void {late forged : Bool} (he : st.ended = false) (hl : (!c.ready && !c.void) = late)
    (hf : (c.ready && !c.void && c.code.forged) = forged) (hv : (late || forged || c.void) = true) :
    ∃ (t : State) (w : Work), exec .chunkRelease s = .next t ∧
      t.streams.table = aset k (w.chunkEnd (p.chunkHalt late forged) c.promptEnd).st s.streams.table ∧
      { t.offStreams with eng := s.eng } = s.offStreams ∧ w.st.state = st.state ∧ w.st.stopReason = st.stopReason ∧
      w.st.nextIndex = st.nextIndex ∧ w.st.committed = st.committed ∧
      (∃ x ∈ w.st.inp.chunks, x.ordinal = c.ordinal ∧ x.released = true ∧ x.void = true) ∧
      (late = true → t.latched 2 = true) ∧ (forged = true → t.latched 4 = true) := by
  obtain ⟨u, hu, hrel⟩ := State.releaseChunk_open (k := k) hp he
  have hmem : c ∈ st.inp.chunks := List.mem_of_find?_eq_some (State.dueChunk_next hd)
  obtain ⟨w, hrun, henv, ⟨cs, d, i, hst, hchunk⟩, hlate, hforged⟩ := State.chunkBoundary_void (s := u) (k := k) (p := p) hv hmem
  have hend : (w.chunkEnd (p.chunkHalt late forged) c.promptEnd).env = w.env := by
    cases p.chunkHalt late forged with
    | none => exact (w.chunkEnd_none c.promptEnd).2.2.1
    | some r =>
      exact (w.chunkEnd_some r c.promptEnd (by rw [hst]; exact he)).2.2.2
  obtain ⟨htable, hoff⟩ := Work.run_spec (w.chunkEnd (p.chunkHalt late forged) c.promptEnd) hu (k := k) (by rw [hend, henv]; rfl)
  refine ⟨_, w, (exec_chunkRelease ho hd hq).trans (congrArg Host.Outcome.next (hrel.trans (by rw [hl, hf, hrun]))), htable, hoff,
    ?_, ?_, ?_, ?_, ?_, fun h => ?_, fun h => ?_⟩
  · rw [hst]
  · rw [hst]
  · rw [hst]
  · rw [hst]
  · rw [hst]
    exact hchunk
  · exact Work.run_latched (Work.mem_chunkEnd (hlate h) ..) (List.mem_cons_of_mem _ (List.mem_singleton.2 rfl)) u
  · exact Work.run_latched (Work.mem_chunkEnd (hforged h) ..) (notice_mem_ingressEvent ..).choose_spec u

/-- A chunk whose boundary halts the stream (R55, R102, R116). -/
theorem chunkHaltClause {late forged : Bool} {r : Nat} (he : st.ended = false) (hl : (!c.ready && !c.void) = late)
    (hf : (c.ready && !c.void && c.code.forged) = forged) (hv : (late || forged) = true) (hr : p.chunkHalt late forged = some r) :
    ∃ t st', exec .chunkRelease s = .next t ∧ t.streams.table = aset k st' s.streams.table ∧
      (st'.state = .halted ∨ st'.state = .closed) ∧ st'.stopReason = (if st.stopReason = 0 then r else st.stopReason) ∧
      st'.nextIndex = st.nextIndex ∧ st'.committed = st.committed ∧ (late = true → t.latched 2 = true) ∧
      (forged = true → t.latched 4 = true) ∧ { t.offStreams with eng := s.eng } = s.offStreams := by
  obtain ⟨t, w, hrun, htable, hoff, hstate, hreason, hnext, hcommit, -, hlate, hforged⟩ :=
    chunkRelease_void ho hd hq hp he hl hf (by rw [hv, Bool.true_or])
  rw [hr] at htable
  obtain ⟨hs, hsr, hcore, -⟩ := w.chunkEnd_some r c.promptEnd (by rwa [Stream.ended_of_state hstate])
  exact ⟨t, _, hrun, htable, hs, by rw [hsr, hreason], (Stream.nextIndex_of_core hcore).trans hnext,
    (Stream.committed_of_core hcore).trans hcommit, hlate, hforged, hoff⟩

/-- A chunk that is void, or late where the edge fails open, lets the stream go on (R102, R116). -/
theorem chunkVoidClause (he : st.ended = false) (hv : c.void = true ∨ (c.ready = false ∧ p.failOpen 1 = true)) :
    ∃ t st', exec .chunkRelease s = .next t ∧ t.streams.table = aset k st' s.streams.table ∧
      (st.running = true → st'.state = (if c.promptEnd then .draining else st.state)) ∧
      st'.nextIndex = st.nextIndex ∧ st'.committed = st.committed ∧ (c.void = false → t.latched 2 = true) ∧
      (∃ x ∈ st'.inp.chunks, x.ordinal = c.ordinal ∧ x.released = true ∧ x.void = true) ∧
      { t.offStreams with eng := s.eng } = s.offStreams := by
  have hforged : (c.ready && !c.void && c.code.forged) = false := by
    rcases hv with hv | ⟨hr, -⟩
    · simp [hv]
    · simp [hr]
  have hvoid : ((!c.ready && !c.void) || false || c.void) = true := by
    rcases hv with hv | ⟨hr, -⟩
    · simp [hv]
    · simp [hr]
  have hopen : p.chunkHalt (!c.ready && !c.void) false = none := by
    unfold Policy.chunkHalt
    rcases hv with hv | ⟨-, hopen⟩
    · simp [hv]
    · simp [hopen]
  obtain ⟨t, w, hrun, htable, hoff, hstate, -, hnext, hcommit, hchunk, hlate, -⟩ :=
    chunkRelease_void ho hd hq hp he rfl hforged hvoid
  rw [hopen] at htable
  obtain ⟨hcore, ⟨b, hinp⟩, -, hgo⟩ := w.chunkEnd_none c.promptEnd
  refine ⟨t, _, hrun, htable, fun h => ?_, (Stream.nextIndex_of_core hcore).trans hnext,
    (Stream.committed_of_core hcore).trans hcommit, fun h => ?_, ?_, hoff⟩
  · rw [(hgo (by rwa [Stream.running_of_state hstate])).1, hstate]
  · rcases hv with hv | ⟨hr, -⟩
    · rw [h] at hv
      cases hv
    · exact hlate (by simp [hr, h])
  · rw [hinp]
    exact hchunk

/-- A chunk of a stream that has ended leaves void (R114). -/
theorem chunkEndedClause (he : st.ended = true) :
    ∃ t st', exec .chunkRelease s = .next t ∧ t.streams.table = aset k st' s.streams.table ∧ st'.ended = true ∧
      st'.nextIndex = st.nextIndex ∧ st'.committed = st.committed ∧
      (∃ x ∈ st'.inp.chunks, x.ordinal = c.ordinal ∧ x.released = true ∧ x.void = true) ∧
      { t.offStreams with eng := s.eng } = s.offStreams := by
  obtain ⟨u, hu, hrel⟩ := State.releaseChunk_ended (k := k) hp he
  have hmem : c ∈ st.inp.chunks := List.mem_of_find?_eq_some (State.dueChunk_next hd)
  obtain ⟨hcore, henv⟩ := (u.work k (st.leftVoid c)).closeHalted_core
  obtain ⟨hstate, -, hinp⟩ := (u.work k (st.leftVoid c)).closeHalted_st
  obtain ⟨htable, hoff⟩ := Work.run_spec ((u.work k (st.leftVoid c)).closeHalted) hu (k := k) (by rw [henv]; rfl)
  refine ⟨_, _, (exec_chunkRelease ho hd hq).trans (congrArg Host.Outcome.next hrel), htable, ?_,
    Stream.nextIndex_of_core hcore, Stream.committed_of_core hcore, ?_, hoff⟩
  · rcases hstate with h | ⟨-, h⟩
    · rw [Stream.ended_of_state h]
      exact he
    · unfold Stream.ended
      rw [h]
  · rw [hinp]
    exact ⟨_, List.mem_map.2 ⟨c, hmem, if_pos rfl⟩, rfl, rfl, rfl⟩

end

end Sys2Proof.Machine
end

section
/-! The boundaries of an ingress stream: segment verdicts (R118 to R121), and the obligation. -/

namespace Sys2Proof.Machine

variable {s : State} {k : SlotId} {st : Stream} {p : Policy} {v : SegVerdict}

/-! ### The boundary of a segment verdict -/

/-- The end of a segment verdict's boundary: its halt, the close of the last segment, or neither (R118, R121). -/
def Work.segmentEnd (w : Work) (halts last : Bool) : Work :=
  if halts then (w.halt 5).closeHalted else if last then w.close else w.ingressEnd false

/-- The stream as a segment verdict's boundary takes it: the verdict leaves, its tags join, the segment's chunks leave. -/
def Stream.segmentTaken (st : Stream) (v : SegVerdict) (p : Policy) (acts : Actions) : Stream :=
  { st with
    inp := { st.inp with
      verdicts := st.inp.verdicts.filter (fun x => x.segment ≠ v.segment), tags := st.inp.tags ++ acts.tags,
      segmentsDone := st.inp.segmentsDone + 1,
      chunks := st.inp.chunks.filter (fun c => !(c.released && decide (c.ordinal ≤ v.lastChunk))) },
    epoch := p.epoch, acc := st.ingressAcc acts.halt }

/-- The audit record of a segment verdict (R343). -/
def segmentRecord (v : SegVerdict) (p : Policy) (acts : Actions) (late : Bool) : AuditRec :=
  { kind := 3, index := v.segment, subject := if acts.halt then 1 else 0, outcome := if acts.halt then 16 else 0, epoch := p.epoch,
    lateMask := (match v.inputs with | some i => i.lateMask | none => 0) + (if late then 64 else 0), acts := acts }

/-- The late inputs that a segment verdict counts. -/
def SegVerdict.lates (v : SegVerdict) (late : Bool) : Nat := (v.inputs.map (fun i => i.lates)).getD 0 + (if late then 1 else 0)

/-- The work on the stream that a segment verdict's boundary takes. -/
def State.segmentFirst (s : State) (k : SlotId) (st : Stream) (v : SegVerdict) (p : Policy) (acts : Actions) : Work :=
  { env := s.env k (st.segmentTaken v p acts) (some p), st := st.segmentTaken v p acts }

/-- The work of a segment verdict's boundary before its end, its actions and what they count given. -/
def State.segmentWork (s : State) (k : SlotId) (st : Stream) (v : SegVerdict) (p : Policy) (acts : Actions) (late : Bool)
    (es : List Effect) : Work :=
  let w := (((s.segmentFirst k st v p acts).atBoundary.effect es).word 7 (v.lates late)).audit (segmentRecord v p acts late)
  w.withInp { w.st.inp with contributed := st.inp.contributed || (acts.halt || v.promptEnd) && !st.inp.contributed }

theorem State.segmentWork_spec (acts : Actions) (late : Bool) (es : List Effect) :
    let w := s.segmentWork k st v p acts late es
    w.env.slot = k ∧ w.env.now = s.now ∧ .effects es ∈ w.outs ∧ w.st.state = st.state ∧ w.st.stopReason = st.stopReason ∧
      w.st.inp.tags = st.inp.tags ++ acts.tags ∧ w.st.inp.segmentsDone = st.inp.segmentsDone + 1 ∧
      w.st.inp.contributed = (st.inp.contributed || (acts.halt || v.promptEnd) && !st.inp.contributed) := by
  obtain ⟨hstate, hreason, hinp, -⟩ := (s.segmentFirst k st v p acts).atBoundary_state
  have henv := (s.segmentFirst k st v p acts).atBoundary_env
  unfold State.segmentWork
  generalize (s.segmentFirst k st v p acts).atBoundary = w at *
  obtain ⟨_, hword⟩ := (w.effect es).word_st 7 (v.lates late)
  obtain ⟨_, haudit⟩ := ((w.effect es).word 7 (v.lates late)).audit_st (segmentRecord v p acts late)
  have henv' : (((w.effect es).word 7 (v.lates late)).audit (segmentRecord v p acts late)).env =
      (s.segmentFirst k st v p acts).env := by
    rw [Work.audit_env, Work.word_env, Work.effect_env, henv]
  unfold Work.withInp
  dsimp only
  rw [haudit, hword, henv', Work.effect_st, hstate, hreason, hinp]
  exact ⟨rfl, rfl, Work.mem_audit (Work.mem_word (Work.mem_effect_self ..) ..) _, rfl, rfl, rfl, rfl, rfl⟩

/-- A segment verdict's boundary runs its work to its end, and the ingress contribution may follow (R119). -/
theorem State.releaseSegment_spec {acts : Actions} {late : Bool} {es : List Effect}
    (ha : segmentActions p st v s.now = (acts, late, es)) :
    (s.releaseSegment k st v p).inside = (((s.segmentWork k st v p acts late es).segmentEnd acts.halt v.promptEnd).run s).inside ∧
      ∀ code, (((s.segmentWork k st v p acts late es).segmentEnd acts.halt v.promptEnd).run s).latched code = true →
        (s.releaseSegment k st v p).latched code = true := by
  unfold State.releaseSegment
  simp only [ha]
  split
  · exact ⟨State.sendClass0_inside .., fun code h => State.sendClass0_latched h ..⟩
  · exact ⟨rfl, fun code h => h⟩

theorem Work.segmentEnd_env (w : Work) (halts last : Bool) (hw : w.st.ended = false) : (w.segmentEnd halts last).env = w.env := by
  unfold Work.segmentEnd
  split
  · exact (w.haltedAt_st 5 hw).2.2.2.2.2
  · split
    · exact w.close_core.2
    · exact (w.ingressEnd_st false).2.2.1

theorem Work.mem_segmentEnd {w : Work} {o : Out} (h : o ∈ w.outs) (halts last : Bool) : o ∈ (w.segmentEnd halts last).outs := by
  unfold Work.segmentEnd
  repeat' split
  · exact Work.mem_closeHalted (Work.mem_halt h 5)
  · exact Work.mem_close h
  · exact Work.mem_ingressEnd h false

/-- The actions of a segment verdict that is ready, if it is (R118). -/
def SegVerdict.actions? (v : SegVerdict) : Option Actions :=
  match v.verdict with
  | .ready a => some a
  | _ => none

theorem segmentActions_spec (p : Policy) (st : Stream) (v : SegVerdict) (now : Nat) :
    ∃ late es, segmentActions p st v now = (v.actions?.getD { halt := !p.failOpen 2 }, late, es) ∧
      (v.actions? = none → (∃ d, Effect.notice 2 d ∈ es) ∧ ∃ d, Effect.notice 11 d ∈ es) := by
  have hlate : (∃ d, Effect.notice 2 d ∈ lateEvent 2 st.handle v.segment ++ bridleEvent 9 st.handle v.segment now) ∧
      ∃ d, Effect.notice 11 d ∈ lateEvent 2 st.handle v.segment ++ bridleEvent 9 st.handle v.segment now :=
    ⟨⟨_, List.mem_append_left _ (List.mem_cons_of_mem _ (List.mem_singleton.2 rfl))⟩,
      ⟨_, List.mem_append_right _ (List.mem_cons_of_mem _ (List.mem_singleton.2 rfl))⟩⟩
  unfold segmentActions SegVerdict.actions?
  cases v.verdict with
  | ready a => exact ⟨_, _, rfl, nofun⟩
  | _ => exact ⟨_, _, rfl, fun _ => hlate⟩

theorem segmentWaitsClause (hd : s.dueSegment = some (k, st, v))
    (hc : st.inp.chunks.any (fun c => !c.released && decide (c.release ≤ v.release)) = true) :
    exec .segmentVerdictRelease s = .next s := by
  refine congrArg Host.Outcome.next ?_
  unfold segmentRelease
  simp only [hd, hc, if_true]

theorem exec_segmentVerdictRelease (hd : s.dueSegment = some (k, st, v))
    (hc : st.inp.chunks.any (fun c => !c.released && decide (c.release ≤ v.release)) = false) (hq : st.poisoned = none)
    (hp : s.policyByEpoch v.epoch = some p) :
    exec .segmentVerdictRelease s = .next (s.releaseSegment k st v p) := by
  have hat : s.atContext k st = (s, st) := by
    rw [State.atContext, hq]
  refine congrArg Host.Outcome.next ?_
  unfold segmentRelease
  simp only [hd, hc, hp, hat, Bool.false_eq_true, if_false, Bool.and_not_self]

/-- A segment verdict takes its boundary (R118 to R121). -/
theorem segmentVerdictClause (hd : s.dueSegment = some (k, st, v))
    (hc : st.inp.chunks.any (fun c => !c.released && decide (c.release ≤ v.release)) = false) (hq : st.poisoned = none)
    (he : st.ended = false) (hp : s.policyByEpoch v.epoch = some p) :
    let acts := v.actions?.getD { halt := !p.failOpen 2 }
    ∃ t st', exec .segmentVerdictRelease s = .next t ∧ t.streams.table = aset k st' s.streams.table ∧
      { t.offStreams with eng := s.eng } = s.offStreams ∧ (v.actions? = none → t.latched 2 = true ∧ t.latched 11 = true) ∧
      (acts.halt = true → (st'.state = .halted ∨ st'.state = .closed) ∧
        st'.stopReason = (if st.stopReason = 0 then 5 else st.stopReason) ∧ st'.inp.verdicts = [] ∧ st'.inp.contributed = true) ∧
      (acts.halt = false → st'.stopReason = st.stopReason ∧ st'.inp.segmentsDone = st.inp.segmentsDone + 1 ∧
        st'.inp.tags = st.inp.tags ++ acts.tags ∧
        (v.promptEnd = true → st'.state = .closed ∧ st'.closedAt = s.now ∧ st'.inp.contributed = true) ∧
        (v.promptEnd = false → st'.inp.contributed = st.inp.contributed ∧ (st.running = true → st'.state = st.state))) := by
  intro acts
  obtain ⟨late, es, ha, hnotice⟩ := segmentActions_spec p st v s.now
  obtain ⟨hinside, hlatch⟩ := State.releaseSegment_spec (k := k) ha
  obtain ⟨hslot, hnow, hout, hstate, hreason, htags, hdone, hcontr⟩ :=
    State.segmentWork_spec (s := s) (k := k) (st := st) (v := v) (p := p) acts late es
  change _ = State.inside (((s.segmentWork k st v p acts late es).segmentEnd _ _).run s) at hinside
  change ∀ code, State.latched (((s.segmentWork k st v p acts late es).segmentEnd _ _).run s) code = true → _ at hlatch
  generalize s.segmentWork k st v p acts late es = w at *
  have hopen : w.st.ended = false := by rwa [Stream.ended_of_state hstate]
  obtain ⟨htable, hoff⟩ := Work.run_spec (w.segmentEnd acts.halt v.promptEnd) (s := s) (k := k) rfl
    ((congrArg Env.slot (w.segmentEnd_env _ _ hopen)).trans hslot)
  refine ⟨_, _, exec_segmentVerdictRelease hd hc hq hp, (State.table_of_inside hinside).trans htable, ?_, fun h => ?_, fun h => ?_,
    fun h => ?_⟩
  · have := congrArg (fun u : State => { u with eng := s.eng }) (State.offStreams_of_inside hinside)
    exact this.trans hoff
  · obtain ⟨⟨_, h2⟩, ⟨_, h11⟩⟩ := hnotice h
    exact ⟨hlatch 2 (Work.run_latched (Work.mem_segmentEnd hout ..) h2 s),
      hlatch 11 (Work.run_latched (Work.mem_segmentEnd hout ..) h11 s)⟩
  · obtain ⟨hs, hsr, hverdicts, hcon, -⟩ := w.haltedAt_st 5 hopen
    rw [h, Work.segmentEnd, if_pos rfl]
    exact ⟨hs, by rw [hsr, hreason], hverdicts, by rw [hcon, hcontr, h]; cases st.inp.contributed <;> rfl⟩
  · rw [h, Work.segmentEnd, if_neg Bool.false_ne_true]
    cases hlast : v.promptEnd with
    | true =>
      rw [hlast] at hcontr
      obtain ⟨_, _, _, _, _, hclose, -⟩ := w.close_st
      rw [if_pos rfl, hclose]
      exact ⟨hreason, hdone, htags, fun _ => ⟨rfl, hnow, by
        show w.st.inp.contributed = true
        rw [hcontr]; cases st.inp.contributed <;> simp⟩, nofun⟩
    | false =>
      rw [h, hlast] at hcontr
      obtain ⟨hinp, -, -, hsr⟩ := w.ingressEnd_st false
      rw [if_neg Bool.false_ne_true, hinp]
      exact ⟨(hsr rfl).trans hreason, hdone, htags, nofun, fun _ => ⟨by
        show w.st.inp.contributed = st.inp.contributed
        rw [hcontr]; simp, fun hr => by
        rw [(w.ingressEnd_running false (by rwa [Stream.running_of_state hstate])).1]
        exact hstate⟩⟩

end Sys2Proof.Machine
end

section
open Sys2Proof.Machine

/-- Settles O41: each clause is the release of a chunk or of a segment verdict, taken at its boundary's work and then at that work's
end (a halt, a close, DRAINING, or none). -/
theorem ingressBoundaries : Obligations.IngressBoundaries := by
  intro s
  refine ⟨fun o u h => orphanChunkClause h, fun k st c p ho hd hq hp => ⟨?_, ?_, ?_, ?_, ?_⟩,
    fun k st v p hd => ⟨segmentWaitsClause hd, fun hc hq he hp => ?_⟩⟩
  · exact fun he hv hr hf hrun => chunkCommitClause ho hd hq hp he hv hr hf hrun
  · intro he hv hr hclosed
    obtain ⟨t, st', hrun, htable, hs, hsr, hn, hc, hlate, -, hoff⟩ := chunkHaltClause (late := true) (forged := false) (r := 9)
      ho hd hq hp he (by simp [hv, hr]) (by simp [hr]) rfl (by simp [Policy.chunkHalt, hclosed])
    exact ⟨t, st', hrun, htable, hs, hsr, hn, hc, hlate rfl, hoff⟩
  · intro he hv hr hf
    obtain ⟨t, st', hrun, htable, hs, hsr, hn, hc, -, hforged, hoff⟩ := chunkHaltClause (late := false) (forged := true) (r := 14)
      ho hd hq hp he (by simp [hr]) (by simp [hv, hr, hf]) rfl rfl
    exact ⟨t, st', hrun, htable, hs, hsr, hn, hc, hforged rfl, hoff⟩
  · exact fun he hv => chunkVoidClause ho hd hq hp he hv
  · exact fun he => chunkEndedClause ho hd hq hp he
  · obtain ⟨t, st', hrun, htable, hoff, hlate, hhalts, hgo⟩ := segmentVerdictClause hd hc hq he hp
    refine ⟨t, st', hrun, htable, hoff, hlate, fun h => hhalts ?_, fun h => ?_⟩
    · unfold SegVerdict.actions?
      cases hv : v.verdict <;> simp only [hv] at h <;> exact h
    · unfold SegVerdict.actions? at hgo
      cases hv : v.verdict <;> simp only [hv] at h hgo ⊢ <;> exact hgo h

end

section
/-! Logit packets, their sets and the logit stamp of a step (R294 to R297, R302, R322). -/

namespace Sys2Proof.Machine

variable {s t u : State} {k : SlotId} {st x : Stream} {p : Policy} {b : SamplerTables} {a : Arrival}

/-! ### One stream changed -/

theorem State.onlyStream_setStream (s : State) (k : SlotId) (x : Stream) : s.OnlyStream (s.setStream k x) k x :=
  ⟨rfl, rfl, .inl rfl⟩

/-- What writes besides the inside leaves a change of one stream as it is. -/
theorem State.onlyStream_of_inside {v : State} (h : s.OnlyStream u k x) (hv : v.inside = u.inside) : s.OnlyStream v k x := by
  obtain ⟨htable, hoff, heng⟩ := h
  have he : v.eng = u.eng := State.of_inside State.eng (fun _ => rfl) hv
  unfold State.OnlyStream State.EnginesKeep
  rw [State.table_of_inside hv, State.offStreams_of_inside hv, he]
  exact ⟨htable, hoff, heng⟩

/-- A change of one stream, counted from a state of the same quiet part. -/
theorem State.onlyStream_of_quiet (hu : u.quiet = s.quiet) (h : u.OnlyStream t k x) : s.OnlyStream t k x :=
  State.onlyStream_of_same ⟨State.of_quiet State.streams (fun _ => rfl) hu, State.offStreams_of_inside (State.inside_of_quiet hu),
    State.of_quiet State.eng (fun _ => rfl) hu⟩ h

theorem State.samplerEvent_latched (s : State) (pos handle step now : Nat) :
    (s.effects (samplerEvent pos handle step now)).latched 10 = true :=
  State.effects_raises _ _ 10 _ (List.mem_cons_of_mem _ (List.mem_singleton.2 rfl))

/-! ### Taking a packet at port 0xD3 -/

theorem logitPacket_counted (h : s.takeInbox (fun a => decide (a.pkt.hdr.port = 0xD3#8) && s.logitReady a) = some (a, u))
    (hbad : a.pkt.hdr.cls ≠ 0#3 ∨ s.policies.any (fun p => p.role 1) = false) :
    ∃ t, exec .logitPacket s = .next t ∧ t.quiet = u.quiet ∧ t.latched 10 = true := by
  have hu : u.policies = s.policies := by
    obtain ⟨r, rfl⟩ := State.takeInbox_eq h
    rfl
  have hcond : a.pkt.hdr.cls ≠ 0#3 ∨ (!u.policies.any (fun p => p.role 1)) = true := by
    rw [hu]
    exact hbad.imp_right fun hr => by rw [hr]; rfl
  have hrun : logitPacket s = u.effects (samplerEvent 8 (parseLogit a.pkt.payload).handle (parseLogit a.pkt.payload).step u.now) := by
    unfold logitPacket
    simp only [h]
    rw [if_pos hcond]
  exact ⟨_, congrArg Host.Outcome.next hrun, State.effects_quiet .., State.samplerEvent_latched ..⟩

section
variable (h : s.takeInbox (fun a => decide (a.pkt.hdr.port = 0xD3#8) && s.logitReady a) = some (a, u))
  (h0 : a.pkt.hdr.cls = 0#3) (hrole : s.policies.any (fun p => p.role 1) = true)
include h h0 hrole

theorem logitPacket_taken : ¬ (a.pkt.hdr.cls ≠ 0#3 ∨ (!u.policies.any (fun p => p.role 1)) = true) := by
  have hu : u.policies = s.policies := by
    obtain ⟨r, rfl⟩ := State.takeInbox_eq h
    rfl
  rw [hu, hrole]
  simp [h0]

theorem logitStaleClause (hn : s.named (field a.pkt.payload 0 8) = .stale) :
    exec .logitPacket s = .next (u.count1 0x14 0 0) := by
  have hu : u.named (parseLogit a.pkt.payload).handle = .stale := by
    obtain ⟨r, rfl⟩ := State.takeInbox_eq h
    exact hn
  refine congrArg Host.Outcome.next ?_
  unfold logitPacket
  simp only [h]
  rw [if_neg (logitPacket_taken h h0 hrole), hu]

/-- A packet that names a stream is that stream's. -/
theorem exec_logitPacket (hn : s.named (parseLogit a.pkt.payload).handle = .stream k st) :
    exec .logitPacket s = .next (u.logitFor k st a) := by
  have hu : u.named (parseLogit a.pkt.payload).handle = .stream k st := by
    obtain ⟨r, rfl⟩ := State.takeInbox_eq h
    exact hn
  refine congrArg Host.Outcome.next ?_
  unfold logitPacket
  simp only [h]
  rw [if_neg (logitPacket_taken h h0 hrole), hu]

end

/-! ### A packet of a stream -/

/-- A packet fits its stream, its policy's tables and the stream's open set (R294, R295). -/
def Stream.logitFits (st : Stream) (b : SamplerTables) (a : Arrival) : Prop :=
  let h := parseLogit a.pkt.payload
  st.req.egress = true ∧ h.fits a.pkt.payload.length = true ∧ h.first + h.count ≤ b.vocab ∧ h.drafts ≤ st.sampling.drafts ∧
    (∀ y, st.openSet = some y → y.step = h.step → y.repeats h = false ∧ y.agrees h = true)

/-- The logit buffer of the stream's half has room for the packet (R297). -/
def State.logitRoom (s : State) (p : Policy) (k : SlotId) (a : Arrival) : Prop :=
  let h := parseLogit a.pkt.payload
  s.logitUse p (p.samplerHalf k) + h.count * logitSize (decide (h.format = 1)) ≤ 16777216

/-- The empty set of a packet (R295). -/
def Arrival.logitSet (a : Arrival) : LogitSet :=
  let h := parseLogit a.pkt.payload
  { step := h.step, prevIndex := h.prevIndex, drafts := h.drafts, bf16 := decide (h.format = 1), draftIds := h.draftIds,
    firstStamp := a.stamp, pieces := [] }

/-- A set with the entries of one packet more. -/
def LogitSet.join (y : LogitSet) (a : Arrival) : LogitSet :=
  let h := parseLogit a.pkt.payload
  { y with pieces := y.pieces ++ [{ position := h.position, first := h.first, values := logitEntries h a.pkt.payload }] }

/-- The set that a packet joins: the open one of its step, or its own (R295, R296). -/
def Stream.setJoined (st : Stream) (a : Arrival) : LogitSet :=
  (match st.openSet with
    | some y => (if y.step = (parseLogit a.pkt.payload).step then y else a.logitSet)
    | none => a.logitSet).join a

theorem State.expireSet_within {window stamp : Nat} (h : ∀ y, st.openSet = some y → stamp < y.firstStamp + window) :
    s.expireSet k st window stamp = (st, s) := by
  unfold State.expireSet
  cases ho : st.openSet with
  | none => rfl
  | some y =>
    have := h y ho
    dsimp only
    rw [if_neg (by omega)]

/-- Whether a packet repeats entries of its step's open set, or disagrees with its first packet (R295). -/
def Stream.logitClash (st : Stream) (h : LogitHeader) : Bool :=
  match st.openSet with
  | some x => decide (x.step = h.step) && (x.repeats h || !x.agrees h)
  | none => false

theorem Stream.logitClash_false_iff (st : Stream) (h : LogitHeader) :
    st.logitClash h = false ↔ ∀ y, st.openSet = some y → y.step = h.step → y.repeats h = false ∧ y.agrees h = true := by
  unfold Stream.logitClash
  cases st.openSet with
  | none => simp
  | some y =>
    simp only [Option.some.injEq, forall_eq', Bool.and_eq_false_iff, decide_eq_false_iff_not, Bool.or_eq_false_iff,
      Bool.not_eq_false_eq_eq_true, ← imp_iff_not_or]

/-- What turns a packet of a stream away before its entries are counted (R294, R295). -/
def Stream.logitBad (st : Stream) (b : SamplerTables) (a : Arrival) : Bool :=
  let h := parseLogit a.pkt.payload
  !st.req.egress || !h.fits a.pkt.payload.length || decide (b.vocab < h.first + h.count) || decide (st.sampling.drafts < h.drafts)
    || st.logitClash h

theorem Stream.logitBad_false_iff (st : Stream) (b : SamplerTables) (a : Arrival) :
    st.logitBad b a = false ↔ st.logitFits b a := by
  unfold Stream.logitBad Stream.logitFits
  dsimp only
  rw [← Stream.logitClash_false_iff]
  simp [and_assoc]

section
variable (hp : s.policyFor st a.stamp = some p) (hb : s.samplerTables p k = some b)
  (hw : ∀ y, st.openSet = some y → a.stamp < y.firstStamp + b.logitWindow)
include hp hb hw

theorem State.logitFor_eq :
    s.logitFor k st a =
      if st.logitBad b a then s.effects (samplerEvent 8 (parseLogit a.pkt.payload).handle (parseLogit a.pkt.payload).step s.now)
      else if 16777216 < s.logitUse p (p.samplerHalf k) +
          (parseLogit a.pkt.payload).count * logitSize (decide ((parseLogit a.pkt.payload).format = 1)) then
        s.effects (samplerEvent 11 (parseLogit a.pkt.payload).handle (parseLogit a.pkt.payload).step s.now)
      else s.joinSet k st p b (parseLogit a.pkt.payload) a := by
  have hbind : (s.policyFor st a.stamp).bind (fun p => (s.samplerTables p k).map (fun t => (p, t))) = some (p, b) := by
    rw [hp, Option.bind_some, hb, Option.map_some]
  unfold State.logitFor
  simp only [hbind, State.expireSet_within hw]
  rfl

theorem State.logitFor_fits (hfits : st.logitFits b a) (hroom : s.logitRoom p k a) :
    s.logitFor k st a = s.joinSet k st p b (parseLogit a.pkt.payload) a := by
  rw [State.logitFor_eq hp hb hw, (st.logitBad_false_iff b a).2 hfits, if_neg Bool.false_ne_true, if_neg (Nat.not_lt.2 hroom)]

theorem State.logitFor_counted (hbad : ¬ st.logitFits b a ∨ ¬ s.logitRoom p k a) :
    (s.logitFor k st a).quiet = s.quiet ∧ (s.logitFor k st a).latched 10 = true := by
  rw [State.logitFor_eq hp hb hw]
  split
  · exact ⟨State.effects_quiet .., State.samplerEvent_latched ..⟩
  · next hfits =>
    have hroom : ¬ s.logitRoom p k a := hbad.resolve_left fun hn =>
      hn ((st.logitBad_false_iff b a).1 (Bool.eq_false_iff.2 hfits))
    rw [if_pos (Nat.not_le.1 hroom)]
    exact ⟨State.effects_quiet .., State.samplerEvent_latched ..⟩

end

/-- The open set of a packet's step (R295). -/
def Stream.openFor (st : Stream) (a : Arrival) : Option LogitSet :=
  st.openSet.filter (fun x => decide (x.step = (parseLogit a.pkt.payload).step))

theorem Stream.setJoined_eq (st : Stream) (a : Arrival) : st.setJoined a = ((st.openFor a).getD a.logitSet).join a := by
  unfold Stream.setJoined Stream.openFor
  cases st.openSet with
  | none => rfl
  | some y =>
    by_cases hy : y.step = (parseLogit a.pkt.payload).step <;> simp [Option.filter, hy]

/-- An accepted packet joins its set (R295, R296). -/
theorem State.joinSet_eq (s : State) (k : SlotId) (st : Stream) (p : Policy) (b : SamplerTables) (a : Arrival) :
    ∃ v : State, v.quiet = s.quiet ∧ s.joinSet k st p b (parseLogit a.pkt.payload) a =
      if (st.setJoined a).received < b.vocab * ((st.setJoined a).drafts + 1) then v.setStream k { st with openSet := some (st.setJoined a) }
      else if s.effStamp a.stamp < st.openStamp + 512 then
        (v.setStream k { st with openSet := none }).violation a.pkt.hdr.seq (edgeByte a.edge)
      else v.logitStamp k st p b (st.setJoined a) a.stamp := by
  refine ⟨if st.openSet.isSome && (st.openFor a).isNone then (s.count1 0x0E 0 7).count1 0x0E 0 9 else s.count1 0x0E 0 7, ?_, ?_⟩
  · split
    · exact (State.count1_quiet ..).trans (State.count1_quiet ..)
    · exact State.count1_quiet ..
  · rw [Stream.setJoined_eq]
    rfl

/-! ### The logit stamp (R302, R322) -/

/-- A policy holds a stream's grammar with the same content (R322). -/
def Policy.keepsGrammar (p : Policy) (st : Stream) : Bool :=
  match p.grammarContent st.sampling.grammarId, st.grammarContent with
  | some a, some b => decide (a = b)
  | _, _ => false

theorem Policy.keepsGrammar_iff (p : Policy) (st : Stream) :
    p.keepsGrammar st = true ↔
      ¬ (p.grammarContent st.sampling.grammarId = none ∨ p.grammarContent st.sampling.grammarId ≠ st.grammarContent) := by
  unfold Policy.keepsGrammar
  cases p.grammarContent st.sampling.grammarId <;> cases st.grammarContent <;> simp

/-- A stream at its first step under a new policy, its bias cleared (R322). -/
def Stream.biasCleared (st : Stream) (p : Policy) : Stream :=
  { st with sampling := { st.sampling with biasVector := 0xFFFF#16, biasScale := 0#32 }, sampleEpoch := p.epoch }

/-- A stream that loses its grammar too (R322). -/
def Stream.grammarLost (st : Stream) : Stream :=
  { st with sampling := { st.sampling with grammarId := 0xFFFF, logIndex := none }, workGrammar := {}, log := [] }

theorem Stream.samplerCut_eq (st : Stream) (p : Policy) : st.samplerCut p =
    if p.epoch = st.sampleEpoch then (st, false)
    else if st.sampling.grammarId = 0xFFFF ∨ p.keepsGrammar st = true then (st.biasCleared p, false)
    else ((st.biasCleared p).grammarLost, true) := rfl

/-- What the first step under a new policy leaves of the stream, and what it drops (R322). -/
theorem Stream.samplerCut_spec (st : Stream) (p : Policy) :
    (st.samplerCut p).1.steps = st.steps ∧ (st.samplerCut p).1.rngNext = st.rngNext ∧ (st.samplerCut p).1.tokens = st.tokens ∧
      (st.samplerCut p).1.survivors = st.survivors ∧ (st.samplerCut p).1.sampleEpoch = p.epoch ∧
      (st.sampleEpoch = p.epoch → (st.samplerCut p).1.sampling = st.sampling ∧ (st.samplerCut p).1.workGrammar = st.workGrammar) ∧
      (st.sampleEpoch ≠ p.epoch →
        (st.samplerCut p).1.sampling.biasVector = 0xFFFF#16 ∧ (st.samplerCut p).1.sampling.biasScale = 0#32 ∧
        ((st.samplerCut p).2 = true ↔ st.sampling.grammarId ≠ 0xFFFF ∧
          (p.grammarContent st.sampling.grammarId = none ∨ p.grammarContent st.sampling.grammarId ≠ st.grammarContent)) ∧
        ((st.samplerCut p).2 = true → (st.samplerCut p).1.sampling.grammarId = 0xFFFF) ∧
        ((st.samplerCut p).2 = false → (st.samplerCut p).1.sampling.grammarId = st.sampling.grammarId ∧
          (st.samplerCut p).1.workGrammar = st.workGrammar)) := by
  have hkeeps := p.keepsGrammar_iff st
  rw [Stream.samplerCut_eq]
  split
  · next he => exact ⟨rfl, rfl, rfl, rfl, he.symm, fun _ => ⟨rfl, rfl⟩, fun hne => absurd he.symm hne⟩
  · next he =>
    split
    · next hkeep =>
      refine ⟨rfl, rfl, rfl, rfl, rfl, fun heq => absurd heq.symm he, fun _ => ⟨rfl, rfl, ?_, nofun, fun _ => ⟨rfl, rfl⟩⟩⟩
      exact ⟨nofun, fun ⟨hid, hdiff⟩ => absurd hdiff (hkeeps.1 (hkeep.resolve_left hid))⟩
    · next hdrop =>
      push Not at hdrop
      refine ⟨rfl, rfl, rfl, rfl, rfl, fun heq => absurd heq.symm he, fun _ => ⟨rfl, rfl, ?_, fun _ => rfl, nofun⟩⟩
      exact ⟨fun _ => ⟨hdrop.1, Decidable.not_not.1 fun hn => hdrop.2 (hkeeps.2 hn)⟩, fun _ => rfl⟩

/-- The step that a complete set gives, of the stream as the cut to its policy leaves it (R302). -/
def State.stampedStep (s : State) (st : Stream) (p : Policy) (b : SamplerTables) (set : LogitSet) (stamp : Nat) : Step :=
  let st1 := (st.samplerCut p).1
  let has := decide (st1.sampling.grammarId ≠ 0xFFFF)
  { set := set, stamp := s.effStamp stamp, release := s.effStamp stamp + p.delay 3, epoch := p.epoch, sampling := st1.sampling,
    grammar := st1.workGrammar, hasGrammar := has, grammarDropped := (st.samplerCut p).2, highest := st1.highest,
    ended := st1.appendedEnd,
    result := sampleStep b p.tables.egress st1.sampling st1.rngNext (if has then some st1.workGrammar else none) set }

theorem State.stampedStep_result (s : State) (st : Stream) (p : Policy) (b : SamplerTables) (set : LogitSet) (stamp : Nat) :
    (s.stampedStep st p b set stamp).result = sampleStep b p.tables.egress (st.samplerCut p).1.sampling st.rngNext
      (if (st.samplerCut p).1.sampling.grammarId ≠ 0xFFFF then some (st.samplerCut p).1.workGrammar else none) set := by
  obtain ⟨-, hrng, -⟩ := st.samplerCut_spec p
  unfold State.stampedStep
  simp only [hrng, decide_eq_true_eq]

/-- A stream with one step more, its set complete. -/
def Stream.withStep (st : Stream) (x : Step) : Stream :=
  { st with openSet := none, steps := st.steps ++ [x], rngNext := st.rngNext + x.result.positions }

theorem State.logitStamp_onlyStream (s : State) (k : SlotId) (st : Stream) (p : Policy) (b : SamplerTables) (set : LogitSet) (stamp : Nat) :
    s.OnlyStream (s.logitStamp k st p b set stamp) k ((st.samplerCut p).1.withStep (s.stampedStep st p b set stamp)) := by
  unfold State.logitStamp
  dsimp only
  split
  · exact State.onlyStream_effects _ ⟨rfl, rfl, .inl rfl⟩
  · exact ⟨rfl, rfl, .inl rfl⟩

/-! ### The clauses on a packet -/

section
variable (h : s.takeInbox (fun a => decide (a.pkt.hdr.port = 0xD3#8) && s.logitReady a) = some (a, u))
  (h0 : a.pkt.hdr.cls = 0#3) (hrole : s.policies.any (fun p => p.role 1) = true)
  (hn : s.named (parseLogit a.pkt.payload).handle = .stream k st) (hp : s.policyFor st a.stamp = some p)
  (hb : s.samplerTables p k = some b) (hw : ∀ y, st.openSet = some y → a.stamp < y.firstStamp + b.logitWindow)
include h h0 hrole hn hp hb hw

theorem logitCountedClause (hbad : ¬ st.logitFits b a ∨ ¬ s.logitRoom p k a) :
    ∃ t, exec .logitPacket s = .next t ∧ t.quiet = u.quiet ∧ t.latched 10 = true := by
  refine ⟨_, exec_logitPacket h h0 hrole hn, ?_⟩
  obtain ⟨r, rfl⟩ := State.takeInbox_eq h
  exact State.logitFor_counted hp hb hw hbad

/-- A packet that fits joins its set, on the state its taking leaves. -/
theorem exec_logitPacket_joins (hfits : st.logitFits b a) (hroom : s.logitRoom p k a) :
    ∃ v : State, v.streams = s.streams ∧ v.offStreams = s.offStreams ∧ v.eng = s.eng ∧ v.effStamp a.stamp = s.effStamp a.stamp ∧
      exec .logitPacket s = .next (
        if (st.setJoined a).received < b.vocab * ((st.setJoined a).drafts + 1) then
          v.setStream k { st with openSet := some (st.setJoined a) }
        else if s.effStamp a.stamp < st.openStamp + 512 then
          (v.setStream k { st with openSet := none }).violation a.pkt.hdr.seq (edgeByte a.edge)
        else v.logitStamp k st p b (st.setJoined a) a.stamp) := by
  obtain ⟨v, hv, hjoin⟩ := u.joinSet_eq k st p b a
  have hsame := State.takeInbox_same h
  have heff : u.effStamp a.stamp = s.effStamp a.stamp ∧ u.logitFor k st a = u.joinSet k st p b (parseLogit a.pkt.payload) a := by
    obtain ⟨r, rfl⟩ := State.takeInbox_eq h
    exact ⟨rfl, State.logitFor_fits hp hb hw hfits hroom⟩
  refine ⟨v, (State.of_quiet State.streams (fun _ => rfl) hv).trans hsame.1,
    (State.offStreams_of_inside (State.inside_of_quiet hv)).trans hsame.2.1,
    (State.of_quiet State.eng (fun _ => rfl) hv).trans hsame.2.2,
    (State.of_quiet (fun w => w.effStamp a.stamp) (fun _ => rfl) hv).trans heff.1, ?_⟩
  rw [exec_logitPacket h h0 hrole hn, heff.2, hjoin, heff.1]

section
variable (hfits : st.logitFits b a) (hroom : s.logitRoom p k a)
include hfits hroom

theorem logitIncompleteClause (hr : (st.setJoined a).received < b.vocab * ((st.setJoined a).drafts + 1)) :
    ∃ t, exec .logitPacket s = .next t ∧ s.OnlyStream t k { st with openSet := some (st.setJoined a) } := by
  obtain ⟨v, hstreams, hoff, heng, -, hrun⟩ := exec_logitPacket_joins h h0 hrole hn hp hb hw hfits hroom
  rw [if_pos hr] at hrun
  exact ⟨_, hrun, State.onlyStream_of_same ⟨hstreams, hoff, heng⟩ (v.onlyStream_setStream ..)⟩

theorem logitEarlyClause (hr : b.vocab * ((st.setJoined a).drafts + 1) ≤ (st.setJoined a).received)
    (he : s.effStamp a.stamp < st.openStamp + 512) :
    ∃ t, exec .logitPacket s = .next t ∧ s.OnlyStream t k { st with openSet := none } := by
  obtain ⟨v, hstreams, hoff, heng, -, hrun⟩ := exec_logitPacket_joins h h0 hrole hn hp hb hw hfits hroom
  rw [if_neg (Nat.not_lt.2 hr), if_pos he] at hrun
  exact ⟨_, hrun, State.onlyStream_of_same ⟨hstreams, hoff, heng⟩
    (State.onlyStream_of_inside (v.onlyStream_setStream ..) (State.violation_inside ..))⟩

theorem logitCompleteClause (hr : b.vocab * ((st.setJoined a).drafts + 1) ≤ (st.setJoined a).received)
    (he : st.openStamp + 512 ≤ s.effStamp a.stamp) :
    ∃ t, exec .logitPacket s = .next t ∧
      s.OnlyStream t k ((st.samplerCut p).1.withStep (s.stampedStep st p b (st.setJoined a) a.stamp)) := by
  obtain ⟨v, hstreams, hoff, heng, heff, hrun⟩ := exec_logitPacket_joins h h0 hrole hn hp hb hw hfits hroom
  rw [if_neg (Nat.not_lt.2 hr), if_neg (Nat.not_lt.2 he)] at hrun
  have hstep : v.stampedStep st p b (st.setJoined a) a.stamp = s.stampedStep st p b (st.setJoined a) a.stamp := by
    unfold State.stampedStep
    rw [heff]
  have honly := v.logitStamp_onlyStream k st p b (st.setJoined a) a.stamp
  rw [hstep] at honly
  exact ⟨_, hrun, State.onlyStream_of_same ⟨hstreams, hoff, heng⟩ honly⟩

end

end

end Sys2Proof.Machine
end

section
/-! A sampling step's end, its release with the tokens appended, and the obligation (R40, R41, R296, R307, R317 to R320). -/

namespace Sys2Proof.Machine

variable {s t u : State} {k : SlotId} {st x : Stream} {p : Policy} {y : Step} {o : Orphan}

/-! ### The window of a set (R296) -/

theorem logitExpiryClause {l : LogitSet} {b : SamplerTables} (hat : aget k s.streams.table = some st) (ho : st.openSet = some l)
    (hb : (s.policyOf st).bind (fun p => p.tables.sampler) = some b) :
    (l.firstStamp + b.logitWindow ≤ s.now →
      ∃ t, exec (.logitWindowExpiry k) s = .next t ∧ s.OnlyStream t k { st with openSet := none } ∧ t.latched 10 = true) ∧
    (s.now < l.firstStamp + b.logitWindow → exec (.logitWindowExpiry k) s = .next s) := by
  have hrun : logitExpiry k s = if l.firstStamp + b.logitWindow ≤ s.now then
      (s.setStream k { st with openSet := none }).effects (samplerEvent 10 st.handle.toNat l.step s.now) else s := by
    unfold logitExpiry
    simp only [hat, ho, hb]
  refine ⟨fun h => ?_, fun h => ?_⟩
  · rw [if_pos h] at hrun
    exact ⟨_, congrArg Host.Outcome.next hrun, State.onlyStream_effects _ (s.onlyStream_setStream ..), State.samplerEvent_latched ..⟩
  · rw [if_neg (Nat.not_le.2 h)] at hrun
    exact congrArg Host.Outcome.next hrun

theorem logitNoSetClause (hat : aget k s.streams.table = some st) (ho : st.openSet = none) :
    exec (.logitWindowExpiry k) s = .next s := by
  refine congrArg Host.Outcome.next ?_
  unfold logitExpiry
  simp only [hat, ho]

/-! ### A step's end (R40, R41, R470) -/

theorem mem_mapFirst_self {α : Type} [DecidableEq α] {a : α} (g : α → α) : ∀ {l : List α}, a ∈ l →
    g a ∈ mapFirst (fun b => decide (b = a)) g l
  | b :: l, h => by
    unfold mapFirst
    by_cases hb : b = a
    · rw [if_pos (decide_eq_true hb), hb]
      exact List.mem_cons_self
    · rw [if_neg (by simp [hb])]
      exact List.mem_cons_of_mem _ (mem_mapFirst_self g ((List.mem_cons.1 h).resolve_left fun e => hb e.symm))

/-- A step that ends before its release: it stands, or is late. -/
def Step.ended? (y : Step) (ok : Bool) : Step := { y with done := ok, late := !ok }

theorem stepDoneClause (hat : aget k s.streams.table = some st) (hy : st.steps.find? (fun x => !x.done && !x.late) = some y)
    (hr : y.released = false) :
    ∃ t st', exec (.samplerStepDone k) s = .next t ∧ s.OnlyStream t k st' ∧ { st' with steps := st.steps } = st ∧
      y.ended? (decide (s.now < y.release) && (s.tablePoison 3 st.handle y.stamp).isNone) ∈ st'.steps := by
  have hrun : ∃ es g, g y = y.ended? (decide (s.now < y.release) && (s.tablePoison 3 st.handle y.stamp).isNone) ∧
      stepDone k s = (s.setStream k { st with steps := mapFirst (fun x => decide (x = y)) g st.steps }).effects es := by
    unfold stepDone
    simp only [hat, hy, hr, Bool.false_eq_true, if_false]
    refine ⟨_, _, ?_, rfl⟩
    have hlt : decide (s.now < y.release) = !decide (y.release ≤ s.now) := by
      rw [← decide_not]
      exact decide_eq_decide.2 Nat.not_le.symm
    unfold Step.ended?
    rw [hlt]
    cases s.tablePoison 3 st.handle y.stamp <;> simp
  obtain ⟨es, g, hg, hrun⟩ := hrun
  refine ⟨_, _, congrArg Host.Outcome.next hrun, State.onlyStream_effects _ (s.onlyStream_setStream ..), rfl, ?_⟩
  rw [← hg]
  exact mem_mapFirst_self g (List.mem_of_find?_eq_some hy)

theorem stepLateClause (hat : aget k s.streams.table = some st) (hy : st.steps.find? (fun x => !x.done && !x.late) = some y)
    (hr : y.released = true) :
    ∃ t, exec (.samplerStepDone k) s = .next t ∧ s.OnlyStream t k { st with steps := st.steps.erase y } := by
  have hrun : ∃ es, stepDone k s = (s.setStream k { st with steps := st.steps.erase y }).effects es := by
    unfold stepDone
    simp only [hat, hy, hr, if_true]
    exact ⟨_, rfl⟩
  obtain ⟨es, hrun⟩ := hrun
  exact ⟨_, congrArg Host.Outcome.next hrun, State.onlyStream_effects _ (s.onlyStream_setStream ..)⟩

/-! ### Appending (R317) -/

/-- A token as appending stamps it: with the step's release, under its policy, due after VL (R46, R317). -/
def Token.appendedBy (z : Token) (c : Appending) : Prop :=
  z.stamp = c.step.release ∧ z.epoch = c.policy.epoch ∧ z.release = c.env.now + c.policy.delay 4 ∧ z.cutoff = z.release - c.policy.cb

/-- Stream x is stream a with n tokens appended. -/
def Stream.Extends (a : Stream) (c : Appending) (x : Stream) (n : Nat) : Prop :=
  x.nextIndex = a.nextIndex + n ∧ (∃ l, x.tokens = a.tokens ++ l ∧ l.length = n ∧ ∀ z ∈ l, z.appendedBy c) ∧
    x.appended = (if n = 0 then a.appended else some (x.nextIndex - 1)) ∧ x.committed = a.committed ∧ x.text = a.text ∧
    x.rngReleased = a.rngReleased

theorem Stream.Extends.refl (a : Stream) (c : Appending) : a.Extends c a 0 :=
  ⟨(Nat.add_zero _).symm, ⟨[], (List.append_nil _).symm, rfl, fun _ hz => nomatch hz⟩, (if_pos rfl).symm, rfl, rfl, rfl⟩

theorem Stream.Extends.trans {a b : Stream} {c : Appending} {m n : Nat} (h : a.Extends c b m) (g : b.Extends c x n) :
    a.Extends c x (m + n) := by
  obtain ⟨hindex, ⟨l, hl, hlen, hall⟩, happ, hcom, htext, hrng⟩ := h
  obtain ⟨gindex, ⟨l', gl, glen, gall⟩, gapp, gcom, gtext, grng⟩ := g
  refine ⟨by rw [gindex, hindex, Nat.add_assoc], ⟨l ++ l', by rw [gl, hl, List.append_assoc], by rw [List.length_append, hlen, glen],
    fun z hz => (List.mem_append.1 hz).elim (hall z) (gall z)⟩, ?_, gcom.trans hcom, gtext.trans htext, grng.trans hrng⟩
  rcases Nat.eq_zero_or_pos n with rfl | hn
  · rw [gapp, if_pos rfl, happ, gindex]
    rfl
  · rw [gapp, if_neg (by omega), if_neg (by omega)]

/-- A policy's first token cuts a stream's stop matching alone (R441). -/
theorem Stream.stopCut_stream (st : Stream) (e : Env) (p : Policy) : ∃ w, st.stopCut e p = { st with work := w } := by
  unfold Stream.stopCut
  split
  · exact ⟨st.work, rfl⟩
  · exact ⟨_, rfl⟩

theorem Stream.append_extends (st : Stream) (c : Appending) (pos id masked : Nat) : st.Extends c (st.append c pos id masked) 1 := by
  obtain ⟨w, hcut⟩ := st.stopCut_stream c.env c.policy
  unfold Stream.append
  dsimp only
  rw [hcut]
  obtain ⟨_, _, _, hscan⟩ := Stream.scanAwl_stream { st with work := w } c.policy c.env.slot none
    (((w.append c.env.stop st.nextIndex (tokenText c.policy.tables.egress id).1).2.1).zipIdx.map (fun (b, i) => (b, w.write + i)))
  rw [hscan]
  refine ⟨rfl, ⟨[_], rfl, rfl, fun z hz => ?_⟩, rfl, rfl, rfl, rfl⟩
  obtain rfl := List.mem_singleton.1 hz
  exact ⟨rfl, rfl, rfl, rfl⟩

theorem Stream.appendAll_overflow {c : Appending} {id : Nat} (h : st.grammarAppend c id = some none) (b : Bool)
    (rest : List (Nat × Bool)) (pos : Nat) (ids : List Nat) : Stream.appendAll c ((id, b) :: rest) pos st ids = (st, ids, 7) := by
  rw [Stream.appendAll, if_pos h]

/-- What appending comes to once token id is appended: it is the last, or the rest follows (R317). -/
def Stream.AfterToken (st : Stream) (c : Appending) (id : Nat) (rest : List (Nat × Bool)) (pos : Nat) (ids : List Nat)
    (z : Stream × List Nat × Nat) : Prop :=
  (∃ r, z = (st.append c pos id 0, ids ++ [id], r)) ∨ z = Stream.appendAll c rest (pos + 1) (st.append c pos id 0) (ids ++ [id])

/-- A token that does not overflow the stack is appended (R307, R317). -/
theorem Stream.appendAll_cons {c : Appending} {id : Nat} (h : st.grammarAppend c id ≠ some none) (b : Bool)
    (rest : List (Nat × Bool)) (pos : Nat) (ids : List Nat) :
    st.AfterToken c id rest pos ids (Stream.appendAll c ((id, b) :: rest) pos st ids) := by
  rw [Stream.appendAll, if_neg h]
  exact iteInduction (motive := st.AfterToken c id rest pos ids) (fun _ => .inl ⟨1, rfl⟩) fun _ =>
    iteInduction (motive := st.AfterToken c id rest pos ids) (fun _ => .inl ⟨3, rfl⟩) fun _ =>
      iteInduction (motive := st.AfterToken c id rest pos ids) (fun _ => .inl ⟨0, rfl⟩) fun _ => .inr rfl

/-- Appending a step's tokens appends as many as their IDs say, and not more than the step has (R317). -/
theorem Stream.appendAll_extends (c : Appending) : ∀ (l : List (Nat × Bool)) (pos : Nat) (st : Stream) (ids : List Nat),
    ∃ n ≤ l.length, st.Extends c (Stream.appendAll c l pos st ids).1 n ∧
      (Stream.appendAll c l pos st ids).2.1.length = ids.length + n
  | [], pos, st, ids => ⟨0, Nat.le_refl 0, .refl st c, rfl⟩
  | (id, b) :: rest, pos, st, ids => by
    by_cases h : st.grammarAppend c id = some none
    · rw [Stream.appendAll_overflow h]
      exact ⟨0, Nat.zero_le _, .refl st c, rfl⟩
    · rcases Stream.appendAll_cons h b rest pos ids with ⟨r, hr⟩ | hr
      · rw [hr]
        exact ⟨1, by simp, st.append_extends .., List.length_append⟩
      · obtain ⟨n, hn, hext, hids⟩ := Stream.appendAll_extends c rest (pos + 1) (st.append c pos id 0) (ids ++ [id])
        rw [hr]
        exact ⟨1 + n, by rw [List.length_cons]; omega, (st.append_extends ..).trans hext, by rw [hids, List.length_append, Nat.add_assoc]; rfl⟩

/-- The first token is appended unless it overflows the grammar's stack (R307). -/
theorem Stream.appendAll_ne_nil {c : Appending} {id : Nat} (h : st.grammarAppend c id ≠ some none) (b : Bool)
    (rest : List (Nat × Bool)) (pos : Nat) : (Stream.appendAll c ((id, b) :: rest) pos st []).2.1 ≠ [] := by
  rcases Stream.appendAll_cons h b rest pos [] with ⟨r, hr⟩ | hr
  · rw [hr]
    exact List.cons_ne_nil id []
  · obtain ⟨n, -, -, hlen⟩ := Stream.appendAll_extends c rest (pos + 1) (st.append c pos id 0) ([] ++ [id])
    rw [hr]
    exact List.ne_nil_of_length_pos (by rw [hlen, List.length_append, List.length_singleton]; omega)

/-! ### The release of a step (R319, R320) -/

/-- A token packet leaves the inside as it is. -/
theorem State.sendTokens_inside (s : State) (st : Stream) (y : Step) (b : List Byte) : (s.sendTokens st y b).inside = s.inside := by
  unfold State.sendTokens
  dsimp only
  split
  · exact State.sendClass0_inside ..
  · rfl

/-- A stream with a release that appends nothing: its halt, if it is halted, is due after VL (R320). -/
def Stream.releasedNone (st : Stream) (r : NoToken) (due : Nat) : Stream :=
  ({ st with stepHalts := if r.halts then st.stepHalts ++ [{ due := due, reason := r.reason }] else st.stepHalts } : Stream).owe 7
    (if r.reason = 9 ∧ r.halts then 1 else 0)

theorem Stream.owe_st (st : Stream) (i n : Nat) : ∃ l, st.owe i n = { st with owed := l } := by
  unfold Stream.owe
  split
  · exact ⟨st.owed, rfl⟩
  · exact ⟨_, rfl⟩

theorem State.releaseNone_onlyStream (s : State) (k : SlotId) (st : Stream) (y : Step) (r : NoToken) (vl : Nat) :
    s.OnlyStream (s.releaseNone k st y r vl) k (st.releasedNone r (s.effStamp y.release + vl)) := by
  unfold State.releaseNone
  exact State.onlyStream_of_inside (State.onlyStream_effects _ (s.onlyStream_setStream ..)) (State.sendTokens_inside ..)

/-- Discarding rejected drafts' records counts them in the stream's word 8 (R286). -/
theorem State.purgeDrafts_onlyStream (h : s.OnlyStream u k x) (n a : Nat) :
    ∃ l, s.OnlyStream (u.purgeDrafts k x n a) k { x with owed := l } := by
  obtain ⟨htable, hoff, heng⟩ := h
  unfold State.purgeDrafts
  dsimp only
  split
  · exact ⟨x.owed, htable, hoff, heng⟩
  · have hat : aget k u.streams.table = some x := by rw [htable, aget_aset_self]
    unfold State.streamWord
    simp only [hat]
    generalize List.length _ = count
    obtain ⟨l, hl⟩ := x.owe_st 8 count
    rw [hl]
    refine ⟨l, ?_, hoff, heng⟩
    show aset k _ u.streams.table = _
    rw [htable, aset_aset]

/-- What a step appends with: its policy, the tables of its own policy, and its release (R302). -/
def State.appending (s : State) (k : SlotId) (st : Stream) (y : Step) (p : Policy) : Appending :=
  { policy := p, grammar := (s.policyByEpoch y.epoch).bind (fun q => s.samplerTables q k), step := y,
    env := { s.env k st (some p) with now := s.effStamp y.release } }

/-- The tokens that a step appends (R317). -/
def State.appended (s : State) (k : SlotId) (st : Stream) (y : Step) (p : Policy) : Stream × List Nat × Nat :=
  Stream.appendAll (s.appending k st y p) y.result.tokens 0 st []

theorem State.releaseTokens_none (h : (s.appended k st y p).2.1 = []) :
    s.releaseTokens k st y p = s.releaseNone k st y ⟨0, 7, true⟩ (p.delay 4) := by
  unfold State.appended State.appending at h
  unfold State.releaseTokens
  dsimp only
  rw [h]
  rfl

/-- A step that appends a token: of the stream it appended to, only the masked counts, the halts and the counters differ. -/
theorem State.releaseTokens_some (h : (s.appended k st y p).2.1 ≠ []) :
    ∃ m hs l, s.OnlyStream (s.releaseTokens k st y p) k
      { (s.appended k st y p).1.setMasked st.nextIndex m with stepHalts := hs, owed := l } := by
  unfold State.appended State.appending at h ⊢
  unfold State.releaseTokens
  dsimp only
  generalize Stream.appendAll _ y.result.tokens 0 st [] = r at h ⊢
  obtain ⟨st1, ids, reason⟩ := r
  dsimp only at h ⊢
  rw [if_neg (by simpa using h)]
  obtain ⟨l, hl⟩ := State.purgeDrafts_onlyStream (State.onlyStream_of_inside (State.onlyStream_effects _ (s.onlyStream_setStream ..))
    (State.sendTokens_inside ..)) st.nextIndex y.result.accepted
  exact ⟨_, _, l, hl⟩

/-! ### The clauses on a release -/

theorem orphanSampleClause {v : State} (h : s.dueOrphan (fun o => o.sample && decide (o.slot = k)) = some (o, v)) :
    ∃ t, exec (.sampleRelease k) s = .next t ∧ t.streams.table = s.streams.table ∧
      t.streams.orphans = s.streams.orphans.erase o ∧ t.offStreams = s.offStreams := by
  have hin : (sampleRelease k s).inside = v.inside := by
    unfold sampleRelease
    simp only [h]
    rw [State.sendClass0_inside, State.effects_inside]
  have hv := State.dueOrphan_eq h
  refine ⟨_, rfl, (State.table_of_inside hin).trans (by rw [hv]),
    (State.of_inside (fun w => w.streams.orphans) (fun _ => rfl) hin).trans (by rw [hv]), (State.offStreams_of_inside hin).trans ?_⟩
  rw [hv]
  rfl

/-- A due step that finds no token to append says so (R320). -/
theorem Stream.tokens_of_noToken (h : st.noToken y = none) : y.result.tokens ≠ [] := by
  intro hnil
  unfold Stream.noToken at h
  simp only [hnil, List.isEmpty_nil, if_true] at h
  repeat' split at h
  all_goals cases h

/-- A token overflows the working grammar's stack (R307, R311). -/
theorem Stream.grammarAppend_iff (st : Stream) (c : Appending) (id : Nat) :
    st.grammarAppend c id = some none ↔ c.step.hasGrammar = true ∧ st.sampling.grammarId ≠ 0xFFFF ∧
      ∃ g, c.grammar = some g ∧
        grammarStep g ((c.policy.tables.egress.map (fun e => e.endsAt id)).getD false) st.workGrammar id = none := by
  unfold Stream.grammarAppend
  by_cases hc : c.step.hasGrammar = true ∧ st.sampling.grammarId ≠ 0xFFFF
  · rw [if_pos (by simpa using hc), Option.map_eq_some_iff]
    exact ⟨fun hg => ⟨hc.1, hc.2, hg⟩, fun hg => hg.2.2⟩
  · rw [if_neg (by simpa using hc)]
    exact ⟨nofun, fun hg => absurd ⟨hg.1, hg.2.1⟩ hc⟩

/-- The first token of a step would pass the depth of its grammar's stack (R307). -/
def State.stepOverflows (s : State) (k : SlotId) (st : Stream) (y : Step) (p : Policy) : Prop :=
  y.hasGrammar = true ∧ st.sampling.grammarId ≠ 0xFFFF ∧ ∃ id b rest g, y.result.tokens = (id, b) :: rest ∧
    (s.policyByEpoch y.epoch).bind (fun q => s.samplerTables q k) = some g ∧
    grammarStep g ((p.tables.egress.map (fun e => e.endsAt id)).getD false) st.workGrammar id = none

/-- A step appends nothing exactly when its first token overflows (R307, R317). -/
theorem State.appended_nil_iff (hne : y.result.tokens ≠ []) :
    (s.appended k (st.takeStep y) y p).2.1 = [] ↔ s.stepOverflows k st y p := by
  obtain ⟨⟨id, b⟩, rest, htok⟩ := List.exists_cons_of_ne_nil hne
  have hiff := (st.takeStep y).grammarAppend_iff (s.appending k (st.takeStep y) y p) id
  unfold State.appended State.stepOverflows
  rw [htok]
  constructor
  · intro hnil
    have hover : (st.takeStep y).grammarAppend (s.appending k (st.takeStep y) y p) id = some none :=
      Decidable.not_not.1 fun hn => Stream.appendAll_ne_nil hn b rest 0 hnil
    obtain ⟨hgram, hid, g, hg, hstep⟩ := hiff.1 hover
    exact ⟨hgram, hid, id, b, rest, g, rfl, hg, hstep⟩
  · rintro ⟨hgram, hid, id', b', rest', g, heq, hg, hstep⟩
    obtain ⟨hpair, -⟩ := List.cons_eq_cons.1 heq
    obtain ⟨rfl, -⟩ := Prod.mk.inj hpair
    rw [Stream.appendAll_overflow (hiff.2 ⟨hgram, hid, g, hg, hstep⟩)]

/-- The masked count of a step's first token changes nothing else of the tokens (R316). -/
theorem Stream.setMasked_tokens {a : Stream} {c : Appending} {n : Nat} (h : a.Extends c x n) (first m : Nat) :
    (x.setMasked first m).tokens.length = a.tokens.length + n ∧
      ∀ z ∈ (x.setMasked first m).tokens.drop a.tokens.length, z.appendedBy c := by
  obtain ⟨-, ⟨l, hl, hlen, hall⟩, -⟩ := h
  unfold Stream.setMasked
  rw [hl]
  refine ⟨by rw [List.length_map, List.length_append, hlen], fun z hz => ?_⟩
  rw [List.map_append, List.drop_left' (List.length_map ..)] at hz
  obtain ⟨w, hw, rfl⟩ := List.mem_map.1 hz
  split <;> exact hall w hw

section
variable (ho : s.dueOrphan (fun o => o.sample && decide (o.slot = k)) = none) (hat : aget k s.streams.table = some st)
  (hd : st.dueStep s.now = some y)
include ho hat hd

theorem exec_sampleRelease : exec (.sampleRelease k) s = .next (s.releaseStep k st y) := by
  refine congrArg Host.Outcome.next ?_
  unfold sampleRelease
  simp only [ho, hat, hd, Option.bind_some, Option.map_some]

theorem releaseWaitsClause (hw : st.owes y.release = true) : exec (.sampleRelease k) s = .next s := by
  rw [exec_sampleRelease ho hat hd, State.releaseStep, if_pos hw]

section
variable (hw : st.owes y.release = false) (hp : s.policyFor st y.release = some p)
include hw hp

/-- A due step is taken, and appends tokens or has a reason not to (R320). -/
theorem exec_sampleRelease_due : ∃ v : State, v.quiet = s.quiet ∧
    (∀ r, st.noToken y = some r → exec (.sampleRelease k) s = .next (v.releaseNone k (st.takeStep y) y r (p.delay 4))) ∧
    (st.noToken y = none → exec (.sampleRelease k) s = .next (v.releaseTokens k (st.takeStep y) y p)) := by
  rw [exec_sampleRelease ho hat hd, State.releaseStep, if_neg (by rw [hw]; exact Bool.false_ne_true), hp]
  dsimp only
  generalize hv : State.effects s _ = v
  exact ⟨v, by rw [← hv, State.effects_quiet], fun r hr => by rw [hr]; rfl, fun hr => by rw [hr]⟩

theorem releaseTokensClause (hr : st.noToken y = none) (hover : ¬ s.stepOverflows k st y p) :
    ∃ t st', exec (.sampleRelease k) s = .next t ∧ s.OnlyStream t k st' ∧ st.nextIndex < st'.nextIndex ∧
      st'.nextIndex ≤ st.nextIndex + y.result.tokens.length ∧
      st'.tokens.length = st.tokens.length + (st'.nextIndex - st.nextIndex) ∧
      (∀ z ∈ st'.tokens.drop st.tokens.length, z.stamp = y.release ∧ z.epoch = p.epoch ∧
        z.release = s.effStamp y.release + p.delay 4 ∧ z.cutoff = z.release - p.cb) ∧
      st'.appended = some (st'.nextIndex - 1) ∧ st'.committed = st.committed ∧ st'.text = st.text ∧
      st'.rngReleased = st.rngReleased + y.result.positions := by
  obtain ⟨v, hv, -, hrun⟩ := exec_sampleRelease_due ho hat hd hw hp
  have hsame : v.stepOverflows k st y p = s.stepOverflows k st y p :=
    State.of_quiet (fun w => w.stepOverflows k st y p) (fun _ => rfl) hv
  have heff : v.effStamp y.release = s.effStamp y.release := State.of_quiet (fun w => w.effStamp y.release) (fun _ => rfl) hv
  have hne : (v.appended k (st.takeStep y) y p).2.1 ≠ [] := fun hnil =>
    hover (hsame ▸ (State.appended_nil_iff (Stream.tokens_of_noToken hr)).1 hnil)
  obtain ⟨m, hs, l, honly⟩ := State.releaseTokens_some hne
  obtain ⟨n, hn, hext, hids⟩ := Stream.appendAll_extends (v.appending k (st.takeStep y) y p) y.result.tokens 0 (st.takeStep y) []
  change (st.takeStep y).Extends _ (v.appended k (st.takeStep y) y p).1 n at hext
  change (v.appended k (st.takeStep y) y p).2.1.length = _ at hids
  generalize v.appended k (st.takeStep y) y p = r at *
  have hpos : 0 < n := by
    have := List.length_pos_iff.2 hne
    rw [hids] at this
    simpa using this
  obtain ⟨hlen, hall⟩ := Stream.setMasked_tokens hext (st.takeStep y).nextIndex m
  obtain ⟨hindex, -, happ, hcom, htext, hrng⟩ := hext
  rw [if_neg (Nat.ne_of_gt hpos)] at happ
  refine ⟨_, _, hrun hr, State.onlyStream_of_quiet hv honly, ?_, ?_, ?_, fun z hz => ?_, happ, hcom, htext, hrng⟩
  · show st.nextIndex < r.1.nextIndex
    rw [hindex]
    exact Nat.lt_add_of_pos_right hpos
  · show r.1.nextIndex ≤ _
    rw [hindex]
    exact Nat.add_le_add_left hn _
  · refine hlen.trans ?_
    show st.tokens.length + n = st.tokens.length + (r.1.nextIndex - st.nextIndex)
    rw [hindex]
    exact congrArg (st.tokens.length + ·) (Nat.add_sub_cancel_left ..).symm
  · obtain ⟨hstamp, hepoch, hrel, hcut⟩ := hall z hz
    refine ⟨hstamp, hepoch, hrel.trans ?_, hcut⟩
    show v.effStamp y.release + p.delay 4 = _
    rw [heff]

theorem releaseNoneClause {r : NoToken} (hr : st.noToken y = some r ∨ (st.noToken y = none ∧ s.stepOverflows k st y p ∧ r = ⟨0, 7, true⟩)) :
    ∃ t st', exec (.sampleRelease k) s = .next t ∧ s.OnlyStream t k st' ∧ st'.tokens = st.tokens ∧
      st'.nextIndex = st.nextIndex ∧
      st'.stepHalts = (if r.halts then st.stepHalts ++ [{ due := s.effStamp y.release + p.delay 4, reason := r.reason }] else st.stepHalts) := by
  obtain ⟨v, hv, hnone, hrun⟩ := exec_sampleRelease_due ho hat hd hw hp
  have hsame : v.stepOverflows k st y p = s.stepOverflows k st y p :=
    State.of_quiet (fun w => w.stepOverflows k st y p) (fun _ => rfl) hv
  have heff : v.effStamp y.release = s.effStamp y.release := State.of_quiet (fun w => w.effStamp y.release) (fun _ => rfl) hv
  have hexec : exec (.sampleRelease k) s = .next (v.releaseNone k (st.takeStep y) y r (p.delay 4)) := by
    rcases hr with hr | ⟨hr, hover, rfl⟩
    · exact hnone r hr
    · rw [hrun hr, State.releaseTokens_none ((State.appended_nil_iff (Stream.tokens_of_noToken hr)).2 (hsame ▸ hover))]
  have honly := v.releaseNone_onlyStream k (st.takeStep y) y r (p.delay 4)
  rw [heff] at honly
  refine ⟨_, _, hexec, State.onlyStream_of_quiet hv honly, ?_⟩
  obtain ⟨l, hl⟩ := Stream.owe_st ({ st.takeStep y with stepHalts := if r.halts then (st.takeStep y).stepHalts ++
    [{ due := s.effStamp y.release + p.delay 4, reason := r.reason }] else (st.takeStep y).stepHalts } : Stream) 7
    (if r.reason = 9 ∧ r.halts then 1 else 0)
  unfold Stream.releasedNone
  rw [hl]
  exact ⟨rfl, rfl, rfl⟩

end

end

end Sys2Proof.Machine
end

section
open Sys2Proof.Machine

/-- Settles O42: a logit packet joins its set or is counted, a set expires, a step stands or is late, and its release appends tokens or
has R320's reason; each clause is one of those operations taken on a state that differs in nothing it reads. -/
theorem sampling : Obligations.Sampling := by
  intro s k st
  refine ⟨fun a u p b h h0 hrole => ?_, fun a u h => ⟨logitPacket_counted h, fun h0 hrole hn => logitStaleClause h h0 hrole hn⟩,
    fun hat => ⟨fun y b ho hb => logitExpiryClause hat ho hb, fun ho => logitNoSetClause hat ho,
      fun y hy => ⟨stepDoneClause hat hy, stepLateClause hat hy⟩, fun o u ho => orphanSampleClause ho,
      fun y ho hd hw => releaseWaitsClause ho hat hd hw,
      fun y p ho hd hw hp => ⟨releaseTokensClause ho hat hd hw hp, fun r hr => releaseNoneClause ho hat hd hw hp hr⟩⟩⟩
  intro hdr hn hp hb hw
  refine ⟨fun hfits hroom => ⟨logitIncompleteClause h h0 hrole hn hp hb hw hfits hroom,
    logitEarlyClause h h0 hrole hn hp hb hw hfits hroom, fun hr he => ?_⟩, logitCountedClause h h0 hrole hn hp hb hw⟩
  obtain ⟨t, hrun, honly⟩ := logitCompleteClause h h0 hrole hn hp hb hw hfits hroom hr he
  obtain ⟨hsteps, hrng, htokens, hsurvivors, hepoch, hkept, hcut⟩ := st.samplerCut_spec p
  have hhigh : (st.samplerCut p).1.highest = st.highest := by
    unfold Stream.highest
    rw [hsurvivors, htokens]
  refine ⟨t, s.stampedStep st p b (st.setJoined a) a.stamp, _, hrun, honly, congrArg (· ++ _) hsteps, rfl, congrArg (· + _) hrng, hepoch,
    htokens, rfl, rfl, rfl, rfl, rfl, rfl, hhigh, rfl, State.stampedStep_result .., hkept, hcut⟩

end

section
/-! SUPPORT. The mailbox commands that only read (R87, R442, R515, R517, R518): each reads parts of the state that its own slot's mark
does not touch. -/

namespace Sys2Proof.Machine

variable {s : State} {p : MPort} {n : Fin 32}

theorem bootInfo_answers (h : s.Ready p n 0x0001 0) :
    s.AnswersWith (exec (.bootInfo p n) s) p n Status.ok (bootInfoBody s) s :=
  State.answersWith h rfl rfl

theorem capabilityRead_answers (h : s.Ready p n 0x0302 2) (hle : s.arg p n 0 2 ≤ 376) (h8 : s.arg p n 0 2 % 8 = 0) :
    s.AnswersWith (exec (.capabilityRead p n) s) p n Status.ok
      (s.capabilityId ++ leBytes 2 (pageOf s.capabilityMap (s.arg p n 0 2)).length ++ List.replicate 6 0#8
        ++ pageOf s.capabilityMap (s.arg p n 0 2)) s := by
  refine State.answersWith h rfl ?_
  have hrange : ¬ (376 < s.arg p n 0 2 ∨ s.arg p n 0 2 % 8 ≠ 0) := by omega
  exact if_neg hrange

theorem distanceRead_answers (h : s.Ready p n 0x0303 4) (hlt : s.arg p n 0 4 < distanceBytes) (h8 : s.arg p n 0 4 % 8 = 0) :
    s.AnswersWith (exec (.distanceRead p n) s) p n Status.ok
      (let page := (List.range (min 27 ((distanceBytes - s.arg p n 0 4) / 8))).flatMap
         (fun i => s.distanceWord (s.arg p n 0 4 + 8 * i))
       s.distanceId ++ leBytes 2 page.length ++ List.replicate 6 0#8 ++ page) s := by
  refine State.answersWith h rfl ?_
  have hrange : ¬ (distanceBytes ≤ s.arg p n 0 4 ∨ s.arg p n 0 4 % 8 ≠ 0) := by omega
  exact if_neg hrange

theorem noticeRead_answers (h : s.Ready p n 0x0305 2) (hlo : 1 ≤ s.arg p n 0 2) (hhi : s.arg p n 0 2 ≤ 23) :
    s.AnswersWith (exec (.noticeRead p n) s) p n Status.ok (noticeReadBody s (s.arg p n 0 2)) s := by
  refine State.answersWith h rfl ?_
  have hrange : ¬ (s.arg p n 0 2 = 0 ∨ 23 < s.arg p n 0 2) := by omega
  exact if_neg hrange

theorem queueStatus_answers (q : QueueId) (h : s.Ready p n 0x0603 2) (hq : s.arg p n 0 2 = q.val) :
    s.AnswersWith (exec (.queueStatus p n) s) p n Status.ok
      (leBytes 4 (s.queue q).qstatus.toNat ++ leBytes 4 (s.queue q).qlevel.toNat ++ leBytes 4 (s.queue q).qpeak.toNat) s := by
  refine State.answersWith h rfl ?_
  have hnum : queueNumber (field (s.cmdOf p n 0x0603).body 0 2) = some q := by
    rw [State.cmdOf_body, show field (s.slot p n).body 0 2 = q.val from hq]
    exact dif_pos q.isLt
  unfold runQueueStatus
  rw [hnum]
  rfl

end Sys2Proof.Machine
end

section
open Sys2Proof.Machine

/-- Settles O13: each of the five reads answers its own slot from parts of the state that no mailbox slot shows. -/
theorem mailboxReads : Obligations.MailboxReads := fun _ _ _ =>
  ⟨bootInfo_answers, capabilityRead_answers, distanceRead_answers, noticeRead_answers, queueStatus_answers⟩

end

section
/-! SUPPORT. The commands that wait for a boundary or a snapshot tick (R80, R86, R423, R515, R516): what a ready command that waits, or
that is turned away at once, leaves. -/

namespace Sys2Proof.Machine

variable {s : State} {p : MPort} {n : Fin 32} {code len : Nat}

/-! ### A ready command waits, or is answered at once -/

@[simp] theorem State.startedAt_streamOf (h : Nat) : (s.startedAt p n).streamOf h = s.streamOf h := rfl

/-- A ready command whose run is an answer from the state as it was. -/
theorem State.answers_atOnce (h : s.Ready p n code len) {run : Cmd → State → State} {status : Nat} {body : List Byte}
    (hrun : run (s.cmdOf p n code) (s.startedAt p n) = (s.startedAt p n).answer (s.cmdOf p n code) status body) :
    s.AnswersWith (.next (s.startCmd p n code len run)) p n status body s :=
  State.answersWith h rfl hrun

/-- A ready command whose run is to wait for its boundary (R80, R515). -/
theorem State.waits_forBoundary (h : s.Ready p n code len) {run : Cmd → State → State}
    (hrun : run (s.cmdOf p n code) (s.startedAt p n) = (s.startedAt p n).waitBoundary (s.cmdOf p n code)) :
    s.WaitsUntil (.next (s.startCmd p n code len run)) p n (s.boundaryWait p n code) :=
  State.waitsUntil h run _ { s.slot p n with started := true } rfl h.2.1 rfl hrun

/-- A ready command whose run is to wait for its snapshot tick (R86, R87). -/
theorem State.waits_forSnapshot (h : s.Ready p n code len) {run : Cmd → State → State}
    (hrun : run (s.cmdOf p n code) (s.startedAt p n) = (s.startedAt p n).waitSnapshot (s.cmdOf p n code)) :
    s.WaitsUntil (.next (s.startCmd p n code len run)) p n (s.snapshotWait p n code) :=
  State.waitsUntil h run _ { s.slot p n with started := true } rfl h.2.1 rfl hrun

/-- Below the limit of R516 a command that waits long waits for its boundary. -/
theorem State.waits_admitted (h : s.Ready p n code len) (hl : s.longWaits < 48) {run : Cmd → State → State}
    (hrun : run (s.cmdOf p n code) (s.startedAt p n) =
      (s.startedAt p n).admitLong (s.cmdOf p n code) (fun t => t.waitBoundary (s.cmdOf p n code))) :
    s.WaitsUntil (.next (s.startCmd p n code len run)) p n (s.boundaryWait p n code) := by
  refine State.waitsUntil h run _ { s.slot p n with started := true, long := true } rfl h.2.1 rfl ?_
  rw [hrun, State.admitLong_ready h hl]
  rfl

/-- At the limit of R516 it is answered BUSY. -/
theorem State.answers_notAdmitted (h : s.Ready p n code len) (hl : 48 ≤ s.longWaits) {run : Cmd → State → State} {k : State → State}
    (hrun : run (s.cmdOf p n code) (s.startedAt p n) = (s.startedAt p n).admitLong (s.cmdOf p n code) k) :
    s.AnswersWith (.next (s.startCmd p n code len run)) p n Status.busy [] s := by
  refine State.answers_atOnce h (hrun.trans (if_pos ?_))
  rwa [State.longWaits_startedAt h.2.1]

/-! ### Commands about a stream -/

section
variable {ok : Cmd → Bool}

theorem State.startStream_waits (h : s.Ready p n code len) {x : SlotId × Stream} (hx : s.streamOf (s.arg p n 0 8) = some x)
    (hok : ok (s.cmdOf p n code) = true) :
    s.WaitsUntil (.next (s.startStream p n code len ok)) p n (s.boundaryWait p n code) := by
  refine State.waits_forBoundary h ?_
  simp [hok, hx]

theorem State.startStream_stale (h : s.Ready p n code len) (hx : s.streamOf (s.arg p n 0 8) = none)
    (hok : ok (s.cmdOf p n code) = true) :
    s.AnswersWith (.next (s.startStream p n code len ok)) p n Status.alreadyDone [] s := by
  refine State.answers_atOnce h ?_
  simp [hok, hx]

theorem State.startStream_unfit (h : s.Ready p n code len) (hok : ok (s.cmdOf p n code) = false) :
    s.AnswersWith (.next (s.startStream p n code len ok)) p n Status.crossref [] s := by
  refine State.answers_atOnce h ?_
  simp [hok]

end

theorem featuresFit_iff : featuresFit (s.cmdOf p n code) = true ↔
    1 ≤ s.arg p n 8 2 ∧ s.arg p n 8 2 ≤ 28 ∧ 16 + 8 * s.arg p n 8 2 ≤ (s.slot p n).bodyLen := by
  simp only [featuresFit, Bool.and_eq_true, decide_eq_true_iff, and_assoc]
  rfl

theorem streamAbort_waits (h : s.Ready p n 0x0206 8) {x : SlotId × Stream} (hx : s.streamOf (s.arg p n 0 8) = some x) :
    s.WaitsUntil (exec (.streamAbort p n) s) p n (s.boundaryWait p n 0x0206) := by
  refine State.waits_forBoundary h ?_
  simp [hx]

/-- An abort whose handle is stale is counted (R60, R466). -/
theorem streamAbort_stale (h : s.Ready p n 0x0206 8) (hx : s.streamOf (s.arg p n 0 8) = none) :
    s.AnswersWith (exec (.streamAbort p n) s) p n Status.alreadyDone [] (s.countN 0x12 0 4 1) := by
  refine State.answersWith h (State.effects_mbox ..) ?_
  have hcount : (s.startedAt p n).count1 0x12 0 4 = (s.countN 0x12 0 4 1).setSlot p n { s.slot p n with started := true } :=
    State.effects_setSlot ..
  simp only [State.startedAt_streamOf, State.cmdOf_body, hx, hcount]
  rfl

/-! ### Reads (R86, R516, R518) -/

/-- The ranges of STREAM_QUERY's fields (R518). -/
abbrev State.AsksInRange (s : State) (p : MPort) (n : Fin 32) : Prop :=
  s.arg p n 8 2 % 8 = 0 ∧ s.arg p n 8 2 < 0x6000 ∧ 8 ≤ s.arg p n 10 2 ∧ s.arg p n 10 2 ≤ 200 ∧
    (s.arg p n 12 2 = 0xFFFF ∨ s.arg p n 12 2 ≤ 511)

theorem State.not_asksInRange_iff : ¬ s.AsksInRange p n ↔
    (s.arg p n 8 2 % 8 ≠ 0 ∨ 0x6000 ≤ s.arg p n 8 2 ∨ s.arg p n 10 2 < 8 ∨ 200 < s.arg p n 10 2 ∨
      (s.arg p n 12 2 ≠ 0xFFFF ∧ 511 < s.arg p n 12 2)) := by
  omega

theorem streamQuery_waits (h : s.Ready p n 0x0204 14) (hask : s.AsksInRange p n) {x : SlotId × Stream}
    (hx : s.streamOf (s.arg p n 0 8) = some x) :
    s.WaitsUntil (exec (.streamQuery p n) s) p n (s.snapshotWait p n 0x0204) := by
  refine State.waits_forSnapshot h ((if_neg (fun hn => State.not_asksInRange_iff.2 hn hask)).trans ?_)
  simp [hx]

theorem streamQuery_stale (h : s.Ready p n 0x0204 14) (hask : s.AsksInRange p n) (hx : s.streamOf (s.arg p n 0 8) = none) :
    s.AnswersWith (exec (.streamQuery p n) s) p n Status.alreadyDone [] s := by
  refine State.answers_atOnce h ((if_neg (fun hn => State.not_asksInRange_iff.2 hn hask)).trans ?_)
  simp [hx]

theorem streamQuery_outOfRange (h : s.Ready p n 0x0204 14) (hask : ¬ s.AsksInRange p n) :
    s.AnswersWith (exec (.streamQuery p n) s) p n Status.crossref [] s :=
  State.answers_atOnce h (if_pos (State.not_asksInRange_iff.1 hask))

/-- A SNAPSHOT that would clear a stream's words or a tenant's counters (R519). -/
abbrev State.ClearsNoCounter (s : State) (p : MPort) (n : Fin 32) : Prop :=
  fieldBit (s.slot p n).body 6 2 0 = true ∧ (s.arg p n 0 2 = 0x15 ∨ s.arg p n 0 2 = 0x16)

theorem State.clearsNoCounter_iff : s.ClearsNoCounter p n ↔
    (fieldBit (s.slot p n).body 6 2 0 && (decide (s.arg p n 0 2 = 0x15) || decide (s.arg p n 0 2 = 0x16))) = true := by
  simp

theorem snapshot_refused (h : s.Ready p n 0x0301 18) (hbad : s.ClearsNoCounter p n) :
    s.AnswersWith (exec (.snapshot p n) s) p n Status.crossref [] s :=
  State.answers_atOnce h (if_pos (State.clearsNoCounter_iff.1 hbad))

theorem snapshot_noGroup (h : s.Ready p n 0x0301 18) (hbad : ¬ s.ClearsNoCounter p n) {e : Nat}
    (hv : s.groupValues (s.arg p n 0 2) (s.arg p n 2 2) (s.arg p n 8 8) = .error e) :
    s.AnswersWith (exec (.snapshot p n) s) p n e [] s := by
  refine State.answers_atOnce h ((if_neg (fun hb => hbad (State.clearsNoCounter_iff.2 hb))).trans ?_)
  have hv' : (s.startedAt p n).groupValues (field (s.cmdOf p n 0x0301).body 0 2) (field (s.cmdOf p n 0x0301).body 2 2)
    (field (s.cmdOf p n 0x0301).body 8 8) = .error e := hv
  simp only [hv']

theorem snapshot_waits (h : s.Ready p n 0x0301 18) (hbad : ¬ s.ClearsNoCounter p n) {v : List (Nat × Option CtrKey)}
    (hv : s.groupValues (s.arg p n 0 2) (s.arg p n 2 2) (s.arg p n 8 8) = .ok v) :
    s.WaitsUntil (exec (.snapshot p n) s) p n (s.snapshotWait p n 0x0301) := by
  refine State.waits_forSnapshot h ((if_neg (fun hb => hbad (State.clearsNoCounter_iff.2 hb))).trans ?_)
  have hv' : (s.startedAt p n).groupValues (field (s.cmdOf p n 0x0301).body 0 2) (field (s.cmdOf p n 0x0301).body 2 2)
    (field (s.cmdOf p n 0x0301).body 8 8) = .ok v := hv
  simp only [hv']

/-! ### The fabric, budget and reset commands -/

theorem nodeFence_startOrCrossref (h : s.Ready p n 0x0401 3) :
    let good := s.arg p n 0 2 < 4096 ∧ (s.arg p n 2 1 = 1 ∨ s.arg p n 2 1 = 2)
    (good → s.WaitsUntil (exec (.nodeFence p n) s) p n (s.boundaryWait p n 0x0401)) ∧
    (¬ good → s.AnswersWith (exec (.nodeFence p n) s) p n Status.crossref [] s) := by
  refine ⟨fun hgood => State.waits_forBoundary h (if_neg ?_), fun hbad => State.answers_atOnce h (if_pos ?_)⟩
  · show ¬ (4096 ≤ s.arg p n 0 2 ∨ (s.arg p n 2 1 ≠ 1 ∧ s.arg p n 2 1 ≠ 2))
    omega
  · show 4096 ≤ s.arg p n 0 2 ∨ (s.arg p n 2 1 ≠ 1 ∧ s.arg p n 2 1 ≠ 2)
    omega

theorem groupAlloc_startOrCrossref (h : s.Ready p n 0x0405 16) :
    (∀ e, groupOfBody (s.slot p n).body (s.slot p n).bodyLen = some e →
      s.WaitsUntil (exec (.groupAlloc p n) s) p n (s.boundaryWait p n 0x0405)) ∧
    (groupOfBody (s.slot p n).body (s.slot p n).bodyLen = none →
      s.AnswersWith (exec (.groupAlloc p n) s) p n Status.crossref [] s) := by
  refine ⟨fun e he => State.waits_forBoundary h ?_, fun hnone => State.answers_atOnce h ?_⟩
  · simp [runGroupAlloc, he]
  · simp [runGroupAlloc, hnone]

theorem groupFree_startOrCrossref (h : s.Ready p n 0x0406 2) :
    (s.arg p n 0 2 < 4096 → s.WaitsUntil (exec (.groupFree p n) s) p n (s.boundaryWait p n 0x0406)) ∧
    (4096 ≤ s.arg p n 0 2 → s.AnswersWith (exec (.groupFree p n) s) p n Status.crossref [] s) :=
  ⟨fun hlt => State.waits_forBoundary h (if_neg (Nat.not_le.2 hlt)), fun hge => State.answers_atOnce h (if_pos hge)⟩

theorem tenantBudget_startOrCrossref (h : s.Ready p n 0x0504 16) :
    let good := 1 ≤ s.arg p n 2 1 ∧ s.arg p n 2 1 ≤ 3
    (good → s.WaitsUntil (exec (.tenantBudget p n) s) p n (s.boundaryWait p n 0x0504)) ∧
    (¬ good → s.AnswersWith (exec (.tenantBudget p n) s) p n Status.crossref [] s) :=
  ⟨fun hgood => State.waits_forBoundary h (if_pos hgood), fun hbad => State.answers_atOnce h (if_neg hbad)⟩

theorem confirmed_iff : confirmed (s.cmdOf p n code) = true ↔ s.arg p n 0 4 = 0x54455352 := decide_eq_true_iff

theorem resetPlane_startOrCrossref (h : s.Ready p n 0x0702 4) :
    (s.arg p n 0 4 = 0x54455352 → s.WaitsUntil (exec (.resetPlane p n) s) p n (s.boundaryWait p n 0x0702)) ∧
    (s.arg p n 0 4 ≠ 0x54455352 → s.AnswersWith (exec (.resetPlane p n) s) p n Status.crossref [] s) :=
  ⟨fun hc => State.waits_forBoundary h (if_pos (confirmed_iff.2 hc)),
    fun hc => State.answers_atOnce h (if_neg (fun hn => hc (confirmed_iff.1 hn)))⟩

theorem resetFunction_startOrTurnedAway (h : s.Ready p n 0x0703 4) :
    (s.arg p n 0 4 = 0x54455352 → s.longWaits < 48 →
      s.WaitsUntil (exec (.resetFunction p n) s) p n (s.boundaryWait p n 0x0703)) ∧
    (s.arg p n 0 4 = 0x54455352 → 48 ≤ s.longWaits → s.AnswersWith (exec (.resetFunction p n) s) p n Status.busy [] s) ∧
    (s.arg p n 0 4 ≠ 0x54455352 → s.AnswersWith (exec (.resetFunction p n) s) p n Status.crossref [] s) :=
  ⟨fun hc hl => State.waits_admitted h hl (if_pos (confirmed_iff.2 hc)),
    fun hc hl => State.answers_notAdmitted h hl (if_pos (confirmed_iff.2 hc)),
    fun hc => State.answers_atOnce h (if_neg (fun hn => hc (confirmed_iff.1 hn)))⟩

theorem engineAbort_startOrTurnedAway (h : s.Ready p n 0x0705 4) :
    let good := s.arg p n 0 1 ≤ 6 ∧ s.arg p n 1 1 ≤ 1 ∧ (s.arg p n 0 1 = 0 → s.arg p n 2 1 ≤ 7 ∨ s.arg p n 2 1 = 0xFF)
    (good → s.longWaits < 48 → s.WaitsUntil (exec (.engineAbort p n) s) p n (s.boundaryWait p n 0x0705)) ∧
    (good → 48 ≤ s.longWaits → s.AnswersWith (exec (.engineAbort p n) s) p n Status.busy [] s) ∧
    (¬ good → s.AnswersWith (exec (.engineAbort p n) s) p n Status.crossref [] s) := by
  intro good
  have hiff : ¬ good ↔ (6 < s.arg p n 0 1 ∨ 1 < s.arg p n 1 1 ∨
      (s.arg p n 0 1 = 0 ∧ 7 < s.arg p n 2 1 ∧ s.arg p n 2 1 ≠ 0xFF)) := by
    simp only [good]
    omega
  exact ⟨fun hg hl => State.waits_admitted h hl (if_neg (fun hn => hiff.2 hn hg)),
    fun hg hl => State.answers_notAdmitted h hl (if_neg (fun hn => hiff.2 hn hg)),
    fun hb => State.answers_atOnce h (if_pos (hiff.1 hb))⟩

end Sys2Proof.Machine
end

section
open Sys2Proof.Machine

/-- Settles O20: every command of the table either waits for its boundary or its snapshot tick, or is answered at once. -/
theorem commandsThatWait : Obligations.CommandsThatWait :=
  ⟨fun _ _ _ =>
    ⟨fun _ hx => ⟨fun h => State.startStream_waits h hx rfl, fun h => State.startStream_waits h hx rfl,
        fun h hf => State.startStream_waits h hx (featuresFit_iff.2 hf), fun h => streamAbort_waits h hx,
        fun h ha => streamQuery_waits h ha hx⟩,
      fun hx => ⟨fun h => State.startStream_stale h hx rfl, fun h => State.startStream_stale h hx rfl,
        fun h hf => State.startStream_stale h hx (featuresFit_iff.2 hf), fun h => streamAbort_stale h hx,
        fun h ha => streamQuery_stale h ha hx⟩,
      fun h hf => State.startStream_unfit h (Bool.eq_false_iff.2 (fun hn => hf (featuresFit_iff.1 hn))), streamQuery_outOfRange,
      fun h => ⟨snapshot_refused h, fun _ hb hv => snapshot_noGroup h hb hv, fun _ hb hv => snapshot_waits h hb hv⟩,
      fun h => State.waits_forSnapshot h rfl⟩,
   fun _ _ _ => ⟨nodeFence_startOrCrossref, groupAlloc_startOrCrossref, groupFree_startOrCrossref, tenantBudget_startOrCrossref,
      resetPlane_startOrCrossref, fun h => State.waits_forBoundary h rfl, resetFunction_startOrTurnedAway,
      engineAbort_startOrTurnedAway⟩⟩

end

section
/-! SUPPORT. The work on a stream in a state whose other parts are known: the stream alone changes, and what sending leaves (the
mailbox slots, the waiting commands, the pending opens) stands as it did. -/

namespace Sys2Proof.Machine

variable {s u t : State} {w : Work} {k : SlotId} {x : Stream}

/-- What a reading sees besides the stream's own table and what sending changes, the work on a stream leaves (R78). -/
theorem Work.run_rest {α : Type} (f : State → α) (hf : ∀ (v : State) (k x e), f { (v.setStream k x).inside with eng := e } = f v)
    (w : Work) (s : State) : f (w.run s) = f s := by
  have hrun : f { (w.run s).inside with eng := s.eng } = f (w.run s) := by
    have htable : (w.run s).streams = { (w.run s).streams with table := aset w.env.slot w.st s.streams.table } :=
      congrArg (fun m => ({ (w.run s).streams with table := m } : Streams)) (w.run_table s)
    have h := hf (w.run s) w.env.slot w.st s.eng
    rwa [show ({ ((w.run s).setStream w.env.slot w.st).inside with eng := s.eng } : State) =
      { (w.run s).inside with eng := s.eng } from ?_] at h
    unfold State.setStream
    rw [Work.run_table, aset_aset, ← htable]
  rw [← hrun, (w.run_inside s).1]
  exact hf s w.env.slot w.st s.eng

@[simp] theorem Work.run_mbox (w : Work) (s : State) : (w.run s).ctl.mbox = s.ctl.mbox :=
  w.run_rest (fun v => v.ctl.mbox) (fun _ _ _ _ => rfl) s

@[simp] theorem Work.run_waiting (w : Work) (s : State) : (w.run s).ctl.waiting = s.ctl.waiting :=
  w.run_rest (fun v => v.ctl.waiting) (fun _ _ _ _ => rfl) s

@[simp] theorem Work.run_opens (w : Work) (s : State) : (w.run s).streams.opens = s.streams.opens :=
  w.run_rest (fun v => v.streams.opens) (fun _ _ _ _ => rfl) s

/-- The work on the stream in slot k changes that stream alone. -/
theorem Work.run_onlyStream (hk : w.env.slot = k) (s : State) : s.OnlyStream (w.run s) k w.st := by
  subst hk
  exact ⟨w.run_table s, w.run_offStreams s, w.run_eng s⟩

/-- An answer to a mailbox slot is not a change of any stream. -/
theorem State.onlyStream_answerFrom (h : s.OnlyStream u k x) (src : Option (MPort × Fin 32)) (status : Nat) (body : List Byte) :
    s.OnlyStream (u.answerFrom src status body) k x := by
  have hapart := u.answerFrom_apart src status body
  obtain ⟨htable, hoff, heng⟩ := h
  unfold State.OnlyStream State.EnginesKeep
  rw [State.of_apart (fun v => v.streams) (fun _ => rfl) hapart, State.of_apart State.offStreams (fun _ => rfl) hapart,
    State.of_apart State.eng (fun _ => rfl) hapart]
  exact ⟨htable, hoff, heng⟩

@[simp] theorem State.answerFrom_streams (u : State) (src : Option (MPort × Fin 32)) (st : Nat) (b : List Byte) :
    (u.answerFrom src st b).streams = u.streams :=
  State.of_apart State.streams (fun _ => rfl) (u.answerFrom_apart src st b)

@[simp] theorem State.answerFrom_offStreams (u : State) (src : Option (MPort × Fin 32)) (st : Nat) (b : List Byte) :
    (u.answerFrom src st b).offStreams = u.offStreams :=
  State.of_apart State.offStreams (fun _ => rfl) (u.answerFrom_apart src st b)

end Sys2Proof.Machine
end

section
/-! SUPPORT. Open requests, their answers, and the freeing of a slot (R59 to R69, R73, R74). -/

namespace Sys2Proof.Machine

variable {s u t : State} {p : MPort} {n : Fin 32} {r : OpenRequest} {k : SlotId} {st : Stream} {o : PendingOpen}
  {rest : List PendingOpen}

/-! ### A request at its stamp (R61, R64 to R68) -/

theorem mem_insertOpen_self (o : PendingOpen) (l : List PendingOpen) : o ∈ insertOpen o l := by
  induction l with
  | nil => exact List.mem_cons_self
  | cons y l ih =>
    unfold insertOpen
    split
    · exact List.mem_cons_self
    · exact List.mem_cons_of_mem _ ih

/-- A request whose status is OK has a policy and a slot (R61, R66). -/
theorem State.openStatus_ok {stamp : Nat} (h : s.openStatus r stamp = Status.ok) :
    ∃ q k, s.activeAt stamp = some q ∧ s.streams.nextFree = some k := by
  unfold State.openStatus at h
  split at h
  · cases h
  · next q hq =>
    repeat' split at h
    all_goals first
      | exact ⟨q, _, hq, ‹_›⟩
      | cases h

/-- A claim of an ingress contribution changes the two ingress fields of the stream, and the contributions kept (R84). -/
theorem State.claimIngress_spec (s : State) (q : Policy) (st : Stream) :
    ∃ i a l, s.claimIngress q st =
      ({ st with ingress := i, ingressArrival := a }, { s with streams := { s.streams with ingressWaits := l } }) := by
  unfold State.claimIngress
  dsimp only
  repeat' split
  · exact ⟨st.ingress, st.ingressArrival, s.streams.ingressWaits, rfl⟩
  · exact ⟨st.ingress, st.ingressArrival, s.streams.ingressWaits, rfl⟩
  · exact ⟨_, _, _, rfl⟩
  · exact ⟨st.ingress, st.ingressArrival, s.streams.ingressWaits, rfl⟩

theorem Streams.takeFree_table (v : Streams) : v.takeFree.table = v.table := by
  unfold Streams.takeFree
  split <;> rfl

variable {b : List Byte} {stamp order : Nat} {mb : Option (MPort × Fin 32)}

theorem State.requestOpen_granted (h : s.openStatus (parseOpen b) stamp = Status.ok) :
    s.Granted (s.requestOpen b stamp order mb) (parseOpen b) stamp order mb ∧
      ∃ v, s.requestOpen b stamp order mb = { s with streams := v } := by
  obtain ⟨q, k, hq, hk⟩ := State.openStatus_ok h
  obtain ⟨i, a, l, hclaim⟩ := s.claimIngress_spec q (s.newStream q k (parseOpen b) (s.effStamp stamp))
  unfold State.requestOpen
  simp only [h, hq, hk, hclaim, decide_true]
  exact ⟨⟨k, _, hk, congrArg (aset k _) (Streams.takeFree_table _), rfl, rfl, rfl, rfl, rfl, rfl, rfl, _, mem_insertOpen_self _ _,
    rfl, rfl, rfl, rfl, rfl, rfl⟩, _, rfl⟩

theorem State.requestOpen_refused (h : s.openStatus (parseOpen b) stamp ≠ Status.ok) :
    s.TurnedAway (s.requestOpen b stamp order mb) (parseOpen b) stamp order mb (s.openStatus (parseOpen b) stamp) ∧
      ∃ (u : State) (o : PendingOpen), u.quiet = s.quiet ∧ s.requestOpen b stamp order mb = u.addOpen o := by
  have hrun : ∃ (u : State) (o : PendingOpen), s.requestOpen b stamp order mb = u.addOpen o ∧ u.quiet = s.quiet ∧
      o.req = parseOpen b ∧ o.stamp = stamp ∧
      o.order = order ∧ o.mailbox = mb ∧ o.slot = none ∧ o.status = s.openStatus (parseOpen b) stamp := by
    unfold State.requestOpen
    simp only [decide_eq_false h]
    split
    · next hok => cases hok
    · refine ⟨_, _, rfl, ?_, rfl, rfl, rfl, rfl, rfl, rfl⟩
      split
      · exact State.effects_quiet ..
      · rfl
  obtain ⟨u, o, hrun, hu, hreq⟩ := hrun
  have hstreams : u.streams = s.streams := State.of_quiet State.streams (fun _ => rfl) hu
  rw [hrun]
  refine ⟨⟨?_, ?_, o, mem_insertOpen_self _ _, hreq⟩, u, o, hu, rfl⟩
  · show u.streams.table = _
    rw [hstreams]
  · show u.streams.nextFree = _
    rw [hstreams]

/-- A request changes, besides the streams and what waits for them, counters, notices and queues alone. -/
theorem State.requestOpen_rest (s : State) (b : List Byte) (stamp order : Nat) (mb : Option (MPort × Fin 32)) :
    (s.requestOpen b stamp order mb).offStreams = s.offStreams ∧ (s.requestOpen b stamp order mb).ctl.mbox = s.ctl.mbox ∧
      (s.requestOpen b stamp order mb).plane = s.plane := by
  by_cases h : s.openStatus (parseOpen b) stamp = Status.ok
  · obtain ⟨-, v, hv⟩ := State.requestOpen_granted (order := order) (mb := mb) h
    rw [hv]
    exact ⟨rfl, rfl, rfl⟩
  · obtain ⟨-, u, o, hu, hrun⟩ := State.requestOpen_refused (order := order) (mb := mb) h
    have hoff := State.offStreams_of_inside (State.inside_of_quiet hu)
    have hmbox := State.of_quiet (fun v => v.ctl.mbox) (fun _ => rfl) hu
    have hplane := State.plane_of_quiet hu
    rw [hrun]
    exact ⟨hoff, hmbox, hplane⟩

theorem State.cmd?_ready {code len : Nat} (h : s.Ready p n code len) : s.cmd? p n code = some (s.cmdOf p n code) := by
  obtain ⟨hr, ho, hs, hc, ha, hg, -⟩ := h
  have hserved : s.served = true := by
    rcases hr with hr | hr <;> simp [State.served, hr]
  unfold State.cmd?
  by_cases hcfg : isConfig code = true
  · simp [hserved, ho, hs, hc, ha, (hg hcfg).1, State.cmdOf]
  · simp [hserved, ho, hs, hc, ha, hcfg, State.cmdOf]

theorem streamOpen_waits (h : s.Ready p n 0x0201 64) (hb : s.openPacketBefore (s.slot p n).accept = true) :
    exec (.streamOpen p n) s = .next s := by
  refine congrArg Host.Outcome.next ?_
  unfold startOpen
  rw [State.cmd?_ready h]
  exact if_pos hb

theorem streamOpen_requests (h : s.Ready p n 0x0201 64) (hb : s.openPacketBefore (s.slot p n).accept = false) :
    exec (.streamOpen p n) s =
      .next ((s.startedAt p n).requestOpen (s.slot p n).body (s.slot p n).accept (slotOrder p n) (some (p, n))) := by
  refine congrArg Host.Outcome.next ?_
  have hb' : ¬ s.openPacketBefore (s.cmdOf p n 0x0201).accept = true := by rw [State.cmdOf_accept, hb]; decide
  unfold startOpen
  rw [State.cmd?_ready h]
  exact (if_neg hb').trans (State.startCmd_ready h _)

theorem openCommandClause (h : s.Ready p n 0x0201 64) (hb : s.openPacketBefore (s.slot p n).accept = false) :
    let r := parseOpen (s.slot p n).body
    let status := s.openStatus r (s.slot p n).accept
    ∃ t, exec (.streamOpen p n) s = .next t ∧ (t.slot p n).owned = true ∧ (t.slot p n).started = true ∧
      (t.slot p n).mem = (s.slot p n).mem ∧ t.offStreams = s.offStreams ∧
      (status = Status.ok → s.Granted t r (s.slot p n).accept (slotOrder p n) (some (p, n))) ∧
      (status ≠ Status.ok → s.TurnedAway t r (s.slot p n).accept (slotOrder p n) (some (p, n)) status) := by
  intro r status
  obtain ⟨hoff, hmbox, -⟩ := (s.startedAt p n).requestOpen_rest (s.slot p n).body (s.slot p n).accept (slotOrder p n) (some (p, n))
  have hslot : ((s.startedAt p n).requestOpen (s.slot p n).body (s.slot p n).accept (slotOrder p n) (some (p, n))).slot p n =
      { s.slot p n with started := true } := by
    rw [State.slot, hmbox]
    exact State.slot_setSlot ..
  refine ⟨_, streamOpen_requests h hb, ?_, ?_, ?_, hoff, fun hok => ?_, fun hno => ?_⟩
  · rw [hslot]
    exact h.2.1
  · rw [hslot]
  · rw [hslot]
  · exact (State.requestOpen_granted (s := s.startedAt p n) hok).1
  · exact (State.requestOpen_refused (s := s.startedAt p n) hno).1

theorem openPacketClause {a : Arrival} (ha : firstOpen s.plane.inbox = some a) (hb : s.openCmdBefore a.stamp = false) :
    let r := parseOpen a.pkt.payload
    ∃ t, exec .streamControlPacket s = .next t ∧ t.offStreams = s.offStreams ∧ t.ctl.mbox = s.ctl.mbox ∧
      t.plane = { s.plane with inbox := s.plane.inbox.erase a } ∧
      (s.openStatus r a.stamp = Status.ok → s.Granted t r a.stamp (edgeOrder a.edge) none) ∧
      (s.openStatus r a.stamp ≠ Status.ok → s.TurnedAway t r a.stamp (edgeOrder a.edge) none (s.openStatus r a.stamp)) := by
  intro r
  obtain ⟨hoff, hmbox, hplane⟩ := State.requestOpen_rest { s with plane := { s.plane with inbox := s.plane.inbox.erase a } }
    a.pkt.payload a.stamp (edgeOrder a.edge) none
  have hrun : takeOpenPacket s = State.requestOpen { s with plane := { s.plane with inbox := s.plane.inbox.erase a } }
      a.pkt.payload a.stamp (edgeOrder a.edge) none := by
    unfold takeOpenPacket
    simp only [ha, hb, Bool.false_eq_true, if_false]
  refine ⟨_, congrArg Host.Outcome.next hrun, hoff, hmbox, hplane, fun hok => ?_, fun hno => ?_⟩
  · exact (State.requestOpen_granted (s := { s with plane := { s.plane with inbox := s.plane.inbox.erase a } }) hok).1
  · exact (State.requestOpen_refused (s := { s with plane := { s.plane with inbox := s.plane.inbox.erase a } }) hno).1

theorem streamControlPacket_waits {a : Arrival} (ha : firstOpen s.plane.inbox = some a) (hb : s.openCmdBefore a.stamp = true) :
    exec .streamControlPacket s = .next s := by
  refine congrArg Host.Outcome.next ?_
  unfold takeOpenPacket
  simp only [ha, hb, if_true]

/-! ### The open commit (R64, R69) -/

/-- The state with the first pending open taken. -/
def State.openTaken (s : State) (rest : List PendingOpen) : State := { s with streams := { s.streams with opens := rest } }

/-- The event's body of an accepted open (R69). -/
def State.openBody (s : State) (o : PendingOpen) (st : Stream) : List Byte :=
  Event.body { kind := 1, tenant := o.req.tenant, node := s.aon.node, tag := o.req.tag, handle := st.handle.toNat,
               stamp := o.stamp, live := o.live }

theorem openCommit_granted (ho : s.streams.opens = o :: rest) (hnow : s.effStamp o.stamp + 512 ≤ s.now) (hk : o.slot = some k)
    (hst : aget k s.streams.table = some st) : exec .openCommit s = .next ((s.openTaken rest).commitOpen o k st) := by
  refine congrArg Host.Outcome.next ?_
  unfold openCommit
  simp only [ho, if_neg (Nat.not_lt.2 hnow), hk, Option.bind_some, hst, Option.map_some]
  rfl

/-- The work of an accepted open's commit (R64, R343). -/
def State.openWork (s : State) (k : SlotId) (st : Stream) : Work :=
  let w : Work := { env := s.env k st (s.policyOf st), st := st }
  match st.state with
  | .opening =>
    ({ w.atBoundary with st := { w.atBoundary.st with state := if st.req.awaitIngress then .holding else .live } } : Work).audit
      { kind := 0, subject := st.req.tenant, epoch := st.epoch }
  | _ => w

theorem State.commitOpen_eq (s : State) (o : PendingOpen) (k : SlotId) (st : Stream) :
    s.commitOpen o k st =
      (((s.openWork k st).put (.event (s.openBody o st))).run s).answerFrom o.mailbox Status.ok (s.openBody o st) := rfl

theorem State.openWork_opening (s : State) (k : SlotId) (hst : st.state = .opening) :
    (s.openWork k st).env.slot = k ∧ (s.openWork k st).st.state = (if st.req.awaitIngress then .holding else .live) ∧
      (s.openWork k st).st.boundary = s.now ∧ { (s.openWork k st).st.bare with state := st.state } = st.bare := by
  unfold State.openWork
  simp only [hst]
  obtain ⟨c, g, m, b, hb, henv⟩ := Work.atBoundary_st { env := s.env k st (s.policyOf st), st := st }
  generalize hw : (Work.mk _ _ _ : Work) = w
  obtain ⟨d, haudit⟩ := w.audit_st { kind := 0, subject := st.req.tenant, epoch := st.epoch }
  rw [haudit, Work.audit_env, ← hw]
  dsimp only
  rw [henv, hb, ← hst]
  exact ⟨rfl, rfl, rfl, rfl⟩

theorem State.openWork_other (s : State) (k : SlotId) (hst : st.state ≠ .opening) :
    s.openWork k st = { env := s.env k st (s.policyOf st), st := st } := by
  unfold State.openWork
  split
  · next h => exact absurd h hst
  · rfl

@[simp] theorem State.openBody_openTaken (s : State) (rest : List PendingOpen) (o : PendingOpen) (st : Stream) :
    (s.openTaken rest).openBody o st = s.openBody o st := rfl

theorem State.onlyStream_of_openTaken {x : Stream} (h : (s.openTaken rest).OnlyStream t k x) : s.OnlyStream t k x := h

theorem openCommitClause (ho : s.streams.opens = o :: rest) (hnow : s.effStamp o.stamp + 512 ≤ s.now) (hk : o.slot = some k)
    (hat : aget k s.streams.table = some st) (hst : st.state = .opening) :
    ∃ t st', exec .openCommit s = .next t ∧ s.OnlyStream t k st' ∧ t.streams.opens = rest ∧
      st'.state = (if st.req.awaitIngress then .holding else .live) ∧ st'.boundary = s.now ∧
      { st'.bare with state := st.state } = st.bare ∧
      (∀ p n, o.mailbox = some (p, n) → s.Answered t p n Status.ok (s.openBody o st)) := by
  have hwork := (s.openTaken rest).openWork_opening k hst
  have hrun := openCommit_granted ho hnow hk hat
  rw [State.commitOpen_eq, State.openBody_openTaken] at hrun
  generalize hv : ((s.openTaken rest).openWork k st).put (.event (s.openBody o st)) = v at hrun
  have henv : v.env = ((s.openTaken rest).openWork k st).env := by rw [← hv, Work.put_env]
  have hst' : v.st = ((s.openTaken rest).openWork k st).st := by rw [← hv, Work.put_st]
  rw [← henv, ← hst'] at hwork
  obtain ⟨hslot, hstate, hboundary, hbare⟩ := hwork
  have honly := State.onlyStream_of_openTaken (Work.run_onlyStream hslot (s.openTaken rest))
  refine ⟨_, v.st, hrun, State.onlyStream_answerFrom honly .., ?_, hstate, hboundary, hbare, fun p n hm => ?_⟩
  · rw [State.answerFrom_streams, Work.run_opens]
    rfl
  · have hmbox : (v.run (s.openTaken rest)).ctl.mbox = s.ctl.mbox := Work.run_mbox ..
    rw [hm]
    exact State.respond_answered_of_mbox hmbox ..

theorem openCommitOtherClause (ho : s.streams.opens = o :: rest) (hnow : s.effStamp o.stamp + 512 ≤ s.now) (hk : o.slot = some k)
    (hat : aget k s.streams.table = some st) (hst : st.state ≠ .opening) :
    ∃ t, exec .openCommit s = .next t ∧ aget k t.streams.table = some st ∧ t.streams.opens = rest ∧ t.offStreams = s.offStreams := by
  refine ⟨_, openCommit_granted ho hnow hk hat, ?_⟩
  rw [State.commitOpen_eq, State.openWork_other _ _ hst, State.answerFrom_streams, State.answerFrom_offStreams, Work.run_opens,
    Work.run_table]
  have hsent := State.offStreams_of_inside (((s.openTaken rest).setStream k st).sendEvent_inside st.replyNode st.replyPort st.handle
    ((s.openTaken rest).openBody o st))
  exact ⟨aget_aset_self .., rfl, hsent⟩

theorem openCommit_early (ho : s.streams.opens = o :: rest) (hnow : s.now < s.effStamp o.stamp + 512) :
    exec .openCommit s = .next s := by
  refine congrArg Host.Outcome.next ?_
  unfold openCommit
  simp only [ho, if_pos hnow]

theorem openRefusedClause (ho : s.streams.opens = o :: rest) (hnow : s.effStamp o.stamp + 512 ≤ s.now) (hk : o.slot = none) :
    ∃ t, exec .openCommit s = .next t ∧ t.streams.table = s.streams.table ∧ t.streams.opens = rest ∧
      t.offStreams = s.offStreams ∧
      (∀ p n, o.mailbox = some (p, n) → s.Answered t p n o.status (Event.body
        { kind := 2, status := o.status, tenant := o.req.tenant, node := s.aon.node, tag := o.req.tag, stamp := o.stamp,
          live := o.live, retry := o.retryAfter })) := by
  have hrun : ∃ node port h body, openCommit s = ((s.openTaken rest).sendEvent node port h body).answerFrom o.mailbox o.status
      (Event.body { kind := 2, status := o.status, tenant := o.req.tenant, node := s.aon.node, tag := o.req.tag, stamp := o.stamp,
                    live := o.live, retry := o.retryAfter }) := by
    unfold openCommit
    simp only [ho, if_neg (Nat.not_lt.2 hnow), hk, Option.bind_none]
    exact ⟨_, _, _, _, rfl⟩
  obtain ⟨node, port, h, body, hrun⟩ := hrun
  have hsent := (s.openTaken rest).sendEvent_inside node port h body
  have htable := State.of_inside (fun v => v.streams.table) (fun _ => rfl) hsent
  have hoff := State.offStreams_of_inside hsent
  refine ⟨_, congrArg Host.Outcome.next hrun, ?_, ?_, ?_, fun p n hm => ?_⟩
  · rw [State.answerFrom_streams]
    exact htable
  · rw [State.answerFrom_streams]
    exact State.of_inside (fun v => v.streams.opens) (fun _ => rfl) hsent
  · rw [State.answerFrom_offStreams]
    exact hoff
  · rw [hm]
    exact State.respond_answered_of_mbox (State.of_inside (fun v => v.ctl.mbox) (fun _ => rfl) hsent) ..

/-! ### FREE again (R59, R60, R73, R74) -/

theorem State.handleOf_toNat (s : State) (k : SlotId) :
    (s.handleOf k).toNat = s.aon.node.toNat * 2 ^ 36 + k.val * 2 ^ 21 + s.generation k := by
  have hg : s.generation k < 2 ^ 21 := Nat.mod_lt _ (by decide)
  have hn := s.aon.node.isLt
  have hk := k.isLt
  rw [State.handleOf, BitVec.toNat_ofNat, Nat.mod_eq_of_lt]
  omega

theorem handleSlot_val (h : Nat) : (handleSlot h).val = h / 2 ^ 21 % 32768 := by
  unfold handleSlot
  rfl

theorem handleSlot_handleOf (s : State) (k : SlotId) : handleSlot (s.handleOf k).toNat = k := by
  have hg : s.generation k < 2 ^ 21 := Nat.mod_lt _ (by decide)
  have hk := k.isLt
  refine Fin.ext ?_
  rw [handleSlot_val, State.handleOf_toNat]
  omega

/-- A handle with another generation than its slot's names no stream (R60). -/
theorem State.streamOf_generation {h : Nat} (hg : h % 2 ^ 21 ≠ s.generation (handleSlot h)) : s.streamOf h = none := by
  have hnamed : s.named h = .otherNode ∨ s.named h = .stale := by
    unfold State.named
    by_cases hn : h / 2 ^ 36 ≠ s.aon.node.toNat
    · exact .inl (if_pos hn)
    · exact .inr ((if_neg hn).trans (if_pos hg))
  unfold State.streamOf
  rcases hnamed with h | h <;> rw [h]

theorem State.handleOf_generation (s : State) (k : SlotId) : (s.handleOf k).toNat % 2 ^ 21 = s.generation k := by
  have hg : s.generation k < 2 ^ 21 := Nat.mod_lt _ (by decide)
  rw [State.handleOf_toNat]
  omega

/-- A handle of a slot whose generation has moved on is stale (R60). -/
theorem State.streamOf_stale (h : t.generation k ≠ s.generation k) : t.streamOf (s.handleOf k).toNat = none := by
  refine State.streamOf_generation ?_
  rw [handleSlot_handleOf, State.handleOf_generation]
  exact Ne.symm h

theorem slotFreeClause (hd : s.dueFree = some (k, st)) (hr : s.cast.resetting = none) :
    ∃ t, exec .slotFree s = .next t ∧ aget k t.streams.table = none ∧
      (∀ j, j ≠ k → aget j t.streams.table = aget j s.streams.table) ∧
      t.generation k = (s.generation k + 1) % 2 ^ 21 ∧ (∀ j, j ≠ k → t.generation j = s.generation j) ∧
      t.streamOf (s.handleOf k).toNat = none ∧ t.streams.freed = s.streams.freed ++ [k] ∧
      t.streams.orphans = s.streams.orphans ++ s.orphansOf k st ∧ { t with streams := s.streams, eng := s.eng } = s := by
  have hrun : ∃ t, slotFree s = t ∧ t.streams.table = aerase k s.streams.table ∧ t.streams.genBase = s.streams.genBase ∧
      t.streams.gens = aset k (((aget k s.streams.gens).getD 0 + 1) % 2 ^ 21) s.streams.gens ∧
      t.streams.freed = s.streams.freed ++ [k] ∧ t.streams.orphans = s.streams.orphans ++ s.orphansOf k st ∧
      { t with streams := s.streams, eng := s.eng } = s := by
    unfold slotFree
    simp only [hd, hr]
    exact ⟨_, rfl, rfl, rfl, rfl, rfl, rfl, rfl⟩
  obtain ⟨t, hrun, htable, hbase, hgens, hfreed, horphans, hrest⟩ := hrun
  have hgen : t.generation k = (s.generation k + 1) % 2 ^ 21 := by
    unfold State.generation
    rw [hbase, hgens, aget_aset_self, Option.getD_some]
    omega
  have hother : ∀ j, j ≠ k → t.generation j = s.generation j := by
    intro j hj
    unfold State.generation
    rw [hbase, hgens, aget_aset_ne hj]
  have hmoved : t.generation k ≠ s.generation k := by
    have hg : s.generation k < 2 ^ 21 := Nat.mod_lt _ (by decide)
    omega
  refine ⟨t, congrArg Host.Outcome.next hrun, ?_, fun j hj => ?_, hgen, hother, State.streamOf_stale hmoved, hfreed, horphans, hrest⟩
  · rw [htable, aget_aerase, if_pos rfl]
  · rw [htable, aget_aerase, if_neg hj]

theorem slotFree_none (hd : s.dueFree = none) : exec .slotFree s = .next s := by
  refine congrArg Host.Outcome.next ?_
  unfold slotFree
  simp only [hd]

end Sys2Proof.Machine
end

section
open Sys2Proof.Machine

/-- Settles O38: a request is granted or refused at its stamp, answered at its commit, and its slot is FREE again under a new
generation. -/
theorem opens : Obligations.Opens := fun _ =>
  ⟨fun _ _ h => ⟨streamOpen_waits h, openCommandClause h⟩, fun _ => openPacketClause, fun _ => streamControlPacket_waits,
    fun _ _ _ _ => openCommitClause, fun _ _ _ _ => openCommitOtherClause, fun _ _ => openCommit_early,
    fun _ _ => openRefusedClause, fun _ _ => slotFreeClause, slotFree_none⟩

end

section
/-! SUPPORT. The dispatch of a chunk to the judge (R260, R263): its token list is staged in shared memory, and a poisoned word that the
list overwrites whole is no longer poisoned (R469, R470). -/

namespace Sys2Proof.Machine

variable {s : State} {k : SlotId} {st : Stream} {p : Policy} {j : JudgeTables} {c : Chunk} {d : Dispatch}

/-! ### What a dispatched chunk overwrites -/

theorem State.dispatchItem_rel (s : State) (k : SlotId) (st : Stream) (p : Policy) (j : JudgeTables)
    (index epoch count bytes upper : Nat) : (s.dispatchItem k st p j index epoch count bytes upper).rel = s.rel := by
  unfold State.dispatchItem
  split
  · rfl
  · exact State.effects_rel ..

theorem judgeDispatch_chunk_rel (hd : s.nextDispatch = some d) (hst : aget d.slot s.streams.table = some st)
    (he : st.req.egress = false) (hc : st.inp.chunks.find? (fun c => decide (c.ordinal = d.index)) = some c)
    (hj : s.judgeOf c.epoch false = some (p, j)) : (judgeDispatch s).rel = (s.stageList p j st c).1.rel := by
  unfold judgeDispatch
  simp only [hd, hst, he, hc, hj, Bool.false_eq_true, if_false]
  exact State.dispatchItem_rel ..

/-- Where the list of a chunk is staged (R263; log 7). -/
def State.stagedAt (s : State) (p : Policy) (j : JudgeTables) (st : Stream) (c : Chunk) : Nat :=
  (Config.tableBase p.tables.latency.policyId j.ingressRing).toNat + (s.stageList p j st c).2

/-- The first word of a staged list is whole, so it loses its poison. -/
theorem State.stageList_poisoned (u : Nat) (h : s.rel.poisoned = [(0, u, s.stagedAt p j st c)]) :
    (s.stageList p j st c).1.rel.poisoned = [] := by
  have hlen : 8 ≤ (tokenList st.handle c.firstIndex c.flags c.code.ids).length := by
    simp only [tokenList, handleBytes, leBytes, List.length_append, List.length_map, List.length_range]
    omega
  have hpoison : (s.stageList p j st c).1.rel.poisoned = s.rel.poisoned.filter (fun (e : Nat × Nat × Nat) =>
      !(decide (e.1 = 0) && decide (s.stagedAt p j st c ≤ e.2.2) &&
        decide (e.2.2 + 8 ≤ s.stagedAt p j st c + (tokenList st.handle c.firstIndex c.flags c.code.ids).length))) := rfl
  rw [hpoison, h]
  simp [hlen]

/-! ### A gate with such a chunk -/

/-- A judge of one stage in cell 1, whose ingress ring is table 4,096. -/
def ringJudge : JudgeTables :=
  { magic := 0#32, judgeOffset := 0, scores := 1, entryHandler := 0, ingressRing := 4096, worst := [1#32], neutral := [0#32],
    stages := [{ frames := 2, frameBytes := 64, areaBase := 0, cells := [1#12] }] }

/-- The active policy, of epoch 1, with that judge alone. -/
def ringPolicy : Policy :=
  { tables :=
      { resources := { magic := 0#32, format := 3, roles := 1#8, placedBytes := 0, weightBytes := 0, classBytes := 0, biasBytes := 0, cellCount := 1 }
        latency := { magic := 0#32, format := 3, policyId := 9#64, distanceId := 0#64, capabilityId := 0#64, clockNorth := 800,
                     clockSouth := 800, castWindow := 0, bridleRun := 0, entries := [] }
        routes := [], slots := { frameTicks := 4096, frameBase := 0, entries := [] }, groups := [], queueTable := [], delivery := []
        role := { roles := 1#8, streamEventQueue := 3, linkEventQueue := 3, bestEffortClass := 1, weights := [], markBytes := [],
                  ingressRoutes := [], ingressRouteDefault := (5#12, 0x10#8), contributionPort := 0xD2#8 }
        skiver := none, egress := none, awl := none, armature := none, callipers := none, sampler := none, bridle := none
        judge := some ringJudge, images := [] }
    epoch := 1, instant := 0, effective := 0, sections := [], placed := 0, windowed := false, cellSlot := false }

/-- A released chunk of one token. -/
def releasedChunk : Chunk :=
  { ordinal := 0, stamp := 0, release := 0, epoch := 1, unit := 0, segment := 0, channel := 0, endsSegment := false, promptEnd := false,
    endPos := 1, code := ⟨[1], [], 0, 0, 0, 0, 0, 0, 0, false⟩, carryAfter := {}, released := true }

/-- The live ingress stream of slot 7 with that chunk. -/
def ringStream : Stream :=
  { handle := 7#48, state := .live
    req := { tag := 1#64, tenant := 4, egress := false, pin := false, awaitIngress := false, replyNode := 6#12, replyPort := 0x40#8,
             stopSet := 0, ingressHandle := 0#64, maxTokens := 0, grammarId := 0xFFFF, temperature := 0#32, topK := 0, topP := 0#32,
             minP := 0#32, seed := 0#64, drafts := 0 }
    openStamp := 0, pinned := false, epoch := 1, replyNode := 6#12, replyPort := 0x40#8, maxTokens := 0
    sampling := ⟨0xFFFF, 0#32, 0, 0#32, 0#32, 0#64, 0, 0, 0xFFFF#16, 0#32, none⟩
    seen := ⟨0xFFFF, 0#32, 0, 0#32, 0#32, 0#64, 0, 0, 0xFFFF#16, 0#32, none⟩
    inp := { chunks := [releasedChunk] } }

/-- A gate that serves this stream, with no poisoned word. -/
def ringGate : State :=
  { State.reset with
    cast := { active := some ringPolicy, epoch := 1, defaultState := false }
    streams := { table := [(7, ringStream)] } }

/-- The same gate with one poisoned word in the ring: the first that the chunk's list overwrites. -/
def poisonedRing : State :=
  { ringGate with rel := { ringGate.rel with poisoned := [(0, 0, ringGate.stagedAt ringPolicy ringJudge ringStream releasedChunk)] } }

theorem poisonedRing_nextDispatch : poisonedRing.nextDispatch = some ⟨0, 7, 0⟩ := by
  decide +kernel

theorem poisonedRing_judgeOf : poisonedRing.judgeOf releasedChunk.epoch false = some (ringPolicy, ringJudge) := rfl

/-- Refutes O47: the clause on a chunk's dispatch says that the state besides the streams, the cell grid and the free draws stays as it
is. The dispatch writes the chunk's token list into the ingress ring, and a poisoned word written whole loses its poison (R469,
R470): in `poisonedRing` the gate's list of poisoned words is empty after it. -/
theorem not_judgeItems : ¬ Obligations.JudgeItems := by
  intro h
  obtain ⟨-, hchunk, -⟩ := h poisonedRing
  obtain ⟨t, st', m, hexec, -, -, -, -, -, -, -, -, -, -, hrest⟩ :=
    hchunk ⟨0, 7, 0⟩ ringStream releasedChunk ringPolicy ringJudge _ _ poisonedRing_nextDispatch rfl rfl rfl poisonedRing_judgeOf rfl
  obtain rfl : judgeDispatch poisonedRing = t := Host.Outcome.next.inj hexec
  have hkept := congrArg (fun v : State => v.rel.poisoned) hrest
  have hlost : (judgeDispatch poisonedRing).rel.poisoned = [] := by
    rw [judgeDispatch_chunk_rel poisonedRing_nextDispatch rfl rfl rfl poisonedRing_judgeOf]
    exact State.stageList_poisoned 0 rfl
  cases hlost.symm.trans hkept

end Sys2Proof.Machine
end

section
/-! SUPPORT. How a stream stands through the steps of a boundary: its state, tick, tokens in flight and last committed token, and its
count of committed tokens. Sending text, holding, redacting and counting other words leave all of it; the end of a boundary, a halt
and a close change what is said of them here (R72, R73, R78, R137). -/

namespace Sys2Proof.Machine

/-- How a stream stands. -/
structure Standing where
  state : StreamState
  stopReason : Nat
  boundary : Nat
  tokens : List Token
  owed : List (Nat × Nat)
  committed : Nat
  empty : Bool
  epoch : Nat
  lateMask : Nat
  count : Option Counter

def Stream.standing (st : Stream) : Standing :=
  { state := st.state, stopReason := st.stopReason, boundary := st.boundary, tokens := st.tokens, owed := st.owed,
    committed := st.committed, empty := st.empty, epoch := st.epoch, lateMask := st.lateMask, count := aget 0 st.counters }

variable {w v : Work} {st : Stream}

/-! ### Steps that leave it -/

theorem Work.word_standing (w : Work) {i : Nat} (hi : i ≠ 0) (n : Nat) : (w.word i n).st.standing = w.st.standing := by
  have hcount : ∀ c : Counter, aget 0 (aset i c w.st.counters) = aget 0 w.st.counters := fun c => aget_aset_ne (Ne.symm hi) c _
  unfold Work.word
  dsimp only
  repeat' split
  · rfl
  · rw [Work.effect_st, Stream.standing, hcount]
    rfl
  · rw [Stream.standing, hcount]
    rfl

@[simp] theorem Work.audit_standing (w : Work) (r : AuditRec) : (w.audit r).st.standing = w.st.standing := by
  obtain ⟨d, h⟩ := w.audit_st r
  rw [h]
  rfl

@[simp] theorem Work.commandRecord_standing (w : Work) (c : Nat) : (w.commandRecord c).st.standing = w.st.standing :=
  w.audit_standing _

@[simp] theorem Work.sendEnd_standing (w : Work) (n : Nat) : (w.sendEnd n).st.standing = w.st.standing := by
  obtain ⟨b, h, -⟩ := w.sendEnd_st n
  rw [h]
  rfl

@[simp] theorem Work.applyIngress_standing (w : Work) : w.applyIngress.1.st.standing = w.st.standing := by
  obtain ⟨a, b, c, h, -⟩ := w.applyIngress_st
  rw [h]
  rfl

/-- What every step of a fold over works keeps, the fold keeps. -/
theorem Work.foldl_keeps {α β : Type} (f : Work → α → Work) (g : Work → β) (hf : ∀ v a, g (f v a) = g v) (l : List α)
    (w : Work) : g (l.foldl f w) = g w := by
  induction l generalizing w with
  | nil => rfl
  | cons a l ih => rw [List.foldl_cons, ih, hf]

@[simp] theorem Work.sendText_standing (w : Work) (lo n : Nat) : (w.sendText lo n).st.standing = w.st.standing := by
  unfold Work.sendText
  rw [Work.glob_st, Work.word_standing _ (by decide)]
  exact Work.foldl_keeps (fun (v : Work) i => v.record 0 (lo + 224 * i) 0 (v.st.tokenAt (lo + 224 * i)) []
    (v.st.text.bytes (lo + 224 * i) (min (lo + n) (lo + 224 * i + 224)))) (fun v => v.st.standing) (fun _ _ => rfl) _ w

@[simp] theorem Work.releaseTo_standing (w : Work) (hi : Nat) : (w.releaseTo hi).st.standing = w.st.standing := by
  unfold Work.releaseTo
  dsimp only
  split
  · rfl
  · refine Work.foldl_keeps _ (fun v => v.st.standing) (fun v r => ?_) _ w
    split
    · rfl
    · exact v.sendText_standing ..

@[simp] theorem Work.release_standing (w : Work) : w.release.st.standing = w.st.standing :=
  Work.releaseTo_standing { w with st := { w.st with releaseIndex := _ } } _

@[simp] theorem Work.redactRange_standing (w : Work) (lo hi : Nat) : (w.redactRange lo hi).st.standing = w.st.standing := by
  unfold Work.redactRange
  dsimp only
  split
  · rfl
  · rw [Work.glob_st, Work.word_standing _ (by decide)]
    rfl

@[simp] theorem Work.redactSpan_standing (w : Work) (span : Nat × Nat) : (w.redactSpan span).st.standing = w.st.standing := by
  have hif : ∀ (c : Prop) [Decidable c] (v : Work) (lo hi : Nat),
      (if c then v else v.redactRange lo hi).st.standing = v.st.standing := by
    intro c _ v lo hi
    split
    · rfl
    · exact v.redactRange_standing lo hi
  unfold Work.redactSpan
  exact (hif ..).trans (congrArg Stream.standing (Work.glob_st ..))

@[simp] theorem Work.hold_standing (w : Work) (n : Nat) (h : Option (Nat × Nat)) : (w.hold n h).st.standing = w.st.standing := by
  have hword := w.word_standing (i := 4) (by decide) 1
  unfold Work.hold
  dsimp only
  repeat' split
  · rfl
  all_goals exact hword

@[simp] theorem Work.resolve_standing (w : Work) (n : Nat) : (w.resolve n).st.standing = w.st.standing := by
  unfold Work.resolve
  split <;> rfl

@[simp] theorem Work.bias_standing (w : Work) (t : Token) (b : Option (Half × Word)) : (w.bias t b).st.standing = w.st.standing := by
  unfold Work.bias
  repeat' split
  all_goals rfl

@[simp] theorem Work.flushCarry_standing (w : Work) : w.flushCarry.st.standing = w.st.standing := by
  unfold Work.flushCarry
  dsimp only
  split
  · rfl
  · rw [Work.effect_st, Work.glob_st, Work.word_standing _ (by decide)]
    rfl

@[simp] theorem Work.dispose_standing (w : Work) (n : Nat) : (w.dispose n).1.st.standing = w.st.standing := by
  unfold Work.dispose
  dsimp only
  generalize (if (w.egressNote 6 n).st.holdActive = true then _ else _) = disp
  by_cases h1 : disp = 1
  · simp only [h1, if_true, Work.releaseTo_standing]
    exact Work.redactRange_standing ..
  · simp only [h1, if_false]
    split <;> rfl

@[simp] theorem Work.drainEnd_standing (w : Work) (n : Nat) : (w.drainEnd n).1.st.standing = w.st.standing := by
  unfold Work.drainEnd
  repeat' split
  all_goals simp

/-! ### A boundary begins (R78) -/

/-- What was counted since the boundary before is counted now; the count of committed tokens is not among it. -/
theorem Work.atBoundary_standing (w : Work) : ∃ c, w.atBoundary.st.standing =
    { w.st.standing with boundary := w.env.now, owed := [], count := c } ∧
    ((∀ e ∈ w.st.owed, e.1 ≠ 0) → c = w.st.standing.count) := by
  have hst : w.atBoundary.st.standing =
      { w.st.standing with boundary := w.env.now, owed := [], count := w.atBoundary.st.standing.count } := by
    obtain ⟨_, _, _, _, h, -⟩ := w.atBoundary_st
    rw [h]
    rfl
  refine ⟨_, hst, fun howed => ?_⟩
  have hfold : ∀ (l : List (Nat × Nat)) (v : Work), (∀ e ∈ l, e.1 ≠ 0) →
      (l.foldl (fun v e => v.word e.1 e.2) v).st.standing.count = v.st.standing.count := by
    intro l
    induction l with
    | nil => exact fun _ _ => rfl
    | cons e l ih =>
      intro v hl
      rw [List.foldl_cons, ih _ fun x hx => hl x (List.mem_cons_of_mem _ hx), v.word_standing (hl e List.mem_cons_self)]
  exact hfold _ _ howed

theorem Work.atBoundary_again (howed : w.st.owed = []) :
    w.atBoundary.st.standing = { w.st.standing with boundary := w.env.now } := by
  obtain ⟨c, h, hc⟩ := w.atBoundary_standing
  rw [h, hc (by rw [howed]; simp)]
  simp only [Stream.standing, howed]

/-! ### DRAINING, and the end of a boundary (R73, R132, R142) -/

/-- A stream that runs drains with its stop reason; another stays as it is. -/
theorem Work.drain_running (r : Nat) (h : w.st.running = true) :
    w.drain r = { w with st := { w.st with state := .draining, stopReason := r } } := if_pos h

theorem Stream.draining_iff (st : Stream) : st.draining = true ↔ st.state = .draining := decide_eq_true_iff

theorem Stream.running_iff (st : Stream) : st.running = true ↔ st.state = .live ∨ st.state = .holding := by
  refine ⟨Stream.running_state, fun h => ?_⟩
  unfold Stream.running
  rcases h with h | h <;> rw [h]

theorem Stream.ended_iff (st : Stream) : st.ended = true ↔ st.state = .halted ∨ st.state = .closed ∨ st.state = .free := by
  unfold Stream.ended
  split <;> simp_all

/-- The same standing in another state. -/
def Standing.as (x : Standing) (s : StreamState) : Standing := { x with state := s }

/-- The end of a boundary changes the state alone, and only between LIVE and HOLDING; a halt or a close follows it only for a
DRAINING stream with nothing in flight. -/
def Work.EndsAs (w : Work) (a : After) : Prop :=
  a.work.st.standing = w.st.standing.as a.work.st.state ∧
    (a.work.st.state = w.st.state ∨ w.st.running = true ∧ a.work.st.running = true) ∧
    (a.halt ≠ none ∨ a.close = true → w.st.state = .draining ∧ w.st.tokens = [])

theorem Work.endsAs_same {a : After} (hst : a.work.st.standing = w.st.standing)
    (hend : a.halt ≠ none ∨ a.close = true → w.st.state = .draining ∧ w.st.tokens = []) : w.EndsAs a := by
  have hs : a.work.st.state = w.st.state := congrArg Standing.state hst
  exact ⟨by rw [hs, hst]; rfl, .inl hs, hend⟩

theorem Work.finish_endsAs (w : Work) (n : Nat) : w.EndsAs (w.finish n) := by
  unfold Work.finish
  dsimp only
  generalize hi : (if (w.st.draining && w.st.tokens.isEmpty) = true then w.applyIngress else (w, false)) = ing
  have hing : ing.1.st.standing = w.st.standing := by
    subst hi
    split
    · exact w.applyIngress_standing
    · rfl
  have hlast : ing.2 = true → w.st.state = .draining ∧ w.st.tokens = [] := by
    subst hi
    split
    · next h =>
      rw [Bool.and_eq_true, Stream.draining_iff, List.isEmpty_iff] at h
      exact fun _ => h
    · exact fun h => nomatch h
  obtain ⟨v, b⟩ := ing
  dsimp only at hing hlast ⊢
  have hs : v.st.state = w.st.state := congrArg Standing.state hing
  have hnone : ¬ ((none : Option Nat) ≠ none ∨ false = true) := by simp
  split
  · next hb => exact Work.endsAs_same hing fun _ => hlast hb
  split
  · next hd =>
    rw [Stream.draining_iff, hs] at hd
    split
    · next he =>
      have hend := And.intro hd (List.isEmpty_iff.1 he)
      have hdrain := (v.drainEnd_standing n).trans hing
      split
      · exact Work.endsAs_same hdrain fun _ => hend
      · exact Work.endsAs_same ((Work.sendEnd_standing ..).trans ((Work.releaseTo_standing ..).trans hdrain)) fun _ => hend
    · split
      · exact Work.endsAs_same ((Work.sendEnd_standing ..).trans hing) fun h => absurd h hnone
      · exact Work.endsAs_same hing fun h => absurd h hnone
  split
  · next hr =>
    refine ⟨?_, .inr ⟨?_, ?_⟩, fun h => absurd h hnone⟩
    · rw [← hing]
      rfl
    · rw [Stream.running_iff, hs] at hr
      exact w.st.running_iff.2 hr
    · rw [Stream.running_iff]
      dsimp only
      split
      · exact .inr rfl
      · exact .inl rfl
  · exact Work.endsAs_same hing fun h => absurd h hnone

end Sys2Proof.Machine
end

section
/-! SUPPORT. What a command about a stream does at its boundary, and its answer (R60, R73, R80, R191, R462, R466, R518). -/

namespace Sys2Proof.Machine

variable {s u : State} {v : Work} {w : Waiting} {k : SlotId} {st : Stream} {code status : Nat} {body : List Byte}

/-! ### Answering at the boundary (R80, R421) -/

theorem State.finishWaiting_finished (hw : u.ctl.waiting = s.ctl.waiting) (hm : u.ctl.mbox = s.ctl.mbox) (w : Waiting) (status : Nat)
    (body : List Byte) : s.Finished (u.finishWaiting w status body) w status body :=
  State.finished_answerFrom (u := u.popWaiting) (congrArg (List.eraseP Waiting.atBoundary) hw) hm status body

@[simp] theorem State.finishWaiting_besides (u : State) (w : Waiting) (status : Nat) (body : List Byte) :
    (u.finishWaiting w status body).besides = u.besides :=
  State.answerFrom_besides u.popWaiting w.from? status body

@[simp] theorem State.finishWaiting_eng (u : State) (w : Waiting) (status : Nat) (body : List Byte) :
    (u.finishWaiting w status body).eng = u.eng :=
  (State.of_apart State.eng (fun _ => rfl) (u.popWaiting.answerFrom_apart w.from? status body)).trans rfl

/-- A command answered in a state that differs from the one it met by counters and notices alone. -/
theorem State.answered_unchanged (hu : u.quiet = s.quiet) (w : Waiting) (status : Nat) (body : List Byte) :
    s.Finished (u.finishWaiting w status body) w status body ∧ (u.finishWaiting w status body).besides = s.besides :=
  ⟨State.finishWaiting_finished (State.of_quiet (fun v => v.ctl.waiting) (fun _ => rfl) hu)
      (State.of_quiet (fun v => v.ctl.mbox) (fun _ => rfl) hu) w status body,
    (State.finishWaiting_besides ..).trans (State.of_quiet State.besides (fun _ => rfl) hu)⟩

/-- A command answered after the work on its stream. -/
theorem Work.doneOn (hk : v.env.slot = k) (hu : u.quiet = (v.run s).quiet) (w : Waiting) (status : Nat) (body : List Byte) :
    s.DoneOn (u.finishWaiting w status body) w k v.st status body := by
  subst hk
  have hbesides : (u.finishWaiting w status body).besides = (v.run s).besides :=
    (State.finishWaiting_besides ..).trans (State.of_quiet State.besides (fun _ => rfl) hu)
  have heng : (u.finishWaiting w status body).eng = (v.run s).eng :=
    (State.finishWaiting_eng ..).trans (State.of_quiet State.eng (fun _ => rfl) hu)
  refine ⟨State.finishWaiting_finished ?_ ?_ w status body, ?_, ?_⟩
  · exact (State.of_quiet (fun v => v.ctl.waiting) (fun _ => rfl) hu).trans (v.run_waiting s)
  · exact (State.of_quiet (fun v => v.ctl.mbox) (fun _ => rfl) hu).trans (v.run_mbox s)
  · rw [hbesides]
    exact congrArg (fun y : State => { y with ctl := { y.ctl with mbox := [], waiting := [] } }) (v.run_inside s).1
  · rw [State.EnginesKeep, heng]
    exact v.run_eng s

/-! ### The boundary is met (R60, R80) -/

variable {run : Waiting → SlotId → Stream → State → State}

theorem State.atBoundary_stale (hd : s.dueWaiting code = some w) (hn : s.streamOf (field w.body 0 8) = none) :
    s.atBoundary code run = s.finishWaiting w Status.alreadyDone [] := by
  simp only [State.atBoundary, hd, hn]

theorem State.atContext_clean (h : st.poisoned = none) : s.atContext k st = (s, st) := by
  simp only [State.atContext, h]

theorem State.atBoundary_clear (hd : s.dueWaiting code = some w) (hs : s.streamOf (field w.body 0 8) = some (k, st))
    (hb : s.BoundaryClear st w.due) : s.atBoundary code run = run w k st s := by
  obtain ⟨howes, hlogit, hsteps, hpoison⟩ := hb
  have hany : st.steps.any (fun x => !x.released && decide (x.release < w.due)) = false := by
    rw [List.any_eq_false]
    intro x hx
    rcases hsteps x hx with h | h
    · simp [h]
    · simp [Nat.not_lt.2 h]
  simp only [State.atBoundary, hd, hs, howes, hlogit, hany, State.atContext_clean hpoison, Bool.or_self, Bool.false_eq_true, if_false]

/-- A host feature record whose handle is stale waits for no sample (R191). -/
theorem hostFeatureBoundary_stale (hd : s.dueWaiting 0x0205 = some w) (hn : s.streamOf (field w.body 0 8) = none) :
    hostFeatureBoundary s = s.finishWaiting w Status.alreadyDone [] := by
  rw [← State.atBoundary_stale (run := runFeatures) hd hn]
  simp only [hostFeatureBoundary, hd, Option.bind_some, hn, Option.map_none]

theorem hostFeatureBoundary_clear (hd : s.dueWaiting 0x0205 = some w) (hs : s.streamOf (field w.body 0 8) = some (k, st))
    (hb : s.BoundaryClear st w.due) (ha : (s.admissions k st).any (fun a => decide (a.tick < w.due)) = false) :
    hostFeatureBoundary s = runFeatures w k st s := by
  rw [← State.atBoundary_clear (run := runFeatures) hd hs hb]
  simp only [hostFeatureBoundary, hd, Option.bind_some, hs, Option.map_some, ha, Bool.false_eq_true, if_false]

theorem staleClause (c : Instr) (hc : code = 0x0202 ∧ c = Instr.streamSetBoundary ∨ code = 0x0203 ∧ c = Instr.streamCloseBoundary ∨
      code = 0x0206 ∧ c = Instr.streamAbortBoundary ∨ code = 0x0205 ∧ c = Instr.hostFeatureBoundary)
    (hd : s.dueWaiting code = some w) (hn : s.streamOf (field w.body 0 8) = none) :
    exec c s = .next (s.finishWaiting w Status.alreadyDone []) := by
  rcases hc with ⟨rfl, rfl⟩ | ⟨rfl, rfl⟩ | ⟨rfl, rfl⟩ | ⟨rfl, rfl⟩
  · exact congrArg Host.Outcome.next (State.atBoundary_stale hd hn)
  · exact congrArg Host.Outcome.next (State.atBoundary_stale hd hn)
  · exact congrArg Host.Outcome.next (State.atBoundary_stale hd hn)
  · exact congrArg Host.Outcome.next (hostFeatureBoundary_stale hd hn)

/-! ### The halt or close that a boundary leads to -/

/-- With no halt and no close to lead to, a stream that is not HALTED is left as it is. -/
theorem After.settle_none {a : After} (hh : a.halt = none) (hc : a.close = false) (hs : a.work.st.state ≠ .halted) :
    a.settle = a.work := by
  rcases a.work.closeHalted_cases with h | ⟨h, -⟩
  · simpa only [After.settle, hh, hc, Bool.false_eq_true, if_false] using h
  · exact absurd h hs

theorem Work.close_leaves (v : Work) :
    v.close.st.state = .closed ∧ v.close.st.stopReason = v.st.stopReason ∧ v.close.st.boundary = v.env.now := by
  obtain ⟨_, _, _, _, _, h, -⟩ := v.close_st
  rw [h]
  exact ⟨rfl, rfl, rfl⟩

theorem Work.closeHalted_leaves (v : Work) : (v.closeHalted.st.state = v.st.state ∨ v.closeHalted.st.state = .closed) ∧
    v.closeHalted.st.stopReason = v.st.stopReason ∧ (v.st.boundary = v.env.now → v.closeHalted.st.boundary = v.env.now) := by
  rcases v.closeHalted_cases with h | ⟨-, h⟩
  · rw [h]
    exact ⟨.inl rfl, rfl, id⟩
  · obtain ⟨hstate, hreason, hbound⟩ := v.close_leaves
    rw [h]
    exact ⟨.inr hstate, hreason, fun _ => hbound⟩

theorem Work.halt_leaves (v : Work) (r : Nat) : ((v.halt r).st.state = v.st.state ∨ (v.halt r).st.state = .halted) ∧
    (v.st.stopReason ≠ 0 → (v.halt r).st.stopReason = v.st.stopReason) ∧ (v.halt r).env = v.env ∧
    (v.st.boundary = v.env.now → (v.halt r).st.boundary = v.env.now) := by
  by_cases he : v.st.ended = true
  · rw [v.halt_ended r he]
    exact ⟨.inl rfl, fun _ => rfl, rfl, id⟩
  · obtain ⟨_, _, _, _, _, _, _, h, henv⟩ := v.halt_st r (Bool.eq_false_iff.2 he)
    rw [h]
    exact ⟨.inr rfl, fun hr => if_neg hr, henv, fun _ => rfl⟩

/-- What a halt or close that follows a boundary keeps of it: its tick, and a stop reason that was set. -/
theorem After.settle_st (a : After) :
    (a.settle.st.state = a.work.st.state ∨ a.settle.st.state = .halted ∨ a.settle.st.state = .closed) ∧
      (a.work.st.stopReason ≠ 0 → a.settle.st.stopReason = a.work.st.stopReason) ∧
      (a.work.st.boundary = a.work.env.now → a.settle.st.boundary = a.work.env.now) := by
  unfold After.settle
  split
  · next r _ =>
    obtain ⟨hstate, hreason, henv, hbound⟩ := a.work.halt_leaves r
    obtain ⟨hstate', hreason', hbound'⟩ := (a.work.halt r).closeHalted_leaves
    refine ⟨?_, fun h => hreason'.trans (hreason h), fun h => ?_⟩
    · rcases hstate' with h | h
      · rw [h]
        exact hstate.imp_right .inl
      · exact .inr (.inr h)
    · rw [henv] at hbound'
      exact hbound' (hbound h)
  · split
    · obtain ⟨hstate, hreason, hbound⟩ := a.work.close_leaves
      exact ⟨.inr (.inr hstate), fun _ => hreason, fun _ => hbound⟩
    · obtain ⟨hstate, hreason, hbound⟩ := a.work.closeHalted_leaves
      exact ⟨hstate.imp_right .inr, fun _ => hreason, hbound⟩

/-! ### A stream that drains at a command's boundary (R73, R142, R518) -/

theorem Stream.running_false {st : Stream} (h : st.state = .draining ∨ st.state = .halted ∨ st.state = .closed) :
    st.running = false := by
  unfold Stream.running
  rcases h with h | h | h <;> rw [h]

/-- A running stream that enters DRAINING: it has its stop reason, and a halt or close follows only when nothing is in flight. -/
theorem Work.drainAt_running (hr : v.st.running = true) (r : Nat) :
    (v.drainAt r).work.st.standing = { v.st.standing with state := .draining, stopReason := r } ∧
      ((v.drainAt r).halt ≠ none ∨ (v.drainAt r).close = true → v.st.tokens = []) := by
  have hdrain : (v.drain r).st.standing = { v.st.standing with state := .draining, stopReason := r } := by
    rw [Work.drain_running r hr]
    rfl
  unfold Work.drainAt
  dsimp only
  split
  · have hrel : (v.drain r).release.st.standing = { v.st.standing with state := .draining, stopReason := r } :=
      (Work.release_standing _).trans hdrain
    obtain ⟨hst, hstate, hend⟩ := (v.drain r).release.finish_endsAs (v.drain r).st.lastIndex
    have hs : (v.drain r).release.st.state = .draining := congrArg Standing.state hrel
    have hkeep : ((v.drain r).release.finish (v.drain r).st.lastIndex).work.st.state = .draining := by
      rcases hstate with h | ⟨h, -⟩
      · exact h.trans hs
      · rw [Stream.running_false (.inl hs)] at h
        exact absurd h Bool.false_ne_true
    refine ⟨?_, fun h => (congrArg Standing.tokens hrel).symm.trans (hend h).2⟩
    rw [hst, hkeep, hrel]
    rfl
  · exact ⟨hdrain, by simp⟩

/-- After its COMMAND record the stream is past running, with its stop reason and tick; with tokens in flight it only drains. -/
theorem Work.settleDrain (hr : v.st.running = true) (hb : v.st.boundary = v.env.now) {r : Nat} (h0 : r ≠ 0) (code : Nat) :
    let x := ((v.drainAt r).settleCommand code).st
    x.boundary = v.env.now ∧ x.running = false ∧ x.stopReason = r ∧
      (v.st.tokens ≠ [] → x.state = .draining ∧ x.tokens = v.st.tokens) := by
  obtain ⟨hst, hend⟩ := Work.drainAt_running hr r
  have henv : (v.drainAt r).work.env = v.env := (v.drainAt_core r).2
  generalize v.drainAt r = a at hst hend henv ⊢
  intro x
  have hcmd : (a.work.commandRecord code).st.standing = { v.st.standing with state := .draining, stopReason := r } :=
    (Work.commandRecord_standing _ _).trans hst
  have hs : (a.work.commandRecord code).st.state = .draining := congrArg Standing.state hcmd
  have hreason : (a.work.commandRecord code).st.stopReason = r := congrArg Standing.stopReason hcmd
  have hnow : (a.work.commandRecord code).env.now = v.env.now := by rw [Work.commandRecord_env, henv]
  obtain ⟨hstate, hkeep, hbound⟩ := ({ a with work := a.work.commandRecord code } : After).settle_st
  refine ⟨?_, Stream.running_false (hstate.imp_left fun h => h.trans hs), (hkeep (by rwa [hreason])).trans hreason, fun ht => ?_⟩
  · exact (hbound ((congrArg Standing.boundary hcmd).trans (hb.trans hnow.symm))).trans hnow
  · have hnone : a.halt = none := by
      by_contra h
      exact ht (hend (.inl h))
    have hclose : a.close = false := Bool.eq_false_iff.2 fun h => ht (hend (.inr h))
    have hsame : x = (a.work.commandRecord code).st :=
      congrArg Work.st (After.settle_none (a := { a with work := a.work.commandRecord code }) hnone hclose (by rw [hs]; decide))
    rw [hsame]
    exact ⟨hs, congrArg Standing.tokens hcmd⟩

/-! ### STREAM_SET (R518) -/

theorem Stream.not_halted_of_gone (h : st.gone = false) : st.state ≠ .halted := by
  rintro hs
  have : st.ended = true := st.ended_iff.2 (.inl hs)
  simp [Stream.gone, this] at h

theorem Stream.gone_of_running (h : st.running = true) : st.gone = false := by
  have he : ¬ st.ended = true := by
    rw [st.ended_iff]
    rcases st.running_iff.1 h with h | h <;> simp [h]
  have hd : ¬ st.draining = true := by
    rw [st.draining_iff]
    rcases st.running_iff.1 h with h | h <;> simp [h]
  simp [Stream.gone, he, hd]

/-- Whether STREAM_SET sets a token limit that an egress stream has reached. -/
def Stream.limitReached (st : Stream) (b : List Byte) : Prop :=
  st.req.egress = true ∧ (field b 8 2).testBit 6 = true ∧ field b 44 4 ≠ 0 ∧ field b 44 4 ≤ st.nextIndex

/-- What STREAM_SET does to a stream before its COMMAND record. -/
def State.setAfter (s : State) (k : SlotId) (st : Stream) (w : Waiting) : After :=
  let w1 := (s.work k (st.setFields w.body)).atBoundary
  if st.req.egress && (field w.body 8 2).testBit 6 && decide ((st.setFields w.body).maxTokens ≠ 0) &&
    decide ((st.setFields w.body).maxTokens ≤ st.nextIndex) then w1.drainAt 3 else { work := w1 }

theorem runStreamSet_eq (hg : st.gone = false) :
    runStreamSet w k st s = (((s.setAfter k st w).settleCommand 0x0202).run s).finishWaiting w Status.ok (leBytes 8 w.due) :=
  if_neg (by rw [hg]; decide)

theorem State.setAfter_reached (h : st.limitReached w.body) :
    s.setAfter k st w = (s.work k (st.setFields w.body)).atBoundary.drainAt 3 := by
  obtain ⟨he, hbit, h0, hle⟩ := h
  exact if_pos (by simp [Stream.setFields, he, hbit, h0, hle])

theorem State.setAfter_free (h : ¬ st.limitReached w.body) :
    s.setAfter k st w = { work := (s.work k (st.setFields w.body)).atBoundary } := by
  refine if_neg ?_
  simp only [Bool.and_eq_true, decide_eq_true_eq]
  rintro ⟨⟨⟨he, hbit⟩, h0⟩, hle⟩
  simp only [Stream.setFields, hbit, if_true] at h0 hle
  exact h ⟨he, hbit, h0, hle⟩

theorem Work.drainAt_boundary (v : Work) (r : Nat) : (v.drainAt r).work.st.boundary = v.st.boundary := by
  have hdrain : (v.drain r).st.boundary = v.st.boundary := by
    unfold Work.drain
    split <;> rfl
  unfold Work.drainAt
  dsimp only
  split
  · obtain ⟨hst, -, -⟩ := (v.drain r).release.finish_endsAs (v.drain r).st.lastIndex
    exact (congrArg Standing.boundary hst).trans ((congrArg Standing.boundary (Work.release_standing _)).trans hdrain)
  · exact hdrain

/-- Whether a limit is reached or not, the boundary has its tick, and the fields that a boundary keeps are the ones STREAM_SET gave. -/
theorem State.setAfter_spec (s : State) (k : SlotId) (st : Stream) (w : Waiting) :
    (s.setAfter k st w).work.st.core = (st.setFields w.body).core ∧
      (s.setAfter k st w).work.env = (s.work k (st.setFields w.body)).env ∧ (s.setAfter k st w).work.st.boundary = s.now := by
  obtain ⟨-, -, -, hb⟩ := (s.work k (st.setFields w.body)).atBoundary_state
  by_cases h : st.limitReached w.body
  · rw [State.setAfter_reached h]
    exact ⟨(Work.drainAt_core _ 3).1.trans (Work.atBoundary_core _), (Work.drainAt_core _ 3).2.trans (Work.atBoundary_env _),
      (Work.drainAt_boundary _ 3).trans hb⟩
  · rw [State.setAfter_free h]
    exact ⟨Work.atBoundary_core _, Work.atBoundary_env _, hb⟩

theorem setClause (hg : st.gone = false) :
    let m := field w.body 8 2
    let limit := field w.body 44 4
    ∃ x, s.DoneOn (runStreamSet w k st s) w k x Status.ok (leBytes 8 w.due) ∧ x.boundary = s.now ∧
      x.sampling.temperature = (if m.testBit 0 then BitVec.ofNat 32 (field w.body 16 4) else st.sampling.temperature) ∧
      x.sampling.topK = (if m.testBit 1 then field w.body 20 4 else st.sampling.topK) ∧
      x.sampling.topP = (if m.testBit 2 then BitVec.ofNat 32 (field w.body 24 4) else st.sampling.topP) ∧
      x.sampling.minP = (if m.testBit 3 then BitVec.ofNat 32 (field w.body 28 4) else st.sampling.minP) ∧
      x.sampling.seed = (if m.testBit 4 then BitVec.ofNat 64 (field w.body 32 8) else st.sampling.seed) ∧
      x.replyNode = (if m.testBit 5 then nodeField w.body 40 else st.replyNode) ∧
      x.replyPort = (if m.testBit 5 then byteField w.body 42 else st.replyPort) ∧
      x.maxTokens = (if m.testBit 6 then limit else st.maxTokens) ∧
      (¬ st.limitReached w.body →
        { x.bare with sampling := st.sampling, replyNode := st.replyNode, replyPort := st.replyPort, maxTokens := st.maxTokens } =
          st.bare) ∧
      (st.limitReached w.body → st.running = true → x.stopReason = 3 ∧ x.running = false ∧
        (st.tokens ≠ [] → x.state = .draining ∧ x.tokens = st.tokens)) := by
  intro m limit
  obtain ⟨hcore, henv, hbound⟩ := s.setAfter_spec k st w
  obtain ⟨hcore', henv'⟩ := (s.setAfter k st w).settleCommand_core 0x0202
  have hnow : ((s.setAfter k st w).settleCommand 0x0202).st.boundary = s.now := by
    obtain ⟨-, -, hkeep⟩ := ({ s.setAfter k st w with work := (s.setAfter k st w).work.commandRecord 0x0202 } : After).settle_st
    have hcmd := congrArg Standing.boundary ((s.setAfter k st w).work.commandRecord_standing 0x0202)
    have htick : ((s.setAfter k st w).work.commandRecord 0x0202).env.now = s.now := by
      rw [Work.commandRecord_env, henv]
      rfl
    exact (hkeep (hcmd.trans (hbound.trans htick.symm))).trans htick
  rw [runStreamSet_eq hg]
  refine ⟨_, Work.doneOn (congrArg Env.slot (henv'.trans henv)) rfl w _ _, hnow, ?_⟩
  have hx := hcore'.trans hcore
  refine ⟨congrArg (fun y : Stream => y.sampling.temperature) hx, congrArg (fun y : Stream => y.sampling.topK) hx,
    congrArg (fun y : Stream => y.sampling.topP) hx, congrArg (fun y : Stream => y.sampling.minP) hx,
    congrArg (fun y : Stream => y.sampling.seed) hx, congrArg (fun y : Stream => y.replyNode) hx,
    congrArg (fun y : Stream => y.replyPort) hx, congrArg (fun y : Stream => y.maxTokens) hx, fun hr => ?_, fun hr hrun => ?_⟩
  · rw [State.setAfter_free hr]
    obtain ⟨_, _, _, _, hst, -⟩ := (s.work k (st.setFields w.body)).atBoundary_st
    obtain ⟨_, hcmd⟩ := (s.work k (st.setFields w.body)).atBoundary.commandRecord_st 0x0202
    have hsame := After.settle_none (a := { work := (s.work k (st.setFields w.body)).atBoundary.commandRecord 0x0202 }) rfl rfl
      (by rw [hcmd, hst]; exact Stream.not_halted_of_gone hg)
    rw [show (After.settleCommand { work := (s.work k (st.setFields w.body)).atBoundary } 0x0202) = _ from hsame, hcmd, hst]
    rfl
  · rw [State.setAfter_reached hr]
    obtain ⟨hstate, -, -, hb⟩ := (s.work k (st.setFields w.body)).atBoundary_state
    obtain ⟨_, _, _, _, hst, he⟩ := (s.work k (st.setFields w.body)).atBoundary_st
    have hrun' : (s.work k (st.setFields w.body)).atBoundary.st.running = true := by
      rw [hst]
      exact hrun
    obtain ⟨-, hstop, hreason, hkeep⟩ := Work.settleDrain (v := (s.work k (st.setFields w.body)).atBoundary) hrun'
      (by rw [hb, he]) (r := 3) (by decide) 0x0202
    rw [show (s.work k (st.setFields w.body)).atBoundary.st.tokens = st.tokens by rw [hst]; rfl] at hkeep
    exact ⟨hreason, hstop, hkeep⟩

/-! ### STREAM_CLOSE (R73, R121, R518) -/

theorem runStreamClose_egress (hr : st.running = true) (he : st.req.egress = true) :
    runStreamClose w k st s = ((((s.work k st).atBoundary.drainAt 4).settleCommand 0x0203).run s).finishWaiting w Status.ok
      (leBytes 8 w.due) := by
  unfold runStreamClose
  rw [if_neg (by rw [Stream.gone_of_running hr]; decide)]
  dsimp only
  rw [if_pos he]

theorem runStreamClose_ingress (hr : st.running = true) (he : st.req.egress = false) :
    runStreamClose w k st s = (((s.work k st).atBoundary.drainIngress.settleCommand 0x0203).run s).finishWaiting w Status.ok
      (leBytes 8 w.due) := by
  unfold runStreamClose
  rw [if_neg (by rw [Stream.gone_of_running hr]; decide)]
  dsimp only
  rw [if_neg (by rw [he]; decide)]

/-- An ingress stream drains without its unread bytes, and closes at once when nothing is in flight (R121). -/
theorem Work.settleDrainIngress (hr : v.st.running = true) (code : Nat) :
    let x := (v.drainIngress.settleCommand code).st
    x.running = false ∧ x.stopReason = 4 ∧ x.inp.unread = [] ∧ x.inp.segmentOpen = false ∧ x.inp.chunks = v.st.inp.chunks ∧
      (v.st.idle = false → x.state = .draining) ∧ (v.st.idle = true → x.state = .closed) := by
  have hdrain : v.drainIngress = { work := { v with st := { v.st with
      state := .draining, stopReason := 4, inp := { v.st.inp with unread := [], segmentOpen := false } } }, close := v.st.idle } := by
    unfold Work.drainIngress
    rw [Work.drain_running 4 hr]
    rfl
  rw [hdrain]
  unfold After.settleCommand
  dsimp only
  obtain ⟨_, hcmd⟩ := ({ v with st := { v.st with
      state := .draining, stopReason := 4, inp := { v.st.inp with unread := [], segmentOpen := false } } } : Work).commandRecord_st code
  generalize Work.commandRecord _ code = c at hcmd ⊢
  cases hi : v.st.idle
  · rw [After.settle_none rfl rfl (by rw [hcmd]; exact StreamState.noConfusion)]
    rw [hcmd]
    exact ⟨rfl, rfl, rfl, rfl, rfl, fun _ => rfl, fun h => absurd h (by decide)⟩
  · obtain ⟨_, _, _, _, _, hclose, -⟩ := c.close_st
    rw [show (After.settle { work := c, close := true }).st = c.close.st from rfl, hclose, hcmd]
    exact ⟨rfl, rfl, rfl, rfl, rfl, fun h => absurd h (by decide), fun _ => rfl⟩

theorem closeClause (hr : st.running = true) :
    ∃ x, s.DoneOn (runStreamClose w k st s) w k x Status.ok (leBytes 8 w.due) ∧ x.running = false ∧ x.stopReason = 4 ∧
      (st.req.egress = true → st.tokens ≠ [] → x.state = .draining ∧ x.tokens = st.tokens) ∧
      (st.req.egress = false → x.inp.unread = [] ∧ x.inp.segmentOpen = false ∧ x.inp.chunks = st.inp.chunks ∧
        (st.idle = false → x.state = .draining) ∧ (st.idle = true → x.state = .closed)) := by
  obtain ⟨_, _, _, _, hst, henv⟩ := (s.work k st).atBoundary_st
  have hrun : (s.work k st).atBoundary.st.running = true := by
    rw [hst]
    exact hr
  cases he : st.req.egress
  · have hslot : ((s.work k st).atBoundary.drainIngress.settleCommand 0x0203).env = (s.work k st).env := by
      refine (After.settleCommand_core _ 0x0203).2.trans ?_
      exact (Work.drain_env _ 4).trans henv
    obtain ⟨hstop, hreason, hunread, hseg, hchunks, hwait, hclose⟩ := Work.settleDrainIngress hrun 0x0203
    rw [runStreamClose_ingress hr he]
    refine ⟨_, Work.doneOn (congrArg Env.slot hslot) rfl w _ _, hstop, hreason, fun h => absurd h (by decide),
      fun _ => ⟨hunread, hseg, ?_, ?_, ?_⟩⟩
    · rw [hchunks, hst]
      rfl
    · intro hi
      exact hwait (by rw [hst]; exact hi)
    · intro hi
      exact hclose (by rw [hst]; exact hi)
  · have hslot : (((s.work k st).atBoundary.drainAt 4).settleCommand 0x0203).env = (s.work k st).env :=
      (After.settleCommand_core _ 0x0203).2.trans ((Work.drainAt_core _ 4).2.trans henv)
    obtain ⟨-, hstop, hreason, hkeep⟩ := Work.settleDrain hrun (by rw [hst, henv]) (r := 4) (by decide) 0x0203
    rw [runStreamClose_egress hr he]
    refine ⟨_, Work.doneOn (congrArg Env.slot hslot) rfl w _ _, hstop, hreason, fun _ ht => ?_, fun h => absurd h (by decide)⟩
    rw [show (s.work k st).atBoundary.st.tokens = st.tokens by rw [hst]; rfl] at hkeep
    exact hkeep ht

/-! ### STREAM_ABORT (R462, R463, R466) -/

/-- What an abort reads after the records of the discarded tokens. -/
def Work.brief (v : Work) : List Token × Nat × Env := (v.st.tokens, v.st.stopReason, v.env)

@[simp] theorem Work.audit_brief (v : Work) (r : AuditRec) : (v.audit r).brief = v.brief := by
  obtain ⟨d, h⟩ := v.audit_st r
  rw [Work.brief, h, Work.audit_env]
  rfl

/-- A halt keeps a stop reason that is set, and one of a stream that has ended. -/
theorem Work.halt_reason (v : Work) (r : Nat) :
    (v.halt r).st.stopReason = (if v.st.stopReason = 0 ∧ v.st.ended = false then r else v.st.stopReason) := by
  by_cases he : v.st.ended = true
  · rw [v.halt_ended r he, if_neg (by simp [he])]
  · rw [Bool.not_eq_true] at he
    obtain ⟨_, _, _, _, _, _, _, h, -⟩ := v.halt_st r he
    have hreason : (v.halt r).st.stopReason = (if v.st.stopReason = 0 then r else v.st.stopReason) := congrArg Stream.stopReason h
    simp only [hreason, he, and_true]

/-- An aborted stream is CLOSED with nothing in flight. -/
theorem Work.abort_st (v : Work) (r code : Nat) :
    let x := (v.abort r code).st
    x.state = .closed ∧ x.tokens = [] ∧ x.inp.verdicts = [] ∧ x.inp.unread = [] ∧ (∀ c ∈ x.inp.chunks, c.void = true) ∧
      x.closedAt = v.env.now ∧ x.stopReason = (v.halt r).st.stopReason ∧ (v.abort r code).env = v.env := by
  intro x
  have henv : (v.halt r).env = v.env := (v.halt_core r).2
  obtain ⟨-, hreason, -, -⟩ := (v.halt r).atBoundary_state
  have hrecords := Work.foldl_keeps (fun (v : Work) (t : Token) =>
      v.audit { kind := 1, index := t.index, outcome := 1, lateMask := t.auditMask false, subject := t.id, epoch := t.epoch })
    Work.brief (fun _ _ => Work.audit_brief _ _) (v.halt r).st.tokens
    { (v.halt r).atBoundary with st := { (v.halt r).atBoundary.st with tokens := [] } }
  have hx : x = (v.abort r code).st := rfl
  unfold Work.abort at hx ⊢
  dsimp only at hx ⊢
  generalize List.foldl _ _ _ = w3 at hrecords hx ⊢
  obtain ⟨htokens, hstop, he3⟩ : w3.st.tokens = [] ∧ w3.st.stopReason = (v.halt r).atBoundary.st.stopReason ∧
      w3.env = (v.halt r).atBoundary.env :=
    ⟨congrArg Prod.fst hrecords, congrArg (fun y => y.2.1) hrecords, congrArg (fun y => y.2.2) hrecords⟩
  rw [Work.atBoundary_env, henv] at he3
  obtain ⟨_, hcmd⟩ := ({ w3 with st := { w3.st with inp := { w3.st.inp with
    verdicts := [], unread := [], chunks := w3.st.inp.chunks.map (fun (c : Chunk) => { c with void := true }) } } } :
      Work).commandRecord_st code
  have he4 := ({ w3 with st := { w3.st with inp := { w3.st.inp with
    verdicts := [], unread := [], chunks := w3.st.inp.chunks.map (fun (c : Chunk) => { c with void := true }) } } } :
      Work).commandRecord_env code
  generalize Work.commandRecord _ code = c at hcmd he4 hx ⊢
  obtain ⟨_, _, _, _, _, hclose, hcenv⟩ := c.close_st
  rw [hcmd] at hclose
  rw [hx, hclose]
  refine ⟨rfl, htokens, rfl, rfl, ?_, ?_, hstop.trans hreason, ?_⟩
  · intro y hy
    obtain ⟨z, -, rfl⟩ := List.mem_map.1 hy
    rfl
  · show c.env.now = v.env.now
    rw [he4]
    exact congrArg Env.now he3
  · rw [hcenv, he4]
    exact he3

theorem runStreamAbort_closed (h : st.state = .closed) :
    runStreamAbort w k st s = (s.count1 0x12 0 4).finishWaiting w Status.alreadyDone (st.closeBody s.aon.node) := by
  simp only [runStreamAbort, h]

/-- A stream that is not CLOSED is aborted, counted by whether it was HALTED already. -/
theorem runStreamAbort_open (hc : st.state ≠ .closed) :
    runStreamAbort w k st s = ((((s.work k st).abort 12 0x0206).run s).count1 0x12 0 (if st.state = .halted then 4 else 3)).finishWaiting w
      (if st.state = .halted then Status.alreadyDone else Status.ok) (((s.work k st).abort 12 0x0206).st.closeBody s.aon.node) := by
  unfold runStreamAbort
  split
  · next h => exact absurd h hc
  · next h => rw [if_pos h, if_pos h]
  · next h => rw [if_neg h, if_neg h]

theorem abortClause (hc : st.state ≠ .closed) (hf : st.state ≠ .free) :
    ∃ x, s.DoneOn (runStreamAbort w k st s) w k x (if st.state = .halted then Status.alreadyDone else Status.ok)
        (x.closeBody s.aon.node) ∧
      x.state = .closed ∧ x.tokens = [] ∧ x.inp.verdicts = [] ∧ x.inp.unread = [] ∧ (∀ c ∈ x.inp.chunks, c.void = true) ∧
      x.closedAt = s.now ∧ x.stopReason = (if st.stopReason = 0 ∧ st.state ≠ .halted then 12 else st.stopReason) := by
  obtain ⟨hstate, htokens, hverdicts, hunread, hchunks, hat, hreason, henv⟩ := (s.work k st).abort_st 12 0x0206
  have hended : st.ended = false ↔ st.state ≠ .halted := by
    rw [← Bool.not_eq_true, st.ended_iff]
    simp [hc, hf]
  rw [runStreamAbort_open hc]
  refine ⟨_, Work.doneOn (congrArg Env.slot henv) (State.count1_quiet ..) w _ _, hstate, htokens, hverdicts, hunread, hchunks, hat, ?_⟩
  rw [hreason, Work.halt_reason]
  show (if st.stopReason = 0 ∧ st.ended = false then 12 else st.stopReason) = _
  simp only [hended]

/-! ### Host features (R191) -/

/-- The stream with the entries of a host feature record in its accumulators and in what later commits write. -/
def Stream.withFeatures (st : Stream) (es : List (Nat × Word)) : Stream :=
  { st with
    acc := es.foldl (fun a e => aset e.1 e.2 a) st.acc, workAcc := es.foldl (fun a e => aset e.1 e.2 a) st.workAcc,
    tokens := st.tokens.map (fun (t : Token) => { t with armAcc := setWrites es t.armAcc }),
    inp := { st.inp with chunks := st.inp.chunks.map (fun (c : Chunk) => { c with armAcc := setWrites es c.armAcc }) } }

/-- The words that a host feature record may set. -/
def State.hostWords (s : State) (st : Stream) : BitVec 256 :=
  (((s.policyOf st).bind (fun p => p.tables.armature)).map (fun t => t.hostWords)).getD 0#256

theorem runFeatures_applied (he : st.ended = false)
    (h : ∀ e ∈ featureEntries w.body, e.1 < 240 ∧ (s.hostWords st).getLsbD e.1 = true) :
    runFeatures w k st s = (((((s.work k (st.withFeatures (featureEntries w.body))).atBoundary.glob 0x0A 0 6 1).commandRecord
      0x0205).run s).finishWaiting w Status.ok (leBytes 8 w.due)) := by
  unfold runFeatures
  rw [if_neg (by rw [he]; decide)]
  dsimp only
  rw [if_pos]
  · rfl
  · rw [List.all_eq_true]
    intro e hm
    obtain ⟨hlt, hbit⟩ := h e hm
    rw [decide_eq_true hlt, Bool.true_and]
    exact hbit

theorem runFeatures_rejected (he : st.ended = false)
    (h : ∃ e ∈ featureEntries w.body, ¬ (e.1 < 240 ∧ (s.hostWords st).getLsbD e.1 = true)) :
    runFeatures w k st s = (((((s.work k st).atBoundary.effect (armatureEvent 7 st.handle st.lastIndex)).commandRecord 0x0205).run
      s).finishWaiting w Status.crossref []) := by
  unfold runFeatures
  rw [if_neg (by rw [he]; decide)]
  dsimp only
  rw [if_neg]
  rw [List.all_eq_true]
  intro hall
  obtain ⟨e, hm, hno⟩ := h
  have hboth := hall e hm
  rw [Bool.and_eq_true, decide_eq_true_eq] at hboth
  exact hno hboth

theorem featuresAppliedClause (he : st.ended = false)
    (h : ∀ e ∈ featureEntries w.body, e.1 < 240 ∧ (s.hostWords st).getLsbD e.1 = true) :
    ∃ x, s.DoneOn (runFeatures w k st s) w k x Status.ok (leBytes 8 w.due) ∧
      x.acc = (st.withFeatures (featureEntries w.body)).acc ∧ x.workAcc = (st.withFeatures (featureEntries w.body)).workAcc ∧
      x.tokens = (st.withFeatures (featureEntries w.body)).tokens ∧
      x.inp.chunks = (st.withFeatures (featureEntries w.body)).inp.chunks ∧
      { x.bare with acc := st.acc, workAcc := st.workAcc, tokens := st.tokens,
                    inp := { x.bare.inp with chunks := st.inp.chunks } } = st.bare := by
  obtain ⟨_, _, _, _, hst, henv⟩ := (s.work k (st.withFeatures (featureEntries w.body))).atBoundary_st
  obtain ⟨_, hcmd⟩ := ((s.work k (st.withFeatures (featureEntries w.body))).atBoundary.glob 0x0A 0 6 1).commandRecord_st 0x0205
  have hslot := (((s.work k (st.withFeatures (featureEntries w.body))).atBoundary.glob 0x0A 0 6 1).commandRecord_env 0x0205).trans
    ((Work.glob_env ..).trans henv)
  rw [Work.glob_st, hst] at hcmd
  rw [runFeatures_applied he h]
  refine ⟨_, Work.doneOn (congrArg Env.slot hslot) rfl w _ _, ?_⟩
  rw [hcmd]
  exact ⟨rfl, rfl, rfl, rfl, rfl⟩

theorem featuresRejectedClause (he : st.ended = false)
    (h : ∃ e ∈ featureEntries w.body, ¬ (e.1 < 240 ∧ (s.hostWords st).getLsbD e.1 = true)) :
    ∃ x, s.DoneOn (runFeatures w k st s) w k x Status.crossref [] ∧ x.bare = st.bare := by
  obtain ⟨_, _, _, _, hst, henv⟩ := (s.work k st).atBoundary_st
  obtain ⟨_, hcmd⟩ := ((s.work k st).atBoundary.effect (armatureEvent 7 st.handle st.lastIndex)).commandRecord_st 0x0205
  have hslot := (((s.work k st).atBoundary.effect (armatureEvent 7 st.handle st.lastIndex)).commandRecord_env 0x0205).trans
    ((Work.effect_env ..).trans henv)
  rw [Work.effect_st, hst] at hcmd
  rw [runFeatures_rejected he h]
  refine ⟨_, Work.doneOn (congrArg Env.slot hslot) rfl w _ _, ?_⟩
  rw [hcmd]
  rfl

end Sys2Proof.Machine
end

section
open Sys2Proof Sys2Proof.Machine

/-- Settles O21: the boundary of a command runs its command on the stream that its handle names; what a halt, close or abort then leaves
is known from how the stream stands. -/
theorem streamBoundaries : Obligations.StreamBoundaries := by
  refine ⟨fun s w code c hc hd hn => ⟨_, staleClause c hc hd hn, State.answered_unchanged rfl w _ _⟩,
    fun s w k st hd hs hb => ?_, fun s w k st hd hs hb => ?_, fun s w k st hd hs hb => ?_, fun s w k st hd hs hb ha => ?_⟩
  · have hexec : exec .streamSetBoundary s = .next (runStreamSet w k st s) :=
      congrArg Host.Outcome.next (State.atBoundary_clear hd hs hb)
    rw [hexec]
    refine ⟨fun hg => ?_, fun hg => ⟨_, rfl, ?_⟩⟩
    · obtain ⟨x, hx⟩ := setClause (s := s) (w := w) (k := k) hg
      exact ⟨_, x, rfl, hx⟩
    · rw [show runStreamSet w k st s = s.finishWaiting w Status.alreadyDone [] from if_pos hg]
      exact State.answered_unchanged rfl w _ _
  · have hexec : exec .streamCloseBoundary s = .next (runStreamClose w k st s) :=
      congrArg Host.Outcome.next (State.atBoundary_clear hd hs hb)
    rw [hexec]
    refine ⟨fun hr => ?_, fun hg => ⟨_, rfl, ?_⟩⟩
    · obtain ⟨x, hx⟩ := closeClause (s := s) (w := w) (k := k) hr
      exact ⟨_, x, rfl, hx⟩
    · rw [show runStreamClose w k st s = s.finishWaiting w Status.alreadyDone [] from if_pos hg]
      exact State.answered_unchanged rfl w _ _
  · have hexec : exec .streamAbortBoundary s = .next (runStreamAbort w k st s) :=
      congrArg Host.Outcome.next (State.atBoundary_clear hd hs hb)
    rw [hexec]
    refine ⟨fun hc hf => ?_, fun hc => ⟨_, rfl, ?_⟩⟩
    · obtain ⟨x, hx⟩ := abortClause (s := s) (w := w) (k := k) hc hf
      exact ⟨_, x, rfl, hx⟩
    · rw [runStreamAbort_closed hc]
      exact State.answered_unchanged (State.count1_quiet ..) w _ _
  · have hexec : exec .hostFeatureBoundary s = .next (runFeatures w k st s) :=
      congrArg Host.Outcome.next (hostFeatureBoundary_clear hd hs hb ha)
    intro host es set
    rw [hexec]
    refine ⟨fun he h => ?_, fun he h => ?_, fun he => ⟨_, rfl, ?_⟩⟩
    · obtain ⟨x, hx⟩ := featuresAppliedClause (s := s) (w := w) (k := k) he h
      exact ⟨_, x, rfl, hx⟩
    · obtain ⟨x, hx⟩ := featuresRejectedClause (s := s) (w := w) (k := k) he h
      exact ⟨_, x, rfl, hx⟩
    · rw [show runFeatures w k st s = s.finishWaiting w Status.alreadyDone [] from if_pos he]
      exact State.answered_unchanged rfl w _ _

end

section
/-! SUPPORT. The steps of a token's boundary, by how they leave the stream standing (R77, R137, R145). -/

namespace Sys2Proof.Machine

variable {w v : Work} {st : Stream} {t : Token} {o : Out}

/-! ### What commits -/

/-- A standing without what DRAINING, a halt and a close change of it. -/
def Standing.still (x : Standing) : Standing := { x with state := .live, stopReason := 0, boundary := 0 }

/-- A token commits. -/
def Standing.commit (x : Standing) (t : Token) : Standing :=
  { x with empty := false, committed := t.index, lateMask := t.lateMask % 64,
           count := some ((x.count.getD ⟨0, false⟩).add 1) }

theorem Work.commitToken_st (w : Work) (t : Token) (n : Nat) : ∃ c g i, (w.commitToken t n).st = { w.st with
    empty := false, committed := t.index, lateMask := t.lateMask % 64, grammar := g, writeIndex := i, counters := c } ∧
      aget 0 c = some ((w.st.standing.count.getD ⟨0, false⟩).add 1) := by
  unfold Work.commitToken
  rw [Work.put_st]
  unfold Work.word
  dsimp only
  rw [if_neg Nat.one_ne_zero]
  split
  · exact ⟨_, _, _, rfl, aget_aset_self ..⟩
  · exact ⟨_, _, _, rfl, aget_aset_self ..⟩

@[simp] theorem Work.commitToken_env (w : Work) (t : Token) (n : Nat) : (w.commitToken t n).env = w.env :=
  Work.word_env _ _ _

@[simp] theorem Work.commitToken_standing (w : Work) (t : Token) (n : Nat) :
    (w.commitToken t n).st.standing = w.st.standing.commit t := by
  obtain ⟨c, _, _, h, hc⟩ := w.commitToken_st t n
  rw [h, Standing.commit, ← hc]
  rfl

theorem Work.mem_commitToken (h : o ∈ w.outs) (t : Token) (n : Nat) : o ∈ (w.commitToken t n).outs := by
  refine Work.mem_put (Work.mem_word ?_ _ _) _
  exact h

/-! ### The stream of a boundary before its token's steps (R78) -/

theorem Work.commitCommon_st (w : Work) (t : Token) (n : Nat) : ∃ c g m b a, (w.commitCommon t n).st = { w.st with
    boundary := w.env.now, owed := [], counters := c, seen := m, grammar := g, inp := { w.st.inp with seen := b },
    epoch := t.epoch, awl := a } := by
  obtain ⟨_, _, _, _, h, -⟩ := w.atBoundary_st
  unfold Work.commitCommon
  dsimp only
  obtain ⟨_, h7⟩ := Work.word_st { w.atBoundary with st := { w.atBoundary.st with
    epoch := t.epoch, awl := if t.awlAfter.isEmpty || t.discarded then w.atBoundary.st.awl else t.awlAfter } } 7 n
  generalize Work.word _ 7 n = w7 at h7 ⊢
  obtain ⟨_, h9⟩ := w7.word_st 9 t.proposed
  generalize w7.word 9 t.proposed = w9 at h9 ⊢
  obtain ⟨_, h10⟩ := w9.word_st 10 t.accepted
  generalize w9.word 10 t.accepted = w10 at h10 ⊢
  obtain ⟨_, h11⟩ := w10.word_st 11 t.masked
  rw [h11, h10, h9, h7, h]
  exact ⟨_, _, _, _, _, rfl⟩

theorem Work.commitCommon_standing (w : Work) (t : Token) (n : Nat) : ∃ c, (w.commitCommon t n).st.standing =
    { w.st.standing with boundary := w.env.now, owed := [], epoch := t.epoch, count := c } ∧
    ((∀ e ∈ w.st.owed, e.1 ≠ 0) → c = w.st.standing.count) := by
  obtain ⟨c, h, hc⟩ := w.atBoundary_standing
  refine ⟨c, ?_, hc⟩
  unfold Work.commitCommon
  dsimp only
  rw [Work.word_standing _ (by decide), Work.word_standing _ (by decide), Work.word_standing _ (by decide),
    Work.word_standing _ (by decide)]
  exact congrArg (fun x : Standing => { x with epoch := t.epoch }) h

@[simp] theorem Work.commitCommon_env (w : Work) (t : Token) (n : Nat) : (w.commitCommon t n).env = w.env := by
  unfold Work.commitCommon
  dsimp only
  rw [Work.word_env, Work.word_env, Work.word_env, Work.word_env]
  exact w.atBoundary_env

theorem Work.mem_commitCommon (h : o ∈ w.outs) (t : Token) (n : Nat) : o ∈ (w.commitCommon t n).outs := by
  unfold Work.commitCommon
  refine Work.mem_word (Work.mem_word (Work.mem_word (Work.mem_word ?_ _ _) _ _) _ _) _ _
  exact Work.mem_atBoundary h

theorem Work.applyIngress_passes (h : ∀ r, w.st.ingress = some r → r.verdict ≠ 1) : w.applyIngress.2 = false := by
  unfold Work.applyIngress
  dsimp only
  repeat' split
  · rfl
  · next r hr _ => exact decide_eq_false (h r hr)
  · rfl

theorem Work.mem_applyIngress (h : o ∈ w.outs) : o ∈ w.applyIngress.1.outs := by
  unfold Work.applyIngress
  dsimp only
  repeat' split
  all_goals exact h

/-! ### The text steps (R137) -/

@[simp] theorem Work.writeEntry_standing (w : Work) (t : Token) (late : Bool) :
    (w.writeEntry t late).st.standing = w.st.standing := by
  unfold Work.writeEntry
  dsimp only
  split
  · rw [Work.egressNote_st, Work.glob_st, Work.glob_st, Work.word_standing _ (by decide)]
    rfl
  · rw [Work.glob_st, Work.glob_st, Work.word_standing _ (by decide)]
    rfl

@[simp] theorem Work.writeEntry_env (w : Work) (t : Token) (late : Bool) : (w.writeEntry t late).env = w.env := by
  unfold Work.writeEntry
  dsimp only
  split
  · rw [Work.egressNote_env, Work.glob_env, Work.glob_env, Work.word_env]
  · rw [Work.glob_env, Work.glob_env, Work.word_env]

@[simp] theorem Work.redactSpan_env (w : Work) (span : Nat × Nat) : (w.redactSpan span).env = w.env := by
  have hif : ∀ (c : Prop) [Decidable c] (v : Work) (lo hi : Nat), (if c then v else v.redactRange lo hi).env = v.env := by
    intro c _ v lo hi
    split
    · rfl
    · obtain ⟨_, _, _, -, h⟩ := v.redactRange_st lo hi
      exact h
  unfold Work.redactSpan
  exact (hif ..).trans (Work.glob_env ..)

@[simp] theorem Work.hold_env (w : Work) (n : Nat) (h : Option (Nat × Nat)) : (w.hold n h).env = w.env := by
  have hword := w.word_env 4 1
  unfold Work.hold
  dsimp only
  repeat' split
  · rfl
  all_goals exact hword

@[simp] theorem Work.resolve_env (w : Work) (n : Nat) : (w.resolve n).env = w.env := by
  unfold Work.resolve
  split <;> rfl

@[simp] theorem Work.bias_env (w : Work) (t : Token) (b : Option (Half × Word)) : (w.bias t b).env = w.env := by
  unfold Work.bias
  repeat' split
  all_goals rfl

@[simp] theorem Work.stopStep_env (w : Work) (t : Token) (gone : Bool) : (w.stopStep t gone).1.env = w.env := by
  unfold Work.stopStep
  generalize (!gone && match w.st.text.found with | some f => decide (f.index = t.index) | none => false) = hit
  dsimp only
  repeat' split
  · rfl
  · rw [Work.glob_env]
    exact w.drain_env 2
  · exact w.drain_env 1
  · exact w.drain_env 3
  · rfl

theorem Work.drain_still (w : Work) (r : Nat) : (w.drain r).st.standing.still = w.st.standing.still := by
  unfold Work.drain
  split <;> rfl

@[simp] theorem Work.stopStep_still (w : Work) (t : Token) (gone : Bool) :
    (w.stopStep t gone).1.st.standing.still = w.st.standing.still := by
  unfold Work.stopStep
  generalize (!gone && match w.st.text.found with | some f => decide (f.index = t.index) | none => false) = hit
  dsimp only
  repeat' split
  · rfl
  · rw [Work.glob_st]
    exact w.drain_still 2
  · exact w.drain_still 1
  · exact w.drain_still 3
  · rfl

/-- The end of a boundary leaves what commits, and a halt or a close follows it only with nothing in flight. -/
theorem Work.finish_still (w : Work) (n : Nat) : (w.finish n).work.st.standing.still = w.st.standing.still ∧
    ((w.finish n).halt ≠ none ∨ (w.finish n).close = true → w.st.tokens = []) := by
  obtain ⟨hst, -, hend⟩ := w.finish_endsAs n
  exact ⟨(congrArg Standing.still hst).trans rfl, fun h => (hend h).2⟩

/-- The last steps of a boundary, from the stop on. -/
theorem Work.stopFinish_still (w : Work) (t : Token) (gone : Bool) (n : Nat) :
    let a := (w.stopStep t gone).1.release.finish n
    a.work.st.standing.still = w.st.standing.still ∧ a.work.env = w.env ∧
      (a.halt ≠ none ∨ a.close = true → w.st.tokens = []) := by
  intro a
  obtain ⟨hst, hend⟩ := (w.stopStep t gone).1.release.finish_still n
  have hrel : (w.stopStep t gone).1.release.st.standing.still = w.st.standing.still :=
    (congrArg Standing.still (Work.release_standing _)).trans (w.stopStep_still t gone)
  refine ⟨hst.trans hrel, ?_, fun h => ?_⟩
  · exact (Work.finish_core _ n).2.trans ((Work.release_env _).trans (w.stopStep_env t gone))
  · rw [← hend h]
    exact congrArg Standing.tokens hrel.symm

theorem Work.redactSpans_standing (l : List (Nat × Nat)) (w : Work) :
    (l.foldl Work.redactSpan w).st.standing = w.st.standing :=
  Work.foldl_keeps _ (fun v => v.st.standing) (fun v x => v.redactSpan_standing x) l w

theorem Work.redactSpans_env (l : List (Nat × Nat)) (w : Work) : (l.foldl Work.redactSpan w).env = w.env :=
  Work.foldl_keeps _ Work.env (fun v x => v.redactSpan_env x) l w

/-- The text steps of a token that does not overflow commit it. -/
theorem Work.textSteps_still (w : Work) (t : Token) (d : Verdict) (hfull : w.st.overflows t.index t.textAfter = false) :
    let a := w.textSteps t d false
    a.work.st.standing.still = (w.st.standing.commit t).still ∧ (a.halt ≠ none ∨ a.close = true → w.st.tokens = []) := by
  intro a
  have ha : a = w.textSteps t d false := rfl
  unfold Work.textSteps at ha
  simp only [hfull, Bool.not_false, Bool.and_false, Bool.false_eq_true, if_false] at ha
  generalize hw2 : d.acts.redacts.foldl Work.redactSpan
    ((w.writeEntry t (d.late || decide (t.lateMask % 64 ≠ 0))).commitToken t t.bytes.length) = w2 at ha
  have h2 : w2.st.standing = w.st.standing.commit t := by
    rw [← hw2, Work.redactSpans_standing, Work.commitToken_standing, Work.writeEntry_standing]
  have h4 : (((w2.hold t.index d.acts.hold).resolve t.index).bias t d.acts.bias).st.standing = w.st.standing.commit t := by
    rw [Work.bias_standing, Work.resolve_standing, Work.hold_standing, h2]
  obtain ⟨hstill, -, hend⟩ :=
    (((w2.hold t.index d.acts.hold).resolve t.index).bias t d.acts.bias).stopFinish_still t false t.index
  rw [h4] at hstill
  rw [ha]
  exact ⟨hstill, fun h => (congrArg Standing.tokens h4).symm.trans (hend h)⟩

theorem Work.textSteps_env (w : Work) (t : Token) (d : Verdict) (afterStop : Bool) :
    (w.textSteps t d afterStop).work.env = w.env := by
  unfold Work.textSteps
  dsimp only
  generalize hd : (if (!afterStop && w.st.overflows t.index t.textAfter) = true then w.dispose t.index else (w, none)) = x
  have hx : x.1.env = w.env := by
    rw [← hd]
    split
    · exact w.dispose_env _
    · rfl
  split
  · exact (Work.commitToken_env ..).trans hx
  · rw [(Work.stopFinish_still _ t afterStop t.index).2.1, Work.bias_env, Work.resolve_env, Work.hold_env, Work.redactSpans_env]
    split
    · rw [Work.glob_env, Work.commitToken_env]
      exact hx
    · rw [Work.commitToken_env, Work.writeEntry_env]
      exact hx

/-! ### REWIND (R145) -/

theorem Work.rewind_clamped (w : Work) (n c : Nat) : (w.rewind n c).2 = (w.st.rewindTarget n c).2 := rfl

@[simp] theorem Work.rewind_env (w : Work) (n c : Nat) : (w.rewind n c).1.env = w.env := by
  unfold Work.rewind
  dsimp only
  rw [Work.put_env]
  split
  · rw [Work.egressNote_env, Work.glob_env, Work.glob_env, Work.glob_env, Work.word_env, Work.word_env]
  · rw [Work.glob_env, Work.glob_env, Work.glob_env, Work.word_env, Work.word_env]

/-- Every token in flight is discarded. -/
def Standing.discard (x : Standing) : Standing := { x with tokens := x.tokens.map (fun y => { y with discarded := true }) }

theorem Standing.discard_discarded (x : Standing) : ∀ y ∈ x.discard.tokens, y.discarded = true := by
  intro y hy
  obtain ⟨z, -, rfl⟩ := List.mem_map.1 hy
  rfl

theorem Work.rewind_standing (w : Work) (n c : Nat) : (w.rewind n c).1.st.standing = w.st.standing.discard := by
  unfold Work.rewind
  dsimp only
  rw [Work.put_st]
  split
  · rw [Work.egressNote_st, Work.glob_st, Work.glob_st, Work.glob_st, Work.word_standing _ (by decide),
      Work.word_standing _ (by decide)]
    rfl
  · rw [Work.glob_st, Work.glob_st, Work.glob_st, Work.word_standing _ (by decide), Work.word_standing _ (by decide)]
    rfl

theorem Work.tokenSteps_env (w : Work) (t : Token) (d : Verdict) (afterStop : Bool) :
    (w.tokenSteps t d afterStop).work.env = w.env := by
  unfold Work.tokenSteps
  dsimp only
  repeat' split
  · exact (Work.finish_core _ _).2.trans (w.stopStep_env t true)
  · rw [Work.commitToken_env, Work.applyIngress_env]
  · rw [Work.commitToken_env, Work.applyIngress_env]
  · rw [Work.commitToken_env, Work.applyIngress_env]
  · rw [Work.bias_env, Work.rewind_env, Work.commitToken_env, Work.applyIngress_env]
  · rw [(Work.stopFinish_still _ t true t.index).2.1]
    rw [Work.bias_env, Work.rewind_env, Work.commitToken_env, Work.applyIngress_env]
  · exact (Work.textSteps_env ..).trans w.applyIngress_env

/-! ### The halt or close that a token's boundary leads to (R72, R73) -/

theorem Work.atBoundary_still (ho : w.st.owed = []) : w.atBoundary.st.standing.still = w.st.standing.still :=
  (congrArg Standing.still (Work.atBoundary_again ho)).trans rfl

theorem Work.halt_still (ho : w.st.owed = []) (r : Nat) (ht : w.st.tokens = []) :
    (w.halt r).st.standing.still = w.st.standing.still := by
  unfold Work.halt
  dsimp only
  split
  · rfl
  · have hb := Work.atBoundary_still ho
    have htokens : w.atBoundary.st.tokens = [] := (congrArg Standing.tokens hb).trans ht
    rw [Work.sendEnd_standing, Work.put_st, Work.put_st, ← hb]
    simp [Stream.standing, Standing.still, Stream.clearSlots, htokens]

theorem Work.close_still (ho : w.st.owed = []) : w.close.st.standing.still = w.st.standing.still := by
  unfold Work.close
  dsimp only
  rw [Work.put_st, Work.audit_standing, Work.put_st, Work.word_standing _ (by decide)]
  exact Work.atBoundary_still ho

theorem Work.closeHalted_still (ho : w.st.owed = []) : w.closeHalted.st.standing.still = w.st.standing.still := by
  rcases w.closeHalted_cases with h | ⟨-, h⟩
  · rw [h]
  · rw [h, Work.close_still ho]

/-- A halt or a close with nothing in flight leaves what has committed. -/
theorem After.settle_still {a : After} (ho : a.work.st.owed = []) (hend : a.halt ≠ none → a.work.st.tokens = []) :
    a.settle.st.standing.still = a.work.st.standing.still := by
  unfold After.settle
  split
  · next r hr =>
    have ht := hend (by rw [hr]; exact Option.some_ne_none r)
    have hhalt := Work.halt_still ho r ht
    exact (Work.closeHalted_still ((congrArg Standing.owed hhalt).trans ho)).trans hhalt
  · split
    · exact Work.close_still ho
    · exact Work.closeHalted_still ho

/-- A halt at a boundary discards what is in flight, and keeps what has committed and been released (R72, R73). -/
theorem Work.haltedAt_tokens (w : Work) (r : Nat) (hw : w.st.ended = false) :
    let x := (w.halt r).closeHalted.st
    (∀ y ∈ x.tokens, y.discarded = true) ∧ x.textRelease = w.st.textRelease := by
  intro x
  obtain ⟨_, _, _, _, _, _, _, hhalt, -⟩ := w.halt_st r hw
  have hkeep : x.tokens = (w.halt r).st.tokens ∧ x.textRelease = (w.halt r).st.textRelease := by
    rcases (w.halt r).closeHalted_cases with h | ⟨-, h⟩
    · rw [show x = (w.halt r).st from congrArg Work.st h]
      exact ⟨rfl, rfl⟩
    · obtain ⟨_, _, _, _, _, hc, -⟩ := (w.halt r).close_st
      rw [show x = (w.halt r).close.st from congrArg Work.st h, hc]
      exact ⟨rfl, rfl⟩
  rw [hkeep.1, hkeep.2, hhalt]
  refine ⟨fun y hy => ?_, rfl⟩
  obtain ⟨z, -, rfl⟩ := List.mem_map.1 hy
  rfl

/-- A stream halted at a boundary, by the reason given or the one it had. -/
def Stream.HaltedBy (x : Stream) (before reason : Nat) : Prop :=
  (x.state = .halted ∨ x.state = .closed) ∧ x.stopReason = (if before = 0 then reason else before) ∧
    ∀ y ∈ x.tokens, y.discarded = true

theorem Work.haltedAt_halted (w : Work) (r : Nat) (hw : w.st.ended = false) :
    (w.halt r).closeHalted.st.HaltedBy w.st.stopReason r := by
  obtain ⟨hstate, hreason, -⟩ := w.haltedAt_st r hw
  exact ⟨hstate, hreason, (w.haltedAt_tokens r hw).1⟩

/-! ### A token's boundary as a whole (R77, R137, R343) -/

/-- The boundary of a token has begun: it is out of the list in flight, and what was owed is counted. -/
def Standing.begun (x : Standing) (now : Nat) (t : Token) (c : Option Counter) : Standing :=
  { x with boundary := now, owed := [], epoch := t.epoch, count := c, tokens := x.tokens.filter (fun y => y.index ≠ t.index) }

/-- The boundary with what commits whatever the token does. -/
def Work.begin (w : Work) (t : Token) (d : Verdict) : Work :=
  ({ w with st := { w.st with tokens := w.st.tokens.filter (fun x => x.index ≠ t.index) } } : Work).commitCommon t
    (if d.skip then 0 else (t.inputs.map (fun i => i.lates)).getD 0 + (if d.late then 1 else 0))

/-- The TOKEN record of a boundary. -/
def After.record (a : After) (t : Token) (d : Verdict) : AuditRec :=
  { kind := 1, index := t.index, outcome := a.outcome ||| (if a.halt.isSome then 16 else 0), lateMask := t.auditMask d.late,
    subject := t.id, epoch := t.epoch, acts := d.acts }

/-- A boundary's steps with the TOKEN record and the accumulators of its sample. -/
def After.recorded (a : After) (t : Token) (d : Verdict) : After :=
  { a with work := Work.audit { a.work with st := a.work.st.commitAcc t a.halt.isSome } (a.record t d) }

theorem Work.tokenBoundary_live (w : Work) (t : Token) (d : Verdict) (h : w.st.ended = false) :
    w.tokenBoundary t d = (((w.begin t d).tokenSteps t d (w.st.afterStop t)).recorded t d).settle :=
  if_neg (by rw [h]; decide)

theorem Work.tokenBoundary_ended (w : Work) (t : Token) (d : Verdict) (h : w.st.ended = true) :
    w.tokenBoundary t d = (({ w with st := { w.st with tokens := w.st.tokens.filter (fun x => x.index ≠ t.index) } } : Work).audit
      { kind := 1, index := t.index, outcome := 1, lateMask := t.auditMask d.late, subject := t.id, epoch := t.epoch }).closeHalted :=
  if_pos h

@[simp] theorem Stream.commitAcc_standing (st : Stream) (t : Token) (b : Bool) : (st.commitAcc t b).standing = st.standing := by
  unfold Stream.commitAcc
  split <;> rfl

theorem Stream.commitAcc_textRelease (st : Stream) (t : Token) (b : Bool) : (st.commitAcc t b).textRelease = st.textRelease := by
  unfold Stream.commitAcc
  split <;> rfl

@[simp] theorem After.recorded_standing (a : After) (t : Token) (d : Verdict) :
    (a.recorded t d).work.st.standing = a.work.st.standing :=
  (Work.audit_standing ..).trans (Stream.commitAcc_standing ..)

theorem After.recorded_textRelease (a : After) (t : Token) (d : Verdict) :
    (a.recorded t d).work.st.textRelease = a.work.st.textRelease := by
  obtain ⟨_, h⟩ := Work.audit_st { a.work with st := a.work.st.commitAcc t a.halt.isSome } (a.record t d)
  exact (congrArg Stream.textRelease h).trans (Stream.commitAcc_textRelease ..)

@[simp] theorem Work.begin_env (w : Work) (t : Token) (d : Verdict) : (w.begin t d).env = w.env := Work.commitCommon_env ..

theorem Work.begin_standing (w : Work) (t : Token) (d : Verdict) : ∃ c,
    (w.begin t d).st.standing = w.st.standing.begun w.env.now t c ∧ ((∀ e ∈ w.st.owed, e.1 ≠ 0) → c = w.st.standing.count) :=
  Work.commitCommon_standing ..

/-- What the text steps of a boundary read is as it was before it. -/
theorem Work.begin_reads (w : Work) (t : Token) (d : Verdict) :
    (w.begin t d).st.ingress = w.st.ingress ∧ (w.begin t d).st.textRelease = w.st.textRelease ∧
      (w.begin t d).st.rewindMark = w.st.rewindMark ∧ (w.begin t d).st.survivors = w.st.survivors := by
  obtain ⟨_, _, _, _, _, h⟩ := Work.commitCommon_st
    ({ w with st := { w.st with tokens := w.st.tokens.filter (fun x => x.index ≠ t.index) } } : Work) t
    (if d.skip then 0 else (t.inputs.map (fun i => i.lates)).getD 0 + (if d.late then 1 else 0))
  rw [show (w.begin t d).st = _ from h]
  exact ⟨rfl, rfl, rfl, rfl⟩

@[simp] theorem Work.tokenBoundary_env (w : Work) (t : Token) (d : Verdict) : (w.tokenBoundary t d).env = w.env := by
  by_cases h : w.st.ended = true
  · rw [w.tokenBoundary_ended t d h]
    exact (Work.closeHalted_core _).2.trans (Work.audit_env ..)
  · rw [w.tokenBoundary_live t d (Bool.eq_false_iff.2 h)]
    refine (After.settle_core _).2.trans ((Work.audit_env ..).trans ?_)
    exact (Work.tokenSteps_env ..).trans (w.begin_env t d)

/-! ### A token's boundary by its verdict -/

section Live

variable {d : Verdict}

/-- A boundary that leads to a halt. -/
theorem After.recorded_halt {a : After} {x : Standing} {r : Nat} (hr : a.halt = some r) (hx : a.work.st.standing = x)
    (hs : w.st.ended = false) (hstate : x.state = w.st.state) (t : Token) (d : Verdict) :
    (a.recorded t d).settle.st.HaltedBy x.stopReason r ∧ (a.recorded t d).settle.st.committed = x.committed ∧
      (a.recorded t d).settle.st.textRelease = a.work.st.textRelease := by
  have hrec : (a.recorded t d).work.st.standing = x := (a.recorded_standing t d).trans hx
  have he : (a.recorded t d).work.st.ended = false :=
    (Stream.ended_of_state ((congrArg Standing.state hrec).trans hstate)).trans hs
  have hsettle : (a.recorded t d).settle = ((a.recorded t d).work.halt r).closeHalted := by
    unfold After.settle
    rw [show (a.recorded t d).halt = some r from hr]
  have hhalt := (a.recorded t d).work.haltedAt_halted r he
  obtain ⟨-, -, -, -, hcore, -⟩ := (a.recorded t d).work.haltedAt_st r he
  rw [hsettle]
  refine ⟨?_, (Stream.committed_of_core hcore).trans (congrArg Standing.committed hrec), ?_⟩
  · rwa [show (a.recorded t d).work.st.stopReason = x.stopReason from congrArg Standing.stopReason hrec] at hhalt
  · exact ((a.recorded t d).work.haltedAt_tokens r he).2.trans (a.recorded_textRelease t d)

/-- A boundary that leaves what has committed, and leads to a halt or a close only with nothing in flight. -/
theorem After.recorded_still {a : After} {x : Standing} (hx : a.work.st.standing.still = x.still) (ho : x.owed = [])
    (hend : a.halt ≠ none → x.tokens = []) (t : Token) (d : Verdict) : (a.recorded t d).settle.st.standing.still = x.still := by
  have hrec : (a.recorded t d).work.st.standing.still = x.still := (congrArg Standing.still (a.recorded_standing t d)).trans hx
  exact (After.settle_still ((congrArg Standing.owed hrec).trans ho) fun h => (congrArg Standing.tokens hrec).trans (hend h)).trans hrec

/-- A discarded token takes no step but the stop that it may set (R148, R154). -/
theorem Work.tokenSteps_discarded (h : t.discarded = true) (b : Bool) :
    w.tokenSteps t d b = { (w.stopStep t true).1.finish t.index with
      outcome := 1 ||| ((w.stopStep t true).1.finish t.index).outcome } :=
  if_pos h

variable (hd : t.discarded = false) (hi : ∀ r, w.st.ingress = some r → r.verdict ≠ 1)
include hd hi

theorem Work.tokenSteps_halt (h : d.acts.halt = true) (b : Bool) :
    w.tokenSteps t d b = { work := w.applyIngress.1.commitToken t 0, halt := some (if d.late then 9 else 5) } := by
  simp only [Work.tokenSteps, hd, Work.applyIngress_passes hi, h, Bool.false_eq_true, if_false, if_true]

theorem Work.tokenSteps_text (hh : d.acts.halt = false) (hr : d.acts.rewind = none) (b : Bool) :
    w.tokenSteps t d b = w.applyIngress.1.textSteps t d b := by
  simp only [Work.tokenSteps, hd, Work.applyIngress_passes hi, hh, hr, Bool.false_eq_true, if_false]

theorem Work.tokenSteps_rewind {c : Nat} (hh : d.acts.halt = false) (hr : d.acts.rewind = some c) (b : Bool) :
    let r := (w.applyIngress.1.commitToken t 0).rewind t.index c
    w.tokenSteps t d b = if r.2 then { work := r.1.bias t d.acts.bias, outcome := 3, halt := some 11 } else
      { ((r.1.bias t d.acts.bias).stopStep t true).1.release.finish t.index with
        outcome := 1 ||| (((r.1.bias t d.acts.bias).stopStep t true).1.release.finish t.index).outcome } := by
  simp only [Work.tokenSteps, hd, Work.applyIngress_passes hi, hh, hr, Bool.false_eq_true, if_false]

end Live

end Sys2Proof.Machine
end

section
/-! SUPPORT. A token's boundary and a step halt as the statement tells them (R72, R77, R137, R320, R337, R339, R470). -/

namespace Sys2Proof.Machine

variable {s u : State} {k : SlotId} {w : Work} {st : Stream} {t x : Token} {d : Verdict} {o : Out}

/-! ### A token that is carried out -/

/-- A boundary that has begun, with its ingress verdict applied (R85). -/
def Work.entered (w : Work) (t : Token) (d : Verdict) : Work := (w.begin t d).applyIngress.1

theorem Work.entered_standing (w : Work) (t : Token) (d : Verdict) : ∃ c,
    (w.entered t d).st.standing = w.st.standing.begun w.env.now t c ∧ ((∀ e ∈ w.st.owed, e.1 ≠ 0) → c = w.st.standing.count) := by
  obtain ⟨c, h, hc⟩ := w.begin_standing t d
  exact ⟨c, (Work.applyIngress_standing _).trans h, hc⟩

theorem Work.entered_reads (w : Work) (t : Token) (d : Verdict) : (w.entered t d).st.textRelease = w.st.textRelease ∧
    (w.entered t d).st.rewindMark = w.st.rewindMark ∧ (w.entered t d).st.survivors = w.st.survivors := by
  obtain ⟨-, hreads⟩ := w.begin_reads t d
  obtain ⟨_, _, _, h, -⟩ := (w.begin t d).applyIngress_st
  rw [show (w.entered t d).st = _ from h]
  exact hreads

theorem Work.begin_ingress (hi : ∀ r, w.st.ingress = some r → r.verdict ≠ 1) (t : Token) (d : Verdict) :
    ∀ r, (w.begin t d).st.ingress = some r → r.verdict ≠ 1 := by
  rw [(w.begin_reads t d).1]
  exact hi

section Live

variable (he : w.st.ended = false) (hd : t.discarded = false) (hi : ∀ r, w.st.ingress = some r → r.verdict ≠ 1)
include he hd hi

/-- A token whose verdict lets it pass commits (R62, R77). -/
theorem Work.tokenBoundary_passes (ha : w.st.afterStop t = false) (hh : d.acts.halt = false) (hr : d.acts.rewind = none)
    (hfull : w.st.overflows t.index t.textAfter = false) :
    ∃ c, (w.tokenBoundary t d).st.standing.still = ((w.st.standing.begun w.env.now t c).commit t).still ∧
      ((∀ e ∈ w.st.owed, e.1 ≠ 0) → c = w.st.standing.count) := by
  obtain ⟨c, hentered, hc⟩ := w.entered_standing t d
  obtain ⟨hrelease, hmark, -⟩ := w.entered_reads t d
  have hfull' : (w.entered t d).st.overflows t.index t.textAfter = false := by
    rw [Stream.overflows, hmark, hrelease]
    exact hfull
  obtain ⟨hstill, hend⟩ := (w.entered t d).textSteps_still t d hfull'
  rw [hentered] at hstill
  rw [w.tokenBoundary_live t d he, ha, Work.tokenSteps_text hd (Work.begin_ingress hi t d) hh hr]
  exact ⟨c, After.recorded_still hstill rfl (fun h => (congrArg Standing.tokens hentered).symm.trans (hend (.inl h))) t d, hc⟩

/-- A token whose verdict halts commits without its text (R77, R337). -/
theorem Work.tokenBoundary_halts (hh : d.acts.halt = true) :
    (w.tokenBoundary t d).st.HaltedBy w.st.stopReason (if d.late then 9 else 5) ∧
      (w.tokenBoundary t d).st.committed = t.index ∧ (w.tokenBoundary t d).st.textRelease = w.st.textRelease := by
  obtain ⟨c, hentered, -⟩ := w.entered_standing t d
  have hstand : ((w.entered t d).commitToken t 0).st.standing = (w.st.standing.begun w.env.now t c).commit t := by
    rw [Work.commitToken_standing, hentered]
  have htext : ((w.entered t d).commitToken t 0).st.textRelease = w.st.textRelease := by
    obtain ⟨_, _, _, h, -⟩ := (w.entered t d).commitToken_st t 0
    rw [h]
    exact (w.entered_reads t d).1
  rw [w.tokenBoundary_live t d he, Work.tokenSteps_halt hd (Work.begin_ingress hi t d) hh]
  obtain ⟨hhalt, hcommitted, hrelease⟩ := After.recorded_halt
    (a := { work := (w.entered t d).commitToken t 0, halt := some (if d.late then 9 else 5) }) rfl hstand he rfl t d
  exact ⟨hhalt, hcommitted, hrelease.trans htext⟩

/-- A rewind commits its token and discards every token in flight; a clamped one halts (R145). -/
theorem Work.tokenBoundary_rewinds {c : Nat} (hh : d.acts.halt = false) (hr : d.acts.rewind = some c) :
    (w.tokenBoundary t d).st.committed = t.index ∧ (∀ y ∈ (w.tokenBoundary t d).st.tokens, y.discarded = true) ∧
      ((w.st.rewindTarget t.index c).2 = true → (w.tokenBoundary t d).st.HaltedBy w.st.stopReason 11) := by
  obtain ⟨n, hentered, -⟩ := w.entered_standing t d
  obtain ⟨-, hmark, hsurvivors⟩ := w.entered_reads t d
  have htarget : (((w.entered t d).commitToken t 0).rewind t.index c).2 = (w.st.rewindTarget t.index c).2 := by
    rw [Work.rewind_clamped]
    obtain ⟨_, _, _, h, -⟩ := (w.entered t d).commitToken_st t 0
    rw [h, Stream.rewindTarget, Stream.rewindTarget]
    dsimp only
    rw [hmark, hsurvivors]
  rw [w.tokenBoundary_live t d he, Work.tokenSteps_rewind hd (Work.begin_ingress hi t d) hh hr]
  rw [show ((w.begin t d).applyIngress.1) = w.entered t d from rfl, htarget]
  obtain ⟨v, hv⟩ : ∃ v, v = (((w.entered t d).commitToken t 0).rewind t.index c).1.bias t d.acts.bias := ⟨_, rfl⟩
  have hstand : v.st.standing = ((w.st.standing.begun w.env.now t n).commit t).discard := by
    rw [hv, Work.bias_standing, Work.rewind_standing, Work.commitToken_standing, hentered]
  rw [← hv]
  split
  · next hclamped =>
    obtain ⟨hhalt, hcommitted, -⟩ := After.recorded_halt (a := { work := v, outcome := 3, halt := some 11 }) rfl hstand he rfl t d
    exact ⟨hcommitted, hhalt.2.2, fun _ => hhalt⟩
  · next hclamped =>
    obtain ⟨hstill, -, hend⟩ := v.stopFinish_still t true t.index
    have hkeep := After.recorded_still (a := { (v.stopStep t true).1.release.finish t.index with
      outcome := 1 ||| ((v.stopStep t true).1.release.finish t.index).outcome }) (x := v.st.standing) hstill
      (congrArg Standing.owed hstand) (fun h => hend (.inl h)) t d
    rw [hstand] at hkeep
    exact ⟨congrArg Standing.committed hkeep, fun y hy => Standing.discard_discarded _ y ((congrArg (fun z : Standing =>
      y ∈ z.tokens) hkeep).mp hy), fun h => absurd h hclamped⟩

end Live

/-- What left before the boundary of a token whose verdict halts is not lost. -/
theorem Work.mem_tokenBoundary_halts (he : w.st.ended = false) (hd : t.discarded = false)
    (hi : ∀ r, w.st.ingress = some r → r.verdict ≠ 1) (hh : d.acts.halt = true) (ho : o ∈ w.outs) :
    o ∈ (w.tokenBoundary t d).outs := by
  rw [w.tokenBoundary_live t d he, Work.tokenSteps_halt hd (Work.begin_ingress hi t d) hh]
  refine Work.mem_closeHalted (Work.mem_halt (Work.mem_audit ?_ _) _)
  refine Work.mem_commitToken (Work.mem_applyIngress (Work.mem_commitCommon ?_ _ _)) _ _
  exact ho

/-! ### A token that does not commit (R72, R148) -/

theorem Work.closeHalted_keeps (w : Work) : w.closeHalted.st.committed = w.st.committed ∧ w.closeHalted.st.tokens = w.st.tokens ∧
    w.closeHalted.st.stopReason = w.st.stopReason ∧ (w.st.ended = true → w.closeHalted.st.ended = true) := by
  rcases w.closeHalted_cases with h | ⟨-, h⟩
  · rw [h]
    exact ⟨rfl, rfl, rfl, id⟩
  · obtain ⟨_, _, _, _, _, hc, -⟩ := w.close_st
    rw [h, hc]
    exact ⟨rfl, rfl, rfl, fun _ => rfl⟩

/-- A token of a stream that has ended is recorded, and leaves. -/
theorem Work.tokenBoundary_over (he : w.st.ended = true) (t : Token) (d : Verdict) :
    (w.tokenBoundary t d).st.committed = w.st.committed ∧
      (w.tokenBoundary t d).st.tokens = w.st.tokens.filter (fun y => y.index ≠ t.index) ∧
      (w.tokenBoundary t d).st.stopReason = w.st.stopReason ∧ (w.tokenBoundary t d).st.ended = true := by
  rw [w.tokenBoundary_ended t d he]
  obtain ⟨_, haudit⟩ := Work.audit_st { w with st := { w.st with tokens := w.st.tokens.filter (fun x => x.index ≠ t.index) } }
    { kind := 1, index := t.index, outcome := 1, lateMask := t.auditMask d.late, subject := t.id, epoch := t.epoch }
  obtain ⟨hcommitted, htokens, hreason, hended⟩ := Work.closeHalted_keeps (Work.audit
    { w with st := { w.st with tokens := w.st.tokens.filter (fun x => x.index ≠ t.index) } }
    { kind := 1, index := t.index, outcome := 1, lateMask := t.auditMask d.late, subject := t.id, epoch := t.epoch })
  rw [haudit] at hcommitted htokens hreason hended
  exact ⟨hcommitted, htokens, hreason, hended he⟩

/-- A discarded token leaves without committing. -/
theorem Work.tokenBoundary_discarded (he : w.st.ended = false) (hd : t.discarded = true) (d : Verdict) :
    (w.tokenBoundary t d).st.committed = w.st.committed ∧
      (w.tokenBoundary t d).st.tokens = w.st.tokens.filter (fun y => y.index ≠ t.index) := by
  obtain ⟨c, hbegin, -⟩ := w.begin_standing t d
  have hstop : ((w.begin t d).stopStep t true).1.st.standing.still = (w.st.standing.begun w.env.now t c).still := by
    rw [Work.stopStep_still, hbegin]
  obtain ⟨hstill, hend⟩ := ((w.begin t d).stopStep t true).1.finish_still t.index
  rw [w.tokenBoundary_live t d he, Work.tokenSteps_discarded hd]
  have hkeep := After.recorded_still (a := { ((w.begin t d).stopStep t true).1.finish t.index with
    outcome := 1 ||| (((w.begin t d).stopStep t true).1.finish t.index).outcome }) (hstill.trans hstop) rfl
    (fun h => (congrArg Standing.tokens hstop).symm.trans (hend (.inl h))) t d
  exact ⟨congrArg Standing.committed hkeep, congrArg Standing.tokens hkeep⟩

/-! ### What a verdict gives its boundary (R339) -/

section Verdict

variable (hd : t.discarded = false) (he : st.ended = false) (ha : st.afterStop t = false)
include hd he ha

theorem releaseVerdict_ready {a : Actions} (hv : t.verdict = .ready a) (p : Option Policy) (now : Nat) :
    releaseVerdict p st t now = ({ acts := a }, actionEffects a) := by
  simp only [releaseVerdict, hd, he, ha, Bool.false_and, Bool.or_self, Bool.false_eq_true, if_false, hv]

theorem releaseVerdict_late (hv : ∀ a, t.verdict ≠ .ready a) (p : Policy) (now : Nat) :
    releaseVerdict (some p) st t now = ({ acts := { halt := !p.failOpen 4 }, late := true },
      lateEvent 4 st.handle t.index ++ bridleEvent 9 st.handle t.index now) := by
  simp only [releaseVerdict, hd, he, ha, Bool.false_and, Bool.or_self, Bool.false_eq_true, if_false, Option.map_some,
    Option.getD_some]

end Verdict

/-! ### The next boundary of a stream (R77) -/

/-- The work on a token's boundary, with what its verdict counts. -/
def State.tokenWork (s : State) (k : SlotId) (st : Stream) (t : Token) : Work :=
  Work.effect { env := s.env k st (s.policyByEpoch t.epoch), st := st } (releaseVerdict (s.policyByEpoch t.epoch) st t s.now).2

/-- The stream after the boundary of one of its tokens. -/
def State.afterToken (s : State) (k : SlotId) (st : Stream) (t : Token) : Work :=
  (s.tokenWork k st t).tokenBoundary t (releaseVerdict (s.policyByEpoch t.epoch) st t s.now).1

theorem State.releaseToken_onlyStream (s : State) (k : SlotId) (st : Stream) (t : Token) :
    s.OnlyStream (s.releaseToken k st t) k (s.afterToken k st t).st :=
  Work.run_onlyStream (w := s.afterToken k st t) (congrArg Env.slot (Work.tokenBoundary_env _ t _)) s

theorem verdictRelease_token (hst : aget k s.streams.table = some st) (hp : st.poisoned = none) (ht : st.dueToken s.now = some x)
    (hh : ∀ h, st.dueHalt s.now = some h → x.release ≤ h.due) :
    exec (.verdictRelease k) s = .next (s.releaseToken k st x) := by
  refine congrArg Host.Outcome.next ?_
  unfold verdictRelease
  simp only [hst, State.atContext_clean hp, ht, Option.isNone_some, Bool.false_and, Bool.false_eq_true, if_false]
  cases hy : st.dueHalt s.now with
  | none => rfl
  | some y => exact if_neg (Nat.not_lt.2 (hh y hy))

theorem verdictRelease_halt {y : StepHalt} (hst : aget k s.streams.table = some st) (hp : st.poisoned = none)
    (hy : st.dueHalt s.now = some y) (ht : ∀ t, st.dueToken s.now = some t → y.due < t.release) :
    exec (.verdictRelease k) s = .next (s.runHalt k st y) := by
  refine congrArg Host.Outcome.next ?_
  unfold verdictRelease
  simp only [hst, State.atContext_clean hp, hy, Option.isNone_some, Bool.and_false, Bool.false_eq_true, if_false]
  cases hx : st.dueToken s.now with
  | none => rfl
  | some t => exact if_pos (ht t hx)

theorem verdictRelease_none (hst : aget k s.streams.table = some st) (ht : st.dueToken s.now = none)
    (hy : st.dueHalt s.now = none) : exec (.verdictRelease k) s = .next s := by
  refine congrArg Host.Outcome.next ?_
  unfold verdictRelease
  simp only [hst, ht, hy, Option.isNone_none, Bool.and_self, if_true]

/-! ### The clauses of a token's boundary -/

section Clauses

variable (he : st.ended = false) (hd : x.discarded = false) (ha : st.afterStop x = false)
  (hi : ∀ r, st.ingress = some r → r.verdict ≠ 1)
include he hd ha hi

theorem State.afterToken_passes {acts : Actions} (hv : x.verdict = .ready acts ∨ ((∀ a, x.verdict ≠ .ready a) ∧ acts = {} ∧
      ∃ p, s.policyByEpoch x.epoch = some p ∧ p.failOpen 4 = true)) (hh : acts.halt = false) (hr : acts.rewind = none)
    (hfull : st.overflows x.index x.textAfter = false) :
    let x' := (s.afterToken k st x).st
    x'.committed = x.index ∧ x'.empty = false ∧ x'.epoch = x.epoch ∧ x'.lateMask = x.lateMask % 64 ∧
      x'.tokens = st.tokens.filter (fun y => y.index ≠ x.index) ∧
      ((∀ e ∈ st.owed, e.1 ≠ 0) → x'.word 0 = min maxCount (st.word 0 + 1)) := by
  have hacts : (releaseVerdict (s.policyByEpoch x.epoch) st x s.now).1.acts = acts := by
    rcases hv with hv | ⟨hv, rfl, p, hp, hopen⟩
    · rw [releaseVerdict_ready hd he ha hv]
    · rw [hp, releaseVerdict_late hd he ha hv, hopen]
      rfl
  obtain ⟨c, hkeep, hc⟩ := Work.tokenBoundary_passes (w := s.tokenWork k st x) (t := x)
    (d := (releaseVerdict (s.policyByEpoch x.epoch) st x s.now).1) he hd hi ha (by rw [hacts]; exact hh) (by rw [hacts]; exact hr) hfull
  refine ⟨congrArg Standing.committed hkeep, congrArg Standing.empty hkeep, congrArg Standing.epoch hkeep,
    congrArg Standing.lateMask hkeep, congrArg Standing.tokens hkeep, fun ho => ?_⟩
  have hcount := congrArg (fun y : Standing => (y.count.getD ⟨0, false⟩).count) hkeep
  rw [hc ho] at hcount
  exact hcount.trans (Counter.add_count _ 1)

theorem State.afterToken_halts {acts : Actions} (hv : x.verdict = .ready acts) (hh : acts.halt = true) :
    (s.afterToken k st x).st.HaltedBy st.stopReason 5 ∧ (s.afterToken k st x).st.committed = x.index ∧
      (s.afterToken k st x).st.textRelease = st.textRelease := by
  have hverdict := releaseVerdict_ready hd he ha hv (s.policyByEpoch x.epoch) s.now
  have hhalts := Work.tokenBoundary_halts (w := s.tokenWork k st x) (t := x)
    (d := (releaseVerdict (s.policyByEpoch x.epoch) st x s.now).1) he hd hi (by rw [hverdict]; exact hh)
  rw [show (releaseVerdict (s.policyByEpoch x.epoch) st x s.now).1.late = false by rw [hverdict]] at hhalts
  exact hhalts

theorem State.afterToken_rewinds {acts : Actions} {c : Nat} (hv : x.verdict = .ready acts) (hh : acts.halt = false)
    (hr : acts.rewind = some c) :
    (s.afterToken k st x).st.committed = x.index ∧ (∀ y ∈ (s.afterToken k st x).st.tokens, y.discarded = true) ∧
      ((st.rewindTarget x.index c).2 = true → (s.afterToken k st x).st.HaltedBy st.stopReason 11) := by
  have hverdict := releaseVerdict_ready hd he ha hv (s.policyByEpoch x.epoch) s.now
  exact Work.tokenBoundary_rewinds (w := s.tokenWork k st x) (t := x)
    (d := (releaseVerdict (s.policyByEpoch x.epoch) st x s.now).1) he hd hi (by rw [hverdict]; exact hh) (by rw [hverdict]; exact hr)

/-- A late verdict that its policy does not let pass halts with reason 9, and raises NTC_LATE and NTC_BRIDLE (R57, R339). -/
theorem State.afterToken_late {p : Policy} (hv : ∀ a, x.verdict ≠ .ready a) (hp : s.policyByEpoch x.epoch = some p)
    (hopen : p.failOpen 4 = false) :
    (s.afterToken k st x).st.HaltedBy st.stopReason 9 ∧ (s.releaseToken k st x).latched 2 = true ∧
      (s.releaseToken k st x).latched 11 = true := by
  have hverdict : releaseVerdict (s.policyByEpoch x.epoch) st x s.now = ({ acts := { halt := true }, late := true },
      lateEvent 4 st.handle x.index ++ bridleEvent 9 st.handle x.index s.now) := by
    rw [hp, releaseVerdict_late hd he ha hv, hopen]
    rfl
  have hhalt : (releaseVerdict (s.policyByEpoch x.epoch) st x s.now).1.acts.halt = true := by rw [hverdict]
  obtain ⟨hreason, -⟩ := Work.tokenBoundary_halts (w := s.tokenWork k st x) (t := x)
    (d := (releaseVerdict (s.policyByEpoch x.epoch) st x s.now).1) he hd hi hhalt
  rw [show (releaseVerdict (s.policyByEpoch x.epoch) st x s.now).1.late = true by rw [hverdict]] at hreason
  have hmem : Out.effects (lateEvent 4 st.handle x.index ++ bridleEvent 9 st.handle x.index s.now) ∈ (s.afterToken k st x).outs := by
    refine Work.mem_tokenBoundary_halts (w := s.tokenWork k st x) he hd hi hhalt ?_
    exact (congrArg (fun es => Out.effects es ∈ (s.tokenWork k st x).outs) (congrArg Prod.snd hverdict)).mp
      (Work.mem_effect_self { env := s.env k st (s.policyByEpoch x.epoch), st := st } _)
  exact ⟨hreason, Work.run_latched hmem (List.mem_append_left _ (List.mem_cons_of_mem _ List.mem_cons_self)) s,
    Work.run_latched hmem (List.mem_append_right _ (List.mem_cons_of_mem _ List.mem_cons_self)) s⟩

end Clauses

theorem State.afterToken_over (h : x.discarded = true ∨ st.ended = true) :
    (s.afterToken k st x).st.committed = st.committed ∧
      (s.afterToken k st x).st.tokens = st.tokens.filter (fun y => y.index ≠ x.index) ∧
      (st.ended = true → (s.afterToken k st x).st.ended = true ∧ (s.afterToken k st x).st.stopReason = st.stopReason) := by
  by_cases he : st.ended = true
  · obtain ⟨hcommitted, htokens, hreason, hended⟩ := Work.tokenBoundary_over (w := s.tokenWork k st x) he x
      (releaseVerdict (s.policyByEpoch x.epoch) st x s.now).1
    exact ⟨hcommitted, htokens, fun _ => ⟨hended, hreason⟩⟩
  · obtain ⟨hcommitted, htokens⟩ := Work.tokenBoundary_discarded (w := s.tokenWork k st x) (Bool.eq_false_iff.2 he)
      (h.resolve_right he) (releaseVerdict (s.policyByEpoch x.epoch) st x s.now).1
    exact ⟨hcommitted, htokens, fun h => absurd h he⟩

/-! ### A step halt (R320) -/

theorem State.runHalt_ended (he : st.ended = true) (y : StepHalt) :
    s.runHalt k st y = s.setStream k { st with stepHalts := st.stepHalts.erase y } :=
  if_pos he

theorem Stream.stepHalts_of_core {y : Stream} (h : y.core = st.core) : y.stepHalts = st.stepHalts := by
  have hhalts := congrArg Stream.stepHalts h
  exact hhalts

theorem stepHaltClause (he : st.ended = false) (y : StepHalt) :
    ∃ x', s.OnlyStream (s.runHalt k st y) k x' ∧ x'.HaltedBy st.stopReason y.reason ∧ x'.committed = st.committed ∧
      x'.stepHalts = st.stepHalts.erase y := by
  have hrun : s.runHalt k st y =
      (((s.work k { st with stepHalts := st.stepHalts.erase y }).halt y.reason).closeHalted).run s := if_neg (by rw [he]; decide)
  have he' : (s.work k { st with stepHalts := st.stepHalts.erase y }).st.ended = false := he
  obtain ⟨-, -, -, -, hcore, henv⟩ := Work.haltedAt_st _ y.reason he'
  have hcommitted := Stream.committed_of_core hcore
  have hhalts := Stream.stepHalts_of_core hcore
  rw [hrun]
  exact ⟨_, Work.run_onlyStream (congrArg Env.slot henv) s, Work.haltedAt_halted _ y.reason he', hcommitted, hhalts⟩

/-! ### A poisoned word of the context (R470) -/

/-- The boundary that meets a poisoned word of the stream's context. -/
def State.poisonMet (s : State) (k : SlotId) (st : Stream) (a : Nat) : Work :=
  (s.work k { st with poisoned := none }).effect (poisonRead 0 (bankOf a) a s.now)

/-- The stream that its poisoned context halts. -/
def State.poisonWork (s : State) (k : SlotId) (st : Stream) (a : Nat) : Work := ((s.poisonMet k st a).halt 14).closeHalted

variable {a : Nat}

theorem State.atContext_poisoned (hp : st.poisoned = some a) (he : st.ended = false) :
    s.atContext k st = ((s.poisonWork k st a).run s, (s.poisonWork k st a).st) := by
  simp only [State.atContext, hp, he, Bool.false_eq_true, if_false]
  rfl

theorem State.poisonWork_spec (he : st.ended = false) (s : State) (k : SlotId) (a : Nat) :
    (s.poisonWork k st a).st.HaltedBy st.stopReason 14 ∧ (s.poisonWork k st a).st.committed = st.committed ∧
      (s.poisonWork k st a).env.slot = k ∧ ((s.poisonWork k st a).run s).latched 19 = true := by
  have he' : (s.poisonMet k st a).st.ended = false := he
  obtain ⟨-, -, -, -, hcore, henv⟩ := Work.haltedAt_st _ 14 he'
  have hcommitted := Stream.committed_of_core hcore
  refine ⟨Work.haltedAt_halted _ 14 he', hcommitted, congrArg Env.slot henv, ?_⟩
  exact Work.run_latched (Work.mem_closeHalted (Work.mem_halt (Work.mem_effect_self ..) _)) (List.mem_cons_of_mem _ List.mem_cons_self) s

/-- Sending what leaves a boundary clears no notice. -/
theorem Work.run_keepsLatched {code : Nat} (h : s.latched code = true) (w : Work) : (w.run s).latched code = true := by
  unfold Work.run
  exact foldl_latched _ (fun t o ht => State.sendOut_latched ht ..) _ h

/-- After the halt, the boundary that was due meets an ended stream: nothing more commits. -/
def State.StaysEnded (s t : State) (k : SlotId) (st : Stream) (code : Nat) : Prop :=
  ∃ x, s.OnlyStream t k x ∧ x.ended = true ∧ x.stopReason = st.stopReason ∧ x.committed = st.committed ∧
    (s.latched code = true → t.latched code = true)

theorem State.releaseToken_staysEnded (he : st.ended = true) (s : State) (x : Token) (code : Nat) :
    s.StaysEnded (s.releaseToken k st x) k st code := by
  obtain ⟨hcommitted, -, hended⟩ := State.afterToken_over (s := s) (k := k) (x := x) (.inr he)
  exact ⟨_, s.releaseToken_onlyStream k st x, (hended he).1, (hended he).2, hcommitted, fun h => Work.run_keepsLatched h _⟩

theorem State.runHalt_staysEnded (he : st.ended = true) (s : State) (y : StepHalt) (code : Nat) :
    s.StaysEnded (s.runHalt k st y) k st code := by
  rw [State.runHalt_ended he]
  exact ⟨_, s.onlyStream_setStream k _, he, rfl, rfl, id⟩

theorem State.onlyStream_self (h : aget k s.streams.table = some st) : s.OnlyStream s k st :=
  ⟨(aset_aget _ h).symm, rfl, .inl rfl⟩

theorem verdictRelease_poisoned (hst : aget k s.streams.table = some st) (hp : st.poisoned = some a) (he : st.ended = false)
    (hdue : st.dueToken s.now ≠ none ∨ st.dueHalt s.now ≠ none) :
    ∃ t, exec (.verdictRelease k) s = .next t ∧
      ((s.poisonWork k st a).run s).StaysEnded t k (s.poisonWork k st a).st 19 := by
  obtain ⟨⟨hstate, -⟩, -, hslot, -⟩ := State.poisonWork_spec he s k a
  have hended : (s.poisonWork k st a).st.ended = true := (Stream.ended_iff _).2 (hstate.imp_right .inl)
  have hwork : ¬ ((st.dueToken s.now).isNone && (st.dueHalt s.now).isNone) = true := by
    rw [Bool.and_eq_true, Option.isNone_iff_eq_none, Option.isNone_iff_eq_none, not_and_or]
    exact hdue
  have hself : aget k ((s.poisonWork k st a).run s).streams.table = some (s.poisonWork k st a).st := by
    rw [Work.run_table, hslot, aget_aset_self]
  refine ⟨verdictRelease k s, rfl, ?_⟩
  unfold verdictRelease
  simp only [hst]
  rw [if_neg hwork]
  simp only [State.atContext_poisoned hp he]
  repeat' split
  · exact State.runHalt_staysEnded hended _ _ 19
  · exact State.releaseToken_staysEnded hended _ _ 19
  · exact State.releaseToken_staysEnded hended _ _ 19
  · exact State.runHalt_staysEnded hended _ _ 19
  · exact ⟨_, State.onlyStream_self hself, hended, rfl, rfl, id⟩

theorem poisonClause (hst : aget k s.streams.table = some st) (hp : st.poisoned = some a) (he : st.ended = false)
    (hdue : st.dueToken s.now ≠ none ∨ st.dueHalt s.now ≠ none) :
    ∃ t x, exec (.verdictRelease k) s = .next t ∧ aget k t.streams.table = some x ∧ x.ended = true ∧
      x.stopReason = (if st.stopReason = 0 then 14 else st.stopReason) ∧ x.committed = st.committed ∧ t.latched 19 = true ∧
      { t.offStreams with eng := s.eng } = s.offStreams := by
  obtain ⟨⟨-, hreason, -⟩, hcommitted, hslot, hlatched⟩ := State.poisonWork_spec he s k a
  obtain ⟨t, hrun, x, ⟨htable, hoff, -⟩, hended, hr, hc, hkeep⟩ := verdictRelease_poisoned hst hp he hdue
  obtain ⟨-, hoff', -⟩ := Work.run_onlyStream hslot s
  refine ⟨t, x, hrun, ?_, hended, hr.trans hreason, hc.trans hcommitted, hkeep hlatched, ?_⟩
  · rw [htable, aget_aset_self]
  · rw [← hoff', ← hoff]

/-! ### Halt messages (R338) -/

/-- The state with another link plane. -/
def State.withPlane (s : State) (p : Plane) : State := { s with plane := p }

theorem offerPacket_withPlane (p : Plane) (q : QueueId) (tag : Half) (prio : Option Nat) (bodies : List (List Byte)) (s : State) :
    offerPacket q tag prio bodies (s.withPlane p) =
      ((offerPacket q tag prio bodies s).1.withPlane p, (offerPacket q tag prio bodies s).2) := by
  have hq : (s.withPlane p).queue q = s.queue q := rfl
  unfold offerPacket
  simp only [hq]
  repeat' split
  all_goals rfl

theorem State.signalIrq_withPlane (p : Plane) (s : State) (b : Bool) :
    (s.withPlane p).signalIrq b = (s.signalIrq b).withPlane p := by
  have hi : (s.withPlane p).hostIrq = s.hostIrq := rfl
  have hc : (s.withPlane p).ctl = s.ctl := rfl
  unfold State.signalIrq
  simp only [hi, hc]
  split <;> rfl

/-- Counting and raising notices read nothing of the link plane. -/
theorem oneEffect_withPlane (p : Plane) (e : Effect) (s : State) :
    oneEffect e (s.withPlane p) = ((oneEffect e s).1.withPlane p, (oneEffect e s).2) := by
  cases e with
  | count c n =>
    have hc : (s.withPlane p).counter c = s.counter c := rfl
    simp only [oneEffect, hc]
    split <;> rfl
  | notice code detail =>
    have hl : (s.withPlane p).latched code = s.latched code := rfl
    simp only [oneEffect, hl]
    split
    · rfl
    · exact congrArg (fun t => (t, [Effect.packet 0 0x0006#16 none [noticeBody code 1 s.now detail]]))
        (State.signalIrq_withPlane p { s with ctl := { s.ctl with
          notices := s.ctl.notices ++ [{ code := code, count := 1, stamp := s.now, detail := padTo 40 detail }] } } s.hostIrq)
  | packet q tag prio bodies => exact offerPacket_withPlane p q tag prio bodies s

theorem State.effects_withPlane (p : Plane) (s : State) (es : List Effect) :
    (s.withPlane p).effects es = (s.effects es).withPlane p := by
  have hrun : ∀ (n : Nat) (es : List Effect) (s : State), runEffects n es (s.withPlane p) = (runEffects n es s).withPlane p := by
    intro n
    induction n with
    | zero => exact fun _ _ => rfl
    | succ n ih =>
      intro es s
      cases es with
      | nil => rfl
      | cons e es => rw [runEffects, runEffects, oneEffect_withPlane, ih]
  exact hrun _ es s

/-- The queue that the active policy names for halt messages. -/
def State.haltQueue (s : State) : Option QueueId :=
  (s.cast.active.bind (fun p => p.tables.bridle)).bind (fun (b : BridleTables) => b.haltQueue)

theorem haltMessage_queue {y : Arrival} {q : QueueId} (h : s.takeInbox (fun a => decide (a.pkt.hdr.port = 0xD4#8)) = some (y, u))
    (hq : u.haltQueue = some q) : haltMessage s = u.writeItem q 0x0005#16 (y.pkt.payload.take 56) := by
  unfold State.haltQueue at hq
  simp only [haltMessage, h, hq]

theorem haltMessage_host {y : Arrival} (h : s.takeInbox (fun a => decide (a.pkt.hdr.port = 0xD4#8)) = some (y, u))
    (hq : u.haltQueue = none) :
    haltMessage s = u.offerBulk 0 { y.pkt with hdr := { y.pkt.hdr with dest := u.aon.node, multicast := false } } y.toBulk := by
  unfold State.haltQueue at hq
  simp only [haltMessage, h, hq]

theorem haltMessageClause {y : Arrival} (h : s.takeInbox (fun a => decide (a.pkt.hdr.port = 0xD4#8)) = some (y, u)) :
    ∃ t, exec .haltMessage s = .next t ∧ t.inside = s.inside ∧ t.plane = u.plane ∧
      (∀ q, s.haltQueue = some q → t.loud = (s.writeItem q 0x0005#16 (y.pkt.payload.take 56)).loud ∧ t.bulk = s.bulk) := by
  obtain ⟨r, hr⟩ := State.takeInbox_eq h
  have hu : u = s.withPlane { s.plane with inbox := r } := hr
  have hinside : u.inside = s.inside := by
    rw [hu]
    rfl
  have hqueue : u.haltQueue = s.haltQueue := by
    rw [hu]
    rfl
  refine ⟨haltMessage s, rfl, ?_⟩
  cases hq : s.haltQueue with
  | none =>
    rw [haltMessage_host h (hqueue.trans hq)]
    exact ⟨(State.offerBulk_inside ..).trans hinside, State.offerBulk_plane .., fun q hn => nomatch hn⟩
  | some q =>
    have hquiet := u.writeItem_quiet q 0x0005#16 (y.pkt.payload.take 56)
    rw [haltMessage_queue h (hqueue.trans hq)]
    refine ⟨(State.writeItem_inside ..).trans hinside, State.of_quiet State.plane (fun _ => rfl) hquiet, fun q' hq' => ?_⟩
    obtain rfl := Option.some.inj hq'
    refine ⟨?_, (State.of_quiet State.bulk (fun _ => rfl) hquiet).trans (by rw [hu]; rfl)⟩
    rw [hu]
    rw [State.writeItem, State.effects_withPlane]
    rfl

end Sys2Proof.Machine
end

section
open Sys2Proof Sys2Proof.Machine

/-- Settles O46: a boundary's steps are followed by how they leave the stream standing; a halt discards what is in flight, and a poisoned
context ends the stream before the boundary that was due. -/
theorem tokenBoundaries : Obligations.TokenBoundaries := by
  refine ⟨fun s k st hst hp => ?_, fun s k st a hst hp he hdue => poisonClause hst hp he hdue, fun s a u h => haltMessageClause h⟩
  intro halted
  refine ⟨fun x hx hh => ?_, fun y hy ht => ?_, fun ht hy => verdictRelease_none hst ht hy⟩
  · have hrun := verdictRelease_token hst hp hx hh
    have honly := s.releaseToken_onlyStream k st x
    refine ⟨fun he hd ha hi => ⟨fun acts hv hh hr hfull => ?_, fun acts hv hh => ?_, fun acts c hv hh hr => ?_,
      fun p hv hpol hopen => ?_⟩, fun hover => ?_⟩
    · exact ⟨_, _, hrun, honly, State.afterToken_passes he hd ha hi hv hh hr hfull⟩
    · exact ⟨_, _, hrun, honly, State.afterToken_halts he hd ha hi hv hh⟩
    · exact ⟨_, _, hrun, honly, State.afterToken_rewinds he hd ha hi hv hh hr⟩
    · exact ⟨_, _, hrun, honly, State.afterToken_late he hd ha hi hv hpol hopen⟩
    · obtain ⟨hcommitted, htokens, hended⟩ := State.afterToken_over (s := s) (k := k) hover
      exact ⟨_, _, hrun, honly, hcommitted, htokens, fun he => (hended he).1⟩
  · have hrun := verdictRelease_halt hst hp hy ht
    refine ⟨fun he => ?_, fun he => ?_⟩
    · obtain ⟨x, hx⟩ := stepHaltClause (s := s) (k := k) he y
      exact ⟨_, x, hrun, hx⟩
    · refine ⟨_, hrun, ?_⟩
      rw [State.runHalt_ended he]
      exact s.onlyStream_setStream k _

end

section
/-! SUPPORT. The reads of a snapshot tick: each waiting read is answered from the state at T, in the order of R423 (R86, R87). -/

namespace Sys2Proof.Machine

variable {s t u e : State} {w x : Waiting} {p q : MPort} {n m : Fin 32} {a b ws : List Waiting} {status : Nat} {body : List Byte}

/-! ### What stands at the tick -/

/-- What the reads of a tick wait in and are answered in, besides what they read. -/
def State.readSide (s : State) : Streams × List Waiting × List ((MPort × Fin 32) × MSlot) :=
  (s.streams, s.ctl.waiting, s.ctl.mbox)

theorem State.grantOne_readSide (s : State) (b : Byte) (upTo : Nat) : (s.grantOne b upTo).readSide = s.readSide := by
  unfold State.grantOne
  dsimp only
  repeat' split
  all_goals rfl

/-- Grants of the benches change no stream, no waiting command and no mailbox slot (R235). -/
theorem State.arbitrateAll_readSide (s : State) (upTo : Nat) : (s.arbitrateAll upTo).readSide = s.readSide :=
  foldl_keeps _ State.readSide (fun v b => foldl_keeps (fun v _ => v.grantOne b _) State.readSide
    (fun v _ => v.grantOne_readSide b _) _ v) _ s

/-- Clearing the counters that a read gave leaves all else (R493). -/
theorem State.clearCounters_keep {α : Type} (f : State → α) (hf : ∀ v k z, f (v.clearCounter k z) = f v) (z : CtrKey → Nat)
    (ks : List CtrKey) (s : State) : f (ks.foldl (fun v k => v.clearCounter k (z k)) s) = f s :=
  foldl_keeps _ f (fun v k => hf v k (z k)) ks s

/-! ### One read (R86) -/

/-- What a read is answered with: BUSY where its packet does not fit the queue. -/
def State.answerOf (s : State) (r : Reading) : Nat × List Byte :=
  match r.packet with
  | none => (r.status, r.body)
  | some (q, _, bodies) => if s.packetFits q bodies.length then (r.status, r.body) else (Status.busy, [])

theorem State.answerOf_none {r : Reading} (h : r.packet = none) : s.answerOf r = (r.status, r.body) := by
  simp only [State.answerOf, h]

theorem State.answerOf_some {r : Reading} {k : QueueId} {tag : Half} {bodies : List (List Byte)} (h : r.packet = some (k, tag, bodies)) :
    s.answerOf r = if s.packetFits k bodies.length then (r.status, r.body) else (Status.busy, []) := by
  simp only [State.answerOf, h]

theorem State.answerOf_cases (s : State) (r : Reading) : s.answerOf r = (r.status, r.body) ∨ s.answerOf r = (Status.busy, []) := by
  unfold State.answerOf
  split
  · exact .inl rfl
  · split
    · exact .inl rfl
    · exact .inr rfl

/-- A read is done: it is off the list, its slot is answered, and the other slots, the streams and the rest are as they were. -/
structure State.ReadDone (s t : State) (w : Waiting) (status : Nat) (body : List Byte) : Prop where
  waiting : t.ctl.waiting = s.ctl.waiting.eraseP Waiting.atBoundary
  answers : ∀ p n, w.from? = some (p, n) → s.Answers t p n status body
  others : ∀ q m, w.from? ≠ some (q, m) → t.slot q m = s.slot q m
  streams : t.streams = s.streams
  besides : t.besides = s.besides

theorem State.ReadDone.of_quiet (h : s.ReadDone t w status body) (hu : u.quiet = t.quiet) : s.ReadDone u w status body := by
  obtain ⟨hwaiting, hanswers, hothers, hstreams, hbesides⟩ := h
  have hslot : ∀ q m, u.slot q m = t.slot q m := fun q m => State.of_quiet (fun v => v.slot q m) (fun _ => rfl) hu
  refine ⟨(State.of_quiet (fun v => v.ctl.waiting) (fun _ => rfl) hu).trans hwaiting, fun p n hf => ?_, fun q m hf => ?_,
    (State.of_quiet State.streams (fun _ => rfl) hu).trans hstreams, (State.of_quiet State.besides (fun _ => rfl) hu).trans hbesides⟩
  · rw [State.Answers, hslot]
    exact hanswers p n hf
  · rw [hslot]
    exact hothers q m hf

theorem State.finishWaiting_readDone (s : State) (w : Waiting) (status : Nat) (body : List Byte) :
    s.ReadDone (s.finishWaiting w status body) w status body := by
  obtain ⟨hwaiting, hanswered, hnone⟩ := State.finishWaiting_finished (s := s) (u := s) rfl rfl w status body
  refine ⟨hwaiting, fun p n hf => ?_, fun q m hf => ?_, State.answerFrom_streams .., State.finishWaiting_besides ..⟩
  · obtain ⟨howned, -, hmem, -, -⟩ := hanswered p n hf
    exact ⟨howned, hmem⟩
  · cases hw : w.from? with
    | none =>
      rw [State.slot, State.slot, hnone hw]
    | some z =>
      obtain ⟨p, n⟩ := z
      obtain ⟨-, -, -, -, hother⟩ := hanswered p n hw
      exact hother q m fun h => hf (hw.trans (congrArg some h.symm))

theorem State.answerReading_readDone (s : State) (w : Waiting) (r : Reading) :
    s.ReadDone (s.answerReading w r).1 w (s.answerOf r).1 (s.answerOf r).2 := by
  cases h : r.packet with
  | none =>
    rw [State.answerOf_none h]
    simp only [State.answerReading, h]
    exact s.finishWaiting_readDone w r.status r.body
  | some z =>
    obtain ⟨k, tag, bodies⟩ := z
    rw [State.answerOf_some h]
    simp only [State.answerReading, h]
    split
    · exact (s.finishWaiting_readDone w r.status r.body).of_quiet (State.effects_quiet ..)
    · exact s.finishWaiting_readDone w Status.busy []

/-! ### The reads of one tick, in their order (R423) -/

theorem answerReadings_append (e : State) (a b : List Waiting) (s : State) (ks : List CtrKey) :
    answerReadings e (a ++ b) s ks = answerReadings e b (answerReadings e a s ks).1 (answerReadings e a s ks).2 := by
  induction a generalizing s ks with
  | nil => rfl
  | cons w a ih => exact ih ..

theorem answerReadings_slot (e : State) (ks : List CtrKey) (h : ∀ y ∈ ws, y.from? ≠ some (q, m)) (s : State) :
    (answerReadings e ws s ks).1.slot q m = s.slot q m := by
  induction ws generalizing s ks with
  | nil => rfl
  | cons w ws ih =>
    exact (ih _ (fun y hy => h y (List.mem_cons_of_mem _ hy)) _).trans
      ((s.answerReading_readDone w (e.reading w)).others q m (h w List.mem_cons_self))

theorem filter_eraseP_self {α : Type} (f : α → Bool) (l : List α) : (l.eraseP f).filter f = (l.filter f).tail := by
  induction l with
  | nil => rfl
  | cons y l ih =>
    by_cases hy : f y = true
    · rw [List.eraseP_cons_of_pos hy, List.filter_cons_of_pos hy, List.tail_cons]
    · rw [List.eraseP_cons_of_neg hy, List.filter_cons_of_neg hy, List.filter_cons_of_neg hy, ih]

/-- As many commands have left the list as were answered; no stream has changed. -/
theorem answerReadings_rest (e : State) (ws : List Waiting) (s : State) (ks : List CtrKey) :
    let v := (answerReadings e ws s ks).1
    v.streams = s.streams ∧ v.besides = s.besides ∧
      v.ctl.waiting.filter Waiting.atBoundary = (s.ctl.waiting.filter Waiting.atBoundary).drop ws.length := by
  induction ws generalizing s ks with
  | nil => exact ⟨rfl, rfl, rfl⟩
  | cons w ws ih =>
    have hdone := s.answerReading_readDone w (e.reading w)
    obtain ⟨hstreams, hbesides, hwaiting⟩ := ih (s.answerReading w (e.reading w)).1 (ks ++ (s.answerReading w (e.reading w)).2)
    refine ⟨hstreams.trans hdone.streams, hbesides.trans hdone.besides, hwaiting.trans ?_⟩
    rw [hdone.waiting, filter_eraseP_self, List.length_cons, ← List.drop_one, List.drop_drop, Nat.add_comm]

/-- A read whose slot no other read of the tick has is answered in that slot as it stood at T. -/
theorem answerReadings_answers (hx : x.from? = some (p, n)) (ha : ∀ y ∈ a, y.from? ≠ some (p, n))
    (hb : ∀ y ∈ b, y.from? ≠ some (p, n)) (e : State) :
    let r := (answerReadings e a e []).1.answerOf (e.reading x)
    e.Answers (answerReadings e (a ++ x :: b) e []).1 p n r.1 r.2 := by
  intro r
  have hbefore := answerReadings_slot e [] ha e
  have hdone := ((answerReadings e a e []).1.answerReading_readDone x (e.reading x)).answers p n hx
  rw [answerReadings_append]
  have hafter := answerReadings_slot e ((answerReadings e a e []).2 ++ ((answerReadings e a e []).1.answerReading x (e.reading x)).2)
    hb ((answerReadings e a e []).1.answerReading x (e.reading x)).1
  rw [State.Answers, hbefore] at hdone
  rw [State.Answers, show (answerReadings e (x :: b) (answerReadings e a e []).1 (answerReadings e a e []).2).1.slot p n = _ from hafter]
  exact hdone

/-! ### A read that is alone in its slot -/

/-- No other waiting command came from the same slot. -/
def Waiting.Alone (x : Waiting) (l : List Waiting) : Prop := (l.filter (fun v => decide (v.from? = x.from?))).length = 1

/-- A command alone in its slot stands once in the list, and no other in the list has its slot. -/
theorem Waiting.Alone.others {l : List Waiting} (h : x.Alone l) (hl : (a ++ x :: b).Sublist l) :
    ∀ y ∈ a ++ b, y.from? ≠ x.from? := by
  have hlen := (hl.filter (fun v => decide (v.from? = x.from?))).length_le
  rw [h, List.filter_append, List.filter_cons_of_pos (by simp), List.length_append, List.length_cons] at hlen
  have hempty : (a ++ b).filter (fun v => decide (v.from? = x.from?)) = [] := by
    rw [List.filter_append, ← List.length_eq_zero_iff, List.length_append]
    omega
  intro y hy hfrom
  exact absurd (decide_eq_true hfrom) (List.filter_eq_nil_iff.1 hempty y hy)

/-! ### The tick (R86, R87) -/

/-- Whether a waiting command reads at tick `due`. -/
def Waiting.readsAt (due : Nat) (x : Waiting) : Bool := snapshotCode x.code && decide (x.due = due)

/-- The reads that a snapshot tick at `due` answers, in the order of R423. -/
def readsOf (due : Nat) (l : List Waiting) : List Waiting := (l.filter Waiting.atBoundary).takeWhile (Waiting.readsAt due)

theorem snapshotCode_iff (code : Nat) : snapshotCode code = decide (code = 0x0204 ∨ code = 0x0301 ∨ code = 0x0304) := by
  simp [snapshotCode]

theorem readsOf_sublist (due : Nat) (l : List Waiting) : (readsOf due l).Sublist l :=
  (List.takeWhile_sublist _).trans List.filter_sublist

/-- The first command that waits for its boundary is the first read. -/
theorem readsOf_cons (h : s.ctl.waiting.find? Waiting.atBoundary = some w) (hw : snapshotCode w.code = true) :
    ∃ l, readsOf w.due s.ctl.waiting = w :: l := by
  obtain ⟨hat, before, after, hl, hno⟩ := List.find?_eq_some_iff_append.1 h
  have hnone : before.filter Waiting.atBoundary = [] :=
    List.filter_eq_nil_iff.2 fun y hy hy' => absurd (hno y hy) (by simp [hy'])
  rw [readsOf, hl, List.filter_append, hnone, List.nil_append, List.filter_cons_of_pos hat,
    List.takeWhile_cons_of_pos (by simp [Waiting.readsAt, hw])]
  exact ⟨_, rfl⟩

theorem snapshotTick_waits (h : s.ctl.waiting.find? Waiting.atBoundary = some w)
    (hwait : s.now < w.due ∨ s.streams.table.any (fun e => e.2.owes w.due || e.2.stepDue w.due) = true) :
    exec .snapshotTick s = .next s := by
  refine congrArg Host.Outcome.next ?_
  unfold snapshotTick
  simp only [h]
  refine if_pos ?_
  rcases hwait with h | h <;> simp [h]

/-- The tick answers its reads, then clears the counters that they gave. -/
theorem snapshotTick_answers (h : s.ctl.waiting.find? Waiting.atBoundary = some w) (hw : snapshotCode w.code = true)
    (hdue : w.due ≤ s.now) (howed : s.streams.table.any (fun e => e.2.owes w.due || e.2.stepDue w.due) = false) :
    let e := s.arbitrateAll w.due
    let r := answerReadings e (readsOf w.due s.ctl.waiting) e []
    exec .snapshotTick s = .next (r.2.eraseDups.foldl (fun (v : State) k => v.clearCounter k (e.counter k).count) r.1) := by
  intro e r
  have hwaiting : e.ctl.waiting = s.ctl.waiting := congrArg (fun y => y.2.1) (s.arbitrateAll_readSide w.due)
  refine congrArg Host.Outcome.next ?_
  unfold snapshotTick
  simp only [h, hw, howed, Nat.not_lt.2 hdue, decide_false, Bool.not_true, Bool.or_self, Bool.false_eq_true, if_false]
  show List.foldl _ (answerReadings e (readsOf w.due e.ctl.waiting) e []).1 _ = _
  rw [hwaiting]
  rfl

/-- What the tick leaves of the streams, of the waiting commands and of the slots is what its reads leave. -/
theorem snapshotTick_spec (h : s.ctl.waiting.find? Waiting.atBoundary = some w) (hw : snapshotCode w.code = true)
    (hdue : w.due ≤ s.now) (howed : s.streams.table.any (fun e => e.2.owes w.due || e.2.stepDue w.due) = false) :
    let e := s.arbitrateAll w.due
    ∃ t, exec .snapshotTick s = .next t ∧ t.streams = s.streams ∧ t.besides = e.besides ∧
      t.ctl.waiting.filter Waiting.atBoundary = (s.ctl.waiting.filter Waiting.atBoundary).drop (readsOf w.due s.ctl.waiting).length ∧
      ∀ p n, t.slot p n = (answerReadings e (readsOf w.due s.ctl.waiting) e []).1.slot p n := by
  intro e
  have hstart := s.arbitrateAll_readSide w.due
  obtain ⟨hstreams, hbesides, hwaiting⟩ := answerReadings_rest e (readsOf w.due s.ctl.waiting) e []
  refine ⟨_, snapshotTick_answers h hw hdue howed, ?_, ?_, ?_, fun p n => ?_⟩
  · rw [State.clearCounters_keep State.streams fun _ _ _ => rfl]
    exact hstreams.trans (congrArg Prod.fst hstart)
  · rw [State.clearCounters_keep State.besides fun _ _ _ => rfl]
    exact hbesides
  · rw [State.clearCounters_keep (fun v => v.ctl.waiting) fun _ _ _ => rfl]
    rw [hwaiting, show e.ctl.waiting = s.ctl.waiting from congrArg (fun y => y.2.1) hstart]
  · rw [State.clearCounters_keep (fun v => v.slot p n) fun _ _ _ => rfl]

/-- A read that was answered waits no more. -/
theorem Waiting.Alone.gone {l r : List Waiting} {due : Nat} (h : x.Alone l) (hx : x ∈ readsOf due l)
    (hr : r.filter Waiting.atBoundary = (l.filter Waiting.atBoundary).drop (readsOf due l).length) : x ∉ r := by
  intro hmem
  have hat : x.atBoundary = true := (List.mem_filter.1 ((List.takeWhile_sublist _).subset hx)).2
  have hsplit : l.filter Waiting.atBoundary = readsOf due l ++ r.filter Waiting.atBoundary := by
    have htake := List.takeWhile_append_dropWhile (p := Waiting.readsAt due) (l := l.filter Waiting.atBoundary)
    rw [hr]
    nth_rw 2 [← htake]
    rw [readsOf, List.drop_left, htake]
  obtain ⟨a, b, hab⟩ := List.append_of_mem hx
  have hsub : (a ++ x :: (b ++ r.filter Waiting.atBoundary)).Sublist l := by
    have hall : (readsOf due l ++ r.filter Waiting.atBoundary).Sublist l := hsplit ▸ List.filter_sublist
    rwa [hab, List.append_assoc, List.cons_append] at hall
  exact h.others hsub x (List.mem_append_right _ (List.mem_append_right _ (List.mem_filter.2 ⟨hmem, hat⟩))) rfl

/-- A read alone in its slot is answered from the state at T, as the reads before it leave the queue it names. -/
theorem readsOf_answers {due : Nat} {l : List Waiting} (h : x.Alone l) (hab : readsOf due l = a ++ x :: b)
    (hx : x.from? = some (p, n)) (e : State) :
    let r := (answerReadings e a e []).1.answerOf (e.reading x)
    e.Answers (answerReadings e (readsOf due l) e []).1 p n r.1 r.2 := by
  have hothers : ∀ y ∈ a ++ b, y.from? ≠ some (p, n) := hx ▸ h.others (hab ▸ readsOf_sublist due l)
  rw [hab]
  exact answerReadings_answers hx (fun y hy => hothers y (List.mem_append_left _ hy))
    (fun y hy => hothers y (List.mem_append_right _ hy)) e

end Sys2Proof.Machine
end

section
open Sys2Proof Sys2Proof.Machine

/-- Settles O23: the reads of the tick are answered one after another from the state at T, each in its own slot. -/
theorem snapshotTick : Obligations.SnapshotTick := by
  intro s w h hcode owed e ofTick alone
  have hw : snapshotCode w.code = true := by rw [snapshotCode_iff, decide_eq_true hcode]
  have hof : ofTick = Waiting.readsAt w.due := by
    funext x
    rw [Waiting.readsAt, snapshotCode_iff]
  refine ⟨snapshotTick_waits h, fun hdue howed => ?_⟩
  obtain ⟨t, hrun, hstreams, hbesides, hwaiting, hslot⟩ := snapshotTick_spec h hw hdue howed
  have hanswers : ∀ p n status body, e.Answers (answerReadings e (readsOf w.due s.ctl.waiting) e []).1 p n status body →
      e.Answers t p n status body := by
    intro p n status body ha
    rw [State.Answers, hslot]
    exact ha
  refine ⟨t, hrun, hstreams, hbesides, fun x hx ha => ⟨?_, fun p n hf => ?_⟩, fun p n q tag bodies ha hf hp => ?_⟩
  · rw [hof] at hx
    exact Waiting.Alone.gone ha hx hwaiting
  · rw [hof] at hx
    obtain ⟨a, b, hab⟩ := List.append_of_mem (show x ∈ readsOf w.due s.ctl.waiting from hx)
    have hread := hanswers p n _ _ (readsOf_answers ha hab hf e)
    refine ⟨fun hp => ?_, fun _ => ?_⟩
    · rwa [State.answerOf_none hp] at hread
    · rcases State.answerOf_cases (answerReadings e a e []).1 (e.reading x) with hc | hc
      · rw [hc] at hread
        exact .inl hread
      · rw [hc] at hread
        exact .inr hread
  · obtain ⟨l, hl⟩ := readsOf_cons h hw
    have hread := hanswers p n _ _ (readsOf_answers (a := []) ha hl hf e)
    rw [show (answerReadings e [] e []).1 = e from rfl, State.answerOf_some hp] at hread
    refine ⟨fun hfit => ?_, fun hfit => ?_⟩
    · rwa [if_pos hfit] at hread
    · rwa [if_neg (by rw [hfit]; decide)] at hread

end

section
/-! The awl: the detokenizer's contribution, the items of a lane, and re-reads (R171 to R175, R179, R182, R183, R470). -/

namespace Sys2Proof.Machine

variable {s : State} {h : HalfId} {l : Fin 256} {i : AwlItem} {k : SlotId} {st : Stream}

/-! ### Lanes -/

theorem State.setAwlLane_awlLane (s : State) (h g : HalfId) (l m : Fin 256) (v : AwlLane) :
    (s.setAwlLane h l v).awlLane g m = if (g, m) = (h, l) then v else s.awlLane g m := by
  unfold State.setAwlLane State.awlLane
  split
  · next he => rw [he, aget_aset_self]; rfl
  · next he => rw [aget_aset_ne he]

@[simp] theorem State.setAwlLane_awlLane_same (s : State) (h : HalfId) (l : Fin 256) (v : AwlLane) :
    (s.setAwlLane h l v).awlLane h l = v := by
  rw [State.setAwlLane_awlLane, if_pos rfl]

theorem State.setAwlLane_awlLane_other {g : HalfId} {m : Fin 256} (hne : (g, m) ≠ (h, l)) (s : State) (v : AwlLane) :
    (s.setAwlLane h l v).awlLane g m = s.awlLane g m := by
  rw [State.setAwlLane_awlLane, if_neg hne]

@[simp] theorem State.effects_awlLane (s : State) (es : List Effect) (h : HalfId) (l : Fin 256) :
    (s.effects es).awlLane h l = s.awlLane h l :=
  State.effects_field (fun v => v.awlLane h l) (fun _ => rfl) s es

@[simp] theorem State.setStream_awlLane (s : State) (k : SlotId) (x : Stream) (h : HalfId) (l : Fin 256) :
    (s.setStream k x).awlLane h l = s.awlLane h l := rfl

/-- Queueing items on the lanes changes the engines alone. -/
theorem State.pushItems_quiet (s : State) (p : Policy) (k : SlotId) (items : List (Nat × AwlItem)) (e : Engines) :
    { (s.pushItems p k items).quiet with eng := e } = { s.quiet with eng := e } := by
  unfold State.pushItems
  induction items generalizing s with
  | nil => rfl
  | cons x items ih => exact ih (s.pushItem (p.awlHalf k) x.1 x.2)

/-- A member replaced by its key stands in the list as its replacement. -/
theorem mem_map_replaced {α : Type} {key : α → Nat} {n : Nat} {x : α} {m : List α} (hx : x ∈ m) (hn : key x = n) (y : α) :
    y ∈ m.map (fun a => if key a = n then y else a) :=
  List.mem_map.2 ⟨x, hx, if_pos hn⟩

/-! ### The detokenizer's contribution (R172, R470) -/

/-- A token with its detokenizer's contribution, and n items of the awl to come. -/
def Token.detokenized (x : Token) (inTime : Bool) (n : Nat) : Token :=
  { x with detok := some inTime, awlLeft := n, awlReady := decide (n = 0) && inTime }

/-- A stream with a token replaced, by its index. -/
def Stream.putToken (st : Stream) (n : Nat) (y : Token) : Stream :=
  { st with tokens := st.tokens.map (fun x => if x.index = n then y else x) }

/-- The token gets the contribution and its items, if any, go to their lanes. -/
theorem detokReady_cases {x : Token} (hst : aget k s.streams.table = some st)
    (hx : st.tokens.find? (fun t => t.detok.isNone && !(st.ended)) = some x) :
    ∃ n es, let y := x.detokenized (decide (s.now < x.cutoff) && x.inputs.isNone && (s.tablePoison 0x10 st.handle x.index).isNone) n
      let v := (s.setStream k (st.putToken x.index y)).effects es
      detokReady k s = v ∨ ∃ p items, detokReady k s = v.pushItems p k items := by
  unfold detokReady
  simp only [hst, hx]
  cases s.policyByEpoch x.epoch with
  | none => exact ⟨_, _, .inl rfl⟩
  | some p => exact ⟨_, _, .inr ⟨p, _, rfl⟩⟩

theorem detokenizerClause {x : Token} (hst : aget k s.streams.table = some st)
    (hx : st.tokens.find? (fun t => t.detok.isNone && !(st.ended)) = some x) :
    ∃ t st', exec (.detokenizerContributionReady k) s = .next t ∧ t.streams.table = aset k st' s.streams.table ∧
      (∃ y ∈ st'.tokens, y.index = x.index ∧
        y.detok = some (decide (s.now < x.cutoff) && x.inputs.isNone && (s.tablePoison 0x10 st.handle x.index).isNone)) ∧
      { st' with tokens := st.tokens } = st ∧ { t.quiet with streams := s.streams, eng := s.eng } = s.quiet := by
  obtain ⟨n, es, hcases⟩ := detokReady_cases hst hx
  dsimp only at hcases
  generalize hy : Token.detokenized .. = y at hcases
  have hmem : y ∈ (st.putToken x.index y).tokens := mem_map_replaced (List.mem_of_find?_eq_some hx) rfl y
  have hquiet := State.effects_quiet (s.setStream k (st.putToken x.index y)) es
  have hstreams := State.effects_streams (s.setStream k (st.putToken x.index y)) es
  have hrest : (detokReady k s).streams = (s.setStream k (st.putToken x.index y)).streams ∧
      { (detokReady k s).quiet with eng := s.eng } = (s.setStream k (st.putToken x.index y)).quiet := by
    rcases hcases with hc | ⟨p, items, hc⟩
    · rw [hc, hquiet]
      exact ⟨hstreams, rfl⟩
    · rw [hc, State.pushItems_quiet, hquiet]
      exact ⟨(State.pushItems_rest ..).1.trans hstreams, rfl⟩
  refine ⟨_, _, rfl, congrArg (fun v : Streams => v.table) hrest.1, ⟨y, hmem, ?_, ?_⟩, rfl, ?_⟩
  · rw [← hy]
    rfl
  · rw [← hy]
    rfl
  · exact congrArg (fun v : State => { v with streams := s.streams }) hrest.2

/-! ### An item enters a position (R171, R172, R182) -/

section
variable {rest : List AwlItem}

theorem awlAdmit_waits (hq : (s.awlLane h l).queue = i :: rest)
    (hfull : 4 ≤ (s.awlLane h l).inPlace.length ∨ ∃ x ∈ (s.awlLane h l).inPlace, x.slot = i.slot ∧ x.position = i.position) :
    awlAdmit h l s = s := by
  unfold awlAdmit
  simp only [hq]
  exact if_pos (by simpa using hfull)

theorem awlAdmit_empty (hq : (s.awlLane h l).queue = []) : awlAdmit h l s = s := by
  unfold awlAdmit
  simp only [hq]

theorem awlAdmit_enters (hq : (s.awlLane h l).queue = i :: rest) (hfree : (s.awlLane h l).inPlace.length < 4)
    (hleft : ∀ x ∈ (s.awlLane h l).inPlace, ¬ (x.slot = i.slot ∧ x.position = i.position)) :
    awlAdmit h l s = (s.setAwlLane h l
      { queue := rest, inPlace := (s.awlLane h l).inPlace ++ [{ i with due := s.now + 4 * i.bytes.length }] }).raisePeak
        ⟨9, halfCode h, l.val⟩ i.ahead := by
  unfold awlAdmit
  simp only [hq]
  refine if_neg ?_
  rintro (hfull | hany)
  · exact Nat.not_lt.2 hfull hfree
  · obtain ⟨x, hx, hsame⟩ := List.any_eq_true.1 hany
    exact hleft x hx (by simpa using hsame)

@[simp] theorem State.raisePeak_counter (s : State) (c : CtrKey) (n : Nat) :
    ((s.raisePeak c n).counter c).count = max (s.counter c).count n := by
  unfold State.raisePeak
  rw [State.counter, aget_aset_self]
  rfl

theorem awlAdmitClause (hq : (s.awlLane h l).queue = i :: rest) (hfree : (s.awlLane h l).inPlace.length < 4)
    (hleft : ∀ x ∈ (s.awlLane h l).inPlace, ¬ (x.slot = i.slot ∧ x.position = i.position)) :
    ∃ t, exec (.awlItemAdmit h l) s = .next t ∧
      t.awlLane h l =
        { queue := rest, inPlace := (s.awlLane h l).inPlace ++ [{ i with due := s.now + 4 * i.bytes.length }] } ∧
      (t.counter ⟨9, halfCode h, l.val⟩).count = max (s.counter ⟨9, halfCode h, l.val⟩).count i.ahead ∧
      (∀ g m, (g, m) ≠ (h, l) → t.awlLane g m = s.awlLane g m) ∧ { t.quiet with eng := s.eng } = s.quiet :=
  ⟨_, congrArg Host.Outcome.next (awlAdmit_enters hq hfree hleft), State.setAwlLane_awlLane_same .., State.raisePeak_counter ..,
    fun _ _ hne => State.setAwlLane_awlLane_other hne .., rfl⟩

end

/-! ### An item leaves its position (R173, R175) -/

/-- A lane without an item that has left its position. -/
def State.withoutItem (s : State) (h : HalfId) (l : Fin 256) (i : AwlItem) : State :=
  s.setAwlLane h l { s.awlLane h l with inPlace := (s.awlLane h l).inPlace.erase i }

theorem Token.awlDone_spec (x : Token) (now : Nat) :
    (x.awlDone now).1.index = x.index ∧ (x.awlDone now).1.awlLeft = x.awlLeft - 1 ∧
      (x.awlLeft = 1 → (x.awlDone now).1.awlReady = (decide (now < x.cutoff) && x.inputs.isNone && !x.awl.any (fun r => r.late))) := by
  unfold Token.awlDone
  split
  · next hmore => exact ⟨rfl, rfl, fun hlast => absurd hlast hmore⟩
  · next hlast => exact ⟨rfl, by simp only [not_not.1 hlast], fun _ => rfl⟩

theorem Chunk.awlDone_spec (c : Chunk) (v : Option SegVerdict) (now : Nat) :
    (c.awlDone v now).1.ordinal = c.ordinal ∧ (c.awlDone v now).1.awlLeft = c.awlLeft - 1 ∧
      (c.awlLeft = 1 → (c.awlDone v now).1.awlReady = (!c.awl.any (fun r => r.late) &&
        (match v with
          | some v => v.inputs.isNone && decide (now < v.cutoff)
          | none => true))) := by
  unfold Chunk.awlDone
  split
  · next hmore => exact ⟨rfl, rfl, fun hlast => absurd hlast hmore⟩
  · next hlast =>
    refine ⟨rfl, by simp only [not_not.1 hlast], fun _ => ?_⟩
    cases v with
    | none => simp only [Bool.not_false, Bool.true_and, Bool.and_true]
    | some x =>
      have hbefore : (x.inputs.isNone && decide (now < x.cutoff)) = !(x.inputs.isSome || decide (x.cutoff ≤ now)) := by
        simp only [Bool.not_or, Option.not_isSome, ← decide_not, Nat.not_le]
      dsimp only
      rw [hbefore, Bool.and_comm]

theorem Stream.itemDone_token {x : Token} (hi : i.ingress = false)
    (hx : st.tokens.find? (fun t => decide (t.index = i.ordinal)) = some x) (now : Nat) :
    (st.itemDone i now).1 = st.putToken i.ordinal (x.awlDone now).1 := by
  unfold Stream.itemDone
  simp only [hi, hx]
  rfl

/-- A stream with a chunk replaced, by its ordinal. -/
def Stream.putChunk (st : Stream) (n : Nat) (y : Chunk) : Stream :=
  { st with inp := { st.inp with chunks := st.inp.chunks.map (fun x => if x.ordinal = n then y else x) } }

theorem Stream.itemDone_chunk {c : Chunk} (hi : i.ingress = true)
    (hc : st.inp.chunks.find? (fun c => decide (c.ordinal = i.ordinal)) = some c) (now : Nat) :
    (st.itemDone i now).1 =
      st.putChunk i.ordinal (c.awlDone (st.inp.verdicts.find? (fun v => decide (v.lastChunk = c.ordinal))) now).1 := by
  unfold Stream.itemDone
  simp only [hi, hc]
  rfl

section
variable (hf : (s.awlLane h l).first = some i)
include hf

theorem awlDone_streamGone (hst : aget i.slot s.streams.table = none) : awlDone h l s = s.withoutItem h l i := by
  unfold awlDone
  simp only [hf, State.setAwlLane_streams, hst]
  rfl

theorem awlDone_gives (hst : aget i.slot s.streams.table = some st) :
    ∃ es, awlDone h l s = ((s.withoutItem h l i).setStream i.slot (st.itemDone i s.now).1).effects es := by
  unfold awlDone
  simp only [hf, State.setAwlLane_streams, hst]
  exact ⟨_, rfl⟩

theorem awlDone_table (hst : aget i.slot s.streams.table = some st) :
    (awlDone h l s).streams.table = aset i.slot (st.itemDone i s.now).1 s.streams.table := by
  obtain ⟨es, hrun⟩ := awlDone_gives hf hst
  rw [hrun, State.effects_streams]
  rfl

theorem awlItemLeavesClause :
    ∃ t, exec (.awlItemDone h l) s = .next t ∧
      t.awlLane h l = { s.awlLane h l with inPlace := (s.awlLane h l).inPlace.erase i } ∧
      (∀ g m, (g, m) ≠ (h, l) → t.awlLane g m = s.awlLane g m) ∧
      (∀ k, k ≠ i.slot → aget k t.streams.table = aget k s.streams.table) ∧
      { t.quiet with eng := s.eng, streams := s.streams } = s.quiet := by
  refine ⟨_, rfl, ?_⟩
  cases hst : aget i.slot s.streams.table with
  | none =>
    rw [awlDone_streamGone hf hst]
    exact ⟨State.setAwlLane_awlLane_same .., fun _ _ hne => State.setAwlLane_awlLane_other hne .., fun _ _ => rfl, rfl⟩
  | some st =>
    refine ⟨?_, fun g m hne => ?_, fun k hk => by rw [awlDone_table hf hst, aget_aset_ne hk], ?_⟩
    all_goals
      obtain ⟨es, hrun⟩ := awlDone_gives hf hst
      rw [hrun]
    · rw [State.effects_awlLane, State.setStream_awlLane]
      exact State.setAwlLane_awlLane_same ..
    · rw [State.effects_awlLane, State.setStream_awlLane]
      exact State.setAwlLane_awlLane_other hne ..
    · rw [State.effects_quiet]
      rfl

theorem awlTokenResultClause {x : Token} (hst : aget i.slot s.streams.table = some st) (hi : i.ingress = false)
    (hx : st.tokens.find? (fun t => decide (t.index = i.ordinal)) = some x) :
    ∃ t st', exec (.awlItemDone h l) s = .next t ∧ t.streams.table = aset i.slot st' s.streams.table ∧
      { st' with tokens := st.tokens } = st ∧ st'.tokens.length = st.tokens.length ∧
      (∃ y ∈ st'.tokens, y.index = x.index ∧ y.awlLeft = x.awlLeft - 1 ∧
        (x.awlLeft = 1 →
          y.awlReady = (decide (s.now < x.cutoff) && x.inputs.isNone && !x.awl.any (fun r => r.late)))) := by
  have hn : x.index = i.ordinal := by simpa using List.find?_some hx
  have htable := awlDone_table hf hst
  rw [Stream.itemDone_token hi hx] at htable
  exact ⟨_, _, rfl, htable, rfl, List.length_map _, _, mem_map_replaced (List.mem_of_find?_eq_some hx) hn _, x.awlDone_spec s.now⟩

theorem awlChunkResultClause {c : Chunk} (hst : aget i.slot s.streams.table = some st) (hi : i.ingress = true)
    (hc : st.inp.chunks.find? (fun c => decide (c.ordinal = i.ordinal)) = some c) :
    ∃ t st', exec (.awlItemDone h l) s = .next t ∧ t.streams.table = aset i.slot st' s.streams.table ∧
      { st' with inp := st.inp } = st ∧ st'.inp.chunks.length = st.inp.chunks.length ∧
      (∃ y ∈ st'.inp.chunks, y.ordinal = c.ordinal ∧ y.awlLeft = c.awlLeft - 1 ∧
        (c.awlLeft = 1 → y.awlReady = (!c.awl.any (fun r => r.late) &&
          (match st.inp.verdicts.find? (fun v => decide (v.lastChunk = c.ordinal)) with
            | some v => v.inputs.isNone && decide (s.now < v.cutoff)
            | none => true)))) := by
  have hn : c.ordinal = i.ordinal := by simpa using List.find?_some hc
  have htable := awlDone_table hf hst
  rw [Stream.itemDone_chunk hi hc] at htable
  exact ⟨_, _, rfl, htable, rfl, List.length_map _, _, mem_map_replaced (List.mem_of_find?_eq_some hc) hn _,
    c.awlDone_spec _ s.now⟩

end

/-! ### Re-reads (R179, R183) -/

/-- A fold that appends one member for each one it meets keeps their number, and every member it appends is as each step
makes it. -/
theorem foldl_appends {α ρ : Type} {Q : α → Prop} {f : List α × ρ → α → List α × ρ}
    (hf : ∀ acc a, ∃ y, (f acc a).1 = acc.1 ++ [y] ∧ Q y) (m : List α) (r : ρ) :
    (m.foldl f ([], r)).1.length = m.length ∧ ∀ y ∈ (m.foldl f ([], r)).1, Q y := by
  suffices ∀ acc : List α × ρ, (∀ y ∈ acc.1, Q y) →
      (m.foldl f acc).1.length = acc.1.length + m.length ∧ ∀ y ∈ (m.foldl f acc).1, Q y by
    simpa using this ([], r) nofun
  induction m with
  | nil => exact fun acc hacc => ⟨rfl, hacc⟩
  | cons a m ih =>
    intro acc hacc
    obtain ⟨y, hy, hQ⟩ := hf acc a
    obtain ⟨hlen, hall⟩ := ih (f acc a) (by
      rw [hy]
      exact fun z hz => (List.mem_append.1 hz).elim (hacc z) fun hz => List.mem_singleton.1 hz ▸ hQ)
    refine ⟨?_, hall⟩
    rw [List.foldl_cons, hlen, hy, List.length_append, List.length_singleton, List.length_cons]
    omega

/-- Position n's result is late, where there is one. -/
def LateAt (n : Nat) (rs : List AwlResult) : Prop := n < rs.length → (rs[n]?).map (fun r => r.late) = some true

theorem lateAt_set (n : Nat) (rs : List AwlResult) (x : AwlResult) : LateAt n (rs.set n { x with late := true }) := by
  intro hn
  rw [List.getElem?_set_self (by simpa using hn)]
  rfl

theorem Stream.failItem_token {tables : Nat → Option (AwlTables × Automaton)} (hi : i.ingress = false) :
    { st.failItem i tables with tokens := st.tokens, workAwl := st.workAwl } = st ∧
      (st.failItem i tables).tokens.length = st.tokens.length ∧
      ∀ y ∈ (st.failItem i tables).tokens, y.index = i.ordinal → LateAt i.position y.awl := by
  unfold Stream.failItem
  simp only [hi, Bool.false_eq_true, if_false, true_and]
  refine foldl_appends (fun acc a => ?_) _ _
  split
  · exact ⟨_, rfl, fun _ => lateAt_set _ _ _⟩
  · next hne => exact ⟨_, rfl, fun he => absurd he hne⟩

theorem Stream.failItem_chunk {tables : Nat → Option (AwlTables × Automaton)} (hi : i.ingress = true) :
    { st.failItem i tables with inp := st.inp, workAwl := st.workAwl } = st ∧
      (st.failItem i tables).inp.chunks.length = st.inp.chunks.length ∧
      ∀ y ∈ (st.failItem i tables).inp.chunks, y.ordinal = i.ordinal → LateAt i.position y.awl := by
  unfold Stream.failItem
  simp only [hi, if_true, true_and]
  refine foldl_appends (fun acc a => ?_) _ _
  split
  · exact ⟨_, rfl, fun _ => lateAt_set _ _ _⟩
  · next hne =>
    split
    · exact ⟨_, rfl, fun he => absurd he hne⟩
    · exact ⟨_, rfl, fun he => absurd he hne⟩

theorem Stream.failStop_token (st : Stream) (c : StopCtx) (i : AwlItem) :
    { st.failStop c i with tokens := st.tokens, work := st.work } = st ∧
      (st.failStop c i).tokens.length = st.tokens.length ∧
      ∀ y ∈ (st.failStop c i).tokens, y.index = i.ordinal → ∀ r ∈ y.awl, r.late = true := by
  unfold Stream.failStop
  refine ⟨rfl, foldl_appends (fun acc a => ?_) _ _⟩
  split
  · refine ⟨_, rfl, fun _ r hr => ?_⟩
    obtain ⟨x, -, hx⟩ := List.mem_map.1 hr
    rw [← hx]
  · next hne =>
    split
    · exact ⟨_, rfl, fun he => absurd he hne⟩
    · exact ⟨_, rfl, fun he => absurd he hne⟩

/-- A stream whose item fails both reads (R179). -/
def Stream.failRead (st : Stream) (i : AwlItem) (c : StopCtx) (tables : Nat → Option (AwlTables × Automaton)) : Stream :=
  if i.position = 8 then st.failStop c i else st.failItem i tables

theorem Stream.failRead_spec {c : StopCtx} {tables : Nat → Option (AwlTables × Automaton)} {x : Stream}
    (hx : st.failRead i c tables = x) :
    x.tokens.length = st.tokens.length ∧ x.inp.chunks.length = st.inp.chunks.length ∧
      (i.position ≠ 8 → i.ingress = false → { x with tokens := st.tokens, workAwl := st.workAwl } = st ∧
        ∀ y ∈ x.tokens, y.index = i.ordinal → LateAt i.position y.awl) ∧
      (i.position ≠ 8 → i.ingress = true → { x with inp := st.inp, workAwl := st.workAwl } = st ∧
        ∀ y ∈ x.inp.chunks, y.ordinal = i.ordinal → LateAt i.position y.awl) ∧
      (i.position = 8 → { x with tokens := st.tokens, work := st.work } = st ∧
        ∀ y ∈ x.tokens, y.index = i.ordinal → ∀ r ∈ y.awl, r.late = true) := by
  unfold Stream.failRead at hx
  split at hx
  · next h8 =>
    obtain ⟨hrest, hlen, hlate⟩ := st.failStop_token c i
    rw [hx] at hrest hlen hlate
    have hchunks := congrArg (fun v : Stream => v.inp.chunks.length) hrest
    exact ⟨hlen, hchunks, fun hn => absurd h8 hn, fun hn => absurd h8 hn, fun _ => ⟨hrest, hlate⟩⟩
  · next h8 =>
    cases hi : i.ingress with
    | false =>
      obtain ⟨hrest, hlen, hlate⟩ := Stream.failItem_token (st := st) (tables := tables) hi
      rw [hx] at hrest hlen hlate
      have hchunks := congrArg (fun v : Stream => v.inp.chunks.length) hrest
      exact ⟨hlen, hchunks, fun _ _ => ⟨hrest, hlate⟩, nofun, fun hn => absurd hn h8⟩
    | true =>
      obtain ⟨hrest, hlen, hlate⟩ := Stream.failItem_chunk (st := st) (tables := tables) hi
      rw [hx] at hrest hlen hlate
      have htokens := congrArg (fun v : Stream => v.tokens.length) hrest
      exact ⟨htokens, hlen, nofun, fun _ _ => ⟨hrest, hlate⟩, fun hn => absurd hn h8⟩

/-- The read of the other half's copy, where it can be reached: counted and noticed, and the item held longer. -/
def State.readOther (s : State) (h : HalfId) (l : Fin 256) (i : AwlItem) (handle : BitVec 48) : State :=
  if s.otherCopy then
    (({ s with freeUse := s.freeUse + 1 }).setAwlLane h l ((s.awlLane h l).delay i)).effects [.count ⟨0x08, 0, 4⟩ 1,
      .notice 6 (leBytes 1 (halfCode h) ++ leBytes 1 l.val ++ handleBytes handle ++
        leBytes 2 ((Config.freeWord s.freeUse).toNat % 65536))]
  else s

section
variable {handle : BitVec 48}

theorem State.readOther_quiet : { (s.readOther h l i handle).quiet with freeUse := s.freeUse, eng := s.eng } = s.quiet := by
  unfold State.readOther
  split
  · rw [State.effects_quiet]
    rfl
  · rfl

theorem State.readOther_streams : (s.readOther h l i handle).streams = s.streams := by
  have hquiet := congrArg State.streams (State.readOther_quiet (s := s) (h := h) (l := l) (i := i) (handle := handle))
  exact hquiet

theorem State.readOther_latched (hc : s.otherCopy = true) : (s.readOther h l i handle).latched 6 = true := by
  unfold State.readOther
  rw [if_pos hc]
  exact State.effects_raises _ _ 6 _ (List.mem_cons_of_mem _ List.mem_cons_self)

theorem State.readOther_lane (hc : s.otherCopy = true) : (s.readOther h l i handle).awlLane h l = (s.awlLane h l).delay i := by
  unfold State.readOther
  rw [if_pos hc, State.effects_awlLane]
  exact State.setAwlLane_awlLane_same ..

end

section
variable {good : Bool} (hf : (s.awlLane h l).first = some i) (hst : aget i.slot s.streams.table = some st)
include hf hst

theorem awlReread_good (hg : good = true) (hc : s.otherCopy = true) : awlReread h l good s = s.readOther h l i st.handle := by
  unfold awlReread
  simp only [hf, hst]
  exact if_pos (by rw [hg, hc]; rfl)

theorem awlReread_fails (hg : good = false ∨ s.otherCopy = false) :
    ∃ c tables, awlReread h l good s = (s.readOther h l i st.handle).setStream i.slot (st.failRead i c tables) := by
  have hnot : ¬ (good && s.otherCopy) = true := by
    rcases hg with hg | hg <;> simp [hg]
  unfold awlReread Stream.failRead
  simp only [hf, hst]
  rw [if_neg hnot]
  exact ⟨_, _, (apply_ite (State.setStream (s.readOther h l i st.handle) i.slot) ..).symm⟩

theorem rereadGoodClause (hg : good = true) (hc : s.otherCopy = true) :
    ∃ t, exec (.awlReread h l good) s = .next t ∧ { t.quiet with freeUse := s.freeUse, eng := s.eng } = s.quiet ∧
      t.latched 6 = true ∧ (t.awlLane h l).queue = (s.awlLane h l).queue ∧
      (t.awlLane h l).inPlace =
        (s.awlLane h l).inPlace.map (fun x => if x = i then { x with due := x.due + 96 } else x) := by
  refine ⟨_, congrArg Host.Outcome.next (awlReread_good hf hst hg hc), State.readOther_quiet, State.readOther_latched hc, ?_, ?_⟩
  all_goals
    rw [State.readOther_lane hc]
    rfl

theorem rereadFailsClause (hg : good = false ∨ s.otherCopy = false) :
    ∃ t st', exec (.awlReread h l good) s = .next t ∧ t.streams.table = aset i.slot st' s.streams.table ∧
      (s.otherCopy = true → t.latched 6 = true) ∧
      { t.quiet with streams := s.streams, freeUse := s.freeUse, eng := s.eng } = s.quiet ∧
      st'.tokens.length = st.tokens.length ∧ st'.inp.chunks.length = st.inp.chunks.length ∧
      (i.position ≠ 8 → i.ingress = false → { st' with tokens := st.tokens, workAwl := st.workAwl } = st ∧
        ∀ y ∈ st'.tokens, y.index = i.ordinal → LateAt i.position y.awl) ∧
      (i.position ≠ 8 → i.ingress = true → { st' with inp := st.inp, workAwl := st.workAwl } = st ∧
        ∀ y ∈ st'.inp.chunks, y.ordinal = i.ordinal → LateAt i.position y.awl) ∧
      (i.position = 8 → { st' with tokens := st.tokens, work := st.work } = st ∧
        ∀ y ∈ st'.tokens, y.index = i.ordinal → ∀ r ∈ y.awl, r.late = true) := by
  obtain ⟨c, tables, hrun⟩ := awlReread_fails hf hst hg
  refine ⟨_, st.failRead i c tables, congrArg Host.Outcome.next hrun, ?_, State.readOther_latched, ?_, Stream.failRead_spec rfl⟩
  · exact congrArg (fun v : Streams => aset i.slot _ v.table) State.readOther_streams
  · exact congrArg (fun v : State => { v with streams := s.streams }) (State.readOther_quiet (handle := st.handle))

end

end Sys2Proof.Machine
end

section
open Sys2Proof.Machine

/-- Settles O43: the detokenizer's contribution, an item's way through its lane to its token or chunk, and re-reads. -/
theorem awlItems : Obligations.AwlItems := by
  unfold Obligations.AwlItems
  intro s
  refine ⟨fun k st x hst hx => detokenizerClause hst hx, fun h l i rest hq => ⟨awlAdmitClause hq, fun hfull => ?_⟩,
    fun h l hq => ?_, fun h l i hf => ⟨awlItemLeavesClause hf, fun st x hst hi hx => awlTokenResultClause hf hst hi hx,
      fun st c hst hi hc => awlChunkResultClause hf hst hi hc⟩,
    fun h l good i st hf hst => ⟨rereadGoodClause hf hst, rereadFailsClause hf hst⟩⟩
  · exact congrArg Host.Outcome.next (awlAdmit_waits hq hfull)
  · exact congrArg Host.Outcome.next (awlAdmit_empty hq)

end

section
/-! The armature: the admission of a sample, the delivery of its result, and re-reads (R184, R186, R191, R193, R204 to R206, R210). -/

namespace Sys2Proof.Machine

variable {s : State} {k : SlotId} {st : Stream} {p : Policy} {b : ArmatureTables} {a : Admission} {x : Token} {c : Chunk}

/-! ### The evaluation of a sample (R186, R187, R206) -/

theorem setEnsembles_length (b : ArmatureTables) (set : Nat) : (setEnsembles b set).length = 16 := by
  rw [setEnsembles, List.length_map, List.length_range]

/-- A fold that appends one entry for each member gives as many entries as there are members. -/
theorem foldl_length {α β ρ : Type} {f : List β × ρ → α → List β × ρ} (hf : ∀ acc x, (f acc x).1.length = acc.1.length + 1)
    (l : List α) (acc : List β × ρ) : (l.foldl f acc).1.length = acc.1.length + l.length := by
  induction l generalizing acc with
  | nil => rfl
  | cons x l ih => rw [List.foldl_cons, ih, hf, List.length_cons, Nat.add_assoc, Nat.add_comm 1]

/-- A result record has an entry for each position of the set (R204). -/
theorem sampleResults_length (b : ArmatureTables) (set : Nat) (f : Front) (late restarted : Bool) :
    (sampleResults b set f late restarted).1.length = 16 := by
  unfold sampleResults
  rw [foldl_length, setEnsembles_length, List.length_nil]
  intro acc o
  split
  · exact List.length_append
  · split
    · exact List.length_append
    · exact List.length_append

/-- The first sample under a policy changes the working accumulators and the layout they have, not the committed ones (R206). -/
theorem Stream.armCut_rest (st : Stream) (p : Policy) :
    { (st.armCut p).1 with workAcc := st.workAcc, armEpoch := st.armEpoch, layoutId := st.layoutId } = st := by
  unfold Stream.armCut
  split
  · rfl
  · split
    · rfl
    · rfl

theorem Stream.sample_rest (st : Stream) (p : Policy) (b : ArmatureTables) (input : List (Nat × Word) → SampleInput) :
    { (st.sample p b input).stream with workAcc := st.workAcc, armEpoch := st.armEpoch, layoutId := st.layoutId } = st :=
  st.armCut_rest p

theorem Stream.sample_keeps (st : Stream) (p : Policy) (b : ArmatureTables) (input : List (Nat × Word) → SampleInput) :
    (st.sample p b input).stream.acc = st.acc ∧ (st.sample p b input).stream.tokens = st.tokens ∧
      (st.sample p b input).stream.inp = st.inp := by
  have hacc := congrArg Stream.acc (st.sample_rest p b input)
  have htokens := congrArg Stream.tokens (st.sample_rest p b input)
  have hinp := congrArg Stream.inp (st.sample_rest p b input)
  exact ⟨hacc, htokens, hinp⟩

theorem Stream.sample_length (st : Stream) (p : Policy) (b : ArmatureTables) (input : List (Nat × Word) → SampleInput) :
    (st.sample p b input).results.length = 16 := sampleResults_length ..

/-! ### Admission (R184, R191, R193, R206) -/

/-- A token with what its sample gave. -/
def Token.sampled (x : Token) (m : Sample) (epoch : Nat) : Token :=
  { x with arm := some m.results, armAcc := m.writes, armBy := epoch, featureNan := m.error }

/-- A chunk with what its sample gave. -/
def Chunk.sampled (c : Chunk) (m : Sample) (epoch : Nat) : Chunk :=
  { c with arm := some m.results, armAcc := m.writes, armBy := epoch }

/-- The stream after the sample of its token n. -/
def Sample.onToken (m : Sample) (n epoch : Nat) : Stream :=
  { m.stream with tokens := m.stream.tokens.map (fun y => if y.index = n then y.sampled m epoch else y) }

/-- The stream after the sample of its chunk n. -/
def Sample.onChunk (m : Sample) (n epoch : Nat) : Stream :=
  { m.stream with inp := { m.stream.inp with
      chunks := m.stream.inp.chunks.map (fun y => if y.ordinal = n then y.sampled m epoch else y) } }

theorem State.sampleTables (hp : s.policyFor st a.tick = some p) (hb : p.tables.armature = some b) :
    (s.policyFor st a.tick).bind (fun p => p.tables.armature.map (fun t => (p, t))) = some (p, b) := by
  rw [hp, Option.bind_some, hb, Option.map_some]

section
variable (ha : s.nextAdmission = some a) (hst : aget a.slot s.streams.table = some st)
include ha hst

theorem armAdmit_skips (hp : ∀ p, s.policyFor st a.tick = some p → p.tables.armature = none) : armAdmit s = s.skipSample a := by
  have hnone : (s.policyFor st a.tick).bind (fun p => p.tables.armature.map (fun t => (p, t))) = none := by
    rw [Option.bind_eq_none_iff]
    exact fun p h => by rw [hp p h]; rfl
  unfold armAdmit
  simp only [ha, hst, hnone]

theorem emptySampleClause (hp : ∀ p, s.policyFor st a.tick = some p → p.tables.armature = none) :
    ∃ t st', exec .armatureSampleAdmit s = .next t ∧ s.OnlyStream t a.slot st' ∧
      { st' with tokens := st.tokens, inp := st.inp } = st ∧
      (a.ingress = false → ∀ y ∈ st'.tokens, y.index = a.ordinal → y.arm = some [] ∧ y.armDone = some true) ∧
      (a.ingress = true → ∀ y ∈ st'.inp.chunks, y.ordinal = a.ordinal → y.arm = some [] ∧ y.armDone = some true) := by
  have hrun := armAdmit_skips ha hst hp
  simp only [State.skipSample, hst] at hrun
  refine ⟨_, _, congrArg Host.Outcome.next hrun, s.onlyStream_setStream .., rfl, fun hi y hy hn => ?_, fun hi y hy hn => ?_⟩
  all_goals
    obtain ⟨z, -, rfl⟩ := List.mem_map.1 hy
    rw [hi] at hn ⊢
    split at hn
    · next h => exact ⟨by rw [if_pos h], by rw [if_pos h]⟩
    · next h => exact absurd (by simpa using hn) h

section
variable (hp : s.policyFor st a.tick = some p) (hb : p.tables.armature = some b)
include hp hb

theorem armAdmit_waits (ho : s.commandOwed st.handle.toNat a.tick = true) : armAdmit s = s := by
  have htables := State.sampleTables hp hb
  unfold armAdmit
  simp only [ha, hst, htables, ho]

variable (ho : s.commandOwed st.handle.toNat a.tick = false)
include ho

theorem armAdmit_token (hi : a.ingress = false) (hx : st.tokens.find? (fun t => decide (t.index = a.ordinal)) = some x) :
    let m := st.sample p b (s.tokenInput st p x a.tick)
    armAdmit s = (s.setStream a.slot (m.onToken a.ordinal p.epoch)).effects (m.effects st.handle x.index) := by
  have htables := State.sampleTables hp hb
  unfold armAdmit
  simp only [ha, hst, htables, ho, hi, hx]
  rfl

theorem armAdmit_chunk (hi : a.ingress = true) (hc : st.inp.chunks.find? (fun c => decide (c.ordinal = a.ordinal)) = some c) :
    let m := st.sample p b (s.chunkInput st p c)
    armAdmit s = (({ s with freeUse := s.freeUse + 1 }).setStream a.slot (m.onChunk a.ordinal p.epoch)).effects
      (m.effects st.handle st.lastIndex) := by
  have htables := State.sampleTables hp hb
  unfold armAdmit
  simp only [ha, hst, htables, ho, hi, hc]
  rfl

theorem tokenSampleClause (hi : a.ingress = false)
    (hx : st.tokens.find? (fun t => decide (t.index = a.ordinal)) = some x) :
    ∃ t st', exec .armatureSampleAdmit s = .next t ∧ s.OnlyStream t a.slot st' ∧ st'.acc = st.acc ∧
      st'.tokens.length = st.tokens.length ∧
      (∃ y ∈ st'.tokens, y.index = x.index ∧ y.armBy = p.epoch ∧ ∃ r, y.arm = some r ∧ r.length = 16) ∧
      { st' with tokens := st.tokens, workAcc := st.workAcc, armEpoch := st.armEpoch, layoutId := st.layoutId } = st := by
  have hrun := armAdmit_token ha hst hp hb ho hi hx
  have hlen := st.sample_length p b (s.tokenInput st p x a.tick)
  have hrest := st.sample_rest p b (s.tokenInput st p x a.tick)
  obtain ⟨hacc, htokens, -⟩ := st.sample_keeps p b (s.tokenInput st p x a.tick)
  dsimp only at hrun
  generalize st.sample p b (s.tokenInput st p x a.tick) = m at hrun hlen hrest hacc htokens
  have hn : x.index = a.ordinal := by simpa using List.find?_some hx
  refine ⟨_, _, congrArg Host.Outcome.next hrun, State.onlyStream_effects _ (s.onlyStream_setStream ..),
    hacc, ?_, ⟨x.sampled m p.epoch, ?_, rfl, rfl, _, rfl, hlen⟩,
    congrArg (fun v : Stream => { v with tokens := st.tokens }) hrest⟩
  · exact (List.length_map _).trans (congrArg List.length htokens)
  · exact List.mem_map.2 ⟨x, htokens ▸ List.mem_of_find?_eq_some hx, if_pos hn⟩

theorem chunkSampleClause (hi : a.ingress = true)
    (hc : st.inp.chunks.find? (fun c => decide (c.ordinal = a.ordinal)) = some c) :
    ∃ t st', exec .armatureSampleAdmit s = .next t ∧ s.OnlyStream t a.slot st' ∧ st'.acc = st.acc ∧
      (∃ y ∈ st'.inp.chunks, y.ordinal = c.ordinal ∧ y.armBy = p.epoch ∧ ∃ r, y.arm = some r ∧ r.length = 16) ∧
      { st' with inp := st.inp, workAcc := st.workAcc, armEpoch := st.armEpoch, layoutId := st.layoutId } = st := by
  have hrun := armAdmit_chunk ha hst hp hb ho hi hc
  have hlen := st.sample_length p b (s.chunkInput st p c)
  have hrest := st.sample_rest p b (s.chunkInput st p c)
  obtain ⟨hacc, -, hinp⟩ := st.sample_keeps p b (s.chunkInput st p c)
  dsimp only at hrun
  generalize st.sample p b (s.chunkInput st p c) = m at hrun hlen hrest hacc hinp
  have hn : c.ordinal = a.ordinal := by simpa using List.find?_some hc
  refine ⟨_, _, congrArg Host.Outcome.next hrun, State.onlyStream_effects _ ⟨rfl, rfl, .inl rfl⟩,
    hacc, ⟨c.sampled m p.epoch, ?_, rfl, rfl, _, rfl, hlen⟩,
    congrArg (fun v : Stream => { v with inp := st.inp }) hrest⟩
  exact List.mem_map.2 ⟨c, hinp ▸ List.mem_of_find?_eq_some hc, if_pos hn⟩

end

end

/-! ### The stream's oldest sample that has not delivered (R204, R205) -/

/-- A token whose sample is delivered, or has a node read again. -/
def Token.onSample (x : Token) (o : Option Reread) (delivered : Option Bool) : Token :=
  { x with arm := x.arm.map (Reread.results o x.armBy), armReread := Reread.positions o x.armBy x.armReread, armDone := delivered }

/-- A chunk whose sample is delivered, or has a node read again. -/
def Chunk.onSample (c : Chunk) (o : Option Reread) (delivered : Option Bool) : Chunk :=
  { c with arm := c.arm.map (Reread.results o c.armBy), armReread := Reread.positions o c.armBy c.armReread, armDone := delivered }

/-- Whether the result of a token's sample is in time: before the token's cutoff. -/
def Token.armInTime (x : Token) (now : Nat) : Bool := decide (now < x.cutoff) && x.inputs.isNone

/-- Whether the result of a chunk's sample is in time: before the cutoff of the segment verdict that the chunk ends, if it ends one. -/
def Stream.armInTime (st : Stream) (c : Chunk) (now : Nat) : Bool :=
  match st.inp.verdicts.find? (fun v => decide (v.lastChunk = c.ordinal)) with
  | some v => v.inputs.isNone && decide (now < v.cutoff)
  | none => true

theorem Stream.onSample_token (he : st.req.egress = true) (hx : st.tokens.find? (fun t => t.arm.isSome && t.armDone.isNone) = some x)
    (now : Nat) (o : Option Reread) (done : Bool) :
    st.onSample now o done = (st.putToken x.index (x.onSample o (if done then some (x.armInTime now) else none)),
      some (x.armInTime now, x.armBy, x.index)) := by
  unfold Stream.onSample
  simp only [he, if_true, hx]
  rfl

theorem Stream.onSample_chunk (he : st.req.egress = false)
    (hc : st.inp.chunks.find? (fun c => c.arm.isSome && c.armDone.isNone) = some c) (now : Nat) (o : Option Reread) (done : Bool) :
    st.onSample now o done = (st.putChunk c.ordinal (c.onSample o (if done then some (st.armInTime c now) else none)),
      some (st.armInTime c now, c.armBy, c.firstIndex)) := by
  unfold Stream.onSample
  simp only [he, Bool.false_eq_true, if_false, hc]
  rfl

theorem Stream.mem_putToken (hx : x ∈ st.tokens) (y : Token) : y ∈ (st.putToken x.index y).tokens :=
  mem_map_replaced hx rfl y

theorem Stream.mem_putChunk (hc : c ∈ st.inp.chunks) (y : Chunk) : y ∈ (st.putChunk c.ordinal y).inp.chunks :=
  mem_map_replaced hc rfl y

/-! ### Delivery (R204, R205) -/

section
variable (hst : aget k s.streams.table = some st)
include hst

theorem armResult_ended (he : st.ended = true) : armResult k s = s := by
  unfold armResult
  simp only [hst]
  exact if_pos he

/-- The delivery changes the stream's sample alone. -/
theorem armResult_delivers {st' : Stream} {ok : Bool} {r : Nat × Nat} (he : st.ended = false)
    (h : st.onSample s.now none true = (st', some (ok, r))) :
    ∃ t, exec (.armatureResult k) s = .next t ∧ s.OnlyStream t k st' := by
  have hrun : armResult k s = (s.setStream k st').effects ([.count ⟨0x0A, 0, 0⟩ 1] ++ (if ok then [] else lateDiscard 0x12)) := by
    unfold armResult
    simp only [hst, he, Bool.false_eq_true, if_false, h]
  exact ⟨_, congrArg Host.Outcome.next hrun, State.onlyStream_effects _ (s.onlyStream_setStream ..)⟩

theorem tokenResultClause (hg : st.req.egress = true)
    (hx : st.tokens.find? (fun t => t.arm.isSome && t.armDone.isNone) = some x) (he : st.ended = false) :
    ∃ t st', exec (.armatureResult k) s = .next t ∧ s.OnlyStream t k st' ∧ { st' with tokens := st.tokens } = st ∧
      (∃ y ∈ st'.tokens, y.index = x.index ∧ y.arm = x.arm ∧
        y.armDone = some (decide (s.now < x.cutoff) && x.inputs.isNone)) := by
  obtain ⟨t, hrun, honly⟩ := armResult_delivers hst he (Stream.onSample_token hg hx ..)
  exact ⟨t, _, hrun, honly, rfl, _, Stream.mem_putToken (List.mem_of_find?_eq_some hx) _, rfl, Option.map_id', rfl⟩

theorem chunkResultClause (hg : st.req.egress = false)
    (hc : st.inp.chunks.find? (fun c => c.arm.isSome && c.armDone.isNone) = some c) (he : st.ended = false) :
    ∃ t st', exec (.armatureResult k) s = .next t ∧ s.OnlyStream t k st' ∧ { st' with inp := st.inp } = st ∧
      (∃ y ∈ st'.inp.chunks, y.ordinal = c.ordinal ∧ y.arm = c.arm ∧ y.armDone = some (st.armInTime c s.now)) := by
  obtain ⟨t, hrun, honly⟩ := armResult_delivers hst he (Stream.onSample_chunk hg hc ..)
  exact ⟨t, _, hrun, honly, rfl, _, Stream.mem_putChunk (List.mem_of_find?_eq_some hc) _, rfl, Option.map_id', rfl⟩

end

/-! ### Re-reads (R205, R210) -/

/-- What a re-read of set position e does to a sample of a stream. -/
def State.rereadAt (s : State) (st : Stream) (e : Nat) (good : Bool) : Reread :=
  { position := e, late := s.armDefault st e, good := fun epoch => good && s.armCopy epoch }

section
variable {e : Nat} {good : Bool} {epoch n : Nat} {d : Ensemble} {r : List ArmResult}

theorem State.rereadAt_mends (hg : good = true) (hcopy : s.armCopy epoch = true) :
    Reread.results (some (s.rereadAt st e good)) epoch r = r ∧
      ∀ l, Reread.positions (some (s.rereadAt st e good)) epoch l = l ++ [e] := by
  have hgood : (s.rereadAt st e good).good epoch = true := Bool.and_eq_true_iff.2 ⟨hg, hcopy⟩
  exact ⟨if_pos hgood, fun _ => if_pos hgood⟩

/-- A word that neither copy gives leaves the ensemble its late default. -/
theorem State.rereadAt_fails (hp : s.policyByEpoch epoch = some p) (he : e < r.length)
    (hd : p.tables.armature.bind (fun t => ((setEnsembles t st.armSet)[e]?).getD none) = some (n, d))
    (hg : good = false ∨ s.armCopy epoch = false) :
    (Reread.results (some (s.rereadAt st e good)) epoch r)[e]? = some (armLate d n (p.failOpenFor 0x12 st.req.egress)) := by
  have hgood : (s.rereadAt st e good).good epoch = false := Bool.and_eq_false_iff.2 hg
  have hlate : (s.rereadAt st e good).late epoch = some (armLate d n (p.failOpenFor 0x12 st.req.egress)) := by
    simp only [State.rereadAt, State.armDefault, hp, Option.bind_some, hd, Option.map_some]
  simp only [Reread.results, hgood, Bool.false_eq_true, if_false, hlate]
  exact List.getElem?_set_self he

/-- What a re-read leaves in a sample's record and among the positions read again. -/
theorem State.rereadAt_spec {egress : Bool} (hg : st.req.egress = egress) (hp : s.policyByEpoch epoch = some p)
    {arm : Option (List ArmResult)} (hr : arm = some r) (he : e < r.length)
    (hd : p.tables.armature.bind (fun t => ((setEnsembles t st.armSet)[e]?).getD none) = some (n, d)) (l : List Nat) :
    let o := some (s.rereadAt st e good)
    (good = true → s.armCopy epoch = true →
      arm.map (Reread.results o epoch) = some r ∧ Reread.positions o epoch l = l ++ [e]) ∧
    (good = false ∨ s.armCopy epoch = false → ∃ q, arm.map (Reread.results o epoch) = some q ∧
      q[e]? = some { value := if p.failOpenFor 0x12 egress then d.neutral else d.worst, late := true, ensemble := n }) := by
  subst hg hr
  refine ⟨fun hgood hcopy => ?_, fun hbad => ⟨_, rfl, State.rereadAt_fails hp he hd hbad⟩⟩
  obtain ⟨hresults, hpositions⟩ := State.rereadAt_mends hgood hcopy
  exact ⟨congrArg some hresults, hpositions l⟩

end

section
variable {e : Fin 16} {good : Bool} {n : Nat} {d : Ensemble} {r : List ArmResult} (hst : aget k s.streams.table = some st)
include hst

/-- A re-read changes the stream's sample alone, and where the other half holds a copy it is noticed. -/
theorem armReread_reads {st' : Stream} {ok : Bool} {epoch index : Nat}
    (h : st.onSample s.now (some (s.rereadAt st e.val good)) false = (st', some (ok, epoch, index))) :
    ∃ t, exec (.armatureReread k e good) s = .next t ∧ s.OnlyStream t k st' ∧ (s.armCopy epoch = true → t.latched 7 = true) := by
  have hrun : armReread k e good s =
      (s.setStream k st').effects (if s.armCopy epoch then armatureEvent 5 st.handle index else []) := by
    unfold State.rereadAt at h
    unfold armReread
    simp only [hst, h]
  refine ⟨_, congrArg Host.Outcome.next hrun, State.onlyStream_effects _ (s.onlyStream_setStream ..), fun hcopy => ?_⟩
  rw [if_pos hcopy]
  exact State.effects_raises _ _ 7 _ (List.mem_cons_of_mem _ List.mem_cons_self)

theorem tokenRereadClause (hg : st.req.egress = true)
    (hx : st.tokens.find? (fun t => t.arm.isSome && t.armDone.isNone) = some x)
    (hp : s.policyByEpoch x.armBy = some p) (hr : x.arm = some r) (he : e.val < r.length)
    (hd : p.tables.armature.bind (fun t => ((setEnsembles t st.armSet)[e.val]?).getD none) = some (n, d)) :
    ∃ t st' y, exec (.armatureReread k e good) s = .next t ∧ s.OnlyStream t k st' ∧ { st' with tokens := st.tokens } = st ∧
      y ∈ st'.tokens ∧ y.index = x.index ∧ y.armDone = none ∧ (s.armCopy x.armBy = true → t.latched 7 = true) ∧
      (good = true → s.armCopy x.armBy = true → y.arm = some r ∧ y.armReread = x.armReread ++ [e.val]) ∧
      (good = false ∨ s.armCopy x.armBy = false → ∃ q, y.arm = some q ∧ q[e.val]? = some
        { value := if p.failOpenFor 0x12 true then d.neutral else d.worst, late := true, ensemble := n }) := by
  obtain ⟨t, hrun, honly, hlatched⟩ := armReread_reads hst (Stream.onSample_token hg hx ..)
  exact ⟨t, _, _, hrun, honly, rfl, Stream.mem_putToken (List.mem_of_find?_eq_some hx) _, rfl, rfl, hlatched,
    State.rereadAt_spec hg hp hr he hd _⟩

theorem chunkRereadClause (hg : st.req.egress = false)
    (hc : st.inp.chunks.find? (fun c => c.arm.isSome && c.armDone.isNone) = some c)
    (hp : s.policyByEpoch c.armBy = some p) (hr : c.arm = some r) (he : e.val < r.length)
    (hd : p.tables.armature.bind (fun t => ((setEnsembles t st.armSet)[e.val]?).getD none) = some (n, d)) :
    ∃ t st' y, exec (.armatureReread k e good) s = .next t ∧ s.OnlyStream t k st' ∧ { st' with inp := st.inp } = st ∧
      y ∈ st'.inp.chunks ∧ y.ordinal = c.ordinal ∧ y.armDone = none ∧ (s.armCopy c.armBy = true → t.latched 7 = true) ∧
      (good = true → s.armCopy c.armBy = true → y.arm = some r ∧ y.armReread = c.armReread ++ [e.val]) ∧
      (good = false ∨ s.armCopy c.armBy = false → ∃ q, y.arm = some q ∧ q[e.val]? = some
        { value := if p.failOpenFor 0x12 false then d.neutral else d.worst, late := true, ensemble := n }) := by
  obtain ⟨t, hrun, honly, hlatched⟩ := armReread_reads hst (Stream.onSample_chunk hg hc ..)
  exact ⟨t, _, _, hrun, honly, rfl, Stream.mem_putChunk (List.mem_of_find?_eq_some hc) _, rfl, rfl, hlatched,
    State.rereadAt_spec hg hp hr he hd _⟩

end

end Sys2Proof.Machine
end

section
open Sys2Proof.Machine

/-- Settles O44: a sample's admission with and without armature tables, its delivery in time or late, and re-reads. -/
theorem armatureSamples : Obligations.ArmatureSamples := by
  unfold Obligations.ArmatureSamples
  intro s
  refine ⟨fun a st ha hst => ⟨fun p b hp hb => ⟨fun ho => ?_, fun x ho hi hx => tokenSampleClause ha hst hp hb ho hi hx,
      fun c ho hi hc => chunkSampleClause ha hst hp hb ho hi hc⟩, emptySampleClause ha hst⟩,
    fun k st hst => ⟨fun he => ?_, fun x hg hx => ⟨tokenResultClause hst hg hx,
        fun e good p n b r hp hr he hd => tokenRereadClause hst hg hx hp hr he hd⟩,
      fun c hg hc => ⟨chunkResultClause hst hg hc,
        fun e good p n b r hp hr he hd => chunkRereadClause hst hg hc hp hr he hd⟩⟩⟩
  · exact congrArg Host.Outcome.next (armAdmit_waits ha hst hp hb ho)
  · exact congrArg Host.Outcome.next (armResult_ended hst he)

end

section
/-! SUPPORT. The vector operations of a cell at its pc (R217, R245, R246): lane by lane, a broadcast, and a sum. -/

namespace Sys2Proof.Machine

variable {s : State} {c : CellId} {r : Running} {int : Bool} {d a b e : CellReg}

/-- A lane-wise instruction of two sources at the pc. -/
theorem State.laneOp_at {op : Nat} (h : s.CellAt c r (encReg 4 op d a b 0#5 int)) (f : Word → Word → Word) :
    s.laneOp c op int d a b f = s.cellNext c r ((s.cell c).vput d
      (ofLanes fun i => f (laneOf ((s.cell c).vget a) i) (laneOf ((s.cell c).vget b) i))) (r.pc + 4) :=
  State.cellOp_go h (and_allBits _) rfl

theorem execCellVfma_at (h : s.CellAt c r (encReg 4 3 d a b e int)) :
    exec (.cellVfma c int d a b e) s = .next (s.cellNext c r ((s.cell c).vput d (ofLanes fun i =>
      if int then laneOf ((s.cell c).vget a) i * laneOf ((s.cell c).vget b) i + laneOf ((s.cell c).vget e) i
      else vFma (laneOf ((s.cell c).vget a) i) (laneOf ((s.cell c).vget b) i) (laneOf ((s.cell c).vget e) i))) (r.pc + 4)) :=
  congrArg Host.Outcome.next (State.cellOp_go h (and_allBits _) rfl)

theorem execCellVmax_at (h : s.CellAt c r (encReg 4 4 d a b 0#5 int)) :
    exec (.cellVmax c int d a b) s = .next (s.cellNext c r ((s.cell c).vput d (ofLanes fun i =>
      let p := laneOf ((s.cell c).vget a) i
      let q := laneOf ((s.cell c).vget b) i
      if int then (if p.toInt < q.toInt then q else p) else vMax p q)) (r.pc + 4)) := by
  refine congrArg Host.Outcome.next ((State.laneOp_at h _).trans ?_)
  simp only [BitVec.slt_iff_toInt_lt]

theorem execCellVmin_at (h : s.CellAt c r (encReg 4 5 d a b 0#5 int)) :
    exec (.cellVmin c int d a b) s = .next (s.cellNext c r ((s.cell c).vput d (ofLanes fun i =>
      let p := laneOf ((s.cell c).vget a) i
      let q := laneOf ((s.cell c).vget b) i
      if int then (if q.toInt < p.toInt then q else p) else vMin p q)) (r.pc + 4)) := by
  refine congrArg Host.Outcome.next ((State.laneOp_at h _).trans ?_)
  simp only [BitVec.slt_iff_toInt_lt]

theorem execCellVbcast_at {w : Word} (h : s.CellAt c r w) (hw : w &&& 0xFFFFC000#32 = encReg 4 6 d a 0#5 0#5 false) :
    exec (.cellVbcast c d a) s =
      .next (s.cellNext c r ((s.cell c).vput d (ofLanes fun _ => ((s.cell c).get a).setWidth 32)) (r.pc + 4)) :=
  congrArg Host.Outcome.next (State.cellOp_go h hw rfl)

theorem execCellVred_at {w : Word} (h : s.CellAt c r w) (hw : w &&& 0xFFFFC001#32 = encReg 4 7 d a 0#5 0#5 int) :
    exec (.cellVred c int d a) s = .next (s.cellNext c r ((s.cell c).put d
      ((vRed (if int then fun p q => p + q else vAdd) ((s.cell c).vget a)).setWidth 64)) (r.pc + 4)) :=
  congrArg Host.Outcome.next (State.cellOp_go h hw rfl)

/-- Settles O54, instruction by instruction. -/
theorem cellVectorOps : Obligations.CellVectorOps :=
  fun _ _ _ _ _ _ _ _ =>
    ⟨fun h => congrArg Host.Outcome.next (State.laneOp_at h _), fun h => congrArg Host.Outcome.next (State.laneOp_at h _),
      fun h => congrArg Host.Outcome.next (State.laneOp_at h _), execCellVfma_at, execCellVmax_at, execCellVmin_at,
      fun _ => execCellVbcast_at, fun _ => execCellVred_at⟩

end Sys2Proof.Machine
end

section
/-! SUPPORT. The matrix instructions of a cell at its pc (R217 to R226, R247). -/

namespace Sys2Proof.Machine

variable {s : State} {c : CellId} {r : Running} {w : Word} {t : TileId}

/-! ### What a step keeps of its tile (R220, R223) -/

/-- A property that every element's turn keeps holds after them all. -/
theorem Tile.each_keeps {α : Type} (g : Tile → α) {f : Tile → Nat → Nat → Tile} (hf : ∀ x i j, g (f x i j) = g x) (x : Tile) :
    g (x.each f) = g x := by
  unfold Tile.each
  generalize List.range 16 = l
  induction l generalizing x with
  | nil => rfl
  | cons n l ih => exact (ih _).trans (hf ..)

/-- The mode and the `acc_shift` of a tile, which `mclr` alone sets (R220). -/
def Tile.setting (x : Tile) : Nat × Int := (x.mode, x.shift)

theorem Tile.stepOrdered_setting (x : Tile) (va vb : BitVec 512) (asel bsel : Nat) (vec : Bool) :
    (x.stepOrdered va vb asel bsel vec).setting = x.setting := by
  unfold Tile.stepOrdered
  refine Tile.each_keeps Tile.setting (fun y i j => ?_) x
  simp only [Tile.setting]

theorem Tile.stepLong_setting (x : Tile) (fmt : Nat) (va vb : BitVec 512) (asel bsel : Nat) (vec : Bool) (g30 : DWord) :
    (x.stepLong fmt va vb asel bsel vec g30).setting = x.setting := by
  unfold Tile.stepLong
  refine Tile.each_keeps Tile.setting (fun y i j => ?_) x
  simp only [Tile.setting, Tile.addLong]

/-! ### Instructions at the pc (R247) -/

theorem execCellMclr_at {mode : BitVec 2} {shift : Byte}
    (h : s.CellAt c r (cellWord 6 0x0 (t.toNat * 2 ^ 22 + mode.toNat * 2 ^ 20 + shift.toNat * 2 ^ 12))) :
    exec (.cellMclr c t mode shift) s = .next ((s.effects (clearEffects ((s.cell c).tile t))).cellNext c r
      ((s.cell c).setTile t { mode := mode.toNat, shift := if mode = 1#2 then shift.toInt else 0 }) (r.pc + 4)) :=
  congrArg Host.Outcome.next (State.onCell_at h (and_allBits _) _)

/-- The word of an `mstep` (R247). -/
def mstepEnc (t : TileId) (va vb : CellReg) (asel : BitVec 4) (bsel : BitVec 2) (vec : Bool) (fmt : BitVec 3) : Word :=
  cellWord 6 0x1 (t.toNat * 2 ^ 22 + va.toNat * 2 ^ 17 + vb.toNat * 2 ^ 12 + asel.toNat * 2 ^ 8
    + bsel.toNat * 2 ^ 6 + (if vec then 32 else 0) + fmt.toNat * 4)

/-- The tile after a step to `z`: one step more, and poisoned by a poisoned operand (R222, R470). -/
def Cell.stepped (x : Cell) (t : TileId) (va vb : CellReg) (z : Tile) : Tile :=
  { z with steps := min 0xFFFF ((x.tile t).steps + 1),
           poison := (x.tile t).poison || x.vpoison.contains va || x.vpoison.contains vb }

theorem Cell.stepped_spec (x : Cell) (va vb : CellReg) {z : Tile} (hz : z.setting = (x.tile t).setting) :
    let y := x.stepped t va vb z
    y.elems = z.elems ∧ y.poison = ((x.tile t).poison || x.vpoison.contains va || x.vpoison.contains vb) ∧
      y.steps = min 0xFFFF ((x.tile t).steps + 1) ∧ y.mode = (x.tile t).mode ∧ y.shift = (x.tile t).shift := by
  obtain ⟨hmode, hshift⟩ := Prod.mk.inj hz
  exact ⟨rfl, rfl, rfl, hmode, hshift⟩

section Mstep

variable {va vb : CellReg} {asel : BitVec 4} {bsel : BitVec 2} {vec : Bool} {fmt : BitVec 3}
  (h : s.CellAt c r (mstepEnc t va vb asel bsel vec fmt))

include h

theorem execCellMstep_ordered (hm : ((s.cell c).tile t).mode = 2) (hf : fmt = 6#3) :
    exec (.cellMstep c t va vb asel bsel vec fmt) s = .next (s.cellNext c r ((s.cell c).setTile t ((s.cell c).stepped t va vb
      (((s.cell c).tile t).stepOrdered ((s.cell c).vget va) ((s.cell c).vget vb) asel.toNat bsel.toNat vec))) (r.pc + 4)) := by
  refine congrArg Host.Outcome.next (State.cellOp_go h (and_allBits _) ?_)
  simp only [hf, hm, if_true, ne_eq, not_true_eq_false, if_false]
  rfl

theorem execCellMstep_long (hm : ((s.cell c).tile t).mode = 1) (hf : fmt ≠ 6#3) :
    exec (.cellMstep c t va vb asel bsel vec fmt) s = .next (s.cellNext c r ((s.cell c).setTile t ((s.cell c).stepped t va vb
      (((s.cell c).tile t).stepLong fmt.toNat ((s.cell c).vget va) ((s.cell c).vget vb) asel.toNat bsel.toNat vec
        ((s.cell c).get 30#5)))) (r.pc + 4)) := by
  refine congrArg Host.Outcome.next (State.cellOp_go h (and_allBits _) ?_)
  simp only [hf, hm, if_false, ne_eq, not_true_eq_false]
  rfl

end Mstep

theorem execCellMrd_at {vd : CellReg} {target : BitVec 3} {sat clr : Bool} {row : BitVec 2} {rowmode : Bool} {q : BitVec 2}
    {shift : BitVec 7}
    (h : s.CellAt c r (cellWord 6 0x2 (t.toNat * 2 ^ 22 + vd.toNat * 2 ^ 17 + target.toNat * 2 ^ 14 + (if sat then 2 ^ 13 else 0)
      + (if clr then 2 ^ 12 else 0) + row.toNat * 2 ^ 10 + (if rowmode then 2 ^ 9 else 0) + q.toNat * 2 ^ 7 + shift.toNat))) :
    let x := s.cell c
    ∃ free : Nat → Byte, exec (.cellMrd c t vd target sat clr row rowmode q shift) s =
      .next (((if (x.tile t).poison then s.report c else s).effects (readOutEffects c t (x.tile t) (if rowmode then 4 else 16) s.now
          ++ (if clr then clearEffects (x.tile t) else []))).cellNext c r
        (let z := x.vput vd (readOut (x.tile t) (x.vget vd) target.toNat sat rowmode row.toNat q.toNat shift.toNat free)
         if clr then z.setTile t { mode := (x.tile t).mode, shift := (x.tile t).shift } else z) (r.pc + 4)) :=
  ⟨_, congrArg Host.Outcome.next (State.onCell_at h (and_allBits _) _)⟩

theorem execCellMstat_at {d : CellReg} (h : s.CellAt c r w)
    (hw : w &&& 0xFFFE0FFF#32 = cellWord 6 0x3 (t.toNat * 2 ^ 22 + d.toNat * 2 ^ 17)) :
    exec (.cellMstat c t d) s =
      .next (s.cellNext c r ((s.cell c).put d (((s.cell c).tile t).word.setWidth 64)) (r.pc + 4)) :=
  congrArg Host.Outcome.next (State.cellOp_go h hw rfl)

/-- Settles O55, instruction by instruction: a step ends with its tile's elements added to, its mode and shift kept. -/
theorem cellMatrixOps : Obligations.CellMatrixOps := by
  unfold Obligations.CellMatrixOps
  intro s c r t
  refine ⟨fun _ _ => execCellMclr_at, fun va vb asel bsel vec fmt h => ⟨fun hm hf => ?_, fun hm hf => ?_⟩,
    fun _ _ _ _ _ _ _ _ => execCellMrd_at, fun _ _ => execCellMstat_at⟩
  · exact ⟨_, execCellMstep_ordered h hm hf, Cell.stepped_spec _ va vb (Tile.stepOrdered_setting ..)⟩
  · exact ⟨_, execCellMstep_long h hm hf, Cell.stepped_spec _ va vb (Tile.stepLong_setting ..)⟩

end Sys2Proof.Machine
end

section
/-! SUPPORT. The events of a cell: NTC_CELL is raised, the counter counts once, and a program fault is such an event (R239, R257, R267,
R493). -/

namespace Sys2Proof.Machine

variable (s : State) (c : CellId)

/-! ### Cells under updates -/

@[simp] theorem State.setCell_cell_self (x : Cell) : (s.setCell c x).cell c = x := by
  simp [State.setCell, State.cell]

theorem State.setCell_cell_ne {c d : CellId} (h : d ≠ c) (x : Cell) : (s.setCell c x).cell d = s.cell d := by
  simp [State.setCell, State.cell, aget_aset_ne h]

theorem State.cellNext_grid (r : Running) (x : Cell) (pc : Nat) :
    (s.cellNext c r x pc).grid = { s.grid with cells := aset c { x with run := some { r with pc := pc } } s.grid.cells } := rfl

/-! ### Events -/

theorem State.cellEvent_latched (pos n now : Nat) (tile more : List Byte) :
    (s.effects (cellEvent pos n c now tile more)).latched 8 = true :=
  State.effects_raises _ _ 8 _ (List.mem_cons_of_mem _ List.mem_cons_self)

theorem State.cellEvent_counter (pos n now : Nat) (tile more : List Byte) :
    (s.effects (cellEvent pos n c now tile more)).counter ⟨0x0B, 0, pos⟩ = (s.counter ⟨0x0B, 0, pos⟩).add n :=
  State.effects_count _ _ _ _ (by simp) rfl

theorem State.programFault_latched (x : Cell) (n : Nat) : (s.programFault c x n).latched 8 = true :=
  State.cellEvent_latched ..

end Sys2Proof.Machine
end

section
/-! SUPPORT. A cell's messages and bulk transfers at its pc (R230, R240, R250 to R254, R257). -/

namespace Sys2Proof.Machine

variable {s : State} {c : CellId} {r : Running} {w : Word} {a b : CellReg}

/-! ### Receiving (R252) -/

theorem execCellRecv_takes {v : DWord} {q : List Msg} (h : s.CellAt c r w) (hw : w &&& 0xFFF80000#32 = cellWord 7 0x2 (a.toNat * 2 ^ 19))
    (hq : takeWord (s.cell c).recvQ = some (v, q)) :
    exec (.cellRecv c a) s = .next (s.cellNext c r (({ s.cell c with recvQ := q } : Cell).put a v) (r.pc + 4)) :=
  congrArg Host.Outcome.next (State.cellOp_go h hw (by simp only [hq]))

theorem execCellRecv_stalls (h : s.CellAt c r w) (hw : w &&& 0xFFF80000#32 = cellWord 7 0x2 (a.toNat * 2 ^ 19))
    (hq : takeWord (s.cell c).recvQ = none) : exec (.cellRecv c a) s = .next s := by
  refine congrArg Host.Outcome.next ((State.onCell_at h hw _).trans ?_)
  simp only [hq, State.retire]

theorem Msg.not_isWork (m : Msg) : (!m.isWork) = decide (hdrKind m.header ≠ 1) := by simp [Msg.isWork]

theorem execCellRqlen_at (h : s.CellAt c r w) (hw : w &&& 0xFFF80000#32 = cellWord 7 0x3 (a.toNat * 2 ^ 19)) :
    exec (.cellRqlen c a) s = .next (s.cellNext c r ((s.cell c).put a (BitVec.ofNat 64
      (((s.cell c).recvQ.filter (fun m => decide (hdrKind m.header ≠ 1))).foldl (fun n m => n + m.left) 0))) (r.pc + 4)) :=
  congrArg Host.Outcome.next (State.cellOp_go h hw (by simp only [Msg.not_isWork]))

/-! ### Sending (R230, R240, R250, R251) -/

/-- A message with the words given leaves when its length is reached, and the core goes on either way. -/
theorem State.retire_sendOn (x : Cell) (m : DWord) (ws : List DWord) :
    (s.sendOn c x m ws).1.retire c x r (s.sendOn c x m ws).2 =
      if hdrLength m ≤ ws.length then
        (s.putMesh (some c) { header := m, words := ws }).cellNext c r { x with sendHdr := none, sendWords := [] } (r.pc + 4)
      else s.cellNext c r { x with sendHdr := some m, sendWords := ws } (r.pc + 4) := by
  unfold State.sendOn
  split <;> rfl

theorem execCellSend_at (h : s.CellAt c r w) (hw : w &&& 0xFF07C000#32 = cellWord 7 0x0 (a.toNat * 2 ^ 14)) :
    exec (.cellSend c a) s = .next ((sendHeader c ((s.cell c).get a) (s.cell c) s).1.retire c (s.cell c) r
      (sendHeader c ((s.cell c).get a) (s.cell c) s).2) :=
  congrArg Host.Outcome.next (State.onCell_at h hw _)

theorem execCellSendw_at (h : s.CellAt c r w) (hw : w &&& 0xFF07C000#32 = cellWord 7 0x1 (a.toNat * 2 ^ 14)) :
    exec (.cellSendw c a) s = .next ((sendPayload c ((s.cell c).get a) (s.cell c) s).1.retire c (s.cell c) r
      (sendPayload c ((s.cell c).get a) (s.cell c) s).2) :=
  congrArg Host.Outcome.next (State.onCell_at h hw _)

theorem sendHeader_room {v : DWord} {x : Cell} (hx : x.sendHdr = none) (hv : s.sendable v = true) (hu : s.sendUse c x < 16) :
    sendHeader c v x s = s.sendOn c x (withSource v c) [] := by
  simp [sendHeader, hx, hv, Nat.not_le.2 hu]

theorem sendHeader_full {v : DWord} {x : Cell} (hx : x.sendHdr = none) (hv : s.sendable v = true) (hu : 16 ≤ s.sendUse c x) :
    sendHeader c v x s = (s.sendStall c, .stall) := by
  simp [sendHeader, hx, hv, hu]

theorem sendPayload_room {v m : DWord} {x : Cell} (hx : x.sendHdr = some m) (hu : s.sendUse c x < 16) :
    sendPayload c v x s = s.sendOn c x m (x.sendWords ++ [v]) := by
  simp [sendPayload, hx, Nat.not_le.2 hu]

theorem sendPayload_full {v : DWord} {x : Cell} (hx : x.sendHdr.isSome = true) (hu : 16 ≤ s.sendUse c x) :
    sendPayload c v x s = (s.sendStall c, .stall) := by
  obtain ⟨m, hm⟩ := Option.isSome_iff_exists.1 hx
  simp [sendPayload, hm, hu]

theorem execCellSend_room (h : s.CellAt c r w) (hw : w &&& 0xFF07C000#32 = cellWord 7 0x0 (a.toNat * 2 ^ 14))
    (hx : (s.cell c).sendHdr = none) (hv : s.sendable ((s.cell c).get a) = true) (hu : s.sendUse c (s.cell c) < 16) :
    exec (.cellSend c a) s =
      if hdrLength (withSource ((s.cell c).get a) c) = 0 then
        .next ((s.putMesh (some c) { header := withSource ((s.cell c).get a) c, words := [] }).cellNext c r
          { s.cell c with sendHdr := none, sendWords := [] } (r.pc + 4))
      else .next (s.cellNext c r { s.cell c with sendHdr := some (withSource ((s.cell c).get a) c), sendWords := [] } (r.pc + 4)) := by
  rw [execCellSend_at h hw, sendHeader_room hx hv hu, State.retire_sendOn, apply_ite Host.Outcome.next]
  simp only [List.length_nil, Nat.le_zero_eq]

theorem execCellSendw_room {m : DWord} (h : s.CellAt c r w) (hw : w &&& 0xFF07C000#32 = cellWord 7 0x1 (a.toNat * 2 ^ 14))
    (hx : (s.cell c).sendHdr = some m) (hu : s.sendUse c (s.cell c) < 16) :
    exec (.cellSendw c a) s =
      if hdrLength m ≤ (s.cell c).sendWords.length + 1 then
        .next ((s.putMesh (some c) { header := m, words := (s.cell c).sendWords ++ [(s.cell c).get a] }).cellNext c r
          { s.cell c with sendHdr := none, sendWords := [] } (r.pc + 4))
      else .next (s.cellNext c r
        { s.cell c with sendHdr := some m, sendWords := (s.cell c).sendWords ++ [(s.cell c).get a] } (r.pc + 4)) := by
  rw [execCellSendw_at h hw, sendPayload_room hx hu, State.retire_sendOn, apply_ite Host.Outcome.next]
  simp only [List.length_append, List.length_singleton]

theorem execCellSendw_unbegun (h : s.CellAt c r w) (hw : w &&& 0xFF07C000#32 = cellWord 7 0x1 (a.toNat * 2 ^ 14))
    (hx : (s.cell c).sendHdr = none) : exec (.cellSendw c a) s = .next (s.cellNext c r (s.cell c) (r.pc + 4)) := by
  rw [execCellSendw_at h hw]
  simp only [sendPayload, hx]
  rfl

/-- A stalled send counts in msg_backpressure and raises NTC_CELL (R240, R267). -/
theorem State.sendStall_spec (s : State) (c : CellId) :
    (s.sendStall c).quiet = s.quiet ∧ (s.sendStall c).latched 8 = true ∧
      ((s.sendStall c).counter ⟨0x0B, 0, 3⟩).count = min (2 ^ 48 - 1) ((s.counter ⟨0x0B, 0, 3⟩).count + 1) := by
  unfold State.sendStall
  exact ⟨State.effects_quiet .., State.cellEvent_latched .., by rw [State.cellEvent_counter, Counter.add_count]; rfl⟩

/-! ### Bulk transfers (R253, R254, R257) -/

/-- An instruction that ends in a program fault ends the handler and is noticed (R257). -/
theorem State.onCell_faults {f : Running → Cell → State → State × CellOut} {mask enc : Word} {n : Nat} (h : s.CellAt c r w)
    (hw : w &&& mask = enc) (hf : f r (s.cell c) s = (s, .fault n)) :
    ∃ t, (Host.Outcome.next (s.onCell c mask enc f) : Host.Outcome State Fault Refusal) = .next t ∧
      t.quiet = (s.setCell c { s.cell c with run := none, sendHdr := none, sendWords := [], faultCause := n }).quiet ∧
      t.latched 8 = true := by
  rw [State.onCell_at h hw, hf]
  exact ⟨_, rfl, State.programFault_quiet .., State.programFault_latched ..⟩

theorem bulkBytes_eq (len : Byte) : bulkBytes len = 64 * (if len.toNat = 0 then 256 else len.toNat) := by
  simp only [bulkBytes, ← BitVec.toNat_inj, BitVec.toNat_ofNat, Nat.zero_mod]

section

variable {x : Cell} {u v : DWord} {tag : BitVec 6} {n : Nat}

theorem bulkPut_refuses (h : x.reaches r u.toNat n 64 = false ∨ localBytes < v.toNat % 2 ^ 17 + n ∨ v.toNat % 64 ≠ 0) :
    bulkPut c u v tag n r x s = (s, .fault 2) := by
  have halign : v.toNat % 2 ^ 17 % 64 = v.toNat % 64 := by omega
  refine if_pos ?_
  simpa [inLocal, halign, or_assoc] using h

theorem bulkPut_starts (h : x.reaches r u.toNat n 64 = true) (hfit : v.toNat % 2 ^ 17 + n ≤ localBytes) (hv : v.toNat % 64 = 0) :
    bulkPut c u v tag n r x s = (s.startTransfer
      { from? := c, kind := 0, dest := BitVec.ofNat 12 (hdrDest v), localAddr := u.toNat, remote := v.toNat % 2 ^ 17,
        bytes := n, data := x.mem.bytes u.toNat n, poison := (x.poisonAt u.toNat n).isSome, tag := tag, refused := false,
        issued := s.now }, .go x) := by
  have halign : v.toNat % 2 ^ 17 % 64 = v.toNat % 64 := by omega
  refine if_neg ?_
  simpa [inLocal, halign, h, hv] using hfit

theorem bulkShared_refuses {write : Bool} (h : x.reaches r u.toNat n 64 = false) :
    bulkShared c write u v tag n r x s = (s, .fault 2) :=
  if_pos (by simp [h])

/-- The transfer that a `bget` or a `bpost` starts. -/
def Cell.sharedTransfer (x : Cell) (c : CellId) (write : Bool) (u v : DWord) (tag : BitVec 6) (n : Nat) (r : Running) (now : Nat) :
    Transfer :=
  { from? := c, kind := if write then 2 else 1, dest := c, localAddr := u.toNat, remote := v.toNat % 2 ^ 30, bytes := n,
    data := if write then x.mem.bytes u.toNat n else [], poison := write && (x.poisonAt u.toNat n).isSome, tag := tag,
    refused := decide (v.toNat % 2 ^ 30 % 64 ≠ 0) || !(x.slot r.slot1).admits (v.toNat % 2 ^ 30) n write, issued := now }

/-- A transfer to or from shared memory starts, and one outside the windows is counted and noticed (R254, R267). -/
def State.startShared (s : State) (c : CellId) (r : Running) (x : Cell) (f : Transfer) : State :=
  if f.refused then (s.startTransfer f).effects (cellEvent 7 1 c s.now [] (leBytes 2 (r.handlerAddr / 4) ++ leBytes 1 x.faultCause))
  else s.startTransfer f

theorem bulkShared_starts {write : Bool} (h : x.reaches r u.toNat n 64 = true) :
    bulkShared c write u v tag n r x s = (s.startShared c r x (x.sharedTransfer c write u v tag n r s.now), .go x) :=
  if_neg (by simp [h])

theorem State.startShared_quiet (f : Transfer) : (s.startShared c r x f).quiet = (s.startTransfer f).quiet := by
  unfold State.startShared
  split
  · exact State.effects_quiet ..
  · rfl

theorem State.startShared_grid (f : Transfer) : (s.startShared c r x f).grid = (s.startTransfer f).grid := by
  unfold State.startShared
  split
  · exact State.effects_grid ..
  · rfl

theorem State.startShared_latched {f : Transfer} (hf : f.refused = true) : (s.startShared c r x f).latched 8 = true := by
  rw [State.startShared, if_pos hf]
  exact State.cellEvent_latched ..

/-- A window admits a span with the access wanted (R254). -/
theorem CellSlot.admits_iff (sl : CellSlot) (off n : Nat) (write : Bool) :
    sl.admits off n write = true ↔ ∃ v ∈ sl.windows, v.1 ≤ off ∧ off + n ≤ v.1 + v.2.1 ∧ (write = true → v.2.2 = true) := by
  simp only [CellSlot.admits, List.any_eq_true, Bool.and_eq_true, decide_eq_true_eq, and_assoc, Bool.or_eq_true, Bool.not_eq_true',
    ← Bool.not_eq_true, imp_iff_not_or]

theorem Cell.sharedTransfer_refused (write : Bool) (now : Nat) :
    (x.sharedTransfer c write u v tag n r now).refused = true ↔
      ¬ (v.toNat % 2 ^ 30 % 64 = 0 ∧ ∃ e ∈ (x.slot r.slot1).windows, e.1 ≤ v.toNat % 2 ^ 30 ∧ v.toNat % 2 ^ 30 + n ≤ e.1 + e.2.1 ∧
        (write = true → e.2.2 = true)) := by
  rw [← CellSlot.admits_iff]
  simp only [Cell.sharedTransfer, Bool.or_eq_true, decide_eq_true_eq, Bool.not_eq_true', ← Bool.not_eq_true, not_and_or, ne_eq]

end

section

variable {tag : BitVec 6} {len : Byte} {write : Bool}

/-- `bpost` writes shared memory and `bget` reads it: one meaning. -/
theorem execCellShared_eq (s : State) (c : CellId) (a b : CellReg) (tag : BitVec 6) (len : Byte) (write : Bool) :
    (if write then exec (.cellBpost c a b tag len) s else exec (.cellBget c a b tag len) s) =
      .next (s.onCell c allBits (encBulk (if write then 0x2 else 0x1) a b tag len)
        (fun r x t => bulkShared c write (x.get a) (x.get b) tag (bulkBytes len) r x t)) := by
  cases write <;> rfl

theorem execCellShared_starts (h : s.CellAt c r (encBulk (if write then 0x2 else 0x1) a b tag len))
    (hr : (s.cell c).reaches r ((s.cell c).get a).toNat (bulkBytes len) 64 = true) :
    (if write then exec (.cellBpost c a b tag len) s else exec (.cellBget c a b tag len) s) =
      .next ((s.startShared c r (s.cell c) ((s.cell c).sharedTransfer c write ((s.cell c).get a) ((s.cell c).get b) tag (bulkBytes len)
        r s.now)).cellNext c r (s.cell c) (r.pc + 4)) := by
  rw [execCellShared_eq, State.onCell_at h (and_allBits _), bulkShared_starts hr]
  rfl

end

/-- The state after a `bget` or `bpost` has started its transfer: besides it, only the cell has gone on. -/
theorem State.startShared_next (s : State) (c : CellId) (r : Running) (x : Cell) (f : Transfer) (pc : Nat) :
    let t := (s.startShared c r x f).cellNext c r x pc
    t.grid = { s.grid with transfers := s.grid.transfers ++ [f], cells := (s.cellNext c r x pc).grid.cells } ∧
      { t.quiet with grid := s.grid } = s.quiet := by
  constructor
  · simp only [State.cellNext_grid, State.startShared_grid]
    rfl
  · show { (s.startShared c r x f).quiet with grid := s.grid } = _
    rw [State.startShared_quiet]
    rfl

/-- Settles O56, instruction by instruction: a message's words, then the three bulk transfers. -/
theorem cellCommunication : Obligations.CellCommunication := by
  unfold Obligations.CellCommunication
  refine ⟨fun s c r a w h => ⟨fun v q hw hq => execCellRecv_takes h hw hq, execCellRecv_stalls h, execCellRqlen_at h,
    execCellSend_room h, fun m => execCellSendw_room h, execCellSendw_unbegun h, fun hu => ⟨fun hw hx hv => ?_, fun hw hx => ?_⟩⟩,
    fun s c r a b tag len => ?_⟩
  · exact ⟨_, by rw [execCellSend_at h hw, sendHeader_full hx hv hu]; rfl, State.sendStall_spec s c⟩
  · exact ⟨_, by rw [execCellSendw_at h hw, sendPayload_full hx hu]; rfl, State.sendStall_spec s c⟩
  rw [← bulkBytes_eq]
  refine ⟨fun h hno => State.onCell_faults h (and_allBits _) (bulkPut_refuses hno), fun hno =>
      ⟨fun h => State.onCell_faults h (and_allBits _) (bulkShared_refuses hno),
        fun h => State.onCell_faults h (and_allBits _) (bulkShared_refuses hno)⟩,
    fun hr => ⟨fun h hfit hb => ?_, fun write h => ?_⟩⟩
  · refine congrArg Host.Outcome.next ((State.onCell_at h (and_allBits _) _).trans ?_)
    rw [bulkPut_starts hr hfit hb]
    rfl
  · obtain ⟨hgrid, hquiet⟩ := State.startShared_next s c r (s.cell c)
      ((s.cell c).sharedTransfer c write ((s.cell c).get a) ((s.cell c).get b) tag (bulkBytes len) r s.now) (r.pc + 4)
    exact ⟨_, execCellShared_starts h hr, _, congrArg Grid.transfers hgrid, rfl, rfl, rfl, rfl, rfl, rfl, fun hw => if_pos hw,
      Cell.sharedTransfer_refused .., State.startShared_latched, hquiet, by rw [hgrid], by rw [hgrid]⟩

end Sys2Proof.Machine
end

section
/-! SUPPORT. What comes to a cell: the start of a handler (R242, R257), the arrival of a message (R230, R265), and the end of a bulk
transfer, which lands and queues its completion word (R229, R253, R254). -/

namespace Sys2Proof.Machine

variable {s u : State} {c : CellId} {m : Msg} {f : Transfer}

/-! ### Handlers (R242, R257) -/

/-- The cell whose core has started the handler of a message at an entry of its table. -/
def Cell.handling (x : Cell) (m : Msg) (entry : Nat) : Cell :=
  { x with g := handlerRegs m, recvQ := x.recvQ.erase m, workItems := min (2 ^ 48 - 1) (x.workItems + 1),
           run := some { pc := 4 * entry, slot1 := hdrSlot m.header, handlerAddr := 4 * entry } }

/-- A program fault of a cell leaves every other part but counters and notices (R257). -/
theorem State.programFault_besides (s : State) (c : CellId) (x : Cell) (n : Nat) (cells : List (CellId × Cell)) :
    { (s.programFault c x n).quiet with grid := { (s.programFault c x n).grid with cells := cells } } =
      { s.quiet with grid := { s.grid with cells := cells } } := by
  rw [State.programFault_quiet, State.programFault, State.effects_grid]
  rfl

section Handler

variable {entry : Nat} (hrun : (s.cell c).run = none) (hload : (s.cell c).reloading = false) (husable : s.rel.usable c = true)
  (hm : (s.cell c).recvQ.find? Msg.isWork = some m)
  (hentry : (((s.cell c).slot (hdrSlot m.header)).handlers[hdrHandler m.header]?).getD 0xFFFF = entry)

include hrun hload husable hm hentry

theorem handlerStart_eq :
    handlerStart c s =
      if entry = 0xFFFF then ((s.setCell c ((s.cell c).handling m entry)).count1 0x0B 0 5).programFault c ((s.cell c).handling m entry) 2
      else (s.setCell c ((s.cell c).handling m entry)).count1 0x0B 0 5 := by
  subst hentry
  unfold handlerStart
  dsimp only
  split
  · next m' _ hm' _ =>
    obtain rfl := Option.some.inj (hm.symm.trans hm')
    rfl
  · next hno => exact (hno m hrun hm (by simp only [hload, husable, Bool.not_true, Bool.or_false])).elim

theorem handlerStart_starts (he : entry ≠ 0xFFFF) :
    (handlerStart c s).quiet = (s.setCell c ((s.cell c).handling m entry)).quiet := by
  rw [handlerStart_eq hrun hload husable hm hentry, if_neg he, State.count1_quiet]

/-- Work without a handler is a program fault of the handler that would have started (R257 cause 2). -/
theorem handlerStart_faults (he : entry = 0xFFFF) :
    (handlerStart c s).cell c = { (s.cell c).handling m entry with run := none, sendHdr := none, sendWords := [], faultCause := 2 } ∧
      (∀ d, d ≠ c → (handlerStart c s).cell d = s.cell d) ∧ (handlerStart c s).latched 8 = true ∧
      { (handlerStart c s).quiet with grid := { (handlerStart c s).grid with cells := s.grid.cells } } = s.quiet := by
  rw [handlerStart_eq hrun hload husable hm hentry, if_pos he]
  refine ⟨?_, fun d hd => ?_, State.programFault_latched .., ?_⟩
  · rw [State.programFault, State.effects_cell, State.setCell_cell_self]
  · rw [State.programFault, State.effects_cell, State.setCell_cell_ne _ hd, State.count1, State.effects_cell,
      State.setCell_cell_ne _ hd]
  · rw [State.programFault_besides, State.count1_quiet, State.count1, State.effects_grid]
    rfl

end Handler

theorem handlerStart_waits (h : (s.cell c).run.isSome = true ∨ (s.cell c).reloading = true ∨ s.rel.usable c = false ∨
    ∀ m ∈ (s.cell c).recvQ, m.isWork = false) : handlerStart c s = s := by
  unfold handlerStart
  dsimp only
  split
  · next m hrun hm hready =>
    obtain ⟨hload, husable⟩ := Bool.or_eq_false_iff.1 hready
    rcases h with h | h | h | h
    · simp [hrun] at h
    · simp [hload] at h
    · simp [h] at husable
    · exact absurd (List.find?_some hm) (by simp [h m (List.mem_of_find?_eq_some hm)])
  · rfl

/-! ### Messages (R230, R265, R477) -/

/-- A message that is for the cell and behind no transfer of the callipers (R280). -/
def State.arrivesAt (s : State) (c : CellId) (m : Msg) : Bool :=
  !hdrToEngine m.header && decide (hdrDest m.header = c.toNat) &&
    !(s.grid.transfers.any (fun t => decide (t.kind = 3) && decide (t.dest = c) && decide (t.from?.toNat = hdrSource m.header)
      && m.isWork))

theorem messageArrive_none (hm : s.takeMesh (s.arrivesAt c) = none) : messageArrive c s = s := by
  unfold messageArrive
  unfold State.arrivesAt at hm
  simp only [hm]

theorem messageArrive_takes (hm : s.takeMesh (s.arrivesAt c) = some (m, u)) :
    messageArrive c s =
      if !s.rel.usable c then u
      else if (s.cell c).reloading && m.isWork then u.count1 0x0B 0 10
      else if 64 < (s.cell c).queued + m.size then s.stopMesh m
      else u.setCell c { s.cell c with recvQ := (s.cell c).recvQ ++ [{ m with waits := false }] } := by
  unfold messageArrive
  unfold State.arrivesAt at hm
  simp only [hm]

/-- Work for a cell that reloads is discarded and counted (R265). -/
theorem messageArrive_discards (hm : s.takeMesh (s.arrivesAt c) = some (m, u)) :
    (u.count1 0x0B 0 10).quiet = u.quiet ∧ ((u.count1 0x0B 0 10).counter ⟨0x0B, 0, 10⟩).count =
      min (2 ^ 48 - 1) ((s.counter ⟨0x0B, 0, 10⟩).count + 1) := by
  obtain ⟨l, rfl⟩ := State.takeMesh_eq hm
  refine ⟨State.count1_quiet .., ?_⟩
  rw [State.count1, State.effects_count _ _ _ _ (by simp) rfl, Counter.add_count]
  rfl

theorem messageArrive_clauses (s : State) (c : CellId) :
    (s.takeMesh (s.arrivesAt c) = none → exec (.cellMessageArrive c) s = .next s) ∧
      (∀ m u, s.takeMesh (s.arrivesAt c) = some (m, u) →
        (s.rel.usable c = false → exec (.cellMessageArrive c) s = .next u) ∧
        (s.rel.usable c = true → (s.cell c).reloading = true → m.isWork = true → ∃ t, exec (.cellMessageArrive c) s = .next t ∧
          t.quiet = u.quiet ∧ (t.counter ⟨0x0B, 0, 10⟩).count = min (2 ^ 48 - 1) ((s.counter ⟨0x0B, 0, 10⟩).count + 1)) ∧
        (s.rel.usable c = true → ((s.cell c).reloading = false ∨ m.isWork = false) →
          (64 < (s.cell c).queued + m.size → exec (.cellMessageArrive c) s = .next (s.stopMesh m)) ∧
          ((s.cell c).queued + m.size ≤ 64 → exec (.cellMessageArrive c) s =
            .next (u.setCell c { s.cell c with recvQ := (s.cell c).recvQ ++ [{ m with waits := false }] })))) := by
  refine ⟨fun hm => congrArg Host.Outcome.next (messageArrive_none hm), fun m u hm => ⟨fun hu => ?_, fun hu hl hw => ?_,
    fun hu hl => ⟨fun hfull => ?_, fun hroom => ?_⟩⟩⟩
  · refine congrArg Host.Outcome.next ((messageArrive_takes hm).trans ?_)
    simp [hu]
  · refine ⟨_, congrArg Host.Outcome.next ((messageArrive_takes hm).trans ?_), messageArrive_discards hm⟩
    simp [hu, hl, hw]
  · refine congrArg Host.Outcome.next ((messageArrive_takes hm).trans ?_)
    rcases hl with hl | hl <;> simp [hu, hl, hfull]
  · refine congrArg Host.Outcome.next ((messageArrive_takes hm).trans ?_)
    rcases hl with hl | hl <;> simp [hu, hl, Nat.not_lt.2 hroom]

/-! ### What a transfer's landing changes (R253, R254, R469) -/

theorem State.land_refused (hr : f.refused = true) : s.land f = (s, 1) := if_pos hr

/-- A transfer to a cell lands in its local memory. -/
theorem State.land_put (hr : f.refused = false) (hk : f.kind = 0 ∨ f.kind = 3) :
    ∃ ps, s.land f = (s.setCell f.dest { s.cell f.dest with mem := (s.cell f.dest).mem.setBytes f.remote f.data, poison := ps },
      if f.poison then 2 else 0) := by
  unfold State.land
  simp only [hr, hk, if_true, Bool.false_eq_true, if_false]
  split
  · exact ⟨_, rfl⟩
  · exact ⟨_, rfl⟩

/-- A read of shared memory lands in the local memory of the cell that asked for it. -/
theorem State.land_get (hr : f.refused = false) (hk : f.kind = 1) :
    ∃ ps es, s.land f = ((s.setCell f.from? { s.cell f.from? with
        mem := (s.cell f.from?).mem.setBytes f.localAddr (s.readShared f.remote f.bytes), poison := ps }).effects es,
      if (s.sharedPoison f.remote f.bytes).isSome then 2 else 0) := by
  have h0 : ¬ (f.kind = 0 ∨ f.kind = 3) := by omega
  simp only [State.land, hr, Bool.false_eq_true, if_false, if_neg h0, if_pos hk]
  cases s.sharedPoison f.remote f.bytes with
  | some e => exact ⟨_, _, rfl⟩
  | none => exact ⟨_, [], rfl⟩

/-- A write of shared memory lands there. -/
theorem State.land_post (hr : f.refused = false) (h0 : ¬ (f.kind = 0 ∨ f.kind = 3)) (h1 : f.kind ≠ 1) :
    s.land f = (s.writeShared f.remote f.data, if f.poison then 2 else 0) := by
  simp only [State.land, hr, h0, h1, Bool.false_eq_true, if_false]

/-- The state `t` is `s` but for the memory of a cell, the shared memory, and the poison in both. -/
structure State.WritesMemory (s t : State) (c : CellId) : Prop where
  transfers : t.grid.transfers = s.grid.transfers
  others : ∀ d, d ≠ c → t.cell d = s.cell d
  own : ∃ m ps, t.cell c = { s.cell c with mem := m, poison := ps }
  rest : ∀ g : Grid, { t.quiet with grid := g, rel := s.rel } = { s.quiet with grid := g }

theorem State.WritesMemory.refl (s : State) (c : CellId) : s.WritesMemory s c :=
  ⟨rfl, fun _ _ => rfl, ⟨_, _, rfl⟩, fun _ => rfl⟩

theorem State.writesMemory_setCell (s : State) (c : CellId) (m : Memory) (ps : List Nat) (es : List Effect) :
    s.WritesMemory ((s.setCell c { s.cell c with mem := m, poison := ps }).effects es) c where
  transfers := by rw [State.effects_grid]; rfl
  others d hd := by rw [State.effects_cell, State.setCell_cell_ne _ hd]
  own := ⟨m, ps, by rw [State.effects_cell, State.setCell_cell_self]⟩
  rest _ := by rw [State.effects_quiet]; rfl

theorem State.land_writesMemory (s : State) (f : Transfer) : s.WritesMemory (s.land f).1 f.notified := by
  unfold Transfer.notified
  by_cases hr : f.refused = true
  · rw [State.land_refused hr]
    exact .refl ..
  rw [Bool.not_eq_true] at hr
  by_cases h0 : f.kind = 0 ∨ f.kind = 3
  · obtain ⟨ps, hl⟩ := State.land_put (s := s) hr h0
    rw [hl, if_pos h0]
    exact s.writesMemory_setCell _ _ ps []
  rw [if_neg h0]
  by_cases h1 : f.kind = 1
  · obtain ⟨ps, es, hl⟩ := State.land_get (s := s) hr h1
    rw [hl]
    exact s.writesMemory_setCell ..
  · rw [State.land_post hr h0 h1]
    exact ⟨rfl, fun _ _ => rfl, ⟨_, _, rfl⟩, fun _ => rfl⟩

/-- What a transfer writes where, and its completion's status: 1 refused, 2 poisoned, else 0. -/
theorem State.land_spec (s : State) (hc : f.notified = c) :
    let t := (s.land f).1
    let status := (s.land f).2
    (f.refused = true → status = 1 ∧ (t.cell c).mem = (s.cell c).mem ∧ t.grid.shared = s.grid.shared) ∧
    (f.refused = false → f.kind ≠ 1 → status = if f.poison then 2 else 0) ∧
    (f.refused = false → f.kind = 0 ∨ f.kind = 3 → (t.cell c).mem = (s.cell c).mem.setBytes f.remote f.data ∧
      t.grid.shared = s.grid.shared) ∧
    (f.refused = false → f.kind = 1 → (t.cell c).mem = (s.cell c).mem.setBytes f.localAddr (s.readShared f.remote f.bytes) ∧
      status = (if (s.sharedPoison f.remote f.bytes).isSome then 2 else 0) ∧ t.grid.shared = s.grid.shared) ∧
    (f.refused = false → f.kind = 2 → (t.cell c).mem = (s.cell c).mem ∧
      t.grid.shared = s.grid.shared.setBytes f.remote f.data) := by
  subst hc
  refine ⟨fun hr => ?_, fun hr h1 => ?_, fun hr h0 => ?_, fun hr h1 => ?_, fun hr h2 => ?_⟩
  · simp only [State.land_refused hr, and_self]
  · by_cases h0 : f.kind = 0 ∨ f.kind = 3
    · obtain ⟨ps, hl⟩ := State.land_put (s := s) hr h0
      rw [hl]
    · rw [State.land_post hr h0 h1]
  · obtain ⟨ps, hl⟩ := State.land_put (s := s) hr h0
    rw [hl, Transfer.notified, if_pos h0, State.setCell_cell_self]
    exact ⟨rfl, rfl⟩
  · have h0 : ¬ (f.kind = 0 ∨ f.kind = 3) := by omega
    obtain ⟨ps, es, hl⟩ := State.land_get (s := s) hr h1
    rw [hl, Transfer.notified, if_neg h0, State.effects_cell, State.setCell_cell_self, State.effects_grid]
    exact ⟨rfl, rfl, rfl⟩
  · rw [State.land_post hr (by omega) (by omega)]
    exact ⟨rfl, rfl⟩

/-! ### The end of a transfer (R229, R235, R253) -/

/-- A transfer that waits for its bench's grant. -/
theorem Transfer.asks_iff (f : Transfer) :
    f.asks (benchOf f.from?) = true ↔ (f.kind = 1 ∨ f.kind = 2) ∧ f.refused = false ∧ f.granted = false := by
  simp [Transfer.asks, and_assoc]

/-- The state without the transfer that ends. -/
def State.endTransfer (s : State) (f : Transfer) : State := { s with grid := { s.grid with transfers := s.grid.transfers.erase f } }

/-- The completion word of a transfer joins its cell's queue (R253). -/
def State.queueCompletion (s : State) (c : CellId) (f : Transfer) (status : Nat) : State :=
  s.setCell c { s.cell c with recvQ := (s.cell c).recvQ ++
    [{ header := mkHeader 2 c.toNat false f.from?.toNat 0 false status f.tag.toNat, words := [] }] }

/-- The oldest transfer that completes at a cell. -/
def State.nextTransfer (s : State) (c : CellId) : Option Transfer := s.grid.transfers.find? (fun t => decide (t.notified = c))

theorem State.notified_of_nextTransfer (h : s.nextTransfer c = some f) : f.notified = c := by
  unfold State.nextTransfer at h
  exact of_decide_eq_true (List.find?_some (p := fun t : Transfer => decide (t.notified = c)) h)

theorem bulkComplete_none (h : (s.arbitrate (benchOf c) s.now).nextTransfer c = none) :
    bulkComplete c s = s.arbitrate (benchOf c) s.now := by
  unfold State.nextTransfer at h
  simp only [bulkComplete, h]

theorem bulkComplete_some (h : (s.arbitrate (benchOf c) s.now).nextTransfer c = some f) :
    let a := s.arbitrate (benchOf c) s.now
    bulkComplete c s =
      if f.asks (benchOf f.from?) then a
      else if !a.rel.usable c then (if f.kind = 2 then ((a.endTransfer f).land f).1 else a.endTransfer f)
      else if 64 < (a.cell c).queued + 1 then a
      else ((a.endTransfer f).land f).1.queueCompletion c f ((a.endTransfer f).land f).2 := by
  unfold State.nextTransfer at h
  simp only [bulkComplete, h]
  rfl

/-- A transfer that lands leaves every other cell, the registers and the core, and is off the list. -/
theorem State.queueCompletion_frame {t : State} (h : s.WritesMemory t c) (status : Nat) :
    let v := t.queueCompletion c f status
    v.grid.transfers = s.grid.transfers ∧
      (v.cell c).recvQ = (s.cell c).recvQ ++
        [{ header := mkHeader 2 c.toNat false f.from?.toNat 0 false status f.tag.toNat, words := [] }] ∧
      (v.cell c).g = (s.cell c).g ∧ (v.cell c).v = (s.cell c).v ∧ (v.cell c).run = (s.cell c).run ∧
      (∀ d, d ≠ c → v.cell d = s.cell d) ∧ ∀ g : Grid, { v.quiet with grid := g, rel := s.rel } = { s.quiet with grid := g } := by
  obtain ⟨htransfers, hothers, ⟨m, ps, hown⟩, hrest⟩ := h
  unfold State.queueCompletion
  simp only [State.setCell_cell_self, hown]
  exact ⟨htransfers, trivial, trivial, trivial, trivial, fun d hd => (State.setCell_cell_ne _ hd _).trans (hothers d hd), hrest⟩

theorem State.queueCompletion_mem (s : State) (c : CellId) (f : Transfer) (status : Nat) :
    ((s.queueCompletion c f status).cell c).mem = (s.cell c).mem := by
  rw [State.queueCompletion, State.setCell_cell_self]

theorem bulkComplete_clauses (s : State) (c : CellId) :
    let a := s.arbitrate (benchOf c) s.now
    (a.nextTransfer c = none → exec (.bulkTransferComplete c) s = .next a) ∧
    (∀ f, a.nextTransfer c = some f →
      let asks := (f.kind = 1 ∨ f.kind = 2) ∧ f.refused = false ∧ f.granted = false
      (asks → exec (.bulkTransferComplete c) s = .next a) ∧
      (¬ asks → a.rel.usable c = false → exec (.bulkTransferComplete c) s =
        .next (if f.kind = 2 then ((a.endTransfer f).land f).1 else a.endTransfer f)) ∧
      (¬ asks → a.rel.usable c = true → 64 < (a.cell c).queued + 1 → exec (.bulkTransferComplete c) s = .next a) ∧
      (¬ asks → a.rel.usable c = true → (a.cell c).queued + 1 ≤ 64 → exec (.bulkTransferComplete c) s =
        .next (((a.endTransfer f).land f).1.queueCompletion c f ((a.endTransfer f).land f).2))) := by
  refine ⟨fun h => congrArg Host.Outcome.next (bulkComplete_none h), fun f h => ?_⟩
  have heq := bulkComplete_some h
  simp only [Transfer.asks_iff] at heq
  refine ⟨fun hask => congrArg Host.Outcome.next (heq.trans ?_), fun hask hu => congrArg Host.Outcome.next (heq.trans ?_),
    fun hask hu hfull => congrArg Host.Outcome.next (heq.trans ?_), fun hask hu hroom => congrArg Host.Outcome.next (heq.trans ?_)⟩
  · rw [if_pos hask]
  · rw [if_neg hask, if_pos (by simp only [hu, Bool.not_false])]
  · rw [if_neg hask, if_neg (by simp only [hu, Bool.not_true, Bool.false_eq_true, not_false_eq_true]), if_pos hfull]
  · rw [if_neg hask, if_neg (by simp only [hu, Bool.not_true, Bool.false_eq_true, not_false_eq_true]), if_neg (Nat.not_lt.2 hroom)]

/-- Settles O59: the handler of the oldest work message, the oldest message to the cell, the oldest transfer that completes at it. -/
theorem cellDeliveries : Obligations.CellDeliveries := by
  unfold Obligations.CellDeliveries
  refine ⟨fun s c => ⟨fun m entry hrun hload hu hm he hne => ?_, fun m hrun hload hu hm he => ?_, fun h => ?_,
    messageArrive_clauses s c⟩, fun s c => ?_⟩
  · exact ⟨_, rfl, handlerStart_starts hrun hload hu hm (by rw [he]; rfl) hne⟩
  · obtain ⟨hcell, hothers, hlatched, hrest⟩ := handlerStart_faults hrun hload hu hm he rfl
    exact ⟨_, rfl, by rw [hcell], by rw [hcell], by rw [hcell]; rfl, by rw [hcell]; rfl, hlatched, hrest, hothers⟩
  · exact congrArg Host.Outcome.next (handlerStart_waits h)
  obtain ⟨hnone, hsome⟩ := bulkComplete_clauses s c
  refine ⟨hnone, fun f hf => ?_⟩
  obtain ⟨hwaits, hlost, hfull, hlands⟩ := hsome f hf
  refine ⟨hwaits, hlost, hfull, fun hask hu hroom => ⟨_, hlands hask hu hroom, ?_⟩⟩
  have hc := State.notified_of_nextTransfer hf
  have hwrites := State.land_writesMemory ((s.arbitrate (benchOf c) s.now).endTransfer f) f
  rw [hc] at hwrites
  obtain ⟨htransfers, hqueue, hg, hv, hrun, hothers, hrest⟩ := State.queueCompletion_frame (f := f) hwrites
    (((s.arbitrate (benchOf c) s.now).endTransfer f).land f).2
  refine ⟨htransfers, ⟨_, hqueue, ?_⟩, hg, hv, hrun, hothers, hrest _⟩
  rw [State.queueCompletion_mem]
  exact State.land_spec _ hc

end Sys2Proof.Machine
end


section
/-! SUPPORT. The arithmetic of a cell at its pc (R244, R245; log 36). -/

namespace Sys2Proof.Machine

variable {s : State} {c : CellId} {r : Running} {d a b : CellReg} {imm : BitVec 14}

/-! ### The operations' values -/

theorem boolWord_slt (u v : DWord) : boolWord (u.slt v) = if u.toInt < v.toInt then 1#64 else 0#64 := by
  simp only [boolWord, BitVec.slt_iff_toInt_lt]

theorem boolWord_ult (u v : DWord) : boolWord (u.ult v) = if u.toNat < v.toNat then 1#64 else 0#64 := by
  simp only [boolWord, BitVec.ult_iff_toNat_lt]

/-- A shift by less than 64 has the result that R245 states. -/
theorem shiftBy_of_lt {v : DWord} (hv : v.toNat < 64) (op : Nat) (u : DWord) :
    shiftBy op u v = if op = 5 then u <<< v.toNat else if op = 6 then u >>> v.toNat else u.sshiftRight v.toNat :=
  if_neg (Nat.not_le.2 hv)

/-- A bit field as a quotient and remainder, or shifted down and masked. -/
theorem ofNat_div_mod_two_pow (u : DWord) (lsb : Nat) {n : Nat} (hn : n ≤ 64) :
    BitVec.ofNat 64 (u.toNat / 2 ^ lsb % 2 ^ n) = (u >>> lsb) &&& BitVec.ofNat 64 (2 ^ n - 1) := by
  have hpow : 2 ^ n ≤ 2 ^ 64 := Nat.pow_le_pow_right (by decide) hn
  have hpos : 0 < 2 ^ n := Nat.two_pow_pos n
  have hmod := Nat.mod_lt (u.toNat / 2 ^ lsb) hpos
  apply BitVec.eq_of_toNat_eq
  rw [BitVec.toNat_and, BitVec.toNat_ushiftRight, BitVec.toNat_ofNat, BitVec.toNat_ofNat, Nat.mod_eq_of_lt (by omega),
    Nat.mod_eq_of_lt (a := 2 ^ n - 1) (by omega), Nat.and_two_pow_sub_one_eq_mod, Nat.shiftRight_eq_div_pow]

/-! ### Instructions at the pc -/

/-- The outcome of an instruction that writes d and goes on. -/
abbrev State.writes (s : State) (c : CellId) (r : Running) (d : CellReg) (w : DWord) : Host.Outcome State Fault Refusal :=
  .next (s.cellNext c r ((s.cell c).put d w) (r.pc + 4))

/-- A register operation at the pc. -/
theorem State.regOp_at {op : Nat} (h : s.CellAt c r (encReg 0 op d a b 0#5 false)) (f : DWord → DWord → DWord) :
    .next (s.regOp c op d a b f) = s.writes c r d (f ((s.cell c).get a) ((s.cell c).get b)) :=
  congrArg Host.Outcome.next (State.cellOp_go h (and_allBits _) rfl)

/-- A register operation at the pc, by another name of its value. -/
theorem State.regOp_writes {op : Nat} (h : s.CellAt c r (encReg 0 op d a b 0#5 false)) {f : DWord → DWord → DWord} {w : DWord}
    (hw : f ((s.cell c).get a) ((s.cell c).get b) = w) : .next (s.regOp c op d a b f) = s.writes c r d w :=
  hw ▸ State.regOp_at h f

/-- A shift at the pc writes a value that R245 states for a count below 64. -/
theorem State.shiftOp_writes {op : Nat} (h : s.CellAt c r (encReg 0 op d a b 0#5 false)) {w : DWord}
    (hw : ((s.cell c).get b).toNat < 64 → shiftBy op ((s.cell c).get a) ((s.cell c).get b) = w) :
    ∃ v, .next (s.regOp c op d a b (shiftBy op)) = s.writes c r d v ∧ (((s.cell c).get b).toNat < 64 → v = w) :=
  ⟨_, State.regOp_at h _, hw⟩

/-- An immediate operation at the pc. -/
theorem State.immOp_at {op : Nat} (h : s.CellAt c r (encImm 1 op d a imm)) (f : DWord → DWord) :
    .next (s.immOp c op d a imm f) = s.writes c r d (f ((s.cell c).get a)) :=
  congrArg Host.Outcome.next (State.cellOp_go h (and_allBits _) rfl)

theorem execCellSlti_at (h : s.CellAt c r (encImm 1 0x9 d a imm)) :
    exec (.cellSlti c d a imm) s =
      s.writes c r d (if ((s.cell c).get a).toInt < (imm.signExtend 64).toInt then 1#64 else 0#64) :=
  (State.immOp_at h _).trans (congrArg (s.writes c r d) (boolWord_slt ..))

theorem execCellExtr_at {lsb width1 : BitVec 6} (h : s.CellAt c r (encExtr d a lsb width1)) :
    exec (.cellExtr c d a lsb width1) s =
      s.writes c r d (((s.cell c).get a >>> lsb.toNat) &&& BitVec.ofNat 64 (2 ^ (width1.toNat + 1) - 1)) := by
  rw [← ofNat_div_mod_two_pow _ _ width1.isLt]
  exact congrArg Host.Outcome.next (State.cellOp_go h (and_allBits _) rfl)

theorem execCellLui_at {i : BitVec 19} (h : s.CellAt c r (encWide 1 0xF d i)) :
    exec (.cellLui c d i) s = s.writes c r d (i.signExtend 64 <<< 13) :=
  congrArg Host.Outcome.next (State.cellOp_go h (and_allBits _) rfl)

/-- Settles O51, instruction by instruction: each writes its value to d and goes on. -/
theorem cellArithmetic : Obligations.CellArithmetic := by
  unfold Obligations.CellArithmetic
  refine ⟨fun s c r d a b => ⟨fun h => State.regOp_at h _, fun h => State.regOp_at h _, fun h => State.regOp_at h _,
      fun h => State.regOp_at h _, fun h => State.regOp_at h _, fun h => State.shiftOp_writes h fun hv => shiftBy_of_lt hv 5 _,
      fun h => State.shiftOp_writes h fun hv => shiftBy_of_lt hv 6 _, fun h => State.shiftOp_writes h fun hv => shiftBy_of_lt hv 7 _,
      fun h => State.regOp_at h _, fun h => State.regOp_writes h (boolWord_slt ..), fun h => State.regOp_writes h (boolWord_ult ..),
      fun h => State.regOp_writes h ?_, fun h => State.regOp_writes h ?_⟩,
    fun s c r d a imm => ⟨fun h => State.immOp_at h _, fun h => State.immOp_at h _, fun h => State.immOp_at h _,
      fun h => State.immOp_at h _, fun h => State.immOp_at h _, fun h => State.immOp_at h _, fun h => State.immOp_at h _,
      execCellSlti_at, fun _ _ => execCellExtr_at, fun _ => execCellLui_at⟩⟩
  · simp only [BitVec.slt_iff_toInt_lt]
  · simp only [BitVec.slt_iff_toInt_lt]

end Sys2Proof.Machine
end

section
/-! SUPPORT. Branches and jumps of a cell at its pc (R244, R245, R257), and the end of an instruction that meets a poisoned word
(R257, R470). -/

namespace Sys2Proof.Machine

variable {s : State} {c : CellId} {r : Running} {w : Word} {a b : CellReg} {off : BitVec 14} {far : BitVec 19}

/-! ### Poisoned words (R257 cause 3, R470) -/

theorem State.setCell_quiet (s : State) (c : CellId) (x : Cell) : (s.setCell c x).quiet = s.quiet.setCell c x := rfl

theorem State.poisonRead_latched (s : State) (kind unit addr now : Nat) :
    (s.effects (poisonRead kind unit addr now)).latched 19 = true :=
  State.effects_raises _ _ 19 _ (List.mem_cons_of_mem _ List.mem_cons_self)

/-- A program fault leaves every latched notice latched. -/
theorem State.programFault_keeps_latched {code : Nat} (h : s.latched code = true) (x : Cell) (n : Nat) :
    (s.programFault c x n).latched code = true :=
  State.effects_latched _ _ _ h

/-- The cell `x` after a program fault: the handler has ended, the message being written is gone, and the cause is kept (R257). -/
def Cell.faulted (x : Cell) (cause : Nat) : Cell := { x with run := none, sendHdr := none, sendWords := [], faultCause := cause }

/-- An instruction that meets a poisoned word ends the handler with cause 3, reports to the bench, and latches NTC_CELL and
NTC_MEMORY. -/
theorem State.retire_poison (s : State) (c : CellId) (x0 x : Cell) (r : Running) (addr : Nat) :
    let t := s.retire c x0 r (.poison x addr)
    t.quiet = ((s.report c).setCell c (x.faulted 3)).quiet ∧ t.latched 8 = true ∧ t.latched 19 = true := by
  refine ⟨?_, State.programFault_latched .., State.programFault_keeps_latched (State.poisonRead_latched ..) ..⟩
  rw [State.retire, State.programFault_quiet, State.setCell_quiet, State.effects_quiet, State.setCell_quiet]
  rfl

/-! ### Branches and jumps (R244, R245) -/

/-- A branch whose test says whether `p` holds. -/
theorem State.branchOp_at {op : Nat} (h : s.CellAt c r (encImm 3 op a b off)) {f : DWord → DWord → Bool} {p : Prop} (i : Decidable p)
    (hp : f ((s.cell c).get a) ((s.cell c).get b) = decide p) :
    (Host.Outcome.next (s.branchOp c op a b off f) : Host.Outcome State Fault Refusal) =
      .next (s.cellNext c r (s.cell c) (if p then ((r.pc : Int) + 4 * off.toInt).toNat else r.pc + 4)) := by
  refine congrArg Host.Outcome.next ?_
  by_cases hp' : p
  · rw [if_pos hp']
    exact State.cellOp_jump h (and_allBits _) (if_pos (by rw [hp, decide_eq_true hp']))
  · rw [if_neg hp']
    exact State.cellOp_go h (and_allBits _) (if_neg (by rw [hp, decide_eq_false hp']; exact Bool.false_ne_true))

theorem not_slt_eq_decide (u v : DWord) : (!u.slt v) = decide (v.toInt ≤ u.toInt) := by
  simp only [BitVec.slt, ← decide_not, Int.not_lt]

theorem not_ult_eq_decide (u v : DWord) : (!u.ult v) = decide (v.toNat ≤ u.toNat) := by
  simp only [BitVec.ult, ← decide_not, Nat.not_lt]

theorem execCellJ_at (h : s.CellAt c r w) (hw : w &&& 0xFF07FFFF#32 = encWide 3 0x8 0#5 far) :
    exec (.cellJ c far) s = .next (s.cellNext c r (s.cell c) ((r.pc : Int) + 4 * far.toInt).toNat) :=
  congrArg Host.Outcome.next (State.cellOp_jump h hw rfl)

theorem execCellJal_at (h : s.CellAt c r (encWide 3 0x9 a far)) :
    exec (.cellJal c a far) s =
      .next (s.cellNext c r ((s.cell c).put a (BitVec.ofNat 64 (r.pc + 4))) ((r.pc : Int) + 4 * far.toInt).toNat) :=
  congrArg Host.Outcome.next (State.cellOp_jump h (and_allBits _) rfl)

section

variable (h : s.CellAt c r w) (hw : w &&& 0xFFF80000#32 = encWide 3 0xA a 0#19)

include h hw

theorem execCellJr_at : exec (.cellJr c a) s =
    .next (s.retire c (s.cell c) r ((s.cell c).jumpReg r ((s.cell c).get a).toNat)) :=
  congrArg Host.Outcome.next (State.onCell_at h hw _)

theorem execCellJr_jumps {t : Word} (hf : (s.cell c).fetch r ((s.cell c).get a).toNat = .word t) :
    exec (.cellJr c a) s = .next (s.cellNext c r (s.cell c) ((s.cell c).get a).toNat) := by
  rw [execCellJr_at h hw, Cell.jumpReg, hf]
  rfl

theorem execCellJr_faults {n : Nat} (hf : (s.cell c).fetch r ((s.cell c).get a).toNat = .fault n) :
    ∃ t, exec (.cellJr c a) s = .next t ∧ t.quiet = (s.setCell c ((s.cell c).faulted n)).quiet ∧ t.latched 8 = true := by
  rw [execCellJr_at h hw, Cell.jumpReg, hf]
  exact ⟨_, rfl, State.programFault_quiet .., State.programFault_latched ..⟩

theorem execCellJr_poisoned {p : Nat} (hf : (s.cell c).fetch r ((s.cell c).get a).toNat = .poison p) :
    ∃ t, exec (.cellJr c a) s = .next t ∧ t.quiet = ((s.report c).setCell c ((s.cell c).faulted 3)).quiet ∧ t.latched 8 = true := by
  rw [execCellJr_at h hw, Cell.jumpReg, hf]
  obtain ⟨hquiet, hcell, -⟩ := s.retire_poison c (s.cell c) (s.cell c) r p
  exact ⟨_, rfl, hquiet, hcell⟩

end

/-- Settles O53: a branch by its test, then the jumps. -/
theorem cellBranches : Obligations.CellBranches := by
  unfold Obligations.CellBranches
  intro s c r a b off far
  refine ⟨fun h => State.branchOp_at h _ rfl, fun h => State.branchOp_at h _ rfl, fun h => State.branchOp_at h _ rfl,
    fun h => State.branchOp_at h _ (not_slt_eq_decide ..), fun h => State.branchOp_at h _ rfl,
    fun h => State.branchOp_at h _ (not_ult_eq_decide ..), fun _ => execCellJ_at, fun _ => execCellJal_at,
    fun _ _ h hw => execCellJr_jumps h hw, fun _ h hw => ⟨fun _ => execCellJr_faults h hw, fun _ => execCellJr_poisoned h hw⟩⟩

end Sys2Proof.Machine
end

section
/-! SUPPORT. Program faults of a cell (R242, R249, R257, R265): whatever instruction command comes, and instruction by instruction. -/

namespace Sys2Proof.Machine

variable {s : State} {c : CellId} {r : Running} {w : Word} {d a : CellReg} {imm : BitVec 14} {n : Nat}

/-- An outcome that is the run of some instruction on a cell. -/
abbrev State.RunsOn (s : State) (c : CellId) (o : Host.Outcome State Fault Refusal) : Prop :=
  ∃ mask enc f, o = .next (s.onCell c mask enc f)

theorem State.onCell_runsOn (s : State) (c : CellId) (mask enc : Word) (f : Running → Cell → State → State × CellOut) :
    s.RunsOn c (.next (s.onCell c mask enc f)) := ⟨_, _, _, rfl⟩

theorem State.cellOp_runsOn (s : State) (c : CellId) (mask enc : Word) (f : Running → Cell → CellOut) :
    s.RunsOn c (.next (s.cellOp c mask enc f)) := ⟨_, _, _, rfl⟩

/-- Every instruction of a cell's core runs on the cell, under a mask and an encoding (R244). The cases stand in the order of R245:
those that act on their own cell alone (`cellOp`), and those that act on the rest of the state too. -/
theorem exec_core {i : Instr} (hi : coreOf i = some c) (s : State) : s.RunsOn c (exec i s) := by
  unfold coreOf at hi
  split at hi
  all_goals cases hi
  -- scalar and vector instructions
  iterate 50 exact State.cellOp_runsOn ..
  -- `mclr`, `mstep`, `mrd`, `mstat`
  · exact State.onCell_runsOn ..
  · exact State.cellOp_runsOn ..
  · exact State.onCell_runsOn ..
  · exact State.cellOp_runsOn ..
  -- `send` and `sendw`, `recv` and `rqlen`
  iterate 2 exact State.onCell_runsOn ..
  iterate 2 exact State.cellOp_runsOn ..
  -- bulk transfers, barriers and flags
  iterate 8 exact State.onCell_runsOn ..
  -- `nop`, then `end`, `csrr` and `plumb`
  · exact State.cellOp_runsOn ..
  iterate 3 exact State.onCell_runsOn ..

theorem exec_core_idle {i : Instr} (hi : coreOf i = some c)
    (h : ∀ q, (s.cell c).run = some q → q.atBarrier.isSome = true ∨ (s.cell c).reloading = true) : exec i s = .next s := by
  obtain ⟨mask, enc, f, he⟩ := exec_core hi s
  rw [he, State.onCell_idle h]

/-- The outcome of a program fault: besides counters and notices only the cell has changed, and NTC_CELL is latched (R257). -/
abbrev State.Faults (s : State) (c : CellId) (o : Host.Outcome State Fault Refusal) (cause : Nat) : Prop :=
  ∃ t, o = .next t ∧ t.quiet = (s.setCell c ((s.cell c).faulted cause)).quiet ∧ t.latched 8 = true

section Fetch

variable {i : Instr} (hi : coreOf i = some c) (hrun : (s.cell c).run = some r) (hbar : r.atBarrier = none)
  (hload : (s.cell c).reloading = false)

include hi hrun hbar hload

theorem exec_core_fetchFault (hf : (s.cell c).fetch r r.pc = .fault n) : s.Faults c (exec i s) n := by
  obtain ⟨mask, enc, f, he⟩ := exec_core hi s
  rw [he, State.onCell_fault hrun hbar hload hf]
  exact ⟨_, rfl, State.programFault_quiet .., State.programFault_latched ..⟩

theorem exec_core_fetchPoison {p : Nat} (hf : (s.cell c).fetch r r.pc = .poison p) :
    ∃ t, exec i s = .next t ∧ t.quiet = ((s.report c).setCell c ((s.cell c).faulted 3)).quiet ∧
      t.latched 8 = true ∧ t.latched 19 = true := by
  obtain ⟨mask, enc, f, he⟩ := exec_core hi s
  refine ⟨_, he, ?_⟩
  have hat : s.onCell c mask enc f = s.retire c (s.cell c) r (.poison (s.cell c) p) := by
    simp [State.onCell, hrun, hbar, hload, hf]
  rw [hat]
  exact State.retire_poison ..

end Fetch

/-! ### Accesses outside the slot's range (R257 cause 2) -/

theorem State.loadOp_faults {op : Nat} (h : s.CellAt c r (encImm 2 op d a imm))
    (hr : (s.cell c).reaches r ((s.cell c).addr a imm) n n = false) : s.Faults c (.next (s.loadOp c op n d a imm)) 2 := by
  unfold State.loadOp
  exact State.onCell_faults h (and_allBits _) (congrArg (Prod.mk s) (if_pos (by rw [hr]; rfl)))

theorem State.storeOp_faults {op : Nat} (h : s.CellAt c r (encImm 2 op d a imm))
    (hr : (s.cell c).reaches r ((s.cell c).addr a imm) n n = false) : s.Faults c (.next (s.storeOp c op n d a imm)) 2 := by
  unfold State.storeOp
  exact State.onCell_faults h (and_allBits _) (congrArg (Prod.mk s) (if_pos (by rw [hr]; rfl)))

theorem execCellVld_faults (h : s.CellAt c r (encImm 5 0x0 d a imm))
    (hr : (s.cell c).reaches r ((s.cell c).addr a imm) 64 64 = false) : s.Faults c (exec (.cellVld c d a imm) s) 2 :=
  State.onCell_faults h (and_allBits _) (congrArg (Prod.mk s) (if_pos (by rw [hr]; rfl)))

theorem execCellVst_faults (h : s.CellAt c r (encImm 5 0x1 d a imm))
    (hr : (s.cell c).reaches r ((s.cell c).addr a imm) 64 64 = false) : s.Faults c (exec (.cellVst c d a imm) s) 2 :=
  State.onCell_faults h (and_allBits _) (congrArg (Prod.mk s) (if_pos (by rw [hr]; rfl)))

/-! ### The other causes (R257 causes 4 to 7) -/

theorem execCellMstep_faults {t : TileId} {va vb : CellReg} {asel : BitVec 4} {bsel : BitVec 2} {vec : Bool} {fmt : BitVec 3}
    (h : s.CellAt c r (mstepEnc t va vb asel bsel vec fmt)) (hm : ((s.cell c).tile t).mode ≠ (if fmt = 6#3 then 2 else 1)) :
    s.Faults c (exec (.cellMstep c t va vb asel bsel vec fmt) s) 4 :=
  State.onCell_faults h (and_allBits _) (congrArg (Prod.mk s) (if_pos hm))

theorem execCellBar_faults {ch : BitVec 6} (h : s.CellAt c r w) (hw : w &&& 0xFF003F00#32 = cellWord 9 0 (ch.toNat * 2 ^ 8))
    (hm : ((s.cell c).slot r.slot1).barrierMask.getLsbD ch.toNat = false) : s.Faults c (exec (.cellBar c ch) s) 5 :=
  State.onCell_faults h hw (if_pos (by rw [hm]; rfl))

theorem execCellSend_faults (h : s.CellAt c r w) (hw : w &&& 0xFF07C000#32 = cellWord 7 0x0 (a.toNat * 2 ^ 14))
    (hx : (s.cell c).sendHdr.isSome = true ∨ s.sendable ((s.cell c).get a) = false) : s.Faults c (exec (.cellSend c a) s) 6 :=
  State.onCell_faults h hw (if_pos (by simpa using hx))

theorem execCellCsrr_faults {k : BitVec 14} (h : s.CellAt c r w)
    (hw : w &&& 0xFFF83FFF#32 = cellWord 0xA 2 (d.toNat * 2 ^ 19 + k.toNat)) (hk : 5 ≤ k.toNat) :
    s.Faults c (exec (.cellCsrr c d k) s) 7 :=
  State.onCell_faults h hw (by rw [State.controlReg_eq, List.getElem?_eq_none hk])

/-- Settles O58: what no core runs, a fetch that fails, and the causes 2 and 4 to 7 of an instruction at the pc. -/
theorem cellProgramFaults : Obligations.CellProgramFaults := by
  unfold Obligations.CellProgramFaults
  intro s c r
  refine ⟨fun i hi => ⟨fun h => exec_core_idle hi fun q hq => ?_, fun q ch hq hbar => exec_core_idle hi fun p hp => ?_,
      fun hrun hbar hload => ⟨fun _ => exec_core_fetchFault hi hrun hbar hload, fun _ => exec_core_fetchPoison hi hrun hbar hload⟩⟩,
    fun d a imm => ⟨State.loadOp_faults, State.loadOp_faults, State.loadOp_faults, State.loadOp_faults, State.storeOp_faults,
      State.storeOp_faults, State.storeOp_faults, State.storeOp_faults, execCellVld_faults, execCellVst_faults⟩,
    fun t va vb asel bsel vec fmt => execCellMstep_faults,
    fun w h => ⟨fun ch => execCellBar_faults h, fun a => execCellSend_faults h, fun d k => execCellCsrr_faults h⟩⟩
  · exact .inr (h.resolve_left (by simp [hq]))
  · obtain rfl := Option.some.inj (hq.symm.trans hp)
    exact .inl (by rw [hbar]; rfl)

end Sys2Proof.Machine
end

section
/-! SUPPORT. A cell's store in a local memory that is not in canonical form (R245; log 55). The store of a byte 0 lists nothing and ends
at the first higher address of the list, so an entry of its own address behind that one is still read. -/

namespace Sys2Proof.Machine

variable {s : State} {c : CellId} {r : Running} {d a : CellReg} {imm : BitVec 14} {n : Nat}

/-- A store within the slot's range writes its bytes and goes on (R245). -/
theorem State.storeOp_at {op : Nat} (h : s.CellAt c r (encImm 2 op d a imm))
    (hr : (s.cell c).reaches r ((s.cell c).addr a imm) n n = true) :
    s.storeOp c op n d a imm =
      s.cellNext c r ((s.cell c).write ((s.cell c).addr a imm) (leBytes n ((s.cell c).get d).toNat)) (r.pc + 4) :=
  State.cellOp_go h (and_allBits _) (if_neg (by rw [hr]; decide))

theorem State.cellNext_cell (s : State) (c : CellId) (r : Running) (x : Cell) (pc : Nat) :
    (s.cellNext c r x pc).cell c = { x with run := some { r with pc := pc } } := State.setCell_cell_self ..

/-- A local memory with the word of `st.b g0, g0, 8` at 0, and the bytes at 9 and at 8 listed out of order. -/
def unorderedMemory : Memory := [(0, 0x08#8), (3, 0x28#8), (9, 0x01#8), (8, 0x07#8)]

/-- A handler at address 0 of policy slot 0. -/
def firstHandler : Running := { pc := 0, slot1 := false, handlerAddr := 0 }

/-- A cell whose core is about to run the store in that memory. -/
def unorderedCell : Cell := { mem := unorderedMemory, slot0 := { rangeBytes := 16 }, run := some firstHandler }

/-- The gate after reset, but for cell 0. -/
def unorderedState : State := State.reset.setCell 0#12 unorderedCell

theorem unorderedState_cell : unorderedState.cell 0#12 = unorderedCell := State.setCell_cell_self ..

theorem unorderedState_at : unorderedState.CellAt 0#12 firstHandler (encImm 2 0x8 0#5 0#5 8#14) := by
  unfold State.CellAt
  rw [unorderedState_cell]
  exact ⟨rfl, rfl, rfl, by decide⟩

theorem unorderedCell_reaches : unorderedCell.reaches firstHandler (unorderedCell.addr 0#5 8#14) 1 1 = true := by decide

theorem unorderedCell_addr : unorderedCell.addr 0#5 8#14 = 8 := by decide

/-- The byte 0 that the store writes at 8 does not read back. -/
theorem unorderedCell_write_get : (unorderedCell.write 8 (leBytes 1 (unorderedCell.get 0#5).toNat)).mem.get 8 = 0x07#8 := by decide

/-- Refutes O52: it asks of every state that a store's bytes read back, and in a local memory whose list is not canonical a store of 0
does not. Canonical memories (O5) read back what is written (`Memory.get_setBytes`), but the statement does not assume them. -/
theorem not_cellMemoryAccess : ¬ Obligations.CellMemoryAccess := by
  unfold Obligations.CellMemoryAccess
  rintro ⟨-, hstores⟩
  obtain ⟨hbyte, -⟩ := hstores unorderedState 0#12 firstHandler 0#5 0#5 8#14
  rw [unorderedState_cell] at hbyte
  obtain ⟨m, ps, hnext, hread, -⟩ := hbyte unorderedState_at unorderedCell_reaches
  have hstore := State.storeOp_at unorderedState_at (n := 1) (by rw [unorderedState_cell]; exact unorderedCell_reaches)
  rw [unorderedState_cell] at hstore
  have hmem : (unorderedCell.write 8 (leBytes 1 (unorderedCell.get 0#5).toNat)).mem = m := by
    have hcell := congrArg (fun t => (State.cell t 0#12).mem) (hstore.symm.trans (Host.Outcome.next.inj hnext))
    simpa only [State.cellNext_cell, unorderedCell_addr] using hcell
  have hzero : m.get 8 = 0x00#8 := hread 0 Nat.one_pos
  rw [← hmem, unorderedCell_write_get] at hzero
  exact absurd hzero (by decide)

end Sys2Proof.Machine
end

section
/-! SUPPORT. The canonical form of the addressed memories (R253, R257, R422; log 55): every update of a memory keeps it, and what
leaves the memories as they are. -/

namespace Sys2Proof.Machine

variable {s t : State} {c : CellId} {p : MPort} {n : Fin 32} {x : Cell} {f : Transfer}

/-! ### What is read of a state -/

/-- The addressed memories of a state: the mailbox slots, the cells and the shared memory. -/
def State.memories (s : State) : List ((MPort × Fin 32) × MSlot) × List (CellId × Cell) × Memory :=
  (s.ctl.mbox, s.grid.cells, s.grid.shared)

theorem State.canonical_of_memories (hs : s.MemoryCanonical) (h : t.memories = s.memories) : t.MemoryCanonical := by
  obtain ⟨hmbox, hgrid⟩ := Prod.mk.inj h
  obtain ⟨hcells, hshared⟩ := Prod.mk.inj hgrid
  unfold State.MemoryCanonical
  rwa [hmbox, hcells, hshared]

theorem State.memories_of_quiet (h : t.quiet = s.quiet) : t.memories = s.memories := by
  show t.quiet.memories = s.quiet.memories
  rw [h]

theorem State.slot_mem_wf (hs : s.MemoryCanonical) (p : MPort) (n : Fin 32) : (s.slot p n).mem.wf = true := by
  unfold State.slot
  cases hm : aget (p, n) s.ctl.mbox with
  | none => rfl
  | some m => exact List.all_eq_true.1 hs.1 _ (mem_of_aget hm)

theorem State.cell_mem_wf (hs : s.MemoryCanonical) (c : CellId) : (s.cell c).mem.wf = true := by
  unfold State.cell
  cases hx : aget c s.grid.cells with
  | none => rfl
  | some x => exact List.all_eq_true.1 hs.2.1 _ (mem_of_aget hx)

/-! ### Updates of a memory -/

theorem State.setSlot_canonical (hs : s.MemoryCanonical) {m : MSlot} (hm : m.mem.wf = true) : (s.setSlot p n m).MemoryCanonical := by
  obtain ⟨hmbox, hgrid⟩ := hs
  exact ⟨List.all_eq_true.2 (aset_forall (fun e : (MPort × Fin 32) × MSlot => e.2.mem.wf = true) (List.all_eq_true.1 hmbox) hm), hgrid⟩

theorem State.setCell_canonical (hs : s.MemoryCanonical) (hx : x.mem.wf = true) : (s.setCell c x).MemoryCanonical := by
  obtain ⟨hmbox, hcells, hshared⟩ := hs
  exact ⟨hmbox, List.all_eq_true.2 (aset_forall (fun e : CellId × Cell => e.2.mem.wf = true) (List.all_eq_true.1 hcells) hx), hshared⟩

theorem State.writeShared_canonical (hs : s.MemoryCanonical) (off : Nat) (bs : List Byte) : (s.writeShared off bs).MemoryCanonical := by
  obtain ⟨hmbox, hcells, hshared⟩ := hs
  exact ⟨hmbox, hcells, Memory.wf_setBytes hshared off bs⟩

theorem State.canonical_of_quiet (hs : s.MemoryCanonical) (h : t.quiet = s.quiet) : t.MemoryCanonical :=
  State.canonical_of_memories hs (State.memories_of_quiet h)

/-! ### Register writes (R415, R422) -/

theorem State.respond_canonical (hs : s.MemoryCanonical) (p : MPort) (n : Fin 32) (status : Nat) (body : List Byte) :
    (s.respond p n status body).MemoryCanonical := by
  have hmem := Memory.wf_setBytes (State.slot_mem_wf hs p n) 0x100 (responseArea (s.slot p n) status body)
  unfold State.respond
  dsimp only
  generalize Memory.setBytes (s.slot p n).mem 0x100 (responseArea (s.slot p n) status body) = m at hmem ⊢
  split
  · exact State.canonical_of_quiet (State.setSlot_canonical hs hmem) (State.raise_quiet ..)
  · exact State.setSlot_canonical hs hmem

theorem submitSlot_canonical (hs : s.MemoryCanonical) (p : MPort) (n : Fin 32) : (submitSlot p s n).MemoryCanonical := by
  unfold submitSlot
  dsimp only
  split
  · exact State.canonical_of_quiet hs (State.countN_quiet ..)
  · refine State.canonical_of_quiet (State.setSlot_canonical hs ?_) (State.countN_quiet ..)
    exact State.slot_mem_wf hs p n

theorem answerUnknown_canonical (hs : s.MemoryCanonical) : (answerUnknown s).MemoryCanonical := by
  unfold answerUnknown
  split
  · refine List.foldlRecOn _ _ hs fun t ht e _ => ?_
    split
    · exact State.respond_canonical ht ..
    · exact ht
  · exact hs

theorem submit_canonical (hs : s.MemoryCanonical) (p : MPort) (bits : Word) : (submit p bits s).MemoryCanonical :=
  answerUnknown_canonical (List.foldlRecOn _ _ hs fun _ ht n _ => submitSlot_canonical ht p n)

theorem State.ite_memories (b : Prop) [Decidable b] {u : State} (ht : t.memories = s.memories) (hu : u.memories = s.memories) :
    (if b then t else u).memories = s.memories := by
  split
  · exact ht
  · exact hu

theorem writeNodeId_memories (p : MPort) (v : Word) (s : State) : (writeNodeId p v s).memories = s.memories :=
  State.ite_memories _ rfl rfl

theorem State.setSem_ite_memories (b : Prop) [Decidable b] {n : Fin 32} {v : Semaphore} (h : t.memories = s.memories) :
    (if b then t.setSem n v else t).memories = s.memories := State.ite_memories b h h

theorem forceSem_memories (n : Fin 32) (p : MPort) (s : State) : (forceSem n p s).memories = s.memories :=
  State.memories_of_quiet (t := forceSem n p s) (s := s.setSem n { s.sem n with owner := 0 }) (State.effects_quiet ..)

theorem State.signalIrq_memories (s : State) (b : Bool) : (s.signalIrq b).memories = s.memories :=
  State.memories_of_quiet (State.signalIrq_quiet ..)

/-- A write to a direct register other than MBOX_SUBMIT leaves every memory. -/
theorem writeDirect_memories (p : MPort) {off : Nat} (h : off ≠ 0x44) (v : Word) (s : State) :
    (writeDirect p off v s).memories = s.memories := by
  unfold writeDirect
  rw [if_neg h]
  refine State.ite_memories _ (writeNodeId_memories ..) (State.ite_memories _ (State.ite_memories _ rfl rfl)
    (State.ite_memories _ (State.memories_of_quiet (State.acknowledge_quiet ..)) (State.ite_memories _ ?_
      (State.ite_memories _ (State.ite_memories _ rfl rfl) ?_))))
  · refine (State.signalIrq_memories ..).trans ?_
    cases p <;> rfl
  · split
    · dsimp only
      have hforce := State.ite_memories (v.getLsbD 4 = true) (forceSem_memories ⟨(off - 0x100) / 4, by omega⟩ p s) rfl
      exact State.setSem_ite_memories _ (State.setSem_ite_memories _ hforce)
    · rfl

theorem writeDirect_canonical (hs : s.MemoryCanonical) (p : MPort) (off : Nat) (v : Word) : (writeDirect p off v s).MemoryCanonical := by
  by_cases h : off = 0x44
  · subst h
    exact submit_canonical hs p v
  · exact State.canonical_of_memories hs (writeDirect_memories p h v s)

theorem writeDirects_canonical (hs : s.MemoryCanonical) (p : MPort) (off : Nat) (data : List Byte) :
    (writeDirects p off data s).MemoryCanonical := by
  induction off, data, s using writeDirects.induct (p := p) with
  | case1 off s b0 b1 b2 b3 rest ih => exact ih (writeDirect_canonical hs p off _)
  | case2 data off s hshort =>
    rw [writeDirects]
    · exact hs
    · exact hshort

theorem writeQueueReg_memories (off : Nat) (v : Word) (s : State) : (writeQueueReg off v s).memories = s.memories := by
  unfold writeQueueReg
  dsimp only
  split
  · have hclear : (if v.getLsbD 30 = true then clearOverrun ⟨off / 16 % 512, by omega⟩ s else s).memories = s.memories :=
      State.ite_memories _ rfl rfl
    exact State.ite_memories _ hclear hclear
  · rfl
  · exact State.ite_memories _ (State.memories_of_quiet (State.dropPacket_quiet ..)) rfl
  · rfl

theorem writeQueueRegs_memories (off : Nat) (data : List Byte) (s : State) : (writeQueueRegs off data s).memories = s.memories := by
  induction off, data, s using writeQueueRegs.induct with
  | case1 off s b0 b1 b2 b3 rest ih => exact ih.trans (writeQueueReg_memories ..)
  | case2 data off s hshort =>
    rw [writeQueueRegs]
    exact hshort

theorem writeItemPort_memories (q : QueueId) (item : List Byte) (s : State) : (writeItemPort q item s).memories = s.memories := by
  unfold writeItemPort
  split
  · exact State.memories_of_quiet (s := s) (t := s.hostOffer q item) (State.hostOffer_quiet ..)
  · exact State.memories_of_quiet (s := s) (t := s.countN 0x05 q.val 1 1) (State.countN_quiet ..)

theorem writeSlot_canonical (hs : s.MemoryCanonical) (p : MPort) (off : Nat) (data : List Byte) :
    (writeSlot p off data s).2.MemoryCanonical := by
  have hmem := fun n a => Memory.wf_setBytes (State.slot_mem_wf hs p n) a data
  unfold writeSlot
  dsimp only
  split
  · exact hs
  · refine State.setSlot_canonical hs ?_
    exact hmem ..

theorem writeRegister_canonical (hs : s.MemoryCanonical) (b : Bus) (addr : Word) (data : List Byte) :
    (writeRegister b addr data s).MemoryCanonical := by
  unfold writeRegister
  cases b with
  | ctl0 =>
    dsimp only
    split
    · exact hs
    split
    · exact writeDirects_canonical hs .a _ data
    split
    · exact writeSlot_canonical hs .a _ data
    · exact hs
  | ctl1 =>
    dsimp only
    split
    · exact hs
    split
    · split
      · exact State.canonical_of_memories hs (writeItemPort_memories ..)
      · exact hs
    split
    · exact State.canonical_of_memories (t := writeQueueRegs (addr.toNat - 0x10000) data s) hs (writeQueueRegs_memories ..)
    · exact hs
  | mgtb =>
    dsimp only
    split
    · exact writeDirects_canonical hs .b _ data
    split
    · exact writeSlot_canonical hs .b _ data
    · exact State.canonical_of_quiet hs (State.countN_quiet ..)

/-! ### Stores of a cell (R245) -/

theorem Cell.write_mem_wf (hx : x.mem.wf = true) (addr : Nat) (bs : List Byte) : (x.write addr bs).mem.wf = true :=
  Memory.wf_setBytes hx addr bs

/-- What an instruction makes of its cell has its local memory in canonical form. -/
def CellOut.Canonical : CellOut → Prop
  | .go y | .jump y _ | .poison y _ => y.mem.wf = true
  | .fault _ | .stall => True

theorem State.programFault_canonical (hs : s.MemoryCanonical) (hx : x.mem.wf = true) (n : Nat) :
    (s.programFault c x n).MemoryCanonical := by
  refine State.canonical_of_quiet (State.setCell_canonical (c := c) (x := x.faulted n) hs hx) (State.programFault_quiet ..)

theorem State.report_canonical (hs : s.MemoryCanonical) (c : CellId) : (s.report c).MemoryCanonical :=
  State.canonical_of_memories hs (State.ite_memories _ rfl rfl)

theorem State.retire_canonical (hs : s.MemoryCanonical) {x0 : Cell} (hx0 : x0.mem.wf = true) {o : CellOut} (ho : o.Canonical)
    (r : Running) : (s.retire c x0 r o).MemoryCanonical := by
  cases o with
  | go y => exact State.setCell_canonical hs (by exact ho)
  | jump y a => exact State.setCell_canonical hs (by exact ho)
  | fault n => exact State.programFault_canonical hs hx0 n
  | poison y a =>
    exact State.programFault_canonical (State.canonical_of_quiet (State.report_canonical hs c) (State.effects_quiet ..)) ho 3
  | stall => exact hs

theorem State.cellOp_canonical (hs : s.MemoryCanonical) {mask enc : Word} {f : Running → Cell → CellOut}
    (hf : ∀ r, (f r (s.cell c)).Canonical) : (s.cellOp c mask enc f).MemoryCanonical := by
  have hx := State.cell_mem_wf hs c
  unfold State.cellOp State.onCell
  dsimp only
  split
  · exact hs
  split
  · exact hs
  split
  · exact State.programFault_canonical hs hx _
  · exact State.retire_canonical hs hx (o := .poison _ _) hx _
  split
  · exact State.retire_canonical hs hx (hf _) _
  · exact hs

/-- An instruction that faults or writes bytes to its local memory. -/
theorem CellOut.canonical_write (hx : x.mem.wf = true) (b : Prop) [Decidable b] (n addr : Nat) (bs : List Byte) :
    (if b then CellOut.fault n else .go (x.write addr bs)).Canonical := by
  split
  · trivial
  · exact Cell.write_mem_wf hx addr bs

theorem State.storeOp_canonical (hs : s.MemoryCanonical) (c : CellId) (op n : Nat) (d a : CellReg) (imm : BitVec 14) :
    (s.storeOp c op n d a imm).MemoryCanonical :=
  State.cellOp_canonical hs fun _ => CellOut.canonical_write (State.cell_mem_wf hs c) ..

/-! ### The landing of a transfer (R229, R253, R254) -/

theorem State.grantOne_memories (s : State) (b : Byte) (upTo : Nat) : (s.grantOne b upTo).memories = s.memories := by
  unfold State.grantOne
  dsimp only
  split
  · exact State.ite_memories _ rfl rfl
  · rfl

theorem State.arbitrate_canonical (hs : s.MemoryCanonical) (b : Byte) (upTo : Nat) : (s.arbitrate b upTo).MemoryCanonical :=
  State.canonical_of_memories hs (foldl_keeps _ State.memories (fun v _ => v.grantOne_memories b _) _ s)

theorem State.land_canonical (hs : s.MemoryCanonical) (f : Transfer) : (s.land f).1.MemoryCanonical := by
  have hput := fun (d : CellId) (a : Nat) (bs : List Byte) => Memory.wf_setBytes (State.cell_mem_wf hs d) a bs
  by_cases hr : f.refused = true
  · rwa [State.land_refused hr]
  rw [Bool.not_eq_true] at hr
  by_cases h0 : f.kind = 0 ∨ f.kind = 3
  · obtain ⟨ps, hl⟩ := State.land_put (s := s) hr h0
    rw [hl]
    exact State.setCell_canonical hs (hput ..)
  by_cases h1 : f.kind = 1
  · obtain ⟨ps, es, hl⟩ := State.land_get (s := s) hr h1
    rw [hl]
    exact State.canonical_of_quiet (State.setCell_canonical hs (hput ..)) (State.effects_quiet ..)
  · rw [State.land_post hr h0 h1]
    exact State.writeShared_canonical hs ..

theorem bulkComplete_canonical (hs : s.MemoryCanonical) (c : CellId) : (bulkComplete c s).MemoryCanonical := by
  have ha := State.arbitrate_canonical hs (benchOf c) s.now
  cases hf : (s.arbitrate (benchOf c) s.now).nextTransfer c with
  | none => rwa [bulkComplete_none hf]
  | some f =>
    have hend : ((s.arbitrate (benchOf c) s.now).endTransfer f).MemoryCanonical := ha
    have hland := State.land_canonical hend f
    rw [bulkComplete_some hf]
    split
    · exact ha
    split
    · split
      · exact hland
      · exact hend
    split
    · exact ha
    · exact State.setCell_canonical hland (by exact State.cell_mem_wf hland c)

/-- Settles O5: register writes, then a cell's stores, then a landing transfer. -/
theorem writesKeepMemoryCanonical : Obligations.WritesKeepMemoryCanonical := by
  unfold Obligations.WritesKeepMemoryCanonical
  rintro s t i hs he (⟨b, a, d, rfl⟩ | ⟨k, d, a, imm, rfl | rfl | rfl | rfl | rfl⟩ | ⟨k, rfl⟩)
  · exact Host.Outcome.next.inj he ▸ writeRegister_canonical hs b a d
  · exact Host.Outcome.next.inj he ▸ State.storeOp_canonical hs ..
  · exact Host.Outcome.next.inj he ▸ State.storeOp_canonical hs ..
  · exact Host.Outcome.next.inj he ▸ State.storeOp_canonical hs ..
  · exact Host.Outcome.next.inj he ▸ State.storeOp_canonical hs ..
  · exact Host.Outcome.next.inj he ▸
      State.cellOp_canonical hs fun _ => CellOut.canonical_write (State.cell_mem_wf hs k) ..
  · exact Host.Outcome.next.inj he ▸ bulkComplete_canonical hs k

end Sys2Proof.Machine
end

section
/-! SUPPORT. What a repair and a change of the capability map leave alone (R428, R442, R490 to R492, R496). -/

namespace Sys2Proof.Machine

variable {s t : State}

/-! ### Repairs (R428, R490, R496) -/

theorem State.takeRepairSem_eq (s : State) : ∃ k, s.takeRepairSem = { s with ctl := k } := by
  unfold State.takeRepairSem
  split
  · exact ⟨_, rfl⟩
  · exact ⟨_, rfl⟩

/-- A repair that takes a spare into use: it is counted in the map and raises NTC_SPARE_USED. -/
theorem State.noteSpare_spec (s : State) (kind : Nat) (loc : List Byte) :
    let t := s.noteSpare kind loc
    t.rel = { s.rel with repairs := s.rel.repairs + 1 } ∧ t.latched 20 = true ∧ t.grid = s.grid ∧ t.streams = s.streams ∧
      t.plane = s.plane ∧ t.power = s.power ∧ t.boot = s.boot := by
  obtain ⟨k, hk⟩ := State.takeRepairSem_eq { s with rel := { s.rel with repairs := s.rel.repairs + 1 } }
  unfold State.noteSpare
  rw [hk]
  refine ⟨?_, State.raise_latched .., ?_, ?_, ?_, ?_, ?_⟩ <;> simp only [State.raise, State.effects_rel, State.effects_grid,
    State.effects_streams, State.effects_plane, State.effects_power, State.effects_boot]

/-! ### Changes of the map (R442, R492) -/

/-- What a change of the capability map leaves: the boot state, the power state, the link plane, the streams, the repair state but
for the identifier of the distance table, and the engines held out of service. -/
def State.mapSide (s : State) : Boot × Power × Plane × Streams × Reliability × List (Nat × HalfId × Nat × Nat) :=
  (s.boot, s.power, s.plane, s.streams, { s.rel with distanceId := 0 }, s.eng.restarting)

theorem State.mapSide_of_quiet (h : t.quiet = s.quiet) : t.mapSide = s.mapSide := by
  show t.quiet.mapSide = s.quiet.mapSide
  rw [h]

theorem State.takeRepairSem_mapSide (s : State) : s.takeRepairSem.mapSide = s.mapSide := by
  obtain ⟨k, hk⟩ := s.takeRepairSem_eq
  rw [hk]
  rfl

theorem State.dropStaged_mapSide (s : State) : s.dropStaged.mapSide = s.mapSide := by
  unfold State.dropStaged
  split
  · rfl
  · dsimp only
    split <;> rfl

theorem State.cancelArmed_mapSide (s : State) : s.cancelArmed.mapSide = s.mapSide := by
  unfold State.cancelArmed
  split
  · exact State.mapSide_of_quiet (s := { s with cast := { s.cast with armed := none } }) (State.count1_quiet ..)
  · rfl

theorem State.noteCast_mapSide (s : State) (id : DWord) (epoch status instant : Nat) :
    (s.noteCast id epoch status instant).mapSide = s.mapSide := State.mapSide_of_quiet (State.raise_quiet ..)

/-- A staged maquette that fails its recheck is dropped, which no stream, engine or link notices (R442). -/
theorem State.recheck_mapSide (s : State) : s.recheck.mapSide = s.mapSide := by
  have hdrop : ∀ n, ((s.dropStaged.cancelArmed).count1 0x11 0 n).mapSide = s.mapSide := fun n =>
    (State.mapSide_of_quiet (State.count1_quiet ..)).trans ((State.cancelArmed_mapSide _).trans s.dropStaged_mapSide)
  unfold State.recheck
  split
  · rfl
  dsimp only
  split
  · rfl
  split
  · exact (State.noteCast_mapSide ..).trans (hdrop _)
  · exact (State.noteCast_mapSide ..).trans (hdrop _)

theorem State.afterMapChange_mapSide (s : State) (before : List Byte) : (s.afterMapChange before).mapSide = s.mapSide := by
  unfold State.afterMapChange
  split
  · rfl
  · exact (State.recheck_mapSide _).trans rfl

theorem State.dropStaged_notices (s : State) : s.dropStaged.ctl.notices = s.ctl.notices := by
  unfold State.dropStaged
  split
  · rfl
  · dsimp only
    split <;> rfl

theorem State.latched_of_notices {code : Nat} (h : t.ctl.notices = s.ctl.notices) : t.latched code = s.latched code := by
  rw [State.latched_any, State.latched_any, h]

theorem State.cancelArmed_latched {code : Nat} (h : s.latched code = true) : s.cancelArmed.latched code = true := by
  unfold State.cancelArmed
  split
  · exact State.count1_latched (by exact h) ..
  · exact h

theorem State.recheck_latched {code : Nat} (h : s.latched code = true) : s.recheck.latched code = true := by
  have hdrop : ∀ n, ((s.dropStaged.cancelArmed).count1 0x11 0 n).latched code = true := fun n =>
    State.count1_latched (State.cancelArmed_latched ((State.latched_of_notices s.dropStaged_notices).trans h)) ..
  unfold State.recheck
  split
  · exact h
  dsimp only
  split
  · exact h
  split
  · exact State.effects_latched _ _ _ (hdrop _)
  · exact State.effects_latched _ _ _ (hdrop _)

theorem State.afterMapChange_latched {code : Nat} (h : s.latched code = true) (before : List Byte) :
    (s.afterMapChange before).latched code = true := by
  unfold State.afterMapChange
  split
  · exact h
  · exact State.recheck_latched (by exact h)

/-- DEGRADED is noticed for a change of the map, and what follows the change comes after (R442, R492, R496). -/
def State.noteMapChange (s : State) (cause half : Nat) (before : List Byte) : State :=
  (s.takeRepairSem.noteDegraded cause half).afterMapChange before

theorem State.noteMapChange_spec (s : State) (cause half : Nat) (before : List Byte) :
    (s.noteMapChange cause half before).mapSide = s.mapSide ∧ (s.noteMapChange cause half before).latched 21 = true :=
  ⟨(State.afterMapChange_mapSide ..).trans ((State.mapSide_of_quiet (State.raise_quiet ..)).trans s.takeRepairSem_mapSide),
    State.afterMapChange_latched (State.raise_latched ..) _⟩

/-! ### What the map's side shows -/

/-- A field of the repair state other than the distance table's identifier. -/
theorem State.rel_of_mapSide {α : Type} (f : Reliability → α) (hf : ∀ r, f { r with distanceId := 0 } = f r)
    (h : t.mapSide = s.mapSide) : f t.rel = f s.rel := by
  rw [← hf t.rel, ← hf s.rel]
  exact congrArg (fun x => f x.2.2.2.2.1) h

theorem State.bench_of_mapSide (h : t.mapSide = s.mapSide) (b : Byte) : t.rel.bench b = s.rel.bench b :=
  State.rel_of_mapSide (fun r => r.bench b) (fun _ => rfl) h

theorem State.usable_of_mapSide (h : t.mapSide = s.mapSide) (c : CellId) : t.rel.usable c = s.rel.usable c :=
  State.rel_of_mapSide (fun r => r.usable c) (fun _ => rfl) h

theorem State.boot_of_mapSide (h : t.mapSide = s.mapSide) : t.boot = s.boot := congrArg (fun x => x.1) h

theorem State.power_of_mapSide (h : t.mapSide = s.mapSide) : t.power = s.power := congrArg (fun x => x.2.1) h

theorem State.plane_of_mapSide (h : t.mapSide = s.mapSide) : t.plane = s.plane := congrArg (fun x => x.2.2.1) h

theorem State.streams_of_mapSide (h : t.mapSide = s.mapSide) : t.streams = s.streams := congrArg (fun x => x.2.2.2.1) h

theorem State.restarting_of_mapSide (h : t.mapSide = s.mapSide) : t.eng.restarting = s.eng.restarting :=
  congrArg (fun x => x.2.2.2.2.2) h

end Sys2Proof.Machine
end

section
/-! SUPPORT. Hard faults of cells and benches (R265, R470, R476 to R478). -/

namespace Sys2Proof.Machine

variable {s : State} {c : CellId} {b : Byte}

/-! ### Cells that lose their work (R265, R476) -/

theorem aget_mapKeyed {α β : Type} [DecidableEq α] (f : α → Bool) (g : β → β) (k : α) (m : List (α × β)) :
    aget k (m.map (fun e => if f e.1 then (e.1, g e.2) else e)) = (aget k m).map (fun v => if f k then g v else v) := by
  induction m with
  | nil => rfl
  | cons e m ih =>
    obtain ⟨j, v⟩ := e
    by_cases hj : j = k
    · subst hj
      cases hf : f j <;> simp [aget, hf]
    · cases hf : f j <;> simp [aget, hf, hj, ih]

theorem State.loseCells_cell (s : State) (f : CellId → Bool) (d : CellId) :
    (s.loseCells f).cell d = if f d then (s.cell d).lost false else s.cell d := by
  unfold State.cell State.loseCells
  dsimp only
  rw [aget_mapKeyed f (fun x : Cell => x.lost false)]
  cases aget d s.grid.cells with
  | none => cases f d <;> rfl
  | some x => rfl

theorem Reliability.bench_setBench (s : State) (b v d : Byte) :
    (s.setBench b v).rel.bench d = if d = b then v else s.rel.bench d := by
  unfold Reliability.bench State.setBench
  rw [aget_aset]
  split <;> rfl

/-- The gate whose cell has moved to its bench's free spare, before the repair is noted (R476). -/
def State.spareCell (s : State) (c : CellId) : State :=
  (((s.loseCells (fun x => decide (x = c))).restartJudges c).setBench (benchOf c) (BitVec.ofNat 8 (2 + 16 * (c.toNat % 16)))).setCell c
    ((((s.loseCells (fun x => decide (x = c))).restartJudges c).cell c).lost true)

theorem cellHardFault_spare (hu : s.rel.usable c = true) (hused : (s.rel.bench (benchOf c)).getLsbD 1 = false)
    (hfailed : (s.rel.bench (benchOf c)).getLsbD 2 = false) :
    cellHardFault c s = (s.spareCell c).noteSpare 3 (leBytes 2 c.toNat ++ leBytes 1 (c.toNat % 16)) := by
  unfold cellHardFault
  simp only [hu, benchSpareUsed, benchSpareFailed, hused, hfailed, Bool.not_true, Bool.or_self, Bool.false_eq_true, if_false]
  rfl

theorem State.spareCell_self (s : State) (c : CellId) :
    (s.spareCell c).cell c = { slot0 := (s.cell c).slot0, slot1 := (s.cell c).slot1, reloading := true } := by
  have hlost : ((s.loseCells (fun x => decide (x = c))).restartJudges c).cell c = (s.cell c).lost false :=
    (State.loseCells_cell s (fun x => decide (x = c)) c).trans (if_pos (decide_eq_true rfl))
  rw [State.spareCell, State.setCell_cell_self, hlost]
  rfl

theorem State.spareCell_others {d : CellId} (hd : d ≠ c) : (s.spareCell c).cell d = s.cell d := by
  rw [State.spareCell, State.setCell_cell_ne _ hd]
  exact (State.loseCells_cell s (fun x => decide (x = c)) d).trans (if_neg (by simpa using hd))

theorem State.spareCell_bench (d : Byte) :
    (s.spareCell c).rel.bench d = if d = benchOf c then BitVec.ofNat 8 (2 + 16 * (c.toNat % 16)) else s.rel.bench d :=
  Reliability.bench_setBench ..

theorem spareClause (hu : s.rel.usable c = true) (hused : (s.rel.bench (benchOf c)).getLsbD 1 = false)
    (hfailed : (s.rel.bench (benchOf c)).getLsbD 2 = false) :
    ∃ t, exec (.cellHardFault c) s = .next t ∧ t.rel.bench (benchOf c) = BitVec.ofNat 8 (2 + 16 * (c.toNat % 16)) ∧
      t.cell c = { slot0 := (s.cell c).slot0, slot1 := (s.cell c).slot1, reloading := true } ∧
      t.rel.repairs = s.rel.repairs + 1 ∧ t.latched 20 = true ∧ (∀ d, d ≠ c → t.cell d = s.cell d) ∧
      (∀ b, b ≠ benchOf c → t.rel.bench b = s.rel.bench b) ∧ t.plane = s.plane ∧ t.power = s.power ∧ t.boot = s.boot := by
  obtain ⟨hrel, hlatched, hgrid, -, hplane, hpower, hboot⟩ :=
    (s.spareCell c).noteSpare_spec 3 (leBytes 2 c.toNat ++ leBytes 1 (c.toNat % 16))
  have hcell : ∀ d, ((s.spareCell c).noteSpare 3 (leBytes 2 c.toNat ++ leBytes 1 (c.toNat % 16))).cell d = (s.spareCell c).cell d :=
    fun d => by unfold State.cell; rw [hgrid]
  refine ⟨_, congrArg Host.Outcome.next (cellHardFault_spare hu hused hfailed), ?_, ?_, ?_, hlatched, fun d hd => ?_, fun b hb => ?_,
    hplane, hpower, hboot⟩
  · rw [hrel]
    exact (State.spareCell_bench _).trans (if_pos rfl)
  · rw [hcell, State.spareCell_self]
  · rw [hrel]
    rfl
  · rw [hcell, State.spareCell_others hd]
  · rw [hrel]
    exact (State.spareCell_bench _).trans (if_neg hb)

/-! ### Benches that become short (R477, R478) -/

/-- A bench with the bits of the map set, its cells' work lost. -/
def State.benchMarked (s : State) (b bits : Byte) : State :=
  (s.setBench b (s.rel.bench b ||| bits)).loseCells (fun c => decide (benchOf c = b))

theorem State.benchMarked_bench (s : State) (b bits d : Byte) :
    (s.benchMarked b bits).rel.bench d = if d = b then s.rel.bench b ||| bits else s.rel.bench d := Reliability.bench_setBench ..

theorem State.shortBench_spec (s : State) (b : Byte) {bits : Byte} (hbits : bits.getLsbD 0 = true) :
    let t := s.shortBench b bits
    t.rel.bench b = s.rel.bench b ||| bits ∧ (∀ d, benchOf d = b → t.rel.usable d = false) ∧ t.latched 21 = true ∧
      (∀ k, k ≠ b → t.rel.bench k = s.rel.bench k) ∧ t.streams = s.streams ∧ t.plane = s.plane := by
  obtain ⟨hside, hlatched⟩ := (s.benchMarked b bits).noteMapChange_spec 4 (halfCode (benchHalf b)) s.capabilityId
  have hbench := State.bench_of_mapSide hside
  have hown : (s.shortBench b bits).rel.bench b = s.rel.bench b ||| bits :=
    (hbench b).trans ((State.benchMarked_bench ..).trans (if_pos rfl))
  refine ⟨hown, fun d hd => ?_, hlatched, fun k hk => (hbench k).trans ((State.benchMarked_bench ..).trans (if_neg hk)),
    State.streams_of_mapSide (s := s.benchMarked b bits) hside, State.plane_of_mapSide (s := s.benchMarked b bits) hside⟩
  have hshort : benchShort ((s.shortBench b bits).rel.bench (benchOf d)) = true := by
    rw [hd, hown, benchShort, BitVec.getLsbD_or, hbits, Bool.or_true]
  rw [Reliability.usable, hshort]
  rfl

theorem cellHardFault_short (hu : s.rel.usable c = true)
    (hspare : (s.rel.bench (benchOf c)).getLsbD 1 = true ∨ (s.rel.bench (benchOf c)).getLsbD 2 = true) :
    cellHardFault c s = s.shortBench (benchOf c) 0x01#8 := by
  have hspare' : (benchSpareUsed (s.rel.bench (benchOf c)) || benchSpareFailed (s.rel.bench (benchOf c))) = true :=
    Bool.or_eq_true_iff.2 hspare
  unfold cellHardFault
  simp only [hu, hspare', Bool.not_true, Bool.false_eq_true, if_true, if_false]

theorem benchRouterFail_short (h : s.rel.bench b &&& 0x09#8 ≠ 0x09#8) : benchRouterFail b s = s.shortBench b 0x09#8 := if_neg h

/-! ### Images loaded again (R470, R476) -/

theorem foldl_reloading {α : Type} (f : Cell → α → Cell) (hf : ∀ y a, (f y a).reloading = y.reloading) (l : List α) (y : Cell) :
    (l.foldl f y).reloading = y.reloading := by
  induction l generalizing y with
  | nil => rfl
  | cons a l ih => rw [List.foldl_cons, ih, hf]

theorem Cell.load_reloading (x : Cell) (one : Bool) (id : DWord) (m : CellImage) : (x.load one id m).reloading = x.reloading := by
  unfold Cell.load
  rw [foldl_reloading]
  · cases one <;> rfl
  · exact fun _ _ => rfl

theorem Cell.reload_reloading (x : Cell) (p : Policy) (c : CellId) : (x.reload p c).reloading = x.reloading :=
  foldl_reloading _ (fun _ _ => Cell.load_reloading ..) _ x

theorem reloadClause (h : (s.cell c).reloading = true) :
    ∃ t, exec (.cellReloadComplete c) s = .next t ∧ (t.cell c).reloading = false ∧ (∀ d, d ≠ c → t.cell d = s.cell d) ∧
      { t with grid := s.grid } = s ∧ (s.slotPolicies = [] → t.cell c = { s.cell c with reloading := false }) := by
  refine ⟨_, congrArg Host.Outcome.next (if_pos h), ?_, fun d hd => State.setCell_cell_ne _ hd _, rfl, fun hnone => ?_⟩
  · rw [State.setCell_cell_self, foldl_reloading _ (fun _ _ => Cell.reload_reloading ..)]
  · rw [State.setCell_cell_self, hnone]
    rfl

theorem imageRewriteClause {addr w : Nat} {bs : List Byte} (hw : (s.cell c).poisonAt addr 8 = some w)
    (hb : s.imageWord c addr = some bs) :
    exec (.cellImageRewrite c addr) s = .next (s.setCell c ((s.cell c).write addr bs)) := by
  refine congrArg Host.Outcome.next ?_
  unfold cellImageRewrite
  simp only [hw, hb, Option.isNone_some, Bool.false_eq_true, if_false]

end Sys2Proof.Machine
end

section
/-! SUPPORT. Hard faults of engines and welt groups (R479, R482, R483). -/

namespace Sys2Proof.Machine

variable {s : State} {h : HalfId} {d : Bool} {g : Fin 64}

/-! ### Engines (R479) -/

theorem or_bit_ne {v : Byte} {n : Nat} (hn : n < 8) (hv : v.getLsbD n = false) : v ||| (1#8 <<< n) ≠ v := by
  intro heq
  have hset : (v ||| (1#8 <<< n)).getLsbD n = true := by simp [hn]
  rw [heq, hv] at hset
  exact Bool.false_ne_true hset

/-- What the halts of the bound streams leave: the boot, power and repair states, and the engines held out of service. -/
def State.engineSide (s : State) : Boot × Power × Reliability × List (Nat × HalfId × Nat × Nat) :=
  (s.boot, s.power, s.rel, s.eng.restarting)

theorem Work.run_engineSide (w : Work) (s : State) : (w.run s).engineSide = s.engineSide := by
  obtain ⟨hinside, heng⟩ := w.run_inside s
  have hboot : (w.run s).boot = s.boot := by
    have h := congrArg State.boot hinside
    exact h
  have hpower : (w.run s).power = s.power := by
    have h := congrArg State.power hinside
    exact h
  have hrel : (w.run s).rel = s.rel := by
    have h := congrArg State.rel hinside
    exact h
  have hrestarting : (w.run s).eng.restarting = s.eng.restarting := by
    have h := congrArg Engines.restarting heng
    exact h
  rw [State.engineSide, hboot, hpower, hrel, hrestarting]
  rfl

/-- The gate whose map marks an engine failed, held out of service until the next cast. -/
def State.failedEngine (s : State) (rel : Reliability) (e : Nat) (half : HalfId) (unit : Nat) : State :=
  { s with rel := rel, eng := { s.eng with restarting := s.eng.restarting ++ [(e, half, unit, 2 ^ 64)] } }

/-- The gate after an engine's hard fault: its bound streams are halted, and the change of the map is noted. -/
def State.engineFaulted (s : State) (rel : Reliability) (e : Nat) (half : HalfId) (unit : Nat) : State :=
  (((((s.failedEngine rel e half unit).boundStreams e half unit).filter (fun x => !x.2.ended)).foldl
    (fun (t : State) x => (((t.work x.1 x.2).halt 14).closeHalted).run t) (s.failedEngine rel e half unit))).noteMapChange 5
      (halfCode half) s.capabilityId

theorem State.engineFaulted_spec (s : State) (rel : Reliability) (e : Nat) (half : HalfId) (unit : Nat) :
    let t := s.engineFaulted rel e half unit
    (∀ {α : Type} (f : Reliability → α), (∀ r, f { r with distanceId := 0 } = f r) → f t.rel = f rel) ∧ t.latched 21 = true ∧
      (e, half, unit, 2 ^ 64) ∈ t.eng.restarting ∧ t.power = s.power ∧ t.boot = s.boot := by
  have hhalts := foldl_keeps (fun (t : State) (x : SlotId × Stream) => (((t.work x.1 x.2).halt 14).closeHalted).run t) State.engineSide
    (fun _ _ => Work.run_engineSide ..)
    (((s.failedEngine rel e half unit).boundStreams e half unit).filter (fun x => !x.2.ended)) (s.failedEngine rel e half unit)
  obtain ⟨hside, hlatched⟩ := State.noteMapChange_spec
    ((((s.failedEngine rel e half unit).boundStreams e half unit).filter (fun x => !x.2.ended)).foldl
      (fun (t : State) x => (((t.work x.1 x.2).halt 14).closeHalted).run t) (s.failedEngine rel e half unit))
    5 (halfCode half) s.capabilityId
  refine ⟨fun f hf => ?_, hlatched, ?_, ?_, ?_⟩
  · exact (State.rel_of_mapSide f hf hside).trans (congrArg (fun x => f x.2.2.1) hhalts)
  · have hrestarting := (State.restarting_of_mapSide hside).trans (congrArg (fun x => x.2.2.2) hhalts)
    rw [State.engineFaulted, hrestarting]
    exact List.mem_append_right _ List.mem_cons_self
  · exact (State.power_of_mapSide hside).trans (congrArg (fun x => x.2.1) hhalts)
  · exact (State.boot_of_mapSide hside).trans (congrArg (fun x => x.1) hhalts)

theorem engineHardFault_engine {e : Fin 7} {u : Option (Fin 8)} (hu : u = none ∨ e ≠ 0)
    (hne : s.rel.failEngine h e.val none ≠ s.rel) :
    engineHardFault h e u s = s.engineFaulted (s.rel.failEngine h e.val none) e.val h 0xFF := by
  have hunit : (if e.val = 0 then u else none) = none := by
    rcases hu with rfl | he
    · exact ite_self _
    · exact if_neg (fun h0 => he (Fin.ext h0))
  unfold engineHardFault
  simp only [hunit, hne, if_false]
  rfl

theorem engineHardFault_unit {n : Fin 8} (hne : s.rel.failEngine (unitHalf n) 0 (some n) ≠ s.rel) :
    engineHardFault h 0 (some n) s = s.engineFaulted (s.rel.failEngine (unitHalf n) 0 (some n)) 0 (unitHalf n) n.val := by
  unfold engineHardFault
  simp only [Fin.val_zero, if_true, hne, if_false]
  rfl

theorem engineClause (h : HalfId) (e : Fin 7) (u : Option (Fin 8)) (hu : u = none ∨ e ≠ 0) :
    (match h with | .north => s.rel.enginesNorth | .south => s.rel.enginesSouth).getLsbD e.val = false →
    ∃ t, exec (.engineHardFault h e u) s = .next t ∧
      t.rel.enginesNorth = (match h with | .north => s.rel.enginesNorth ||| (1#8 <<< e.val) | .south => s.rel.enginesNorth) ∧
      t.rel.enginesSouth = (match h with | .south => s.rel.enginesSouth ||| (1#8 <<< e.val) | .north => s.rel.enginesSouth) ∧
      t.rel.skiverUnits = s.rel.skiverUnits ∧ t.latched 21 = true ∧ (e.val, h, 0xFF, 2 ^ 64) ∈ t.eng.restarting ∧
      t.power = s.power ∧ t.boot = s.boot := by
  intro hbit
  have hne : s.rel.failEngine h e.val none ≠ s.rel := by
    cases h with
    | north => exact fun heq => or_bit_ne (by omega) hbit (congrArg Reliability.enginesNorth heq)
    | south => exact fun heq => or_bit_ne (by omega) hbit (congrArg Reliability.enginesSouth heq)
  obtain ⟨hrel, hrest⟩ := s.engineFaulted_spec (s.rel.failEngine h e.val none) e.val h 0xFF
  refine ⟨_, congrArg Host.Outcome.next (engineHardFault_engine hu hne), ?_, ?_, ?_, hrest⟩
  · refine (hrel Reliability.enginesNorth (fun _ => rfl)).trans ?_
    cases h <;> rfl
  · refine (hrel Reliability.enginesSouth (fun _ => rfl)).trans ?_
    cases h <;> rfl
  · refine (hrel Reliability.skiverUnits (fun _ => rfl)).trans ?_
    cases h <;> rfl

theorem skiverUnitClause (h : HalfId) (n : Fin 8) (hbit : s.rel.skiverUnits.getLsbD n.val = false) :
    ∃ t, exec (.engineHardFault h 0 (some n)) s = .next t ∧ t.rel.skiverUnits = s.rel.skiverUnits ||| (1#8 <<< n.val) ∧
      t.rel.enginesNorth = s.rel.enginesNorth ∧ t.rel.enginesSouth = s.rel.enginesSouth ∧ t.latched 21 = true ∧
      (0, unitHalf n, n.val, 2 ^ 64) ∈ t.eng.restarting ∧ t.power = s.power ∧ t.boot = s.boot := by
  have hne : s.rel.failEngine (unitHalf n) 0 (some n) ≠ s.rel :=
    fun heq => or_bit_ne n.isLt hbit (congrArg Reliability.skiverUnits heq)
  obtain ⟨hrel, hrest⟩ := s.engineFaulted_spec (s.rel.failEngine (unitHalf n) 0 (some n)) 0 (unitHalf n) n.val
  exact ⟨_, congrArg Host.Outcome.next (engineHardFault_unit hne), hrel Reliability.skiverUnits (fun _ => rfl),
    hrel Reliability.enginesNorth (fun _ => rfl), hrel Reliability.enginesSouth (fun _ => rfl), hrest⟩

/-! ### The welt (R482, R483) -/

theorem weltCopyClause (hr : s.rel.weltRetired.contains (d, g) = false) (hm : s.rel.weltMem ≠ 0) (hf : s.rel.weltSpares d ≠ 0) :
    ∃ t, exec (.weltGroupRetire d g) s = .next t ∧
      t.rel.weltCopy = s.rel.weltCopy ++ [(d, g, s.now + 256, 4 - s.rel.weltSpares d)] ∧
      t.rel.weltSpares d = s.rel.weltSpares d - 1 ∧ t.rel.weltSpares (!d) = s.rel.weltSpares (!d) ∧ { t with rel := s.rel } = s := by
  have hgo : ¬ (s.rel.weltRetired.contains (d, g) = true ∨ s.rel.weltMem = 0) := not_or.2 ⟨by rw [hr]; exact Bool.false_ne_true, hm⟩
  refine ⟨_, congrArg Host.Outcome.next ((if_neg hgo).trans (if_neg hf)), rfl, ?_, ?_, rfl⟩
  · cases d <;> rfl
  · cases d <;> rfl

/-- DEGRADED is entered, and nothing else that a change of the map leaves changes (R496). -/
theorem State.degrade_mapSide (s : State) (cause half : Nat) :
    (s.degrade cause half).mapSide = ({ s with rel := { s.rel with degraded := true } } : State).mapSide := by
  unfold State.degrade
  split
  · next hdeg => rw [← hdeg]
  · exact State.mapSide_of_quiet (State.raise_quiet ..)

/-- The gate whose welt has lost a lane of the engine and memory channel to a group (R483). -/
def State.narrowed (s : State) (d : Bool) (g : Fin 64) : State :=
  { s with freeUse := s.freeUse + 1,
           rel := { s.rel with weltMem := s.rel.weltMem - 1, weltRetired := s.rel.weltRetired ++ [(d, g)], degraded := true } }

theorem State.narrowWelt_mapSide (s : State) (d : Bool) (g : Fin 64) : (s.narrowWelt d g).mapSide = (s.narrowed d g).mapSide := by
  unfold State.narrowWelt
  dsimp only
  rw [State.afterMapChange_mapSide, State.degrade_mapSide]
  obtain ⟨k, hk⟩ := State.takeRepairSem_eq _
  rw [hk]
  rfl

theorem weltNarrowsClause (hr : s.rel.weltRetired.contains (d, g) = false) (hm : s.rel.weltMem ≠ 0) (hf : s.rel.weltSpares d = 0) :
    ∃ t, exec (.weltGroupRetire d g) s = .next t ∧ t.rel.weltMem = s.rel.weltMem - 1 ∧ t.rel.degraded = true ∧
      t.rel.weltRetired = s.rel.weltRetired ++ [(d, g)] ∧ t.streams = s.streams ∧ t.plane = s.plane := by
  have hgo : ¬ (s.rel.weltRetired.contains (d, g) = true ∨ s.rel.weltMem = 0) := not_or.2 ⟨by rw [hr]; exact Bool.false_ne_true, hm⟩
  have hside := s.narrowWelt_mapSide d g
  exact ⟨_, congrArg Host.Outcome.next ((if_neg hgo).trans (if_pos hf)),
    State.rel_of_mapSide Reliability.weltMem (fun _ => rfl) hside, State.rel_of_mapSide Reliability.degraded (fun _ => rfl) hside,
    State.rel_of_mapSide Reliability.weltRetired (fun _ => rfl) hside, State.streams_of_mapSide (s := s.narrowed d g) hside,
    State.plane_of_mapSide (s := s.narrowed d g) hside⟩

theorem weltTakeoverClause {e : Bool × Fin 64 × Nat × Nat}
    (he : s.rel.weltCopy.find? (fun (e : Bool × Fin 64 × Nat × Nat) => decide (e.1 = d) && decide (e.2.2.1 ≤ s.now)) = some e) :
    ∃ t, exec (.weltSpareTakeover d) s = .next t ∧ t.rel.weltCopy = s.rel.weltCopy.erase e ∧
      t.rel.repairs = s.rel.repairs + 1 ∧ t.latched 20 = true ∧ t.streams = s.streams ∧ t.plane = s.plane ∧ t.grid = s.grid := by
  obtain ⟨hrel, hlatched, hgrid, hstreams, hplane, -, -⟩ :=
    ({ s with rel := { s.rel with weltCopy := s.rel.weltCopy.erase e } } : State).noteSpare_spec 5
      (leBytes 1 (directionCode d) ++ leBytes 1 e.2.1.val ++ leBytes 1 e.2.2.2)
  refine ⟨_, congrArg Host.Outcome.next ?_, ?_, ?_, hlatched, hstreams, hplane, hgrid⟩
  · unfold weltSpareTakeover
    simp only [he]
  · rw [hrel]
  · rw [hrel]

/-- Settles O30: cells and benches, then engines and the welt. -/
theorem hardFaults : Obligations.HardFaults := by
  unfold Obligations.HardFaults
  refine ⟨fun s c => ⟨spareClause, fun hu hspare => ?_, fun b hb => ?_, reloadClause, fun _ _ _ => imageRewriteClause⟩,
    fun s => ⟨engineClause, skiverUnitClause, fun _ _ => weltCopyClause,
      fun _ _ => weltNarrowsClause, fun _ _ => weltTakeoverClause⟩⟩
  · exact ⟨_, congrArg Host.Outcome.next (cellHardFault_short hu hspare), s.shortBench_spec _ rfl⟩
  · exact ⟨_, congrArg Host.Outcome.next (benchRouterFail_short hb), s.shortBench_spec _ rfl⟩

end Sys2Proof.Machine
end

section
/-! SUPPORT. The instructions of a bridle program on a lane that stands at them (R327, R329, R331, R334). -/

namespace Sys2Proof.Machine

variable {s : State} {h : HalfId} {l : Fin 16} {r : LaneRun} {w : DWord} {a b : LaneReg}

/-- The state after an instruction that leaves the lane's run as `x`, with one step counted. -/
abbrev State.laneNext (s : State) (h : HalfId) (l : Fin 16) (x : LaneRun) : State :=
  (s.setLane h l { s.lane h l with run := some x }).count1 0x0F 0 1

/-! ### Loads, arithmetic and branches (R329, R331) -/

/-- A lane at an instruction goes past it and does what the instruction does. -/
theorem State.next_onLane_at (hat : s.LaneAt h l r w) (f : LaneRun → LaneRun) :
    (Host.Outcome.next (s.onLane h l w f) : Host.Outcome State Fault Refusal) =
      .next (s.laneNext h l (f { r with pc := r.pc + 1 })) :=
  congrArg Host.Outcome.next (State.onLane_at hat f)

theorem LaneRun.branch_decide (x : LaneRun) {p : Prop} (i : Decidable p) (k : Nat) :
    x.branch (decide p) k = { x with pc := if p then x.pc + k else x.pc } := by
  rw [LaneRun.branch]
  by_cases hp : p <;> simp only [hp, decide_true, decide_false, if_true, if_false, Bool.false_eq_true]

/-- A branch whose test says whether `p` holds. -/
theorem State.laneBranch_at (hat : s.LaneAt h l r w) {test : LaneRun → Bool} {k : Nat} {p : Prop} (i : Decidable p)
    (htest : test { r with pc := r.pc + 1 } = decide p) :
    (Host.Outcome.next (s.onLane h l w (fun x => x.branch (test x) k)) : Host.Outcome State Fault Refusal) =
      .next (s.laneNext h l { r with pc := if p then r.pc + 1 + k else r.pc + 1 }) := by
  rw [State.next_onLane_at hat, htest, LaneRun.branch_decide]

/-- `bbit` reads its offset from 12 bits of `imm`, which hold every offset of R329. -/
theorem exec_bridleBbit_at {bit : BitVec 5} {k : Nat} (hk : k ≤ 4095)
    (hat : s.LaneAt h l r (bridleWord 0x2C 0 a (bit.setWidth 4) (BitVec.ofNat 32 (k + (if bit.getLsbD 4 then 2 ^ 16 else 0))))) :
    exec (.bridleBbit h l a bit k) s =
      .next (s.laneNext h l { r with pc := if (r.get a).getLsbD bit.toNat = true then r.pc + 1 + k else r.pc + 1 }) := by
  have hmod : k % 4096 = k := Nat.mod_eq_of_lt (Nat.lt_succ_of_le hk)
  change execBridleBbit h l a bit k s = _
  rw [execBridleBbit, hmod]
  exact State.laneBranch_at hat _ Bool.decide_eq_true.symm

/-- Settles O49, instruction by instruction: a value written to d, or a branch by its test. -/
theorem bridleArithmeticAndBranches : Obligations.BridleArithmeticAndBranches := by
  unfold Obligations.BridleArithmeticAndBranches
  refine ⟨fun s h l r d a b => ⟨fun _ hat => State.next_onLane_at hat _, fun _ hat => State.next_onLane_at hat _,
      fun hat => State.next_onLane_at hat _, fun hat => State.next_onLane_at hat _, fun hat => State.next_onLane_at hat _,
      fun hat => State.next_onLane_at hat _, fun hat => State.next_onLane_at hat _, fun hat => State.next_onLane_at hat _,
      fun hat => State.next_onLane_at hat _⟩,
    fun s h l r a b k _ hk => ⟨fun hat => State.laneBranch_at hat _ Bool.decide_eq_true.symm,
      fun hat => State.laneBranch_at hat _ Bool.decide_eq_true.symm,
      fun hat => State.laneBranch_at hat _ Bool.decide_eq_true.symm, fun hat => State.laneBranch_at hat _ rfl,
      fun hat => State.laneBranch_at hat _ decide_not.symm, fun hat => State.laneBranch_at hat _ rfl,
      fun hat => State.laneBranch_at hat _ (BitVec.ule_eq_not_ult ..).symm, fun _ hat => exec_bridleBbit_at hk hat⟩⟩

/-! ### Actions (R334) -/

/-- The state after an action instruction that leaves the verdict's actions as `y`. -/
abbrev State.laneActs (s : State) (h : HalfId) (l : Fin 16) (r : LaneRun) (y : Actions) : State :=
  s.laneNext h l { r with acts := y, pc := r.pc + 1 }

/-- The state after an action instruction whose action is dropped and counted (R334, R346). -/
abbrev State.laneDrops (s : State) (h : HalfId) (l : Fin 16) (r : LaneRun) : State :=
  (s.laneActs h l r { r.acts with dropped := r.acts.dropped + 1 }).effects
    (bridleEvent 8 (((aget r.job.slot s.streams.table).map (fun st => st.handle)).getD 0#48) r.job.index s.now)

section
variable {f : LaneRun → Actions}

/-- An action instruction, whose operands do not depend on the program counter, that drops nothing. -/
theorem State.actOn_keeps {y : Actions} (hat : s.LaneAt h l r w) (hpc : f { r with pc := r.pc + 1 } = f r) (hf : f r = y)
    (hd : y.dropped = r.acts.dropped) :
    (Host.Outcome.next (s.actOn h l w f) : Host.Outcome State Fault Refusal) = .next (s.laneActs h l r y) := by
  rw [State.actOn_at hat f, hpc, hf]
  exact congrArg Host.Outcome.next (if_neg (Nat.not_lt.2 hd.le))

/-- An action instruction, whose operands do not depend on the program counter, that drops its action. -/
theorem State.actOn_drops (hat : s.LaneAt h l r w) (hpc : f { r with pc := r.pc + 1 } = f r)
    (hf : f r = { r.acts with dropped := r.acts.dropped + 1 }) :
    (Host.Outcome.next (s.actOn h l w f) : Host.Outcome State Fault Refusal) = .next (s.laneDrops h l r) := by
  rw [State.actOn_at hat f, hpc, hf]
  exact congrArg Host.Outcome.next (if_pos (Nat.lt_succ_self _))

end

/-- A REDACT of length 0 adds nothing, and a third one is dropped. -/
theorem exec_bridleRedact_at (hat : s.LaneAt h l r (bridleWord 0x42 0 a b 0#32)) :
    exec (.bridleRedact h l a b) s =
      if (r.get b).toNat = 0 then .next (s.laneActs h l r r.acts)
      else if 2 ≤ r.acts.redacts.length then .next (s.laneDrops h l r)
      else .next (s.laneActs h l r
        { r.acts with redacts := r.acts.redacts ++ [((r.get a).toNat, min 4096 (r.get b).toNat)] }) := by
  split_ifs with hzero hfull
  · exact State.actOn_keeps hat rfl (if_pos hzero) rfl
  · exact State.actOn_drops hat rfl ((if_neg hzero).trans (if_pos hfull))
  · exact State.actOn_keeps hat rfl ((if_neg hzero).trans (if_neg hfull)) rfl

/-- A BIAS whose scale is NaN or infinite is dropped. -/
theorem exec_bridleBias_at {vector : Half} (hat : s.LaneAt h l r (bridleWord 0x45 0 a 0 (vector.setWidth 32))) :
    exec (.bridleBias h l a vector) s =
      if f32Finite (r.get a) then .next (s.laneActs h l r { r.acts with bias := some (vector, r.get a) })
      else .next (s.laneDrops h l r) := by
  split_ifs with hfinite
  · exact State.actOn_keeps hat rfl (if_pos hfinite) rfl
  · exact State.actOn_drops hat rfl (if_neg hfinite)

/-- A ninth TAG is dropped. -/
theorem exec_bridleTag_at {tag : Half} (hat : s.LaneAt h l r (bridleWord 0x46 0 0 0 (tag.setWidth 32))) :
    exec (.bridleTag h l tag) s =
      if 8 ≤ r.acts.tags.length then .next (s.laneDrops h l r)
      else .next (s.laneActs h l r { r.acts with tags := r.acts.tags ++ [tag] }) := by
  split_ifs with hfull
  · exact State.actOn_drops hat rfl (if_pos hfull)
  · exact State.actOn_keeps hat rfl (if_neg hfull) rfl

/-- Settles O50, instruction by instruction: HOLD, REWIND and HALT never drop; REDACT, BIAS and TAG have limits. -/
theorem bridleActions : Obligations.BridleActions := by
  unfold Obligations.BridleActions
  exact fun s h l r a b => ⟨fun _ _ hat => State.actOn_keeps hat rfl rfl rfl, exec_bridleRedact_at,
    fun _ _ _ hat => State.actOn_keeps hat rfl rfl rfl, fun hat => State.actOn_keeps hat rfl rfl rfl,
    fun _ => exec_bridleBias_at, fun _ => exec_bridleTag_at⟩

end Sys2Proof.Machine
end

section
/-! SUPPORT. What sending a packet leaves of the link plane (R359, R372, R375 to R378): all but outputs, the inbox and, for a
missed copy, the completion records; and of a link all but its output, which an UP link alone gets. -/

namespace Sys2Proof.Machine

variable (s : State) {j k : LinkId}

/-! ### The plane besides links, inbox and completion records -/

/-- The link plane without what sending a packet or reporting a missed copy writes. -/
def State.still (s : State) : Plane := { s.plane with links := [], inbox := [], completions := [] }

theorem State.still_of_plane {s t : State} (h : t.plane = s.plane) : t.still = s.still := by unfold State.still; rw [h]

@[simp] theorem State.effects_still (es : List Effect) : (s.effects es).still = s.still := State.still_of_plane (s.effects_plane es)
@[simp] theorem State.count1_still (g i p : Nat) : (s.count1 g i p).still = s.still := s.effects_still _
@[simp] theorem State.countN_still (g i p n : Nat) : (s.countN g i p n).still = s.still := s.effects_still _
@[simp] theorem State.linkRecord_still (kind : Nat) (link : Byte) (peer : NodeId) (slot lane : Nat) :
    (s.linkRecord kind link peer slot lane).still = s.still := s.effects_still _
@[simp] theorem State.setLink_still (k : LinkId) (l : Link) : (s.setLink k l).still = s.still := rfl

@[simp] theorem State.enqueueLink_still (k : LinkId) (p : Packet) (start : Nat) : (s.enqueueLink k p start).still = s.still := by
  unfold State.enqueueLink
  dsimp only
  split <;> simp

@[simp] theorem State.offerLink_still (k : LinkId) (p : Packet) (start : Nat) : (s.offerLink k p start).still = s.still := by
  unfold State.offerLink
  split <;> simp

/-! ### A packet on its way -/

@[simp] theorem State.routesAt_link (stamp : Nat) (k : LinkId) : (s.routesAt stamp).link k = s.link k := by
  unfold State.routesAt
  repeat' split
  all_goals rfl

theorem State.up_of_candidates {n : NodeId} (h : k ∈ s.candidates n) : (s.link k).state = .up := by
  obtain ⟨c, -, hc⟩ := List.mem_filterMap.1 h
  obtain ⟨hup, hk⟩ := Option.ite_none_right_eq_some.1 hc
  obtain rfl := Option.some.inj hk
  simpa [State.linkUp] using (Bool.and_eq_true_iff.1 hup).2

/-- A packet is forwarded on one of its candidates, which is UP, or counted as one without a route (R359). -/
theorem State.forward_cases (p : Packet) (stamp start : Nat) :
    s.forward p stamp start = s.count1 0x02 0 0 ∨
      ∃ k, (s.link k).state = .up ∧ s.forward p stamp start = s.offerLink k p start := by
  have hup : ∀ k ∈ (s.routesAt stamp).candidates p.hdr.dest, (s.link k).state = .up := fun k hk =>
    s.routesAt_link stamp k ▸ State.up_of_candidates _ hk
  unfold State.forward
  split
  · exact .inl rfl
  · next k ks hc =>
    rw [hc] at hup
    have hk := hup k (List.mem_cons_self ..)
    split
    · exact .inr ⟨k, hk, rfl⟩
    · refine .inr ⟨_, List.foldlRecOn ks _ (motive := fun j => (s.link j).state = .up) hk fun b hb j hj => ?_, rfl⟩
      split
      · exact hup j (List.mem_cons_of_mem _ hj)
      · exact hb

/-- A packet for the own node waits for a gate function or goes to the host; the plane takes no more than the former. -/
theorem State.deliver_plane (a : Arrival) : ∃ l, (s.deliver a).plane = { s.plane with inbox := l } := by
  have hgap : (if a.pkt.hdr.gap then s.count1 0x02 0 11 else s).plane = s.plane := by
    split
    · exact s.effects_plane _
    · rfl
  unfold State.deliver
  dsimp only
  generalize (if a.pkt.hdr.gap then s.count1 0x02 0 11 else s) = u at hgap
  split
  · exact ⟨u.plane.inbox ++ [a], by rw [← hgap]; rfl⟩
  · exact ⟨s.plane.inbox, by rw [State.offerBulk_plane, hgap]⟩

@[simp] theorem State.forward_still (p : Packet) (stamp start : Nat) : (s.forward p stamp start).still = s.still := by
  rcases s.forward_cases p stamp start with h | ⟨k, -, h⟩ <;> rw [h]
  · exact s.count1_still ..
  · exact s.offerLink_still ..

@[simp] theorem State.deliver_still (a : Arrival) : (s.deliver a).still = s.still := by
  obtain ⟨l, h⟩ := s.deliver_plane a
  unfold State.still
  rw [h]

@[simp] theorem State.deliver_link (a : Arrival) (j : LinkId) : (s.deliver a).link j = s.link j := by
  obtain ⟨l, h⟩ := s.deliver_plane a
  unfold State.link
  rw [h]

@[simp] theorem State.sendRouted_still (dest : NodeId) (port : Byte) (h : BitVec 48) (b : List Byte) :
    (s.sendRouted dest port h b).still = s.still := by
  unfold State.sendRouted
  split <;> simp

@[simp] theorem State.sendLocal_still (k : LinkId) (port : Byte) (b : List Byte) : (s.sendLocal k port b).still = s.still :=
  s.offerLink_still ..

@[simp] theorem State.reportMiss_still (g : Nat) (p : Packet) (reason : Nat) (m : BitVec 256) :
    (s.reportMiss g p reason m).still = s.still := by
  unfold State.reportMiss
  split
  · split
    · exact s.count1_still ..
    · rfl
  · exact s.sendRouted_still ..

/-! ### A link besides its output -/

/-- A link without its output. -/
def State.record (s : State) (j : LinkId) : Link := { s.link j with out := {} }

theorem State.record_of_link {s t : State} (h : t.link j = s.link j) : t.record j = s.record j := by unfold State.record; rw [h]

/-- What a reading of a link sees without its output, two states that agree on that agree on. -/
theorem State.of_record {α : Type} {t : State} (f : Link → α) (hf : ∀ l : Link, f l = f { l with out := {} })
    (h : t.record j = s.record j) : f (t.link j) = f (s.link j) :=
  (hf _).trans ((congrArg f h).trans (hf _).symm)

@[simp] theorem State.offerLink_record (k : LinkId) (p : Packet) (start : Nat) (j : LinkId) :
    (s.offerLink k p start).record j = s.record j := by
  obtain ⟨⟨o, hself⟩, hother⟩ := s.offerLink_link k p start
  by_cases hj : j = k
  · subst hj
    unfold State.record
    rw [hself]
  · exact State.record_of_link (hother j hj)

@[simp] theorem State.sendLocal_record (k : LinkId) (port : Byte) (b : List Byte) (j : LinkId) :
    (s.sendLocal k port b).record j = s.record j := s.offerLink_record ..

@[simp] theorem State.forward_record (p : Packet) (stamp start : Nat) (j : LinkId) :
    (s.forward p stamp start).record j = s.record j := by
  rcases s.forward_cases p stamp start with h | ⟨k, -, h⟩ <;> rw [h]
  · exact State.record_of_link (s.count1_link ..)
  · exact s.offerLink_record ..

@[simp] theorem State.sendRouted_record (dest : NodeId) (port : Byte) (h : BitVec 48) (b : List Byte) (j : LinkId) :
    (s.sendRouted dest port h b).record j = s.record j := by
  unfold State.sendRouted
  split
  · exact State.record_of_link (s.deliver_link ..)
  · exact s.forward_record ..

@[simp] theorem State.reportMiss_record (g : Nat) (p : Packet) (reason : Nat) (m : BitVec 256) (j : LinkId) :
    (s.reportMiss g p reason m).record j = s.record j := by
  unfold State.reportMiss
  split
  · split
    · exact State.record_of_link (s.count1_link ..)
    · rfl
  · exact s.sendRouted_record ..

@[simp] theorem State.branchGap_link (g : Nat) (k j : LinkId) : (s.branchGap g k).link j = s.link j := by
  unfold State.branchGap
  split <;> rfl

@[simp] theorem State.branchMiss_record (g : Nat) (k : LinkId) (p : Packet) (m : BitVec 256) (j : LinkId) :
    (s.branchMiss g k p m).record j = s.record j := by
  unfold State.branchMiss
  rw [State.reportMiss_record, State.record_of_link (State.branchGap_link ..), State.record_of_link (s.count1_link ..)]

/-! ### A link that is not UP gets nothing -/

theorem State.forward_link_of_notUp (h : (s.link k).state ≠ .up) (p : Packet) (stamp start : Nat) :
    (s.forward p stamp start).link k = s.link k := by
  rcases s.forward_cases p stamp start with hf | ⟨j, hj, hf⟩ <;> rw [hf]
  · exact s.count1_link ..
  · exact (s.offerLink_link j p start).2 k fun e => h (e ▸ hj)

theorem State.sendRouted_link_of_notUp (h : (s.link k).state ≠ .up) (dest : NodeId) (port : Byte) (hd : BitVec 48) (b : List Byte) :
    (s.sendRouted dest port hd b).link k = s.link k := by
  unfold State.sendRouted
  split
  · exact s.deliver_link ..
  · exact s.forward_link_of_notUp h ..

theorem State.reportMiss_link_of_notUp (h : (s.link k).state ≠ .up) (g : Nat) (p : Packet) (reason : Nat) (m : BitVec 256) :
    (s.reportMiss g p reason m).link k = s.link k := by
  unfold State.reportMiss
  split
  · split
    · exact s.count1_link ..
    · rfl
  · exact s.sendRouted_link_of_notUp h ..

theorem State.branchMiss_link_of_notUp (h : (s.link k).state ≠ .up) (g : Nat) (j : LinkId) (p : Packet) (m : BitVec 256) :
    (s.branchMiss g j p m).link k = s.link k := by
  have hlink : ((s.count1 0x02 0 7).branchGap g j).link k = s.link k := (State.branchGap_link ..).trans (s.count1_link ..)
  exact (State.reportMiss_link_of_notUp _ (hlink.symm ▸ h) ..).trans hlink

theorem missRetained_link_of_notUp (h : (s.link k).state ≠ .up) (j : LinkId) (rs : List Retained) :
    (missRetained j rs s).link k = s.link k := by
  unfold missRetained
  induction rs generalizing s with
  | nil => rfl
  | cons r rs ih =>
    have hlink := s.branchMiss_link_of_notUp h r.group j r.pkt r.members
    exact (ih _ (hlink.symm ▸ h)).trans hlink

/-! ### Gaps of branches (R375, R376) -/

/-- Remembering a gap of a branch changes nothing else. -/
theorem State.branchGap_eq (g : Nat) (k : LinkId) :
    ∃ l, s.branchGap g k = s.withPlane { s.plane with gapBranch := l } ∧ ∀ x, x ∈ l ↔ x ∈ s.plane.gapBranch ∨ x = (g, k) := by
  unfold State.branchGap
  split
  · next h => exact ⟨s.plane.gapBranch, rfl, fun x => ⟨.inl, fun hx => hx.elim id fun e => e ▸ List.contains_iff_mem.1 h⟩⟩
  · exact ⟨s.plane.gapBranch ++ [(g, k)], rfl, fun x => by simp⟩

theorem State.branchGap_mem (g : Nat) (k : LinkId) : (g, k) ∈ (s.branchGap g k).plane.gapBranch := by
  obtain ⟨l, h, hl⟩ := s.branchGap_eq g k
  rw [h]
  exact (hl _).2 (.inr rfl)

@[simp] theorem State.branchGap_fences (g : Nat) (k : LinkId) : (s.branchGap g k).plane.fences = s.plane.fences := by
  obtain ⟨l, h, -⟩ := s.branchGap_eq g k
  rw [h]
  rfl

@[simp] theorem State.branchGap_lanes (g : Nat) (k : LinkId) : (s.branchGap g k).plane.lanes = s.plane.lanes := by
  obtain ⟨l, h, -⟩ := s.branchGap_eq g k
  rw [h]
  rfl

end Sys2Proof.Machine
end

section
/-! SUPPORT. The boundaries of NODE_FENCE, GROUP_ALLOC, GROUP_FREE and TENANT_BUDGET (R376, R495, R518). -/

namespace Sys2Proof.Machine

variable {s u : State} {w : Waiting} {k : LinkId}

/-- A command taken off at its boundary and answered from a state that differs by what sending packets writes. -/
theorem State.finished_of_inside (h : u.inside = s.popWaiting.inside) (w : Waiting) (status : Nat) (body : List Byte) :
    s.Finished (u.answerFrom w.from? status body) w status body ∧ (u.answerFrom w.from? status body).besides = s.besides :=
  have hkeeps {α : Type} (f : State → α) (hf : ∀ v : State, f v = f v.inside) : f u = f s.popWaiting := State.of_inside f hf h
  ⟨State.finished_answerFrom (hkeeps (fun v => v.ctl.waiting) fun _ => rfl) (hkeeps (fun v => v.ctl.mbox) fun _ => rfl) status body,
    (State.answerFrom_besides ..).trans (hkeeps State.besides fun _ => rfl)⟩

/-! ### Fences (R376) -/

@[simp] theorem reportFenced_fences (s : State) (g : Nat) (k : LinkId) (p : Packet) (m : BitVec 256) :
    ((s.branchGap g k).reportMiss g p 1 m).plane.fences = s.plane.fences :=
  (congrArg Plane.fences (State.reportMiss_still _ g p 1 m)).trans (s.branchGap_fences g k)

@[simp] theorem fenceLink_fences (k : LinkId) (s : State) : (fenceLink k s).plane.fences = s.plane.fences := by
  unfold fenceLink
  dsimp only
  exact (foldl_keeps _ (fun t => t.plane.fences) (fun t _ => reportFenced_fences t ..) _ _).trans
    (foldl_keeps _ (fun t => t.plane.fences) (fun t _ => reportFenced_fences t ..) _ _)

@[simp] theorem fenceLink_inside (k : LinkId) (s : State) : (fenceLink k s).inside = s.inside := by
  unfold fenceLink
  dsimp only
  rw [foldl_inside _ (fun t r => by simp), foldl_inside _ (fun t q => by simp), State.setLink_inside]

theorem fenceStands (h : s.dueWaiting 0x0401 = some w) (hf : s.plane.fences.contains (nodeField w.body 0) = false)
    (hop : field w.body 2 1 = 1) :
    ∃ t, exec .nodeFenceCommit s = .next t ∧ s.Finished t w Status.ok (leBytes 8 w.due) ∧
      t.plane.fences = s.plane.fences ++ [nodeField w.body 0] ∧ t.besides = s.besides := by
  let v : State := s.popWaiting.withPlane { s.plane with fences := s.plane.fences ++ [nodeField w.body 0] }
  have hrun : ∃ ks : List LinkId,
      commitFence s = (ks.foldl (fun t k => fenceLink k t) v).answerFrom w.from? Status.ok (leBytes 8 w.due) := by
    unfold commitFence
    simp only [h, hf, if_pos hop, Bool.false_eq_true, if_false]
    exact ⟨_, rfl⟩
  obtain ⟨ks, hrun⟩ := hrun
  obtain ⟨hfin, hbes⟩ := State.finished_of_inside (s := s) (u := ks.foldl (fun t k => fenceLink k t) v)
    (foldl_inside _ (fun t k => fenceLink_inside k t) ks v) w Status.ok (leBytes 8 w.due)
  refine ⟨_, congrArg Host.Outcome.next hrun, hfin, ?_, hbes⟩
  rw [State.answerFrom_plane]
  exact foldl_keeps _ (fun t => t.plane.fences) (fun t k => fenceLink_fences k t) ks v

/-- The branches of every group whose link leads to a node. -/
def State.branchesTo (s : State) (node : NodeId) : List (Nat × LinkId) :=
  s.plane.groups.flatMap fun e => (e.2.branches.filter fun b => s.leadsTo b.out node).map fun b => (e.1, b.out)

theorem State.mem_branchesTo {node : NodeId} {x : Nat × LinkId} :
    x ∈ s.branchesTo node ↔ ∃ e, (x.1, e) ∈ s.plane.groups ∧ ∃ b ∈ e.branches, s.leadsTo b.out node = true ∧ b.out = x.2 := by
  obtain ⟨g, j⟩ := x
  simp only [State.branchesTo, List.mem_flatMap, List.mem_map, List.mem_filter, Prod.exists, Prod.mk.injEq]
  constructor
  · rintro ⟨g, e, he, b, ⟨hb, hl⟩, rfl, rfl⟩
    exact ⟨e, he, b, hb, hl, rfl⟩
  · rintro ⟨e, he, b, hb, hl, rfl⟩
    exact ⟨g, e, he, b, ⟨hb, hl⟩, rfl, rfl⟩

theorem unfenceLinks_eq (node : NodeId) (s : State) :
    unfenceLinks node s = (s.branchesTo node).foldl (fun t x => t.branchGap x.1 x.2) s := by
  simp only [unfenceLinks, State.branchesTo, List.foldl_flatMap, List.foldl_map]

/-- Remembering gaps of branches changes nothing else. -/
theorem foldl_branchGap (l : List (Nat × LinkId)) (s : State) :
    ∃ gs, l.foldl (fun t x => t.branchGap x.1 x.2) s = s.withPlane { s.plane with gapBranch := gs } ∧
      ∀ x, x ∈ gs ↔ x ∈ s.plane.gapBranch ∨ x ∈ l := by
  induction l generalizing s with
  | nil => exact ⟨s.plane.gapBranch, rfl, fun x => by simp⟩
  | cons y l ih =>
    obtain ⟨g1, h1, hm1⟩ := s.branchGap_eq y.1 y.2
    obtain ⟨gs, h, hm⟩ := ih (s.branchGap y.1 y.2)
    refine ⟨gs, ?_, fun x => ?_⟩
    · rw [List.foldl_cons, h, h1]
      rfl
    · rw [hm, h1, List.mem_cons, ← or_assoc]
      exact or_congr (hm1 x) Iff.rfl

theorem fenceFalls (h : s.dueWaiting 0x0401 = some w) (hf : s.plane.fences.contains (nodeField w.body 0) = true)
    (hop : field w.body 2 1 ≠ 1) :
    ∃ t, exec .nodeFenceCommit s = .next t ∧ s.Finished t w Status.ok (leBytes 8 w.due) ∧
      t.plane = { s.plane with fences := s.plane.fences.filter (fun n => n ≠ nodeField w.body 0), gapBranch := t.plane.gapBranch } ∧
      (∀ g e b, (g, e) ∈ s.plane.groups → b ∈ e.branches → s.leadsTo b.out (nodeField w.body 0) = true →
        (g, b.out) ∈ t.plane.gapBranch) ∧
      (∀ x ∈ s.plane.gapBranch, x ∈ t.plane.gapBranch) ∧
      (∀ x ∈ t.plane.gapBranch, x ∈ s.plane.gapBranch ∨ s.leadsTo x.2 (nodeField w.body 0) = true) ∧ t.besides = s.besides := by
  let u : State := { s.popWaiting with plane := { s.plane with fences := s.plane.fences.filter (fun n => n ≠ nodeField w.body 0) } }
  obtain ⟨gs, hgs, hmem⟩ := foldl_branchGap (u.branchesTo (nodeField w.body 0)) u
  have hrun : commitFence s = (u.withPlane { u.plane with gapBranch := gs }).answerFrom w.from? Status.ok (leBytes 8 w.due) := by
    rw [← hgs, ← unfenceLinks_eq]
    unfold commitFence
    simp only [h, hf, if_neg hop, if_true]
    rfl
  obtain ⟨hfin, hbes⟩ := State.finished_of_inside (s := s) (u := u.withPlane { u.plane with gapBranch := gs }) rfl w Status.ok
    (leBytes 8 w.due)
  refine ⟨_, congrArg Host.Outcome.next hrun, hfin, ?_, ?_, ?_, ?_, hbes⟩ <;> rw [State.answerFrom_plane]
  · rfl
  · exact fun g e b he hb hl => (hmem (g, b.out)).2 (.inr (State.mem_branchesTo.2 ⟨e, he, b, hb, hl, rfl⟩))
  · exact fun x hx => (hmem x).2 (.inl hx)
  · intro x hx
    refine ((hmem x).1 hx).imp_right fun hx => ?_
    obtain ⟨e, -, b, -, hl, hb⟩ := State.mem_branchesTo.1 hx
    exact hb ▸ hl

theorem fenceAlready (h : s.dueWaiting 0x0401 = some w)
    (hop : s.plane.fences.contains (nodeField w.body 0) = true ↔ field w.body 2 1 = 1) :
    ∃ t, exec .nodeFenceCommit s = .next t ∧ s.Finished t w Status.alreadyDone (leBytes 8 w.due) ∧ t.plane = s.plane ∧
      t.besides = s.besides := by
  have hrun : commitFence s = s.popWaiting.answerFrom w.from? Status.alreadyDone (leBytes 8 w.due) := by
    unfold commitFence
    simp only [h]
    by_cases ho : field w.body 2 1 = 1
    · simp only [if_pos ho, if_pos (hop.2 ho)]
    · simp only [if_neg ho, if_neg (mt hop.1 ho)]
  obtain ⟨hfin, hbes⟩ := State.finished_of_inside (s := s) rfl w Status.alreadyDone (leBytes 8 w.due)
  exact ⟨_, congrArg Host.Outcome.next hrun, hfin, State.answerFrom_plane .., hbes⟩

/-! ### Groups (R518) -/

/-- The free group found is the lowest. -/
theorem State.freeGroup_eq {g : Nat} (hg : g < 4096) (hlow : ∀ j, j < g → s.group? j ≠ none) (hfree : s.group? g = none) :
    s.freeGroup = some g := by
  unfold State.freeGroup
  rw [List.find?_range_eq_some]
  exact ⟨by simp [hfree], List.mem_range.2 hg, fun j hj => by simpa [Option.isSome_iff_ne_none] using hlow j hj⟩

theorem State.freeGroup_none (h : ∀ g, g < 4096 → s.group? g ≠ none) : s.freeGroup = none := by
  refine List.find?_eq_none.2 fun g hg => ?_
  simpa using h g (List.mem_range.1 hg)

theorem groupAllocated {e : GroupEntry} {g : Nat} (h : s.dueWaiting 0x0405 = some w) (he : groupOfBody w.body w.body.length = some e)
    (hg : s.freeGroup = some g) :
    ∃ t, exec .groupAllocBoundary s = .next t ∧
      s.Finished t w Status.ok (leBytes 2 g ++ List.replicate 6 0#8 ++ leBytes 8 w.due) ∧
      t.plane = { s.plane with groups := aset g e s.plane.groups } ∧ t.besides = s.besides := by
  let u : State := { s.popWaiting with plane := { s.plane with groups := aset g e s.plane.groups } }
  have hrun : commitGroupAlloc s = u.answerFrom w.from? Status.ok (leBytes 2 g ++ List.replicate 6 0#8 ++ leBytes 8 w.due) := by
    unfold commitGroupAlloc
    simp only [h, he, hg]
    rfl
  obtain ⟨hfin, hbes⟩ := State.finished_of_inside (s := s) (u := u) rfl w Status.ok
    (leBytes 2 g ++ List.replicate 6 0#8 ++ leBytes 8 w.due)
  exact ⟨_, congrArg Host.Outcome.next hrun, hfin, State.answerFrom_plane .., hbes⟩

theorem groupsFull {e : GroupEntry} (h : s.dueWaiting 0x0405 = some w) (he : groupOfBody w.body w.body.length = some e)
    (hg : s.freeGroup = none) :
    ∃ t, exec .groupAllocBoundary s = .next t ∧
      s.Finished t w Status.groupFull (List.replicate 8 0#8 ++ leBytes 8 w.due) ∧ t.plane = s.plane ∧ t.besides = s.besides := by
  have hrun : commitGroupAlloc s = s.popWaiting.answerFrom w.from? Status.groupFull (List.replicate 8 0#8 ++ leBytes 8 w.due) := by
    unfold commitGroupAlloc
    simp only [h, he, hg]
  obtain ⟨hfin, hbes⟩ := State.finished_of_inside (s := s) rfl w Status.groupFull (List.replicate 8 0#8 ++ leBytes 8 w.due)
  exact ⟨_, congrArg Host.Outcome.next hrun, hfin, State.answerFrom_plane .., hbes⟩

theorem groupFreed (h : s.dueWaiting 0x0406 = some w) :
    ∃ t, exec .groupFreeBoundary s = .next t ∧ s.Finished t w Status.ok (leBytes 8 w.due) ∧
      t.plane = { s.plane with groups := aerase (field w.body 0 2) s.plane.groups } ∧ t.besides = s.besides := by
  let u : State := { s.popWaiting with plane := { s.plane with groups := aerase (field w.body 0 2) s.plane.groups } }
  have hrun : commitGroupFree s = u.answerFrom w.from? Status.ok (leBytes 8 w.due) := by
    unfold commitGroupFree
    simp only [h]
    rfl
  obtain ⟨hfin, hbes⟩ := State.finished_of_inside (s := s) (u := u) rfl w Status.ok (leBytes 8 w.due)
  exact ⟨_, congrArg Host.Outcome.next hrun, hfin, State.answerFrom_plane .., hbes⟩

/-! ### Budgets (R495) -/

/-- The budget that a TENANT_BUDGET leaves its tenant: set, added to, or none (R495). -/
def Waiting.budget (w : Waiting) (s : State) : Option Nat :=
  if field w.body 2 1 = 1 then some (field w.body 8 8 % 2 ^ 48)
  else if field w.body 2 1 = 2 then
    (aget (field w.body 0 2) s.ctl.budgets).map (fun v => min (2 ^ 48 - 1) (v + field w.body 8 8 % 2 ^ 48))
  else none

/-- The budgets with one tenant's set or disarmed. -/
def budgetsWith (tenant : Nat) (next : Option Nat) (m : List (Nat × Nat)) : List (Nat × Nat) :=
  match next with
  | some v => aset tenant v m
  | none => aerase tenant m

theorem budgetChanged (h : s.dueWaiting 0x0504 = some w) (ho : s.tenantOwes (field w.body 0 2) w.due = false) :
    ∃ t, exec .tenantBudgetBoundary s = .next t ∧
      s.Finished t w Status.ok (leBytes 8 ((w.budget s).getD (2 ^ 48 - 1)) ++ leBytes 8 w.due) ∧
      t.ctl.budgets = budgetsWith (field w.body 0 2) (w.budget s) s.ctl.budgets ∧ t.plane = s.plane ∧ t.besides = s.besides := by
  let u : State := { s with ctl := { s.ctl with budgets := budgetsWith (field w.body 0 2) (w.budget s) s.ctl.budgets } }
  let body := leBytes 8 ((w.budget s).getD (2 ^ 48 - 1)) ++ leBytes 8 w.due
  have hrun : tenantBudgetBoundary s = u.finishWaiting w Status.ok body := by
    unfold tenantBudgetBoundary
    simp only [h, ho, Bool.false_eq_true, if_false]
    rfl
  obtain ⟨hfin, hbes⟩ := State.finished_of_inside (s := s) (u := u.popWaiting) rfl w Status.ok body
  exact ⟨_, congrArg Host.Outcome.next hrun, hfin, State.of_apart (fun v => v.ctl.budgets) (fun _ => rfl) (State.answerFrom_apart ..),
    State.answerFrom_plane .., hbes⟩

theorem budgetWaits (h : s.dueWaiting 0x0504 = some w) (ho : s.tenantOwes (field w.body 0 2) w.due = true) :
    exec .tenantBudgetBoundary s = .next s := by
  refine congrArg Host.Outcome.next (?_ : tenantBudgetBoundary s = s)
  unfold tenantBudgetBoundary
  simp only [h, ho, if_true]

/-- Settles O22, boundary by boundary. -/
theorem gateBoundaries : Obligations.GateBoundaries := fun _ _ =>
  ⟨fun h => ⟨fenceStands h, fenceFalls h, fenceAlready h⟩,
    fun _ h he => ⟨fun _ hg hlow hfree => groupAllocated h he (State.freeGroup_eq hg hlow hfree),
      fun hall => groupsFull h he (State.freeGroup_none hall)⟩,
    groupFreed, fun h => ⟨budgetChanged h, budgetWaits h⟩⟩

end Sys2Proof.Machine
end

section
/-! SUPPORT. MISS messages, copies whose budget has run out, and completion records (R375 to R377). -/

namespace Sys2Proof.Machine

variable {s u : State} {a : Arrival} {k : LinkId} {r : Retained} {c : Completion}

/-! ### MISS messages (R375, R377) -/

/-- The completion record that a MISS names. -/
abbrev Arrival.names (a : Arrival) (c : Completion) : Prop := c.group = field a.pkt.payload 0 2 ∧ c.seq = field a.pkt.payload 4 3

/-- A completion record with the members that a MISS reports, missed or fenced by its reason. -/
def Completion.reported (c : Completion) (a : Arrival) : Completion :=
  if field a.pkt.payload 2 1 = 0 then { c with missed := c.missed ||| BitVec.ofNat 256 (field a.pkt.payload 16 32) }
  else { c with fenced := c.fenced ||| BitVec.ofNat 256 (field a.pkt.payload 16 32) }

theorem missNamed (h : s.takeInbox (fun x => decide (x.pkt.hdr.port = 0xC4#8)) = some (a, u))
    (hn : ∃ c ∈ s.plane.completions, a.names c) :
    ∃ t, exec .miss s = .next t ∧ t.plane.completions.length = s.plane.completions.length ∧
      (∀ c ∈ s.plane.completions, ¬ a.names c → c ∈ t.plane.completions) ∧
      (∀ c ∈ s.plane.completions, a.names c → c.reported a ∈ t.plane.completions) ∧
      { t with plane := { t.plane with completions := s.plane.completions } } = u := by
  have hrun : exec .miss s = .next (receiveMiss a u) := congrArg Host.Outcome.next (by rw [h])
  obtain ⟨l, rfl⟩ := State.takeInbox_eq h
  have hmiss : receiveMiss a { s with plane := { s.plane with inbox := l } } = { s with plane := { s.plane with
      inbox := l, completions := s.plane.completions.map fun c => if a.names c then c.reported a else c } } := by
    refine if_pos (List.any_eq_true.2 ?_)
    obtain ⟨c, hc, hname⟩ := hn
    exact ⟨c, hc, by simpa using hname⟩
  refine ⟨_, hrun.trans (congrArg Host.Outcome.next hmiss), List.length_map .., fun c hc hname => ?_, fun c hc hname => ?_, rfl⟩
  · exact List.mem_map.2 ⟨c, hc, if_neg hname⟩
  · exact List.mem_map.2 ⟨c, hc, if_pos hname⟩

theorem missUnnamed (h : s.takeInbox (fun x => decide (x.pkt.hdr.port = 0xC4#8)) = some (a, u))
    (hn : ∀ c ∈ s.plane.completions, ¬ a.names c) : exec .miss s = .next (u.count1 0x02 0 9) := by
  have hrun : exec .miss s = .next (receiveMiss a u) := congrArg Host.Outcome.next (by rw [h])
  obtain ⟨l, rfl⟩ := State.takeInbox_eq h
  refine hrun.trans (congrArg Host.Outcome.next (if_neg fun hany => ?_))
  obtain ⟨c, hc, hname⟩ := List.any_eq_true.1 hany
  exact hn c hc (by simpa using hname)

/-! ### Retained copies (R375) -/

/-- Whether the budget of a retained copy has run out. -/
abbrev State.spent (s : State) (r : Retained) : Bool :=
  decide (r.entered + ((s.group? r.group).map (fun e => e.budget)).getD 0 ≤ s.now)

theorem expireRetention_eq (h : (s.link k).retention.find? s.spent = some r) :
    expireRetention k s =
      (s.setLink k { s.link k with retention := (s.link k).retention.erase r }).branchMiss r.group k r.pkt r.members := by
  unfold expireRetention
  simp only [h]

theorem State.branchMiss_gap (s : State) (g : Nat) (k : LinkId) (p : Packet) (m : BitVec 256) :
    (g, k) ∈ (s.branchMiss g k p m).plane.gapBranch := by
  have hgap := congrArg Plane.gapBranch (State.reportMiss_still ((s.count1 0x02 0 7).branchGap g k) g p 0 m)
  exact hgap ▸ State.branchGap_mem (s.count1 0x02 0 7) g k

theorem budgetSpent (h : (s.link k).retention.find? s.spent = some r) :
    ∃ t, exec (.retentionBudgetExpiry k) s = .next t ∧ (t.link k).retention = (s.link k).retention.erase r ∧
      (r.group, k) ∈ t.plane.gapBranch ∧ (∀ j, (t.link j).state = (s.link j).state) ∧ t.inside = s.inside := by
  refine ⟨_, congrArg Host.Outcome.next (expireRetention_eq h), ?_, State.branchMiss_gap .., fun j => ?_,
    (State.branchMiss_inside ..).trans (State.setLink_inside ..)⟩
  · rw [State.of_record _ Link.retention (fun _ => rfl) (State.branchMiss_record ..), State.setLink_link, if_pos rfl]
  · have hset : (s.setLink k { s.link k with retention := (s.link k).retention.erase r }).face j = s.face j := by
      rw [State.setLink_face]
      rfl
    exact congrArg Prod.fst ((State.branchMiss_face ..).trans hset)

theorem budgetLeft (h : ∀ r ∈ (s.link k).retention, s.now < r.entered + ((s.group? r.group).map (fun e => e.budget)).getD 0) :
    exec (.retentionBudgetExpiry k) s = .next s := by
  have hnone : (s.link k).retention.find? s.spent = none := List.find?_eq_none.2 fun r hr => by
    simpa [State.spent] using h r hr
  refine congrArg Host.Outcome.next (?_ : expireRetention k s = s)
  unfold expireRetention
  simp only [hnone]

/-! ### Completion records (R377) -/

/-- The record of a completion: its status, its flags and the members reached. -/
def Completion.body (c : Completion) : List Byte :=
  leBytes 2 c.group
    ++ leBytes 1 (if c.missed ≠ 0#256 then Status.timeout else if c.fenced ≠ 0#256 then Status.fenced else Status.ok)
    ++ leBytes 1 ((if c.missed ≠ 0#256 then 1 else 0) + (if c.fenced ≠ 0#256 then 2 else 0))
    ++ leBytes 4 c.seq ++ leBytes 8 c.stamp ++ leBytes 32 (c.all &&& ~~~(c.missed ||| c.fenced)).toNat

theorem completionWritten (h : s.plane.completions.find? (fun c => decide (c.due ≤ s.now)) = some c) :
    ∃ t, exec .mcastCompletionRecord s = .next t ∧
      t.plane = { s.plane with completions := s.plane.completions.filter (fun d => d ≠ c) } ∧
      t.loud = (s.writeItem c.queue 0x0003#16 c.body).loud ∧ { t.quiet with plane := s.plane } = s.quiet := by
  let p : Plane := { s.plane with completions := s.plane.completions.filter (fun d => d ≠ c) }
  have hrun : writeCompletion s = (s.withPlane p).writeItem c.queue 0x0003#16 c.body := by
    unfold writeCompletion
    simp only [h]
    rfl
  refine ⟨_, congrArg Host.Outcome.next hrun, State.effects_plane .., ?_, ?_⟩
  · rw [State.writeItem, State.effects_withPlane]
    rfl
  · rw [State.writeItem_quiet]
    rfl

theorem completionNotDue (h : s.plane.completions.find? (fun c => decide (c.due ≤ s.now)) = none) :
    exec .mcastCompletionRecord s = .next s := by
  refine congrArg Host.Outcome.next (?_ : writeCompletion s = s)
  unfold writeCompletion
  simp only [h]

/-- Settles O35, report by report. -/
theorem multicastReports : Obligations.MulticastReports := fun _ =>
  ⟨fun _ _ h => ⟨missNamed h, missUnnamed h⟩, fun _ _ => budgetSpent, fun _ => budgetLeft, fun _ => completionWritten,
    completionNotDue⟩

end Sys2Proof.Machine
end

section
/-! SUPPORT. Windows where no packet waits at its edge for one (R368 to R370): an ACK takes out what it acknowledges, an overdue
packet is sent again or the window fails, and what idles is freed; and the acknowledgements that are owed (R367). -/

namespace Sys2Proof.Machine

variable {s u : State} {a : Arrival} {w : SendWindow} {x : Unacked} {peer : NodeId}

/-! ### No packet at its edge -/

theorem State.noEdgeWait (h : s.plane.edgeWait = []) : s.withPlane { s.plane with edgeWait := [] } = s := by
  rw [← h]
  rfl

theorem State.pump_of_noEdgeWait (h : s.plane.edgeWait = []) : s.pump = s := by
  unfold State.pump
  rw [h]
  exact State.noEdgeWait h

/-- What a reading of the plane sees without links, inbox and completion records, two states that agree on that agree on. -/
theorem State.of_still {α : Type} {t : State} (f : Plane → α)
    (hf : ∀ p : Plane, f p = f { p with links := [], inbox := [], completions := [] }) (h : t.still = s.still) :
    f t.plane = f s.plane :=
  (hf _).trans ((congrArg f h).trans (hf _).symm)

/-! ### One entry of an acknowledgement (R368) -/

@[simp] theorem SendWindow.reduce_outstanding (w : SendWindow) (p : Bool) : (w.reduce p).outstanding = w.outstanding := by
  unfold SendWindow.reduce
  split <;> rfl

@[simp] theorem SendWindow.reduce_next (w : SendWindow) (p : Bool) : (w.reduce p).next = w.next := by
  unfold SendWindow.reduce
  split <;> rfl

@[simp] theorem SendWindow.reduce_lastActive (w : SendWindow) (p : Bool) : (w.reduce p).lastActive = w.lastActive := by
  unfold SendWindow.reduce
  split <;> rfl

/-- A window is halved at most, and not below 8,192 bytes. -/
theorem SendWindow.reduce_bounds (p : Bool) (h : 8192 ≤ w.w) : 8192 ≤ (w.reduce p).w ∧ (w.reduce p).w ≤ w.w := by
  unfold SendWindow.reduce
  split
  · show 8192 ≤ max 8192 (w.w / 128 * 64) ∧ max 8192 (w.w / 128 * 64) ≤ w.w
    omega
  · exact ⟨h, Nat.le_refl _⟩

/-- Whether an acknowledgement entry names an outstanding packet. -/
abbrev Unacked.isAt (x : Unacked) (seq len : Nat) : Prop := x.pkt.hdr.seq.toNat = seq ∧ x.pkt.hdr.length.toNat = len

/-- The least round trip after an entry: a packet never sent again measures one (R369). -/
def SendWindow.rttAfter (w : SendWindow) (z : Unacked) (now : Nat) : Option Nat :=
  if z.resends = 0 then some (match w.rtt with
    | some r => min r (now - z.sentAt)
    | none => now - z.sentAt)
  else w.rtt

/-- An entry names no outstanding packet and changes nothing, or takes the named one out; then the window is halved for an echoed
mark, and otherwise grows by its credit. -/
theorem SendWindow.entry_cases (w : SendWindow) (now seq len : Nat) (echo passed : Bool) :
    ((∀ y ∈ w.outstanding, ¬ y.isAt seq len) ∧ w.entry now seq len echo passed = w) ∨
      ∃ v : SendWindow, v.next = w.next ∧ v.w = w.w ∧
        (∀ y ∈ v.outstanding, y ∈ w.outstanding ∧ ¬ y.isAt seq len) ∧
        (w.entry now seq len echo passed = v.reduce passed ∨
          ∃ c n, w.entry now seq len echo passed = { v with credit := c, w := n } ∧ (n = w.w ∨ n = min 262144 (w.w + 4096))) := by
  unfold SendWindow.entry
  split
  · next hnone => exact .inl ⟨fun y hy => by simpa using List.find?_eq_none.1 hnone y hy, rfl⟩
  · next z hz =>
    have hseq : z.pkt.hdr.seq.toNat = seq := by
      have hfound := List.find?_some hz
      simp only [Bool.and_eq_true, decide_eq_true_eq] at hfound
      exact hfound.1
    have hrest : ∀ y ∈ w.outstanding.filter (fun y => y.pkt.hdr.seq ≠ z.pkt.hdr.seq), y ∈ w.outstanding ∧ ¬ y.isAt seq len := by
      intro y hy
      obtain ⟨hmem, hne⟩ := List.mem_filter.1 hy
      exact ⟨hmem, fun hat => of_decide_eq_true hne (BitVec.eq_of_toNat_eq (hat.1.trans hseq.symm))⟩
    refine .inr ⟨{ w with
      outstanding := w.outstanding.filter (fun y => y.pkt.hdr.seq ≠ z.pkt.hdr.seq), rtt := w.rttAfter z now, lastActive := now },
      rfl, rfl, hrest, ?_⟩
    dsimp only
    split
    · exact .inl rfl
    · split
      · exact .inr ⟨_, _, rfl, .inr rfl⟩
      · exact .inr ⟨_, _, rfl, .inl rfl⟩

theorem SendWindow.entry_next (w : SendWindow) (now seq len : Nat) (echo passed : Bool) :
    (w.entry now seq len echo passed).next = w.next := by
  obtain ⟨-, h⟩ | ⟨v, hnext, -, -, h | ⟨c, n, h, -⟩⟩ := w.entry_cases now seq len echo passed <;> rw [h]
  · rw [SendWindow.reduce_next, hnext]
  · exact hnext

/-- An entry takes the packet that it names out, and puts none in. -/
theorem SendWindow.entry_outstanding (w : SendWindow) (now seq len : Nat) (echo passed : Bool) :
    ∀ y ∈ (w.entry now seq len echo passed).outstanding, y ∈ w.outstanding ∧ ¬ y.isAt seq len := by
  obtain ⟨hnone, h⟩ | ⟨v, -, -, hrest, h | ⟨c, n, h, -⟩⟩ := w.entry_cases now seq len echo passed <;> rw [h]
  · exact fun y hy => ⟨hy, hnone y hy⟩
  · rw [SendWindow.reduce_outstanding]
    exact hrest
  · exact hrest

/-- An entry keeps the window between 8,192 and 262,144 bytes. -/
theorem SendWindow.entry_bounds (now seq len : Nat) (echo passed : Bool) (hw : 8192 ≤ w.w ∧ w.w ≤ 262144) :
    8192 ≤ (w.entry now seq len echo passed).w ∧ (w.entry now seq len echo passed).w ≤ 262144 := by
  obtain ⟨-, h⟩ | ⟨v, -, hv, -, h | ⟨c, n, h, hn⟩⟩ := w.entry_cases now seq len echo passed <;> rw [h]
  · exact hw
  · have := SendWindow.reduce_bounds (w := v) passed (hv ▸ hw.1)
    omega
  · show 8192 ≤ n ∧ n ≤ 262144
    omega

/-! ### An acknowledgement (R367, R368) -/

/-- Entry e of an ACK's payload: sequence, length and echo. -/
def SendWindow.ackEntry (b : List Byte) (now : Nat) (passed : Bool) (w : SendWindow) (e : Nat) : SendWindow :=
  w.entry now (field b (4 + 4 * e) 4 % 2 ^ 24) (field b (4 + 4 * e) 4 / 2 ^ 24 % 128 + 1) ((field b (4 + 4 * e) 4).testBit 31) passed

theorem foldl_ackEntry (b : List Byte) (now : Nat) (passed : Bool) (es : List Nat) (w : SendWindow) :
    let v := es.foldl (SendWindow.ackEntry b now passed) w
    v.next = w.next ∧ (8192 ≤ w.w ∧ w.w ≤ 262144 → 8192 ≤ v.w ∧ v.w ≤ 262144) ∧
      ∀ y ∈ v.outstanding, y ∈ w.outstanding ∧
        ∀ e ∈ es, ¬ y.isAt (field b (4 + 4 * e) 4 % 2 ^ 24) (field b (4 + 4 * e) 4 / 2 ^ 24 % 128 + 1) := by
  induction es generalizing w with
  | nil => exact ⟨rfl, id, fun y hy => ⟨hy, fun e he => nomatch he⟩⟩
  | cons e es ih =>
    obtain ⟨hnext, hbounds, hout⟩ := ih (w.ackEntry b now passed e)
    refine ⟨hnext.trans (w.entry_next ..), fun hw => hbounds (SendWindow.entry_bounds _ _ _ _ _ hw), fun y hy => ?_⟩
    obtain ⟨hmem, hes⟩ := hout y hy
    obtain ⟨hy, he⟩ := w.entry_outstanding _ _ _ _ _ y hmem
    exact ⟨hy, fun i hi => (List.mem_cons.1 hi).elim (fun h => h ▸ he) (hes i)⟩

/-- The unit an ACK expects next. -/
def Arrival.ackExpected (a : Arrival) : Nat := field a.pkt.payload 0 4 % 2 ^ 24

/-- A window after an ACK's entries, its episode ended when the ACK has passed it (R368). -/
def SendWindow.entered (w : SendWindow) (a : Arrival) (now : Nat) : SendWindow :=
  (List.range (min 15 (field a.pkt.payload 0 4 / 2 ^ 28))).foldl
    (SendWindow.ackEntry a.pkt.payload now (!unitBefore a.ackExpected w.recover))
    (if !unitBefore a.ackExpected w.recover then { w with reduction := false } else w)

/-- A window after an ACK: besides the entries, what lies before the expected unit is gone. -/
def SendWindow.acked (w : SendWindow) (a : Arrival) (now : Nat) : SendWindow :=
  { w.entered a now with
    outstanding := (w.entered a now).outstanding.filter (fun y => !(unitBefore y.pkt.hdr.seq.toNat a.ackExpected &&
      !unitBefore a.ackExpected ((y.pkt.hdr.seq.toNat + y.pkt.hdr.length.toNat) % 2 ^ 24)))
    lastActive := now }

theorem SendWindow.entered_spec (w : SendWindow) (a : Arrival) (now : Nat) :
    (w.entered a now).next = w.next ∧ (8192 ≤ w.w ∧ w.w ≤ 262144 → 8192 ≤ (w.entered a now).w ∧ (w.entered a now).w ≤ 262144) ∧
      ∀ y ∈ (w.entered a now).outstanding, y ∈ w.outstanding ∧
        ∀ e < min 15 (field a.pkt.payload 0 4 / 2 ^ 28),
          ¬ y.isAt (field a.pkt.payload (4 + 4 * e) 4 % 2 ^ 24) (field a.pkt.payload (4 + 4 * e) 4 / 2 ^ 24 % 128 + 1) := by
  have hstart : ∀ p : Bool, (if p then { w with reduction := false } else w) = { w with reduction := !p && w.reduction } := by
    intro p
    cases p <;> rfl
  obtain ⟨hnext, hbounds, hout⟩ := foldl_ackEntry a.pkt.payload now (!unitBefore a.ackExpected w.recover)
    (List.range (min 15 (field a.pkt.payload 0 4 / 2 ^ 28))) { w with reduction := unitBefore a.ackExpected w.recover && w.reduction }
  unfold SendWindow.entered
  rw [hstart, Bool.not_not]
  exact ⟨hnext, hbounds, fun y hy => ⟨(hout y hy).1, fun e he => (hout y hy).2 e (List.mem_range.2 he)⟩⟩

theorem receiveAck_eq (hw : aget a.pkt.hdr.source s.plane.windows = some w) (he : s.plane.edgeWait = []) :
    receiveAck a s = s.withPlane { s.plane with windows := aset a.pkt.hdr.source (w.acked a s.now) s.plane.windows } := by
  unfold receiveAck
  simp only [hw]
  exact State.pump_of_noEdgeWait he

theorem ackUnknown (h : s.takeInbox (fun x => decide (x.pkt.hdr.port = 0xC3#8)) = some (a, u))
    (hw : aget a.pkt.hdr.source s.plane.windows = none) : exec .ack s = .next u := by
  have hrun : exec .ack s = .next (receiveAck a u) := congrArg Host.Outcome.next (by rw [h])
  obtain ⟨l, rfl⟩ := State.takeInbox_eq h
  refine hrun.trans (congrArg Host.Outcome.next ?_)
  unfold receiveAck
  simp only [hw]

theorem ackReceived (h : s.takeInbox (fun x => decide (x.pkt.hdr.port = 0xC3#8)) = some (a, u)) (hp : a.pkt.hdr.source = peer)
    (hw : aget peer s.plane.windows = some w) (he : s.plane.edgeWait = []) :
    ∃ t v, exec .ack s = .next t ∧ aget peer t.plane.windows = some v ∧ v.next = w.next ∧ v.lastActive = s.now ∧
      (∀ x ∈ v.outstanding, x ∈ w.outstanding ∧ ¬ (unitBefore x.pkt.hdr.seq.toNat a.ackExpected = true ∧
        unitBefore a.ackExpected ((x.pkt.hdr.seq.toNat + x.pkt.hdr.length.toNat) % 2 ^ 24) = false)) ∧
      (∀ e < min 15 (field a.pkt.payload 0 4 / 2 ^ 28), ∀ x ∈ v.outstanding,
        ¬ x.isAt (field a.pkt.payload (4 + 4 * e) 4 % 2 ^ 24) (field a.pkt.payload (4 + 4 * e) 4 / 2 ^ 24 % 128 + 1)) ∧
      (8192 ≤ w.w → w.w ≤ 262144 → 8192 ≤ v.w ∧ v.w ≤ 262144) ∧
      (∀ q, q ≠ peer → aget q t.plane.windows = aget q s.plane.windows) ∧ t.plane.links = s.plane.links ∧
      t.inside = s.inside := by
  subst hp
  have hrun : exec .ack s = .next (receiveAck a u) := congrArg Host.Outcome.next (by rw [h])
  obtain ⟨l, rfl⟩ := State.takeInbox_eq h
  have hack := receiveAck_eq (s := s.withPlane { s.plane with inbox := l }) hw he
  obtain ⟨hnext, hbounds, hout⟩ := w.entered_spec a s.now
  refine ⟨_, w.acked a s.now, hrun.trans (congrArg Host.Outcome.next hack), aget_aset_self .., hnext, rfl, fun y hy => ?_, fun e hlt y hy => ?_,
    fun hlo hhi => hbounds ⟨hlo, hhi⟩, fun q hq => aget_aset_ne hq .., rfl, rfl⟩
  · obtain ⟨hmem, hkept⟩ := List.mem_filter.1 hy
    refine ⟨(hout y hmem).1, fun ⟨hb, hn⟩ => ?_⟩
    rw [hb, hn] at hkept
    exact absurd hkept (by decide)
  · exact (hout y (List.mem_filter.1 hy).1).2 e hlt

/-- An ACK carries at most 15 of the entries owed (R367). -/
theorem ackSent {es : List AckEntry} (h : aget peer s.plane.acks = some es) (hne : es ≠ []) :
    ∃ t, exec (.ackSend peer) s = .next t ∧
      aget peer t.plane.acks = (if es.length ≤ 15 then none else some (es.drop 15)) ∧
      (∀ q, q ≠ peer → aget q t.plane.acks = aget q s.plane.acks) ∧ t.plane.windows = s.plane.windows ∧
      t.plane.records = s.plane.records ∧ t.inside = s.inside := by
  let acks := if (es.drop 15).isEmpty then aerase peer s.plane.acks else aset peer (es.drop 15) s.plane.acks
  let v := s.withPlane { s.plane with acks := acks }
  have hstill : (sendAck peer s).still = v.still := by
    unfold sendAck
    rw [h]
    split
    · next hn => cases hn
    · next hn => exact absurd (Option.some.inj hn) hne
    · next es' _ hn =>
      obtain rfl := Option.some.inj hn
      dsimp only
      split
      · exact State.forward_still ..
      · exact (State.countN_still ..).trans (State.forward_still ..)
  have hacks : (sendAck peer s).plane.acks = acks := State.of_still Plane.acks (fun _ => rfl) hstill
  refine ⟨_, rfl, ?_, fun q hq => ?_, State.of_still (s := v) Plane.windows (fun _ => rfl) hstill,
    State.of_still (s := v) Plane.records (fun _ => rfl) hstill, sendAck_inside ..⟩
  · show aget peer (sendAck peer s).plane.acks = _
    rw [hacks]
    by_cases hlen : es.length ≤ 15
    · simp [acks, hlen, aget_aerase]
    · simp [acks, hlen]
  · show aget q (sendAck peer s).plane.acks = _
    rw [hacks]
    by_cases hlen : es.length ≤ 15
    · simp [acks, hlen, aget_aerase, hq]
    · simp [acks, hlen, aget_aset_ne hq]

/-! ### Resends (R369) -/

/-- A packet sent again, with twice its timeout. -/
def Unacked.resent (x : Unacked) (now : Nat) : Unacked :=
  { x with sentAt := now, timeout := min 1048576 (2 * x.timeout), resends := x.resends + 1 }

/-- The window with a packet sent again, halved once in its episode. -/
def SendWindow.resent (w : SendWindow) (x : Unacked) (now : Nat) : SendWindow :=
  SendWindow.reduce
    { w with outstanding := w.outstanding.map (fun (y : Unacked) => if y.pkt.hdr.seq = x.pkt.hdr.seq then x.resent now else y),
             lastActive := now }
    (!unitBefore ((w.outstanding.head?.map (fun x => x.pkt.hdr.seq.toNat)).getD w.next) w.recover)

theorem resendClause (hw : aget peer s.plane.windows = some w) (hx : w.overdue s.now = some x) (hr : x.resends < 8) :
    ∃ t v, exec (.retransmitTimeout peer) s = .next t ∧ aget peer t.plane.windows = some v ∧
      x.resent s.now ∈ v.outstanding ∧ v.outstanding.length = w.outstanding.length ∧ v.next = w.next ∧
      (8192 ≤ w.w → 8192 ≤ v.w ∧ v.w ≤ w.w) ∧
      (∀ q, q ≠ peer → aget q t.plane.windows = aget q s.plane.windows) ∧ t.inside = s.inside := by
  have hstill : (retransmit peer s).still =
      (s.withPlane { s.plane with windows := aset peer (w.resent x s.now) s.plane.windows }).still := by
    unfold retransmit
    simp only [hw, hx, if_neg (Nat.not_le.2 hr)]
    exact (State.forward_still ..).trans (State.count1_still ..)
  have hwin : (retransmit peer s).plane.windows = aset peer (w.resent x s.now) s.plane.windows :=
    State.of_still Plane.windows (fun _ => rfl) hstill
  refine ⟨_, w.resent x s.now, rfl, (congrArg (aget peer) hwin).trans (aget_aset_self ..), ?_, ?_, SendWindow.reduce_next ..,
    fun hlo => ?_, fun q hq => (congrArg (aget q) hwin).trans (aget_aset_ne hq ..), retransmit_inside ..⟩
  · rw [SendWindow.resent, SendWindow.reduce_outstanding]
    exact List.mem_map.2 ⟨x, List.mem_of_find?_eq_some hx, if_pos rfl⟩
  · rw [SendWindow.resent, SendWindow.reduce_outstanding]
    exact List.length_map ..
  · rw [SendWindow.resent]
    exact SendWindow.reduce_bounds _ hlo

theorem windowFails (hw : aget peer s.plane.windows = some w) (hx : w.overdue s.now = some x) (hr : 8 ≤ x.resends)
    (he : s.plane.edgeWait = []) :
    ∃ t, exec (.retransmitTimeout peer) s = .next t ∧
      aget peer t.plane.windows = some { w with outstanding := [], gapNext := true, lastActive := s.now } ∧
      (∀ q, q ≠ peer → aget q t.plane.windows = aget q s.plane.windows) ∧ t.latched 12 = true ∧ t.inside = s.inside := by
  let v := s.withPlane { s.plane with
    windows := aset peer { w with outstanding := [], gapNext := true, lastActive := s.now } s.plane.windows }
  let t := (v.countLink ⟨0x02, 0, 4⟩ 0xFF#8).linkRecord 5 0xFF#8 peer 0 0
  have hplane : t.plane = v.plane := (State.effects_plane ..).trans (State.effects_plane ..)
  have hrun : retransmit peer s = t := by
    unfold retransmit
    simp only [hw, hx, if_pos hr]
    exact State.pump_of_noEdgeWait ((congrArg Plane.edgeWait hplane).trans he)
  have hwin := congrArg Plane.windows hplane
  refine ⟨t, congrArg Host.Outcome.next hrun, (congrArg (aget peer) hwin).trans (aget_aset_self ..),
    fun q hq => (congrArg (aget q) hwin).trans (aget_aset_ne hq ..), State.linkRecord_latched ?_ .., ?_⟩
  · exact State.effects_raises _ _ 12 _ (List.mem_cons_of_mem _ (List.mem_singleton.2 rfl))
  · exact (State.linkRecord_inside ..).trans (State.countLink_inside ..)

/-! ### Idle windows and records (R370) -/

theorem windowFreed (hw : aget peer s.plane.windows = some w) (ho : w.outstanding = []) (hdue : w.lastActive + 1048576 ≤ s.now)
    (he : s.plane.edgeWait = []) :
    ∃ t, exec (.sendWindowIdleFree peer) s = .next t ∧ aget peer t.plane.windows = none ∧
      (∀ q, q ≠ peer → aget q t.plane.windows = aget q s.plane.windows) ∧
      { t with plane := { t.plane with windows := s.plane.windows } } = s := by
  let t := s.withPlane { s.plane with windows := aerase peer s.plane.windows }
  have hrun : exec (.sendWindowIdleFree peer) s = .next t := by
    refine congrArg Host.Outcome.next ?_
    simp only [hw, ho, hdue, and_self, if_true]
    exact State.pump_of_noEdgeWait (s := t) he
  refine ⟨t, hrun, ?_, fun q hq => ?_, rfl⟩
  · exact (aget_aerase ..).trans (if_pos rfl)
  · exact (aget_aerase ..).trans (if_neg hq)

theorem windowKept (hw : aget peer s.plane.windows = some w) (hearly : s.now < w.lastActive + 1048576) :
    exec (.sendWindowIdleFree peer) s = .next s := by
  refine congrArg Host.Outcome.next ?_
  simp only [hw]
  exact if_neg fun h => by omega

theorem recordFreed {r : RecvRecord} (hr : aget peer s.plane.records = some r) (hdue : r.lastActive + 2097152 ≤ s.now) :
    ∃ t, exec (.receiveRecordIdleFree peer) s = .next t ∧ aget peer t.plane.records = none ∧
      (∀ q, q ≠ peer → aget q t.plane.records = aget q s.plane.records) ∧
      { t with plane := { t.plane with records := s.plane.records } } = s := by
  have hrun : exec (.receiveRecordIdleFree peer) s = .next (s.withPlane { s.plane with records := aerase peer s.plane.records }) := by
    refine congrArg Host.Outcome.next ?_
    simp only [hr]
    exact if_pos hdue
  refine ⟨_, hrun, ?_, fun q hq => ?_, rfl⟩
  · exact (aget_aerase ..).trans (if_pos rfl)
  · exact (aget_aerase ..).trans (if_neg hq)

theorem recordKept {r : RecvRecord} (hr : aget peer s.plane.records = some r) (hearly : s.now < r.lastActive + 2097152) :
    exec (.receiveRecordIdleFree peer) s = .next s := by
  refine congrArg Host.Outcome.next ?_
  simp only [hr]
  exact if_neg fun h => by omega

/-- The commands of windows change nothing besides what sending packets writes. -/
theorem windowCommand_inside (c : Instr) (h : c = .ack ∨ c = .retransmitTimeout peer ∨ c = .sendWindowIdleFree peer) :
    ∃ t, exec c s = .next t ∧ t.inside = s.inside := by
  rcases h with rfl | rfl | rfl
  · refine ⟨_, rfl, ?_⟩
    split
    · rfl
    · next h => exact (receiveAck_inside ..).trans (takeInbox_inside h)
  · exact ⟨_, rfl, retransmit_inside ..⟩
  · refine ⟨_, rfl, ?_⟩
    split
    · split
      · exact State.pump_inside ..
      · rfl
    · rfl

/-- Settles O34, command by command. -/
theorem windowsAndAcks : Obligations.WindowsAndAcks := fun _ _ =>
  ⟨windowCommand_inside, fun _ _ => ackUnknown, fun _ _ _ => ackReceived, fun _ => ackSent, fun _ _ => resendClause,
    fun _ _ => windowFails, fun _ hw ho => ⟨windowFreed hw ho, windowKept hw⟩, fun _ hr => ⟨recordFreed hr, recordKept hr⟩⟩

end Sys2Proof.Machine
end

section
/-! SUPPORT. Packets of the host, what an output sends next, and events on the sync port (R361, R368, R379, R391, R393, R394,
R402). -/

namespace Sys2Proof.Machine

variable {s u : State} {b : BulkId} {k : LinkId} {w : HostPacket} {a : Arrival} {q : OutPacket} {o : Output}

/-! ### A packet enters its window (R368) -/

/-- The window of a packet's destination after the packet has entered it. -/
def State.sentWindow (s : State) (a : Arrival) : SendWindow :=
  let w := (aget a.pkt.hdr.dest s.plane.windows).getD {}
  { w with
    next := (w.next + a.pkt.hdr.length.toNat) % 2 ^ 24, gapNext := false, lastActive := s.now
    outstanding := w.outstanding ++
      [{ pkt := { a.pkt with hdr := { a.pkt.hdr with seq := BitVec.ofNat 24 w.next, gap := w.gapNext } },
         sentAt := max s.now a.toLink, timeout := w.firstTimeout, resends := 0 }] }

theorem State.windowSend_still (s : State) (a : Arrival) : (s.windowSend a).still =
    (s.withPlane { s.plane with windows := aset a.pkt.hdr.dest (s.sentWindow a) s.plane.windows }).still :=
  State.forward_still ..

/-- With nothing waiting at an edge and room in its window, a packet for another gate enters it at once. -/
theorem State.enterWindow_of_room (hd : a.pkt.hdr.dest ≠ s.aon.node) (he : s.plane.edgeWait = [])
    (hr : s.windowRoom a.pkt = true) : s.enterWindow a = (s.windowSend a).returnCredit a.edge a.pkt := by
  have hempty := State.noEdgeWait he
  unfold State.enterWindow State.pump
  rw [if_neg hd]
  simp only [he, List.nil_append]
  show pumpEdge [a] [] (s.withPlane { s.plane with edgeWait := [] }) = _
  rw [hempty]
  simp [pumpEdge, hr]

/-! ### Packets of the host (R391, R393) -/

theorem hostMalformedClause (h : s.hostMalformed b w = true) :
    ∃ t, exec (.hostPacketReceive b w) s = .next t ∧ t.quiet = s.quiet ∧ t.latched 14 = true :=
  ⟨_, congrArg Host.Outcome.next (if_pos h), State.effects_quiet ..,
    State.effects_raises _ _ 14 _ (List.mem_cons_of_mem _ (List.mem_singleton.2 rfl))⟩

/-- A host packet of class 1 to 6 for another gate, when it needs no screen, goes to its window. -/
theorem hostReceive_window (h : s.hostMalformed b w = false) (hm : w.pkt.hdr.multicast = false) (hd : w.pkt.hdr.dest ≠ s.aon.node)
    (h0 : w.pkt.hdr.cls ≠ 0#3) (h7 : w.pkt.hdr.cls ≠ 7#3) (ht : s.cast.defaultState = false ∨ isText w.pkt = false) :
    ∃ v : State, v.plane = s.plane ∧ v.aon = s.aon ∧ v.inside = s.inside ∧ hostReceive b w s =
      v.enterWindow { pkt := s.completeHeader w.pkt, edge := .host b, stamp := s.now, at16 := 0 } := by
  refine ⟨(s.effects (countTraffic 0x04 b.val 1 (s.completeHeader w.pkt))).useCredit b (s.completeHeader w.pkt),
    s.effects_plane _, s.effects_aon _, s.effects_inside _, ?_⟩
  have htext : (s.cast.defaultState && isText (s.completeHeader w.pkt)) = false := by
    rcases ht with ht | ht
    · rw [ht, Bool.false_and]
    · rw [show isText (s.completeHeader w.pkt) = isText w.pkt from rfl, ht, Bool.and_false]
  unfold hostReceive State.hostEnter
  rw [if_neg (by rw [h]; exact Bool.false_ne_true)]
  dsimp only [State.completeHeader]
  rw [if_neg h0, if_neg (by rw [hm]; exact Bool.false_ne_true), if_neg (by rw [State.effects_aon]; exact hd), if_neg h7, if_neg]
  rw [State.effects_cast]
  exact Bool.eq_false_iff.1 htext

theorem hostWindowClause (h : s.hostMalformed b w = false) (hm : w.pkt.hdr.multicast = false) (hd : w.pkt.hdr.dest ≠ s.aon.node)
    (h0 : w.pkt.hdr.cls ≠ 0#3) (h7 : w.pkt.hdr.cls ≠ 7#3) (ht : s.cast.defaultState = false ∨ isText w.pkt = false)
    (he : s.plane.edgeWait = []) (hr : s.windowRoom (s.completeHeader w.pkt) = true) :
    let old := (aget w.pkt.hdr.dest s.plane.windows).getD {}
    ∃ t v p, exec (.hostPacketReceive b w) s = .next t ∧ aget w.pkt.hdr.dest t.plane.windows = some v ∧
      v.outstanding = old.outstanding ++ [p] ∧ p.sentAt = s.now + 120 ∧ p.resends = 0 ∧ p.pkt.payload = w.pkt.payload ∧
      p.pkt.hdr.source = s.aon.node ∧ p.pkt.hdr.seq = BitVec.ofNat 24 old.next ∧
      v.next = (old.next + w.pkt.hdr.length.toNat) % 2 ^ 24 ∧ t.plane.edgeWait = [] ∧ t.inside = s.inside := by
  let a : Arrival := { pkt := s.completeHeader w.pkt, edge := .host b, stamp := s.now, at16 := 0 }
  obtain ⟨v, hplane, haon, hin, hv⟩ := hostReceive_window h hm hd h0 h7 ht
  have hroom : v.windowRoom a.pkt = true := by
    rw [← hr]
    unfold State.windowRoom State.retransmitBytes
    rw [hplane]
  rw [State.enterWindow_of_room (haon ▸ hd) (hplane ▸ he) hroom] at hv
  have hstill : ((v.windowSend a).returnCredit a.edge a.pkt).still = _ :=
    (State.still_of_plane (State.returnCredit_plane ..)).trans (v.windowSend_still a)
  have hnow : v.now = s.now := by
    unfold State.now
    rw [haon]
  have hwindow : v.sentWindow a = s.sentWindow a := by
    unfold State.sentWindow
    rw [hplane, hnow]
  have hwin := State.of_still Plane.windows (fun _ => rfl) hstill
  refine ⟨_, s.sentWindow a, _, congrArg Host.Outcome.next hv, ?_, rfl, ?_, rfl, rfl, rfl, rfl, rfl, ?_, ?_⟩
  · rw [hwin, ← hwindow]
    exact aget_aset_self ..
  · show max s.now (s.now + 0 + 120) = s.now + 120
    omega
  · exact (State.of_still Plane.edgeWait (fun _ => rfl) hstill).trans (hplane ▸ he)
  · exact (State.returnCredit_inside ..).trans ((State.windowSend_inside ..).trans hin)

/-! ### Bulk ports (R391, R394) -/

theorem State.setBulk_bulkPort (s : State) (b c : BulkId) (v : Bulk) :
    (s.setBulk b v).bulkPort c = if b = c then v else s.bulkPort c := by
  unfold State.setBulk State.bulkPort
  by_cases h : b = c
  · subst h; simp
  · simp [h, aget_aset_ne (Ne.symm h)]

@[simp] theorem State.effects_bulkPort (s : State) (es : List Effect) (b : BulkId) : (s.effects es).bulkPort b = s.bulkPort b := by
  unfold State.bulkPort
  rw [State.effects_bulk]

theorem Bulk.credit_set (v : Bulk) (vc n m : Nat) (o : Output) :
    Bulk.credit { v with credits := aset vc n v.credits, out := o } m = if m = vc then n else v.credit m := by
  unfold Bulk.credit
  rw [aget_aset]
  split <;> rfl

theorem creditClause (s : State) (b : BulkId) (vc : Fin 4) :
    ∃ t, exec (.hostCreditReturn b vc) s = .next t ∧
      (t.bulkPort b).credit vc.val = (s.bulkPort b).credit vc.val + 1 ∧
      (∀ n, n ≠ vc.val → (t.bulkPort b).credit n = (s.bulkPort b).credit n) ∧
      (t.bulkPort b).out = (s.bulkPort b).out ∧ (∀ c, c ≠ b → t.bulkPort c = s.bulkPort c) ∧ { t with bulk := s.bulk } = s := by
  refine ⟨_, rfl, ?_, fun n hn => ?_, ?_, fun c hc => ?_, rfl⟩
  · rw [State.setBulk_bulkPort, if_pos rfl]
    exact (Bulk.credit_set ..).trans (if_pos rfl)
  · rw [State.setBulk_bulkPort, if_pos rfl]
    exact (Bulk.credit_set ..).trans (if_neg hn)
  · rw [State.setBulk_bulkPort, if_pos rfl]
  · rw [State.setBulk_bulkPort, if_neg (Ne.symm hc)]

/-- What a bulk port sends next: a packet that it has credits for and that may start (R361, R394). -/
abbrev State.bulkChoice (s : State) (b : BulkId) : Option (OutPacket × Output) :=
  (s.bulkPort b).out.choose s.now
    (fun p => decide (p.beats ≤ (s.bulkPort b).credit (vcOf p.hdr.cls)) && s.mayStart (BitVec.ofNat 8 (0x40 + b.val)) p) s.weight

theorem bulkIdle (h : s.bulkChoice b = none) :
    ∃ t, exec (.hostOutputSelect b) s = .next t ∧
      t.bulkPort b = { s.bulkPort b with out := { (s.bulkPort b).out with sending := none } } ∧
      (∀ c, c ≠ b → t.bulkPort c = s.bulkPort c) ∧ { t with bulk := s.bulk } = s := by
  have hrun : selectBulk b s = s.setBulk b { s.bulkPort b with out := { (s.bulkPort b).out with sending := none } } := by
    unfold selectBulk
    simp only [h]
  refine ⟨_, congrArg Host.Outcome.next hrun, ?_, fun c hc => ?_, rfl⟩
  · rw [State.setBulk_bulkPort, if_pos rfl]
  · rw [State.setBulk_bulkPort, if_neg (Ne.symm hc)]

theorem bulkSends (h : s.bulkChoice b = some (q, o)) (hc : q.pkt.beats ≤ (s.bulkPort b).credit (vcOf q.pkt.hdr.cls)) :
    ∃ t, exec (.hostOutputSelect b) s = .next t ∧ (t.bulkPort b).out = { o with sending := some q.pkt } ∧
      (t.bulkPort b).credit (vcOf q.pkt.hdr.cls) = (s.bulkPort b).credit (vcOf q.pkt.hdr.cls) - q.pkt.beats ∧
      (∀ c, c ≠ b → t.bulkPort c = s.bulkPort c) ∧ { t.quiet with bulk := s.bulk } = s.quiet := by
  let v : Bulk := { s.bulkPort b with
    out := { o with sending := some q.pkt }
    credits := aset (vcOf q.pkt.hdr.cls) ((s.bulkPort b).credit (vcOf q.pkt.hdr.cls) - q.pkt.beats) (s.bulkPort b).credits }
  have hrun : selectBulk b s = (s.setBulk b v).effects (countTraffic 0x04 b.val 0 q.pkt) := by
    unfold selectBulk
    simp only [h, if_neg (Nat.not_lt.2 hc)]
    rfl
  refine ⟨_, congrArg Host.Outcome.next hrun, ?_, ?_, fun c hc => ?_, ?_⟩
  · rw [State.effects_bulkPort, State.setBulk_bulkPort, if_pos rfl]
  · rw [State.effects_bulkPort, State.setBulk_bulkPort, if_pos rfl]
    exact (Bulk.credit_set ..).trans (if_pos rfl)
  · rw [State.effects_bulkPort, State.setBulk_bulkPort, if_neg (Ne.symm hc)]
  · rw [State.effects_quiet]
    rfl

/-- A due packet without the credits for its beats is dropped (R394). -/
theorem bulkDrops (h : s.bulkChoice b = some (q, o)) (hc : (s.bulkPort b).credit (vcOf q.pkt.hdr.cls) < q.pkt.beats) :
    ∃ t, exec (.hostOutputSelect b) s = .next t ∧ (t.bulkPort b).out = { o with sending := none } ∧
      (t.bulkPort b).credits = (s.bulkPort b).credits ∧ { t.quiet with bulk := s.bulk } = s.quiet := by
  have hrun : ∃ es, selectBulk b s = (s.setBulk b { s.bulkPort b with out := { o with sending := none } }).effects es := by
    unfold selectBulk
    simp only [h, if_pos hc]
    exact ⟨_, rfl⟩
  obtain ⟨es, hrun⟩ := hrun
  refine ⟨_, congrArg Host.Outcome.next hrun, ?_, ?_, ?_⟩
  · rw [State.effects_bulkPort, State.setBulk_bulkPort, if_pos rfl]
  · rw [State.effects_bulkPort, State.setBulk_bulkPort, if_pos rfl]
  · rw [State.effects_quiet]
    rfl

/-! ### Links (R361, R375, R379, R382) -/

theorem State.enqueueLink_link (s : State) (k : LinkId) (p : Packet) (start : Nat) (j : LinkId) :
    (s.enqueueLink k p start).link j =
      if k = j then { s.link k with out := (s.pushOutput (s.link k).out p start).1 } else s.link j := by
  unfold State.enqueueLink
  dsimp only
  split
  · rw [State.count1_link, State.setLink_link]
  · rw [State.setLink_link]

/-- Retained copies that move into the queue change neither what the link sends nor its state, and no other link. -/
theorem serveRetention_spec (k : LinkId) (rs : List Retained) (s : State) :
    ((serveRetention k rs s).link k).out.sending = (s.link k).out.sending ∧
      ((serveRetention k rs s).link k).state = (s.link k).state ∧ ∀ j, j ≠ k → (serveRetention k rs s).link j = s.link j := by
  induction rs generalizing s with
  | nil => exact ⟨rfl, rfl, fun _ _ => rfl⟩
  | cons r rs ih =>
    unfold serveRetention
    dsimp only
    split
    · obtain ⟨hsend, hstate, hother⟩ := ih _
      have hcleared (l : Link) (g : List (Nat × LinkId)) (j : LinkId) :
          State.link { s.setLink k l with plane := { (s.setLink k l).plane with gapBranch := g } } j =
            if k = j then l else s.link j := s.setLink_link k j l
      refine ⟨hsend.trans ?_, hstate.trans ?_, fun j hj => (hother j hj).trans ?_⟩
      · rw [State.enqueueLink_link, if_pos rfl, hcleared, if_pos rfl]
        rfl
      · rw [State.enqueueLink_link, if_pos rfl, hcleared, if_pos rfl]
      · rw [State.enqueueLink_link, if_neg (Ne.symm hj), hcleared, if_neg (Ne.symm hj)]
    · exact ⟨rfl, rfl, fun _ _ => rfl⟩

/-- What a link sends next: a packet that its state lets start and that no reservation keeps back (R361, R381). -/
abbrev State.linkChoice (s : State) (k : LinkId) : Option (OutPacket × Output) :=
  (s.link k).out.choose s.now (fun p => (s.link k).maySend p && s.mayStart (BitVec.ofNat 8 k.val) p) s.weight

theorem linkIdle {x : Nat} (h : s.linkChoice k = none) :
    ∃ t, exec (.linkOutputSelect k x) s = .next t ∧
      t.link k = { s.link k with out := { (s.link k).out with sending := none } } ∧ (∀ j, j ≠ k → t.link j = s.link j) ∧
      t.inside = s.inside := by
  have hrun : selectLink k x s = s.setLink k { s.link k with out := { (s.link k).out with sending := none } } := by
    unfold selectLink
    simp only [h]
  refine ⟨_, congrArg Host.Outcome.next hrun, ?_, fun j hj => ?_, State.setLink_inside ..⟩
  · rw [State.setLink_link, if_pos rfl]
  · rw [State.setLink_link, if_neg (Ne.symm hj)]

/-- The tick of a DELAY_REQ's transmission is kept for its answer (R379, R380). -/
def State.delayStart (s : State) (k : LinkId) (q : OutPacket) (x : Nat) : Option Nat :=
  if q.pkt.hdr.port = 0xC1#8 ∧ q.pkt.hdr.cls = 7#3 then some (s.now * 16 + x) else (s.link k).delayT1

theorem linkSends {x : Nat} (h : s.linkChoice k = some (q, o)) (hm : (s.link k).maySend q.pkt = true) :
    ∃ t, exec (.linkOutputSelect k x) s = .next t ∧ (t.link k).out.sending = some (stampTiming q.pkt s.now x) ∧
      ((s.link k).retention = [] → (t.link k).out = { o with sending := some (stampTiming q.pkt s.now x) }) ∧
      (t.link k).state = (s.link k).state ∧ (∀ j, j ≠ k → t.link j = s.link j) ∧ t.inside = s.inside := by
  let l : Link := { s.link k with
    out := { o with sending := some (stampTiming q.pkt s.now x) }, delayT1 := s.delayStart k q x }
  let v := (s.setLink k l).effects (countTraffic 0x01 k.val 0 (stampTiming q.pkt s.now x))
  have hv (j : LinkId) : v.link j = if k = j then l else s.link j := (State.effects_link ..).trans (s.setLink_link k j l)
  have hrun : selectLink k x s = serveRetention k (s.link k).retention v := by
    unfold selectLink
    simp only [h, hm, Bool.not_true, Bool.false_eq_true, if_false]
    rfl
  obtain ⟨hsend, hstate, hother⟩ := serveRetention_spec k (s.link k).retention v
  refine ⟨_, congrArg Host.Outcome.next hrun, hsend.trans ?_, fun hr => ?_, hstate.trans ?_, fun j hj => (hother j hj).trans ?_, ?_⟩
  · rw [hv, if_pos rfl]
  · rw [hr]
    show (v.link k).out = _
    rw [hv, if_pos rfl]
  · rw [hv, if_pos rfl]
  · rw [hv, if_neg (Ne.symm hj)]
  · exact (serveRetention_inside ..).trans (State.effects_inside ..)

theorem linkDrops {x : Nat} (h : s.linkChoice k = some (q, o)) (hm : (s.link k).maySend q.pkt = false) :
    ∃ t, exec (.linkOutputSelect k x) s = .next t ∧
      t.link k = { s.link k with out :=
        if (s.link k).state = .sparing then { o with sending := none } else { (s.link k).out with sending := none } } ∧
      ((s.link k).state = .sparing →
        (t.counter ⟨0x01, k.val, 36⟩).count = min (2 ^ 48 - 1) ((s.counter ⟨0x01, k.val, 36⟩).count + 1)) ∧
      (∀ j, j ≠ k → t.link j = s.link j) ∧ t.inside = s.inside := by
  by_cases hs : (s.link k).state = .sparing
  · have hrun : selectLink k x s =
        (s.setLink k { s.link k with out := { o with sending := none } }).count1 0x01 k.val 36 := by
      unfold selectLink
      simp only [h, hm, Bool.not_false, if_true, if_pos hs]
    refine ⟨_, congrArg Host.Outcome.next hrun, ?_, fun _ => ?_, fun j hj => ?_, State.count1_inside ..⟩
    · rw [State.count1_link, State.setLink_link, if_pos rfl, if_pos hs]
    · rw [State.count1, State.effects_count _ _ _ _ (show 1 ≠ 5 by decide) rfl]
      exact Counter.add_count ..
    · rw [State.count1_link, State.setLink_link, if_neg (Ne.symm hj)]
  · have hrun : selectLink k x s = s.setLink k { s.link k with out := { (s.link k).out with sending := none } } := by
      unfold selectLink
      simp only [h, hm, Bool.not_false, if_true, if_neg hs]
    refine ⟨_, congrArg Host.Outcome.next hrun, ?_, fun hc => absurd hc hs, fun j hj => ?_, State.setLink_inside ..⟩
    · rw [State.setLink_link, if_pos rfl, if_neg hs]
    · rw [State.setLink_link, if_neg (Ne.symm hj)]

/-! ### Events on the sync port (R402) -/

/-- What effects cause goes to no queue but the NOTICE queue 0. -/
theorem runEffects_queue {q : QueueId} (hq : q ≠ 0) (n : Nat) (es : List Effect) (s : State) (he : es.all (Effect.spares q) = true) :
    (runEffects n es s).queue q = s.queue q := by
  induction n generalizing es s with
  | zero => rfl
  | succ n ih =>
    cases es with
    | nil => rfl
    | cons e es =>
      simp only [List.all_cons, Bool.and_eq_true] at he
      rw [runEffects, ih _ _ (by simp [oneEffect_causes e s q hq, he.2]), oneEffect_queue e s q (.inl he.1)]

theorem foldl_accept_items (is : List Item) (v : Queue) : (is.foldl Queue.accept v).items = v.items ++ is := by
  induction is generalizing v with
  | nil => exact (List.append_nil _).symm
  | cons i is ih =>
    rw [List.foldl_cons, ih]
    exact List.append_assoc v.items [i] is

/-- An item that a queue takes stands behind the others, with the queue's sequence and priority (R405, R406, R411). -/
theorem State.writeItem_items {q : QueueId} (hq : q ≠ 0) (hw : (s.queue q).cfg.hostWrites = false)
    (hfit : (s.queue q).items.length + 1 ≤ (s.queue q).capacity) (tag : Half) (body : List Byte) :
    ((s.writeItem q tag body).queue q).items =
      (s.queue q).items ++ packetItems (s.queue q).sequence (s.queue q).cfg.priority tag [body] := by
  have hoffer : ((offerPacket q tag none [body] s).1.queue q).items =
      (s.queue q).items ++ packetItems (s.queue q).sequence (s.queue q).cfg.priority tag [body] := by
    unfold offerPacket
    simp only [hw, List.length_singleton, Nat.one_ne_zero, if_false, Bool.false_eq_true, if_neg (Nat.not_lt.2 hfit)]
    split <;> rw [State.setQueue_queue, if_pos rfl, foldl_accept_items] <;> rfl
  have hcaused := oneEffect_causes (.packet q tag none [body]) s q hq
  have hrun : s.writeItem q tag body =
      runEffects 127 ((offerPacket q tag none [body] s).2 ++ []) (offerPacket q tag none [body] s).1 := rfl
  rw [hrun, runEffects_queue hq _ _ _ (by rw [List.append_nil]; exact hcaused), hoffer]

theorem syncPortClause (s : State) (e : Half) :
    ∃ t, exec (.syncPortEvent e) s = .next t ∧ t.quiet = s.quiet ∧
      ((s.queue 2).cfg.hostWrites = false → (s.queue 2).items.length + 1 ≤ (s.queue 2).capacity →
        (t.queue 2).items = (s.queue 2).items ++ packetItems (s.queue 2).sequence (s.queue 2).cfg.priority 0x0007#16
          [leBytes 2 e.toNat ++ List.replicate 6 0#8 ++ leBytes 8 s.now]) :=
  ⟨_, rfl, State.writeItem_quiet .., fun hw hfit => State.writeItem_items (by decide) hw hfit ..⟩

/-- Settles O37, command by command. -/
theorem hostPacketsAndOutputs : Obligations.HostPacketsAndOutputs := fun s =>
  ⟨fun _ _ => hostMalformedClause, fun _ _ => hostWindowClause, creditClause s,
    fun _ _ => ⟨linkIdle, fun _ _ => linkSends, fun _ _ => linkDrops⟩,
    fun _ => ⟨bulkIdle, fun _ _ h => ⟨bulkSends h, bulkDrops h⟩⟩, syncPortClause s⟩

end Sys2Proof.Machine
end

section
/-! SUPPORT. A link goes DOWN, and a link's lane is spared (R348, R382, R383). -/

namespace Sys2Proof.Machine

variable {s t u : State} {j k : LinkId} {g : Fin 8} {l : Fin 9} {v : LaneGroup}

/-! ### Lane groups (R348) -/

theorem State.laneGroup_of_lanes (h : t.plane.lanes = s.plane.lanes) (g : Fin 8) : t.laneGroup g = s.laneGroup g := by
  unfold State.laneGroup
  rw [h]

theorem State.setLaneGroup_laneGroup (s : State) (g h : Fin 8) (v : LaneGroup) :
    (s.setLaneGroup g v).laneGroup h = if g = h then v else s.laneGroup h := by
  unfold State.setLaneGroup State.laneGroup
  by_cases hg : g = h
  · subst hg; simp
  · simp [hg, aget_aset_ne (Ne.symm hg)]

@[simp] theorem State.setLaneGroup_link (s : State) (g : Fin 8) (v : LaneGroup) (j : LinkId) : (s.setLaneGroup g v).link j = s.link j := rfl

@[simp] theorem State.setLaneGroup_inside (s : State) (g : Fin 8) (v : LaneGroup) : (s.setLaneGroup g v).inside = s.inside := rfl

/-- A group that keeps its moved lane keeps the lanes of its links. -/
theorem State.setLaneGroup_linkOfLane (hv : v.spared = (s.laneGroup g).spared) (h : Fin 8) (l : Fin 9) :
    (s.setLaneGroup g v).linkOfLane h l = s.linkOfLane h l := by
  have hspared (i : Fin 8) : ((s.setLaneGroup g v).laneGroup i).spared = (s.laneGroup i).spared := by
    rw [State.setLaneGroup_laneGroup]
    split
    · next hi => rw [← hi, hv]
    · rfl
  unfold State.linkOfLane State.physLane
  simp only [hspared]

theorem State.setLaneGroup_spareFree (hv : v.spared = (s.laneGroup g).spared) (hf : v.spareFailed = (s.laneGroup g).spareFailed) :
    (s.setLaneGroup g v).spareFree g = s.spareFree g := by
  unfold State.spareFree
  rw [State.setLaneGroup_laneGroup, if_pos rfl, hv, hf]
  rfl

theorem linkGroup_laneLink (g i : Fin 8) : linkGroup (laneLink g i) = g := by
  apply Fin.ext
  show (8 * g.val + i.val) / 8 = g.val
  omega

/-- The link of a physical lane is one of the lane's group, on that lane. -/
theorem State.linkOfLane_some (h : s.linkOfLane g l = some k) : linkGroup k = g ∧ s.physLane k = l := by
  obtain ⟨i, -, hi⟩ := List.exists_of_findSome?_eq_some h
  obtain ⟨hl, hk⟩ := Option.ite_none_right_eq_some.1 hi
  obtain rfl := Option.some.inj hk
  exact ⟨linkGroup_laneLink g i, hl⟩

/-- While a group's spare is free no link of the group is being spared (R382). -/
theorem State.not_sparing_of_spareFree (h : s.spareFree g = true) (i : Fin 8) : (s.link (laneLink g i)).state ≠ .sparing := by
  have hall := (Bool.and_eq_true_iff.1 h).2
  simpa using List.all_eq_true.1 hall i (List.mem_finRange i)

/-! ### A link goes DOWN (R383) -/

theorem State.routesChanged_keeps {α : Type} (s : State) (f : Link → α) (hf : ∀ x : Link, f { x with routeDirty := true } = f x)
    (j : LinkId) : f (s.routesChanged.link j) = f (s.link j) := by
  rw [State.routesChanged, s.link_map (fun x => { x with routeDirty := true }) _ rfl j, State.link]
  cases aget j s.plane.links with
  | none => rfl
  | some x => exact hf x

theorem reselectSync_other (h : s.aon.syncLink ≠ BitVec.ofNat 8 k.val) : reselectSync k s = s := if_pos h

/-- A new synchronization link is a matter of the always-on island alone. -/
theorem reselectSync_keeps {α : Type} (f : State → α) (hf : ∀ (v : State) (a : Aon), f { v with aon := a } = f v)
    (he : ∀ (v : State) es, f (v.effects es) = f v) (k : LinkId) (s : State) : f (reselectSync k s) = f s := by
  unfold reselectSync
  dsimp only
  split
  · rfl
  · split
    · exact hf ..
    · split
      · exact (he ..).trans ((hf ..).trans ((hf ..).trans (hf ..)))
      · exact hf ..

/-- The gate with a link stopped: what it holds is counted as lost, and its retained copies miss (R375, R383). -/
def State.emptied (s : State) (k : LinkId) : State :=
  missRetained k (s.link k).retention
    (if (s.link k).out.queue.length = 0 then s.setLink k (s.link k).stopped
     else (s.setLink k (s.link k).stopped).countN 0x01 k.val 35 (s.link k).out.queue.length)

theorem State.linkDown_eq (hd : (s.link k).state ≠ .down) :
    s.linkDown k = State.routesChanged
      (if decide ((s.link k).state = .up) || decide ((s.link k).state = .sparing) then
        (reselectSync k (s.emptied k)).linkRecord 2 (BitVec.ofNat 8 k.val) (s.link k).peer 0 0
       else reselectSync k (s.emptied k)) := by
  unfold State.linkDown State.linkStops
  simp only [if_neg hd, if_true]
  rfl

theorem missRetained_lanes (k : LinkId) (rs : List Retained) (s : State) : (missRetained k rs s).plane.lanes = s.plane.lanes := by
  refine foldl_keeps _ (fun t => t.plane.lanes) (fun t r => ?_) rs s
  have hreport := State.reportMiss_still ((t.count1 0x02 0 7).branchGap r.group k) r.group r.pkt 0 r.members
  refine (State.of_still Plane.lanes (fun _ => rfl) hreport).trans ((State.branchGap_lanes ..).trans ?_)
  exact congrArg Plane.lanes (t.effects_plane _)

theorem missRetained_link_stopped {x : Link} (h : s.link k = x.stopped) (rs : List Retained) :
    (missRetained k rs s).link k = x.stopped := by
  rw [missRetained_link_of_notUp _ (by rw [h]; exact nofun), h]

/-- What stopping a link leaves: the link empty, every other link's state, the lanes, and all but the plane. -/
theorem State.emptied_spec (s : State) (k : LinkId) :
    (s.emptied k).link k = (s.link k).stopped ∧ (∀ j, j ≠ k → (s.emptied k).face j = s.face j) ∧
      (s.emptied k).plane.lanes = s.plane.lanes ∧ (s.emptied k).inside = s.inside := by
  have hlost : ∃ v : State, s.emptied k = missRetained k (s.link k).retention v ∧
      v.plane = (s.setLink k (s.link k).stopped).plane ∧ v.inside = s.inside := by
    refine ⟨_, rfl, ?_, ?_⟩ <;> split
    · rfl
    · exact State.effects_plane ..
    · rfl
    · exact State.countN_inside ..
  obtain ⟨v, hv, hplane, hin⟩ := hlost
  rw [hv]
  refine ⟨missRetained_link_stopped ?_ _, fun j hj => ?_, ?_, (missRetained_inside ..).trans hin⟩
  · rw [State.link_of_plane hplane, State.setLink_link, if_pos rfl]
  · rw [missRetained_face, State.face_of_link (State.link_of_plane hplane j)]
    exact State.face_of_link (by rw [State.setLink_link, if_neg (Ne.symm hj)])
  · rw [missRetained_lanes, hplane]
    rfl

/-- A link is DOWN and empty; no other link's state changes, and beside the plane only the synchronization, when it followed the
link (R383). -/
def State.GoesDown (s t : State) (k : LinkId) : Prop :=
  (t.link k).state = .down ∧ (t.link k).inSync = false ∧ (t.link k).sparing = none ∧
    (t.link k).out = {} ∧ (t.link k).retention = [] ∧ (∀ j, j ≠ k → (t.link j).state = (s.link j).state) ∧
    { t.inside with aon := s.aon } = s.inside ∧ (s.aon.syncLink ≠ BitVec.ofNat 8 k.val → t.aon = s.aon)

theorem State.linkDown_goesDown (hd : (s.link k).state ≠ .down) :
    s.GoesDown (s.linkDown k) k ∧ (s.linkDown k).plane.lanes = s.plane.lanes := by
  obtain ⟨hlink, hface, hlanes, hin⟩ := s.emptied_spec k
  have hrecord : ∃ r : State, s.linkDown k = r.routesChanged ∧ r.plane = (reselectSync k (s.emptied k)).plane ∧
      r.inside = (reselectSync k (s.emptied k)).inside := by
    refine ⟨_, State.linkDown_eq hd, ?_, ?_⟩ <;> split
    · exact State.effects_plane ..
    · rfl
    · exact State.linkRecord_inside ..
    · rfl
  obtain ⟨r, hr, hplane, hrin⟩ := hrecord
  have hplane : r.plane = (s.emptied k).plane :=
    hplane.trans (reselectSync_keeps State.plane (fun _ _ => rfl) State.effects_plane k _)
  have hrest : { r.inside with aon := s.aon } = s.inside := by
    have hsync : { (reselectSync k (s.emptied k)).inside with aon := s.aon } = { (s.emptied k).inside with aon := s.aon } :=
      reselectSync_keeps (fun v : State => { v.inside with aon := s.aon }) (fun _ _ => rfl)
        (fun v es => congrArg (fun w : State => { w with aon := s.aon }) (v.effects_inside es)) k _
    rw [hrin, hsync, hin]
    rfl
  have hk {α : Type} (f : Link → α) (hf : ∀ x : Link, f { x with routeDirty := true } = f x) :
      f (r.routesChanged.link k) = f (s.link k).stopped := by
    rw [r.routesChanged_keeps f hf, State.link_of_plane hplane, hlink]
  rw [hr]
  refine ⟨⟨hk Link.state fun _ => rfl, hk Link.inSync fun _ => rfl, hk Link.sparing fun _ => rfl, hk Link.out fun _ => rfl,
    hk Link.retention fun _ => rfl, fun j hj => ?_, hrest, fun hs => ?_⟩, (congrArg Plane.lanes hplane).trans hlanes⟩
  · rw [r.routesChanged_keeps Link.state (fun _ => rfl), State.link_of_plane hplane]
    exact congrArg Prod.fst (hface j hj)
  · have haon : (s.emptied k).aon = s.aon := State.of_inside State.aon (fun _ => rfl) hin
    have hr' : r.aon = (reselectSync k (s.emptied k)).aon := State.of_inside State.aon (fun _ => rfl) hrin
    show r.aon = s.aon
    rw [hr', reselectSync_other (haon ▸ hs), haon]

theorem State.linkDown_of_down (hd : (s.link k).state = .down) : s.linkDown k = s := if_pos hd

end Sys2Proof.Machine
end

section
/-! SUPPORT. The states of lanes and links: PHY events, the spare procedure, delineation, silence and HELLO (R355, R381 to R383,
R513). -/

namespace Sys2Proof.Machine

variable {s t u : State} {j k : LinkId} {g : Fin 8} {l : Fin 9} {a : Arrival} {sp : Sparing}

/-! ### The spare procedure starts (R382) -/

/-- The spare procedure of a link has started on a lane; no other link's state changes, no link's peer, and nothing beside the
plane. -/
def State.Spares (s t : State) (k : LinkId) (l : Fin 9) : Prop :=
  t.inside = s.inside ∧ (t.link k).state = .sparing ∧
    (t.link k).sparing = some { began := s.now, lane := l, accepted := false, moved := false } ∧
    (∀ j, (t.link j).peer = (s.link j).peer ∧ (j ≠ k → (t.link j).state = (s.link j).state))

/-- A LANE message sent after a link was replaced by one of the same peer: the link stands but for its output, every other one
keeps its state, and every one its peer. -/
theorem sendLane_link {x : Link} (hlink : ∀ j, u.link j = if k = j then x else s.link j) (hp : x.peer = (s.link k).peer)
    (c : LinkId) (b : List Byte) :
    (∀ {α : Type} (f : Link → α), (∀ y : Link, f y = f { y with out := {} }) → f ((u.sendLocal c 0xC6#8 b).link k) = f x) ∧
      ∀ j, ((u.sendLocal c 0xC6#8 b).link j).peer = (s.link j).peer ∧
        (j ≠ k → ((u.sendLocal c 0xC6#8 b).link j).state = (s.link j).state) := by
  have hkeeps {α : Type} (f : Link → α) (hf : ∀ y : Link, f y = f { y with out := {} }) (j : LinkId) :
      f ((u.sendLocal c 0xC6#8 b).link j) = f (if k = j then x else s.link j) :=
    (State.of_record _ f hf (State.sendLocal_record ..)).trans (congrArg f (hlink j))
  refine ⟨fun f hf => (hkeeps f hf k).trans (congrArg f (if_pos rfl)), fun j => ⟨?_, fun hj => ?_⟩⟩
  · rw [hkeeps Link.peer (fun _ => rfl)]
    split
    · next h => rw [← h, hp]
    · rfl
  · rw [hkeeps Link.state (fun _ => rfl), if_neg (Ne.symm hj)]

theorem State.startSparing_spares (hf : s.spareFree (linkGroup k) = true) :
    s.Spares (s.startSparing k) k (s.physLane k) ∧ (s.startSparing k).plane.lanes = s.plane.lanes := by
  let x : Link := { s.link k with
    state := .sparing, laneSeq := ((s.link k).laneSeq + 1) % 2 ^ 32
    sparing := some { began := s.now, lane := s.physLane k, accepted := false, moved := false } }
  have hrun : ∃ c b, s.startSparing k = (s.setLink k x).sendLocal c 0xC6#8 b := by
    unfold State.startSparing
    rw [if_neg (by rw [hf]; exact Bool.false_ne_true)]
    exact ⟨_, _, rfl⟩
  obtain ⟨c, b, hrun⟩ := hrun
  obtain ⟨hself, hall⟩ := sendLane_link (fun j => s.setLink_link k j x) rfl c b
  rw [hrun]
  refine ⟨⟨(State.sendLocal_inside ..).trans (State.setLink_inside ..), hself Link.state fun _ => rfl,
    hself Link.sparing fun _ => rfl, hall⟩, ?_⟩
  exact State.of_still Plane.lanes (fun _ => rfl) ((State.sendLocal_still ..).trans (State.setLink_still ..))

theorem State.startSparing_of_taken (hf : s.spareFree (linkGroup k) = false) : s.startSparing k = s.linkDown k := by
  unfold State.startSparing
  rw [hf]
  rfl

/-! ### PHY events (R381, R382) -/

/-- The gate with the receive signal of a lane as it now is. -/
def State.withRxUp (s : State) (g : Fin 8) (ls : List (Fin 9)) : State := s.setLaneGroup g { s.laneGroup g with rxUp := ls }

@[simp] theorem State.withRxUp_link (ls : List (Fin 9)) (j : LinkId) : (s.withRxUp g ls).link j = s.link j := rfl
@[simp] theorem State.withRxUp_inside (ls : List (Fin 9)) : (s.withRxUp g ls).inside = s.inside := rfl

@[simp] theorem State.withRxUp_linkOfLane (ls : List (Fin 9)) (h : Fin 8) (l : Fin 9) :
    (s.withRxUp g ls).linkOfLane h l = s.linkOfLane h l :=
  State.setLaneGroup_linkOfLane (v := { s.laneGroup g with rxUp := ls }) rfl h l

@[simp] theorem State.withRxUp_spareFree (ls : List (Fin 9)) : (s.withRxUp g ls).spareFree g = s.spareFree g :=
  State.setLaneGroup_spareFree rfl rfl

theorem State.rxUp_of_withRxUp {ls : List (Fin 9)} (h : t.plane.lanes = (s.withRxUp g ls).plane.lanes) : (t.laneGroup g).rxUp = ls := by
  rw [State.laneGroup_of_lanes h, State.withRxUp, State.setLaneGroup_laneGroup, if_pos rfl]

/-- The lanes of a group that are up with one more. -/
def LaneGroup.risen (v : LaneGroup) (l : Fin 9) : List (Fin 9) := if v.rxUp.contains l then v.rxUp else v.rxUp ++ [l]

theorem LaneGroup.mem_risen (v : LaneGroup) (l : Fin 9) : l ∈ v.risen l := by
  unfold LaneGroup.risen
  split
  · next h => exact List.contains_iff_mem.1 h
  · exact List.mem_append_right _ (List.mem_singleton.2 rfl)

/-- The lanes of a group that are up without one. -/
def LaneGroup.fallen (v : LaneGroup) (l : Fin 9) : List (Fin 9) := v.rxUp.filter (fun x => x ≠ l)

theorem LaneGroup.not_mem_fallen (v : LaneGroup) (l : Fin 9) : l ∉ v.fallen l := fun h =>
  of_decide_eq_true (List.mem_filter.1 h).2 rfl

theorem riseClause (hk : s.linkOfLane g l = some k) :
    ∃ t, exec (.laneRxUpRise g l) s = .next t ∧ t.inside = s.inside ∧ l ∈ (t.laneGroup g).rxUp ∧
      (∀ j, j ≠ k → t.link j = s.link j) ∧
      t.link k = (if (s.link k).state = .down then
        { s.link k with state := .hunt, inSync := false, good := 0, bad := 0, lastHeader := s.now } else s.link k) := by
  let r := s.withRxUp g ((s.laneGroup g).risen l)
  have hrun : laneRise g l s = if (s.link k).state = .down then
      r.setLink k { s.link k with state := .hunt, inSync := false, good := 0, bad := 0, lastHeader := s.now } else r := by
    unfold laneRise
    have hr : r.linkOfLane g l = some k := (State.withRxUp_linkOfLane ..).trans hk
    dsimp only
    split
    · next h => cases hr.symm.trans h
    · next k' h =>
      obtain rfl := Option.some.inj (hr.symm.trans h)
      rfl
  refine ⟨_, congrArg Host.Outcome.next hrun, ?_, ?_, fun j hj => ?_, ?_⟩ <;> split
  · rfl
  · rfl
  · exact State.rxUp_of_withRxUp (t := r.setLink k _) rfl ▸ LaneGroup.mem_risen ..
  · exact State.rxUp_of_withRxUp (t := r) rfl ▸ LaneGroup.mem_risen ..
  · exact (State.setLink_link ..).trans (if_neg (Ne.symm hj))
  · rfl
  · exact (State.setLink_link ..).trans (if_pos rfl)
  · rfl

theorem riseNoLink (hk : s.linkOfLane g l = none) :
    ∃ t, exec (.laneRxUpRise g l) s = .next t ∧ t.inside = s.inside ∧ l ∈ (t.laneGroup g).rxUp ∧ (∀ j, t.link j = s.link j) := by
  let r := s.withRxUp g ((s.laneGroup g).risen l)
  have hrun : laneRise g l s = r := by
    have hr : r.linkOfLane g l = none := (State.withRxUp_linkOfLane ..).trans hk
    unfold laneRise
    dsimp only
    split
    · rfl
    · next h => cases hr.symm.trans h
  exact ⟨r, congrArg Host.Outcome.next hrun, rfl, State.rxUp_of_withRxUp (t := r) rfl ▸ LaneGroup.mem_risen .., fun _ => rfl⟩

/-- What a falling lane does to its link. -/
theorem laneFall_eq (hk : s.linkOfLane g l = some k) :
    laneFall g l s =
      if (s.link k).state = .up ∧ s.spareFree g = true then (s.withRxUp g ((s.laneGroup g).fallen l)).startSparing k
      else if (s.link k).state = .sparing then s.withRxUp g ((s.laneGroup g).fallen l)
      else (s.withRxUp g ((s.laneGroup g).fallen l)).linkDown k := by
  let r := s.withRxUp g ((s.laneGroup g).fallen l)
  have hr : r.linkOfLane g l = some k := (State.withRxUp_linkOfLane ..).trans hk
  have hfree : r.spareFree g = s.spareFree g := State.withRxUp_spareFree ..
  unfold laneFall
  dsimp only
  split
  · next h => cases hr.symm.trans h
  · next k' h =>
    obtain rfl := Option.some.inj (hr.symm.trans h)
    rw [← hfree]
    rfl

theorem fallClause (hk : s.linkOfLane g l = some k) :
    ∃ t, exec (.laneRxUpFall g l) s = .next t ∧ l ∉ (t.laneGroup g).rxUp ∧
      ((s.link k).state = .up → s.spareFree g = true → s.Spares t k l) ∧
      ((s.link k).state = .up → s.spareFree g = false → s.GoesDown t k) ∧
      ((s.link k).state = .hunt ∨ (s.link k).state = .hello → s.GoesDown t k) ∧
      ((s.link k).state = .down ∨ (s.link k).state = .sparing → t.inside = s.inside ∧ ∀ j, t.link j = s.link j) := by
  obtain ⟨hgroup, hphys⟩ := State.linkOfLane_some hk
  let r := s.withRxUp g ((s.laneGroup g).fallen l)
  have hrphys : r.physLane k = l := (State.linkOfLane_some ((State.withRxUp_linkOfLane ..).trans hk)).2
  have hfree : r.spareFree (linkGroup k) = s.spareFree g := by
    rw [hgroup]
    exact State.withRxUp_spareFree ..
  have hgone (t : State) (h : t.plane.lanes = r.plane.lanes) : l ∉ (t.laneGroup g).rxUp :=
    State.rxUp_of_withRxUp h ▸ LaneGroup.not_mem_fallen _ _
  refine ⟨_, congrArg Host.Outcome.next (laneFall_eq hk), ?_⟩
  by_cases hup : (s.link k).state = .up
  · cases hs : s.spareFree g with
    | true =>
      obtain ⟨hspares, hlanes⟩ := State.startSparing_spares (hfree.trans hs)
      rw [hrphys] at hspares
      rw [if_pos ⟨hup, rfl⟩]
      exact ⟨hgone _ hlanes, fun _ _ => hspares, fun _ => nofun, by simp [hup], by simp [hup]⟩
    | false =>
      obtain ⟨hdown, hlanes⟩ := State.linkDown_goesDown (s := r) (k := k) (by rw [State.withRxUp_link, hup]; exact nofun)
      rw [if_neg (by simp), if_neg (by simp [hup])]
      exact ⟨hgone _ hlanes, fun _ => nofun, fun _ _ => hdown, by simp [hup], by simp [hup]⟩
  · rw [if_neg fun h => hup h.1]
    by_cases hsp : (s.link k).state = .sparing
    · rw [if_pos hsp]
      exact ⟨hgone r rfl, fun h => absurd h hup, fun h => absurd h hup, by simp [hsp], fun _ => ⟨rfl, fun _ => rfl⟩⟩
    · rw [if_neg hsp]
      by_cases hd : (s.link k).state = .down
      · rw [State.linkDown_of_down (s := r) hd]
        exact ⟨hgone r rfl, fun h => absurd h hup, fun h => absurd h hup, by simp [hd], fun _ => ⟨rfl, fun _ => rfl⟩⟩
      · obtain ⟨hdown, hlanes⟩ := State.linkDown_goesDown (s := r) hd
        exact ⟨hgone _ hlanes, fun h => absurd h hup, fun h => absurd h hup, fun _ => hdown, by simp [hd, hsp]⟩

theorem fallNoLink (hk : s.linkOfLane g l = none) :
    ∃ t, exec (.laneRxUpFall g l) s = .next t ∧ t.inside = s.inside ∧ l ∉ (t.laneGroup g).rxUp ∧ (∀ j, t.link j = s.link j) := by
  let r := s.withRxUp g ((s.laneGroup g).fallen l)
  have hrun : laneFall g l s = r := by
    have hr : r.linkOfLane g l = none := (State.withRxUp_linkOfLane ..).trans hk
    unfold laneFall
    dsimp only
    split
    · rfl
    · next h => cases hr.symm.trans h
  exact ⟨r, congrArg Host.Outcome.next hrun, rfl, State.rxUp_of_withRxUp (t := r) rfl ▸ LaneGroup.not_mem_fallen _ _, fun _ => rfl⟩

/-- A faulty lane of a link that can be spared (R382, R513). -/
theorem laneFaulty_eq (hk : s.linkOfLane g l = some k) (hl : l ≠ 8) (hsp : (s.link k).state ≠ .sparing)
    (hv : (s.link k).state = .hello → s.aon.nodeValid = true) : laneFaulty g l s = s.startSparing k := by
  unfold laneFaulty
  simp only [if_neg hl, hk]
  refine if_neg (not_or.2 ⟨hsp, fun ⟨hh, hn⟩ => ?_⟩)
  rw [hv hh] at hn
  exact absurd hn (by decide)

theorem faultClause (hk : s.linkOfLane g l = some k) (hl : l ≠ 8) (hsp : (s.link k).state ≠ .sparing)
    (hv : (s.link k).state = .hello → s.aon.nodeValid = true) :
    ∃ t, exec (.laneFault g l) s = .next t ∧ (s.spareFree g = true → s.Spares t k l) ∧
      (s.spareFree g = false → (s.link k).state ≠ .down → s.GoesDown t k) ∧
      (s.spareFree g = false → (s.link k).state = .down → t = s) := by
  obtain ⟨rfl, rfl⟩ := State.linkOfLane_some hk
  refine ⟨_, congrArg Host.Outcome.next (laneFaulty_eq hk hl hsp hv), fun h => (State.startSparing_spares h).1, fun h hd => ?_,
    fun h hd => ?_⟩
  · rw [State.startSparing_of_taken h]
    exact (State.linkDown_goesDown hd).1
  · rw [State.startSparing_of_taken h, State.linkDown_of_down hd]

theorem faultIgnored (hk : s.linkOfLane g l = some k) (hl : l ≠ 8)
    (h : (s.link k).state = .sparing ∨ ((s.link k).state = .hello ∧ s.aon.nodeValid = false)) :
    exec (.laneFault g l) s = .next s := by
  refine congrArg Host.Outcome.next (?_ : laneFaulty g l s = s)
  unfold laneFaulty
  simp only [if_neg hl, hk]
  refine if_pos (h.imp_right fun ⟨hh, hv⟩ => ⟨hh, ?_⟩)
  rw [hv]
  rfl

theorem faultNoLink (hk : s.linkOfLane g l = none) (hl : l ≠ 8) : exec (.laneFault g l) s = .next s := by
  refine congrArg Host.Outcome.next (?_ : laneFaulty g l s = s)
  unfold laneFaulty
  simp only [if_neg hl, hk]

/-- The gate with a group's spare retired. -/
def State.spareRetired (s : State) (g : Fin 8) : State := s.setLaneGroup g { s.laneGroup g with spareFailed := true }

theorem State.spareRetired_linkOfLane (s : State) (g h : Fin 8) (l : Fin 9) : (s.spareRetired g).linkOfLane h l = s.linkOfLane h l :=
  State.setLaneGroup_linkOfLane (v := { s.laneGroup g with spareFailed := true }) rfl h l

theorem State.spareFailed_of_retired (h : t.plane.lanes = (s.spareRetired g).plane.lanes) :
    (t.laneGroup g).spareFailed = true ∧ t.spareFree g = false := by
  have hfailed : (t.laneGroup g).spareFailed = true := by
    rw [State.laneGroup_of_lanes h, State.spareRetired, State.setLaneGroup_laneGroup, if_pos rfl]
  refine ⟨hfailed, ?_⟩
  unfold State.spareFree
  rw [hfailed, Bool.not_true, Bool.and_false, Bool.false_and]

theorem spareFaultClause (hk : s.linkOfLane g 8 = some k) :
    ∃ t, exec (.laneFault g 8) s = .next t ∧ (t.laneGroup g).spareFailed = true ∧ t.spareFree g = false ∧
      ((s.link k).state ≠ .down → s.GoesDown t k) := by
  have hrun : laneFaulty g 8 s = (s.spareRetired g).linkDown k := by
    have hr : (s.spareRetired g).linkOfLane g 8 = some k := (State.spareRetired_linkOfLane ..).trans hk
    unfold laneFaulty
    rw [if_pos rfl]
    dsimp only
    split
    · next k' h =>
      obtain rfl := Option.some.inj (hr.symm.trans h)
      rfl
    · next h => cases hr.symm.trans h
  refine ⟨_, congrArg Host.Outcome.next hrun, ?_⟩
  by_cases hd : (s.link k).state = .down
  · rw [State.linkDown_of_down (s := s.spareRetired g) hd]
    obtain ⟨hf, hn⟩ := State.spareFailed_of_retired (s := s) (t := s.spareRetired g) (g := g) rfl
    exact ⟨hf, hn, fun h => absurd hd h⟩
  · obtain ⟨hdown, hlanes⟩ := State.linkDown_goesDown (s := s.spareRetired g) hd
    obtain ⟨hf, hn⟩ := State.spareFailed_of_retired hlanes
    exact ⟨hf, hn, fun _ => hdown⟩

theorem spareFaultNoLink (hk : s.linkOfLane g 8 = none) :
    ∃ t, exec (.laneFault g 8) s = .next t ∧ t.spareFree g = false ∧ t.inside = s.inside ∧ (∀ j, t.link j = s.link j) := by
  have hrun : laneFaulty g 8 s = s.spareRetired g := by
    have hr : (s.spareRetired g).linkOfLane g 8 = none := (State.spareRetired_linkOfLane ..).trans hk
    unfold laneFaulty
    rw [if_pos rfl]
    dsimp only
    split
    · next h => cases hr.symm.trans h
    · rfl
  exact ⟨_, congrArg Host.Outcome.next hrun, (State.spareFailed_of_retired (s := s) rfl).2, rfl, fun _ => rfl⟩

end Sys2Proof.Machine
end

section
/-! SUPPORT. LANE and HELLO messages, the timers of the spare procedure and of silence, and delineation (R355, R381 to R383, R513). -/

namespace Sys2Proof.Machine

variable {s t u : State} {j k : LinkId} {a : Arrival} {sp : Sparing}

/-! ### Silence (R381, R382) -/

theorem silenceClause (h : ((s.link k).state = .up ∨ (s.link k).state = .hello) ∧ (s.link k).lastHeader + 1600 ≤ s.now ∨
      (∃ sp, (s.link k).state = .sparing ∧ (s.link k).sparing = some sp ∧ sp.began + 320000 ≤ s.now)) :
    ∃ t, exec (.linkSilenceTimeout k) s = .next t ∧ s.GoesDown t k := by
  have hrun : silence k s = s.linkDown k ∧ (s.link k).state ≠ .down := by
    unfold silence
    obtain ⟨hs | hs, hdue⟩ | ⟨sp, hs, hsp, hdue⟩ := h <;> simp [*]
  exact ⟨_, congrArg Host.Outcome.next hrun.1, (State.linkDown_goesDown hrun.2).1⟩

theorem silenceEarly (h : ((s.link k).state = .up ∨ (s.link k).state = .hello) ∧ s.now < (s.link k).lastHeader + 1600 ∨
      (∃ sp, (s.link k).state = .sparing ∧ (s.link k).sparing = some sp ∧ s.now < sp.began + 320000) ∨
      (s.link k).state = .down ∨ (s.link k).state = .hunt) :
    exec (.linkSilenceTimeout k) s = .next s := by
  refine congrArg Host.Outcome.next (?_ : silence k s = s)
  unfold silence
  obtain ⟨hs | hs, hearly⟩ | ⟨sp, hs, hsp, hearly⟩ | hs | hs := h <;> simp [Nat.not_le.2, *]

/-! ### The lane moves to the spare (R382) -/

/-- The lane of a link is on the spare and trains; every other link is as it was. -/
theorem State.moveLane_spec (hsp : (s.link k).sparing = some sp) (accepted : Bool) :
    (s.moveLane k accepted).inside = s.inside ∧
      (∃ x, (∀ j, (s.moveLane k accepted).link j = if k = j then x else s.link j) ∧
        x.sparing = some { sp with accepted := accepted, moved := true } ∧ x.state = (s.link k).state ∧ x.peer = (s.link k).peer) ∧
      ((s.moveLane k accepted).laneGroup (linkGroup k)).spared = some (linkLane k) ∧
      8 ∈ ((s.moveLane k accepted).laneGroup (linkGroup k)).train := by
  let x : Link := { s.link k with
    sparing := some { sp with accepted := accepted, moved := true }, inSync := false, good := 0, bad := 0 }
  let v : LaneGroup := { s.laneGroup (linkGroup k) with
    spared := some (linkLane k), train := (s.laneGroup (linkGroup k)).train ++ [8] }
  have hmove : s.moveLane k accepted = (s.setLink k x).setLaneGroup (linkGroup k) v := by
    unfold State.moveLane
    simp only [hsp]
    rfl
  have hgroup : (s.moveLane k accepted).laneGroup (linkGroup k) = v := by
    rw [hmove, State.setLaneGroup_laneGroup, if_pos rfl]
  rw [hgroup, hmove]
  exact ⟨rfl, ⟨x, fun j => s.setLink_link k j x, rfl, rfl, rfl⟩, rfl, List.mem_append_right _ (List.mem_singleton.2 rfl)⟩

theorem spareAcceptTimeoutClause (hsp : (s.link k).sparing = some sp) (hm : sp.moved = false) (hdue : sp.began + 16384 ≤ s.now) :
    ∃ t, exec (.laneSpareAcceptTimeout k) s = .next t ∧ (t.link k).sparing = some { sp with accepted := false, moved := true } ∧
      (t.laneGroup (linkGroup k)).spared = some (linkLane k) ∧ 8 ∈ (t.laneGroup (linkGroup k)).train ∧
      (∀ i, i ≠ k → t.link i = s.link i) ∧ t.inside = s.inside := by
  have hrun : exec (.laneSpareAcceptTimeout k) s = .next (s.moveLane k false) := by
    refine congrArg Host.Outcome.next ?_
    simp only [hsp, hm, hdue, Bool.not_false, and_self, if_true]
  obtain ⟨hin, ⟨x, hlink, hx, -, -⟩, hspared, htrain⟩ := State.moveLane_spec hsp false
  refine ⟨_, hrun, ?_, hspared, htrain, fun i hi => ?_, hin⟩
  · rw [hlink, if_pos rfl, hx]
  · rw [hlink, if_neg (Ne.symm hi)]

theorem spareAcceptEarly (hsp : (s.link k).sparing = some sp) (hearly : s.now < sp.began + 16384) :
    exec (.laneSpareAcceptTimeout k) s = .next s := by
  refine congrArg Host.Outcome.next ?_
  simp only [hsp]
  exact if_neg fun h => by omega

/-- A request or an accept for a link whose lane is being spared moves it. -/
theorem receiveLane_moves (hk : field a.pkt.payload 0 1 = k.val) (hop : field a.pkt.payload 1 1 = 1 ∨ field a.pkt.payload 1 1 = 2)
    (hsp : (s.link k).sparing = some sp) (hm : sp.moved = false) : receiveLane a s = s.moveLane k true := by
  have hlt : field a.pkt.payload 0 1 < 64 := hk ▸ k.isLt
  have hself : (⟨field a.pkt.payload 0 1, hlt⟩ : LinkId) = k := Fin.ext hk
  unfold receiveLane
  dsimp only
  rw [dif_pos hlt, hself]
  rcases hop with hop | hop <;> simp [hop, hsp, hm]

theorem laneMessageMoves (h : s.takeLocal 0xC6#8 = some (a, j, u)) (hk : field a.pkt.payload 0 1 = k.val)
    (hop : field a.pkt.payload 1 1 = 1 ∨ field a.pkt.payload 1 1 = 2) (hsp : (s.link k).sparing = some sp) (hm : sp.moved = false) :
    ∃ t, exec .laneMessage s = .next t ∧ (t.link k).sparing = some { sp with accepted := true, moved := true } ∧
      (t.laneGroup (linkGroup k)).spared = some (linkLane k) ∧ 8 ∈ (t.laneGroup (linkGroup k)).train ∧
      (∀ i, i ≠ k → t.link i = s.link i) ∧ t.inside = s.inside := by
  have hrun : exec .laneMessage s = .next (receiveLane a u) := congrArg Host.Outcome.next (by rw [h])
  obtain ⟨r, rfl⟩ := State.takeLocal_eq h
  have hmoves := receiveLane_moves (s := s.withPlane { s.plane with inbox := r }) hk hop hsp hm
  obtain ⟨hin, ⟨x, hlink, hx, -, -⟩, hspared, htrain⟩ :=
    State.moveLane_spec (s := s.withPlane { s.plane with inbox := r }) (k := k) hsp true
  refine ⟨_, hrun.trans (congrArg Host.Outcome.next hmoves), ?_, hspared, htrain, fun i hi => ?_, hin⟩
  · rw [hlink, if_pos rfl, hx]
  · rw [hlink, if_neg (Ne.symm hi)]
    rfl

/-- A link as it takes part in a spare procedure that its far side has begun. -/
def State.joined (s : State) (k : LinkId) : Link :=
  { s.link k with
    state := .sparing, sparing := some { began := s.now, lane := s.physLane k, accepted := true, moved := false } }

/-- A request for a link whose group's spare is free moves its lane at once and is accepted. -/
theorem receiveLane_joins (hk : field a.pkt.payload 0 1 = k.val) (hop : field a.pkt.payload 1 1 = 1)
    (hsp : (s.link k).sparing = none) (hf : s.spareFree (linkGroup k) = true) :
    ∃ c b, receiveLane a s = ((s.setLink k (s.joined k)).moveLane k true).sendLocal c 0xC6#8 b := by
  have hlt : field a.pkt.payload 0 1 < 64 := hk ▸ k.isLt
  have hself : (⟨field a.pkt.payload 0 1, hlt⟩ : LinkId) = k := Fin.ext hk
  have hnone : (List.finRange 8).findSome? (fun i =>
      if (s.link (laneLink (linkGroup k) i)).state = .sparing then some (laneLink (linkGroup k) i) else none) = none :=
    List.findSome?_eq_none_iff.2 fun i _ => if_neg (State.not_sparing_of_spareFree hf i)
  unfold receiveLane
  dsimp only
  rw [dif_pos hlt, hself]
  simp only [hop, if_true, hsp, hnone, Option.isSome_none, Bool.false_eq_true, false_and, if_false, hf, Bool.not_true]
  exact ⟨_, _, rfl⟩

theorem laneMessageJoins (h : s.takeLocal 0xC6#8 = some (a, j, u)) (hk : field a.pkt.payload 0 1 = k.val)
    (hop : field a.pkt.payload 1 1 = 1) (hsp : (s.link k).sparing = none) (hf : s.spareFree (linkGroup k) = true) :
    ∃ t, exec .laneMessage s = .next t ∧ (t.link k).state = .sparing ∧
      (t.link k).sparing = some { began := s.now, lane := s.physLane k, accepted := true, moved := true } ∧
      (t.laneGroup (linkGroup k)).spared = some (linkLane k) ∧ 8 ∈ (t.laneGroup (linkGroup k)).train ∧
      (∀ i, (t.link i).peer = (s.link i).peer ∧ (i ≠ k → (t.link i).state = (s.link i).state)) ∧ t.inside = s.inside := by
  have hrun : exec .laneMessage s = .next (receiveLane a u) := congrArg Host.Outcome.next (by rw [h])
  obtain ⟨r, rfl⟩ := State.takeLocal_eq h
  let v := s.withPlane { s.plane with inbox := r }
  obtain ⟨c, b, hjoins⟩ := receiveLane_joins (s := v) hk hop hsp hf
  have hset (i : LinkId) : (v.setLink k (v.joined k)).link i = if k = i then v.joined k else s.link i := v.setLink_link k i _
  have hjoined : ((v.setLink k (v.joined k)).link k).sparing =
      some { began := s.now, lane := s.physLane k, accepted := true, moved := false } := by
    rw [hset, if_pos rfl]
    rfl
  obtain ⟨hin, ⟨x, hlink, hx, hstate, hpeer⟩, hspared, htrain⟩ := State.moveLane_spec hjoined true
  rw [hset, if_pos rfl] at hstate hpeer
  have hall (i : LinkId) : ((v.setLink k (v.joined k)).moveLane k true).link i = if k = i then x else s.link i := by
    rw [hlink, hset]
    split <;> rfl
  obtain ⟨hself, hothers⟩ := sendLane_link hall hpeer c b
  have hlanes := State.laneGroup_of_lanes (State.of_still Plane.lanes (fun _ => rfl)
    (State.sendLocal_still ((v.setLink k (v.joined k)).moveLane k true) c 0xC6#8 b)) (linkGroup k)
  refine ⟨_, hrun.trans (congrArg Host.Outcome.next hjoins), ?_, ?_, ?_, ?_, hothers, ?_⟩
  · exact (hself Link.state fun _ => rfl).trans hstate
  · exact (hself Link.sparing fun _ => rfl).trans hx
  · rw [hlanes, hspared]
  · rw [hlanes]
    exact htrain
  · exact (State.sendLocal_inside ..).trans hin

/-! ### Delineation (R355) -/

/-- Whether a header passes and gives a length a packet can have. -/
abbrev headerStarts (hdr : BitVec 128) : Prop := headerPasses hdr = true ∧ (hdr.toNat / 2 ^ 48) % 256 ≤ 128

/-- What a header makes of a link that is not DOWN. -/
def Link.delineated (l : Link) (hdr : BitVec 128) (now : Nat) : Link :=
  if l.inSync then
    if headerPasses hdr then { l with bad := 0, lastHeader := now }
    else if 2 ≤ l.bad + 1 then { l with inSync := false, bad := 0, good := 0 }
    else { l with bad := l.bad + 1 }
  else if headerStarts hdr then
    if 8 ≤ l.good + 1 then
      { l with inSync := true, good := 0, bad := 0, lastHeader := now, helloAt := now,
               state := if l.state = .hunt then .hello else l.state }
    else { l with good := l.good + 1, lastHeader := now }
  else { l with good := 0 }

theorem delineate_spec (hd : (s.link k).state ≠ .down) (hdr : BitVec 128) :
    (delineate k hdr s).link k = (s.link k).delineated hdr s.now ∧ (∀ j, j ≠ k → (delineate k hdr s).link j = s.link j) ∧
      (delineate k hdr s).inside = s.inside := by
  have hset (x : Link) : (s.setLink k x).link k = x ∧ (∀ j, j ≠ k → (s.setLink k x).link j = s.link j) ∧
      (s.setLink k x).inside = s.inside :=
    ⟨(s.setLink_link ..).trans (if_pos rfl), fun j hj => (s.setLink_link ..).trans (if_neg (Ne.symm hj)), s.setLink_inside ..⟩
  unfold delineate Link.delineated headerStarts
  dsimp only
  rw [if_neg hd]
  split
  · split
    · exact hset _
    · split
      · obtain ⟨hself, hother, hin⟩ := hset { s.link k with inSync := false, bad := 0, good := 0 }
        exact ⟨(State.count1_link ..).trans hself, fun j hj => (State.count1_link ..).trans (hother j hj),
          (State.count1_inside ..).trans hin⟩
      · exact hset _
  · split
    · split <;> exact hset _
    · exact hset _

theorem Link.delineated_failing {l : Link} {hdr : BitVec 128} (n : Nat) (hs : l.inSync = true) (hp : headerPasses hdr = false) :
    (l.delineated hdr n).state = l.state ∧ ((l.delineated hdr n).inSync = true ↔ l.bad = 0) := by
  unfold Link.delineated
  rw [if_pos hs, if_neg (by rw [hp]; exact Bool.false_ne_true)]
  split
  · exact ⟨rfl, ⟨nofun, fun h => by omega⟩⟩
  · exact ⟨rfl, ⟨fun _ => by omega, fun _ => hs⟩⟩

theorem Link.delineated_starting {l : Link} {hdr : BitVec 128} (n : Nat) (hs : l.inSync = false) (hp : headerStarts hdr) :
    (l.delineated hdr n).state = (if 7 ≤ l.good ∧ l.state = .hunt then .hello else l.state) ∧
      ((l.delineated hdr n).inSync = true ↔ 7 ≤ l.good) ∧ (l.delineated hdr n).lastHeader = n := by
  unfold Link.delineated
  rw [if_neg (by rw [hs]; exact Bool.false_ne_true), if_pos hp]
  split
  · have h7 : 7 ≤ l.good := by omega
    exact ⟨by simp only [h7, true_and], iff_of_true rfl h7, rfl⟩
  · have h7 : ¬ 7 ≤ l.good := by omega
    exact ⟨(if_neg fun h => h7 h.1).symm, iff_of_false (by rw [hs]; exact Bool.false_ne_true) h7, rfl⟩

theorem delineationClause (hdr : BitVec 128) (hd : (s.link k).state ≠ .down) :
    ∃ t, exec (.packetDelineation k hdr) s = .next t ∧ (∀ j, j ≠ k → t.link j = s.link j) ∧ t.inside = s.inside ∧
      ((s.link k).inSync = true → headerPasses hdr = true → t.link k = { s.link k with bad := 0, lastHeader := s.now }) ∧
      ((s.link k).inSync = true → headerPasses hdr = false → (t.link k).state = (s.link k).state ∧
        ((t.link k).inSync = true ↔ (s.link k).bad = 0)) ∧
      ((s.link k).inSync = false → headerPasses hdr = true → (hdr.toNat / 2 ^ 48) % 256 ≤ 128 →
        (t.link k).state = (if 7 ≤ (s.link k).good ∧ (s.link k).state = .hunt then .hello else (s.link k).state) ∧
        ((t.link k).inSync = true ↔ 7 ≤ (s.link k).good) ∧ (t.link k).lastHeader = s.now) ∧
      ((s.link k).inSync = false → headerPasses hdr = false ∨ 128 < (hdr.toNat / 2 ^ 48) % 256 →
        t.link k = { s.link k with good := 0 }) := by
  obtain ⟨hself, hother, hin⟩ := delineate_spec hd hdr
  refine ⟨_, rfl, hother, hin, fun hs hp => ?_, fun hs hp => ?_, fun hs hp hl => ?_, fun hs hp => ?_⟩
  · exact hself.trans ((if_pos hs).trans (if_pos hp))
  · rw [hself]
    exact Link.delineated_failing s.now hs hp
  · rw [hself]
    exact Link.delineated_starting s.now hs ⟨hp, hl⟩
  · refine hself.trans ((if_neg (by rw [hs]; exact Bool.false_ne_true)).trans (if_neg ?_))
    rintro ⟨hpass, hle⟩
    rcases hp with hp | hp
    · rw [hp] at hpass
      cases hpass
    · omega

theorem delineationDown (hdr : BitVec 128) (hd : (s.link k).state = .down) : exec (.packetDelineation k hdr) s = .next s :=
  congrArg Host.Outcome.next (if_pos hd)

end Sys2Proof.Machine
end

section
/-! SUPPORT. HELLO messages and their timer (R381 to R383, R513). -/

namespace Sys2Proof.Machine

variable {s t u : State} {j k : LinkId} {a : Arrival} {sp : Sparing}

/-! ### A HELLO arrives -/

theorem execHello_eq (h : s.takeLocal 0xC7#8 = some (a, k, u)) : exec .hello s = .next (receiveHello a k u) :=
  congrArg Host.Outcome.next (by rw [h])

/-- Taking a message leaves every link, the node's identity and all but the plane. -/
theorem State.takeLocal_keeps {port : Byte} (h : s.takeLocal port = some (a, k, u)) :
    (∀ j, u.link j = s.link j) ∧ u.aon = s.aon ∧ u.rel = s.rel ∧ u.inside = s.inside := by
  obtain ⟨r, rfl⟩ := State.takeLocal_eq h
  exact ⟨fun _ => rfl, rfl, rfl, rfl⟩

theorem helloUp (h : s.takeLocal 0xC7#8 = some (a, k, u)) (hs : (s.link k).state = .hello) (hk : field a.pkt.payload 2 1 = k.val)
    (hv : s.aon.nodeValid = true) :
    ∃ t, exec .hello s = .next t ∧ (t.link k).state = .up ∧ (t.link k).peer = nodeField a.pkt.payload 0 ∧
      (∀ j, j ≠ k → t.link j = s.link j) ∧ t.inside = s.inside := by
  obtain ⟨hlink, haon, -, hin⟩ := State.takeLocal_keeps h
  let x : Link := { u.link k with
    state := .up, peer := nodeField a.pkt.payload 0, helloAt := u.now, routeAt := u.now, routeDirty := true
    syncAt := u.now, delayAt := u.now, syncSeq := none, faulted := [] }
  have hrun : receiveHello a k u = (u.setLink k x).linkRecord 1 (BitVec.ofNat 8 k.val) (nodeField a.pkt.payload 0) 0 0 := by
    simp only [receiveHello, hlink, hs, hk, haon, hv, decide_true, Bool.not_true, Bool.false_eq_true, if_false, x]
  have hall (j : LinkId) : (receiveHello a k u).link j = if k = j then x else s.link j := by
    rw [hrun, ← hlink j, ← State.setLink_link]
    exact State.effects_link ..
  refine ⟨_, execHello_eq h, ?_, ?_, fun j hj => ?_, ?_⟩
  · rw [hall, if_pos rfl]
  · rw [hall, if_pos rfl]
  · rw [hall, if_neg (Ne.symm hj)]
  · rw [hrun, State.linkRecord_inside, State.setLink_inside, hin]

theorem helloNoIdentity (h : s.takeLocal 0xC7#8 = some (a, k, u)) (hs : (s.link k).state = .hello)
    (hk : field a.pkt.payload 2 1 = k.val) (hv : s.aon.nodeValid = false) :
    exec .hello s = .next u ∧ ∀ j, u.link j = s.link j := by
  obtain ⟨hlink, haon, -, -⟩ := State.takeLocal_keeps h
  have hrun : receiveHello a k u = u := by
    simp only [receiveHello, hlink, hs, hk, haon, hv, decide_true, Bool.not_true, Bool.not_false, Bool.false_eq_true, if_false, if_true]
  exact ⟨(execHello_eq h).trans (congrArg Host.Outcome.next hrun), hlink⟩

theorem helloOther (h : s.takeLocal 0xC7#8 = some (a, k, u)) (hs : (s.link k).state = .hello)
    (hk : field a.pkt.payload 2 1 ≠ k.val) :
    ∃ t, exec .hello s = .next t ∧ t.plane = u.plane ∧ (∀ j, t.link j = s.link j) ∧ t.inside = s.inside ∧ t.latched 12 = true := by
  obtain ⟨hlink, -, -, hin⟩ := State.takeLocal_keeps h
  have hrun : receiveHello a k u = u.countLink ⟨0x02, 0, 12⟩ (BitVec.ofNat 8 k.val) := by
    simp only [receiveHello, hlink, hs, hk, decide_false, Bool.not_false, if_true]
  refine ⟨_, (execHello_eq h).trans (congrArg Host.Outcome.next hrun), State.effects_plane .., fun j => ?_, ?_, ?_⟩
  · exact (State.effects_link ..).trans (hlink j)
  · rw [State.countLink_inside, hin]
  · exact State.effects_raises _ _ _ _ (List.mem_cons_of_mem _ (List.mem_cons_self ..))

theorem helloAgain (h : s.takeLocal 0xC7#8 = some (a, k, u)) (hs : (s.link k).state = .up) (hk : field a.pkt.payload 2 1 = k.val) :
    ∃ t, exec .hello s = .next t ∧ t.link k = { s.link k with peer := nodeField a.pkt.payload 0 } ∧
      (∀ j, j ≠ k → t.link j = s.link j) ∧ t.inside = s.inside := by
  obtain ⟨hlink, -, -, hin⟩ := State.takeLocal_keeps h
  have hrun : receiveHello a k u = u.setLink k { s.link k with peer := nodeField a.pkt.payload 0 } := by
    simp only [receiveHello, hlink, hs, hk, decide_true, if_true]
  refine ⟨_, (execHello_eq h).trans (congrArg Host.Outcome.next hrun), ?_, fun j hj => ?_, ?_⟩
  · rw [State.setLink_link, if_pos rfl]
  · rw [State.setLink_link, if_neg (Ne.symm hj), hlink]
  · rw [State.setLink_inside, hin]

theorem helloUnheard (h : s.takeLocal 0xC7#8 = some (a, k, u)) (hs : (s.link k).state = .down ∨ (s.link k).state = .hunt) :
    exec .hello s = .next u ∧ ∀ j, u.link j = s.link j := by
  obtain ⟨hlink, -, -, -⟩ := State.takeLocal_keeps h
  have hrun : receiveHello a k u = u := by
    rcases hs with hs | hs <;> simp only [receiveHello, hlink, hs]
  exact ⟨(execHello_eq h).trans (congrArg Host.Outcome.next hrun), hlink⟩

/-! ### The spare procedure is done (R382, R385) -/

/-- A repair that takes a spare into use changes, of what stands inside, the repair state and the control plane alone. -/
theorem State.noteSpare_inside (s : State) (kind : Nat) (loc : List Byte) (r : Reliability) (c : Control) :
    { (s.noteSpare kind loc).inside with rel := r, ctl := c } = { s.inside with rel := r, ctl := c } := by
  obtain ⟨k, hk⟩ := State.takeRepairSem_eq { s with rel := { s.rel with repairs := s.rel.repairs + 1 } }
  unfold State.noteSpare
  rw [State.raise_inside, hk]
  rfl

/-- A link whose spare procedure is done is UP; no other link's state changes, and the repair is noted. -/
theorem State.spareDone_spec (hsp : (s.link k).sparing = some sp) :
    ((s.spareDone k).link k).state = .up ∧ ((s.spareDone k).link k).sparing = none ∧ (s.spareDone k).latched 20 = true ∧
      (∀ j, j ≠ k → ((s.spareDone k).link j).state = (s.link j).state) ∧ (s.spareDone k).rel.repairs = s.rel.repairs + 1 ∧
      { (s.spareDone k).inside with rel := s.rel, ctl := s.inside.ctl } = s.inside := by
  let x : Link := { s.link k with state := .up, sparing := none, delayAt := s.now, trailerFails := [] }
  have hrun : ∃ (c : LinkId) (b loc : List Byte), s.spareDone k =
      (((s.setLink k x).sendLocal c 0xC6#8 b).linkRecord 4 (BitVec.ofNat 8 k.val) (s.link k).peer 0 sp.lane.val).noteSpare 4 loc := by
    unfold State.spareDone
    simp only [hsp]
    exact ⟨_, _, _, rfl⟩
  obtain ⟨c, b, loc, hrun⟩ := hrun
  obtain ⟨hself, hothers⟩ := sendLane_link (fun j => s.setLink_link k j x) rfl c b
  generalize hv : (s.setLink k x).sendLocal c 0xC6#8 b = v at hrun hself hothers
  have hrel : v.rel = s.rel ∧ v.inside = s.inside := by
    subst hv
    have hin : ((s.setLink k x).sendLocal c 0xC6#8 b).inside = s.inside := (State.sendLocal_inside ..).trans (s.setLink_inside ..)
    have hrel : ((s.setLink k x).sendLocal c 0xC6#8 b).inside.rel = s.inside.rel := congrArg State.rel hin
    exact ⟨hrel, hin⟩
  obtain ⟨hrepairs, hlatched, -, -, hplane, -, -⟩ :=
    (v.linkRecord 4 (BitVec.ofNat 8 k.val) (s.link k).peer 0 sp.lane.val).noteSpare_spec 4 loc
  have hlink (j : LinkId) : (s.spareDone k).link j = v.link j := by
    rw [hrun]
    exact State.link_of_plane (hplane.trans (State.effects_plane ..)) j
  refine ⟨?_, ?_, by rw [hrun]; exact hlatched, fun j hj => ?_, ?_, ?_⟩
  · rw [hlink]
    exact hself Link.state fun _ => rfl
  · rw [hlink]
    exact hself Link.sparing fun _ => rfl
  · rw [hlink]
    exact (hothers j).2 hj
  · rw [hrun, hrepairs]
    exact congrArg (fun r : Reliability => r.repairs + 1) ((State.effects_rel ..).trans hrel.1)
  · rw [hrun, State.noteSpare_inside, State.linkRecord_inside, hrel.2]
    rfl

theorem helloSpared (h : s.takeLocal 0xC7#8 = some (a, k, u)) (hs : (s.link k).state = .sparing)
    (hsp : (s.link k).sparing = some sp) (hm : sp.moved = true) (hsync : (s.link k).inSync = true)
    (hk : field a.pkt.payload 2 1 = k.val) (hv : s.aon.nodeValid = true) :
    ∃ t, exec .hello s = .next t ∧ (t.link k).state = .up ∧ (t.link k).sparing = none ∧ t.latched 20 = true ∧
      (∀ j, j ≠ k → (t.link j).state = (s.link j).state) ∧ t.rel.repairs = s.rel.repairs + 1 ∧
      { t.inside with rel := s.rel, ctl := s.inside.ctl } = s.inside := by
  obtain ⟨hlink, haon, hrel, hin⟩ := State.takeLocal_keeps h
  have hrun : receiveHello a k u = u.spareDone k := by
    simp only [receiveHello, hlink, hs, hsp, hm, hsync, hk, haon, hv, decide_true, and_self, if_true]
  have hdone := State.spareDone_spec (s := u) (hlink k ▸ hsp)
  simp only [hlink, hrel, hin] at hdone
  exact ⟨_, (execHello_eq h).trans (congrArg Host.Outcome.next hrun), hdone⟩

/-! ### A HELLO is sent (R381, R513) -/

/-- The time between two HELLOs of a link, when it sends any. -/
def Link.helloPeriod (l : Link) : Option Nat :=
  match l.state with
  | .up => some 65536
  | .hello => some 1024
  | .sparing => some 1024
  | _ => none

theorem Link.helloPeriod_some {l : Link} (h : l.state = .up ∨ l.state = .hello ∨ l.state = .sparing) :
    l.helloPeriod = some (if l.state = .up then 65536 else 1024) := by
  unfold Link.helloPeriod
  rcases h with h | h | h <;> simp [h]

theorem Link.helloPeriod_none {l : Link} (h : l.state = .down ∨ l.state = .hunt) : l.helloPeriod = none := by
  unfold Link.helloPeriod
  rcases h with h | h <;> simp only [h]

/-- What sending a HELLO does, by the period of its link. -/
theorem sendHello_eq (k : LinkId) (s : State) :
    sendHello k s = match (s.link k).helloPeriod with
      | none => s
      | some n =>
        if s.aon.nodeValid ∧ (s.link k).helloAt ≤ s.now then
          (s.setLink k { s.link k with helloAt := s.now + n }).sendLocal k 0xC7#8
            (padTo 64 (leBytes 2 s.aon.node.toNat ++ leBytes 1 k.val ++ leBytes 1 s.roleBits ++ leBytes 4 versionWord.toNat))
        else s := rfl

theorem helloSendClause (hs : (s.link k).state = .up ∨ (s.link k).state = .hello ∨ (s.link k).state = .sparing)
    (hv : s.aon.nodeValid = true) (hdue : (s.link k).helloAt ≤ s.now) :
    ∃ t, exec (.helloSendTimer k) s = .next t ∧ (t.link k).helloAt = s.now + (if (s.link k).state = .up then 65536 else 1024) ∧
      (t.link k).state = (s.link k).state ∧ (∀ j, j ≠ k → t.link j = s.link j) ∧ t.inside = s.inside := by
  obtain ⟨⟨o, ho⟩, hne⟩ := sendLocal_setLink_link s k
    { s.link k with helloAt := s.now + (if (s.link k).state = .up then 65536 else 1024) } 0xC7#8
    (padTo 64 (leBytes 2 s.aon.node.toNat ++ leBytes 1 k.val ++ leBytes 1 s.roleBits ++ leBytes 4 versionWord.toNat))
  refine ⟨_, congrArg Host.Outcome.next ?_, by rw [ho], by rw [ho], hne, State.sendLocal_inside ..⟩
  exact (sendHello_eq k s).trans (by rw [Link.helloPeriod_some hs]; exact if_pos ⟨hv, hdue⟩)

theorem helloSendEarly (hs : (s.link k).state = .up ∨ (s.link k).state = .hello ∨ (s.link k).state = .sparing)
    (hearly : s.now < (s.link k).helloAt) : exec (.helloSendTimer k) s = .next s := by
  refine congrArg Host.Outcome.next ((sendHello_eq k s).trans ?_)
  rw [Link.helloPeriod_some hs]
  exact if_neg fun h => Nat.not_le.2 hearly h.2

theorem helloSendNone (h : (s.link k).state = .down ∨ (s.link k).state = .hunt ∨ s.aon.nodeValid = false) :
    exec (.helloSendTimer k) s = .next s := by
  refine congrArg Host.Outcome.next ((sendHello_eq k s).trans ?_)
  rcases or_assoc.2 h with hs | hv
  · rw [Link.helloPeriod_none hs]
  · split
    · rfl
    · exact if_neg fun h => by rw [hv] at h; exact Bool.false_ne_true h.1

/-! ### The statement -/

/-- Settles O32, from what each command does to the state of its link: a rising, a falling and a faulty lane with a link and
without one, silence, the LANE and HELLO messages, delineation, and the timers of the spare procedure and of HELLO. -/
theorem linkStates : Obligations.LinkStates := by
  unfold Obligations.LinkStates
  intro s k
  refine ⟨fun g l hk => ⟨riseClause hk, fallClause hk, faultClause hk, faultIgnored hk, ?_⟩, fun g l hk =>
    ⟨riseNoLink hk, fallNoLink hk, faultNoLink hk, ?_⟩, silenceClause, silenceEarly, fun a j u h hk => ⟨?_, ?_⟩, fun sp hsp hm =>
    ⟨spareAcceptTimeoutClause hsp hm, spareAcceptEarly hsp⟩, fun hdr => ⟨delineationDown hdr, delineationClause hdr⟩,
    fun a u h => ⟨fun hs hk => ⟨helloUp h hs hk, helloNoIdentity h hs hk⟩, helloOther h, ?_, helloAgain h, helloUnheard h⟩,
    fun hs hv => ⟨helloSendClause hs hv, helloSendEarly hs⟩, helloSendNone⟩
  · rintro rfl
    exact spareFaultClause hk
  · rintro rfl
    exact spareFaultNoLink hk
  · exact fun sp hop hsp hm => laneMessageMoves h hk hop hsp hm
  · exact laneMessageJoins h hk
  · exact fun sp hs hsp hm hsync hk hv => helloSpared h hs hsp hm hsync hk hv

end Sys2Proof.Machine
end

section
/-! SUPPORT. Gate queues: what one read takes, what settling leaves, and what the gate's own counts and notices leave of a queue
(R404, R405, R408, R410 to R412). -/

namespace Sys2Proof.Machine

variable {s u : State} {q m : QueueId} {v : Queue} {i : Item} {p : Nat}

/-! ### A queue that settles (R405) -/

/-- A queue that settles changes nothing but its configuration. -/
theorem Queue.settle_eq (v : Queue) : ∃ c n, v.settle = { v with cfg := c, nextCfg := n } := by
  unfold Queue.settle
  split
  · exact ⟨_, _, rfl⟩
  · exact ⟨v.cfg, v.nextCfg, rfl⟩

@[simp] theorem Queue.settle_items (v : Queue) : v.settle.items = v.items := by
  obtain ⟨c, n, h⟩ := v.settle_eq
  rw [h]

@[simp] theorem Queue.settle_current (v : Queue) : v.settle.current = v.current := by
  obtain ⟨c, n, h⟩ := v.settle_eq
  rw [h]

@[simp] theorem Queue.settle_dropping (v : Queue) : v.settle.dropping = v.dropping := by
  obtain ⟨c, n, h⟩ := v.settle_eq
  rw [h]

/-! ### The item that a read takes (R408) -/

/-- One step of the search for the oldest item of the highest priority. -/
def higherItem (best : Option Item) (i : Item) : Option Item :=
  match best with
  | none => some i
  | some b => if b.priority < i.priority then some i else some b

theorem oldestHighest_eq (l : List Item) : oldestHighest l = l.foldl higherItem none := rfl

/-- The search ends at an item of the highest priority. -/
theorem foldl_higherItem (l : List Item) (b : Item) :
    ∃ i, l.foldl higherItem (some b) = some i ∧ i ∈ b :: l ∧ ∀ j ∈ b :: l, j.priority ≤ i.priority := by
  induction l generalizing b with
  | nil => exact ⟨b, rfl, List.mem_cons_self, fun j hj => by rw [List.mem_singleton.1 hj]⟩
  | cons a l ih =>
    simp only [List.foldl_cons, higherItem]
    split
    · next hlt =>
      obtain ⟨i, hi, hmem, hmax⟩ := ih a
      refine ⟨i, hi, List.mem_cons_of_mem b hmem, fun j hj => ?_⟩
      rcases List.mem_cons.1 hj with rfl | hj
      · exact hlt.le.trans (hmax a List.mem_cons_self)
      · exact hmax j hj
    · next hge =>
      obtain ⟨i, hi, hmem, hmax⟩ := ih b
      refine ⟨i, hi, ?_, fun j hj => ?_⟩
      · rcases List.mem_cons.1 hmem with rfl | hmem
        · exact List.mem_cons_self
        · exact List.mem_cons_of_mem b (List.mem_cons_of_mem a hmem)
      · rcases List.mem_cons.1 hj with rfl | hj
        · exact hmax j List.mem_cons_self
        rcases List.mem_cons.1 hj with rfl | hj
        · exact (Nat.not_lt.1 hge).trans (hmax b List.mem_cons_self)
        · exact hmax j (List.mem_cons_of_mem b hj)

theorem oldestHighest_spec {l : List Item} (h : oldestHighest l = some i) : i ∈ l ∧ ∀ j ∈ l, j.priority ≤ i.priority := by
  rw [oldestHighest_eq] at h
  cases l with
  | nil => cases h
  | cons b l =>
    obtain ⟨k, hk, hspec⟩ := foldl_higherItem l b
    exact Option.some.inj (hk.symm.trans h) ▸ hspec

theorem Queue.nextItem_empty (h : v.items = []) : v.nextItem = none := by
  unfold Queue.nextItem
  rw [h]
  split <;> rfl

/-- While no packet is current, the next item is of the highest priority. -/
theorem Queue.nextItem_highest (h : v.nextItem = some i) (hc : v.current = none) :
    i ∈ v.items ∧ ∀ j ∈ v.items, j.priority ≤ i.priority := by
  unfold Queue.nextItem at h
  rw [hc] at h
  exact oldestHighest_spec h

/-- While a packet is current, the next item is one of it. -/
theorem Queue.nextItem_current (h : v.nextItem = some i) (hc : v.current = some p) : i ∈ v.items ∧ i.pkt = p := by
  unfold Queue.nextItem at h
  simp only [hc] at h
  exact ⟨List.mem_of_find?_eq_some h, by simpa using List.find?_some h⟩

theorem Queue.nextItem_mem (h : v.nextItem = some i) : i ∈ v.items := by
  cases hc : v.current with
  | none => exact (v.nextItem_highest h hc).1
  | some p => exact (v.nextItem_current h hc).1

/-! ### One read (R408, R412) -/

theorem Queue.read_idle (h : v.nextItem = none) : v.read = (v.idle, v) := by
  unfold Queue.read
  rw [h]

theorem Queue.read_next (h : v.nextItem = some i) :
    v.read.1 = i ∧ v.read.2.items = v.items.filter (fun j => j.sequence ≠ i.sequence) := by
  unfold Queue.read
  rw [h]
  exact ⟨rfl, Queue.settle_items _⟩

/-- Little-endian bytes of a value shifted up by whole bytes. -/
theorem leBytes_shiftLeft (k n x : Nat) : leBytes (k + n) (x <<< (8 * k)) = List.replicate k 0#8 ++ leBytes n x := by
  have hlow : ∀ j ∈ List.range k, BitVec.ofNat 8 ((x <<< (8 * k)) >>> (8 * j)) = 0#8 := by
    intro j hj
    have hjk : j < k := List.mem_range.1 hj
    refine BitVec.eq_of_getLsbD_eq fun b hb => ?_
    have hbit : ¬ 8 * k ≤ 8 * j + b := by omega
    simp [BitVec.getLsbD_ofNat, Nat.testBit_shiftRight, Nat.testBit_shiftLeft, hbit]
  have hhigh : ∀ j, (x <<< (8 * k)) >>> (8 * (k + j)) = x >>> (8 * j) := by
    intro j
    rw [Nat.mul_add, Nat.shiftRight_add, Nat.shiftLeft_shiftRight]
  simp only [leBytes, List.range_add, List.map_append, List.map_map, Function.comp_def, hhigh]
  rw [List.map_congr_left hlow, List.map_const', List.length_range]

/-- The bytes of the idle item (R412). -/
theorem Queue.idle_bytes (hseq : v.sequence < 2 ^ 32) :
    v.idle.bytes = leBytes 4 0 ++ leBytes 4 v.sequence
      ++ [BitVec.ofNat 8 ((if v.current.isSome then 1 else 0) + (if v.overrun then 2 else 0))] ++ List.replicate 55 0#8 := by
  have hheader : v.idle.header = v.sequence <<< (8 * 4) := by
    simpa [Item.header, Queue.idle, Nat.shiftLeft_eq] using hseq
  have hbytes : v.idle.bytes = leBytes (4 + 4) v.idle.header ++ padTo 56 v.idle.body := rfl
  have hbody : padTo 56 v.idle.body =
      [BitVec.ofNat 8 ((if v.current.isSome then 1 else 0) + (if v.overrun then 2 else 0))] ++ List.replicate 55 0#8 := by
    simp [Queue.idle, padTo]
  have hzero : leBytes 4 0 = List.replicate 4 0#8 := rfl
  rw [hbytes, hheader, leBytes_shiftLeft, hbody, hzero, List.append_assoc (_ ++ _)]

/-! ### What counts and notices leave of a queue (R404, R411) -/

/-- What packets of the gate's own leave of a queue they are offered to: its configuration, the packet that is read and the one
that is dropped. -/
def Queue.reading (v : Queue) : QueueCfg × Option Nat × Option Nat := (v.cfg, v.current, v.dropping)

theorem foldl_accept_reading (is : List Item) (v : Queue) : (is.foldl Queue.accept v).reading = v.reading := by
  induction is generalizing v with
  | nil => rfl
  | cons i is ih => exact ih (v.accept i)

theorem offerPacket_reading (k : QueueId) (tag : Half) (prio : Option Nat) (bodies : List (List Byte)) (s : State) (q : QueueId) :
    ((offerPacket k tag prio bodies s).1.queue q).reading = (s.queue q).reading := by
  have hset : ∀ w : Queue, w.reading = (s.queue k).reading → ((s.setQueue k w).queue q).reading = (s.queue q).reading := by
    intro w hw
    rw [State.setQueue_queue]
    split
    · next hk => rw [hw, hk]
    · rfl
  unfold offerPacket
  dsimp only
  split
  · rfl
  split
  · rfl
  split
  · exact hset _ rfl
  split
  · exact hset _ (foldl_accept_reading _ _)
  · exact hset _ (foldl_accept_reading _ _)

theorem oneEffect_reading (e : Effect) (s : State) (q : QueueId) : ((oneEffect e s).1.queue q).reading = (s.queue q).reading := by
  cases e with
  | count k n => rw [oneEffect_queue _ _ _ (.inl rfl)]
  | notice c d => rw [oneEffect_queue _ _ _ (.inl rfl)]
  | packet k tag prio bodies => exact offerPacket_reading k tag prio bodies s q

/-- What every single effect keeps, effects keep. -/
theorem runEffects_keeps {α : Type} (f : State → α) (hf : ∀ e s, f (oneEffect e s).1 = f s) (n : Nat) (es : List Effect) (s : State) :
    f (runEffects n es s) = f s := by
  induction n generalizing es s with
  | zero => rfl
  | succ n ih =>
    cases es with
    | nil => rfl
    | cons e es => rw [runEffects, ih, hf]

/-- Effects leave the configuration of every queue, and which packet is read or dropped there. -/
theorem State.effects_reading (s : State) (es : List Effect) (q : QueueId) : ((s.effects es).queue q).reading = (s.queue q).reading :=
  runEffects_keeps (fun t => (t.queue q).reading) (fun e t => oneEffect_reading e t q) _ es s

theorem oneEffect_count_causes (k : CtrKey) (n : Nat) (s : State) :
    (oneEffect (.count k n) s).2 = [] ∨ ∃ d, (oneEffect (.count k n) s).2 = [.notice 22 d] := by
  simp only [oneEffect]
  split
  · exact .inr ⟨_, rfl⟩
  · exact .inl rfl

theorem oneEffect_count_latched (k : CtrKey) (n code : Nat) (s : State) :
    (oneEffect (.count k n) s).1.latched code = s.latched code := by
  simp only [oneEffect]
  split <;> rfl

theorem oneEffect_notice_causes {code : Nat} (h : s.latched code = true) (d : List Byte) : (oneEffect (.notice code d) s).2 = [] := by
  simp only [oneEffect, h, if_true]

/-- A count that raises no new NTC_COUNTER_SAT leaves every queue (R493). -/
theorem State.countN_queue_of_latched {g j k n : Nat} (h : (s.countN g j k n).latched 22 = s.latched 22) (q : QueueId) :
    (s.countN g j k n).queue q = s.queue q := by
  let u := (oneEffect (.count ⟨g, j, k⟩ n) s).1
  have hu : u.queue q = s.queue q := oneEffect_queue (.count ⟨g, j, k⟩ n) s q (.inl rfl)
  have hrun : s.countN g j k n = runEffects 127 (oneEffect (.count ⟨g, j, k⟩ n) s).2 u :=
    congrArg (fun es => runEffects 127 es u) (List.append_nil _)
  rcases oneEffect_count_causes ⟨g, j, k⟩ n s with hnone | ⟨d, hsat⟩
  · rw [hrun, hnone]
    exact hu
  · rw [hrun, hsat, runEffects] at h ⊢
    have hl : u.latched 22 = true :=
      (oneEffect_count_latched ⟨g, j, k⟩ n 22 s).trans (h.symm.trans (runEffects_latched _ _ _ _ (oneEffect_latches u 22 d)))
    rw [oneEffect_notice_causes hl]
    exact (oneEffect_queue (.notice 22 d) u q (.inl rfl)).trans hu

/-! ### The count of dropped items (R410, R493, R519) -/

/-- No effect causes a count of dropped items. -/
theorem oneEffect_causes_skipDropped (e : Effect) (s : State) (q : QueueId) :
    (oneEffect e s).2.all (Effect.skips (queueCtr q 0)) = true := by
  cases e with
  | count k n => simp only [oneEffect]; split <;> simp [Effect.skips]
  | notice c d => simp only [oneEffect]; split <;> simp [Effect.skips]
  | packet k t p b =>
    simp only [oneEffect, offerPacket]
    repeat' split
    all_goals simp [Effect.skips, queueCtr]

theorem runEffects_dropped (n : Nat) (es : List Effect) (s : State) (h : es.all (Effect.skips (queueCtr q 0)) = true) :
    (runEffects n es s).counter (queueCtr q 0) = s.counter (queueCtr q 0) := by
  induction n generalizing es s with
  | zero => rfl
  | succ n ih =>
    cases es with
    | nil => rfl
    | cons e es =>
      rw [List.all_cons, Bool.and_eq_true] at h
      obtain ⟨he, hes⟩ := h
      rw [runEffects, ih _ _ (by rw [List.all_append, oneEffect_causes_skipDropped, hes]; rfl), oneEffect_counter e s _ he]

/-- The dropped items of a queue rise by those counted, saturating. -/
theorem State.countN_dropped (s : State) (q : QueueId) (n : Nat) :
    ((s.countN 0x05 q.val 0 n).counter ⟨0x05, q.val, 0⟩).count = min (2 ^ 48 - 1) ((s.counter ⟨0x05, q.val, 0⟩).count + n) := by
  let u := (oneEffect (.count (queueCtr q 0) n) s).1
  have hrun : s.countN 0x05 q.val 0 n = runEffects 127 (oneEffect (.count (queueCtr q 0) n) s).2 u :=
    congrArg (fun es => runEffects 127 es u) (List.append_nil _)
  have hu : u.counter (queueCtr q 0) = (s.counter (queueCtr q 0)).add n := by
    simp only [u, oneEffect]
    split <;> simp [State.counter]
  have hcount := Counter.add_count (s.counter (queueCtr q 0)) n
  rw [← hu, ← runEffects_dropped 127 _ u (oneEffect_causes_skipDropped _ s q), ← hrun] at hcount
  exact hcount

/-! ### Reads and drops of a queue's registers -/

theorem State.setQueue_self (s : State) (q : QueueId) (v : Queue) : (s.setQueue q v).queue q = v := by
  rw [State.setQueue_queue, if_pos rfl]

theorem State.setQueue_others (s : State) (v : Queue) (hm : m ≠ q) : (s.setQueue q v).queue m = s.queue m := by
  rw [State.setQueue_queue, if_neg (Ne.symm hm)]

theorem State.setQueue_same (s : State) (q p : QueueId) : (s.setQueue q (s.queue q)).queue p = s.queue p := by
  rw [State.setQueue_queue]
  split
  · next h => rw [h]
  · rfl

/-- An answer on a bus leaves the quiet part, but for what the buses answer. -/
theorem State.reply_quiet_besides (h : u.quiet = s.quiet) (b : Bus) (r : Nat) (d : List Byte) :
    { (u.reply b r d).quiet with ctl := { (u.reply b r d).quiet.ctl with rsp := s.ctl.rsp } } = s.quiet := by
  rw [← h, ← State.of_quiet (fun x => x.ctl.rsp) (fun _ => rfl) h]
  rfl

/-- Settles O9: with no item to take, a read answers the idle item and puts the queue back as it was. -/
theorem queueIdleRead : Obligations.QueueIdleRead := by
  unfold Obligations.QueueIdleRead
  intro s q hitems hseq
  have hread : (s.queue q).read = ((s.queue q).idle, s.queue q) := Queue.read_idle (Queue.nextItem_empty hitems)
  have htake : s.takeItem q = ((s.queue q).idle, s.setQueue q (s.queue q)) := by
    unfold State.takeItem
    rw [hread]
    rfl
  have hexec : exec (.queueItemRead q) s = .next ((s.setQueue q (s.queue q)).reply .ctl1 0 (s.queue q).idle.bytes) :=
    congrArg (fun r : Item × State => Host.Outcome.next (r.2.reply .ctl1 0 r.1.bytes)) htake
  refine ⟨_, hexec, ?_, State.setQueue_same s q, rfl⟩
  · rw [State.reply_rsp, Queue.idle_bytes hseq]

/-! ### `drop_packet` (R410) -/

theorem Queue.drop_none (h : v.current = none) : v.drop = (0, v) := by
  unfold Queue.drop
  rw [h]

theorem Queue.drop_current (h : v.current = some p) :
    v.drop.1 = (v.items.filter (fun i => i.pkt = p)).length ∧ v.drop.2.items = v.items.filter (fun i => i.pkt ≠ p) ∧
      v.drop.2.current = none ∧ v.drop.2.dropping = (if v.items.any (fun i => decide (i.pkt = p) && i.last) then none else some p) := by
  unfold Queue.drop
  simp only [h, Queue.settle_items, Queue.settle_current, Queue.settle_dropping, List.any_filter, true_and]

/-- A host item of a packet that is being dropped is dropped, and its last one ends the drop. -/
theorem Queue.offerHost_dropped {bytes : List Byte} (hd : v.dropping.isSome = true) (hf : (ofLe (bytes.take 8)).testBit 19 = false) :
    v.offerHost bytes = (.dropped, { v with
      sequence := (v.sequence + 1) % 2 ^ 32
      dropping := if (ofLe (bytes.take 8)).testBit 20 then none else v.dropping
      writing := if (ofLe (bytes.take 8)).testBit 20 then none else v.writing }) := by
  unfold Queue.offerHost
  simp only [hd, hf, Bool.not_false, Bool.and_self, if_true]

/-- What the fate of a host item counts and raises (R411, R416). -/
def offerEffects (q : QueueId) (now : Nat) : Offer → List Effect
  | .accepted => []
  | .ignored => [.count (queueCtr q 2) 1, .notice 14 (hostDetail (queueCtr q 2) q.val now)]
  | .dropped => [.count ⟨0x05, q.val, 0⟩ 1]

/-- What a queue raises as it comes to hold more than its watermark, from `v` to `w` (R413). -/
def crossingEffects (q : QueueId) (v w : Queue) : List Effect :=
  if w.latched && !v.latched then [.notice 13 (leBytes 2 q.val ++ leBytes 4 w.items.length ++ leBytes 4 w.peak ++ leBytes 1 w.crossings)]
  else []

theorem crossingEffects_spares (q k : QueueId) (v w : Queue) : (crossingEffects q v w).all (Effect.spares k) = true := by
  unfold crossingEffects
  split <;> rfl

theorem crossingEffects_same {w : Queue} (h : w.latched = v.latched) : crossingEffects q v w = [] := by
  unfold crossingEffects
  rw [h, Bool.and_not_self]
  rfl

/-- A host's write: the queue takes, ignores or drops the item, then that is counted and a crossed watermark is raised. -/
theorem State.hostOffer_eq (s : State) (q : QueueId) (bytes : List Byte) :
    s.hostOffer q bytes =
      ((s.setQueue q ((s.queue q).offerHost bytes).2).effects (offerEffects q s.now ((s.queue q).offerHost bytes).1)).effects
        (crossingEffects q (s.queue q) ((s.queue q).offerHost bytes).2) := by
  unfold State.hostOffer crossingEffects
  dsimp only
  generalize (s.queue q).offerHost bytes = r
  obtain ⟨o, w⟩ := r
  split
  · cases o <;> rfl
  · cases o <;> rfl

/-- Marking a truncation changes the items in place, and perhaps ends the packet that is read. -/
theorem Queue.truncate_eq (v : Queue) (p n : Nat) :
    ∃ l c, v.truncate p n = { v with items := l, current := c } ∧ l.length = v.items.length := by
  unfold Queue.truncate
  split
  · exact ⟨_, v.current, rfl, by simp only [fillPacketItems, List.length_map]⟩
  · exact ⟨v.items, _, rfl, rfl⟩

theorem Queue.truncate_cfg (v : Queue) (p n : Nat) : (v.truncate p n).cfg = v.cfg := by
  obtain ⟨l, c, h, -⟩ := v.truncate_eq p n
  rw [h]

theorem Queue.truncate_sequence (v : Queue) (p n : Nat) : (v.truncate p n).sequence = v.sequence := by
  obtain ⟨l, c, h, -⟩ := v.truncate_eq p n
  rw [h]

theorem Queue.truncate_overrun (v : Queue) (p n : Nat) : (v.truncate p n).overrun = v.overrun := by
  obtain ⟨l, c, h, -⟩ := v.truncate_eq p n
  rw [h]

theorem Queue.truncate_length (v : Queue) (p n : Nat) : (v.truncate p n).items.length = v.items.length := by
  obtain ⟨l, c, h, hl⟩ := v.truncate_eq p n
  rw [h, hl]

/-- An item that is offered leaves the queue's configuration. -/
theorem Queue.offerHost_cfg (v : Queue) (bytes : List Byte) : (v.offerHost bytes).2.cfg = v.cfg := by
  unfold Queue.offerHost
  dsimp only
  split
  · rfl
  split
  · rfl
  split
  · split
    · exact Queue.truncate_cfg ..
    · rfl
  split
  · rfl
  · rfl

/-- The gate's own packets do not enter a queue that the host writes (R411), so it is as the offer leaves it. -/
theorem State.hostOffer_queue (h : (s.queue q).cfg.hostWrites = true) (bytes : List Byte) :
    (s.hostOffer q bytes).queue q = ((s.queue q).offerHost bytes).2 := by
  have hcfg : ∀ w : Queue, w = ((s.queue q).offerHost bytes).2 → w.cfg.hostWrites = true := by
    rintro w rfl
    rw [Queue.offerHost_cfg, h]
  have hfirst := State.effects_hostQueue (s.setQueue q ((s.queue q).offerHost bytes).2)
    (offerEffects q s.now ((s.queue q).offerHost bytes).1) q (hcfg _ (State.setQueue_self ..))
  rw [State.setQueue_self] at hfirst
  rw [State.hostOffer_eq, State.effects_hostQueue _ _ _ (hcfg _ hfirst), hfirst]

theorem State.dropPacket_none (h : (s.queue q).drop.1 = 0) : s.dropPacket q = s.setQueue q (s.queue q).drop.2 := if_pos h

theorem State.dropPacket_some (h : (s.queue q).drop.1 ≠ 0) :
    s.dropPacket q = (s.setQueue q (s.queue q).drop.2).countN 0x05 q.val 0 (s.queue q).drop.1 := if_neg h

theorem State.dropPacket_counter (s : State) (q : QueueId) :
    ((s.dropPacket q).counter ⟨0x05, q.val, 0⟩).count =
      if (s.queue q).drop.1 = 0 then (s.counter ⟨0x05, q.val, 0⟩).count
      else min (2 ^ 48 - 1) ((s.counter ⟨0x05, q.val, 0⟩).count + (s.queue q).drop.1) := by
  split
  · next h => rw [State.dropPacket_none h]; rfl
  · next h => rw [State.dropPacket_some h, State.countN_dropped]; rfl

theorem State.dropPacket_reading (s : State) (q : QueueId) : ((s.dropPacket q).queue q).reading = (s.queue q).drop.2.reading := by
  by_cases h : (s.queue q).drop.1 = 0
  · rw [State.dropPacket_none h, State.setQueue_self]
  · rw [State.dropPacket_some h, State.countN, State.effects_reading, State.setQueue_self]

/-- A drop leaves the queue as it is without the packet's items; at queue 0 a new NTC_COUNTER_SAT may write its own item. -/
theorem State.dropPacket_queue (h : q = 0 → (s.dropPacket q).latched 22 = s.latched 22) :
    (s.dropPacket q).queue q = (s.queue q).drop.2 := by
  by_cases hn : (s.queue q).drop.1 = 0
  · rw [State.dropPacket_none hn, State.setQueue_self]
  · rw [State.dropPacket_some hn] at h ⊢
    by_cases hq : q = 0
    · rw [State.countN_queue_of_latched (h hq), State.setQueue_self]
    · rw [State.countN, State.effects_queue _ _ _ hq rfl, State.setQueue_self]

theorem State.dropPacket_others (s : State) (hm : m ≠ q) (h0 : m ≠ 0) : (s.dropPacket q).queue m = s.queue m := by
  by_cases hn : (s.queue q).drop.1 = 0
  · rw [State.dropPacket_none hn, State.setQueue_others _ _ hm]
  · rw [State.dropPacket_some hn, State.countN, State.effects_queue _ _ _ h0 rfl, State.setQueue_others _ _ hm]

/-- Settles O10: with no packet current, with one, and for the later items that the host writes of one. -/
theorem queueDropPacket : Obligations.QueueDropPacket := by
  unfold Obligations.QueueDropPacket
  intro s q
  refine ⟨fun hc => ?_, fun p hc => ?_, fun p bytes hw hd hf => ?_⟩
  · have hdrop : (s.queue q).drop = (0, s.queue q) := Queue.drop_none hc
    have hs : s.dropPacket q = s.setQueue q (s.queue q) := by
      rw [State.dropPacket_none (congrArg Prod.fst hdrop), hdrop]
    exact ⟨_, congrArg (fun u : State => Host.Outcome.next (u.reply .ctl1 0 [])) hs, State.setQueue_same s q, rfl⟩
  · obtain ⟨hcount, hitems, hcurrent, hdropping⟩ := Queue.drop_current hc
    have hreading : ((s.dropPacket q).queue q).reading = (s.queue q).drop.2.reading := s.dropPacket_reading q
    refine ⟨(s.dropPacket q).reply .ctl1 0 [], rfl, fun hl => ?_, ?_, ?_, ?_, fun m => s.dropPacket_others,
      State.reply_quiet_besides (s.dropPacket_quiet q) ..⟩
    · exact (congrArg Queue.items (State.dropPacket_queue hl)).trans hitems
    · exact (congrArg (fun x => x.2.1) hreading).trans hcurrent
    · exact (congrArg (fun x => x.2.2) hreading).trans hdropping
    · rw [← hcount]
      exact s.dropPacket_counter q
  · have hoffer := (s.queue q).offerHost_dropped (by rw [hd]; rfl) hf
    have hq := State.hostOffer_queue hw bytes
    refine ⟨(s.hostOffer q bytes).reply .ctl1 0 [], congrArg Host.Outcome.next (if_pos hw), ?_, ?_, ?_⟩
    · exact (congrArg Queue.items hq).trans (by rw [hoffer])
    · exact (congrArg Queue.dropping hq).trans (by rw [hoffer, hd])
    · show ((s.hostOffer q bytes).counter _).count = _
      rw [State.hostOffer_eq, crossingEffects_same (by rw [hoffer]), congrArg Prod.fst hoffer]
      exact State.countN_dropped ..

end Sys2Proof.Machine
end

section
/-! SUPPORT. Reads and writes at a queue's registers, and the commands that act as they do (R405 to R416, R470, R517, R518). -/

namespace Sys2Proof.Machine

variable {s : State} {q m : QueueId} {v : Queue} {i : Item} {bytes : List Byte} {p : MPort} {n : Fin 32}

/-! ### One item is taken (R408, R470) -/

theorem State.takeItem_sound (h : (s.queue q).nextItem = some i) (hb : i.bad = none) :
    s.takeItem q = (i, s.setQueue q (s.queue q).read.2) := by
  unfold State.takeItem
  simp only [(Queue.read_next h).1, hb]

theorem State.takeItem_poisoned {a : Nat} (h : (s.queue q).nextItem = some i) (hb : i.bad = some a) :
    s.takeItem q = (i, (s.setQueue q (s.queue q).read.2).effects (.count ⟨0x13, 0, 3⟩ 1 :: poisonRead 0 (bankOf a) a s.now)) := by
  unfold State.takeItem
  simp only [(Queue.read_next h).1, hb]

/-- The bytes after the header of an item whose word is poisoned are zero (R470). -/
theorem Item.bytes_poisoned (h : i.bad ≠ none) : i.bytes.drop 8 = List.replicate 56 0#8 := by
  have hlength : (leBytes 8 ({ i with tag := 0xFFFF#16 } : Item).header).length = 8 := by
    rw [leBytes, List.length_map, List.length_range]
  unfold Item.bytes
  rw [if_pos (Option.isSome_iff_ne_none.2 h), List.drop_left' hlength]

theorem State.takeItem_sound_queues (h : (s.queue q).nextItem = some i) (hb : i.bad = none) :
    ((s.takeItem q).2.queue q).items = (s.queue q).items.filter (fun j => j.sequence ≠ i.sequence) ∧
      (∀ m, m ≠ q → (s.takeItem q).2.queue m = s.queue m) := by
  rw [State.takeItem_sound h hb]
  refine ⟨?_, fun m => State.setQueue_others s _⟩
  rw [State.setQueue_self]
  exact (Queue.read_next h).2

/-- A poisoned item is counted and raises NTC_MEMORY; the item that this may write goes to queue 0 (R404, R470). -/
theorem State.takeItem_poisoned_spec (h : (s.queue q).nextItem = some i) (hb : i.bad ≠ none) :
    (s.takeItem q).2.latched 19 = true ∧
      (q ≠ 0 → ((s.takeItem q).2.queue q).items = (s.queue q).items.filter (fun j => j.sequence ≠ i.sequence)) ∧
      (∀ m, m ≠ q → m ≠ 0 → (s.takeItem q).2.queue m = s.queue m) ∧
      ((s.takeItem q).2.counter ⟨0x13, 0, 3⟩).count = min (2 ^ 48 - 1) ((s.counter ⟨0x13, 0, 3⟩).count + 1) := by
  obtain ⟨a, ha⟩ := Option.ne_none_iff_exists'.1 hb
  rw [State.takeItem_poisoned h ha]
  refine ⟨State.effects_raises _ _ 19 _ (List.mem_cons_of_mem _ (List.mem_cons_of_mem _ List.mem_cons_self)), fun h0 => ?_,
    fun m hm h0 => ?_, ?_⟩
  · rw [State.effects_queue _ _ _ h0 rfl, State.setQueue_self]
    exact (Queue.read_next h).2
  · rw [State.effects_queue _ _ _ h0 rfl, State.setQueue_others _ _ hm]
  · rw [State.effects_count _ _ _ _ (by decide) rfl]
    exact Counter.add_count _ _

/-! ### One item is offered (R409 to R411) -/

theorem Queue.offerHost_sequence (v : Queue) (bytes : List Byte) : (v.offerHost bytes).2.sequence = (v.sequence + 1) % 2 ^ 32 := by
  unfold Queue.offerHost
  dsimp only
  split
  · rfl
  split
  · rfl
  split
  · split
    · exact Queue.truncate_sequence ..
    · rfl
  split
  · rfl
  · rfl

/-- The packet that a host item belongs to: the one it begins, else the one being written (log 13). -/
def Queue.packetOf (v : Queue) (first : Bool) : Nat := if first then v.sequence else v.writing.getD v.sequence

/-- With room, the item is taken; the last one of a packet fills in the packet's count (R409). -/
theorem Queue.offerHost_taken (hroom : v.items.length ≠ v.capacity)
    (hopen : (ofLe (bytes.take 8)).testBit 19 = true ∨ v.dropping = none ∧ v.ignoring = false) :
    let first := (ofLe (bytes.take 8)).testBit 19
    let i := hostItem bytes v.sequence (v.packetOf first)
    (v.offerHost bytes).2.items = (if (ofLe (bytes.take 8)).testBit 20 && !first then
      fillPacketItems i.pkt ((v.sequence + 2 ^ 32 - i.pkt) % 2 ^ 32 + 1) (v.items ++ [i]) else v.items ++ [i]) := by
  have hdropping : (v.dropping.isSome && !(ofLe (bytes.take 8)).testBit 19) = false := by
    rcases hopen with h | ⟨h, -⟩ <;> simp [h]
  have hignoring : (v.ignoring && !(ofLe (bytes.take 8)).testBit 19) = false := by
    rcases hopen with h | ⟨-, h⟩ <;> simp [h]
  unfold Queue.offerHost
  simp only [hdropping, hignoring, Bool.false_eq_true, if_false, if_neg hroom]
  split
  · rfl
  · rfl

/-- Without room, or behind a truncation, the item is ignored with `overrun`. -/
theorem Queue.offerHost_ignored (hd : (ofLe (bytes.take 8)).testBit 19 = true ∨ v.dropping = none)
    (hfull : v.items.length = v.capacity ∨ ((ofLe (bytes.take 8)).testBit 19 = false ∧ v.ignoring = true)) :
    (v.offerHost bytes).1 = .ignored ∧ (v.offerHost bytes).2.overrun = true ∧
      (v.offerHost bytes).2.items.length = v.items.length := by
  have hdropping : (v.dropping.isSome && !(ofLe (bytes.take 8)).testBit 19) = false := by
    rcases hd with h | h <;> simp [h]
  unfold Queue.offerHost
  simp only [hdropping, Bool.false_eq_true, if_false]
  split
  · exact ⟨rfl, rfl, rfl⟩
  next hignoring =>
    have hcap : v.items.length = v.capacity := by
      refine hfull.resolve_right fun h => hignoring ?_
      rw [h.1, h.2]
      rfl
    rw [if_pos hcap]
    split
    · exact ⟨rfl, Queue.truncate_overrun .., Queue.truncate_length ..⟩
    · exact ⟨rfl, rfl, rfl⟩

theorem State.hostOffer_others (s : State) (bytes : List Byte) (hm : m ≠ q) (h0 : m ≠ 0) : (s.hostOffer q bytes).queue m = s.queue m := by
  have hspares : (offerEffects q s.now ((s.queue q).offerHost bytes).1).all (Effect.spares m) = true := by
    cases ((s.queue q).offerHost bytes).1 <;> rfl
  rw [State.hostOffer_eq, State.effects_queue _ _ _ h0 (crossingEffects_spares ..), State.effects_queue _ _ _ h0 hspares,
    State.setQueue_others _ _ hm]

/-- An ignored item raises NTC_HOST (R416). -/
theorem State.hostOffer_latched (h : ((s.queue q).offerHost bytes).1 = .ignored) : (s.hostOffer q bytes).latched 14 = true := by
  rw [State.hostOffer_eq, h]
  exact State.effects_latched _ _ _ (State.effects_raises _ _ 14 _ (List.mem_cons_of_mem _ List.mem_cons_self))

theorem queueItemWrite_refused (hw : (s.queue q).cfg.hostWrites = false) :
    ∃ t, exec (.queueItemWrite q bytes) s = .next t ∧ aget .ctl1 t.ctl.rsp = some (2, []) ∧
      (q ≠ 0 → t.queue q = s.queue q) ∧ { t.quiet with ctl := { t.quiet.ctl with rsp := s.ctl.rsp } } = s.quiet :=
  ⟨(s.countN 0x05 q.val 1 1).reply .ctl1 2 [], congrArg Host.Outcome.next (if_neg (by rw [hw]; exact Bool.false_ne_true)),
    State.reply_rsp .., fun h0 => State.effects_queue _ _ _ h0 rfl, State.reply_quiet_besides (State.countN_quiet ..) ..⟩

/-- Settles O11: a read, a write to a host-written queue, a write to a gate-written one, and the two bits that a written 1 clears. -/
theorem queuePorts : Obligations.QueuePorts := by
  unfold Obligations.QueuePorts
  intro s q
  refine ⟨fun i h => ?_, fun bytes hw => ?_, fun _ => queueItemWrite_refused,
    ⟨_, rfl, State.setQueue_self s q _, fun _ => State.setQueue_others s _, rfl⟩,
    ⟨_, rfl, State.setQueue_self s q _, fun _ => State.setQueue_others s _, rfl⟩⟩
  · have hitem : (s.takeItem q).1 = i := (Queue.read_next h).1
    refine ⟨(s.takeItem q).2.reply .ctl1 0 (s.takeItem q).1.bytes, rfl, ?_, Queue.nextItem_mem h,
      fun p hp => (Queue.nextItem_current h hp).2, fun hc => (Queue.nextItem_highest h hc).2, fun hb => ?_, fun hb => ?_⟩
    · rw [State.reply_rsp, hitem]
    · obtain ⟨hitems, hothers⟩ := State.takeItem_sound_queues h hb
      exact ⟨hitems, hothers, by rw [State.takeItem_sound h hb]; rfl⟩
    · obtain ⟨hlatched, hitems, hothers, hcount⟩ := State.takeItem_poisoned_spec h hb
      exact ⟨Item.bytes_poisoned hb, hlatched, hitems, hothers, hcount, State.reply_quiet_besides (s.takeItem_quiet q) ..⟩
  · have hq : ((s.hostOffer q bytes).reply .ctl1 0 []).queue q = ((s.queue q).offerHost bytes).2 := State.hostOffer_queue hw bytes
    refine ⟨(s.hostOffer q bytes).reply .ctl1 0 [], congrArg Host.Outcome.next (if_pos hw), State.reply_rsp .., ?_,
      fun m => State.hostOffer_others s bytes, State.reply_quiet_besides (s.hostOffer_quiet q bytes) .., fun hroom hopen => ?_,
      fun hd hfull => ?_, fun hf hd => ?_⟩
    · rw [hq, Queue.offerHost_sequence]
    · rw [hq]
      exact ⟨hostItem bytes (s.queue q).sequence ((s.queue q).packetOf ((ofLe (bytes.take 8)).testBit 19)), rfl, rfl, rfl, rfl, rfl,
        rfl, rfl, Queue.offerHost_taken hroom hopen⟩
    · obtain ⟨hfate, hoverrun, hlength⟩ := Queue.offerHost_ignored hd hfull
      rw [hq]
      exact ⟨hoverrun, hlength, State.hostOffer_latched hfate⟩
    · rw [hq, Queue.offerHost_dropped (Option.isSome_iff_ne_none.2 hd) hf]
      exact ⟨rfl, rfl⟩

/-! ### The commands over one queue (R517, R518) -/

theorem queueNumber_val (q : QueueId) : queueNumber q.val = some q := dif_pos q.isLt

theorem State.mbox_of_quiet {t : State} (h : t.quiet = s.quiet) : t.ctl.mbox = s.ctl.mbox :=
  State.of_quiet (fun x => x.ctl.mbox) (fun _ => rfl) h

theorem queueRead_answers (hq : s.arg p n 0 2 = q.val) (h : s.Ready p n 0x0601 2) :
    s.AnswersWith (exec (.queueRead p n) s) p n Status.ok (s.queue q).read.1.bytes (s.takeItem q).2 := by
  refine State.answersWith h (State.mbox_of_quiet (s.takeItem_quiet q)) ?_
  have hbody : field (s.cmdOf p n 0x0601).body 0 2 = q.val := hq
  have htake : (s.startedAt p n).takeItem q =
      ((s.takeItem q).1, (s.takeItem q).2.setSlot p n { s.slot p n with started := true }) := State.takeItem_setSlot ..
  simp only [runQueueRead, hbody, queueNumber_val, htake]
  rfl

theorem queueWrite_answers (hq : s.arg p n 0 2 = q.val) (h : s.Ready p n 0x0602 80) (hw : (s.queue q).cfg.hostWrites = true) :
    s.AnswersWith (exec (.queueWrite p n) s) p n Status.ok [] (s.hostOffer q (((s.slot p n).body.drop 16).take 64)) := by
  refine State.answersWith h (State.mbox_of_quiet (s.hostOffer_quiet q _)) ?_
  have hbody : field (s.cmdOf p n 0x0602).body 0 2 = q.val := hq
  simp only [runQueueWrite, hbody, queueNumber_val, State.startedAt_queue, hw, Bool.not_true, Bool.false_eq_true, if_false]
  rw [State.startedAt, State.hostOffer_setSlot]
  rfl

/-- QUEUE_CONTROL's operation runs as on the queue's registers, and is answered. -/
theorem queueControl_answers {u : State} (h : s.Ready p n 0x0604 8) (hu : u.quiet = s.quiet)
    (hrun : runQueueControl (s.cmdOf p n 0x0604) (s.startedAt p n) =
      (u.setSlot p n { s.slot p n with started := true }).respond p n Status.ok []) :
    s.AnswersWith (exec (.queueControl p n) s) p n Status.ok [] u :=
  State.answersWith h (State.mbox_of_quiet hu) hrun

theorem queueLevel_answers (hq : s.arg p n 0 2 = q.val) (h : s.Ready p n 0x0604 8) (hop : s.arg p n 2 1 = 1)
    (hlevel : s.arg p n 4 4 < 2 ^ 24) :
    s.AnswersWith (exec (.queueControl p n) s) p n Status.ok []
      (s.setQueue q { s.queue q with cfg := { (s.queue q).cfg with level := s.arg p n 4 4 } }) := by
  refine queueControl_answers h rfl ?_
  have hbody : field (s.slot p n).body 0 2 = q.val := hq
  have hstored : s.arg p n 4 4 % 2 ^ 24 = s.arg p n 4 4 := Nat.mod_eq_of_lt hlevel
  have hfits : ¬ 2 ^ 24 ≤ s.arg p n 4 4 := Nat.not_le.2 hlevel
  simp only [runQueueControl, State.cmdOf_body, hbody, queueNumber_val, hop, hfits, if_false, setLevel, hstored]
  rfl

theorem queueAck_answers (hq : s.arg p n 0 2 = q.val) (h : s.Ready p n 0x0604 8) (hop : s.arg p n 2 1 = 2) :
    s.AnswersWith (exec (.queueControl p n) s) p n Status.ok []
      (s.setQueue q { s.queue q with latched := false, crossings := 0, peak := (s.queue q).items.length }) := by
  refine queueControl_answers h rfl ?_
  have hbody : field (s.slot p n).body 0 2 = q.val := hq
  simp only [runQueueControl, State.cmdOf_body, hbody, queueNumber_val, hop]
  rfl

theorem queueOverrun_answers (hq : s.arg p n 0 2 = q.val) (h : s.Ready p n 0x0604 8) (hop : s.arg p n 2 1 = 3) :
    s.AnswersWith (exec (.queueControl p n) s) p n Status.ok [] (s.setQueue q { s.queue q with overrun := false }) := by
  refine queueControl_answers h rfl ?_
  have hbody : field (s.slot p n).body 0 2 = q.val := hq
  simp only [runQueueControl, State.cmdOf_body, hbody, queueNumber_val, hop]
  rfl

theorem queueDrop_answers (hq : s.arg p n 0 2 = q.val) (h : s.Ready p n 0x0604 8) (hop : s.arg p n 2 1 = 4) :
    s.AnswersWith (exec (.queueControl p n) s) p n Status.ok [] (s.dropPacket q) := by
  refine queueControl_answers h (s.dropPacket_quiet q) ?_
  have hbody : field (s.slot p n).body 0 2 = q.val := hq
  simp only [runQueueControl, State.cmdOf_body, hbody, queueNumber_val, hop]
  rw [State.startedAt, State.dropPacket_setSlot]
  rfl

/-- Settles O19, command by command and operation by operation. -/
theorem queueCommands : Obligations.QueueCommands :=
  fun _ _ _ _ hq => ⟨queueRead_answers hq, queueWrite_answers hq, queueLevel_answers hq, queueAck_answers hq,
    queueOverrun_answers hq, queueDrop_answers hq⟩

end Sys2Proof.Machine
end

section
/-! SUPPORT. A cast at its instant, the end of its window, and the end of a retained policy (R402, R405, R444, R447 to R449, R484,
R487, R489, R501). -/

namespace Sys2Proof.Machine

variable {s : State} {a : Armed} {m p : Policy}

/-! ### The queues' levels (R405) -/

/-- One queue takes its configuration from a policy's queue table. -/
def installQueue (cs : List QueueCfg) (u : State) (q : QueueId) : State :=
  match cs[q.val]? with
  | some c => u.setQueue q ((u.queue q).reconfigure c)
  | none => u

theorem installQueues_eq (cs : List QueueCfg) (s : State) : s.installQueues cs = (List.finRange 512).foldl (installQueue cs) s := rfl

theorem installQueue_some {cs : List QueueCfg} {q : QueueId} {c : QueueCfg} (h : cs[q.val]? = some c) (u : State) :
    installQueue cs u q = u.setQueue q ((u.queue q).reconfigure c) := by
  unfold installQueue
  rw [h]

theorem installQueue_others {cs : List QueueCfg} {q k : QueueId} (h : q ≠ k) (u : State) : (installQueue cs u k).queue q = u.queue q := by
  unfold installQueue
  split
  · exact State.setQueue_others u _ h
  · rfl

theorem Queue.reconfigure_level (v : Queue) (c : QueueCfg) : (v.reconfigure c).cfg.level = c.level := by
  unfold Queue.reconfigure Queue.settle
  split
  · rfl
  · rfl

theorem foldl_installQueue_level {cs : List QueueCfg} {q : QueueId} {c : QueueCfg} (hc : cs[q.val]? = some c) (ks : List QueueId)
    (u : State) (h : q ∈ ks ∨ (u.queue q).cfg.level = c.level) : ((ks.foldl (installQueue cs) u).queue q).cfg.level = c.level := by
  induction ks generalizing u with
  | nil => exact h.resolve_left List.not_mem_nil
  | cons k ks ih =>
    refine ih _ ?_
    by_cases hk : q = k
    · refine .inr ?_
      rw [← hk, installQueue_some hc, State.setQueue_self, Queue.reconfigure_level]
    · rw [installQueue_others hk]
      exact h.imp_left fun hq => (List.mem_cons.1 hq).resolve_left hk

theorem State.installQueues_level {cs : List QueueCfg} {q : QueueId} {c : QueueCfg} (hc : cs[q.val]? = some c) (s : State) :
    ((s.installQueues cs).queue q).cfg.level = c.level := by
  rw [installQueues_eq]
  exact foldl_installQueue_level hc _ s (.inl (List.mem_finRange q))

/-- Configuring the queues changes nothing else. -/
theorem State.installQueues_only (cs : List QueueCfg) (s : State) : ∃ l, s.installQueues cs = { s with queues := l } := by
  rw [installQueues_eq]
  generalize List.finRange 512 = ks
  induction ks generalizing s with
  | nil => exact ⟨s.queues, rfl⟩
  | cons k ks ih =>
    obtain ⟨l, hl⟩ := ih (installQueue cs s k)
    refine ⟨l, hl.trans ?_⟩
    unfold installQueue
    split
    · rfl
    · rfl

/-! ### What follows the installation of a cast's tables -/

/-- What the end of a DEGRADED report, the power gating of arrays, the barrier release and the counts and notices of a cast leave. -/
def State.castSide (s : State) : Casting × Plane × Power × Streams × Boot × List (BulkId × Bulk) × Aon ×
    List ((MPort × Fin 32) × MSlot) × (QueueId → QueueCfg) :=
  (s.cast, s.plane, s.power, s.streams, s.boot, s.bulk, s.aon, s.ctl.mbox, fun q => (s.queue q).cfg)

theorem State.effects_castSide (s : State) (es : List Effect) : (s.effects es).castSide = s.castSide := by
  have hcfg : (fun q => ((s.effects es).queue q).cfg) = fun q => (s.queue q).cfg :=
    funext fun q => congrArg (fun x => x.1) (s.effects_reading es q)
  simp only [State.castSide, hcfg, State.effects_cast, State.effects_plane, State.effects_power, State.effects_streams,
    State.effects_boot, State.effects_bulk, State.effects_aon, State.effects_mbox]

theorem State.cfg_of_castSide {t : State} (h : t.castSide = s.castSide) (q : QueueId) : (t.queue q).cfg = (s.queue q).cfg :=
  congrFun (congrArg (fun x => x.2.2.2.2.2.2.2.2) h) q

theorem State.of_castSide {t : State} (h : t.castSide = s.castSide) :
    t.cast = s.cast ∧ t.plane = s.plane ∧ t.power = s.power ∧ t.streams = s.streams ∧ t.boot = s.boot ∧ t.bulk = s.bulk ∧
      t.aon = s.aon ∧ t.ctl.mbox = s.ctl.mbox := by
  simp only [State.castSide, Prod.mk.injEq] at h
  obtain ⟨hcast, hplane, hpower, hstreams, hboot, hbulk, haon, hmbox, -⟩ := h
  exact ⟨hcast, hplane, hpower, hstreams, hboot, hbulk, haon, hmbox⟩

theorem State.clearDegraded_castSide (s : State) : s.clearDegraded.castSide = s.castSide := State.effects_castSide ..

/-- With nothing staged, a change of the capability map has no maquette to check again (R442). -/
theorem State.afterMapChange_castSide (h : s.cast.staged = none) (before : List Byte) : (s.afterMapChange before).castSide = s.castSide := by
  have hrecheck : s.newDistance.recheck = s.newDistance := by
    unfold State.recheck
    rw [show s.newDistance.cast.staged = none from h]
  unfold State.afterMapChange
  split
  · rfl
  · rw [hrecheck]
    rfl

theorem State.gateArrays_castSide (h : s.cast.staged = none) (t : PolicyTables) : (s.gateArrays t).castSide = s.castSide :=
  State.afterMapChange_castSide (s := { s with rel := { s.rel with
    arrayNorth := arrayUnder t s.rel.arrayNorth .north, arraySouth := arrayUnder t s.rel.arraySouth .south } }) h _

theorem State.castBarrier_castSide (s : State) : s.castBarrier.castSide = s.castSide := by
  unfold State.castBarrier
  split
  · rfl
  · rfl

/-! ### The cast instant (R405, R444, R484, R501) -/

/-- The gate at the instant with policy `p`, before its tables are installed: it is active, and the one before it retained. -/
def State.castBegun (s : State) (a : Armed) (p : Policy) : State :=
  { s with
    cast := { s.cast with active := some p, retained := s.cast.active, staged := none, stagedBody := [], stagedShared := 0,
                          armed := none, epoch := a.epoch, defaultState := false,
                          defaultUntil := if s.cast.defaultState then a.instant else s.cast.defaultUntil,
                          windowEnd := if p.windowed then some p.effective else none,
                          windowCast := if p.windowed then some a else none }
    plane := { s.plane with formerRoutes := some (a.instant, s.plane.policyRoutes) } }

/-- The policy's tables, the queues' configurations and the halves' points in place. -/
def State.castInstalled (s : State) (t : PolicyTables) : State :=
  let s2 := ((s.installTables t).installQueues t.queueTable).applyPoints.endEngineHolds
  { s2 with power := { s2.power with throttlePending := false } }

/-- A cast whose tables are in place is counted; `id` is the capability identifier at the instant. -/
def State.castCounted (s : State) (t : PolicyTables) (id : List Byte) : State :=
  let s4 := if s.endsDegraded t id then s.clearDegraded else s
  (s4.gateArrays t).castBarrier.count1 0x11 0 11

theorem State.castNow_eq (s : State) (a : Armed) (m : Policy) :
    let p := m.castAt a s.rel
    let u := ((s.castBegun a p).castInstalled p.tables).castCounted p.tables s.capabilityId
    s.castNow a m = if p.windowed then u else u.noteCast a.policyId a.epoch Status.ok a.instant := by
  unfold State.castNow State.castCounted State.castInstalled State.castBegun
  with_reducible rfl

theorem State.castInstalled_only (s : State) (t : PolicyTables) :
    ∃ n k e, s.castInstalled t = { s.installTables t with
      queues := ((s.installTables t).installQueues t.queueTable).queues
      aon := { s.aon with vidNorth := n, vidSouth := k }
      eng := e
      power := { s.power with north := s.power.north.applyPoint, south := s.power.south.applyPoint, throttlePending := false } } := by
  obtain ⟨l, hl⟩ := State.installQueues_only t.queueTable (s.installTables t)
  unfold State.castInstalled
  rw [hl]
  exact ⟨_, _, _, rfl⟩

theorem State.castInstalled_queue (s : State) (t : PolicyTables) (q : QueueId) :
    (s.castInstalled t).queue q = ((s.installTables t).installQueues t.queueTable).queue q := by
  obtain ⟨n, k, e, h⟩ := s.castInstalled_only t
  rw [h, State.queue, State.queue]

theorem State.castCounted_castSide (h : s.cast.staged = none) (t : PolicyTables) (id : List Byte) :
    (s.castCounted t id).castSide = s.castSide := by
  have hgated : ∀ u : State, u.castSide = s.castSide → ((u.gateArrays t).castBarrier.count1 0x11 0 11).castSide = s.castSide := by
    intro u hu
    have hcast : u.cast = s.cast := congrArg (fun x => x.1) hu
    refine (State.effects_castSide ..).trans ((State.castBarrier_castSide _).trans ((State.gateArrays_castSide ?_ t).trans hu))
    rw [hcast, h]
  unfold State.castCounted
  dsimp only
  split
  · exact hgated _ s.clearDegraded_castSide
  · exact hgated s rfl

theorem State.castNow_castSide (s : State) (a : Armed) (m : Policy) :
    (s.castNow a m).castSide = ((s.castBegun a (m.castAt a s.rel)).castInstalled m.tables).castSide := by
  have hstaged : ((s.castBegun a (m.castAt a s.rel)).castInstalled m.tables).cast.staged = none := by
    obtain ⟨n, k, e, h⟩ := (s.castBegun a (m.castAt a s.rel)).castInstalled_only m.tables
    rw [h]
    rfl
  have hcounted := State.castCounted_castSide hstaged m.tables s.capabilityId
  rw [State.castNow_eq]
  split
  · exact hcounted
  · exact (State.effects_castSide ..).trans hcounted

/-- A cast that opens no window is reported (R444). -/
theorem State.castNow_latched (h : m.windowed = false) (s : State) (a : Armed) : (s.castNow a m).latched 17 = true := by
  have hwindow : ¬ (m.castAt a s.rel).windowed = true := by
    show ¬ m.windowed = true
    rw [h]
    exact Bool.false_ne_true
  rw [State.castNow_eq]
  rw [if_neg hwindow]
  exact State.raise_latched ..

theorem State.castNow_level {q : QueueId} {v : QueueCfg} (hv : m.tables.queueTable[q.val]? = some v) (s : State) (a : Armed) :
    ((s.castNow a m).queue q).cfg.level = v.level := by
  have hcfg : ((s.castNow a m).queue q).cfg = (((s.castBegun a (m.castAt a s.rel)).castInstalled m.tables).queue q).cfg :=
    State.cfg_of_castSide (s.castNow_castSide a m) q
  rw [hcfg, State.castInstalled_queue]
  exact State.installQueues_level hv _

theorem State.castBegun_windowEnd (s : State) (a : Armed) (m : Policy) (r : Reliability) :
    (s.castBegun a (m.castAt a r)).cast.windowEnd = if m.windowed then some (a.instant + m.tables.latency.castWindow) else none := by
  unfold State.castBegun Policy.castAt
  dsimp only
  split
  · rfl
  · rfl

theorem castInstant_early (ha : s.cast.armed = some a) (hm : s.cast.staged = some m) (hlate : s.now < a.instant) :
    exec .castInstant s = .next s := by
  refine congrArg Host.Outcome.next (?_ : castInstant s = s)
  unfold castInstant
  simp only [ha, hm, if_neg (Nat.not_le.2 hlate)]

theorem castInstant_due (ha : s.cast.armed = some a) (hm : s.cast.staged = some m) (hdue : a.instant ≤ s.now) :
    exec .castInstant s = .next (s.castNow a m) := by
  refine congrArg Host.Outcome.next (?_ : castInstant s = s.castNow a m)
  unfold castInstant
  simp only [ha, hm, if_pos hdue]

/-! ### A policy's slots of the cells and of the stores (R258, R259, R447, R448) -/

theorem Cell.setSlot_slot (x : Cell) (one : Bool) (v : CellSlot) : (x.setSlot one v).slot one = v := by cases one <;> rfl

theorem Cell.setSlot_slot_other (x : Cell) (one : Bool) (v : CellSlot) : (x.setSlot one v).slot (!one) = x.slot (!one) := by
  cases one <;> rfl

theorem Cell.setSlot_mem (x : Cell) (one : Bool) (v : CellSlot) : (x.setSlot one v).mem = x.mem := by cases one <;> rfl

theorem Cell.load_slot (x : Cell) (one : Bool) (id : DWord) (m : CellImage) : (x.load one id m).slot one = slotOfImage id m := by
  have hwrites : ∀ (f : Cell → Nat × Nat → Cell) (l : List (Nat × Nat)) (y : Cell), (∀ y r, (f y r).slot one = y.slot one) →
      (l.foldl f y).slot one = y.slot one := by
    intro f l y hf
    induction l generalizing y with
    | nil => rfl
    | cons r l ih => rw [List.foldl_cons, ih, hf]
  unfold Cell.load
  refine (hwrites _ _ _ ?_).trans (Cell.setSlot_slot ..)
  exact fun _ _ => rfl

theorem State.clearCellSlots_cell (s : State) (one : Bool) (c : CellId) :
    (s.clearCellSlots one).cell c = (s.cell c).setSlot one {} := by
  unfold State.clearCellSlots State.cell
  dsimp only
  rw [aget_mapValues (fun x : Cell => x.setSlot one {})]
  cases aget c s.grid.cells with
  | none => cases one <;> rfl
  | some x => rfl

/-- One image is loaded into its cell. -/
def State.loadImage (one : Bool) (id : DWord) (u : State) (m : CellImage) : State := u.setCell m.cell ((u.cell m.cell).load one id m)

theorem State.loadImages_eq (s : State) (one : Bool) (t : PolicyTables) :
    s.loadImages one t = t.images.foldl (State.loadImage one t.latency.policyId) (s.clearCellSlots one) := rfl

/-- Loading images changes nothing but the cells. -/
theorem State.loadImages_only (s : State) (one : Bool) (t : PolicyTables) : ∃ g, s.loadImages one t = { s with grid := g } := by
  have hfold : ∀ (l : List CellImage) (u : State), ∃ g, l.foldl (State.loadImage one t.latency.policyId) u = { u with grid := g } := by
    intro l
    induction l with
    | nil => exact fun u => ⟨u.grid, rfl⟩
    | cons n l ih =>
      intro u
      obtain ⟨g, hg⟩ := ih (u.loadImage one t.latency.policyId n)
      exact ⟨g, hg⟩
  rw [State.loadImages_eq]
  obtain ⟨g, hg⟩ := hfold t.images (s.clearCellSlots one)
  exact ⟨g, hg⟩

/-- The only image of a cell stands in the policy's slot of it. -/
theorem foldl_loadImage_slot {one : Bool} {id : DWord} {m : CellImage} (l : List CellImage) (u : State)
    (honly : ∀ n ∈ l, n.cell = m.cell → n = m) (h : m ∈ l ∨ (u.cell m.cell).slot one = slotOfImage id m) :
    ((l.foldl (State.loadImage one id) u).cell m.cell).slot one = slotOfImage id m := by
  induction l generalizing u with
  | nil => exact h.resolve_left List.not_mem_nil
  | cons n l ih =>
    refine ih _ (fun k hk => honly k (List.mem_cons_of_mem n hk)) ?_
    by_cases hcell : n.cell = m.cell
    · refine .inr ?_
      rw [honly n List.mem_cons_self hcell, State.loadImage, State.setCell_cell_self, Cell.load_slot]
    · rw [State.loadImage, State.setCell_cell_ne _ (Ne.symm hcell)]
      exact h.imp_left fun hm => (List.mem_cons.1 hm).resolve_left fun he => hcell (congrArg CellImage.cell he).symm

theorem State.loadImages_slot {t : PolicyTables} {m : CellImage} (hm : m ∈ t.images)
    (honly : ∀ n ∈ t.images, n.cell = m.cell → n = m) (s : State) (one : Bool) :
    ((s.loadImages one t).cell m.cell).slot one = slotOfImage t.latency.policyId m := by
  rw [State.loadImages_eq]
  exact foldl_loadImage_slot t.images _ honly (.inl hm)

/-! ### The end of a cast window (R448, R449) -/

/-- The gate at the end of its window: the old policy's slots are free, and the active one's images and sections in place. -/
def State.windowEnded (s : State) (p : Policy) : State :=
  let s1 : State := { s with cast := { s.cast with retained := none, windowEnd := none, windowCast := none } }
  let s2 := match s.cast.retained with
    | some q => s1.freeSlots q.cellSlot
    | none => s1
  (s2.loadImages p.cellSlot p.tables).placeSections p.tables

theorem State.windowEnded_only (s : State) (p : Policy) :
    ∃ g l, s.windowEnded p = { s with
      cast := { s.cast with retained := none, windowEnd := none, windowCast := none, placements := s.cast.placements + 1 }
      grid := g
      eng := { s.eng with stores := l } } := by
  unfold State.windowEnded
  dsimp only
  split
  · next q _ =>
    obtain ⟨g, hg⟩ := State.loadImages_only (State.freeSlots { s with
      cast := { s.cast with retained := none, windowEnd := none, windowCast := none } } q.cellSlot) p.cellSlot p.tables
    rw [hg]
    exact ⟨_, _, rfl⟩
  · obtain ⟨g, hg⟩ := State.loadImages_only { s with
      cast := { s.cast with retained := none, windowEnd := none, windowCast := none } } p.cellSlot p.tables
    rw [hg]
    exact ⟨_, s.eng.stores, rfl⟩

theorem State.windowEnded_slot {n : CellImage} (hn : n ∈ p.tables.images) (honly : ∀ k ∈ p.tables.images, k.cell = n.cell → k = n)
    (s : State) : ((s.windowEnded p).cell n.cell).slot p.cellSlot = slotOfImage p.tables.latency.policyId n :=
  State.loadImages_slot hn honly _ p.cellSlot

theorem castWindowEnd_early {e : Nat} (he : s.cast.windowEnd = some e) (hp : s.cast.active = some p) (hlate : s.now < e) :
    exec .castWindowEnd s = .next s := by
  refine congrArg Host.Outcome.next (?_ : castWindowEnd s = s)
  unfold castWindowEnd
  simp only [he, hp, if_neg (Nat.not_le.2 hlate)]

theorem castWindowEnd_due {e : Nat} (he : s.cast.windowEnd = some e) (hp : s.cast.active = some p) (hdue : e ≤ s.now) :
    castWindowEnd s = s.windowEnded p ∧ s.cast.windowCast = none ∨
      ∃ a : Armed, castWindowEnd s = (s.windowEnded p).noteCast a.policyId a.epoch Status.ok a.instant := by
  unfold castWindowEnd State.windowEnded
  simp only [he, hp, if_pos hdue]
  cases s.cast.windowCast with
  | none => exact .inl ⟨rfl, rfl⟩
  | some a => exact .inr ⟨a, rfl⟩

/-! ### The end of a retained policy (R447) -/

theorem policyRetire_held (hp : s.cast.retained = some p) (hw : s.cast.windowEnd = none) {b : Policy} (hb : s.cast.active = some b)
    (h : s.heldStreams p ≠ 0 ∨ s.inFlightOf p.epoch b.instant = true) : exec .policyRetire s = .next s := by
  have hheld : ¬ (s.heldStreams p = 0 ∧ (!s.inFlightOf p.epoch b.instant) = true) := by
    rintro ⟨hnone, hidle⟩
    rcases h with h | h
    · exact h hnone
    · rw [h] at hidle
      exact Bool.false_ne_true hidle
  refine congrArg Host.Outcome.next (?_ : policyRetire s = s)
  unfold policyRetire
  simp only [hp, hw, hb, if_neg hheld]

theorem policyRetire_free (hp : s.cast.retained = some p) (hw : s.cast.windowEnd = none) {b : Policy} (hb : s.cast.active = some b)
    (hnone : s.heldStreams p = 0) (hidle : s.inFlightOf p.epoch b.instant = false) :
    exec .policyRetire s = .next (State.freeSlots { s with cast := { s.cast with retained := none } } p.cellSlot) := by
  have hfree : s.heldStreams p = 0 ∧ (!s.inFlightOf p.epoch b.instant) = true := ⟨hnone, by rw [hidle]; rfl⟩
  refine congrArg Host.Outcome.next
    (?_ : policyRetire s = State.freeSlots { s with cast := { s.cast with retained := none } } p.cellSlot)
  unfold policyRetire
  simp only [hp, hw, hb, if_pos hfree]

theorem State.setStores_store (s : State) (one : Bool) (v : StoreSlot) (h : HalfId) :
    aget (h, one) (s.setStores one v).eng.stores = some v ∧
      aget (h, !one) (s.setStores one v).eng.stores = aget (h, !one) s.eng.stores := by
  unfold State.setStores
  cases h <;> cases one <;> simp [aget_aset]

/-- Settles O24: the instant's cast by what its installation leaves, the window's end by its images, the retired policy by its slots. -/
theorem casts : Obligations.Casts := by
  unfold Obligations.Casts
  intro s
  refine ⟨fun a m ha hm => ⟨castInstant_early ha hm, fun hdue => ?_⟩, fun e p he hp => ⟨castWindowEnd_early he hp, fun hdue => ?_⟩,
    fun p b hp hw hb => ⟨policyRetire_held hp hw hb, fun hnone hidle => ?_⟩⟩
  · obtain ⟨n, k, e, hi⟩ := (s.castBegun a (m.castAt a s.rel)).castInstalled_only m.tables
    obtain ⟨hcast, hplane, hpower, hstreams, hboot, hbulk, haon, hmbox⟩ := State.of_castSide (s.castNow_castSide a m)
    rw [hi] at hcast hplane hpower hstreams hboot hbulk haon hmbox
    refine ⟨s.castNow a m, m.castAt a s.rel, castInstant_due ha hm hdue, ?_⟩
    rw [hcast, hplane, hpower, hstreams, hboot, hbulk, haon, hmbox]
    exact ⟨rfl, rfl, rfl, rfl, rfl, rfl, rfl, rfl, rfl, State.castBegun_windowEnd .., rfl, rfl, rfl, rfl, rfl,
      fun q v hv => State.castNow_level hv s a, fun h => by cases h <;> exact ⟨rfl, rfl⟩, fun hw => State.castNow_latched hw s a, rfl, rfl, rfl, rfl, rfl, rfl⟩
  · obtain ⟨g, l, hi⟩ := s.windowEnded_only p
    rcases castWindowEnd_due he hp hdue with ⟨hrun, hno⟩ | ⟨a, hrun⟩
    · refine ⟨_, congrArg Host.Outcome.next hrun, ?_, ?_, fun m hm honly => State.windowEnded_slot hm honly s, ?_, ?_⟩
      · rw [hi]
      · rw [hno]
        exact fun h => absurd h Bool.false_ne_true
      · rw [hi]
      · rw [hi]
        rfl
    · refine ⟨_, congrArg Host.Outcome.next hrun, ?_, fun _ => State.raise_latched .., fun m hm honly => ?_, ?_, ?_⟩
      · rw [State.noteCast, State.raise, State.effects_cast, hi]
      · rw [State.noteCast, State.raise, State.effects_cell]
        exact State.windowEnded_slot hm honly s
      · rw [State.noteCast, State.raise, State.effects_eng, hi]
      · rw [State.noteCast, State.raise_quiet, hi]
        rfl
  · refine ⟨_, policyRetire_free hp hw hb hnone hidle, rfl, fun c => ?_, fun h => ?_, rfl, rfl⟩
    · have hcell : (State.freeSlots { s with cast := { s.cast with retained := none } } p.cellSlot).cell c =
          (s.cell c).setSlot p.cellSlot {} := State.clearCellSlots_cell _ p.cellSlot c
      rw [hcell]
      exact ⟨Cell.setSlot_slot .., Cell.setSlot_mem .., Cell.setSlot_slot_other ..⟩
    · exact State.setStores_store _ p.cellSlot {} h

end Sys2Proof.Machine
end

section
/-! SUPPORT. The cold reset's release and ROM_READY (R391, R430, R454 to R456, R513). -/

namespace Sys2Proof.Machine

variable {s t u : State} {p : Straps}

/-! ### The release (R391, R430, R455, R513) -/

theorem aget_mapPairs {α β : Type} [DecidableEq α] (f : α → β) {k : α} {ks : List α} (h : k ∈ ks) :
    aget k (ks.map (fun i => (i, f i))) = some (f k) := by
  induction ks with
  | nil => exact absurd h List.not_mem_nil
  | cons i ks ih =>
    by_cases hi : i = k
    · simp [aget, hi]
    · have hk : k ∈ ks := (List.mem_cons.1 h).resolve_left (Ne.symm hi)
      simp [aget, hi, ih hk]

/-- The gate released: straps and fuses sampled, credits given, lanes 0 to 7 of every group in training. -/
def State.released (s : State) (p : Straps) : State :=
  { s with
    aon := s.aon.sample p
    bulk := (List.finRange 16).map (fun b => (b, ({ rxCredits := initialCredits } : Bulk)))
    plane := { s.plane with lanes := (List.finRange 8).map (fun g => (g, ({ train := List.finRange 8 |>.map Fin.castSucc } : LaneGroup))) }
    rel := { s.rel with findings := p.findings } }

/-- The always-on island of a gate that becomes the master (R52). -/
def Aon.asMaster (a : Aon) : Aon :=
  { a with master := true, rateTrim := 0#8, maxOffset := 0#8, syncLink := 0xFF#8, depth := 0, masterNode := a.node, lower := none,
           sync := .locked }

theorem State.becomeMaster_quiet (s : State) : s.becomeMaster.quiet = { s.quiet with aon := s.aon.asMaster } := State.raise_quiet ..

/-- The release as a strap makes the gate the master or not: its island, and all else but counts and notices. -/
theorem coldResetRelease_quiet (h : s.aon.rstColdN = false) (p : Straps) :
    (coldResetRelease p s).quiet =
      { (s.released p).quiet with aon := if p.plumbMaster then (s.aon.sample p).asMaster else s.aon.sample p } := by
  have hrun : coldResetRelease p s = if p.plumbMaster then (s.released p).becomeMaster else s.released p :=
    if_neg (by rw [h]; exact Bool.false_ne_true)
  rw [hrun]
  cases p.plumbMaster with
  | false => rfl
  | true => exact State.becomeMaster_quiet _

/-- What the straps and fuses give the island stands whether or not the gate becomes the master. -/
theorem coldResetRelease_sampled {α : Type} (h : s.aon.rstColdN = false) (p : Straps) (f : Aon → α) (hf : ∀ a, f a.asMaster = f a) :
    f (coldResetRelease p s).aon = f (s.aon.sample p) := by
  rw [show (coldResetRelease p s).aon = _ from congrArg (fun x => x.aon) (coldResetRelease_quiet h p)]
  dsimp only
  split
  · exact hf _
  · rfl

/-! ### The self-test (R456) -/

/-- What the self-test's repairs leave: the always-on island and the list of findings. -/
def State.testSide (s : State) : Aon × List TestFinding := (s.aon, s.rel.findings)

theorem State.testSide_of_quiet (h : t.quiet = s.quiet) : t.testSide = s.testSide := State.of_quiet State.testSide (fun _ => rfl) h

theorem State.takeRepairSem_testSide (s : State) : s.takeRepairSem.testSide = s.testSide := by
  obtain ⟨k, hk⟩ := s.takeRepairSem_eq
  rw [hk]
  rfl

theorem State.dropStaged_testSide (s : State) : s.dropStaged.testSide = s.testSide := by
  unfold State.dropStaged
  split
  · rfl
  · dsimp only
    split <;> rfl

theorem State.cancelArmed_testSide (s : State) : s.cancelArmed.testSide = s.testSide := by
  unfold State.cancelArmed
  split
  · exact State.testSide_of_quiet (s := { s with cast := { s.cast with armed := none } }) (State.count1_quiet ..)
  · rfl

theorem State.recheck_testSide (s : State) : s.recheck.testSide = s.testSide := by
  have hdrop : ∀ n, ((s.dropStaged.cancelArmed).count1 0x11 0 n).testSide = s.testSide := fun n =>
    (State.testSide_of_quiet (State.count1_quiet ..)).trans ((State.cancelArmed_testSide _).trans s.dropStaged_testSide)
  unfold State.recheck
  split
  · rfl
  dsimp only
  split
  · rfl
  split
  · exact (State.testSide_of_quiet (State.raise_quiet ..)).trans (hdrop _)
  · exact (State.testSide_of_quiet (State.raise_quiet ..)).trans (hdrop _)

theorem State.afterMapChange_testSide (s : State) (before : List Byte) : (s.afterMapChange before).testSide = s.testSide := by
  unfold State.afterMapChange
  split
  · rfl
  · exact (State.recheck_testSide _).trans rfl

theorem State.noteMapChange_testSide (s : State) (cause half : Nat) (before : List Byte) :
    (s.noteMapChange cause half before).testSide = s.testSide :=
  (State.afterMapChange_testSide ..).trans ((State.testSide_of_quiet (State.raise_quiet ..)).trans s.takeRepairSem_testSide)

theorem State.noteSpare_testSide (s : State) (kind : Nat) (loc : List Byte) : (s.noteSpare kind loc).testSide = s.testSide :=
  (State.testSide_of_quiet (State.raise_quiet ..)).trans (State.takeRepairSem_testSide _)

theorem cellHardFault_testSide (c : CellId) (s : State) : (cellHardFault c s).testSide = s.testSide := by
  unfold cellHardFault
  dsimp only
  split
  · rfl
  split
  · exact State.noteMapChange_testSide (s.benchMarked (benchOf c) 0x01#8) ..
  · exact State.noteSpare_testSide (s.spareCell c) ..

theorem Work.run_testSide (w : Work) (s : State) : (w.run s).testSide = s.testSide := by
  have hinside := (w.run_inside s).1
  have haon : (w.run s).aon = s.aon := by
    have h := congrArg State.aon hinside
    exact h
  have hrel : (w.run s).rel = s.rel := by
    have h := congrArg State.rel hinside
    exact h
  rw [State.testSide, haon, hrel]
  rfl

theorem Reliability.failEngine_findings (r : Reliability) (h : HalfId) (e : Nat) (n : Option (Fin 8)) :
    (r.failEngine h e n).findings = r.findings := by
  cases n with
  | some n => rfl
  | none => cases h <;> rfl

/-- An engine's hard fault either finds the engine marked failed, or marks it in the map and halts its streams (R479). -/
theorem engineHardFault_cases (h : HalfId) (e : Fin 7) (n : Option (Fin 8)) (s : State) :
    engineHardFault h e n s = s ∨
      ∃ half k unit, engineHardFault h e n s = s.engineFaulted (s.rel.failEngine half e.val k) e.val half unit := by
  let k := if e.val = 0 then n else none
  let half := match k with
    | some j => unitHalf j
    | none => h
  by_cases hrel : s.rel.failEngine half e.val k = s.rel
  · exact .inl (if_pos hrel)
  · refine .inr ⟨half, k, (k.map (fun j => j.val)).getD 0xFF, ?_⟩
    unfold engineHardFault
    exact if_neg hrel

theorem engineHardFault_testSide (h : HalfId) (e : Fin 7) (n : Option (Fin 8)) (s : State) :
    (engineHardFault h e n s).testSide = s.testSide := by
  rcases engineHardFault_cases h e n s with hs | ⟨half, k, unit, hs⟩
  · rw [hs]
  · have hhalts := foldl_keeps (fun (t : State) (x : SlotId × Stream) => (((t.work x.1 x.2).halt 14).closeHalted).run t)
      State.testSide (fun _ _ => Work.run_testSide ..)
    rw [hs]
    exact (State.noteMapChange_testSide ..).trans ((hhalts _ _).trans
      (congrArg (Prod.mk s.aon) (Reliability.failEngine_findings ..)))

theorem State.degrade_testSide (s : State) (cause half : Nat) : (s.degrade cause half).testSide = s.testSide := by
  unfold State.degrade
  split
  · rfl
  · exact State.testSide_of_quiet (s := { s with rel := { s.rel with degraded := true } }) (State.raise_quiet ..)

theorem weltGroupRetire_testSide (d : Bool) (g : Fin 64) (s : State) : (weltGroupRetire d g s).testSide = s.testSide := by
  unfold weltGroupRetire
  dsimp only
  split
  · rfl
  split
  · exact (State.afterMapChange_testSide ..).trans ((State.degrade_testSide ..).trans (State.takeRepairSem_testSide _))
  · rfl

theorem State.selfTest_testSide (s : State) (f : TestFinding) : (s.selfTest f).testSide = s.testSide := by
  cases f with
  | cell c => exact cellHardFault_testSide c s
  | spareCell b =>
    unfold State.selfTest
    dsimp only
    split <;> rfl
  | engine h e => exact engineHardFault_testSide h e none s
  | skiverUnit n => exact engineHardFault_testSide (unitHalf n) 0 (some n) s
  | weltGroup d g =>
    exact (foldl_keeps _ State.testSide (fun _ _ => State.noteSpare_testSide ..) _ _).trans (weltGroupRetire_testSide d g s)

/-! ### ROM_READY (R454, R456) -/

theorem answerUnknown_apart (s : State) : (answerUnknown s).apart = s.apart := by
  unfold answerUnknown
  split
  · refine foldl_keeps _ State.apart (fun t e => ?_) _ s
    split
    · exact State.respond_apart ..
    · rfl
  · rfl

/-- The gate once the self-test's findings are repaired and the distance table is built. -/
def State.selfTested (s : State) : State :=
  (s.rel.findings.foldl State.selfTest { s with rel := { s.rel with findings := [] } }).endReloads.newDistance

theorem State.selfTested_testSide (s : State) : s.selfTested.testSide = (s.aon, []) :=
  foldl_keeps State.selfTest State.testSide State.selfTest_testSide s.rel.findings { s with rel := { s.rel with findings := [] } }

theorem State.selfTested_kept (s : State) : s.selfTested.kept = s.kept :=
  foldl_keeps State.selfTest State.kept State.selfTest_kept s.rel.findings { s with rel := { s.rel with findings := [] } }

theorem romReady_spec (hr : s.aon.rstColdN = true) (hb : s.boot.romReady = false) :
    ∃ t, exec .romReady s = .next t ∧ t.boot = { s.boot with romReady := true } ∧ t.aon = { s.aon with rstOutN := true } ∧
      t.rel.findings = [] ∧ t.power = s.power := by
  let v : State := { s.selfTested with
    boot := { s.selfTested.boot with romReady := true }
    aon := { s.selfTested.aon with rstOutN := true } }
  have hrun : romReady s = answerUnknown v := if_neg (by rw [hr, hb]; exact Bool.false_ne_true)
  have haon : s.selfTested.aon = s.aon := congrArg Prod.fst s.selfTested_testSide
  have hfindings : s.selfTested.rel.findings = [] := congrArg Prod.snd s.selfTested_testSide
  have hboot : s.selfTested.boot = s.boot := congrArg (fun x => x.2.1) s.selfTested_kept
  have hpower : s.selfTested.power = s.power := congrArg (fun x => x.2.2) s.selfTested_kept
  have happart := answerUnknown_apart v
  refine ⟨answerUnknown v, congrArg Host.Outcome.next hrun, ?_, ?_, ?_, ?_⟩
  · rw [State.of_apart State.boot (fun _ => rfl) happart, ← hboot]
  · rw [State.of_apart State.aon (fun _ => rfl) happart, ← haon]
  · rw [State.of_apart (fun x => x.rel.findings) (fun _ => rfl) happart]
    exact hfindings
  · rw [State.of_apart State.power (fun _ => rfl) happart]
    exact hpower

/-! ### The cold reset (R452 to R454, R504) -/

theorem resetColdStart_due {n : Nat} (h : s.aon.resetColdAt = some n) (hdue : n ≤ s.now) : resetColdStart s = s.coldReset := by
  unfold resetColdStart
  simp only [h, if_pos hdue]

theorem resetColdStart_early {n : Nat} (h : s.aon.resetColdAt = some n) (hlate : s.now < n) : resetColdStart s = s := by
  unfold resetColdStart
  simp only [h, if_neg (Nat.not_le.2 hlate)]

theorem resetColdStart_none (h : s.aon.resetColdAt = none) : resetColdStart s = s := by
  unfold resetColdStart
  rw [h]

/-- Settles O27: the cold reset by each of its causes, its release, and ROM_READY. -/
theorem coldResetAndStartUp : Obligations.ColdResetAndStartUp := by
  unfold Obligations.ColdResetAndStartUp
  refine ⟨fun s => ⟨rfl, fun _ h hdue => congrArg Host.Outcome.next (resetColdStart_due h hdue),
      fun _ h hlate => congrArg Host.Outcome.next (resetColdStart_early h hlate),
      fun h => congrArg Host.Outcome.next (resetColdStart_none h), rfl, rfl, rfl⟩,
    fun s => ⟨fun p h => ?_, romReady_spec⟩⟩
  have hquiet := coldResetRelease_quiet h p
  have hsampled {α : Type} := coldResetRelease_sampled (α := α) h p
  have hbulk : (coldResetRelease p s).bulk = (s.released p).bulk := congrArg (fun x => x.bulk) hquiet
  have hplane : (coldResetRelease p s).plane = (s.released p).plane := congrArg (fun x => x.plane) hquiet
  have hrel : (coldResetRelease p s).rel = (s.released p).rel := congrArg (fun x => x.rel) hquiet
  refine ⟨coldResetRelease p s, rfl, hsampled Aon.rstColdN fun _ => rfl, hsampled Aon.nodeValid fun _ => rfl,
    hsampled Aon.node fun _ => rfl, hsampled Aon.masterStrap fun _ => rfl, hsampled Aon.keyHash fun _ => rfl,
    hsampled Aon.minSecurity fun _ => rfl, fun hm => ?_, fun b => ?_, fun g => ?_, hrel, ?_⟩
  · rw [show (coldResetRelease p s).aon = _ from congrArg (fun x => x.aon) hquiet]
    simp only [hm, if_true]
    exact ⟨rfl, rfl⟩
  · rw [hbulk]
    exact ⟨_, aget_mapPairs _ (List.mem_finRange b), rfl, rfl⟩
  · rw [hplane]
    exact ⟨_, aget_mapPairs _ (List.mem_finRange g), by decide, rfl⟩
  · rw [hplane, hquiet]
    rfl

end Sys2Proof.Machine
end

section
/-! SUPPORT. What a command does to the queue of waiting commands, the boot state and the power state: it keeps all three, or it is
one of those that set the boot state, set the power state, or reset the gate (R429 to R434, R452 to R456, R484 to R508). -/

namespace Sys2Proof

/-- The commands that set the boot state (R429 to R434, R456). -/
def Instr.setsBoot : Instr → Bool
  | .romReady | .bootFwFailedClear _ | .registerWrite .. | .fwWrite .. | .fwStart .. | .fwStartComplete | .keyLoad .. | .keyLock .. => true
  | _ => false

/-- The commands that set the power state (R444, R484 to R487, R505 to R508). -/
def Instr.setsPower : Instr → Bool
  | .thermalSensorRead _ | .thermalStepDown _ | .thermalStepUp _ | .currentEstimate .. | .powerCapCompare | .halfClock ..
  | .powerCap .. | .thermalConfig .. | .castInstant => true
  | _ => false

/-- The commands that reset the gate (R452 to R454, R504). -/
def Instr.resets : Instr → Bool
  | .coldResetAssert | .resetColdStart | .powerGoodLoss _ => true
  | _ => false

end Sys2Proof

namespace Sys2Proof.Machine

variable {s t : State} {c : Instr} {p : MPort} {n : Fin 32}

/-! ### Every command completes -/

theorem exec_next (c : Instr) (s : State) : ∃ t, exec c s = .next t := by
  cases c <;> exact ⟨_, rfl⟩

/-- A command keeps the queue, the boot state and the power state, or it is one that sets the boot state or the power state, or
resets the gate. -/
theorem exec_keeps : ∀ (c : Instr) (s : State),
    Keeps (exec c s) s ∨ c.setsBoot = true ∨ c.setsPower = true ∨ c.resets = true
  | .romReady, _ | .bootFwFailedClear _, _ | .registerWrite .., _ | .fwWrite .., _ | .fwStart .., _ | .fwStartComplete, _
  | .keyLoad .., _ | .keyLock .., _ => .inr (.inl rfl)
  | .thermalSensorRead _, _ | .thermalStepDown _, _ | .thermalStepUp _, _ | .currentEstimate .., _ | .powerCapCompare, _
  | .halfClock .., _ | .powerCap .., _ | .thermalConfig .., _ | .castInstant, _ => .inr (.inr (.inl rfl))
  | .coldResetAssert, _ | .resetColdStart, _ | .powerGoodLoss _, _ => .inr (.inr (.inr rfl))
  | .plumbTick, s => .inl (execPlumbTick_keeps s)
  | .coldResetRelease t, s => .inl (execColdResetRelease_keeps t s)
  | .halfArrayLost h, s => .inl (execHalfArrayLost_keeps h s)
  | .plumbLoRead p, s => .inl (execPlumbLoRead_keeps p s)
  | .plumbStatusRead p, s => .inl (execPlumbStatusRead_keeps p s)
  | .plumbSteppedClear p, s => .inl (execPlumbSteppedClear_keeps p s)
  | .nodeIdWrite p v, s => .inl (execNodeIdWrite_keeps p v s)
  | .noticeAcknowledge p bits, s => .inl (execNoticeAcknowledge_keeps p bits s)
  | .semRequest k a b fw, s => .inl (execSemRequest_keeps k a b fw s)
  | .semRelease k p, s => .inl (execSemRelease_keeps k p s)
  | .semForce k p, s => .inl (execSemForce_keeps k p s)
  | .queueItemRead q, s => .inl (execQueueItemRead_keeps q s)
  | .queueItemWrite q item, s => .inl (execQueueItemWrite_keeps q item s)
  | .queueOverrunClear q, s => .inl (execQueueOverrunClear_keeps q s)
  | .queueLatchedAck q, s => .inl (execQueueLatchedAck_keeps q s)
  | .queueDropPacket q, s => .inl (execQueueDropPacket_keeps q s)
  | .bootInfo p n, s => .inl (execBootInfo_keeps p n s)
  | .bundleBegin p n, s => .inl (execBundleBegin_keeps p n s)
  | .bundleWrite p n, s => .inl (execBundleWrite_keeps p n s)
  | .bundleStage p n, s => .inl (execBundleStage_keeps p n s)
  | .bundleStageComplete m, s => .inl (execBundleStageComplete_keeps m s)
  | .bundleDiscard p n, s => .inl (execBundleDiscard_keeps p n s)
  | .castArm p n, s => .inl (execCastArm_keeps p n s)
  | .castDisarm p n, s => .inl (execCastDisarm_keeps p n s)
  | .castConfig p n, s => .inl (execCastConfig_keeps p n s)
  | .streamOpen p n, s => .inl (execStreamOpen_keeps p n s)
  | .streamSet p n, s => .inl (execStreamSet_keeps p n s)
  | .streamClose p n, s => .inl (execStreamClose_keeps p n s)
  | .streamQuery p n, s => .inl (execStreamQuery_keeps p n s)
  | .streamFeatures p n, s => .inl (execStreamFeatures_keeps p n s)
  | .streamAbort p n, s => .inl (execStreamAbort_keeps p n s)
  | .snapshot p n, s => .inl (execSnapshot_keeps p n s)
  | .capabilityRead p n, s => .inl (execCapabilityRead_keeps p n s)
  | .distanceRead p n, s => .inl (execDistanceRead_keeps p n s)
  | .telemetryRead p n, s => .inl (execTelemetryRead_keeps p n s)
  | .noticeRead p n, s => .inl (execNoticeRead_keeps p n s)
  | .nodeFence p n, s => .inl (execNodeFence_keeps p n s)
  | .linkConfig p n, s => .inl (execLinkConfig_keeps p n s)
  | .plumbMaster p n, s => .inl (execPlumbMaster_keeps p n s)
  | .syncConfig p n, s => .inl (execSyncConfig_keeps p n s)
  | .groupAlloc p n, s => .inl (execGroupAlloc_keeps p n s)
  | .groupFree p n, s => .inl (execGroupFree_keeps p n s)
  | .tenantBudget p n, s => .inl (execTenantBudget_keeps p n s)
  | .queueRead p n, s => .inl (execQueueRead_keeps p n s)
  | .queueWrite p n, s => .inl (execQueueWrite_keeps p n s)
  | .queueStatus p n, s => .inl (execQueueStatus_keeps p n s)
  | .queueControl p n, s => .inl (execQueueControl_keeps p n s)
  | .resetCold p n, s => .inl (execResetCold_keeps p n s)
  | .resetPlane p n, s => .inl (execResetPlane_keeps p n s)
  | .resetFunction p n, s => .inl (execResetFunction_keeps p n s)
  | .planeRestore p n, s => .inl (execPlaneRestore_keeps p n s)
  | .engineAbort p n, s => .inl (execEngineAbort_keeps p n s)
  | .streamSetBoundary, s => .inl (execStreamSetBoundary_keeps s)
  | .streamCloseBoundary, s => .inl (execStreamCloseBoundary_keeps s)
  | .hostFeatureBoundary, s => .inl (execHostFeatureBoundary_keeps s)
  | .streamAbortBoundary, s => .inl (execStreamAbortBoundary_keeps s)
  | .engineAbortBoundary, s => .inl (execEngineAbortBoundary_keeps s)
  | .engineRestartComplete, s => .inl (execEngineRestartComplete_keeps s)
  | .nodeFenceCommit, s => .inl (execNodeFenceCommit_keeps s)
  | .groupAllocBoundary, s => .inl (execGroupAllocBoundary_keeps s)
  | .groupFreeBoundary, s => .inl (execGroupFreeBoundary_keeps s)
  | .tenantBudgetBoundary, s => .inl (execTenantBudgetBoundary_keeps s)
  | .planeRestoreBoundary, s => .inl (execPlaneRestoreBoundary_keeps s)
  | .planeResetBoundary, s => .inl (execPlaneResetBoundary_keeps s)
  | .planeRetrain, s => .inl (execPlaneRetrain_keeps s)
  | .functionResetBoundary, s => .inl (execFunctionResetBoundary_keeps s)
  | .functionResetComplete, s => .inl (execFunctionResetComplete_keeps s)
  | .snapshotTick, s => .inl (execSnapshotTick_keeps s)
  | .castWindowEnd, s => .inl (execCastWindowEnd_keeps s)
  | .policyRetire, s => .inl (execPolicyRetire_keeps s)
  | .castMessage, s => .inl (execCastMessage_keeps s)
  | .linkPacketReceive k w at16, s => .inl (execLinkPacketReceive_keeps k w at16 s)
  | .hostPacketReceive b w, s => .inl (execHostPacketReceive_keeps b w s)
  | .hostCreditReturn b vc, s => .inl (execHostCreditReturn_keeps b vc s)
  | .linkOutputSelect k at16, s => .inl (execLinkOutputSelect_keeps k at16 s)
  | .hostOutputSelect b, s => .inl (execHostOutputSelect_keeps b s)
  | .syncPortEvent e, s => .inl (execSyncPortEvent_keeps e s)
  | .laneRxUpRise g l, s => .inl (execLaneRxUpRise_keeps g l s)
  | .laneRxUpFall g l, s => .inl (execLaneRxUpFall_keeps g l s)
  | .laneFault g l, s => .inl (execLaneFault_keeps g l s)
  | .linkSilenceTimeout k, s => .inl (execLinkSilenceTimeout_keeps k s)
  | .laneMessage, s => .inl (execLaneMessage_keeps s)
  | .laneSpareAcceptTimeout k, s => .inl (execLaneSpareAcceptTimeout_keeps k s)
  | .hello, s => .inl (execHello_keeps s)
  | .helloSendTimer k, s => .inl (execHelloSendTimer_keeps k s)
  | .route, s => .inl (execRoute_keeps s)
  | .routeSendTimer k, s => .inl (execRouteSendTimer_keeps k s)
  | .sync, s => .inl (execSync_keeps s)
  | .syncSendTimer k, s => .inl (execSyncSendTimer_keeps k s)
  | .delayMeasureTimer k, s => .inl (execDelayMeasureTimer_keeps k s)
  | .delayReq, s => .inl (execDelayReq_keeps s)
  | .delayResp, s => .inl (execDelayResp_keeps s)
  | .holdoverTimeout, s => .inl (execHoldoverTimeout_keeps s)
  | .holdoverExpiry, s => .inl (execHoldoverExpiry_keeps s)
  | .ack, s => .inl (execAck_keeps s)
  | .ackSend peer, s => .inl (execAckSend_keeps peer s)
  | .retransmitTimeout peer, s => .inl (execRetransmitTimeout_keeps peer s)
  | .sendWindowIdleFree peer, s => .inl (execSendWindowIdleFree_keeps peer s)
  | .receiveRecordIdleFree peer, s => .inl (execReceiveRecordIdleFree_keeps peer s)
  | .miss, s => .inl (execMiss_keeps s)
  | .retentionBudgetExpiry k, s => .inl (execRetentionBudgetExpiry_keeps k s)
  | .mcastCompletionRecord, s => .inl (execMcastCompletionRecord_keeps s)
  | .streamControlPacket, s => .inl (execStreamControlPacket_keeps s)
  | .openCommit, s => .inl (execOpenCommit_keeps s)
  | .slotFree, s => .inl (execSlotFree_keeps s)
  | .hostFeaturePacket, s => .inl (execHostFeaturePacket_keeps s)
  | .contributionArrive, s => .inl (execContributionArrive_keeps s)
  | .ingressUnclaimedTimeout, s => .inl (execIngressUnclaimedTimeout_keeps s)
  | .textPacket, s => .inl (execTextPacket_keeps s)
  | .textPacketAccept, s => .inl (execTextPacketAccept_keeps s)
  | .chunkEncodeDone u, s => .inl (execChunkEncodeDone_keeps u s)
  | .chunkRelease, s => .inl (execChunkRelease_keeps s)
  | .segmentVerdictRelease, s => .inl (execSegmentVerdictRelease_keeps s)
  | .logitPacket, s => .inl (execLogitPacket_keeps s)
  | .logitWindowExpiry k, s => .inl (execLogitWindowExpiry_keeps k s)
  | .sampleRelease k, s => .inl (execSampleRelease_keeps k s)
  | .awlItemAdmit h l, s => .inl (execAwlItemAdmit_keeps h l s)
  | .awlItemDone h l, s => .inl (execAwlItemDone_keeps h l s)
  | .awlReread h l good, s => .inl (execAwlReread_keeps h l good s)
  | .armatureSampleAdmit, s => .inl (execArmatureSampleAdmit_keeps s)
  | .armatureResult k, s => .inl (execArmatureResult_keeps k s)
  | .armatureReread k e good, s => .inl (execArmatureReread_keeps k e good s)
  | .judgeDispatch, s => .inl (execJudgeDispatch_keeps s)
  | .judgeResult h, s => .inl (execJudgeResult_keeps h s)
  | .tapSliceTimeout, s => .inl (execTapSliceTimeout_keeps s)
  | .probeItemDone h, s => .inl (execProbeItemDone_keeps h s)
  | .mlpResult h, s => .inl (execMlpResult_keeps h s)
  | .probeRelease, s => .inl (execProbeRelease_keeps s)
  | .probeRecordPacket, s => .inl (execProbeRecordPacket_keeps s)
  | .verdictCutoff, s => .inl (execVerdictCutoff_keeps s)
  | .bridleLaneStart h l, s => .inl (execBridleLaneStart_keeps h l s)
  | .verdictRelease k, s => .inl (execVerdictRelease_keeps k s)
  | .haltMessage, s => .inl (execHaltMessage_keeps s)
  | .handlerStart c, s => .inl (execHandlerStart_keeps c s)
  | .cellMessageArrive c, s => .inl (execCellMessageArrive_keeps c s)
  | .bulkTransferComplete c, s => .inl (execBulkTransferComplete_keeps c s)
  | .barrierComplete ch, s => .inl (execBarrierComplete_keeps ch s)
  | .flagChange, s => .inl (execFlagChange_keeps s)
  | .cellAdd c d a b, s => .inl (execCellAdd_keeps c d a b s)
  | .cellSub c d a b, s => .inl (execCellSub_keeps c d a b s)
  | .cellAnd c d a b, s => .inl (execCellAnd_keeps c d a b s)
  | .cellOr c d a b, s => .inl (execCellOr_keeps c d a b s)
  | .cellXor c d a b, s => .inl (execCellXor_keeps c d a b s)
  | .cellSll c d a b, s => .inl (execCellSll_keeps c d a b s)
  | .cellSrl c d a b, s => .inl (execCellSrl_keeps c d a b s)
  | .cellSra c d a b, s => .inl (execCellSra_keeps c d a b s)
  | .cellMul c d a b, s => .inl (execCellMul_keeps c d a b s)
  | .cellSlt c d a b, s => .inl (execCellSlt_keeps c d a b s)
  | .cellSltu c d a b, s => .inl (execCellSltu_keeps c d a b s)
  | .cellMin c d a b, s => .inl (execCellMin_keeps c d a b s)
  | .cellMax c d a b, s => .inl (execCellMax_keeps c d a b s)
  | .cellAddi c d a imm, s => .inl (execCellAddi_keeps c d a imm s)
  | .cellAndi c d a imm, s => .inl (execCellAndi_keeps c d a imm s)
  | .cellOri c d a imm, s => .inl (execCellOri_keeps c d a imm s)
  | .cellXori c d a imm, s => .inl (execCellXori_keeps c d a imm s)
  | .cellSlli c d a imm, s => .inl (execCellSlli_keeps c d a imm s)
  | .cellSrli c d a imm, s => .inl (execCellSrli_keeps c d a imm s)
  | .cellSrai c d a imm, s => .inl (execCellSrai_keeps c d a imm s)
  | .cellSlti c d a imm, s => .inl (execCellSlti_keeps c d a imm s)
  | .cellExtr c d a lsb width1, s => .inl (execCellExtr_keeps c d a lsb width1 s)
  | .cellLui c d imm, s => .inl (execCellLui_keeps c d imm s)
  | .cellLdB c d a imm, s => .inl (execCellLdB_keeps c d a imm s)
  | .cellLdH c d a imm, s => .inl (execCellLdH_keeps c d a imm s)
  | .cellLdW c d a imm, s => .inl (execCellLdW_keeps c d a imm s)
  | .cellLdD c d a imm, s => .inl (execCellLdD_keeps c d a imm s)
  | .cellStB c d a imm, s => .inl (execCellStB_keeps c d a imm s)
  | .cellStH c d a imm, s => .inl (execCellStH_keeps c d a imm s)
  | .cellStW c d a imm, s => .inl (execCellStW_keeps c d a imm s)
  | .cellStD c d a imm, s => .inl (execCellStD_keeps c d a imm s)
  | .cellBeq c a b off, s => .inl (execCellBeq_keeps c a b off s)
  | .cellBne c a b off, s => .inl (execCellBne_keeps c a b off s)
  | .cellBlt c a b off, s => .inl (execCellBlt_keeps c a b off s)
  | .cellBge c a b off, s => .inl (execCellBge_keeps c a b off s)
  | .cellBltu c a b off, s => .inl (execCellBltu_keeps c a b off s)
  | .cellBgeu c a b off, s => .inl (execCellBgeu_keeps c a b off s)
  | .cellJ c off, s => .inl (execCellJ_keeps c off s)
  | .cellJal c d off, s => .inl (execCellJal_keeps c d off s)
  | .cellJr c a, s => .inl (execCellJr_keeps c a s)
  | .cellVadd c int d a b, s => .inl (execCellVadd_keeps c int d a b s)
  | .cellVsub c int d a b, s => .inl (execCellVsub_keeps c int d a b s)
  | .cellVmul c int d a b, s => .inl (execCellVmul_keeps c int d a b s)
  | .cellVfma c int d a b e, s => .inl (execCellVfma_keeps c int d a b e s)
  | .cellVmax c int d a b, s => .inl (execCellVmax_keeps c int d a b s)
  | .cellVmin c int d a b, s => .inl (execCellVmin_keeps c int d a b s)
  | .cellVbcast c d a, s => .inl (execCellVbcast_keeps c d a s)
  | .cellVred c int d a, s => .inl (execCellVred_keeps c int d a s)
  | .cellVld c d a imm, s => .inl (execCellVld_keeps c d a imm s)
  | .cellVst c d a imm, s => .inl (execCellVst_keeps c d a imm s)
  | .cellMclr c t mode shift, s => .inl (execCellMclr_keeps c t mode shift s)
  | .cellMstep c t va vb asel bsel vec fmt, s => .inl (execCellMstep_keeps c t va vb asel bsel vec fmt s)
  | .cellMrd c t vd target sat clr row rowmode q shift, s => .inl (execCellMrd_keeps c t vd target sat clr row rowmode q shift s)
  | .cellMstat c t d, s => .inl (execCellMstat_keeps c t d s)
  | .cellSend c a, s => .inl (execCellSend_keeps c a s)
  | .cellSendw c a, s => .inl (execCellSendw_keeps c a s)
  | .cellRecv c d, s => .inl (execCellRecv_keeps c d s)
  | .cellRqlen c d, s => .inl (execCellRqlen_keeps c d s)
  | .cellBput c a b tag len, s => .inl (execCellBput_keeps c a b tag len s)
  | .cellBget c a b tag len, s => .inl (execCellBget_keeps c a b tag len s)
  | .cellBpost c a b tag len, s => .inl (execCellBpost_keeps c a b tag len s)
  | .cellBar c ch, s => .inl (execCellBar_keeps c ch s)
  | .cellFset c f, s => .inl (execCellFset_keeps c f s)
  | .cellFclr c f, s => .inl (execCellFclr_keeps c f s)
  | .cellFrd c d f, s => .inl (execCellFrd_keeps c d f s)
  | .cellFwait c f v, s => .inl (execCellFwait_keeps c f v s)
  | .cellNop c, s => .inl (execCellNop_keeps c s)
  | .cellEnd c, s => .inl (execCellEnd_keeps c s)
  | .cellCsrr c d k, s => .inl (execCellCsrr_keeps c d k s)
  | .cellPlumb c d, s => .inl (execCellPlumb_keeps c d s)
  | .bridleEnd h l, s => .inl (execBridleEnd_keeps h l s)
  | .bridleLd h l d sel, s => .inl (execBridleLd_keeps h l d sel s)
  | .bridleLi h l d imm, s => .inl (execBridleLi_keeps h l d imm s)
  | .bridleFadd h l d a b, s => .inl (execBridleFadd_keeps h l d a b s)
  | .bridleFmul h l d a b, s => .inl (execBridleFmul_keeps h l d a b s)
  | .bridleFmax h l d a b, s => .inl (execBridleFmax_keeps h l d a b s)
  | .bridleFmin h l d a b, s => .inl (execBridleFmin_keeps h l d a b s)
  | .bridleAnd h l d a b, s => .inl (execBridleAnd_keeps h l d a b s)
  | .bridleOr h l d a b, s => .inl (execBridleOr_keeps h l d a b s)
  | .bridleAdd h l d a b, s => .inl (execBridleAdd_keeps h l d a b s)
  | .bridleBflt h l a b k, s => .inl (execBridleBflt_keeps h l a b k s)
  | .bridleBfge h l a b k, s => .inl (execBridleBfge_keeps h l a b k s)
  | .bridleBnan h l a k, s => .inl (execBridleBnan_keeps h l a k s)
  | .bridleBeq h l a b k, s => .inl (execBridleBeq_keeps h l a b k s)
  | .bridleBne h l a b k, s => .inl (execBridleBne_keeps h l a b k s)
  | .bridleBltu h l a b k, s => .inl (execBridleBltu_keeps h l a b k s)
  | .bridleBgeu h l a b k, s => .inl (execBridleBgeu_keeps h l a b k s)
  | .bridleBbit h l a bit k, s => .inl (execBridleBbit_keeps h l a bit k s)
  | .bridleHold h l span disp, s => .inl (execBridleHold_keeps h l span disp s)
  | .bridleRedact h l a b, s => .inl (execBridleRedact_keeps h l a b s)
  | .bridleRewind h l n, s => .inl (execBridleRewind_keeps h l n s)
  | .bridleHalt h l, s => .inl (execBridleHalt_keeps h l s)
  | .bridleBias h l a vector, s => .inl (execBridleBias_keeps h l a vector s)
  | .bridleTag h l tag, s => .inl (execBridleTag_keeps h l tag s)
  | .cellHardFault c, s => .inl (execCellHardFault_keeps c s)
  | .cellReloadComplete c, s => .inl (execCellReloadComplete_keeps c s)
  | .benchRouterFail b, s => .inl (execBenchRouterFail_keeps b s)
  | .engineHardFault h e u, s => .inl (execEngineHardFault_keeps h e u s)
  | .weltGroupRetire southward g, s => .inl (execWeltGroupRetire_keeps southward g s)
  | .weltSpareTakeover southward, s => .inl (execWeltSpareTakeover_keeps southward s)
  | .patrolScrub m w, s => .inl (execPatrolScrub_keeps m w s)
  | .memRepair, s => .inl (execMemRepair_keeps s)
  | .cellImageRewrite c addr, s => .inl (execCellImageRewrite_keeps c addr s)
  | .packetDelineation k hdr, s => .inl (execPacketDelineation_keeps k hdr s)
  | .detokenizerContributionReady k, s => .inl (execDetokenizerContributionReady_keeps k s)
  | .samplerStepDone k, s => .inl (execSamplerStepDone_keeps k s)
  | .ingressContributionCutoff, s => .inl (execIngressContributionCutoff_keeps s)
  | .mboxSubmit p bits, s => .inl (execMboxSubmit_keeps p bits s)
  | .repairSemaphoreRelease, s => .inl (execRepairSemaphoreRelease_keeps s)
  | .planeResetComplete, s => .inl (execPlaneResetComplete_keeps s)

/-! ### What is kept where a mailbox command runs -/

theorem State.cmd?_some {code : Nat} {x : Cmd} (h : s.cmd? p n code = some x) : x = s.cmdOf p n code := by
  unfold State.cmd? at h
  dsimp only at h
  split at h
  · exact (Option.some.inj h).symm
  · nomatch h

/-- What rests on the kept parts alone holds after a mailbox command when it holds before and after its run. -/
theorem State.startCmd_preserves {P : State → Prop} (hP : ∀ {u v : State}, P u → v.kept = u.kept → P v) (hs : P s) {code len : Nat}
    {run : Cmd → State → State} (hrun : P (run (s.cmdOf p n code) (s.startedAt p n))) : P (s.startCmd p n code len run) := by
  unfold State.startCmd
  split
  · exact hs
  · next x hx =>
    obtain rfl := State.cmd?_some hx
    dsimp only
    split
    · exact hP hs (by simp)
    split
    · exact hP hs (by simp)
    split
    · exact hP hs (by simp)
    · exact hrun

/-! ### Commands that set the boot state -/

/-- A change of the boot state: the queue and the power state stay, and locked keys stay locked as they are (R434). -/
def State.SetsBoot (s t : State) : Prop :=
  t.pending = s.pending ∧ t.power = s.power ∧
    (s.boot.keysLocked = true → t.boot.keysLocked = true ∧ t.boot.keys = s.boot.keys)

theorem State.kept_iff : t.kept = s.kept ↔ t.pending = s.pending ∧ t.boot = s.boot ∧ t.power = s.power := by
  simp only [State.kept, Prod.mk.injEq]

theorem State.SetsBoot.of_kept {u : State} (h : s.SetsBoot u) (hk : t.kept = u.kept) : s.SetsBoot t := by
  obtain ⟨hpending, hboot, hpower⟩ := State.kept_iff.1 hk
  unfold State.SetsBoot
  rw [hpending, hboot, hpower]
  exact h

theorem State.SetsBoot.refl (s : State) : s.SetsBoot s := ⟨rfl, rfl, fun h => ⟨h, rfl⟩⟩

/-- A boot state whose keys are the same. -/
theorem State.SetsBoot.setBoot {u : State} (h : s.SetsBoot u) {b : Boot} (hl : b.keysLocked = u.boot.keysLocked)
    (hk : b.keys = u.boot.keys) : s.SetsBoot { u with boot := b } := by
  obtain ⟨hpending, hpower, hkeys⟩ := h
  refine ⟨hpending, hpower, fun hlocked => ?_⟩
  rw [hl, hk]
  exact hkeys hlocked

theorem writeDirect_setsBoot {u : State} (h : s.SetsBoot u) (p : MPort) (off : Nat) (v : Word) : s.SetsBoot (writeDirect p off v u) := by
  unfold writeDirect
  split
  · exact h.of_kept (writeNodeId_kept ..)
  split
  · split
    · exact h.setBoot rfl rfl
    · exact h
  split
  · exact h.of_kept (State.acknowledge_kept ..)
  split
  · exact h.of_kept (by cases p <;> simp)
  split
  · split
    · exact h.of_kept (clearStepped_kept _)
    · exact h
  split
  · exact h.of_kept (submit_kept ..)
  split
  · refine h.of_kept ?_
    dsimp only
    repeat' split
    all_goals simp
  · exact h

theorem writeDirects_setsBoot (p : MPort) (off : Nat) (data : List Byte) (u : State) (h : s.SetsBoot u) :
    s.SetsBoot (writeDirects p off data u) := by
  fun_induction writeDirects p off data u with
  | case1 off b0 b1 b2 b3 rest u ih => exact ih (writeDirect_setsBoot h ..)
  | case2 => exact h

theorem writeRegister_setsBoot (b : Bus) (addr : Word) (data : List Byte) (s : State) : s.SetsBoot (writeRegister b addr data s) := by
  have hs := State.SetsBoot.refl s
  unfold writeRegister
  dsimp only
  split
  · split
    · exact hs.of_kept (State.reply_kept ..)
    split
    · exact (writeDirects_setsBoot .a _ data s hs).of_kept (State.reply_kept ..)
    · refine hs.of_kept ?_
      split <;> simp
  · refine hs.of_kept ?_
    repeat' split
    all_goals simp
  · split
    · exact writeDirects_setsBoot .b _ data s hs
    · refine hs.of_kept ?_
      split <;> simp

theorem runFwWrite_setsBoot {u : State} (h : s.SetsBoot u) (x : Cmd) : s.SetsBoot (runFwWrite x u) := by
  unfold runFwWrite
  dsimp only
  split
  · exact h.of_kept (State.answer_kept ..)
  split
  · exact h.of_kept (State.answer_kept ..)
  · refine State.SetsBoot.of_kept ?_ (State.answer_kept ..)
    exact h.setBoot rfl rfl

theorem runFwStart_setsBoot {u : State} (h : s.SetsBoot u) (x : Cmd) : s.SetsBoot (runFwStart x u) := by
  unfold runFwStart State.admitLong
  split
  · exact h.of_kept (State.answer_kept ..)
  split
  · exact h.of_kept (State.answer_kept ..)
  dsimp only
  split
  · refine State.SetsBoot.of_kept ?_ (State.answer_kept ..)
    exact h.setBoot rfl rfl
  · exact h.setBoot rfl rfl

theorem fwStartComplete_setsBoot (s : State) : s.SetsBoot (fwStartComplete s) := by
  unfold fwStartComplete
  split
  · exact .refl s
  · refine State.SetsBoot.of_kept ?_ (State.respond_kept ..)
    exact (State.SetsBoot.refl s).setBoot rfl rfl

theorem runKeyLoad_setsBoot {u : State} (h : u.kept = s.kept) (x : Cmd) : s.SetsBoot (runKeyLoad x u) := by
  have hs := (State.SetsBoot.refl s).of_kept h
  obtain ⟨hpending, hboot, hpower⟩ := State.kept_iff.1 h
  unfold runKeyLoad
  dsimp only
  split
  · exact hs.of_kept (State.answer_kept ..)
  split
  · exact hs.of_kept (State.answer_kept ..)
  · next hunlocked _ =>
    refine State.SetsBoot.of_kept ?_ (State.answer_kept ..)
    exact ⟨hpending, hpower, fun hlocked => absurd (hboot ▸ hlocked) hunlocked⟩

theorem runKeyLock_setsBoot {u : State} (h : u.kept = s.kept) (x : Cmd) : s.SetsBoot (runKeyLock x u) := by
  have hs := (State.SetsBoot.refl s).of_kept h
  unfold runKeyLock
  split
  · exact hs.of_kept (State.answer_kept ..)
  · obtain ⟨hpending, hpower, hkeys⟩ := hs
    refine State.SetsBoot.of_kept ?_ (State.answer_kept ..)
    exact ⟨hpending, hpower, fun hlocked => ⟨rfl, (hkeys hlocked).2⟩⟩

theorem romReady_setsBoot (s : State) : s.SetsBoot (romReady s) := by
  have htested : s.SetsBoot s.selfTested := (State.SetsBoot.refl s).of_kept s.selfTested_kept
  have hready : s.SetsBoot { s.selfTested with boot := { s.selfTested.boot with romReady := true } } := htested.setBoot rfl rfl
  unfold romReady
  split
  · exact .refl s
  · exact hready.of_kept (answerUnknown_kept _)

theorem State.SetsBoot.startCmd {code len : Nat} {run : Cmd → State → State}
    (hrun : s.SetsBoot (run (s.cmdOf p n code) (s.startedAt p n))) : s.SetsBoot (s.startCmd p n code len run) :=
  State.startCmd_preserves State.SetsBoot.of_kept (.refl s) hrun

theorem exec_setsBoot (h : c.setsBoot = true) (s : State) : ∃ t, exec c s = .next t ∧ s.SetsBoot t := by
  have hs := State.SetsBoot.refl s
  have hstarted (p : MPort) (n : Fin 32) : s.SetsBoot (s.startedAt p n) := hs.of_kept rfl
  cases c with
  | romReady => exact ⟨_, rfl, romReady_setsBoot s⟩
  | bootFwFailedClear => exact ⟨_, rfl, State.SetsBoot.setBoot hs rfl rfl⟩
  | registerWrite => exact ⟨_, rfl, writeRegister_setsBoot ..⟩
  | fwWrite p n =>
    refine ⟨_, rfl, State.SetsBoot.startCmd ?_⟩
    exact runFwWrite_setsBoot (hstarted p n) _
  | fwStart p n =>
    refine ⟨_, rfl, State.SetsBoot.startCmd ?_⟩
    exact runFwStart_setsBoot (hstarted p n) _
  | fwStartComplete => exact ⟨_, rfl, fwStartComplete_setsBoot s⟩
  | keyLoad p n =>
    refine ⟨_, rfl, State.SetsBoot.startCmd ?_⟩
    exact runKeyLoad_setsBoot (u := s.startedAt p n) rfl _
  | keyLock p n =>
    refine ⟨_, rfl, State.SetsBoot.startCmd ?_⟩
    exact runKeyLock_setsBoot (u := s.startedAt p n) rfl _
  | _ => exact absurd h Bool.false_ne_true

/-! ### Commands that set the power state -/

/-- What the legality of a half rests on: its points and its running clock. -/
def HalfPower.clocks (v : HalfPower) : Nat × Nat × Nat × Nat × Nat := (v.opSet, v.throttle, v.point, v.setPoint, v.run)

theorem HalfPower.legal_of_clocks {v w : HalfPower} (h : v.clocks = w.clocks) (hw : w.Legal) : v.Legal := by
  simp only [HalfPower.clocks, Prod.mk.injEq] at h
  obtain ⟨hop, hthrottle, hpoint, hset, hrun⟩ := h
  unfold HalfPower.Legal
  rw [hop, hthrottle, hpoint, hset, hrun]
  exact hw

theorem HalfPower.update_clocks (v : HalfPower) (e h cool : Bool) (now : Nat) : (v.update e h cool now).clocks = v.clocks := by
  unfold HalfPower.update
  exact (apply_ite HalfPower.clocks _ _ _).trans (ite_self _)

/-- A change of the power state: the queue and the boot state stay, and a legal power state stays legal. -/
def State.SetsPower (s t : State) : Prop := t.pending = s.pending ∧ t.boot = s.boot ∧ (s.power.Legal → t.power.Legal)

theorem State.SetsPower.of_kept {u : State} (h : s.SetsPower u) (hk : t.kept = u.kept) : s.SetsPower t := by
  obtain ⟨hpending, hboot, hpower⟩ := State.kept_iff.1 hk
  unfold State.SetsPower
  rw [hpending, hboot, hpower]
  exact h

theorem State.SetsPower.refl (s : State) : s.SetsPower s := ⟨rfl, rfl, id⟩

theorem State.SetsPower.setPower {u : State} (h : s.SetsPower u) {q : Power} (hq : u.power.Legal → q.Legal) :
    s.SetsPower { u with power := q } := by
  obtain ⟨hpending, hboot, hpower⟩ := h
  exact ⟨hpending, hboot, fun hl => hq (hpower hl)⟩

theorem Power.Legal.half {q : Power} (h : q.Legal) (x : HalfId) : (q.half x).Legal := by
  obtain ⟨hn, hs, -⟩ := h
  cases x with
  | north => exact hn
  | south => exact hs

theorem State.SetsPower.setHalf {u : State} (h : s.SetsPower u) {x : HalfId} {v : HalfPower} (hv : (u.power.half x).Legal → v.Legal) :
    s.SetsPower (u.setHalf x v) := by
  have hlegal (hl : u.power.Legal) : v.Legal := hv (hl.half x)
  cases x with
  | north => exact h.setPower fun hl => ⟨hlegal hl, hl.2⟩
  | south => exact h.setPower fun hl => ⟨hl.1, hlegal hl, hl.2.2⟩

/-- A half whose pending set point is formed again (R506). -/
def HalfPower.pointed (v : HalfPower) : HalfPower :=
  { v with pending := if min v.opSet v.throttle = v.setPoint then none else some (min v.opSet v.throttle) }

theorem HalfPower.pointed_point (v : HalfPower) : v.pointed.point = min v.opSet v.throttle := by
  unfold HalfPower.pointed HalfPower.point
  dsimp only
  split
  · next h => exact h.symm
  · rfl

theorem HalfPower.pointed_legal {v : HalfPower} (h : v.Legal) : v.pointed.Legal := by
  obtain ⟨hop, hthrottle, -, hrest⟩ := h
  refine ⟨hop, hthrottle, ?_, hrest⟩
  rw [HalfPower.pointed_point]
  rcases Nat.le_total v.opSet v.throttle with hle | hle
  · rwa [Nat.min_eq_left hle]
  · rwa [Nat.min_eq_right hle]

theorem State.formPending_kept (s : State) (x : HalfId) (v : HalfPower) :
    ((s.setHalf x v).formPending x).kept = (s.setHalf x v.pointed).kept := by
  cases x <;> rfl

theorem State.repoint_kept (s : State) (x : HalfId) (v : HalfPower) : (s.repoint x v).kept = (s.setHalf x v.pointed).kept := by
  unfold State.repoint
  dsimp only
  split
  · exact s.formPending_kept x v
  · exact (State.recheck_kept _).trans ((State.newDistance_kept _).trans (s.formPending_kept x v))

theorem State.SetsPower.repoint {u : State} (h : s.SetsPower u) {x : HalfId} {v : HalfPower} (hv : (u.power.half x).Legal → v.Legal) :
    s.SetsPower (u.repoint x v) :=
  (h.setHalf (v := v.pointed) fun hl => HalfPower.pointed_legal (hv hl)).of_kept (u.repoint_kept x v)

/-! #### Temperatures and steps (R486, R508) -/

theorem thermalSensorRead_setsPower (l : List Int) (s : State) : s.SetsPower (thermalSensorRead l s) := by
  refine State.SetsPower.of_kept (u := { s with power := (thermalSensorRead l s).power }) ?_ rfl
  exact (State.SetsPower.refl s).setPower fun ⟨hn, hs, hrest⟩ =>
    ⟨HalfPower.legal_of_clocks (HalfPower.update_clocks ..) hn, HalfPower.legal_of_clocks (HalfPower.update_clocks ..) hs, hrest⟩

/-- A half one step down, 100 MHz slower (R486). -/
def HalfPower.stepDown (v : HalfPower) (now : Nat) : HalfPower :=
  { v with run := v.run - 100, lastStep := some now, powerDown := v.powerDown || v.powerHot,
           lowSince := if v.emergency && decide (v.run - 100 = 200) then some now else none }

/-- A half one step up, 100 MHz faster up to its set point (R486). -/
def HalfPower.stepUp (v : HalfPower) (now : Nat) : HalfPower :=
  { v with run := min v.setPoint (v.run + 100), lastStep := some now,
           powerDown := v.powerDown && decide (min v.setPoint (v.run + 100) ≠ v.setPoint) }

theorem HalfPower.stepDown_legal {v : HalfPower} (h : v.Legal) (hfast : 200 < v.run) (now : Nat) : (v.stepDown now).Legal := by
  obtain ⟨hop, hthrottle, hpoint, hset, hrun, hle⟩ := h
  refine ⟨hop, hthrottle, hpoint, hset, ?_, ?_⟩
  · dsimp only [HalfPower.stepDown, legalClock] at *; omega
  · dsimp only [HalfPower.stepDown]; omega

theorem HalfPower.stepUp_legal {v : HalfPower} (h : v.Legal) (now : Nat) : (v.stepUp now).Legal := by
  obtain ⟨hop, hthrottle, hpoint, hset, hrun, hle⟩ := h
  refine ⟨hop, hthrottle, hpoint, hset, ?_, Nat.min_le_left ..⟩
  dsimp only [HalfPower.stepUp, legalClock] at *; omega

theorem thermalStepDown_kept (x : HalfId) (s : State) :
    thermalStepDown x s = s ∨
      200 < (s.power.half x).run ∧ (thermalStepDown x s).kept = (s.setHalf x ((s.power.half x).stepDown s.now)).kept := by
  unfold thermalStepDown
  dsimp only
  split
  · exact .inl rfl
  · next hgo =>
    simp only [Bool.or_eq_true, decide_eq_true_eq, not_or, Nat.not_le] at hgo
    obtain ⟨-, hfast⟩ := hgo
    refine .inr ⟨hfast, ?_⟩
    split
    · exact (State.notePower_kept ..).trans (State.degrade_kept ..)
    · exact State.degrade_kept ..

theorem thermalStepDown_setsPower (x : HalfId) (s : State) : s.SetsPower (thermalStepDown x s) := by
  rcases thermalStepDown_kept x s with h | ⟨hfast, hk⟩
  · rw [h]
    exact .refl s
  · exact ((State.SetsPower.refl s).setHalf fun hl => HalfPower.stepDown_legal hl hfast _).of_kept hk

theorem thermalStepUp_cases (x : HalfId) (s : State) :
    thermalStepUp x s = s ∨ thermalStepUp x s = s.setHalf x ((s.power.half x).stepUp s.now) := by
  unfold thermalStepUp
  dsimp only
  split
  · exact .inl rfl
  split
  · exact .inl rfl
  · exact .inr rfl

theorem thermalStepUp_setsPower (x : HalfId) (s : State) : s.SetsPower (thermalStepUp x s) := by
  rcases thermalStepUp_cases x s with h | h
  · rw [h]
    exact .refl s
  · rw [h]
    exact (State.SetsPower.refl s).setHalf fun hl => HalfPower.stepUp_legal hl _

/-! #### Estimates and the cap (R505 to R507) -/

theorem HalfPower.estimated_clocks (v : HalfPower) (e : Nat) (h b cool : Bool) (now later : Nat) :
    ((v.addEstimate e now).update h b cool later).clocks = v.clocks :=
  HalfPower.update_clocks ..

theorem currentEstimate_setsPower (a b y : Nat) (s : State) : s.SetsPower (currentEstimate a b y s) := by
  unfold currentEstimate
  dsimp only
  refine (State.SetsPower.refl s).setPower fun ⟨hn, hs, hrest⟩ => ⟨?_, ?_, hrest⟩
  · exact HalfPower.legal_of_clocks (HalfPower.estimated_clocks ..) hn
  · exact HalfPower.legal_of_clocks (HalfPower.estimated_clocks ..) hs

theorem HalfPower.setThrottle_legal {v : HalfPower} (h : v.Legal) {mhz : Nat} (hm : legalClock mhz) :
    ({ v with throttle := mhz } : HalfPower).Legal := by
  obtain ⟨hop, -, hrest⟩ := h
  exact ⟨hop, hm, hrest⟩

theorem HalfPower.setOp_legal {v : HalfPower} (h : v.Legal) {mhz : Nat} (hm : legalClock mhz) :
    ({ v with opSet := mhz } : HalfPower).Legal := by
  obtain ⟨-, hrest⟩ := h
  exact ⟨hm, hrest⟩

theorem State.SetsPower.throttleDown {u : State} (h : s.SetsPower u) (x : HalfId) : s.SetsPower (u.throttleDown x) := by
  unfold State.throttleDown
  dsimp only
  split
  · exact h
  · next hfast =>
    have hpending : s.SetsPower { u with power := { u.power with throttlePending := true } } := h.setPower id
    refine State.SetsPower.of_kept (hpending.repoint (x := x) (v := _) fun hl => ?_) (State.notePower_kept ..)
    have hv : (u.power.half x).Legal := by cases x <;> exact hl
    obtain ⟨-, hthrottle, -⟩ := hv
    exact HalfPower.setThrottle_legal (by cases x <;> exact hl) (by dsimp only [legalClock] at *; omega)

theorem Power.raised_below {q : Power} {x : HalfId} (h : q.raised = some x) : (q.half x).throttle < 800 := by
  unfold Power.raised at h
  split at h
  · next hn hs =>
    split at h <;> obtain rfl := Option.some.inj h
    · exact of_decide_eq_true hs
    · exact of_decide_eq_true hn
  · next hn _ =>
    obtain rfl := Option.some.inj h
    exact of_decide_eq_true hn
  · next _ hs =>
    obtain rfl := Option.some.inj h
    exact of_decide_eq_true hs
  · nomatch h

theorem powerCapCompare_setsPower (s : State) : s.SetsPower (powerCapCompare s) := by
  have hs := State.SetsPower.refl s
  unfold powerCapCompare
  dsimp only
  generalize (if 10 * s.gateAverage < 9 * s.power.cap then s.power.belowCount + 1 else 0) = below
  split
  · exact hs
  split
  · exact hs.setPower id
  split
  · split
    · exact hs.setPower id
    · refine State.SetsPower.throttleDown ?_ _
      exact hs.setPower id
  split
  · exact hs.setPower id
  split
  · exact hs.setPower id
  · next x hx =>
    refine State.SetsPower.repoint ?_ fun hl => ?_
    · exact hs.setPower id
    have hv : (s.power.half x).Legal := by cases x <;> exact hl
    have hbelow := Power.raised_below hx
    obtain ⟨-, hthrottle, -⟩ := hv
    exact HalfPower.setThrottle_legal (by cases x <;> exact hl) (by dsimp only [legalClock] at *; omega)

/-! #### Commands and the cast (R444, R484, R505, R506, R508) -/

theorem runHalfClock_setsPower {u : State} (h : s.SetsPower u) (x : Cmd) : s.SetsPower (runHalfClock x u) := by
  unfold runHalfClock
  dsimp only
  split
  · exact h.of_kept (State.answer_kept ..)
  split
  · exact h.of_kept (State.answer_kept ..)
  · next hrange _ =>
    refine State.SetsPower.of_kept (h.repoint fun hl => HalfPower.setOp_legal hl ?_) (State.answer_kept ..)
    dsimp only [legalClock]
    omega

theorem runPowerCap_setsPower {u : State} (h : s.SetsPower u) (x : Cmd) : s.SetsPower (runPowerCap x u) := by
  unfold runPowerCap
  dsimp only
  split
  · exact h.of_kept (State.answer_kept ..)
  · next hrange =>
    refine State.SetsPower.of_kept ?_ (State.answer_kept ..)
    refine h.setPower fun ⟨hn, hs, _, _, hrest⟩ => ⟨hn, hs, ?_, ?_, hrest⟩
    · dsimp only; omega
    · dsimp only; omega

theorem runThermalConfig_setsPower {u : State} (h : s.SetsPower u) (x : Cmd) : s.SetsPower (runThermalConfig x u) := by
  unfold runThermalConfig
  dsimp only
  split
  · exact h.of_kept (State.answer_kept ..)
  · next hrange =>
    refine State.SetsPower.of_kept ?_ (State.answer_kept ..)
    refine h.setPower fun ⟨hn, hs, hlo, hhi, _⟩ => ⟨hn, hs, hlo, hhi, ?_⟩
    dsimp only
    omega

theorem HalfPower.applyPoint_legal {v : HalfPower} (h : v.Legal) : v.applyPoint.Legal := by
  obtain ⟨hop, hthrottle, hpoint, -, hrun, hle⟩ := h
  have hnew : v.applyPoint.point = v.point := rfl
  refine ⟨hop, hthrottle, by rwa [hnew], hpoint, ?_, ?_⟩
  · unfold HalfPower.applyPoint
    dsimp only [legalClock] at *
    split <;> omega
  · unfold HalfPower.applyPoint
    dsimp only
    split <;> omega

theorem State.castCounted_kept (s : State) (t : PolicyTables) (id : List Byte) : (s.castCounted t id).kept = s.kept := by
  have hgated (u : State) : ((u.gateArrays t).castBarrier.count1 0x11 0 11).kept = u.kept :=
    (State.count1_kept ..).trans ((State.castBarrier_kept _).trans (State.gateArrays_kept ..))
  unfold State.castCounted
  dsimp only
  split
  · exact (hgated _).trans s.clearDegraded_kept
  · exact hgated s

/-- A cast sets the halves' points and ends the wait for a throttle (R484, R506). -/
theorem State.castNow_kept (s : State) (a : Armed) (m : Policy) :
    (s.castNow a m).kept = (s.pending, s.boot, { s.power with
      north := s.power.north.applyPoint, south := s.power.south.applyPoint, throttlePending := false }) := by
  have hcounted : (s.castNow a m).kept = ((s.castBegun a (m.castAt a s.rel)).castInstalled m.tables).kept := by
    rw [State.castNow_eq]
    split
    · exact State.castCounted_kept ..
    · exact (State.noteCast_kept ..).trans (State.castCounted_kept ..)
  obtain ⟨n, k, e, hi⟩ := (s.castBegun a (m.castAt a s.rel)).castInstalled_only m.tables
  obtain ⟨hpending, hboot, -⟩ := State.kept_iff.1 ((s.castBegun a (m.castAt a s.rel)).installTables_kept m.tables)
  rw [hcounted, hi, kept_mk, hpending, hboot]
  rfl

theorem State.castNow_setsPower (s : State) (a : Armed) (m : Policy) : s.SetsPower (s.castNow a m) := by
  have hk := s.castNow_kept a m
  simp only [State.kept, Prod.mk.injEq] at hk
  obtain ⟨hpending, hboot, hpower⟩ := hk
  refine ⟨hpending, hboot, fun ⟨hn, hs, hrest⟩ => ?_⟩
  rw [hpower]
  exact ⟨HalfPower.applyPoint_legal hn, HalfPower.applyPoint_legal hs, hrest⟩

theorem castInstant_setsPower (s : State) : s.SetsPower (castInstant s) := by
  unfold castInstant
  split
  · split
    · next a m _ _ _ => exact s.castNow_setsPower a m
    · exact .refl s
  · exact .refl s

theorem State.SetsPower.startCmd {code len : Nat} {run : Cmd → State → State}
    (hrun : s.SetsPower (run (s.cmdOf p n code) (s.startedAt p n))) : s.SetsPower (s.startCmd p n code len run) :=
  State.startCmd_preserves State.SetsPower.of_kept (.refl s) hrun

theorem exec_setsPower (h : c.setsPower = true) (s : State) : ∃ t, exec c s = .next t ∧ s.SetsPower t := by
  have hs := State.SetsPower.refl s
  have hstarted (p : MPort) (n : Fin 32) : s.SetsPower (s.startedAt p n) := hs.of_kept rfl
  cases c with
  | thermalSensorRead => exact ⟨_, rfl, thermalSensorRead_setsPower ..⟩
  | thermalStepDown => exact ⟨_, rfl, thermalStepDown_setsPower ..⟩
  | thermalStepUp => exact ⟨_, rfl, thermalStepUp_setsPower ..⟩
  | currentEstimate => exact ⟨_, rfl, currentEstimate_setsPower ..⟩
  | powerCapCompare => exact ⟨_, rfl, powerCapCompare_setsPower s⟩
  | castInstant => exact ⟨_, rfl, castInstant_setsPower s⟩
  | halfClock p n =>
    refine ⟨_, rfl, State.SetsPower.startCmd ?_⟩
    exact runHalfClock_setsPower (hstarted p n) _
  | powerCap p n =>
    refine ⟨_, rfl, State.SetsPower.startCmd ?_⟩
    exact runPowerCap_setsPower (hstarted p n) _
  | thermalConfig p n =>
    refine ⟨_, rfl, State.SetsPower.startCmd ?_⟩
    exact runThermalConfig_setsPower (hstarted p n) _
  | _ => exact absurd h Bool.false_ne_true

/-! ### Every command -/

theorem exec_resets (h : c.resets = true) (s : State) : ∃ t, exec c s = .next t ∧ (t.kept = s.kept ∨ t = s.coldReset) := by
  cases c with
  | coldResetAssert => exact ⟨_, rfl, .inr rfl⟩
  | resetColdStart =>
    refine ⟨_, rfl, ?_⟩
    unfold resetColdStart
    split
    · split
      · exact .inr rfl
      · exact .inl rfl
    · exact .inl rfl
  | powerGoodLoss r =>
    refine ⟨_, rfl, ?_⟩
    cases r with
    | north => exact .inl (State.loseArray_kept ..)
    | south => exact .inl (State.loseArray_kept ..)
    | x => exact .inr rfl
    | sram => exact .inr rfl
    | aon => exact .inr rfl
  | _ => exact absurd h Bool.false_ne_true

/-- Every command answers a next state: one that is a change of the boot state or of the power state at most, or, after a command
that resets the gate, the reset state. -/
theorem exec_cases (c : Instr) (s : State) :
    ∃ t, exec c s = .next t ∧ (s.SetsBoot t ∨ s.SetsPower t ∨ (c.resets = true ∧ t = s.coldReset)) := by
  obtain ⟨t, ht⟩ := exec_next c s
  rcases exec_keeps c s with h | h | h | h
  · rw [ht] at h
    exact ⟨t, ht, .inl ((State.SetsBoot.refl s).of_kept h)⟩
  · obtain ⟨u, hu, hset⟩ := exec_setsBoot h s
    exact ⟨u, hu, .inl hset⟩
  · obtain ⟨u, hu, hset⟩ := exec_setsPower h s
    exact ⟨u, hu, .inr (.inl hset)⟩
  · obtain ⟨u, hu, hk | hreset⟩ := exec_resets h s
    · exact ⟨u, hu, .inl ((State.SetsBoot.refl s).of_kept hk)⟩
    · exact ⟨u, hu, .inr (.inr ⟨h, hreset⟩)⟩

/-! ### The statements -/

/-- Settles O1: a step is the match on the queue. -/
theorem stepRunsTheFrontCommand : Obligations.StepRunsTheFrontCommand := by
  unfold Obligations.StepRunsTheFrontCommand
  refine ⟨fun _ _ _ => rfl, fun s h => ?_⟩
  unfold step
  rw [h]

/-- Settles O2, by what each command can do. -/
theorem everyCommandCompletes : Obligations.EveryCommandCompletes := by
  unfold Obligations.EveryCommandCompletes
  intro c s
  obtain ⟨t, ht, ⟨hpending, -⟩ | ⟨hpending, -⟩ | ⟨-, rfl⟩⟩ := exec_cases c s
  · exact ⟨t, ht, hpending⟩
  · exact ⟨t, ht, hpending⟩
  · exact ⟨_, ht, rfl⟩

theorem State.reset_power_legal : State.reset.power.Legal := by
  obtain ⟨-, -, -, -, -, -, -, -, -, -, -, -, -, -, -, -, -, -, -, -, hpower, -⟩ := resetState
  exact hpower

theorem exec_power_legal (hl : s.power.Legal) (h : exec c s = .next t) : t.power.Legal := by
  obtain ⟨u, hu, hcases⟩ := exec_cases c s
  obtain rfl := Host.Outcome.next.inj (h.symm.trans hu)
  rcases hcases with ⟨-, hpower, -⟩ | ⟨-, -, hpower⟩ | ⟨-, rfl⟩
  · rwa [hpower]
  · exact hpower hl
  · exact State.reset_power_legal

/-- Settles O4: the front command keeps the power state legal, and an idle step the whole state. -/
theorem stepKeepsLegalPower : Obligations.StepKeepsLegalPower := by
  unfold Obligations.StepKeepsLegalPower
  intro s t hl h
  obtain ⟨hfront, hidle⟩ := stepRunsTheFrontCommand
  cases hq : s.pending with
  | nil =>
    obtain rfl := Host.Outcome.next.inj ((hidle s hq).symm.trans h)
    exact hl
  | cons c rest =>
    have hrun := hfront c rest s
    rw [← hq] at hrun
    exact exec_power_legal (s := { s with pending := rest }) hl (hrun.symm.trans h)

end Sys2Proof.Machine
end

section
/-! SUPPORT. Semaphores and the handing over of mailbox slots (R422, R425, R426, R516): what a notice among effects latches,
what one submitted slot holds, and the answers to codes outside the table. -/

namespace Sys2Proof.Machine

variable {s : State} {c : Nat} {d : List Byte}

/-! ### The detail that a raised notice latches (R404, R514) -/

/-- A notice of the code is latched with the detail. -/
def State.Shows (s : State) (c : Nat) (d : List Byte) : Prop := ∃ v ∈ s.ctl.notices, v.code = c ∧ v.detail = d

theorem State.signalIrq_notices (s : State) (b : Bool) : (s.signalIrq b).ctl.notices = s.ctl.notices := by
  unfold State.signalIrq; split <;> rfl

theorem offerPacket_notices (q : QueueId) (t : Half) (p : Option Nat) (b : List (List Byte)) (s : State) :
    (offerPacket q t p b s).1.ctl.notices = s.ctl.notices := by
  unfold offerPacket
  dsimp only
  repeat' split
  all_goals rfl

/-- A later event of a latched notice counts and leaves its detail. -/
theorem oneEffect_shows (h : s.Shows c d) (e : Effect) : (oneEffect e s).1.Shows c d := by
  obtain ⟨v, hv, hc, hd⟩ := h
  cases e with
  | count k n => exact ⟨v, by simp only [oneEffect]; split <;> exact hv, hc, hd⟩
  | packet q t p b => exact ⟨v, by rw [oneEffect, offerPacket_notices]; exact hv, hc, hd⟩
  | notice c' d' =>
    by_cases hl : s.latched c' = true
    · refine ⟨if v.code = c' then { v with count := v.count + 1 } else v, ?_, ?_, ?_⟩
      · simp only [oneEffect, if_pos hl, countNotice]
        exact List.mem_map_of_mem hv
      · split <;> exact hc
      · split <;> exact hd
    · refine ⟨v, ?_, hc, hd⟩
      simp only [oneEffect, if_neg hl, State.signalIrq_notices]
      exact List.mem_append_left _ hv

theorem runEffects_shows (f : Nat) (es : List Effect) (h : s.Shows c d) : (runEffects f es s).Shows c d := by
  induction f generalizing es s with
  | zero => exact h
  | succ f ih =>
    cases es with
    | nil => exact h
    | cons e es => exact ih _ (oneEffect_shows h e)

theorem oneEffect_notice_shows (h : s.latched c = false) : (oneEffect (.notice c d) s).1.Shows c (padTo 40 d) := by
  refine ⟨⟨c, 1, s.now, padTo 40 d⟩, ?_, rfl, rfl⟩
  simp only [oneEffect, h, Bool.false_eq_true, if_false, State.signalIrq_notices]
  exact List.mem_append_right _ (List.mem_singleton.2 rfl)

theorem oneEffect_count_notices (k : CtrKey) (n : Nat) (s : State) : (oneEffect (.count k n) s).1.ctl.notices = s.ctl.notices := by
  simp only [oneEffect]; split <;> rfl

theorem oneEffect_packet_notices (q : QueueId) (t : Half) (p : Option Nat) (b : List (List Byte)) (s : State) :
    (oneEffect (.packet q t p b) s).1.ctl.notices = s.ctl.notices := offerPacket_notices ..

/-- An effect that does not raise code c leaves it unlatched. -/
theorem oneEffect_unlatched (h : s.latched c = false) {e : Effect} (he : ∀ d', e ≠ .notice c d') :
    (oneEffect e s).1.latched c = false := by
  rw [State.latched_any] at h ⊢
  cases e with
  | count k n => rw [oneEffect_count_notices]; exact h
  | packet q t p b => rw [oneEffect_packet_notices]; exact h
  | notice c' d' =>
    have hne : c' ≠ c := fun e => he d' (by rw [e])
    by_cases hl : s.latched c' = true
    · simpa only [oneEffect, if_pos hl, countNotice_code] using h
    · simp only [oneEffect, if_neg hl, State.signalIrq_notices, List.any_append, h]
      simp [hne]

/-- What an effect causes raises no notice but 13, 14 and 22. -/
theorem oneEffect_causes_codes (hc : c ≠ 13 ∧ c ≠ 14 ∧ c ≠ 22) (e : Effect) (s : State) (d' : List Byte) :
    .notice c d' ∉ (oneEffect e s).2 := by
  obtain ⟨h13, h14, h22⟩ := hc
  cases e with
  | count k n => simp only [oneEffect]; split <;> simp [h22]
  | notice c' d'' => simp only [oneEffect]; split <;> simp
  | packet q t p b =>
    rcases offerPacket_causes q t p b s with h | ⟨k, n, h⟩ | ⟨k, n, d'', h⟩ | ⟨d'', h⟩ <;> simp [oneEffect, h, h13, h14]

/-- Among effects that raise a code with one detail alone, the unlatched notice shows that detail. -/
theorem runEffects_notice_shows (hc : c ≠ 13 ∧ c ≠ 14 ∧ c ≠ 22) (f : Nat) (es : List Effect) (hf : effectSteps s es ≤ f)
    (hl : s.latched c = false) (hmem : .notice c d ∈ es) (hone : ∀ d', .notice c d' ∈ es → d' = d) :
    (runEffects f es s).Shows c (padTo 40 d) := by
  induction f generalizing es s with
  | zero =>
    cases es with
    | nil => simp at hmem
    | cons e es =>
      have := effectSteps_one e s
      simp only [effectSteps, List.map_cons, List.sum_cons] at hf this
      omega
  | succ f ih =>
    cases es with
    | nil => simp at hmem
    | cons e es =>
      by_cases he : e = .notice c d
      · subst he
        simp only [runEffects]
        exact runEffects_shows f _ (oneEffect_notice_shows hl)
      · have hother : ∀ d', e ≠ .notice c d' := fun d' h => he (by rw [h, hone d' (by simp [h])])
        refine ih _ ?_ (oneEffect_unlatched hl hother) ?_ ?_
        · have h1 := effectSteps_one e s
          have h2 := effectSteps_mono (s := s) (t := (oneEffect e s).1) (fun c => oneEffect_latched e s c) es
          simp only [effectSteps, List.map_cons, List.sum_cons, List.map_append, List.sum_append] at *
          omega
        · rcases List.mem_cons.1 hmem with h | h
          · exact absurd h.symm he
          · exact List.mem_append_right _ h
        · intro d' h
          rcases List.mem_append.1 h with h | h
          · exact absurd h (oneEffect_causes_codes hc e s d')
          · exact hone d' (List.mem_cons_of_mem _ h)

/-- An unlatched notice that follows a count shows its detail (R404). -/
theorem State.count_notice_shows (hc : c ≠ 13 ∧ c ≠ 14 ∧ c ≠ 22) (hl : s.latched c = false) (k : CtrKey) (n : Nat) :
    (s.effects [.count k n, .notice c d]).Shows c (padTo 40 d) := by
  refine runEffects_notice_shows hc _ _ ?_ hl (by simp) (by simp)
  have h3 : noticeSteps s.toLatch ≤ 29 := noticeSteps_mono (n := 3) (by unfold State.toLatch; split <;> split <;> split <;> omega)
  simp only [effectSteps, List.map_cons, List.map_nil, List.sum_cons, List.sum_nil, Effect.steps, List.length_cons, List.length_nil]
  split
  · omega
  · split <;> omega

/-! ### Semaphores (R425, R426) -/

@[simp] theorem State.sem_setSem (s : State) (n : Fin 32) (v : Semaphore) : (s.setSem n v).sem n = v := by
  simp [State.sem, State.setSem]

theorem State.sem_setSem_ne (s : State) {n m : Fin 32} (h : m ≠ n) (v : Semaphore) : (s.setSem n v).sem m = s.sem m := by
  simp [State.sem, State.setSem, aget_aset_ne h]

theorem State.setSem_rest (s : State) (n : Fin 32) (v : Semaphore) :
    { s.setSem n v with ctl := { (s.setSem n v).ctl with sems := s.ctl.sems } } = s := rfl

theorem Semaphore.request_held {v : Semaphore} (h : v.owner ≠ 0) (a b fw : Bool) : v.request a b fw = v := if_pos h

/-- A request to a free semaphore: the firmware's wins, and of two ports the one that did not win the previous tie (R426). -/
theorem Semaphore.request_free {v : Semaphore} (h : v.owner = 0) (a b fw : Bool) :
    (v.request a b fw).owner = (if fw then 3 else if a && b then (if v.tieB then 2 else 1) else if a then 1 else if b then 2 else 0) ∧
      (v.request a b fw).epoch = (if a || b || fw then v.epoch + 1#16 else v.epoch) ∧
      (v.request a b fw).tieB = (if a && b && !fw then !v.tieB else v.tieB) := by
  unfold Semaphore.request
  rw [if_neg (not_not.2 h)]
  cases fw <;> cases a <;> cases b <;> simp [Semaphore.grant, h]

/-- SEM_n shows the owner in its low bits (R425). -/
theorem Semaphore.word_owner {v : Semaphore} (h : v.owner < 4) : v.word.toNat % 4 = v.owner := by
  have := v.epoch.isLt
  simp only [Semaphore.word, BitVec.toNat_ofNat]
  omega

theorem State.directRead_sem (s : State) (p : MPort) (n : Fin 32) : s.directRead p (0x100 + 4 * n.val) = (s.sem n).word := by
  have hn := n.isLt
  have hoff : 0x100 ≤ 0x100 + 4 * n.val ∧ 0x100 + 4 * n.val < 0x180 ∧ (0x100 + 4 * n.val) % 4 = 0 := by omega
  have hidx : (⟨(0x100 + 4 * n.val - 0x100) / 4, by omega⟩ : Fin 32) = n := Fin.ext (by simp only; omega)
  unfold State.directRead
  repeat rw [if_neg (by omega)]
  rw [dif_pos hoff, hidx]

/-- A request or a release writes the one semaphore. -/
theorem exec_requestRelease (t : State) (n : Fin 32) {i : Instr}
    (hi : i = .semRequest n true false false ∨ i = .semRequest n false true false ∨ i = .semRequest n false false true ∨
      i = .semRequest n true true false ∨ i = .semRelease n .a ∨ i = .semRelease n .b) (h : exec i s = .next t) :
    ∃ v, t = s.setSem n v := by
  rcases hi with rfl | rfl | rfl | rfl | rfl | rfl <;> cases h <;> exact ⟨_, rfl⟩

theorem forceSem_sem (n : Fin 32) (p : MPort) (s : State) : (forceSem n p s).sem n = { s.sem n with owner := 0 } := by
  show (aget n (State.effects _ _).ctl.sems).getD {} = _
  rw [State.effects_sems]
  exact State.sem_setSem ..

/-- A force counts and latches NTC_SEMAPHORE with the number, the former owner and the port (R426, R521; log 12). -/
theorem forceSem_noticed (n : Fin 32) (p : MPort) (s : State) :
    ((forceSem n p s).counter ⟨0x11, 0, 5⟩).count = min (2 ^ 48 - 1) ((s.counter ⟨0x11, 0, 5⟩).count + 1) ∧
      (forceSem n p s).latched 16 = true ∧
      (s.latched 16 = false → (forceSem n p s).Shows 16
        (padTo 40 [BitVec.ofNat 8 n.val, BitVec.ofNat 8 (s.sem n).owner, BitVec.ofNat 8 (portCode p)])) := by
  refine ⟨?_, State.effects_raises _ _ 16 _ (by simp; rfl), fun h => ?_⟩
  · exact (congrArg Counter.count (State.effects_count _ [.notice 16 _] _ 1 (by decide) rfl)).trans (Counter.add_count ..)
  · have hbytes : leBytes 1 n.val ++ leBytes 1 (s.sem n).owner ++ leBytes 1 (portCode p) =
        [BitVec.ofNat 8 n.val, BitVec.ofNat 8 (s.sem n).owner, BitVec.ofNat 8 (portCode p)] := by
      simp [leBytes]
    rw [← hbytes]
    exact State.count_notice_shows (s := s.setSem n { s.sem n with owner := 0 }) (by decide) h _ _

/-- Settles O8: a request, a release and a force write the one semaphore; the force's count and notice are effects that leave
the semaphores. -/
theorem semaphoreRules : Obligations.SemaphoreRules := by
  unfold Obligations.SemaphoreRules
  intro s n
  refine ⟨fun a b fw h => ⟨_, rfl, ?_⟩, fun a b fw h => ⟨_, rfl, ?_⟩, rfl, fun p => ⟨_, rfl, ?_⟩,
    fun p => ⟨_, rfl, forceSem_sem n p s, forceSem_noticed n p s⟩, fun p h => ?_, fun c t hc ht => ?_⟩
  · rw [State.sem_setSem, Semaphore.request_held h]
  · rw [State.sem_setSem]
    exact Semaphore.request_free h a b fw
  · rw [State.sem_setSem]
    rfl
  · rw [State.directRead_sem, Semaphore.word_owner h]
  · obtain ⟨v, rfl⟩ := exec_requestRelease t n hc ht
    exact ⟨fun m hm => State.sem_setSem_ne s hm v, State.setSem_rest s n v⟩

/-! ### Handing slots over (R422, R423) -/

/-- A slot as MBOX_SUBMIT hands it over, with its acceptance stamp (R422). -/
def State.handedOver (s : State) (m : MSlot) : MSlot :=
  if m.owned then m else { m with owned := true, started := false, long := false, accept := s.now, owner0 := s.semOwner 0 }

theorem State.handedOver_owned (s : State) (m : MSlot) : (s.handedOver m).owned = true := by
  unfold State.handedOver
  by_cases h : m.owned = true
  · rw [if_pos h, h]
  · rw [if_neg h]

theorem State.handedOver_mem (s : State) (m : MSlot) : (s.handedOver m).mem = m.mem := by
  unfold State.handedOver; split <;> rfl

theorem submitSlot_slot (p : MPort) (s : State) (n : Fin 32) : (submitSlot p s n).slot p n = s.handedOver (s.slot p n) := by
  unfold submitSlot State.handedOver
  dsimp only
  by_cases h : (s.slot p n).owned = true
  · rw [if_pos h, if_pos h]
    exact State.effects_slot ..
  · rw [if_neg h, if_neg h]
    exact (State.effects_slot ..).trans (State.slot_setSlot ..)

theorem submitSlot_slot_ne (p : MPort) (s : State) (n : Fin 32) {q : MPort} {m : Fin 32} (h : (q, m) ≠ (p, n)) :
    (submitSlot p s n).slot q m = s.slot q m := by
  unfold submitSlot
  dsimp only
  split
  · exact State.effects_slot ..
  · exact (State.effects_slot ..).trans (State.slot_setSlot_ne _ _ _ _ _ _ h)

theorem submitSlot_apart (p : MPort) (s : State) (n : Fin 32) : (submitSlot p s n).apart = s.apart := by
  unfold submitSlot
  dsimp only
  split
  · exact State.effects_apart ..
  · exact State.effects_apart ..

/-- Handing over reads the plumb and the semaphores alone, which a frame apart from the slots keeps. -/
theorem State.handedOver_of_apart {t : State} (h : t.apart = s.apart) (m : MSlot) : t.handedOver m = s.handedOver m := by
  have ha : t.aon = s.aon := State.of_apart State.aon (fun _ => rfl) h
  have hs : t.ctl.sems = s.ctl.sems := State.of_apart (fun u => u.ctl.sems) (fun _ => rfl) h
  simp only [State.handedOver, State.now, State.semOwner, State.sem, ha, hs]

/-- The slots after handing a list of them over: each listed slot once, with the stamp of the write. -/
theorem submitSlots_spec (p : MPort) (l : List (Fin 32)) (s : State) :
    (l.foldl (submitSlot p) s).apart = s.apart ∧
      (∀ n, (l.foldl (submitSlot p) s).slot p n = if n ∈ l then s.handedOver (s.slot p n) else s.slot p n) ∧
      (∀ q n, q ≠ p → (l.foldl (submitSlot p) s).slot q n = s.slot q n) := by
  induction l generalizing s with
  | nil => exact ⟨rfl, fun n => by simp, fun _ _ _ => rfl⟩
  | cons a l ih =>
    obtain ⟨hap, hport, hother⟩ := ih (submitSlot p s a)
    have happ := submitSlot_apart p s a
    refine ⟨hap.trans happ, fun n => ?_, fun q n hq => (hother q n hq).trans (submitSlot_slot_ne _ _ _ (by simp [hq]))⟩
    rw [List.foldl_cons, hport, State.handedOver_of_apart happ]
    by_cases hn : n = a
    · subst hn
      rw [submitSlot_slot, if_pos List.mem_cons_self]
      have hidem : s.handedOver (s.handedOver (s.slot p n)) = s.handedOver (s.slot p n) := by
        rw [State.handedOver, if_pos (State.handedOver_owned ..)]
      rw [hidem, ite_self]
    · rw [submitSlot_slot_ne _ _ _ (by simp [hn])]
      simp [hn]

/-! ### Codes outside the table (R516) -/

/-- Every mailbox slot, port A's first. -/
def allSlots : List (MPort × Fin 32) := [.a, .b].flatMap (fun (p : MPort) => (List.finRange 32).map (fun n => (p, n)))

theorem mem_allSlots (e : MPort × Fin 32) : e ∈ allSlots := by
  obtain ⟨p, n⟩ := e
  cases p <;> simp [allSlots]

theorem allSlots_nodup : allSlots.Nodup := by decide

/-- An owned slot whose code is not in the table. -/
def State.unknownCode (s : State) (e : MPort × Fin 32) : Bool :=
  (s.slot e.1 e.2).owned && !commandCodes.contains (s.slot e.1 e.2).code

/-- Answering CROSSREF in the slots of a list that meet a condition. -/
def answerEach (f : MPort × Fin 32 → Bool) (l : List (MPort × Fin 32)) (t : State) : State :=
  l.foldl (fun t e => if f e then t.respond e.1 e.2 Status.crossref [] else t) t

theorem answerUnknown_served (h : s.served = true) : answerUnknown s = answerEach s.unknownCode allSlots s := if_pos h

theorem answerUnknown_notServed (h : s.served = false) : answerUnknown s = s := if_neg (by simp [h])

theorem State.respond_slot_ne (s : State) {p q : MPort} {n m : Fin 32} (h : (q, m) ≠ (p, n)) (st : Nat) (b : List Byte) :
    (s.respond p n st b).slot q m = s.slot q m := by
  obtain ⟨-, -, -, -, hne⟩ := State.respond_answered (s := s) (u := s) (p := p) (n := n) st b rfl rfl (fun _ _ _ => rfl)
  exact hne q m h

/-- Slots that are not listed, or do not meet the condition, stay as they are. -/
theorem answerEach_slot_ne {f : MPort × Fin 32 → Bool} {l : List (MPort × Fin 32)} {q : MPort} {n : Fin 32} (t : State)
    (h : (q, n) ∉ l ∨ f (q, n) = false) : (answerEach f l t).slot q n = t.slot q n := by
  induction l generalizing t with
  | nil => rfl
  | cons e l ih =>
    have hl : (q, n) ∉ l ∨ f (q, n) = false := h.imp_left (fun h hm => h (List.mem_cons_of_mem _ hm))
    refine (ih _ hl).trans ?_
    dsimp only
    by_cases he : f e = true
    · rw [if_pos he]
      refine State.respond_slot_ne t (fun heq => ?_) _ _
      have : (q, n) = e := heq
      subst this
      rcases h with h | h
      · exact h List.mem_cons_self
      · rw [he] at h; cases h
    · rw [if_neg he]

/-- A listed slot that meets the condition is answered once. -/
theorem answerEach_answered {f : MPort × Fin 32 → Bool} {l : List (MPort × Fin 32)} (hl : l.Nodup) {q : MPort} {n : Fin 32}
    (hm : (q, n) ∈ l) (hf : f (q, n) = true) (t : State) : t.Answers (answerEach f l t) q n Status.crossref [] := by
  induction l generalizing t with
  | nil => simp at hm
  | cons e l ih =>
    obtain ⟨hnot, hl'⟩ := List.nodup_cons.1 hl
    by_cases he : (q, n) = e
    · subst he
      obtain ⟨howned, -, hmem, -, -⟩ :=
        State.respond_answered (s := t) (u := t) (p := q) (n := n) Status.crossref [] rfl rfl (fun _ _ _ => rfl)
      have hslot : (answerEach f ((q, n) :: l) t).slot q n = (t.respond q n Status.crossref []).slot q n := by
        show (answerEach f l (if f (q, n) then _ else _)).slot q n = _
        rw [if_pos hf, answerEach_slot_ne _ (.inl hnot)]
      unfold State.Answers
      rw [hslot]
      exact ⟨howned, hmem⟩
    · have hin : (q, n) ∈ l := (List.mem_cons.1 hm).resolve_left he
      have hslot : (if f e then t.respond e.1 e.2 Status.crossref [] else t).slot q n = t.slot q n := by
        split
        · exact State.respond_slot_ne t he _ _
        · rfl
      have hrest := ih hl' hin (if f e then t.respond e.1 e.2 Status.crossref [] else t)
      unfold State.Answers at hrest ⊢
      rw [hslot] at hrest
      exact hrest

/-- Only an owned slot of a code outside the table is answered, and only while the mailboxes are served. -/
theorem answerUnknown_slot {q : MPort} {n : Fin 32} (h : s.served = false ∨ s.unknownCode (q, n) = false) :
    (answerUnknown s).slot q n = s.slot q n := by
  rcases Bool.eq_false_or_eq_true s.served with hs | hs
  · rw [answerUnknown_served hs]
    exact answerEach_slot_ne s (.inr (h.resolve_left (by simp [hs])))
  · rw [answerUnknown_notServed hs]

theorem answerUnknown_answered (hs : s.served = true) {q : MPort} {n : Fin 32} (h : s.unknownCode (q, n) = true) :
    s.Answers (answerUnknown s) q n Status.crossref [] := by
  rw [answerUnknown_served hs]
  exact answerEach_answered allSlots_nodup (mem_allSlots _) h s

theorem leBytes_length (n v : Nat) : (leBytes n v).length = n := by simp only [leBytes, List.length_map, List.length_range]

theorem padTo_length (n : Nat) (bs : List Byte) : (padTo n bs).length = n := by
  simp only [padTo, List.length_take, List.length_append, List.length_replicate]; omega

theorem MSlot.seqBytes_length (m : MSlot) : m.seqBytes.length = 4 := by
  simp only [MSlot.seqBytes, Memory.bytes, List.length_map, List.length_range]

/-- A response area has 256 bytes, its status at offset 2 (R421). -/
theorem responseArea_length (m : MSlot) (st : Nat) (b : List Byte) : (responseArea m st b).length = 256 := by
  simp only [responseArea, List.length_append, leBytes_length, padTo_length, MSlot.seqBytes_length, List.length_replicate]

theorem responseArea_status (m : MSlot) (st : Nat) (b : List Byte) : (responseArea m st b).getD 2 0#8 = BitVec.ofNat 8 st := by
  have hcode : (leBytes 2 m.code).length = 2 := leBytes_length ..
  simp only [responseArea, List.append_assoc, List.getD_eq_getElem?_getD]
  rw [List.getElem?_append_right (by omega), hcode]
  rfl

end Sys2Proof.Machine
end

section
namespace Sys2Proof.Machine

variable {s : State}

/-- The slots that MBOX_SUBMIT names. -/
def submitted (bits : Word) : List (Fin 32) := (List.finRange 32).filter (fun n => bits.getLsbD n.val)

theorem mem_submitted {bits : Word} {n : Fin 32} : n ∈ submitted bits ↔ bits.getLsbD n.val = true := by simp [submitted]

/-- A handed-over slot's code is its own: handing over writes no byte. -/
theorem State.unknownCode_of_mem {t : State} {q : MPort} {n : Fin 32} (h : (t.slot q n).mem = (s.slot q n).mem)
    (hc : commandCodes.contains (s.slot q n).code = true) : t.unknownCode (q, n) = false := by
  have : (t.slot q n).code = (s.slot q n).code := by simp only [MSlot.code, h]
  simp only [State.unknownCode, this, hc, Bool.not_true, Bool.and_false]

/-- Settles O12: the listed slots are handed over one by one, and the owned slots of codes outside the table are then answered,
each once. -/
theorem mailboxSubmit : Obligations.MailboxSubmit := by
  unfold Obligations.MailboxSubmit
  intro s p bits
  obtain ⟨hap, hport, hother⟩ := submitSlots_spec p (submitted bits) s
  set u := (submitted bits).foldl (submitSlot p) s with hu
  have hserved : u.served = s.served := by
    have hb : u.boot = s.boot := State.of_apart State.boot (fun _ => rfl) hap
    simp only [State.served, hb]
  have hmem : ∀ n, (u.slot p n).mem = (s.slot p n).mem := fun n => by
    rw [hport]; split
    · exact State.handedOver_mem ..
    · rfl
  refine ⟨_, rfl, fun n h => ?_, fun n hs hc hb => ?_, fun q n hq h => ?_, ?_⟩
  · have hkeep : (answerUnknown u).slot p n = u.slot p n :=
      answerUnknown_slot (h.imp (hserved.trans ·) (State.unknownCode_of_mem (hmem n)))
    refine hkeep.trans ?_
    rw [hport]
    cases hb : bits.getLsbD n.val with
    | true =>
      rw [if_pos (mem_submitted.2 hb)]
      cases ho : (s.slot p n).owned <;> simp [State.handedOver, ho]
    | false =>
      have hnot : n ∉ submitted bits := fun hm => Bool.false_ne_true (hb.symm.trans (mem_submitted.1 hm))
      rw [if_neg hnot, Bool.false_and, if_neg Bool.false_ne_true]
  · have hslot : u.slot p n = s.handedOver (s.slot p n) := by rw [hport, if_pos (mem_submitted.2 hb)]
    have hcode : (u.slot p n).code = (s.slot p n).code := by simp only [MSlot.code, hmem n]
    have howned : (u.slot p n).owned = true := by rw [hslot, State.handedOver_owned]
    have hunknown : u.unknownCode (p, n) = true := by
      simp only [State.unknownCode, howned, hcode, hc, Bool.not_false, Bool.and_true]
    obtain ⟨howned, hm⟩ := answerUnknown_answered (hserved.trans hs) hunknown
    exact ⟨howned, _, responseArea_length .., responseArea_status .., hm.trans (by rw [hmem n])⟩
  · have hkeep : (answerUnknown u).slot q n = u.slot q n :=
      answerUnknown_slot (h.imp (hserved.trans ·) (State.unknownCode_of_mem (by rw [hother q n hq])))
    exact hkeep.trans (hother q n hq)
  · have hend : (answerUnknown u).apart = s.apart := (answerUnknown_apart u).trans hap
    exact congrArg (fun v : State => { v with ctl := { v.ctl with rsp := s.ctl.rsp } }) hend

end Sys2Proof.Machine
end

section
/-! SUPPORT. Loading, checking and starting the firmware, and the operator keys (R429 to R434, R439, R441). -/

namespace Sys2Proof.Machine

variable {s : State} {p : MPort} {n : Fin 32}

/-! ### The firmware (R430 to R433, R517) -/

/-- A chunk that lies in the image buffer is kept (R430). -/
theorem fwWrite_keeps (h : s.Ready p n 0x0002 8) (hrun : s.boot.fwRunning = false) (hlo : 1 ≤ s.arg p n 4 2)
    (hhi : s.arg p n 4 2 ≤ 224) (hlen : 8 + s.arg p n 4 2 ≤ (s.slot p n).bodyLen)
    (hend : s.arg p n 0 4 + s.arg p n 4 2 ≤ 256 + 3145728) :
    s.AnswersWith (exec (.fwWrite p n) s) p n Status.ok []
      { s with boot := { s.boot with
          fwLoading := true
          image := s.boot.image ++ [(s.arg p n 0 4, (((s.slot p n).body.drop 8).take (s.arg p n 4 2)))] } } := by
  refine State.answersWith h rfl ?_
  have hfits : ¬ (s.arg p n 4 2 = 0 ∨ 224 < s.arg p n 4 2 ∨ (s.slot p n).bodyLen < 8 + s.arg p n 4 2 ∨
      imageBytes < s.arg p n 0 4 + s.arg p n 4 2) := by
    unfold imageBytes; omega
  simp only [runFwWrite, State.startedAt_boot, hrun, Bool.false_eq_true, if_false, State.cmdOf_body, State.cmdOf_len, if_neg hfits]
  rfl

/-- What FW_START does once it is admitted: the first failing check erases the image and answers, and else the firmware starts
(R432). -/
def startChecked (p : MPort) (n : Fin 32) (u : State) : State :=
  match fwCheck u.boot u.aon.keyHash u.aon.minSecurity with
  | some st =>
    ({ u with boot := { u.boot with image := [], fwLoading := false, fwFailed := true, lastError := BitVec.ofNat 8 st } }).respond p n st []
  | none => { u with boot := { u.boot with starting := some (p, n) } }

theorem fwStart_checks (h : s.Ready p n 0x0003 0) (hrun : s.boot.fwRunning = false) (hlong : s.longWaits < 48) :
    exec (.fwStart p n) s = .next (startChecked p n (s.setSlot p n { s.slot p n with started := true, long := true })) := by
  have hstopped : ¬ (s.startedAt p n).boot.fwRunning = true := by rw [State.startedAt_boot, hrun]; exact Bool.false_ne_true
  have hadmit := State.admitLong_ready h hlong (startChecked p n)
  exact congrArg Host.Outcome.next ((State.startCmd_ready h _).trans ((if_neg hstopped).trans hadmit))

/-- An image that passes every check starts, and the command waits for it. -/
theorem fwStart_starts (h : s.Ready p n 0x0003 0) (hrun : s.boot.fwRunning = false) (hlong : s.longWaits < 48)
    (hcheck : fwCheck s.boot s.aon.keyHash s.aon.minSecurity = none) :
    ∃ t, exec (.fwStart p n) s = .next t ∧ t.boot = { s.boot with starting := some (p, n) } ∧
      (t.slot p n).owned = true ∧ (t.slot p n).started = true ∧ (t.slot p n).mem = (s.slot p n).mem ∧
      (∀ q m, (q, m) ≠ (p, n) → t.slot q m = s.slot q m) ∧
      { t with boot := s.boot, ctl := { t.ctl with mbox := s.ctl.mbox } } = s := by
  let u := s.setSlot p n { s.slot p n with started := true, long := true }
  have hstart : startChecked p n u = { u with boot := { s.boot with starting := some (p, n) } } := by
    unfold startChecked
    rw [show fwCheck u.boot u.aon.keyHash u.aon.minSecurity = none from hcheck]
    rfl
  have hslot : u.slot p n = { s.slot p n with started := true, long := true } := State.slot_setSlot ..
  have howned : (u.slot p n).owned = true := by rw [hslot]; exact h.2.1
  have hmem : (u.slot p n).mem = (s.slot p n).mem := by rw [hslot]
  have hstarted : (u.slot p n).started = true := by rw [hslot]
  exact ⟨_, (fwStart_checks h hrun hlong).trans (congrArg Host.Outcome.next hstart), rfl, howned, hstarted, hmem,
    fun q m hq => State.slot_setSlot_ne _ _ _ _ _ _ hq, rfl⟩

/-- The first failing check erases the image and answers its status (R432). -/
theorem fwStart_rejects {st : Nat} (h : s.Ready p n 0x0003 0) (hrun : s.boot.fwRunning = false) (hlong : s.longWaits < 48)
    (hcheck : fwCheck s.boot s.aon.keyHash s.aon.minSecurity = some st) :
    s.AnswersWith (exec (.fwStart p n) s) p n st []
      { s with boot := { s.boot with image := [], fwLoading := false, fwFailed := true, lastError := BitVec.ofNat 8 st } } := by
  let u := s.setSlot p n { s.slot p n with started := true, long := true }
  let e : State := { u with boot := { s.boot with image := [], fwLoading := false, fwFailed := true, lastError := BitVec.ofNat 8 st } }
  have hstart : startChecked p n u = e.respond p n st [] := by
    unfold startChecked
    rw [show fwCheck u.boot u.aon.keyHash u.aon.minSecurity = some st from hcheck]
    rfl
  have hslot : e.slot p n = { s.slot p n with started := true, long := true } := State.slot_setSlot ..
  rw [fwStart_checks h hrun hlong, hstart]
  exact State.answersAt st [] (by rw [hslot]) (by rw [hslot]) (fun q m hq => State.slot_setSlot_ne _ _ _ _ _ _ hq) rfl rfl

/-- The started firmware answers with its line (R432). -/
theorem fwStartComplete_answers (h : s.boot.starting = some (p, n)) :
    let line := BitVec.ofNat 32 (field ((writtenBytes s.boot.image 256).getD []) 8 4)
    s.AnswersWith (exec .fwStartComplete s) p n Status.ok (leBytes 4 line.toNat)
      { s with boot := { s.boot with starting := none, fwRunning := true, fwLoading := false, line := line, image := [] } } := by
  intro line
  let e : State := { s with boot := { s.boot with starting := none, fwRunning := true, fwLoading := false, line := line, image := [] } }
  have hrun : fwStartComplete s = e.respond p n Status.ok (leBytes 4 line.toNat) := by
    unfold fwStartComplete
    rw [h]
  rw [show exec .fwStartComplete s = .next (e.respond p n Status.ok (leBytes 4 line.toNat)) from congrArg Host.Outcome.next hrun]
  exact State.answersAt _ _ rfl rfl (fun _ _ _ => rfl) rfl rfl

/-- Settles O15, command by command. -/
theorem firmware : Obligations.Firmware :=
  fun _ _ _ => ⟨fwWrite_keeps, fwStart_starts, fun _ => fwStart_rejects, fwStartComplete_answers⟩

/-! ### The operator keys (R434) -/

theorem keyLoad_loads (h : s.Ready p n 0x0101 112) (hk : s.boot.keysLocked = false) (hpos : s.arg p n 0 1 ≤ 7) :
    s.AnswersWith (exec (.keyLoad p n) s) p n Status.ok []
      { s with boot := { s.boot with keys := aset (s.arg p n 0 1) (((s.slot p n).body.drop 16).take 96) s.boot.keys } } := by
  refine State.answersWith h rfl ?_
  simp only [runKeyLoad, State.startedAt_boot, hk, Bool.false_eq_true, if_false, State.cmdOf_body, if_neg (Nat.not_lt.2 hpos)]
  rfl

theorem keyLoad_locked (h : s.Ready p n 0x0101 112) (hk : s.boot.keysLocked = true) :
    s.AnswersWith (exec (.keyLoad p n) s) p n Status.notOwner [] s :=
  State.answers_atOnce h (if_pos hk)

theorem keyLock_locks (h : s.Ready p n 0x0102 0) (hk : s.boot.keysLocked = false) :
    s.AnswersWith (exec (.keyLock p n) s) p n Status.ok [] { s with boot := { s.boot with keysLocked := true } } := by
  refine State.answersWith h rfl ?_
  simp only [runKeyLock, State.startedAt_boot, hk, Bool.false_eq_true, if_false]
  rfl

/-- A command that is none of the resets keeps locked keys. -/
theorem exec_keepsLock {c : Instr} {t : State} (hk : s.boot.keysLocked = true) (hc : c.resets = false) (h : exec c s = .next t) :
    t.boot.keysLocked = true ∧ t.boot.keys = s.boot.keys := by
  obtain ⟨u, hu, hcases⟩ := exec_cases c s
  obtain rfl := Host.Outcome.next.inj (h.symm.trans hu)
  rcases hcases with ⟨-, -, hkeys⟩ | ⟨-, hboot, -⟩ | ⟨hreset, -⟩
  · exact hkeys hk
  · rw [hboot]
    exact ⟨hk, rfl⟩
  · rw [hc] at hreset
    nomatch hreset

theorem Instr.resets_eq_false {c : Instr} (hassert : c ≠ .coldResetAssert) (hstart : c ≠ .resetColdStart)
    (hloss : ∀ r, c ≠ .powerGoodLoss r) : c.resets = false := by
  cases c with
  | coldResetAssert => exact absurd rfl hassert
  | resetColdStart => exact absurd rfl hstart
  | powerGoodLoss r => exact absurd rfl (hloss r)
  | _ => rfl

/-- With the keys unlocked, check 1 fails (R434, R439). -/
theorem State.checkSignature_unlocked (hk : s.boot.keysLocked = false) (b : List Byte) (total : Nat) :
    s.checkSignature b total = some (1, 0xFFFF) := by
  unfold State.checkSignature
  dsimp only
  split
  · rfl
  · exact if_pos (by rw [hk]; rfl)

theorem State.checkBundle_unlocked (hk : s.boot.keysLocked = false) (w : Writing) (b : List Byte) (all : Bool) (m : SectionMap)
    (t : PolicyTables) : s.checkBundle w b all m t = some (1, 0xFFFF) := by
  unfold State.checkBundle
  rw [State.checkSignature_unlocked hk]

end Sys2Proof.Machine
end

section
/-! SUPPORT. How a staging ends (R439 to R441): with a failing check the maquette is rejected whole, and with none it is staged with
its tables. -/

namespace Sys2Proof.Machine

variable {s : State} {p : MPort} {n : Fin 32} {w : Writing} {m : SectionMap}

/-! ### The end of a staging (R439, R441) -/

/-- The gate as the checks of a staging find it: the bytes that nothing wrote are drawn (log 47). -/
def State.stagingStart (s : State) (w : Writing) : State :=
  if (s.bundleBytes w).2 then s else { s with freeUse := s.freeUse + w.totalBytes }

theorem State.stagingStart_cast (s : State) (w : Writing) : (s.stagingStart w).cast = s.cast := by
  unfold State.stagingStart; split <;> rfl

theorem State.stagingStart_mbox (s : State) (w : Writing) : (s.stagingStart w).ctl.mbox = s.ctl.mbox := by
  unfold State.stagingStart; split <;> rfl

theorem State.stagingStart_boot (s : State) (w : Writing) : (s.stagingStart w).boot = s.boot := by
  unfold State.stagingStart; split <;> rfl

/-- Drawing free values leaves what a staging writes. -/
theorem State.stagingStart_framed (s : State) (w : Writing) (x : Casting) (g : Grid) (e : Engines) (r : Reliability) :
    { ({ s.stagingStart w with cast := x, grid := g, eng := e, rel := r } : State).apart with
      cast := s.cast, grid := s.grid, eng := s.eng, rel := s.rel } = (s.stagingStart w).apart := by
  unfold State.stagingStart; split <;> rfl

/-- What a rejection of a staging leaves: the slot answered with the check's status, and nothing staged or being written. -/
theorem State.rejectStage_spec {e : State} (he : e.ctl.mbox = s.ctl.mbox) (hc : e.cast = s.cast) (f : Failing) (window : Bool)
    (fit : Fit) (needed : Nat) :
    ∃ body, s.Answered (e.rejectStage (some (p, n)) f window fit needed) p n (checkStatus f.1) body ∧
      (e.rejectStage (some (p, n)) f window fit needed).cast = { s.cast with writing := none, staging := none } ∧
      { (e.rejectStage (some (p, n)) f window fit needed).apart with cast := s.cast } = e.apart := by
  let v : State := { e with cast := { e.cast with writing := none, staging := none } }
  have happart : (e.rejectStage (some (p, n)) f window fit needed).apart = v.apart :=
    (State.answerFrom_apart ..).trans (State.effects_apart ..)
  have hmbox : (v.count1 0x11 0 (5 + f.1)).ctl.mbox = s.ctl.mbox := (State.effects_mbox ..).trans he
  refine ⟨_, State.respond_answered_of_mbox hmbox _ _, ?_, ?_⟩
  · rw [State.of_apart State.cast (fun _ => rfl) happart, ← hc]
  · rw [happart, ← hc]
    rfl

/-- Loading the stores writes them, and what was poisoned in them is written anew. -/
theorem State.loadStores_only (s : State) (one : Bool) (t : PolicyTables) :
    ∃ e r, s.loadStores one t = { s with eng := e, rel := r } := ⟨_, _, rfl⟩

theorem State.placeSections_only (s : State) (t : PolicyTables) :
    ∃ k g, s.placeSections t = { s with cast := { s.cast with placements := k }, grid := g } := ⟨_, _, rfl⟩

/-! ### The checks of a staging, in their order (R439) -/

/-- The tables that the bundle being written holds. -/
def State.stagedTables (s : State) (w : Writing) (m : SectionMap) : PolicyTables := assemble s.cast.active (s.bundleBytes w).1 m

/-- Its sections' records. -/
def State.stagedRecords (s : State) (w : Writing) (m : SectionMap) : List SectionRecord :=
  sectionRecords s.cast.active (s.bundleBytes w).1 m (s.stagedTables w m)

/-- The first failure of checks 1 to 3. -/
def State.bundleFailing (s : State) (w : Writing) (m : SectionMap) : Option Failing :=
  (s.stagingStart w).checkBundle w (s.bundleBytes w).1 (s.bundleBytes w).2 m (s.stagedTables w m)

/-- What check 4 measures. -/
def State.stagedFit (s : State) (w : Writing) (m : SectionMap) : Fit :=
  (s.stagingStart w).checkFit (directory (s.bundleBytes w).1) (s.stagedTables w m) (sharedBytes s.cast.active (s.bundleBytes w).1)

/-- Check 5. -/
def State.stagedProven (s : State) (w : Writing) (m : SectionMap) : Bool :=
  (s.stagingStart w).latencyProven (s.stagedTables w m) (s.stagedRecords w m)

/-- The maquette that a staging without a failing check stages. -/
def State.stagedPolicy (s : State) (w : Writing) (m : SectionMap) : Policy :=
  { tables := s.stagedTables w m, epoch := 0, instant := 0, effective := 0, sections := s.stagedRecords w m,
    placed := (s.stagedTables w m).resources.placedBytes,
    windowed := needsWindow s.cast.active (s.stagedTables w m) (s.stagedRecords w m),
    cellSlot := !((s.cast.active.map (fun q => q.cellSlot)).getD true) }

/-- The response body of a staging, by the check that failed and its section, or 0 for none (R441). -/
def State.stagedBody (s : State) (w : Writing) (m : SectionMap) (f : Failing) : List Byte :=
  (s.stagingStart w).stageBody f.1 f.2 (s.stagedPolicy w m).windowed (s.stagedFit w m)
    (windowNeeded s.cast.active (s.stagedTables w m) (s.stagedRecords w m))

/-- A staging whose check 4 or 5 fails. -/
def State.rejectStaged (s : State) (p : MPort) (n : Fin 32) (w : Writing) (m : SectionMap) (f : Failing) : State :=
  (s.stagingStart w).rejectStage (some (p, n)) f (s.stagedPolicy w m).windowed (s.stagedFit w m)
    (windowNeeded s.cast.active (s.stagedTables w m) (s.stagedRecords w m))

/-- The maquette in its place, not yet loaded. -/
def State.placeStaged (s : State) (w : Writing) (m : SectionMap) : State :=
  { s.stagingStart w with cast := { s.cast with
      staged := some (s.stagedPolicy w m), stagedBody := s.stagedBody w m (0, 0xFFFF),
      stagedShared := sharedBytes s.cast.active (s.bundleBytes w).1, writing := none, staging := none } }

/-- The maquette loaded beside the active policy's images and stores, unless it needs a window (R259, R448). -/
def State.loadStaged (s : State) (window one : Bool) (t : PolicyTables) : State :=
  if window then s.loadStores one t else ((s.loadImages one t).placeSections t).loadStores one t

/-- Checks 4 and 5, and the staging when they do not fail. -/
def State.stageChecked (s : State) (p : MPort) (n : Fin 32) (w : Writing) (m : SectionMap) : State :=
  match (s.stagedFit w m).failing with
  | some f => s.rejectStaged p n w m f
  | none =>
    if !s.stagedProven w m then s.rejectStaged p n w m (5, 0xFFFF)
    else ((s.placeStaged w m).loadStaged (s.stagedPolicy w m).windowed (s.stagedPolicy w m).cellSlot (s.stagedTables w m)).respond
      p n Status.ok (s.stagedBody w m (0, 0xFFFF))

/-- Loading a staged maquette writes the cells, the stores, and how often sections were placed. -/
theorem State.loadStaged_only (s : State) (window one : Bool) (t : PolicyTables) :
    ∃ k g e r, s.loadStaged window one t =
      { s with cast := { s.cast with placements := k }, grid := g, eng := e, rel := r } := by
  unfold State.loadStaged
  split
  · exact ⟨_, _, _, _, rfl⟩
  · obtain ⟨g, hg⟩ := s.loadImages_only one t
    rw [hg]
    exact ⟨_, _, _, _, rfl⟩

section
variable (hw : s.cast.writing = some w) (hsrc : s.cast.staging = some (p, n)) (hwin : s.cast.windowEnd = none)
include hw hsrc hwin

/-- The end of a staging, by what checks 1 to 3 find. -/
theorem stageComplete_eq :
    (∀ f, s.bundleFailing w m = some f → stageComplete m s = (s.stagingStart w).rejectStage (some (p, n)) f false {} 0) ∧
      (s.bundleFailing w m = none → stageComplete m s = s.stageChecked p n w m) := by
  have hstart : (if (s.bundleBytes w).2 = true then s else { s with freeUse := s.freeUse + w.totalBytes }) = s.stagingStart w := rfl
  unfold State.bundleFailing State.stagedTables stageComplete
  rw [hw, hsrc, hwin]
  dsimp only
  rw [hstart, s.stagingStart_cast w]
  refine ⟨fun f hf => ?_, fun hb => ?_⟩
  · rw [hf]
  · rw [hb]
    rfl

/-- A failing check rejects the maquette whole, with its status (R439, R441). -/
theorem stageComplete_rejects {f : Failing}
    (hf : s.bundleFailing w m = some f ∨ (s.bundleFailing w m = none ∧ (s.stagedFit w m).failing = some f) ∨
      (s.bundleFailing w m = none ∧ (s.stagedFit w m).failing = none ∧ s.stagedProven w m = false ∧ f = (5, 0xFFFF))) :
    ∃ u body, exec (.bundleStageComplete m) s = .next u ∧ s.Answered u p n (checkStatus f.1) body ∧
      u.cast = { s.cast with writing := none, staging := none } ∧ { u.apart with cast := s.cast } = (s.stagingStart w).apart := by
  obtain ⟨hfails, hchecked⟩ := stageComplete_eq (m := m) hw hsrc hwin
  have hrun : ∃ window fit needed, stageComplete m s = (s.stagingStart w).rejectStage (some (p, n)) f window fit needed := by
    rcases hf with hf | ⟨hb, hf⟩ | ⟨hb, hfit, hl, rfl⟩
    · exact ⟨_, _, _, hfails f hf⟩
    · rw [hchecked hb, State.stageChecked, hf]
      exact ⟨_, _, _, rfl⟩
    · rw [hchecked hb, State.stageChecked, hfit]
      dsimp only
      rw [hl]
      exact ⟨_, _, _, rfl⟩
  obtain ⟨window, fit, needed, hrun⟩ := hrun
  obtain ⟨body, hspec⟩ := State.rejectStage_spec (p := p) (n := n) (s.stagingStart_mbox w) (s.stagingStart_cast w) f window fit needed
  exact ⟨_, body, congrArg Host.Outcome.next hrun, hspec⟩

/-- With no check failing the maquette is staged with its tables (R439, R440). -/
theorem stageComplete_stages (hb : s.bundleFailing w m = none) (hf : (s.stagedFit w m).failing = none) (hl : s.stagedProven w m = true) :
    ∃ u body, exec (.bundleStageComplete m) s = .next u ∧ s.Answered u p n Status.ok body ∧ u.cast.staged = some (s.stagedPolicy w m) ∧
      u.cast.writing = none ∧ u.cast.staging = none ∧ u.cast.active = s.cast.active ∧
      { u.apart with cast := s.cast, grid := s.grid, eng := s.eng, rel := s.rel } = (s.stagingStart w).apart := by
  obtain ⟨k, g, e, r, hload⟩ := (s.placeStaged w m).loadStaged_only (s.stagedPolicy w m).windowed (s.stagedPolicy w m).cellSlot
    (s.stagedTables w m)
  let v : State := { s.placeStaged w m with
    cast := { (s.placeStaged w m).cast with placements := k }, grid := g, eng := e, rel := r }
  have hrun : stageComplete m s = v.respond p n Status.ok (s.stagedBody w m (0, 0xFFFF)) := by
    rw [(stageComplete_eq (m := m) hw hsrc hwin).2 hb, State.stageChecked, hf]
    dsimp only
    rw [hl, hload]
    rfl
  have hmbox : v.ctl.mbox = s.ctl.mbox := s.stagingStart_mbox w
  have happart : (v.respond p n Status.ok (s.stagedBody w m (0, 0xFFFF))).apart = v.apart := State.respond_apart ..
  have hcast := State.of_apart State.cast (fun _ => rfl) happart
  refine ⟨_, _, congrArg Host.Outcome.next hrun, State.respond_answered_of_mbox hmbox _ _, ?_, ?_, ?_, ?_, ?_⟩
  · rw [hcast]; rfl
  · rw [hcast]; rfl
  · rw [hcast]; rfl
  · rw [hcast]; rfl
  · rw [happart]
    exact State.stagingStart_framed ..

end

/-- Settles O16: loads and the lock answer at once; no command but a reset unlocks; unlocked keys fail check 1. -/
theorem operatorKeys : Obligations.OperatorKeys := by
  unfold Obligations.OperatorKeys
  intro s p n
  refine ⟨keyLoad_loads, keyLock_locks, keyLoad_locked, fun c t hk hassert hstart hloss h => ?_, fun m w hk hw hsrc hwin => ?_⟩
  · exact exec_keepsLock hk (Instr.resets_eq_false hassert hstart hloss) h
  · have hfails : s.bundleFailing w m = some (1, 0xFFFF) :=
      State.checkBundle_unlocked ((congrArg Boot.keysLocked (s.stagingStart_boot w)).trans hk) ..
    obtain ⟨u, body, hrun, hanswered, hcast, -⟩ := stageComplete_rejects hw hsrc hwin (.inl hfails)
    exact ⟨u, body, hrun, hanswered, by rw [hcast]⟩

end Sys2Proof.Machine
end

section
/-! SUPPORT. The commands over a bundle being written (R438, R439, R518). -/

namespace Sys2Proof.Machine

variable {s : State} {p : MPort} {n : Fin 32} {w : Writing}

/-! ### BUNDLE_BEGIN (R438) -/

/-- No retained policy, or a window open: nothing holds the region. -/
theorem State.holder_none (hr : s.cast.retained = none ∨ s.cast.windowEnd.isSome = true) :
    (if s.cast.windowEnd.isSome then none else s.cast.retained) = none := by
  rcases hr with hr | hr
  · rw [hr, ite_self]
  · rw [if_pos hr]

theorem bundleBegin_busy (h : s.Ready p n 0x0110 16) (hbusy : s.cast.staged.isSome = true ∨ s.cast.writing.isSome = true) :
    s.AnswersWith (exec (.bundleBegin p n) s) p n Status.busy [] s :=
  State.answers_atOnce h (if_pos (Bool.or_eq_true_iff.2 hbusy))

section
variable (hst : s.cast.staged = none) (hwr : s.cast.writing = none)
include hst hwr

/-- A retained policy with no window open holds its region (R438, R447). -/
theorem bundleBegin_retained (h : s.Ready p n 0x0110 16) {r : Policy} (hr : s.cast.retained = some r) (hwin : s.cast.windowEnd = none) :
    s.AnswersWith (exec (.bundleBegin p n) s) p n Status.busy (leBytes 4 (s.heldStreams r)) s := by
  refine State.answers_atOnce h ?_
  simp only [runBundleBegin, State.startedAt_cast, hst, hwr, hr, hwin, Option.isSome_none, Bool.or_false, Bool.false_eq_true, if_false]
  rfl

section
variable (hr : s.cast.retained = none ∨ s.cast.windowEnd.isSome = true)
include hr

/-- What is left is whether the bundle fits the region (R438). -/
theorem runBundleBegin_free :
    runBundleBegin (s.cmdOf p n 0x0110) (s.startedAt p n) =
      if s.regionFree < s.arg p n 0 8 then
        (s.startedAt p n).respond p n Status.doesNotFit (leBytes 8 s.regionFree ++ leBytes 8 (s.arg p n 0 8 - s.regionFree))
      else ({ s.startedAt p n with cast := { s.cast with
        writing := some { policyId := BitVec.ofNat 64 (s.arg p n 8 8), totalBytes := s.arg p n 0 8, port := p, chunks := [] } } }).respond
          p n Status.ok (leBytes 8 s.regionFree ++ leBytes 8 0) := by
  have hholder := State.holder_none (s := s.startedAt p n) hr
  have hnothing : ¬ ((s.startedAt p n).cast.staged.isSome || (s.startedAt p n).cast.writing.isSome) = true := by
    rw [State.startedAt_cast, hst, hwr]; exact Bool.false_ne_true
  unfold runBundleBegin
  dsimp only
  rw [if_neg hnothing, hholder]
  rfl

theorem bundleBegin_doesNotFit (h : s.Ready p n 0x0110 16) (hfit : s.regionFree < s.arg p n 0 8) :
    s.AnswersWith (exec (.bundleBegin p n) s) p n Status.doesNotFit
      (leBytes 8 s.regionFree ++ leBytes 8 (s.arg p n 0 8 - s.regionFree)) s :=
  State.answers_atOnce h ((runBundleBegin_free hst hwr hr).trans (if_pos hfit))

theorem bundleBegin_reserves (h : s.Ready p n 0x0110 16) (hfit : s.arg p n 0 8 ≤ s.regionFree) :
    s.AnswersWith (exec (.bundleBegin p n) s) p n Status.ok (leBytes 8 s.regionFree ++ leBytes 8 0)
      { s with cast := { s.cast with
          writing := some { policyId := BitVec.ofNat 64 (s.arg p n 8 8), totalBytes := s.arg p n 0 8, port := p,
                            chunks := [] } } } :=
  State.answersWith h rfl ((runBundleBegin_free hst hwr hr).trans (if_neg (Nat.not_lt.2 hfit)))

end
end

/-! ### BUNDLE_WRITE (R438) -/

theorem bundleWrite_nothing (h : s.Ready p n 0x0111 16) (hw : s.cast.writing = none) :
    s.AnswersWith (exec (.bundleWrite p n) s) p n Status.crossref [] s := by
  refine State.answers_atOnce h ?_
  simp only [runBundleWrite, State.startedAt_cast, hw]

theorem bundleWrite_notOwner (h : s.Ready p n 0x0111 16) (hw : s.cast.writing = some w) (hp : w.port ≠ p) :
    s.AnswersWith (exec (.bundleWrite p n) s) p n Status.notOwner [] s := by
  refine State.answers_atOnce h ?_
  simp only [runBundleWrite, State.startedAt_cast, hw]
  exact if_pos hp

/-- A chunk lies in the bundle and in the command's body. -/
abbrev State.chunkFits (s : State) (p : MPort) (n : Fin 32) (w : Writing) : Prop :=
  1 ≤ s.arg p n 8 2 ∧ s.arg p n 8 2 ≤ 224 ∧ 16 + s.arg p n 8 2 ≤ (s.slot p n).bodyLen ∧ s.arg p n 0 8 + s.arg p n 8 2 ≤ w.totalBytes

theorem State.chunkFits_iff : s.chunkFits p n w ↔ ¬ (s.arg p n 8 2 = 0 ∨ 224 < s.arg p n 8 2 ∨
    (s.slot p n).bodyLen < 16 + s.arg p n 8 2 ∨ w.totalBytes < s.arg p n 0 8 + s.arg p n 8 2) := by
  unfold State.chunkFits; omega

theorem bundleWrite_unfit (h : s.Ready p n 0x0111 16) (hw : s.cast.writing = some w) (hp : w.port = p) (hfit : ¬ s.chunkFits p n w) :
    s.AnswersWith (exec (.bundleWrite p n) s) p n Status.crossref [] s := by
  refine State.answers_atOnce h ?_
  rw [State.chunkFits_iff, not_not] at hfit
  simp only [runBundleWrite, State.startedAt_cast, hw]
  exact (if_neg (not_not.2 hp)).trans (if_pos hfit)

theorem bundleWrite_keeps (h : s.Ready p n 0x0111 16) (hw : s.cast.writing = some w) (hp : w.port = p) (hfit : s.chunkFits p n w) :
    s.AnswersWith (exec (.bundleWrite p n) s) p n Status.ok []
      { s with cast := { s.cast with
          writing := some { w with chunks := w.chunks ++ [(s.arg p n 0 8, ((s.slot p n).body.drop 16).take (s.arg p n 8 2))] } } } := by
  refine State.answersWith h rfl ?_
  rw [State.chunkFits_iff] at hfit
  simp only [runBundleWrite, State.startedAt_cast, hw]
  exact (if_neg (not_not.2 hp)).trans (if_neg hfit)

/-! ### BUNDLE_STAGE and BUNDLE_DISCARD (R439, R518) -/

/-- The checks start, and the command waits for them. -/
theorem bundleStage_starts (h : s.Ready p n 0x0112 0) (hw : s.cast.writing = some w) (hlong : s.longWaits < 48) :
    ∃ t, exec (.bundleStage p n) s = .next t ∧ t.cast = { s.cast with staging := some (p, n) } ∧
      (t.slot p n).owned = true ∧ (t.slot p n).started = true ∧ (t.slot p n).mem = (s.slot p n).mem ∧
      (∀ q m, (q, m) ≠ (p, n) → t.slot q m = s.slot q m) ∧
      { t with cast := s.cast, ctl := { t.ctl with mbox := s.ctl.mbox } } = s := by
  let u := s.setSlot p n { s.slot p n with started := true, long := true }
  have hrun : runBundleStage (s.cmdOf p n 0x0112) (s.startedAt p n) = { u with cast := { u.cast with staging := some (p, n) } } := by
    simp only [runBundleStage, State.startedAt_cast, hw]
    exact State.admitLong_ready h hlong _
  have hslot : u.slot p n = { s.slot p n with started := true, long := true } := State.slot_setSlot ..
  have howned : (u.slot p n).owned = true := by rw [hslot]; exact h.2.1
  have hstarted : (u.slot p n).started = true := by rw [hslot]
  have hmem : (u.slot p n).mem = (s.slot p n).mem := by rw [hslot]
  exact ⟨_, congrArg Host.Outcome.next ((State.startCmd_ready h _).trans hrun), rfl, howned, hstarted, hmem,
    fun q m hq => State.slot_setSlot_ne _ _ _ _ _ _ hq, rfl⟩

theorem bundleStage_done (h : s.Ready p n 0x0112 0) (hw : s.cast.writing = none) (hst : s.cast.staged.isSome = true) :
    s.AnswersWith (exec (.bundleStage p n) s) p n Status.alreadyDone s.cast.stagedBody s := by
  refine State.answers_atOnce h ?_
  simp only [runBundleStage, State.startedAt_cast, hw]
  exact if_pos hst

theorem bundleStage_nothing (h : s.Ready p n 0x0112 0) (hw : s.cast.writing = none) (hst : s.cast.staged = none) :
    s.AnswersWith (exec (.bundleStage p n) s) p n Status.crossref (s.stageBody 2 0xFFFF false {} 0) s := by
  refine State.answers_atOnce h ?_
  simp only [runBundleStage, State.startedAt_cast, hw, hst, Option.isSome_none, Bool.false_eq_true, if_false]
  rfl

theorem bundleDiscard_nothing (h : s.Ready p n 0x0113 0) (hst : s.cast.staged = none) (hw : s.cast.writing = none) :
    s.AnswersWith (exec (.bundleDiscard p n) s) p n Status.alreadyDone [] s := by
  refine State.answers_atOnce h (if_pos ?_)
  rw [State.startedAt_cast, hst, hw]
  rfl

theorem notNothing (h : s.cast.staged.isSome = true ∨ s.cast.writing.isSome = true) :
    ¬ (s.cast.staged.isNone && s.cast.writing.isNone) = true := by
  rcases h with h | h
  · rw [← Option.not_isSome, h]; exact Bool.false_ne_true
  · rw [← Option.not_isSome, ← Option.not_isSome, h, Bool.not_true, Bool.and_false]; exact Bool.false_ne_true

theorem bundleDiscard_armed (h : s.Ready p n 0x0113 0) (hsome : s.cast.staged.isSome = true ∨ s.cast.writing.isSome = true)
    (ha : s.cast.armed.isSome = true) : s.AnswersWith (exec (.bundleDiscard p n) s) p n Status.busy [] s :=
  State.answers_atOnce h ((if_neg (notNothing hsome)).trans (if_pos ha))

/-- With no cast armed, what is staged and what is being written are dropped. -/
theorem runBundleDiscard_drops (hsome : s.cast.staged.isSome = true ∨ s.cast.writing.isSome = true) (ha : s.cast.armed = none) :
    runBundleDiscard (s.cmdOf p n 0x0113) (s.startedAt p n) =
      ({ (s.startedAt p n).dropStaged with cast := { (s.startedAt p n).dropStaged.cast with writing := none } }).respond
        p n Status.ok [] := by
  have harmed : ¬ s.cast.armed.isSome = true := by rw [ha]; exact Bool.false_ne_true
  exact (if_neg (notNothing hsome)).trans (if_neg harmed)

theorem State.dropStaged_none (h : s.cast.staged = none) : s.dropStaged = s := by
  unfold State.dropStaged
  rw [h]

theorem bundleDiscard_written (h : s.Ready p n 0x0113 0) (hst : s.cast.staged = none) (hw : s.cast.writing = some w)
    (ha : s.cast.armed = none) :
    s.AnswersWith (exec (.bundleDiscard p n) s) p n Status.ok [] { s with cast := { s.cast with writing := none } } := by
  refine State.answersWith h rfl ?_
  have hdrop : (s.startedAt p n).dropStaged = s.startedAt p n := State.dropStaged_none hst
  rw [runBundleDiscard_drops (.inr (by rw [hw]; rfl)) ha, hdrop]
  rfl

/-- Dropping a staged maquette empties its place, its cell slot and its stores. -/
theorem State.dropStaged_some {m : Policy} (h : s.cast.staged = some m) :
    ∃ g e, s.dropStaged = { s with cast := { s.cast with staged := none, stagedBody := [], stagedShared := 0 }, grid := g, eng := e } := by
  unfold State.dropStaged
  rw [h]
  dsimp only
  split
  · exact ⟨_, _, rfl⟩
  · exact ⟨_, _, rfl⟩

theorem bundleDiscard_staged {m : Policy} (h : s.Ready p n 0x0113 0) (hst : s.cast.staged = some m) (ha : s.cast.armed = none) :
    ∃ t b, exec (.bundleDiscard p n) s = .next t ∧ s.Answered t p n Status.ok b ∧ t.cast.staged = none ∧
      t.cast.writing = none ∧ t.cast.active = s.cast.active ∧ t.cast.retained = s.cast.retained ∧
      { t.apart with cast := s.cast, grid := s.grid, eng := s.eng } = s.apart := by
  obtain ⟨g, e, hdrop⟩ := State.dropStaged_some (s := s.startedAt p n) hst
  let u : State := { s.startedAt p n with
    cast := { s.cast with staged := none, stagedBody := [], stagedShared := 0, writing := none }, grid := g, eng := e }
  have hrun : runBundleDiscard (s.cmdOf p n 0x0113) (s.startedAt p n) = u.respond p n Status.ok [] := by
    rw [runBundleDiscard_drops (.inl (by rw [hst]; rfl)) ha, hdrop]
    rfl
  have happart : (u.respond p n Status.ok []).apart = u.apart := State.respond_apart ..
  have hcast := State.of_apart State.cast (fun _ => rfl) happart
  refine ⟨_, _, congrArg Host.Outcome.next ((State.startCmd_ready h _).trans hrun), State.answered_of_mbox (u := u) _ _ rfl, ?_, ?_, ?_, ?_, ?_⟩
  · exact congrArg Casting.staged hcast
  · exact congrArg Casting.writing hcast
  · exact (congrArg Casting.active hcast).trans rfl
  · exact (congrArg Casting.retained hcast).trans rfl
  · exact congrArg (fun v : State => { v with cast := s.cast, grid := s.grid, eng := s.eng }) happart

/-- A staging waits while a cast window is open (R449; log 47). -/
theorem stageComplete_waits (hwin : s.cast.windowEnd.isSome = true) (m : SectionMap) : stageComplete m s = s := by
  unfold stageComplete
  split
  · next hnone => rw [hnone] at hwin; nomatch hwin
  · rfl

end Sys2Proof.Machine
end

section
open Sys2Proof.Machine

/-- Settles O17: the commands over a bundle case by case, then the end of a staging by the check that fails first. -/
theorem bundleAndStaging : Obligations.BundleAndStaging := by
  unfold Obligations.BundleAndStaging
  refine ⟨fun s p n => ⟨fun h => ⟨bundleBegin_busy h, fun r hst hwr hr hwin => bundleBegin_retained hst hwr h hr hwin,
      fun hst hwr hr => ⟨bundleBegin_doesNotFit hst hwr hr h, bundleBegin_reserves hst hwr hr h⟩⟩,
    fun h => ⟨bundleWrite_nothing h, fun w hw => ⟨bundleWrite_notOwner h hw, bundleWrite_unfit h hw, bundleWrite_keeps h hw⟩⟩,
    fun w => bundleStage_starts, bundleStage_done, bundleStage_nothing, bundleDiscard_nothing, bundleDiscard_armed,
    fun w => bundleDiscard_written, fun m => bundleDiscard_staged⟩,
    fun s m hwin => congrArg Host.Outcome.next (stageComplete_waits hwin m), ?_⟩
  intro s m w p n hw hsrc hwin
  refine ⟨fun f hb => stageComplete_rejects hw hsrc hwin (.inl hb), fun f hb hf => stageComplete_rejects hw hsrc hwin (.inr (.inl ⟨hb, hf⟩)),
    fun hb hf hl => stageComplete_rejects hw hsrc hwin (f := (5, 0xFFFF)) (.inr (.inr ⟨hb, hf, hl, rfl⟩)), fun hb hf hl => ?_⟩
  obtain ⟨u, body, hrun, hanswered, hstaged, hwriting, hstaging, hactive, happart⟩ := stageComplete_stages hw hsrc hwin hb hf hl
  exact ⟨u, body, _, hrun, hanswered, hstaged, rfl, rfl, rfl, hwriting, hstaging, hactive, happart⟩

end

section
/-! SUPPORT. Arming and disarming a cast, by command and by message (R443, R446, R449; log 48). -/

namespace Sys2Proof.Machine

variable {s : State} {p : MPort} {n : Fin 32} {id : DWord} {epoch instant accept : Nat} {m : Policy}

/-! ### Arming (R443, R449) -/

theorem State.alreadyCast_iff : s.alreadyCast id epoch = true ↔
    ∃ a, s.cast.active = some a ∧ a.tables.latency.policyId = id ∧ a.epoch = epoch := by
  simp only [State.alreadyCast, Option.any_eq_true, Bool.and_eq_true, decide_eq_true_iff]

theorem State.windowBlocked_iff : s.windowBlocked m = true ↔
    m.windowed = true ∧ ∃ x ∈ s.streams.table, x.2.state ≠ .closed ∧ (x.2.pinned = true ∨ m.role (roleOf x.2.req.egress) = false) := by
  simp only [State.windowBlocked, Bool.and_eq_true, List.any_eq_true, decide_eq_true_iff, Bool.or_eq_true, Bool.not_eq_true']

/-- What a staged maquette must be for an arm of a policy, an epoch and an instant, accepted at a tick. -/
def State.armable (s : State) (id : DWord) (epoch instant accept : Nat) (m : Policy) : Prop :=
  m.tables.latency.policyId = id ∧ accept + 65536 ≤ instant ∧ instant ≤ accept + 1600000000 ∧
    1 ≤ (epoch + 2 ^ 32 - s.cast.epoch % 2 ^ 32) % 2 ^ 32 ∧ (epoch + 2 ^ 32 - s.cast.epoch % 2 ^ 32) % 2 ^ 32 ≤ 2 ^ 31 - 1

theorem newerEpoch_iff (e a : Nat) : newerEpoch e a = true ↔
    1 ≤ (e + 2 ^ 32 - a % 2 ^ 32) % 2 ^ 32 ∧ (e + 2 ^ 32 - a % 2 ^ 32) % 2 ^ 32 ≤ 2 ^ 31 - 1 := by
  simp only [newerEpoch, Bool.and_eq_true, decide_eq_true_iff]
  omega

section
variable (hnot : ¬ s.alreadyCast id epoch = true) (hsync : s.aon.sync ≠ .unlocked) (ha : s.cast.armed = none)
include hnot hsync ha

/-- An arm that nothing turns away before the maquette is looked at. -/
theorem State.armCast_staged : s.armCast id epoch instant accept =
    match s.cast.staged with
    | none => (Status.crossref, s)
    | some m =>
      if m.tables.latency.policyId ≠ id then (Status.crossref, s)
      else if instant < accept + 65536 ∨ accept + 1600000000 < instant ∨ !newerEpoch epoch s.cast.epoch then (Status.crossref, s)
      else if s.windowBlocked m then (Status.busy, s)
      else (Status.ok, { s with cast := { s.cast with armed := some ⟨instant, epoch, id⟩ } }) := by
  have harmed : ¬ s.cast.armed.isSome = true := by rw [ha]; exact Bool.false_ne_true
  exact (if_neg hnot).trans ((if_neg hsync).trans (if_neg harmed))

theorem State.armCast_unarmable (h : ∀ m, s.cast.staged = some m → ¬ s.armable id epoch instant accept m) :
    s.armCast id epoch instant accept = (Status.crossref, s) := by
  rw [State.armCast_staged hnot hsync ha]
  cases hst : s.cast.staged with
  | none => rfl
  | some m =>
    dsimp only
    by_cases hid : m.tables.latency.policyId ≠ id
    · exact if_pos hid
    · have hrange : instant < accept + 65536 ∨ accept + 1600000000 < instant ∨ !newerEpoch epoch s.cast.epoch := by
        by_contra hno
        simp only [not_or, Bool.not_eq_true', Bool.not_eq_false, newerEpoch_iff, Nat.not_lt] at hno
        obtain ⟨hlo, hhi, hnewer⟩ := hno
        exact h m hst ⟨not_not.1 hid, hlo, hhi, hnewer⟩
      exact (if_neg hid).trans (if_pos hrange)

theorem State.armCast_armable (hst : s.cast.staged = some m) (h : s.armable id epoch instant accept m) :
    s.armCast id epoch instant accept = if s.windowBlocked m then (Status.busy, s)
      else (Status.ok, { s with cast := { s.cast with armed := some ⟨instant, epoch, id⟩ } }) := by
  obtain ⟨hid, hlo, hhi, hnewer⟩ := h
  have hrange : ¬ (instant < accept + 65536 ∨ accept + 1600000000 < instant ∨ !newerEpoch epoch s.cast.epoch) := by
    simp only [(newerEpoch_iff ..).2 hnewer]
    simp; omega
  rw [State.armCast_staged hnot hsync ha, hst]
  exact (if_neg (not_not.2 hid)).trans (if_neg hrange)

end

/-! ### The commands (R443) -/

theorem State.armCast_startedAt : (s.startedAt p n).armCast id epoch instant accept =
    ((s.armCast id epoch instant accept).1,
      (s.armCast id epoch instant accept).2.setSlot p n { s.slot p n with started := true }) := by
  have hactive : (s.startedAt p n).alreadyCast id epoch = s.alreadyCast id epoch := rfl
  have hblocked (m : Policy) : (s.startedAt p n).windowBlocked m = s.windowBlocked m := rfl
  simp only [State.armCast, hactive, hblocked, State.startedAt_cast, State.startedAt_aon]
  repeat' split
  all_goals rfl

theorem State.disarmCast_startedAt : (s.startedAt p n).disarmCast id accept =
    ((s.disarmCast id accept).1, (s.disarmCast id accept).2.setSlot p n { s.slot p n with started := true }) := by
  simp only [State.disarmCast, State.startedAt_cast]
  repeat' split
  all_goals rfl

theorem State.armCast_mbox : (s.armCast id epoch instant accept).2.ctl.mbox = s.ctl.mbox := by
  unfold State.armCast
  repeat' split
  all_goals rfl

theorem State.disarmCast_mbox : (s.disarmCast id accept).2.ctl.mbox = s.ctl.mbox := by
  unfold State.disarmCast
  repeat' split
  all_goals rfl

theorem castArm_answers (h : s.Ready p n 0x0120 24) :
    let r := s.armCast (BitVec.ofNat 64 (s.arg p n 0 8)) (s.arg p n 16 4) (s.arg p n 8 8) (s.slot p n).accept
    s.AnswersWith (exec (.castArm p n) s) p n r.1 [] r.2 := by
  refine State.answersWith h State.armCast_mbox ?_
  simp only [runCastArm, State.armCast_startedAt]
  rfl

theorem castDisarm_answers (h : s.Ready p n 0x0121 8) :
    let r := s.disarmCast (BitVec.ofNat 64 (s.arg p n 0 8)) (s.slot p n).accept
    s.AnswersWith (exec (.castDisarm p n) s) p n r.1 [] r.2 := by
  refine State.answersWith h State.disarmCast_mbox ?_
  simp only [runCastDisarm, State.disarmCast_startedAt]
  rfl

/-! ### CAST messages (R446) -/

section
variable {u : State} {a : Arrival} (h : s.takeInbox (fun x => decide (x.pkt.hdr.port = 0xC5#8)) = some (a, u))
include h

theorem castMessage_reply (hop : field a.pkt.payload 0 1 = 3) :
    exec .castMessage s =
      .next (u.offerBulk 0 { a.pkt with hdr := { a.pkt.hdr with dest := s.aon.node, multicast := false } } a.toBulk) := by
  obtain ⟨r, hu⟩ := State.takeInbox_eq h
  have haon : u.aon = s.aon := by rw [hu]
  refine congrArg Host.Outcome.next ?_
  unfold takeCastMessage
  rw [h, ← haon]
  exact if_pos hop

theorem castMessage_stranger (hop : field a.pkt.payload 0 1 ≠ 3)
    (hfrom : u.ctl.castEnable = false ∨ a.pkt.hdr.source ≠ u.ctl.castController) :
    exec .castMessage s = .next (u.count1 0x11 0 13) := by
  have hno : (!u.ctl.castEnable || decide (a.pkt.hdr.source ≠ u.ctl.castController)) = true := by
    simpa only [Bool.or_eq_true, Bool.not_eq_true', decide_eq_true_iff] using hfrom
  refine congrArg Host.Outcome.next ?_
  unfold takeCastMessage
  rw [h]
  exact (if_neg hop).trans (if_pos hno)

theorem castMessage_controller (hop : field a.pkt.payload 0 1 ≠ 3) (hon : u.ctl.castEnable = true)
    (hfrom : a.pkt.hdr.source = u.ctl.castController) :
    let id : DWord := BitVec.ofNat 64 (field a.pkt.payload 8 8)
    let r := if field a.pkt.payload 0 1 = 1 then u.armCast id (field a.pkt.payload 4 4) (field a.pkt.payload 16 8) a.stamp
      else if field a.pkt.payload 0 1 = 2 then u.disarmCast id a.stamp else (Status.crossref, u)
    exec .castMessage s = .next (r.2.sendRouted (nodeField a.pkt.payload 2) 0xC5#8 0#48
      (padTo 64 (leBytes 1 3 ++ leBytes 1 r.1 ++ (a.pkt.payload.drop 2).take 22))) := by
  intro id r
  have hyes : ¬ (!u.ctl.castEnable || decide (a.pkt.hdr.source ≠ u.ctl.castController)) = true := by
    rw [hon, decide_eq_false (not_not.2 hfrom)]; exact Bool.false_ne_true
  refine congrArg Host.Outcome.next ?_
  unfold takeCastMessage
  rw [h]
  exact (if_neg hop).trans (if_neg hyes)

end

end Sys2Proof.Machine
end

section
open Sys2Proof.Machine

/-- Settles O18: arming and disarming by the first condition that turns them away, then the commands and the messages that do
so. -/
theorem castCommandsAndMessages : Obligations.CastCommandsAndMessages := by
  unfold Obligations.CastCommandsAndMessages
  refine ⟨fun s id epoch instant accept => ?_, fun s id accept => ?_, fun s p n => ⟨castArm_answers, castDisarm_answers⟩,
    fun s u a h => ⟨castMessage_reply h, castMessage_stranger h, castMessage_controller h⟩⟩
  · refine ⟨fun h => if_pos (State.alreadyCast_iff.2 h), fun hnot hsync => ?_, fun hnot hsync harmed => ?_,
      fun hnot hsync harmed hgood => ?_, fun m hnot hsync harmed hst hgood hblocked => ?_,
      fun m hnot hsync harmed hst hgood hblocked => ?_⟩
    · exact (if_neg (mt State.alreadyCast_iff.1 hnot)).trans (if_pos hsync)
    · exact (if_neg (mt State.alreadyCast_iff.1 hnot)).trans ((if_neg hsync).trans (if_pos harmed))
    · exact State.armCast_unarmable (mt State.alreadyCast_iff.1 hnot) hsync harmed hgood
    · exact (State.armCast_armable (mt State.alreadyCast_iff.1 hnot) hsync harmed hst hgood).trans
        (if_pos (State.windowBlocked_iff.2 hblocked))
    · exact (State.armCast_armable (mt State.alreadyCast_iff.1 hnot) hsync harmed hst hgood).trans
        (if_neg (mt State.windowBlocked_iff.1 hblocked))
  · refine ⟨fun ha => ?_, fun a ha hid => ?_, fun a ha hid hlate => ?_, fun a ha hid hearly => ?_⟩
    · simp only [State.disarmCast, ha]
    · simp only [State.disarmCast, ha]
      exact if_pos hid
    · simp only [State.disarmCast, ha]
      exact (if_neg (not_not.2 hid)).trans (if_pos hlate)
    · simp only [State.disarmCast, ha]
      exact (if_neg (not_not.2 hid)).trans (if_neg (Nat.not_lt.2 hearly))

end

section
/-! SUPPORT. The patrol of the memories, the repairs of rows and columns, and the repair semaphore (R428, R469, R472 to R474). -/

namespace Sys2Proof.Machine

variable {s t : State} {m : MemLoc} {w : BitVec 80}

/-! ### A pass of the patrol (R472; log 51) -/

/-- Noting where a pass stands changes the pass, and counts one that is complete. -/
theorem State.patrolPass_spec (s : State) (m : MemLoc) :
    (∃ f k e, (s.patrolPass m).rel = { s.rel with patrolFirst := f, patrolPass := k, passErrors := e }) ∧
      { (s.patrolPass m).quiet with rel := s.rel } = s.quiet ∧
      (s.patrolPass m).counter ⟨0x13, 0, 0⟩ = s.counter ⟨0x13, 0, 0⟩ := by
  unfold State.patrolPass
  split
  · exact ⟨⟨_, _, _, rfl⟩, rfl, rfl⟩
  · split
    · refine ⟨⟨_, _, _, State.effects_rel ..⟩, ?_, State.effects_counter _ _ _ (by decide) rfl⟩
      rw [State.count1_quiet]
      rfl
    · exact ⟨⟨_, _, _, rfl⟩, rfl, rfl⟩

theorem State.patrolPass_poisoned (s : State) (m : MemLoc) : (s.patrolPass m).rel.poisoned = s.rel.poisoned := by
  obtain ⟨⟨f, k, e, h⟩, -⟩ := s.patrolPass_spec m
  rw [h]

theorem State.patrolPass_repairsDue (s : State) (m : MemLoc) : (s.patrolPass m).rel.repairsDue = s.rel.repairsDue := by
  obtain ⟨⟨f, k, e, h⟩, -⟩ := s.patrolPass_spec m
  rw [h]

theorem State.patrolPass_rows (s : State) (m j : MemLoc) : (s.patrolPass m).rel.rows j = s.rel.rows j := by
  obtain ⟨⟨f, k, e, h⟩, -⟩ := s.patrolPass_spec m
  rw [h]
  rfl

/-- What a frame but for the repair state shows of the rest. -/
theorem State.of_offRel {α : Type} (f : State → α) (hf : ∀ v : State, f v = f { v.quiet with rel := s.rel })
    (h : { t.quiet with rel := s.rel } = s.quiet) : f t = f s := by
  rw [hf t, h, hf s]
  rfl

/-! ### What the patrol finds (R469, R472, R473) -/

theorem patrolScrub_clean {data : DWord} (h : memDecode w = .clean false data) : patrolScrub m w s = s.patrolPass m := by
  unfold patrolScrub
  rw [h]

theorem patrolScrub_poisoned {data : DWord} (h : memDecode w = .clean true data) :
    patrolScrub m w s = (s.patrolPass m).effects (poisonRead m.kind.val m.unit m.addr (s.patrolPass m).now) := by
  unfold patrolScrub
  rw [h]

theorem patrolScrub_corrected {p : Bool} {data : DWord} {bits : List Nat} (h : memDecode w = .corrected p data bits) :
    patrolScrub m w s = ({ s.patrolPass m with rel := (s.patrolPass m).rel.noteCorrected m bits }).count1 0x13 0 0 := by
  unfold patrolScrub
  rw [h]

theorem cleanClause {data : DWord} (h : memDecode w = .clean false data) :
    ∃ t, exec (.patrolScrub m w) s = .next t ∧ t.rel.poisoned = s.rel.poisoned ∧ t.rel.repairsDue = s.rel.repairsDue ∧
      t.grid = s.grid ∧ { t.quiet with rel := s.rel } = s.quiet := by
  obtain ⟨-, hquiet, -⟩ := s.patrolPass_spec m
  exact ⟨_, congrArg Host.Outcome.next (patrolScrub_clean h), s.patrolPass_poisoned m, s.patrolPass_repairsDue m,
    State.of_offRel State.grid (fun _ => rfl) hquiet, hquiet⟩

theorem poisonedClause {data : DWord} (h : memDecode w = .clean true data) :
    ∃ t, exec (.patrolScrub m w) s = .next t ∧ t.latched 19 = true ∧ t.rel.poisoned = s.rel.poisoned ∧
      t.rel.repairsDue = s.rel.repairsDue ∧ t.grid = s.grid ∧ { t.quiet with rel := s.rel } = s.quiet := by
  obtain ⟨-, hquiet, -⟩ := s.patrolPass_spec m
  refine ⟨_, congrArg Host.Outcome.next (patrolScrub_poisoned h), State.effects_raises _ _ 19 _ (List.mem_cons_of_mem _ List.mem_cons_self),
    ?_, ?_, ?_, ?_⟩
  · rw [State.effects_rel, s.patrolPass_poisoned m]
  · rw [State.effects_rel, s.patrolPass_repairsDue m]
  · rw [State.effects_grid]
    exact State.of_offRel State.grid (fun _ => rfl) hquiet
  · rw [State.effects_quiet, hquiet]

/-- Noting a repair as due changes the list of due repairs alone. -/
theorem Reliability.due_only (r : Reliability) (m : MemLoc) (bit : Option Nat) : ∃ l, r.due m bit = { r with repairsDue := l } := by
  unfold Reliability.due
  exact (ite_eq_or_eq _ _ _).elim (fun h => ⟨r.repairsDue, h⟩) (fun h => ⟨r.repairsDue ++ [(m, bit)], h⟩)

theorem foldl_due_only (m : MemLoc) (bits : List Nat) (r : Reliability) :
    ∃ l, bits.foldl (fun (q : Reliability) b => if 4 ≤ (q.rowsWithBit m b).length then q.due m (some b) else q) r =
      { r with repairsDue := l } := by
  induction bits generalizing r with
  | nil => exact ⟨_, rfl⟩
  | cons b bits ih =>
    have hone : ∃ l, (if 4 ≤ (r.rowsWithBit m b).length then r.due m (some b) else r) = { r with repairsDue := l } := by
      split
      · exact r.due_only m (some b)
      · exact ⟨_, rfl⟩
    obtain ⟨l, hl⟩ := hone
    rw [List.foldl_cons, hl]
    obtain ⟨k, hk⟩ := ih { r with repairsDue := l }
    exact ⟨k, hk⟩

/-- A corrected word is noted with the pass that found it. -/
theorem Reliability.noteCorrected_only (r : Reliability) (m : MemLoc) (bits : List Nat) :
    ∃ c e l, r.noteCorrected m bits = { r with corrected := c ++ [(m, r.patrolPass)], passErrors := e, repairsDue := l } := by
  unfold Reliability.noteCorrected
  dsimp only
  generalize r.corrected.filter (fun (e : MemLoc × Nat) => decide (e.1 ≠ m) && decide (r.patrolPass ≤ e.2 + 1)) = c
  split
  · obtain ⟨k, hk⟩ := Reliability.due_only
      { r with corrected := c ++ [(m, r.patrolPass)], passErrors := r.passErrors ++ bits.map (fun b => (m, b)) } m none
    obtain ⟨l, hl⟩ := foldl_due_only m bits
      { r with corrected := c ++ [(m, r.patrolPass)], passErrors := r.passErrors ++ bits.map (fun b => (m, b)), repairsDue := k }
    exact ⟨_, _, l, by rw [hk, hl]⟩
  · obtain ⟨l, hl⟩ := foldl_due_only m bits
      { r with corrected := c ++ [(m, r.patrolPass)], passErrors := r.passErrors ++ bits.map (fun b => (m, b)) }
    exact ⟨_, _, l, hl⟩

theorem correctedClause {p : Bool} {data : DWord} {bits : List Nat} (h : memDecode w = .corrected p data bits) :
    ∃ t, exec (.patrolScrub m w) s = .next t ∧
      (t.counter ⟨0x13, 0, 0⟩).count = min (2 ^ 48 - 1) ((s.counter ⟨0x13, 0, 0⟩).count + 1) ∧
      (m, t.rel.patrolPass) ∈ t.rel.corrected ∧ t.rel.poisoned = s.rel.poisoned ∧ t.grid = s.grid ∧
      { t.quiet with rel := s.rel } = s.quiet := by
  obtain ⟨-, hquiet, hcounter⟩ := s.patrolPass_spec m
  obtain ⟨c, e, l, hnote⟩ := (s.patrolPass m).rel.noteCorrected_only m bits
  have hrel : (patrolScrub m w s).rel =
      { (s.patrolPass m).rel with corrected := c ++ [(m, (s.patrolPass m).rel.patrolPass)], passErrors := e, repairsDue := l } := by
    rw [patrolScrub_corrected h]
    exact (State.effects_rel ..).trans hnote
  refine ⟨_, rfl, ?_, ?_, ?_, ?_, ?_⟩
  · rw [patrolScrub_corrected h]
    refine (congrArg Counter.count (State.effects_count _ [] _ 1 (by decide) rfl)).trans ((Counter.add_count ..).trans ?_)
    exact congrArg (fun x : Counter => min maxCount (x.count + 1)) hcounter
  · rw [hrel]
    exact List.mem_append_right _ List.mem_cons_self
  · rw [hrel]
    exact s.patrolPass_poisoned m
  · rw [patrolScrub_corrected h]
    exact (State.effects_grid ..).trans (State.of_offRel State.grid (fun _ => rfl) hquiet)
  · rw [patrolScrub_corrected h, State.count1_quiet]
    exact hquiet

/-! ### An uncorrectable word (R469, R470, R473) -/

/-- A due row is among the due repairs while its memory block has a spare row (R473). -/
theorem Reliability.due_row {r : Reliability} (h : r.rows m < 8) : (r.due m none).repairsDue.any (sameRepair (m, none)) = true := by
  have hroom : decide (8 ≤ r.rows m) = false := decide_eq_false (Nat.not_le.2 h)
  have hself : sameRepair (m, none) (m, none) = true := by simp [sameRepair]
  unfold Reliability.due
  dsimp only
  rw [hroom, Bool.false_or]
  by_cases hd : r.repairsDue.any (sameRepair (m, none)) = true
  · rw [if_pos hd]
    exact hd
  · rw [if_neg hd, List.any_append]
    simp [hself]

theorem Cell.poisonSpan_word (x : Cell) (a : Nat) : (x.poisonSpan a 8).poison.contains a = true := by
  by_cases h : a ∈ x.poison
  · simp [Cell.poisonSpan, h]
  · simp [Cell.poisonSpan, h]

theorem State.poisonSpill_only (s : State) (a : Nat) : ∃ l k, s.poisonSpill a = { s with queues := l, freeUse := k } := by
  unfold State.poisonSpill
  dsimp only
  split
  · exact ⟨_, _, rfl⟩
  · split
    · exact ⟨_, _, rfl⟩
    · exact ⟨_, _, rfl⟩

theorem State.poisonContext_only (s : State) (a : Nat) : ∃ x, s.poisonContext a = { s with streams := x } := by
  unfold State.poisonContext
  split
  · exact ⟨_, rfl⟩
  · exact ⟨_, rfl⟩

/-- Writing a word back poisoned names it among the poisoned ones, a cell's word in the cell; the boot state, the power state and
the link plane stay. -/
theorem State.poisonWord_spec (s : State) (m : MemLoc) (data : DWord) :
    let t := s.poisonWord m data
    (m.kind ≠ 1 → (m.kind.val, m.unit, m.addr) ∈ t.rel.poisoned) ∧
      (m.kind = 1 → (t.cell (BitVec.ofNat 12 m.unit)).poison.contains m.addr = true) ∧ t.rel.rowsUsed = s.rel.rowsUsed ∧
      t.power = s.power ∧ t.boot = s.boot ∧ t.plane = s.plane := by
  have hin (l : List (Nat × Nat × Nat)) (e : Nat × Nat × Nat) : e ∈ l ++ [e] := List.mem_append_right _ List.mem_cons_self
  unfold State.poisonWord
  dsimp only
  split
  · next hk =>
    have hother : m.kind = 1 → False := fun h => by rw [hk] at h; exact absurd h (by decide)
    split
    · obtain ⟨x, hx⟩ := State.poisonContext_only { s with rel := { s.rel with
        poisoned := s.rel.poisoned.filter (fun x => x ≠ (m.kind.val, m.unit, m.addr)) ++ [(m.kind.val, m.unit, m.addr)] } } m.addr
      rw [hx]
      exact ⟨fun _ => hin .., fun h => (hother h).elim, rfl, rfl, rfl, rfl⟩
    split
    · obtain ⟨l, k, hl⟩ := State.poisonSpill_only { s with rel := { s.rel with
        poisoned := s.rel.poisoned.filter (fun x => x ≠ (m.kind.val, m.unit, m.addr)) ++ [(m.kind.val, m.unit, m.addr)] } } m.addr
      rw [hl]
      exact ⟨fun _ => hin .., fun h => (hother h).elim, rfl, rfl, rfl, rfl⟩
    · exact ⟨fun _ => hin .., fun h => (hother h).elim, rfl, rfl, rfl, rfl⟩
  · next hk =>
    refine ⟨fun h => absurd hk h, fun _ => ?_, rfl, rfl, rfl, rfl⟩
    rw [State.setCell_cell_self]
    exact Cell.poisonSpan_word ..
  · next hnot => exact ⟨fun _ => hin .., fun h => absurd h hnot, rfl, rfl, rfl, rfl⟩

theorem uncorrectableClause {data : DWord} (h : memDecode w = .uncorrectable data) :
    ∃ t, exec (.patrolScrub m w) s = .next t ∧ t.latched 19 = true ∧
      (m.kind ≠ 1 → (m.kind.val, m.unit, m.addr) ∈ t.rel.poisoned) ∧
      (m.kind = 1 → ∃ a, (t.cell (BitVec.ofNat 12 m.unit)).poison.contains a = true ∧ a = m.addr) ∧
      (s.rel.rows m < 8 → t.rel.repairsDue.any (sameRepair (m, none)) = true) ∧
      t.power = s.power ∧ t.boot = s.boot ∧ t.plane = s.plane := by
  obtain ⟨-, hquiet, -⟩ := s.patrolPass_spec m
  obtain ⟨hnamed, hcell, hrows, hpower, hboot, hplane⟩ := (s.patrolPass m).poisonWord_spec m data
  let v := (s.patrolPass m).poisonWord m data
  obtain ⟨l, hdue⟩ := v.rel.due_only m none
  have hrun : patrolScrub m w s = ({ v with rel := v.rel.due m none } : State).effects
      [.count ⟨0x13, 0, 1⟩ 1, .notice 19 (wordDetail m (s.patrolPass m).now)] := by
    unfold patrolScrub
    rw [h]
  refine ⟨_, congrArg Host.Outcome.next hrun, State.effects_raises _ _ 19 _ (List.mem_cons_of_mem _ List.mem_cons_self), ?_, ?_, ?_, ?_, ?_, ?_⟩
  · intro hk
    rw [State.effects_rel, hdue]
    exact hnamed hk
  · intro hk
    refine ⟨m.addr, ?_, rfl⟩
    rw [State.effects_cell]
    exact hcell hk
  · intro hspare
    rw [State.effects_rel]
    refine Reliability.due_row ?_
    have hsame : v.rel.rows m = s.rel.rows m := (congrArg (fun x => (aget (macroOf m) x).getD 0) hrows).trans (s.patrolPass_rows m m)
    rwa [hsame]
  · rw [State.effects_power]
    exact hpower.trans (State.of_offRel State.power (fun _ => rfl) hquiet)
  · rw [State.effects_boot]
    exact hboot.trans (State.of_offRel State.boot (fun _ => rfl) hquiet)
  · rw [State.effects_plane]
    exact hplane.trans (State.of_offRel State.plane (fun _ => rfl) hquiet)

/-! ### Repairs (R473, R474) -/

/-- A repair in use: what the counts and NTC_SPARE_USED leave of it. -/
theorem State.repaired_spec (s : State) (r : Reliability) (pos kind : Nat) (loc : List Byte) :
    let u := (({ s with rel := r } : State).count1 0x13 0 pos).noteSpare kind loc
    u.rel = { r with repairs := r.repairs + 1 } ∧ u.latched 20 = true ∧ u.streams = s.streams ∧ u.grid = s.grid ∧ u.plane = s.plane := by
  intro u
  obtain ⟨hrel, hlatched, hgrid, hstreams, hplane, -, -⟩ := (({ s with rel := r } : State).count1 0x13 0 pos).noteSpare_spec kind loc
  refine ⟨hrel.trans ?_, hlatched, hstreams.trans (State.effects_streams ..), hgrid.trans (State.effects_grid ..),
    hplane.trans (State.effects_plane ..)⟩
  rw [State.count1, State.effects_rel]

/-- The count of a memory block whose spares run out changes nothing of it (R474). -/
theorem State.exhausted_spec {u : State} {r : Reliability} (last : Bool)
    (h : u.rel = r ∧ u.latched 20 = true ∧ u.streams = s.streams ∧ u.grid = s.grid ∧ u.plane = s.plane) :
    let t := if last then u.count1 0x13 0 7 else u
    t.rel = r ∧ t.latched 20 = true ∧ t.streams = s.streams ∧ t.grid = s.grid ∧ t.plane = s.plane := by
  obtain ⟨hrel, hlatched, hstreams, hgrid, hplane⟩ := h
  dsimp only
  split
  · exact ⟨(State.effects_rel ..).trans hrel, State.effects_latched _ _ _ hlatched, (State.effects_streams ..).trans hstreams,
      (State.effects_grid ..).trans hgrid, (State.effects_plane ..).trans hplane⟩
  · exact ⟨hrel, hlatched, hstreams, hgrid, hplane⟩

theorem rowRepairClause {rest : List (MemLoc × Option Nat)} (h : s.rel.repairsDue = (m, none) :: rest) :
    ∃ t, exec .memRepair s = .next t ∧ t.rel.repairsDue = rest ∧ t.rel.rows m = s.rel.rows m + 1 ∧ t.rel.cols m = s.rel.cols m ∧
      t.rel.repairs = s.rel.repairs + 1 ∧ t.latched 20 = true ∧ t.streams = s.streams ∧ t.grid = s.grid ∧ t.plane = s.plane := by
  let r : Reliability := { s.rel with
    repairsDue := rest, rowsUsed := aset (macroOf m) (s.rel.rows m + 1) s.rel.rowsUsed,
    corrected := s.rel.corrected.filter (fun e => !(decide ((macroOf e.1) = (macroOf m)) && decide (e.1.row = m.row))) }
  obtain ⟨hrel, hlatched, hstreams, hgrid, hplane⟩ :=
    State.exhausted_spec (s.rel.exhausts m false) (s.repaired_spec r 5 1 (repairLoc m m.row))
  have hrun : exec .memRepair s = .next (if s.rel.exhausts m false then
      ((({ s with rel := r } : State).count1 0x13 0 5).noteSpare 1 (repairLoc m m.row)).count1 0x13 0 7
      else (({ s with rel := r } : State).count1 0x13 0 5).noteSpare 1 (repairLoc m m.row)) := by
    refine congrArg Host.Outcome.next ?_
    unfold memRepair
    rw [h]
    rfl
  refine ⟨_, hrun, ?_, ?_, ?_, ?_, hlatched, hstreams, hgrid, hplane⟩
  · rw [hrel]
  · rw [hrel]
    simp [Reliability.rows, r]
  · rw [hrel]
    rfl
  · rw [hrel]

theorem columnRepairClause {b : Nat} {rest : List (MemLoc × Option Nat)} (h : s.rel.repairsDue = (m, some b) :: rest) :
    ∃ t, exec .memRepair s = .next t ∧ t.rel.repairsDue = rest ∧ t.rel.cols m = s.rel.cols m + 1 ∧ t.rel.rows m = s.rel.rows m ∧
      t.rel.repairs = s.rel.repairs + 1 ∧ t.latched 20 = true ∧ t.streams = s.streams ∧ t.grid = s.grid ∧ t.plane = s.plane := by
  let r : Reliability := { s.rel with
    repairsDue := rest, colsUsed := aset (macroOf m) (s.rel.cols m + 1) s.rel.colsUsed }
  obtain ⟨hrel, hlatched, hstreams, hgrid, hplane⟩ :=
    State.exhausted_spec (s.rel.exhausts m true) (s.repaired_spec r 6 2 (repairLoc m b))
  have hrun : exec .memRepair s = .next (if s.rel.exhausts m true then
      ((({ s with rel := r } : State).count1 0x13 0 6).noteSpare 2 (repairLoc m b)).count1 0x13 0 7
      else (({ s with rel := r } : State).count1 0x13 0 6).noteSpare 2 (repairLoc m b)) := by
    refine congrArg Host.Outcome.next ?_
    unfold memRepair
    rw [h]
    rfl
  refine ⟨_, hrun, ?_, ?_, ?_, ?_, hlatched, hstreams, hgrid, hplane⟩
  · rw [hrel]
  · rw [hrel]
    simp [Reliability.cols, r]
  · rw [hrel]
    rfl
  · rw [hrel]

/-! ### The repair semaphore (R428) -/

theorem repairSemaphoreRelease_held {k : Nat} (h : s.ctl.repairSem = some k) :
    repairSemaphoreRelease s =
      { s.setSem 0 ((s.sem 0).release 3) with ctl := { (s.setSem 0 ((s.sem 0).release 3)).ctl with repairSem := none } } := by
  unfold repairSemaphoreRelease
  rw [h]

theorem repairSemaphoreClause {k : Nat} (h : s.ctl.repairSem = some k) :
    ∃ t, exec .repairSemaphoreRelease s = .next t ∧ t.ctl.repairSem = none ∧
      t.sem 0 = (if (s.sem 0).owner = 3 then { s.sem 0 with owner := 0 } else s.sem 0) ∧
      (∀ n, n ≠ 0 → t.sem n = s.sem n) ∧ { t with ctl := { t.ctl with sems := s.ctl.sems, repairSem := s.ctl.repairSem } } = s :=
  ⟨_, congrArg Host.Outcome.next (repairSemaphoreRelease_held h), rfl, State.sem_setSem s 0 _,
    fun _ hn => State.sem_setSem_ne s hn _, rfl⟩

/-- Settles O31: the patrol by what it reads, then the oldest due repair by its kind, then the semaphore. -/
theorem memoryPatrolAndRepair : Obligations.MemoryPatrolAndRepair := by
  unfold Obligations.MemoryPatrolAndRepair
  intro s
  refine ⟨fun _ _ _ => cleanClause, fun _ _ _ => poisonedClause, fun _ _ _ _ _ => correctedClause, fun _ _ _ => uncorrectableClause,
    fun _ _ => rowRepairClause, fun _ _ _ => columnRepairClause, fun h => congrArg Host.Outcome.next ?_,
    fun h => congrArg Host.Outcome.next ?_, fun _ => repairSemaphoreClause⟩
  · unfold memRepair
    rw [h]
  · unfold repairSemaphoreRelease
    rw [h]

end Sys2Proof.Machine
end

section
/-! SUPPORT. Thermal readings and current estimates (R486, R505, R507 to R509; log 52). -/

namespace Sys2Proof.Machine

variable {s : State} {h : HalfId}

/-! ### The highest of a half's readings (R508) -/

theorem foldl_max_spec (x : Int) (l : List Int) : l.foldl max x ∈ x :: l ∧ ∀ y ∈ x :: l, y ≤ l.foldl max x := by
  induction l generalizing x with
  | nil => exact ⟨List.mem_cons_self, fun y hy => (List.mem_singleton.1 hy).le⟩
  | cons z l ih =>
    obtain ⟨hmem, hge⟩ := ih (max x z)
    have hxz := hge (max x z) List.mem_cons_self
    rw [List.foldl_cons]
    refine ⟨?_, fun y hy => ?_⟩
    · rcases List.mem_cons.1 hmem with heq | hin
      · rcases max_choice x z with hmax | hmax
        · rw [heq, hmax]; exact List.mem_cons_self
        · rw [heq, hmax]; exact List.mem_cons_of_mem _ List.mem_cons_self
      · exact List.mem_cons_of_mem _ (List.mem_cons_of_mem _ hin)
    · rcases List.mem_cons.1 hy with rfl | hy
      · exact (le_max_left _ _).trans hxz
      rcases List.mem_cons.1 hy with rfl | hy
      · exact (le_max_right _ _).trans hxz
      · exact hge y (List.mem_cons_of_mem _ hy)

theorem maxReading_mem {l : List Int} (h : l ≠ []) : maxReading l ∈ l := by
  cases l with
  | nil => exact absurd rfl h
  | cons x l => exact (foldl_max_spec x l).1

theorem le_maxReading {l : List Int} {y : Int} (h : y ∈ l) : y ≤ maxReading l := by
  cases l with
  | nil => exact absurd h List.not_mem_nil
  | cons x l => exact (foldl_max_spec x l).2 y h

/-- The ten readings of a half among the 21. -/
def halfReadings (l : List Int) (h : HalfId) : List Int := (l.drop (10 * halfCode h)).take 10

theorem mem_halfReadings {l : List Int} (hl : l.length = 21) {y : Int} :
    y ∈ halfReadings l h ↔ ∃ i, i < 10 ∧ y = l.getD (10 * halfCode h + i) 0 := by
  have hcode : halfCode h ≤ 1 := by cases h <;> decide
  have hlen : (halfReadings l h).length = 10 := by
    simp only [halfReadings, List.length_take, List.length_drop]; omega
  have hget (i : Nat) (hi : i < 10) : (halfReadings l h)[i]? = l[10 * halfCode h + i]? := by
    simp only [halfReadings, List.getElem?_take_of_lt hi, List.getElem?_drop]
  have hval (i : Nat) (hi : i < 10) : (halfReadings l h)[i]? = some (l.getD (10 * halfCode h + i) 0) := by
    have hin : 10 * halfCode h + i < l.length := by omega
    rw [hget i hi, List.getD_eq_getElem?_getD, List.getElem?_eq_getElem hin, Option.getD_some]
  refine ⟨fun hy => ?_, fun ⟨i, hi, hy⟩ => ?_⟩
  · obtain ⟨i, hi⟩ := List.mem_iff_getElem?.1 hy
    have hlt : i < 10 := by
      have := (List.getElem?_eq_some_iff.1 hi).1
      omega
    exact ⟨i, hlt, Option.some.inj (hi.symm.trans (hval i hlt))⟩
  · rw [hy]
    exact List.mem_iff_getElem?.2 ⟨i, hval i hi⟩

/-! ### What a reading or an estimate notes of a half (R486, R507) -/

/-- Noting an emergency changes it, the power throttle's state, and the ticks that the steps go by. -/
theorem HalfPower.update_only (v : HalfPower) (e hot cool : Bool) (now : Nat) :
    ∃ a b k, v.update e hot cool now = { v with emergency := e, powerHot := hot, coolSince := a, lowSince := b, lastStep := k } := by
  unfold HalfPower.update
  exact (ite_eq_or_eq _ _ _).elim (fun heq => ⟨_, _, v.lastStep, heq⟩) (fun heq => ⟨_, _, none, heq⟩)

/-- The half with a reading. -/
theorem thermalSensorRead_half (l : List Int) (s : State) (h : HalfId) :
    ∃ hot cool, (thermalSensorRead l s).power.half h =
      ({ s.power.half h with reading := maxReading (halfReadings l h) } : HalfPower).update
        (decide (10 * (s.power.emergencyC : Int) < maxReading (halfReadings l h))) hot cool s.now := by
  cases h with
  | north => exact ⟨_, _, rfl⟩
  | south => exact ⟨_, _, rfl⟩

theorem thermalSensorRead_reads {l : List Int} (hl : l.length = 21) :
    ∃ t, exec (.thermalSensorRead l) s = .next t ∧ t.power.sensors = l ∧
      (∀ (h : HalfId) (v : HalfPower), v = t.power.half h →
        (∀ i, i < 10 → l.getD (10 * halfCode h + i) 0 ≤ v.reading) ∧ (∃ i, i < 10 ∧ v.reading = l.getD (10 * halfCode h + i) 0) ∧
        (v.emergency = true ↔ 10 * (s.power.emergencyC : Int) < v.reading) ∧
        v.run = (s.power.half h).run ∧ v.setPoint = (s.power.half h).setPoint ∧ v.point = (s.power.half h).point ∧
        v.throttle = (s.power.half h).throttle ∧ v.opSet = (s.power.half h).opSet ∧ v.estimate = (s.power.half h).estimate) ∧
      t.aon = { s.aon with thermTripN := s.aon.thermTripN && l.all (fun r => decide (r < 1250)) } ∧
      { t with power := s.power, aon := s.aon } = s := by
  refine ⟨thermalSensorRead l s, rfl, rfl, fun h v hv => ?_, rfl, rfl⟩
  obtain ⟨hot, cool, hhalf⟩ := thermalSensorRead_half l s h
  obtain ⟨a, b, k, hupdate⟩ := HalfPower.update_only ({ s.power.half h with reading := maxReading (halfReadings l h) } : HalfPower)
    (decide (10 * (s.power.emergencyC : Int) < maxReading (halfReadings l h))) hot cool s.now
  obtain rfl := hv.trans (hhalf.trans hupdate)
  have hsome : halfReadings l h ≠ [] := by
    have hin : l.getD (10 * halfCode h + 0) 0 ∈ halfReadings l h := (mem_halfReadings hl).2 ⟨0, by omega, rfl⟩
    exact List.ne_nil_of_mem hin
  exact ⟨fun i hi => le_maxReading ((mem_halfReadings hl).2 ⟨i, hi, rfl⟩), (mem_halfReadings hl).1 (maxReading_mem hsome),
    decide_eq_true_iff, rfl, rfl, rfl, rfl, rfl, rfl⟩

/-! ### Estimates (R505, R507; log 52) -/

/-- The halves with their estimates `en` and `ed`: a current above its rail's peak holds down the half with the higher one. -/
theorem currentEstimate_only {a b x en ed : Nat} (hn : railPower a (vidMicrovolts s.aon.vidNorth) + railPower x 750000 / 2 = en)
    (hd : railPower b (vidMicrovolts s.aon.vidSouth) + railPower x 750000 / 2 = ed) :
    ∃ hotN coolN hotS coolS, currentEstimate a b x s = { s with power := { s.power with
        north := (s.power.north.addEstimate en s.now).update s.power.north.emergency hotN coolN s.now
        south := (s.power.south.addEstimate ed s.now).update s.power.south.emergency hotS coolS s.now
        currents := [a, b, x] } } ∧
      ((1100 < a ∨ 1100 < b ∨ 900 < x) → (ed < en → hotN = true) ∧ (¬ ed < en → hotS = true)) := by
  unfold currentEstimate
  dsimp only
  rw [hn, hd]
  refine ⟨_, _, _, _, rfl, fun hpeak => ?_⟩
  have habove (c : Bool) : (c || decide (1100 < a) || decide (1100 < b) || decide (900 < x)) = true := by
    simp only [Bool.or_eq_true, decide_eq_true_iff]
    omega
  refine ⟨fun hlt => (if_pos (habove _)).trans ?_, fun hge => (if_pos (habove _)).trans ?_⟩
  · have hnorth : (if ed < en then HalfId.north else HalfId.south) = HalfId.north := if_pos hlt
    exact Bool.or_eq_true_iff.2 (.inr (decide_eq_true hnorth.symm))
  · have hsouth : (if ed < en then HalfId.north else HalfId.south) = HalfId.south := if_neg hge
    exact Bool.or_eq_true_iff.2 (.inr (decide_eq_true hsouth.symm))

/-- A half after an estimate: the history ends in it, and the clocks stay. -/
theorem HalfPower.estimated_spec (v : HalfPower) (e now : Nat) (emergency hot cool : Bool) :
    let w := (v.addEstimate e now).update emergency hot cool now
    w.estimate = e ∧ w.powerHot = hot ∧ w.history.getLast? = some (now, e) ∧ w.run = v.run ∧ w.setPoint = v.setPoint ∧
      w.point = v.point ∧ w.throttle = v.throttle := by
  obtain ⟨a, b, k, hupdate⟩ := HalfPower.update_only (v.addEstimate e now) emergency hot cool now
  dsimp only
  rw [hupdate]
  exact ⟨rfl, rfl, List.getLast?_concat, rfl, rfl, rfl, rfl⟩

theorem currentEstimate_estimates (a b x : Nat) (s : State) :
    ∃ t, exec (.currentEstimate a b x) s = .next t ∧ t.power.currents = [a, b, x] ∧
      t.power.north.estimate = a * vidMicrovolts s.aon.vidNorth / 1000000 + x * 750000 / 1000000 / 2 ∧
      t.power.south.estimate = b * vidMicrovolts s.aon.vidSouth / 1000000 + x * 750000 / 1000000 / 2 ∧
      (∀ h : HalfId, (t.power.half h).history.getLast? = some (s.now, (t.power.half h).estimate) ∧
        (t.power.half h).run = (s.power.half h).run ∧ (t.power.half h).setPoint = (s.power.half h).setPoint ∧
        (t.power.half h).point = (s.power.half h).point ∧ (t.power.half h).throttle = (s.power.half h).throttle) ∧
      ((1100 < a ∨ 1100 < b ∨ 900 < x) →
        (t.power.half (if t.power.south.estimate < t.power.north.estimate then .north else .south)).powerHot = true) ∧
      { t with power := s.power } = s := by
  obtain ⟨en, hn⟩ : ∃ en, railPower a (vidMicrovolts s.aon.vidNorth) + railPower x 750000 / 2 = en := ⟨_, rfl⟩
  obtain ⟨ed, hd⟩ : ∃ ed, railPower b (vidMicrovolts s.aon.vidSouth) + railPower x 750000 / 2 = ed := ⟨_, rfl⟩
  obtain ⟨hotN, coolN, hotS, coolS, heq, hpeak⟩ := currentEstimate_only hn hd
  obtain ⟨heN, hhotN, hlastN, hclocksN⟩ := s.power.north.estimated_spec en s.now s.power.north.emergency hotN coolN
  obtain ⟨heS, hhotS, hlastS, hclocksS⟩ := s.power.south.estimated_spec ed s.now s.power.south.emergency hotS coolS
  refine ⟨_, congrArg Host.Outcome.next heq, rfl, heN.trans hn.symm, heS.trans hd.symm, fun h => ?_, fun hover => ?_, rfl⟩
  · cases h with
    | north => exact ⟨hlastN.trans (congrArg (fun e => some (s.now, e)) heN.symm), hclocksN⟩
    | south => exact ⟨hlastS.trans (congrArg (fun e => some (s.now, e)) heS.symm), hclocksS⟩
  · obtain ⟨hnorth, hsouth⟩ := hpeak hover
    dsimp only
    rw [heN, heS]
    by_cases hlt : ed < en
    · rw [if_pos hlt]
      exact hhotN.trans (hnorth hlt)
    · rw [if_neg hlt]
      exact hhotS.trans (hsouth hlt)

/-- Settles O28: what a reading and an estimate note of each half, which leaves its clocks. -/
theorem readingsAndEstimates : Obligations.ReadingsAndEstimates := by
  unfold Obligations.ReadingsAndEstimates
  exact ⟨fun s l hl => thermalSensorRead_reads hl, fun s a b x => currentEstimate_estimates a b x s⟩

end Sys2Proof.Machine
end

section
/-! SUPPORT. The steps of a hot and of a cool half, the loss of an array, and the power cap (R486, R488, R506, R507). -/

namespace Sys2Proof.Machine

variable {s : State} {h : HalfId}

/-! ### One step of a half (R486, R496) -/

/-- Entering DEGRADED sets the report, and raises its notice when it is entered. -/
theorem State.degrade_spec (s : State) (cause half : Nat) :
    (s.degrade cause half).rel = { s.rel with degraded := true } ∧ (s.rel.degraded = false → (s.degrade cause half).latched 21 = true) ∧
      { (s.degrade cause half).quiet with rel := s.rel } = s.quiet := by
  unfold State.degrade
  split
  · next hd =>
    refine ⟨?_, fun hno => absurd (hd.symm.trans hno) Bool.noConfusion, rfl⟩
    rw [← hd]
  · refine ⟨State.effects_rel .., fun _ => State.raise_latched .., ?_⟩
    rw [State.noteDegraded, State.raise_quiet]
    rfl

/-- A half's step down, with DEGRADED reported, and NTC_POWER for an emergency throttle (R486, R507). -/
def State.steppedDown (s : State) (h : HalfId) : State :=
  let u := (s.setHalf h ((s.power.half h).stepDown s.now)).degrade 1 (halfCode h)
  if (s.power.half h).powerHot then u.notePower 2 h ((s.power.half h).run - 100) s.power.interval else u

theorem thermalStepDown_due (hhot : (s.power.half h).emergency = true ∨ (s.power.half h).powerHot = true) (hlost : s.rel.lost h = false)
    (hdue : (s.power.half h).stepDue s.now = true) (hfast : 200 < (s.power.half h).run) :
    thermalStepDown h s = s.steppedDown h := by
  have hgo : (!(s.power.half h).hot || s.rel.lost h || !(s.power.half h).stepDue s.now || decide ((s.power.half h).run ≤ 200)) = false := by
    have hh : (s.power.half h).hot = true := Bool.or_eq_true_iff.2 hhot
    rw [hh, hlost, hdue, decide_eq_false (Nat.not_le.2 hfast)]
    rfl
  exact if_neg (by rw [hgo]; exact Bool.false_ne_true)

/-- What raising NTC_POWER leaves of a step. -/
theorem State.steppedDown_spec (s : State) (h : HalfId) :
    (s.steppedDown h).power = (s.setHalf h ((s.power.half h).stepDown s.now)).power ∧
      (s.steppedDown h).rel = { s.rel with degraded := true } ∧ (s.rel.degraded = false → (s.steppedDown h).latched 21 = true) ∧
      { (s.steppedDown h).quiet with power := s.power, rel := s.rel } = s.quiet := by
  let v := s.setHalf h ((s.power.half h).stepDown s.now)
  obtain ⟨hrel, hlatched, hquiet⟩ := v.degrade_spec 1 (halfCode h)
  have hpower : (v.degrade 1 (halfCode h)).power = v.power := State.of_offRel State.power (fun _ => rfl) hquiet
  have hvrel : v.rel = s.rel := State.setHalf_rel ..
  have hrest : { v.quiet with power := s.power } = s.quiet := by cases h <;> rfl
  have hframe : { (v.degrade 1 (halfCode h)).quiet with power := s.power, rel := s.rel } = s.quiet := by
    rw [← hrest, ← hquiet, hvrel]
  unfold State.steppedDown
  dsimp only
  rw [hvrel] at hrel hlatched
  split
  · exact ⟨(State.effects_power ..).trans hpower, (State.effects_rel ..).trans hrel,
      fun hno => State.effects_latched _ _ _ (hlatched hno), by rw [State.notePower, State.raise_quiet]; exact hframe⟩
  · exact ⟨hpower, hrel, hlatched, hframe⟩

theorem State.setHalf_other {k : HalfId} (hk : k ≠ h) (s : State) (v : HalfPower) : (s.setHalf h v).power.half k = s.power.half k := by
  cases h <;> cases k
  · exact absurd rfl hk
  · rfl
  · rfl
  · exact absurd rfl hk

theorem stepDownClause (hhot : (s.power.half h).emergency = true ∨ (s.power.half h).powerHot = true) (hlost : s.rel.lost h = false)
    (hdue : (s.power.half h).stepDue s.now = true) (hfast : 200 < (s.power.half h).run) :
    ∃ t, exec (.thermalStepDown h) s = .next t ∧ (t.power.half h).run = (s.power.half h).run - 100 ∧
      (t.power.half h).setPoint = (s.power.half h).setPoint ∧ (t.power.half h).point = (s.power.half h).point ∧
      (t.power.half h).lastStep = some s.now ∧ t.rel = { s.rel with degraded := true } ∧
      (s.rel.degraded = false → t.latched 21 = true) ∧ (∀ k, k ≠ h → t.power.half k = s.power.half k) ∧
      { t.quiet with power := s.power, rel := s.rel } = s.quiet := by
  obtain ⟨hpower, hrel, hlatched, hframe⟩ := s.steppedDown_spec h
  refine ⟨_, congrArg Host.Outcome.next (thermalStepDown_due hhot hlost hdue hfast), ?_, ?_, ?_, ?_, hrel, hlatched, fun k hk => ?_, hframe⟩
  · rw [hpower, State.setHalf_half]; rfl
  · rw [hpower, State.setHalf_half]; rfl
  · rw [hpower, State.setHalf_half]; rfl
  · rw [hpower, State.setHalf_half]; rfl
  · rw [hpower, State.setHalf_other hk]

theorem thermalStepUp_due {k : Nat} (he : (s.power.half h).emergency = false) (hp : (s.power.half h).powerHot = false)
    (hlost : s.rel.lost h = false) (hcool : (s.power.half h).coolSince = some k) (hlong : k + 1600000 ≤ s.now)
    (hdue : (s.power.half h).stepDue s.now = true) (hslow : (s.power.half h).run < (s.power.half h).setPoint) :
    thermalStepUp h s = s.setHalf h ((s.power.half h).stepUp s.now) := by
  have hh : (s.power.half h).hot = false := by rw [HalfPower.hot, he, hp]; rfl
  have hgo : ((s.power.half h).hot || s.rel.lost h || decide (s.now < k + 1600000) || !(s.power.half h).stepDue s.now ||
      decide ((s.power.half h).setPoint ≤ (s.power.half h).run)) = false := by
    rw [hh, hlost, hdue, decide_eq_false (Nat.not_lt.2 hlong), decide_eq_false (Nat.not_le.2 hslow)]
    rfl
  unfold thermalStepUp
  dsimp only
  split
  · next hnone => nomatch hcool.symm.trans hnone
  · next t ht =>
    obtain rfl := Option.some.inj (ht.symm.trans hcool)
    exact if_neg (by rw [hgo]; exact Bool.false_ne_true)

theorem stepUpClause {k : Nat} (he : (s.power.half h).emergency = false) (hp : (s.power.half h).powerHot = false)
    (hlost : s.rel.lost h = false) (hcool : (s.power.half h).coolSince = some k) (hlong : k + 1600000 ≤ s.now)
    (hdue : (s.power.half h).stepDue s.now = true) (hslow : (s.power.half h).run < (s.power.half h).setPoint) :
    ∃ t, exec (.thermalStepUp h) s = .next t ∧
      (t.power.half h).run = min (s.power.half h).setPoint ((s.power.half h).run + 100) ∧
      (t.power.half h).setPoint = (s.power.half h).setPoint ∧ (t.power.half h).point = (s.power.half h).point ∧
      (t.power.half h).lastStep = some s.now ∧
      (∀ k, k ≠ h → t.power.half k = s.power.half k) ∧ { t with power := s.power } = s := by
  refine ⟨_, congrArg Host.Outcome.next (thermalStepUp_due he hp hlost hcool hlong hdue hslow), ?_, ?_, ?_, ?_,
    fun k hk => State.setHalf_other hk .., ?_⟩
  · rw [State.setHalf_half]; rfl
  · rw [State.setHalf_half]; rfl
  · rw [State.setHalf_half]; rfl
  · rw [State.setHalf_half]; rfl
  · cases h <;> rfl

/-! ### The loss of an array (R488, R492) -/

theorem State.loseArray_eq (hlost : s.rel.lost h = false) :
    s.loseArray h = ({ (s.setArray h 1).loseCells (fun c => decide (cellHalf c = h)) with
      rel := { (s.setArray h 1).rel with degraded := true } } : State).noteMapChange 3 (halfCode h) s.capabilityId :=
  if_neg (by rw [hlost]; exact Bool.false_ne_true)

/-- The array is lost in the map, its cells are unusable, and DEGRADED is reported; nothing of the links, the streams or the power
state changes. -/
theorem State.loseArray_spec (hlost : s.rel.lost h = false) :
    (s.loseArray h).rel.array h = 1 ∧ (s.loseArray h).rel.degraded = true ∧ (s.loseArray h).latched 21 = true ∧
      (∀ c, cellHalf c = h → (s.loseArray h).rel.usable c = false) ∧ (s.loseArray h).power = s.power ∧
      (s.loseArray h).streams = s.streams ∧ (s.loseArray h).plane = s.plane := by
  obtain ⟨hside, hlatched⟩ := State.noteMapChange_spec ({ (s.setArray h 1).loseCells (fun c => decide (cellHalf c = h)) with
      rel := { (s.setArray h 1).rel with degraded := true } } : State) 3 (halfCode h) s.capabilityId
  rw [← State.loseArray_eq hlost] at hside hlatched
  have harray : (s.loseArray h).rel.array h = 1 := by
    rw [State.rel_of_mapSide (fun r => r.array h) (fun _ => by cases h <;> rfl) hside]
    cases h <;> rfl
  refine ⟨harray, State.rel_of_mapSide (fun r => r.degraded) (fun _ => rfl) hside, hlatched, fun c hc => ?_, ?_, ?_, ?_⟩
  · have hgone : (s.loseArray h).rel.lost (cellHalf c) = true := by rw [hc]; exact decide_eq_true harray
    rw [Reliability.usable, hgone, Bool.not_true, Bool.and_false]
  · exact (State.power_of_mapSide hside).trans (by cases h <;> rfl)
  · exact (State.streams_of_mapSide hside).trans (by cases h <;> rfl)
  · exact (State.plane_of_mapSide hside).trans (by cases h <;> rfl)

theorem halfArrayLost_long {k : Nat} (hlow : (s.power.half h).lowSince = some k) (hlong : k + 1600000 ≤ s.now) :
    halfArrayLost h s = s.loseArray h := by
  unfold halfArrayLost
  rw [hlow]
  exact if_pos (Bool.or_eq_true_iff.2 (.inl (decide_eq_true hlong)))

theorem powerGoodLoss_array {r : Rail} (hr : (r = Rail.north ∧ h = .north) ∨ (r = Rail.south ∧ h = .south)) :
    powerGoodLoss r s = s.loseArray h := by
  rcases hr with ⟨rfl, rfl⟩ | ⟨rfl, rfl⟩
  · rfl
  · rfl

/-! ### The power cap (R506) -/

theorem State.repoint_power (s : State) (h : HalfId) (v : HalfPower) : (s.repoint h v).power = (s.setHalf h v.pointed).power :=
  congrArg (fun x => x.2.2) (s.repoint_kept h v)

theorem State.repoint_boot (s : State) (h : HalfId) (v : HalfPower) : (s.repoint h v).boot = s.boot :=
  (congrArg (fun x => x.2.1) (s.repoint_kept h v)).trans (State.setHalf_boot ..)

theorem State.formPending_rest (s : State) (h : HalfId) : (s.formPending h).streams = s.streams ∧ (s.formPending h).plane = s.plane := by
  cases h <;> exact ⟨rfl, rfl⟩

/-- Forming a set point again leaves the streams and the links. -/
theorem State.repoint_rest (s : State) (h : HalfId) (v : HalfPower) :
    (s.repoint h v).streams = s.streams ∧ (s.repoint h v).plane = s.plane := by
  obtain ⟨hstreams, hplane⟩ := (s.setHalf h v).formPending_rest h
  have hs := hstreams.trans (State.setHalf_streams ..)
  have hp := hplane.trans (State.setHalf_plane ..)
  have hside := ((s.setHalf h v).formPending h).newDistance.recheck_mapSide
  unfold State.repoint
  dsimp only
  split
  · exact ⟨hs, hp⟩
  · exact ⟨(State.streams_of_mapSide hside).trans hs, (State.plane_of_mapSide hside).trans hp⟩

/-- The gate after a comparison that changes no throttle: the next one is due, and the intervals below P are counted. -/
def State.compared (s : State) : State :=
  { s with power := { s.power with
      compareAt := s.now + 1600000, belowCount := if 10 * s.gateAverage < 9 * s.power.cap then s.power.belowCount + 1 else 0 } }

/-- The half with the higher estimate, the south one when they are equal (R506). -/
def Power.higher (p : Power) : HalfId := if p.south.estimate < p.north.estimate then .north else .south

theorem powerCapCompare_armed (hdue : s.power.compareAt ≤ s.now) (ha : s.cast.armed.isSome = true) : powerCapCompare s = s.compared :=
  (if_neg (Nat.not_lt.2 hdue)).trans (if_pos ha)

theorem powerCapCompare_above (hdue : s.power.compareAt ≤ s.now) (ha : s.cast.armed = none) (hp : s.power.throttlePending = false)
    (hcap : s.power.cap < s.gateAverage) : powerCapCompare s = s.compared.throttleDown s.power.higher := by
  have harmed : ¬ s.cast.armed.isSome = true := by rw [ha]; exact Bool.false_ne_true
  have hpending : ¬ s.power.throttlePending = true := by rw [hp]; exact Bool.false_ne_true
  exact (if_neg (Nat.not_lt.2 hdue)).trans ((if_neg harmed).trans ((if_pos hcap).trans (if_neg hpending)))

/-- A half's throttle limit 100 MHz lower (R506). -/
def HalfPower.throttled (v : HalfPower) : HalfPower := { v with throttle := v.throttle - 100 }

theorem State.throttleDown_spec (hfast : 200 < (s.power.half h).throttle) :
    let t := s.throttleDown h
    t.power = (({ s with power := { s.power with throttlePending := true } } : State).setHalf h (s.power.half h).throttled.pointed).power ∧
      t.latched 23 = true ∧ t.streams = s.streams ∧ t.plane = s.plane ∧ t.boot = s.boot := by
  let u : State := { s with power := { s.power with throttlePending := true } }
  have hrun : s.throttleDown h =
      (u.repoint h (s.power.half h).throttled).notePower 1 h ((s.power.half h).throttle - 100) s.gateAverage :=
    if_neg (Nat.not_le.2 hfast)
  obtain ⟨hstreams, hplane⟩ := u.repoint_rest h (s.power.half h).throttled
  dsimp only
  rw [hrun]
  exact ⟨(State.effects_power ..).trans (State.repoint_power ..), State.raise_latched .., (State.effects_streams ..).trans hstreams,
    (State.effects_plane ..).trans hplane, (State.effects_boot ..).trans (State.repoint_boot ..)⟩

theorem capClause (hdue : s.power.compareAt ≤ s.now) (ha : s.cast.armed = none) (hp : s.power.throttlePending = false)
    (hcap : s.power.cap < s.gateAverage) (hh : s.power.higher = h) (hfast : 200 < (s.power.half h).throttle) :
    ∃ t, exec .powerCapCompare s = .next t ∧ (t.power.half h).throttle = (s.power.half h).throttle - 100 ∧
      (t.power.half h).point = min (s.power.half h).opSet ((s.power.half h).throttle - 100) ∧
      t.power.throttlePending = true ∧ t.power.compareAt = s.now + 1600000 ∧ t.latched 23 = true ∧
      (∀ k, (t.power.half k).run = (s.power.half k).run ∧ (t.power.half k).setPoint = (s.power.half k).setPoint) ∧
      t.streams = s.streams ∧ t.plane = s.plane ∧ t.boot = s.boot := by
  have hsame : s.compared.power.half h = s.power.half h := by cases h <;> rfl
  obtain ⟨hpower, hlatched, hstreams, hplane, hboot⟩ := State.throttleDown_spec (s := s.compared) (h := h) (by rwa [hsame])
  rw [hsame] at hpower
  refine ⟨_, congrArg Host.Outcome.next ((powerCapCompare_above hdue ha hp hcap).trans (by rw [hh])), ?_, ?_, ?_, ?_, hlatched,
    fun k => ?_, hstreams, hplane, hboot⟩
  · rw [hpower, State.setHalf_half]; rfl
  · rw [hpower, State.setHalf_half, HalfPower.pointed_point]; rfl
  · rw [hpower]; cases h <;> rfl
  · rw [hpower]; cases h <;> rfl
  · rw [hpower]
    by_cases hk : k = h
    · rw [hk, State.setHalf_half]
      exact ⟨rfl, rfl⟩
    · rw [State.setHalf_other hk]
      cases k <;> exact ⟨rfl, rfl⟩

/-- Settles O29: the steps and the losses of one half, then the comparison with P by what it finds. -/
theorem clockStepsAndCap : Obligations.ClockStepsAndCap := by
  unfold Obligations.ClockStepsAndCap
  refine ⟨fun s h => ⟨stepDownClause, fun _ => stepUpClause, fun k hlow hlong hlost => ?_, fun r hr hlost => ?_⟩,
    fun s hdue => ⟨fun ha hp hcap hfast => capClause hdue ha hp hcap rfl hfast, fun ha => ?_⟩⟩
  · exact ⟨_, congrArg Host.Outcome.next (halfArrayLost_long hlow hlong), State.loseArray_spec hlost⟩
  · exact ⟨_, congrArg Host.Outcome.next (powerGoodLoss_array hr), State.loseArray_spec hlost⟩
  · exact ⟨_, congrArg Host.Outcome.next (powerCapCompare_armed hdue ha), rfl, rfl, rfl, rfl⟩

end Sys2Proof.Machine
end

section
/-! SUPPORT. A function reset at its boundary and at its completion, and an engine abort (R452, R460, R461, R464 to R467). -/

namespace Sys2Proof.Machine

variable {s : State} {w : Waiting}

/-! ### The boundary of a function reset (R452, R460, R461) -/

/-- What ending the casts and the staging of a function reset leaves: the boot state, the power state, the streams and the epoch
counter (R461). -/
def State.resetSide (s : State) : Boot × Power × Streams × Nat := (s.boot, s.power, s.streams, s.cast.epoch)

theorem State.cancelArmed_resetSide (s : State) : s.cancelArmed.resetSide = s.resetSide := by
  unfold State.cancelArmed
  split
  · exact (State.of_quiet State.resetSide (fun _ => rfl) (State.count1_quiet ..)).trans rfl
  · rfl

theorem State.noteCast_resetSide (s : State) (id : DWord) (epoch status instant : Nat) :
    (s.noteCast id epoch status instant).resetSide = s.resetSide :=
  State.of_quiet State.resetSide (fun _ => rfl) (State.raise_quiet ..)

theorem State.stopStaging_resetSide (s : State) : s.stopStaging.resetSide = s.resetSide :=
  (State.of_apart State.resetSide (fun _ => rfl) (State.answerFrom_apart ..)).trans rfl

theorem State.endCasts_resetSide (s : State) : s.endCasts.resetSide = s.resetSide := by
  unfold State.endCasts
  cases s.cast.armed with
  | none =>
    dsimp only
    split
    · exact (State.noteCast_resetSide ..).trans rfl
    · rfl
  | some a =>
    have harmed : ((s.cancelArmed).noteCast a.policyId a.epoch Status.timeout a.instant).resetSide = s.resetSide :=
      (State.noteCast_resetSide ..).trans s.cancelArmed_resetSide
    dsimp only
    split
    · exact (State.noteCast_resetSide ..).trans harmed
    · exact harmed

/-- A stream that a function reset closes has nothing in flight (R461). -/
theorem Stream.closedByReset_empty (st : Stream) (now : Nat) :
    (st.closedByReset now).state = .closed ∧ (st.closedByReset now).steps = [] ∧ (st.closedByReset now).inp.chunks = [] := by
  unfold Stream.closedByReset
  split
  · next hclosed => exact ⟨hclosed, rfl, rfl⟩
  · exact ⟨rfl, rfl, rfl⟩

/-- What the screening functions hold after they are cleared; delivering the packets anew changes none of it (R27, R452). -/
theorem State.clearFunctions_holds (s : State) (b : Nat) :
    (s.clearFunctions b).cast =
        { epoch := s.cast.epoch, placements := s.cast.placements, defaultState := true, resetting := some b } ∧
      (s.clearFunctions b).eng = {} ∧ (s.clearFunctions b).grid = {} ∧
      (s.clearFunctions b).streams.table = s.streams.table.map (fun e => (e.1, e.2.closedByReset s.now)) ∧
      (s.clearFunctions b).power = s.power ∧ (s.clearFunctions b).boot = s.boot := by
  have hin := deliverAll_inside (s.plane.inbox ++ s.streams.textWait)
  exact ⟨State.of_inside State.cast (fun _ => rfl) (hin _), State.of_inside State.eng (fun _ => rfl) (hin _),
    State.of_inside State.grid (fun _ => rfl) (hin _), State.of_inside (fun v => v.streams.table) (fun _ => rfl) (hin _),
    (State.of_inside State.power (fun _ => rfl) (hin _)).trans rfl, (State.of_inside State.boot (fun _ => rfl) (hin _)).trans rfl⟩

/-- The state that a function reset leaves at its boundary, before its command waits for the completion. -/
def State.functionsReset (s : State) (b : Nat) : State := ((s.popWaiting.stopStaging).endCasts).clearFunctions b

theorem functionResetBoundary_due (h : s.dueWaiting 0x0703 = some w) (howes : s.streams.table.any (fun e => e.2.owes (w.due - 1)) = false)
    (hopens : s.streams.opens.any (fun o => decide (o.stamp + 512 < w.due)) = false)
    (hcast : s.cast.armed.any (fun a => decide (a.instant < w.due)) = false) :
    ∃ body, functionResetBoundary s = (s.functionsReset w.due).waitCompletion { w with body := body } := by
  unfold functionResetBoundary
  simp only [h, howes, hopens, hcast, Bool.or_self, Bool.false_eq_true, if_false]
  exact ⟨_, rfl⟩

theorem functionResetBoundaryClause (h : s.dueWaiting 0x0703 = some w)
    (howes : s.streams.table.any (fun e => e.2.owes (w.due - 1)) = false)
    (hopens : s.streams.opens.any (fun o => decide (o.stamp + 512 < w.due)) = false)
    (hcast : s.cast.armed.any (fun a => decide (a.instant < w.due)) = false) :
    ∃ t, exec .functionResetBoundary s = .next t ∧ t.cast.active = none ∧ t.cast.retained = none ∧ t.cast.staged = none ∧
      t.cast.armed = none ∧ t.cast.writing = none ∧ t.cast.defaultState = true ∧ t.cast.epoch = s.cast.epoch ∧
      t.eng = {} ∧ t.grid = {} ∧ (∀ e ∈ t.streams.table, e.2.state = .closed ∧ e.2.steps = [] ∧ e.2.inp.chunks = []) ∧
      t.streams.table.map (fun e => e.1) = s.streams.table.map (fun e => e.1) ∧ t.power = s.power ∧ t.boot = s.boot := by
  obtain ⟨body, ht⟩ := functionResetBoundary_due h howes hopens hcast
  have hside : ((s.popWaiting.stopStaging).endCasts).resetSide = s.resetSide :=
    (State.endCasts_resetSide _).trans (State.stopStaging_resetSide _)
  obtain ⟨hboot, hpower, hstreams, hepoch⟩ :
      ((s.popWaiting.stopStaging).endCasts).boot = s.boot ∧ ((s.popWaiting.stopStaging).endCasts).power = s.power ∧
        ((s.popWaiting.stopStaging).endCasts).streams = s.streams ∧ ((s.popWaiting.stopStaging).endCasts).cast.epoch = s.cast.epoch := by
    simpa only [State.resetSide, Prod.mk.injEq] using hside
  obtain ⟨hc, heng, hgrid, htable, hp, hb⟩ := State.clearFunctions_holds ((s.popWaiting.stopStaging).endCasts) w.due
  rw [hstreams] at htable
  rw [hepoch] at hc
  refine ⟨_, congrArg Host.Outcome.next ht, ?_, ?_, ?_, ?_, ?_, ?_, ?_, heng, hgrid, ?_, ?_, hp.trans hpower, hb.trans hboot⟩
  · exact congrArg Casting.active hc
  · exact congrArg Casting.retained hc
  · exact congrArg Casting.staged hc
  · exact congrArg Casting.armed hc
  · exact congrArg Casting.writing hc
  · exact congrArg Casting.defaultState hc
  · exact (congrArg Casting.epoch hc).trans rfl
  · intro e he
    have he' : e ∈ (s.functionsReset w.due).streams.table := he
    rw [State.functionsReset, htable] at he'
    obtain ⟨e0, -, rfl⟩ := List.mem_map.1 he'
    exact Stream.closedByReset_empty ..
  · exact (congrArg (List.map _) htable).trans (List.map_map ..)

/-! ### The completion of a function reset (R452, R467) -/

/-- An answer writes no queue but the NOTICE queue 0 (R424). -/
theorem State.answerFrom_queue {q : QueueId} (hq : q ≠ 0) (u : State) (src : Option (MPort × Fin 32)) (st : Nat) (b : List Byte) :
    (u.answerFrom src st b).queue q = u.queue q := by
  unfold State.answerFrom State.respond
  dsimp only
  split
  · split
    · exact State.effects_queue _ _ q hq rfl
    · rfl
  · rfl

theorem State.noteReset_queue {q : QueueId} (hq : q ≠ 0) (u : State) (g i p cls accept boundary closed : Nat)
    (port : Option (MPort × Fin 32)) : ((u.count1 g i p).noteReset cls accept boundary port closed).queue q = u.queue q :=
  (State.effects_queue _ _ q hq rfl).trans (State.effects_queue _ _ q hq rfl)

theorem State.resetPolicyQueues_queue {q : QueueId} (hq : 3 ≤ q.val) (s : State) : s.resetPolicyQueues.queue q = resetQueue q := by
  have hgone : aget q s.resetPolicyQueues.queues = none := by
    cases h : aget q s.resetPolicyQueues.queues with
    | none => rfl
    | some v =>
      have hlow := (List.mem_filter.1 (mem_of_aget h)).2
      exact absurd (of_decide_eq_true hlow) (Nat.not_lt.2 hq)
  rw [State.queue, hgone, Option.getD_none]

/-- Every slot FREE with its generation one higher, the queues reset, and the command off the list (R452). -/
def State.slotsFreed (s : State) (w : Waiting) : State :=
  (({ s with
      streams := { s.streams with table := [], genBase := s.streams.genBase + 1,
                                  freed := s.streams.freed ++ s.streamsInOrder.map (fun x => x.1) }
      cast := { s.cast with resetting := none } } : State).resetPolicyQueues).dropCompleting w

theorem functionResetCompleteClause (h : s.completing 0x0703 = some w) :
    ∃ t, exec .functionResetComplete s = .next t ∧ t.streams.table = [] ∧ t.streams.genBase = s.streams.genBase + 1 ∧
      t.cast = { s.cast with resetting := none } ∧ (∀ q : QueueId, 3 ≤ q.val → t.queue q = resetQueue q) ∧
      (∀ p n, w.from? = some (p, n) → s.Answered t p n Status.ok []) ∧ t.latched 18 = true ∧
      t.plane = s.plane ∧ t.power = s.power ∧ t.boot = s.boot ∧ t.eng = s.eng ∧ t.grid = s.grid := by
  let v := ((s.slotsFreed w).count1 0x12 0 1).noteReset 2 w.accept w.due w.from? (field w.body 0 4)
  have hquiet : v.quiet = (s.slotsFreed w).quiet := (State.raise_quiet ..).trans (State.count1_quiet ..)
  have hr : functionResetComplete s = v.answerFrom w.from? Status.ok [] := by
    unfold functionResetComplete
    simp only [h]
    rfl
  have hapart : (v.answerFrom w.from? Status.ok []).apart = (s.slotsFreed w).apart :=
    (State.answerFrom_apart ..).trans (State.apart_of_quiet hquiet)
  refine ⟨_, congrArg Host.Outcome.next hr, State.of_apart (fun x => x.streams.table) (fun _ => rfl) hapart,
    State.of_apart (fun x => x.streams.genBase) (fun _ => rfl) hapart, State.of_apart State.cast (fun _ => rfl) hapart,
    fun q hq => ?_, fun p n hf => ?_, State.answerFrom_latched (State.raise_latched ..) _ _ _,
    (State.of_apart State.plane (fun _ => rfl) hapart).trans rfl, (State.of_apart State.power (fun _ => rfl) hapart).trans rfl,
    (State.of_apart State.boot (fun _ => rfl) hapart).trans rfl, (State.of_apart State.eng (fun _ => rfl) hapart).trans rfl,
    (State.of_apart State.grid (fun _ => rfl) hapart).trans rfl⟩
  · have hq0 : q ≠ 0 := fun hz => by subst hz; exact absurd hq (by decide)
    rw [State.answerFrom_queue hq0, State.noteReset_queue hq0]
    exact State.resetPolicyQueues_queue hq _
  · rw [hf]
    exact State.respond_answered_of_mbox (State.of_quiet (fun x => x.ctl.mbox) (fun _ => rfl) hquiet) _ _

/-! ### The streams that an engine abort closes (R464, R465) -/

/-- One bound stream aborted. -/
def State.abortBound (t : State) (x : SlotId × Stream) : State :=
  let c := t.atContext x.1 x.2
  ((c.1.work x.1 c.2).abort 12 0x0705).run c.1

/-- Meeting a stream's context changes nothing, or is work on that stream. -/
theorem State.atContext_cases (t : State) (k : SlotId) (st : Stream) :
    t.atContext k st = (t, st) ∨ ∃ v : Work, v.env.slot = k ∧ t.atContext k st = (v.run t, v.st) := by
  cases hp : st.poisoned with
  | none => exact .inl (State.atContext_clean hp)
  | some a =>
    cases he : st.ended with
    | true => exact .inl (by simp only [State.atContext, hp, he, if_true])
    | false => exact .inr ⟨_, (State.poisonWork_spec he t k a).2.2.1, State.atContext_poisoned hp he⟩

/-- An aborted stream stands CLOSED in its slot, and no other slot changes. -/
theorem State.abortBound_table (t : State) (x : SlotId × Stream) :
    ∃ y : Stream, y.state = .closed ∧ (t.abortBound x).streams.table = aset x.1 y t.streams.table := by
  obtain ⟨k, st⟩ := x
  have habort := fun u z => Work.abort_st (State.work u k z) 12 0x0705
  rcases t.atContext_cases k st with hc | ⟨v, hk, hc⟩
  · obtain ⟨hclosed, -, -, -, -, -, -, henv⟩ := habort t st
    refine ⟨_, hclosed, ?_⟩
    simp only [State.abortBound, hc, Work.run_table, henv]
    rfl
  · obtain ⟨hclosed, -, -, -, -, -, -, henv⟩ := habort (v.run t) v.st
    refine ⟨_, hclosed, ?_⟩
    simp only [State.abortBound, hc, Work.run_table, henv, hk]
    exact aset_aset ..

/-- What neither the stream's own table nor sending touches, an abort leaves. -/
theorem State.abortBound_rest {α : Type} (f : State → α)
    (hf : ∀ (v : State) (k x e), f { (v.setStream k x).inside with eng := e } = f v) (t : State) (x : SlotId × Stream) :
    f (t.abortBound x) = f t := by
  refine (Work.run_rest f hf _ _).trans ?_
  rcases t.atContext_cases x.1 x.2 with hc | ⟨v, -, hc⟩
  · rw [hc]
  · rw [hc]
    exact Work.run_rest f hf v t

/-- All of the bound streams aborted, in the order of their slots. -/
def State.abortAll (t : State) (hit : List (SlotId × Stream)) : State := hit.foldl State.abortBound t

theorem State.abortAll_rest {α : Type} (f : State → α)
    (hf : ∀ (v : State) (k x e), f { (v.setStream k x).inside with eng := e } = f v) (t : State) (hit : List (SlotId × Stream)) :
    f (t.abortAll hit) = f t :=
  foldl_keeps State.abortBound f (State.abortBound_rest f hf) hit t

/-- Slot k holds a CLOSED stream. -/
def State.ClosedAt (t : State) (k : SlotId) : Prop := ∃ y, aget k t.streams.table = some y ∧ y.state = .closed

theorem State.abortBound_closes (t : State) (x : SlotId × Stream) : (t.abortBound x).ClosedAt x.1 := by
  obtain ⟨y, hclosed, htable⟩ := t.abortBound_table x
  exact ⟨y, by rw [htable, aget_aset_self], hclosed⟩

theorem State.abortBound_other {k : SlotId} (t : State) {x : SlotId × Stream} (hk : k ≠ x.1) :
    aget k (t.abortBound x).streams.table = aget k t.streams.table := by
  obtain ⟨y, -, htable⟩ := t.abortBound_table x
  rw [htable, aget_aset_ne hk]

theorem State.ClosedAt.abortBound {t : State} {k : SlotId} (h : t.ClosedAt k) (x : SlotId × Stream) : (t.abortBound x).ClosedAt k := by
  by_cases hk : k = x.1
  · exact hk ▸ t.abortBound_closes x
  · unfold State.ClosedAt
    rw [t.abortBound_other hk]
    exact h

theorem State.ClosedAt.abortAll {t : State} {k : SlotId} (h : t.ClosedAt k) (hit : List (SlotId × Stream)) :
    (t.abortAll hit).ClosedAt k := by
  induction hit generalizing t with
  | nil => exact h
  | cons x xs ih => exact ih (h.abortBound x)

theorem State.abortAll_closes (t : State) {hit : List (SlotId × Stream)} {x : SlotId × Stream} (hx : x ∈ hit) :
    (t.abortAll hit).ClosedAt x.1 := by
  induction hit generalizing t with
  | nil => nomatch hx
  | cons z zs ih =>
    rcases List.mem_cons.1 hx with rfl | hx
    · exact (t.abortBound_closes x).abortAll zs
    · exact ih (t.abortBound z) hx

theorem State.abortAll_other (t : State) {hit : List (SlotId × Stream)} {k : SlotId} (hk : k ∉ hit.map (fun x => x.1)) :
    aget k (t.abortAll hit).streams.table = aget k t.streams.table := by
  induction hit generalizing t with
  | nil => rfl
  | cons z zs ih =>
    rw [List.map_cons, List.mem_cons, not_or] at hk
    exact (ih (t.abortBound z) hk.2).trans (t.abortBound_other hk.1)

/-! ### The boundary of an engine abort (R465, R466) -/

/-- The streams bound to the engine that a waiting abort names. -/
def State.abortHit (s : State) (w : Waiting) : List (SlotId × Stream) :=
  s.boundStreams (field w.body 0 1) (abortHalf w.body) (abortUnit w.body)

/-- The bound streams aborted, the engine's work discarded and its restart under way. -/
def State.engineStopped (s : State) (w : Waiting) : State :=
  let s1 := s.popWaiting.abortAll (s.abortHit w)
  { s1 with eng := { (s1.eng.clear (field w.body 0 1) (abortHalf w.body) (abortUnit w.body)) with
    restarting := s1.eng.restarting ++ [(field w.body 0 1, abortHalf w.body, abortUnit w.body, w.due)] } }

/-- An abort with nothing that commits before it: its notice, and the command waits with how many streams it closed. -/
theorem engineAbortBoundary_due (h : s.dueWaiting 0x0705 = some w) (howes : (s.abortHit w).any (fun x => x.2.owes w.due) = false) :
    engineAbortBoundary s = (((s.engineStopped w).count1 0x12 0 2).noteReset 3 w.accept w.due w.from? (s.abortHit w).length).waitCompletion
      { w with body := w.body ++ leBytes 4 ((s.abortHit w).filter (fun x => !x.2.ended)).length } := by
  unfold engineAbortBoundary
  simp only [h]
  exact if_neg (by rw [State.abortHit] at howes; rw [howes]; exact Bool.false_ne_true)

theorem engineAbortBoundary_waits (h : s.dueWaiting 0x0705 = some w) (howes : (s.abortHit w).any (fun x => x.2.owes w.due) = true) :
    engineAbortBoundary s = s := by
  unfold engineAbortBoundary
  simp only [h]
  exact if_pos howes

/-- What counting the abort and raising its notice leave of the engine's stop. -/
theorem State.engineStopped_leaves {v : State} (hquiet : v.quiet = (s.engineStopped w).quiet) :
    (field w.body 0 1, abortHalf w.body, abortUnit w.body, w.due) ∈ v.eng.restarting ∧
      v.streams.table = (s.popWaiting.abortAll (s.abortHit w)).streams.table ∧
      v.power = s.power ∧ v.boot = s.boot ∧ v.cast = s.cast ∧ v.grid = s.grid := by
  have hrest {α : Type} (f : State → α) (hq : ∀ u : State, f u = f u.quiet) (he : ∀ (u : State) g, f { u with eng := g } = f u)
      (hw : ∀ u : State, f u.popWaiting = f u) (hf : ∀ (u : State) (k x e), f { (u.setStream k x).inside with eng := e } = f u) :
      f v = f s := calc
    f v = f (s.engineStopped w) := State.of_quiet f hq hquiet
    _ = f (s.popWaiting.abortAll (s.abortHit w)) := he _ _
    _ = f s.popWaiting := State.abortAll_rest f hf _ _
    _ = f s := hw s
  have heng : v.eng = (s.engineStopped w).eng := State.of_quiet State.eng (fun _ => rfl) hquiet
  refine ⟨?_, (State.of_quiet (fun u => u.streams.table) (fun _ => rfl) hquiet).trans rfl,
    hrest State.power (fun _ => rfl) (fun _ _ => rfl) (fun _ => rfl) (fun _ _ _ _ => rfl),
    hrest State.boot (fun _ => rfl) (fun _ _ => rfl) (fun _ => rfl) (fun _ _ _ _ => rfl),
    hrest State.cast (fun _ => rfl) (fun _ _ => rfl) (fun _ => rfl) (fun _ _ _ _ => rfl),
    hrest State.grid (fun _ => rfl) (fun _ _ => rfl) (fun _ => rfl) (fun _ _ _ _ => rfl)⟩
  rw [heng]
  exact List.mem_append_right _ List.mem_cons_self

theorem engineAbortBoundaryClause (h : s.dueWaiting 0x0705 = some w) (howes : (s.abortHit w).any (fun x => x.2.owes w.due) = false) :
    ∃ t, exec .engineAbortBoundary s = .next t ∧
      (field w.body 0 1, abortHalf w.body, abortUnit w.body, w.due) ∈ t.eng.restarting ∧ t.latched 18 = true ∧
      (∀ x ∈ s.abortHit w, ∃ y, aget x.1 t.streams.table = some y ∧ y.state = .closed) ∧
      (∀ k, k ∉ (s.abortHit w).map (fun x => x.1) → aget k t.streams.table = aget k s.streams.table) ∧
      { w with code := w.code + 0x10000, body := w.body ++ leBytes 4 ((s.abortHit w).filter (fun x => !x.2.ended)).length }
        ∈ t.ctl.waiting ∧
      t.power = s.power ∧ t.boot = s.boot ∧ t.cast = s.cast ∧ t.grid = s.grid := by
  have hrun := engineAbortBoundary_due h howes
  have hlatched : (((s.engineStopped w).count1 0x12 0 2).noteReset 3 w.accept w.due w.from? (s.abortHit w).length).latched 18 = true :=
    State.raise_latched ..
  have hquiet : (((s.engineStopped w).count1 0x12 0 2).noteReset 3 w.accept w.due w.from? (s.abortHit w).length).quiet =
      (s.engineStopped w).quiet := (State.raise_quiet ..).trans (State.count1_quiet ..)
  generalize ((s.engineStopped w).count1 0x12 0 2).noteReset 3 w.accept w.due w.from? (s.abortHit w).length = v at hrun hlatched hquiet
  obtain ⟨hrestart, htable, hrest⟩ := State.engineStopped_leaves hquiet
  refine ⟨_, congrArg Host.Outcome.next hrun, hrestart, hlatched, fun x hx => ?_, fun k hk => ?_,
    List.mem_append_right _ List.mem_cons_self, hrest⟩
  · obtain ⟨y, hy, hclosed⟩ := s.popWaiting.abortAll_closes hx
    exact ⟨y, (congrArg (aget x.1) htable).trans hy, hclosed⟩
  · exact (congrArg (aget k) htable).trans (s.popWaiting.abortAll_other hk)

/-! ### The completion of an engine abort (R465) -/

theorem engineRestartCompleteClause (h : s.completing 0x0705 = some w) :
    ∃ t, exec .engineRestartComplete s = .next t ∧
      t.eng = { s.eng with restarting := s.eng.restarting.erase (field w.body 0 1, abortHalf w.body, abortUnit w.body, w.due) } ∧
      (∀ p n, w.from? = some (p, n) → s.Answered t p n Status.ok
        (w.body.drop (w.body.length - 4) ++ List.replicate 4 0#8 ++ leBytes 8 s.now)) ∧
      { t.besides with eng := s.eng } = s.besides := by
  let key := (field w.body 0 1, abortHalf w.body, abortUnit w.body, w.due)
  let u := ({ s with eng := { s.eng with restarting := s.eng.restarting.erase key } } : State).dropCompleting w
  let body := w.body.drop (w.body.length - 4) ++ List.replicate 4 0#8 ++ leBytes 8 s.now
  have hr : engineRestartComplete s = u.answerFrom w.from? Status.ok body := by
    unfold engineRestartComplete
    simp only [h]
    rfl
  refine ⟨_, congrArg Host.Outcome.next hr, State.of_apart State.eng (fun _ => rfl) (State.answerFrom_apart ..), fun p n hf => ?_, ?_⟩
  · rw [hf]
    exact State.respond_answered_of_mbox rfl _ _
  · rw [State.answerFrom_besides]
    rfl

/-- Settles O26: each of the four commands at its tick, by the lemma about what it leaves. -/
theorem functionAndEngineResets : Obligations.FunctionAndEngineResets := by
  unfold Obligations.FunctionAndEngineResets
  intro s w
  exact ⟨functionResetBoundaryClause, functionResetCompleteClause,
    fun h => ⟨fun howes => congrArg Host.Outcome.next (engineAbortBoundary_waits h howes), engineAbortBoundaryClause h⟩,
    engineRestartCompleteClause⟩

end Sys2Proof.Machine
end
